-- ==== Sys2Proof/Word.lean ====
section
/-! DEFINITION. The word types, and the plainest arithmetic on them: little-endian packing (R4) and sign extension (R8). -/

namespace Sys2Proof

/-- A byte of memory. -/
abbrev Byte := BitVec 8

/-- A 64-bit register value. -/
abbrev Word := BitVec 64

end Sys2Proof
end

