-- ==== Sys2Proof/Machine/State.lean ====
section
/-! DEFINITION. The state of the module as plain data: sequencers, cells and their planes, homes, Concordances, Granaries,
launches and units, messages and tokens in flight, registers and the one byte memory; and the state after a cold reset. -/

namespace Sys2Proof.Machine

/-- A sparse table: keys strictly rising, no entry equal to the value an unlisted key reads as. -/
abbrev SMap (α : Type) := List (Nat × α)

/-- How the machine stops with a fault. No instruction of this hardware needs one: every fault the spec describes ends a
launch and is a next state. Kept for an access the memory layout cannot express. -/
inductive Fault where
  /-- Raised by nothing that a program can reach; safe: the machine stops. -/
  | outsideModel
  deriving DecidableEq, Repr

/-- Why an instruction has no meaning here. -/
inductive Refusal where
  /-- Raised by a dispatch arm whose instruction has no meaning yet; safe: the machine stops. -/
  | notModelled (mnemonic : String)
  deriving DecidableEq, Repr

/-- Which agent acts in the next step. `event` is an event of the opcode table, chosen by `Config.event`; `load` is the
registration of an Oligil image, chosen by `Config.image`. -/
inductive Now where
  | idle
  | clk
  | seq (tile : Nat)
  | handler (cell : Nat)
  | event
  | image
  deriving DecidableEq, Repr, Inhabited

/-- An error that a protected structure meets (R340, R341): its cause, its die, a cell of it, the launch whose access or state meets it where a
structure serves several, and whether it is corrected. -/
structure Upset where
  code : BitVec 8
  die : Nat
  cell : Nat
  unit : Option Nat
  fixed : Bool
  deriving DecidableEq, Repr, Inhabited

/-- A packet that reaches this module from a Kelmar Link-X peer (R352): the sending module, its job, the VA and the data. -/
structure PeerPacket where
  peer : Nat
  vmid : BitVec 16
  va : Nat
  data : BitVec 512
  deriving DecidableEq, Repr, Inhabited

/-- A pattern record (R14), as its four 64-bit words. -/
structure Pattern where
  w0 : Word
  w1 : Word
  w2 : Word
  w3 : Word
  deriving DecidableEq, Repr

/-- An iteration register n0-n3 (R61). -/
structure NReg where
  count : BitVec 32
  index : BitVec 32
  deriving DecidableEq, Repr

/-- A static flit (R86); `beat` is a beat on the drain strobe in place of a flit (R171). -/
structure Flit where
  data : BitVec 512
  fmt : BitVec 3
  mark : BitVec 3
  plane : BitVec 8
  pmark : BitVec 1
  beat : Bool
  deriving DecidableEq, Repr

/-- One token beat (R128). -/
structure Token where
  pctl : BitVec 1
  pdata : BitVec 1
  aux : BitVec 8
  dest : BitVec 18
  slot : BitVec 6
  field : BitVec 2
  lvl : BitVec 3
  ctx : BitVec 8
  iter : BitVec 10
  beats : BitVec 3
  head : BitVec 1
  fmt : BitVec 3
  data : Word
  deriving DecidableEq, Repr

/-- A packet's place in a flow between dies (R234): the flow's key and the sequence number. -/
structure FlowRef where
  flow : Nat
  seq : BitVec 16
  deriving DecidableEq, Repr

/-- A token, packet or predicate flit in flight: where it is, who sent it, and its flow when it crosses dies. `due` marks one that a hold buffer
has delivered, which goes ahead of later ones of its context (R315). -/
structure NetTok where
  tok : Token
  more : List Token
  pos : Nat
  src : Nat
  owner : Nat
  pred : Bool
  flow : Option FlowRef
  arrived : Bool
  due : Bool
  deriving DecidableEq, Repr

/-- A value with its format tag (R118). -/
structure TVal where
  data : Word
  fmt : BitVec 3
  deriving DecidableEq, Repr

/-- A matching-store entry (R131): a waiting token (a packet with its later beats), a held sticky L, or a waiting control
token. `seq` orders arrivals; `busy` marks an input of the started block. -/
structure MEnt where
  tok : Token
  more : List Token
  sticky : Bool
  seq : Nat
  ord : Nat
  busy : Bool
  deriving DecidableEq, Repr

/-- A channel entry (R120); `seq` orders its arrival. -/
structure ChanEnt where
  data : Word
  fmt : BitVec 3
  ctx : BitVec 8
  seq : Nat
  deriving DecidableEq, Repr

/-- A store waiting in a store buffer (R57, R142): address, target, bytes, the run it was made for (R77), and whether it has left the head. -/
structure StoreEnt where
  va : Nat
  flat : Nat
  ty : BitVec 3
  home : Nat
  n : Nat
  data : BitVec 512
  owner : Nat
  run : Nat
  sent : Bool
  deriving DecidableEq, Repr

/-- Where an engine's reply goes (R46): a sequencer, a phaser-signal entry of its dependence table (R77), or a slot and field with
the requester's tag. -/
inductive ReplyTo where
  | none
  | seq (tile : Nat)
  | dep (tile entry : Nat)
  | cell (dest : BitVec 18) (slot : BitVec 6) (field : BitVec 2) (ctx : BitVec 8) (iter : BitVec 10) (lvl : BitVec 3)
  deriving DecidableEq, Repr

/-- What a Concordance or Granary command's packet carries (R46), which `SyncCmd.packet` lays out. `addr` is the flat address, the queue id or
the reservation handle, `aux` the LCLK at which the command left. -/
structure SyncCmd where
  code : BitVec 8
  fmt : BitVec 3
  scope : BitVec 2
  addr : Nat
  a : Word
  b : Word
  aux : Nat
  vmid : BitVec 16
  reply : ReplyTo
  deriving DecidableEq, Repr

/-- What a message in flight carries. -/
inductive MsgKind where
  /-- A miss or renewal: line, held wts, t + LEASE (R215). -/
  | loadReq (line : Nat) (wts : Option (BitVec 32)) (lim : Nat)
  /-- Its reply (R216). -/
  | loadRep (line : Nat) (wts rts : BitVec 32) (data : Option (BitVec 512))
  /-- A store to type 0, with the LCLK it left the buffer at (R217). -/
  | storeReq (e : StoreEnt) (t : BitVec 32)
  /-- Its reply: line, timestamp, the home's wts before the store, and the line's bytes after it, which a tile whose wts differs takes (R217). -/
  | storeRep (line : Nat) (ts prev : BitVec 32) (data : BitVec 512)
  /-- An engine command (R46). -/
  | cmd (c : SyncCmd)
  /-- An engine reply (R48): success, value, the hand-off time, the record of a Q.TAKE or PH.READ. -/
  | rep (dst : ReplyTo) (code : BitVec 8) (fmt : BitVec 3) (ok : Bool) (data : Word) (time : BitVec 32) (line : Option (BitVec 512))
  /-- The acknowledgement of a RED form (R218). -/
  | redAck (ts : BitVec 32)
  /-- A direct access of types 3, 4, 5, 7, or an uncached flow access of types 1 and 2 (R223-R224). -/
  | access (ty : BitVec 3) (home : Nat) (flat : Nat) (n : Nat) (write : Bool) (data : BitVec 512)
  /-- Its reply. -/
  | accessRep (flat : Nat) (n : Nat) (write : Bool) (data : BitVec 512)
  /-- A stream's read of a line at a home: port, the value it is for, the places of its bytes in the piece and in the line, the target, the
  lease limit at type 0, and whether its flow delivers in order (R70, R229, R235). -/
  | streamReq (port : Nat) (key : Nat) (bytes : List (Nat × Nat)) (ty : BitVec 3) (home : Nat) (flat : Nat) (lim : Nat) (inOrder : Bool)
  /-- A stream's read data returning to its engine: port, places, the value it is for, data, and whether its flow delivers in order (R70). -/
  | streamRet (port : Nat) (pos : Nat) (n : Nat) (data : BitVec 512) (inOrder : Bool)
  /-- A host or peer access that a migration has queued (R210): the host port, or 2 and the peer's module number, the address, and its kind: a
  read 0, a write 1, an AtomicOp 2. -/
  | host (port : Nat) (flat : Nat) (kind : Nat)
  /-- A stream write that crosses dies or leaves the module (R229, R235). -/
  | streamWr (port : Nat) (pos : Nat) (ty : BitVec 3) (home : Nat) (flat : Nat) (n : Nat) (data : BitVec 512) (clk : BitVec 32) (inOrder : Bool)
  /-- A packet of a STRM.XCH for a Kelmar Link-X peer (R352): `flow` is the command's flow field. -/
  | peer (port : Nat) (flow : Nat) (peer : Nat) (va : Nat) (data : BitVec 512)
  deriving DecidableEq, Repr

/-- A message in flight. `held` marks an access that a migration has queued (R210), one that a peer has performed (R352), or an atomic's reply
whose timestamp its requester has taken. `since` is the
device time in eighths of a ns at which it left, `run` the run it was made for (R77). -/
structure Msg where
  kind : MsgKind
  agent : Nat
  owner : Nat
  run : Nat
  die : Nat
  flow : Option FlowRef
  arrived : Bool
  held : Bool
  since : Nat
  deriving DecidableEq, Repr

/-- A stream command (R69-R71): its operation 0-7 in opcode order, its captured registers, the call level and plane it belongs to
(R314), the order of its issue (R178), and its progress. `reading` while a
read's data has yet to return, `issuedAll` once its last write has left the engine, `cut` once its stream has ended. -/
structure Cmd where
  op : BitVec 3
  pat : Pattern
  d : Word
  s : Word
  t : Word
  cell : Nat
  dlv : BitVec 2
  mask : Bool
  flow : BitVec 16
  owner : Nat
  issue : Nat
  depth : Nat
  plane : Option Nat
  lclk : BitVec 32
  dep : Option Nat
  begun : Bool
  readClk : BitVec 32
  pos : Nat
  done : Nat
  waiting : Nat
  buf : SMap (BitVec 512)
  reading : Bool
  issuedAll : Bool
  cut : Bool
  maxTs : BitVec 32
  quiet : Nat
  suspended : Bool
  deriving DecidableEq, Repr

/-- An entry of a port's queue: a command, or a QFENCE marker (R73). -/
inductive QEnt where
  | cmd (c : Cmd)
  | fence (id : Nat)
  deriving DecidableEq, Repr

/-- The result of a walk, kept for one waiting access (R206). -/
inductive XRes where
  | leaf (pte : Word) (size : BitVec 2)
  | fail (cause : BitVec 8) (level : Nat)
  deriving DecidableEq, Repr

/-- What an agent's current load has gathered: lines by flat address, walk results by page, and whether it waits. -/
structure LoadSt where
  lines : SMap (BitVec 512)
  walks : SMap XRes
  waiting : Bool
  deriving DecidableEq, Repr

/-- A port's queue, its order clock (R69, R229) and the walks its engine waits on. -/
structure PortQ where
  entries : List QEnt
  order : BitVec 32
  ld : LoadSt
  deriving DecidableEq, Repr

/-- The states of a dependence entry (R77). -/
inductive DepState where
  | opened | held | armed | issued | done
  deriving DecidableEq, Repr

/-- What a dependence entry captured (R77). -/
inductive DepStep where
  | none
  | stream (c : Cmd) (port : Nat) (tile : Nat)
  | run (idx : BitVec 8)
  | signal (va : Word) (scope : BitVec 2)
  deriving DecidableEq, Repr

/-- A dependence entry that is not FREE (R76). `before` is the largest write high-water its predecessors handed it (R77). `run` is the run that a run entry started (R77); `rearmed` marks one that a resume issues ahead
of new commands (R83). -/
structure DepEnt where
  kind : BitVec 2
  state : DepState
  step : DepStep
  count : Nat
  succ : List Nat
  hw : BitVec 32
  before : BitVec 32
  age : Nat
  performed : Bool
  run : Nat
  rearmed : Bool
  deriving DecidableEq, Repr

/-- A tile cache line (R213). -/
structure CLine where
  wts : BitVec 32
  rts : BitVec 32
  data : BitVec 512
  deriving DecidableEq, Repr

/-- A translation cache entry (R205): its leaf, and its page size 0 64 KiB, 1 2 MiB, 2 1 GiB. -/
structure TlbEnt where
  vmid : BitVec 16
  page : Nat
  size : BitVec 2
  pte : Word
  deriving DecidableEq, Repr

/-- Consecutive load hits of one agent to one line (R230). `due` is the LCLK that the hit which brought the count to SPIN_N
sets before the agent goes on. -/
structure Spin where
  line : Nat
  count : Nat
  due : Option Nat
  deriving DecidableEq, Repr

/-- A live tag of levels 1-7 (R137). -/
structure TagEnt where
  ctx : BitVec 8
  lvl : BitVec 3
  iter : BitVec 10
  parent : BitVec 10
  first : BitVec 10
  deriving DecidableEq, Repr

/-- A queued record (R253). `slot` is its staging slot, 131,072 for none; `stamp` orders its last use (R237); `added` is the device time in
eighths of a ns at which its Q.ADD left (R257). -/
structure QRec where
  data : BitVec 512
  whw : BitVec 32
  scope : BitVec 2
  agent : Nat
  added : Nat
  tag : BitVec 8
  slot : Nat
  stamp : Nat
  spilled : Bool
  deriving DecidableEq, Repr

/-- A tile's prefetch buffer (R255). -/
structure Prefetch where
  queue : Option Nat
  recs : List QRec
  age : Nat
  deriving DecidableEq, Repr

/-- What a blocked step waits for (R53, R174). `reply` waits for a message; `poll` runs again until its condition holds.
`progress` says whether the step is a progress point, `engine` whether it is one of the waits R167 names. -/
inductive Wait where
  | reply (progress engine : Bool)
  | poll (progress : Bool)
  deriving DecidableEq, Repr

/-- A reply that reached the sequencer and completes its waiting step (R48). -/
structure SeqReply where
  code : BitVec 8
  ok : Bool
  data : Word
  time : BitVec 32
  line : Option (BitVec 512)
  deriving DecidableEq, Repr

/-- The special registers of a tile (R80), but SPC and REBASES: every REBASES equals `State.rebases` (R231). -/
structure Special where
  lclk : BitVec 32
  lease : BitVec 12
  whw : BitVec 32
  carve : BitVec 64
  qwcLimit : BitVec 32
  drift : BitVec 16
  spinN : BitVec 12
  stalls : BitVec 64
  wdog : BitVec 40
  deriving DecidableEq, Repr

/-- A tile: its sequencer, its stream ports, its caches. `tracked` holds, by the time of a Q.ADD, the flows of its unit that have yet to be
acknowledged up to a sequence number (R257). -/
structure Tile where
  a : Vector Word 16
  m : Vector Pattern 8
  n : Vector NReg 4
  spc : Word
  spr : Special
  hiWater : BitVec 32
  sbuf : List StoreEnt
  deps : SMap DepEnt
  ports : SMap PortQ
  tlb : List TlbEnt
  lines : SMap CLine
  ld : LoadSt
  spin : Spin
  drifted : Nat
  tags : List TagEnt
  ctxs : List (BitVec 8)
  pre : Prefetch
  rayslab : Word
  energy : Word
  hostLast : SMap Nat
  tracked : SMap (SMap (BitVec 16))
  wait : Option Wait
  reply : Option SeqReply
  phase : Nat
  owner : Option Nat
  deriving DecidableEq, Repr

/-- A row state of S1 (R94): the code flit held, its consumed bits, the code index in the row, the codes gathered for the
next output, the scales in force, the position in the scale group, whether the row's side flit is needed, and the CVST flags of the codes
gathered. CVT gathers its elements here too. -/
structure RowSt where
  held : Option Flit
  bit : Nat
  code : Nat
  outs : List (BitVec 64)
  side : Option Flit
  group : Nat
  bits : Nat
  width : Nat
  mark : BitVec 3
  flags : Nat
  deriving DecidableEq, Repr

/-- An accumulator entry's tag (R304): blk or count, and the SAT sticky bits (R102). -/
structure AccTag where
  count : Nat
  stuck : BitVec 16
  deriving DecidableEq, Repr

/-- A QPACK code flit held with its four scale bytes and the CVST flags it sets as it leaves (R98, R193). -/
structure QCode where
  flit : Flit
  scales : BitVec 32
  flags : Nat
  deriving DecidableEq, Repr

/-- The flit an S2T holds, the token it sends next, its scales, group position and pending control token (R125, R186). -/
structure S2T where
  flit : Option Flit
  next : Nat
  side : Option Flit
  group : Nat
  ctl : BitVec 2
  switched : Bool
  deriving DecidableEq, Repr

/-- The flit a T2S builds: its tokens, their format and tag, and whether it is closed with a mark (R125). -/
structure T2S where
  toks : List Word
  fmt : BitVec 3
  ctx : BitVec 8
  iter : BitVec 10
  closed : Bool
  mark : BitVec 3
  beatSent : Bool
  deriving DecidableEq, Repr

/-- A NETX group past its feature flits (R294, R304): the layers done, each lane's activations, the lanes that took no NaN and those that gave
one, whether a rounding overflowed, and the group's mark. -/
structure NetBank where
  layer : Nat
  lanes : List (List (BitVec 32))
  clean : BitVec 16
  nan : BitVec 16
  ovf : Bool
  mark : BitVec 3
  deriving DecidableEq, Repr

/-- What one plane of one cell holds (R304). `pend` holds, by stage, output flits that have yet to leave it, with the CVST flags they set; `netx` a
NETX group's feature flits, or MMAQ's side flit; `cvstNew` the flags of CVST set in the clk `cvstAt` (R193). -/
structure CellPlane where
  route : BitVec 32
  evroute : BitVec 32
  stages : SMap (BitVec 64)
  mode : BitVec 64
  slots : SMap (BitVec 128)
  dests : SMap (BitVec 64)
  links : SMap (List Flit)
  conv : SMap (List Flit)
  outq : SMap (List Flit)
  side : List Flit
  row : RowSt
  accs : SMap AccTag
  qvals : List (BitVec 32)
  qcodes : List QCode
  storeN : Nat
  netx : List Flit
  bank : Option NetBank
  pend : SMap (List (Flit × Nat))
  egate : BitVec 16
  lfsr : SMap (BitVec 32)
  cvst : BitVec 32
  cvstNew : BitVec 32
  cvstAt : Nat
  delays : SMap (List (BitVec 3 × BitVec 3))
  delayRd : SMap Nat
  lregs : SMap (BitVec 512)
  store : List MEnt
  chans : SMap (List ChanEnt)
  fifoRd : Nat
  fifoTags : List (BitVec 3 × BitVec 3)
  lineTags : List (BitVec 3)
  s2t : S2T
  t2s : T2S
  hops : List NetTok
  events : SMap Nat
  deriving DecidableEq, Repr

/-- A token a block emits (R118, R136, R155-R156): its entry, tag operation, beats, and its tag once it needs no grant. `loc` is the
local address of a packet's bytes, read at the commit, and `aux` the scale byte of Q4X16 data. `group` numbers the instruction and operation that
share one allocation. -/
structure Emission where
  entry : BitVec 6
  pred : Bool
  tagop : BitVec 3
  fmt : BitVec 3
  aux : BitVec 8
  beats : List Word
  loc : Option Nat
  group : Nat
  grant : Option (BitVec 8 × BitVec 10 × BitVec 3)
  deriving DecidableEq, Repr

/-- A running atomic block (R139-R142): nothing in it is visible before its commit. `laux` and `raux` are the aux bytes of its matched inputs. -/
structure Block where
  slot : BitVec 6
  pc : Nat
  issued : Nat
  ctx : BitVec 8
  iter : BitVec 10
  lvl : BitVec 3
  l : TVal
  r : TVal
  laux : BitVec 8
  raux : BitVec 8
  p : Bool
  t : Vector TVal 8
  lstores : List Host.Cell
  gstores : List StoreEnt
  emits : List Emission
  syncs : List SyncCmd
  pops : List (BitVec 4)
  lclkAdv : Nat
  freeTag : Bool
  freeCtx : Bool
  fenceSl : Bool
  fenceRel : Option (BitVec 2)
  fenceAcq : Bool
  groups : Nat
  inputs : List Nat
  exiting : Option (BitVec 3)
  committing : Bool
  held : Bool
  deriving DecidableEq, Repr

/-- A cell: its four planes and what belongs to no plane (R305). Local memory and windows are in `State.mem`. -/
structure Cell where
  planes : SMap CellPlane
  codeFolio : Nat
  codeCfg : Option Nat
  codeLen : Nat
  block : Option Block
  sbuf : List StoreEnt
  hiWater : BitVec 32
  whw : BitVec 32
  ld : LoadSt
  spin : Spin
  hold : SMap (List NetTok)
  deriving DecidableEq, Repr

/-- A member entry of a phaser (R244). -/
structure PMember where
  agent : Nat
  mode : BitVec 2
  next : BitVec 32
  dropAt : Option (BitVec 32)
  held : Option (BitVec 32)
  deriving DecidableEq, Repr

/-- A waiter on a phaser's list (R247-R248). -/
structure Waiter where
  agent : Nat
  owner : Nat
  code : BitVec 8
  phase : BitVec 32
  reply : ReplyTo
  deriving DecidableEq, Repr

/-- A phaser record with its members and wait list (R243-R244). -/
structure Phaser where
  phase : BitVec 32
  nsig : BitVec 16
  nwait : BitVec 16
  nsw : BitVec 16
  arr0 : BitVec 16
  arr1 : BitVec 16
  nsig1 : BitVec 16
  nwait1 : BitVec 16
  nsw1 : BitVec 16
  lerr : BitVec 8
  ferr : BitVec 8
  spilled : Bool
  tag : BitVec 8
  whw : BitVec 32
  whw0 : BitVec 32
  whw1 : BitVec 32
  ctime : BitVec 64
  freeSig : Nat
  freeWait : Nat
  freeSw : Nat
  members : List PMember
  waiters : List Waiter
  deriving DecidableEq, Repr

/-- A Q.TAKE or a Q.RSV waiting at the Granary (R252, R254). `stamp` orders arrivals. -/
structure QWaiter where
  agent : Nat
  owner : Nat
  tile : Nat
  stamp : Nat
  deriving DecidableEq, Repr

/-- A queue of the Granary (R251). `rsvs` lists the reserved staging slots with their holder (a unit, or 2^32 + port). -/
structure Queue where
  state : BitVec 2
  cls : BitVec 3
  kind : BitVec 2
  hostwin : Bool
  cap : Nat
  vmid : BitVec 16
  stage : Word
  recs : List QRec
  rsvs : SMap Nat
  takers : List QWaiter
  rsvWait : List QWaiter
  boundTo : Option Nat
  deriving DecidableEq, Repr

/-- A walk in a walk slot, or waiting for one (R206): the waiting agents in arrival order. -/
structure Walk where
  vmid : BitVec 16
  page : Nat
  waiters : List Nat
  active : Bool
  deriving DecidableEq, Repr

/-- A migration in progress (R209-R211); `switched` once the leaf names the frame at which the replay runs, `aborted` where that is the old one. -/
structure Migration where
  leafAddr : Nat
  size : BitVec 2
  oldFrame : Nat
  newFrame : Nat
  newDie : Nat
  vmid : BitVec 16
  page : Nat
  switched : Bool
  aborted : Bool
  deriving DecidableEq, Repr

/-- A spilled plane image held in S-die staging (R312): the flat address of its entry. -/
structure Staged where
  owner : Nat
  addr : Nat
  deriving DecidableEq, Repr

/-- A die: its control block registers by offset, and its engines. `held` and `heldOut` are the lines the Concordance holds for
atomics in its SRAM and in its overflow area; `recent` orders its contents by last use (R237). -/
structure Die where
  regs : SMap Word
  phasers : SMap Phaser
  queues : SMap Queue
  held : List Nat
  heldOut : List Nat
  recent : List Nat
  walks : List Walk
  migration : Option Migration
  vault : SMap (BitVec 256)
  staging : List Staged
  irq : List (Nat × Nat)
  actReq : List (Nat × Nat × Nat)
  bindReq : List (Nat × BitVec 64 × Nat)
  lastQueue : SMap Nat
  cancelling : Option (List Nat)
  stopped : Bool
  excluded : Bool
  throttled : Bool
  xinvBusy : Bool
  wantRebase : Bool
  deriving DecidableEq, Repr

/-- A T-cell, V-cell or B-cell of a configuration image (R49, R307, R333). -/
structure CellImg where
  n : Nat
  granules : Nat
  stages : SMap (BitVec 64)
  mode : BitVec 64
  slots : SMap (BitVec 128)
  dests : SMap (BitVec 64)
  code : List (BitVec 32)
  frame : Nat
  discard : BitVec 64
  discardHi : BitVec 64
  stateful : Nat
  deriving DecidableEq, Repr, Inhabited

/-- A tile of a configuration image (R49). -/
structure TileImg where
  index : Nat
  die : Nat
  trow : Nat
  tcol : Nat
  routes : SMap (BitVec 32)
  evroutes : SMap (BitVec 32)
  cells : List CellImg
  deriving DecidableEq, Repr, Inhabited

/-- A configuration (R298). -/
structure ConfigImg where
  entry : Option Nat
  tiles : List TileImg
  deriving DecidableEq, Repr, Inhabited

/-- A phaser record of an image (R49): its die, its offset in sync space, and its unnamed members. -/
structure PhaserImg where
  die : Nat
  off : Nat
  nsig : BitVec 16
  nwait : BitVec 16
  nsw : BitVec 16
  deriving DecidableEq, Repr, Inhabited

/-- A loaded Oligil image (R49, R298): its region, phaser records, step program and configurations. `stepsAt` is the VA of the step program
(log 1). -/
structure Folio where
  va : Nat
  vmid : BitVec 16
  region : List TileImg
  phasers : List PhaserImg
  stepsAt : Nat
  steps : List (BitVec 64)
  configs : List ConfigImg
  service : Bool
  verified : Bool
  deriving DecidableEq, Repr, Inhabited

/-- The states of a user plane (R318). -/
inductive PlaneState where
  | free | loading | preloaded | active | frozen | parked
  deriving DecidableEq, Repr

/-- A plane of a region: its state, configuration, the level that owns it, the run state it keeps, and when it was frozen or parked, by stamp (0 for a
level that a refill has brought back, which is older than any other). -/
structure PlaneInfo where
  st : PlaneState
  cfg : Option Nat
  depth : Nat
  run : Bool
  runId : Nat
  busy : Bool
  parked : Nat
  deriving DecidableEq, Repr

/-- A frozen level's record (R304). `plane` is none for a level with no configuration or a spilled one. -/
structure Level where
  depth : Nat
  plane : Option Nat
  spilled : Bool
  cfg : Option Nat
  spc : Word
  n : Vector NReg 4
  run : Bool
  runId : Nat
  drained : Bool
  frames : SMap Nat
  deriving DecidableEq, Repr

/-- An entry of the plane spill stack (R312): its offset and length, and the cells' plane contents it stands for. -/
structure SpillEnt where
  off : Nat
  len : Nat
  depth : Nat
  plane : Nat
  cfg : Nat
  image : SMap CellPlane
  stamp : Nat
  deriving DecidableEq, Repr

/-- Why a drain runs (R170). -/
inductive DrainWhy where
  | step | stop | host | cancel | preempt
  deriving DecidableEq, Repr

/-- A drain in progress (R170-R172). -/
structure Drain where
  why : DrainWhy
  started : Bool
  settling : Bool
  orphans : Nat
  deriving DecidableEq, Repr

/-- A rendering actor (R265-R270, R285): its record's words, its tiles in actor order, the owner of each bucket, and the clk its depth has stood
at GROW_AT or more and at SHRINK_AT or less. `stage` is 0 at rest, 1 once a grant's tile is loaded, 2 while a grant writes headers, 3 while a
shrink writes them, 4 while the leaving tile empties; `pend` lists the actor tiles whose headers are still to be written. -/
structure Actor where
  record : List Word
  tiles : List Nat
  part : List Nat
  growClk : Nat
  shrinkClk : Nat
  stage : Nat
  pend : List Nat
  status : BitVec 8
  deriving DecidableEq, Repr

/-- What SAVING keeps of a unit beside its planes and its local memory (R332), and what a service unit's victim keeps of a sequencer
(R336). `tag` is the rebase count of its timestamps; `hold`, `codes` and `carves` are by cell and by tile; `lfsrs` has the LFSRs and the CVST of an
active plane by cell (log 138); `local_` once the local memory is written. -/
structure Saved where
  a : Vector Word 16
  m : Vector Pattern 8
  n : Vector NReg 4
  spc : Word
  spr : Special
  tag : BitVec 8
  deps : SMap DepEnt
  cmds : List (Nat × Nat × QEnt)
  waits : List (Waiter × Nat × Nat)
  signalled : Bool
  planes : List SpillEnt
  stamp : Nat
  tags : List TagEnt
  ctxs : List (BitVec 8)
  reply : Option SeqReply
  wait : Option Wait
  phase : Nat
  ld : LoadSt
  pre : Prefetch
  hold : List (Nat × SMap (List NetTok))
  codes : List (Nat × Nat × Option Nat × Nat)
  carves : List (Nat × Word)
  lfsrs : List (Nat × SMap (BitVec 32) × BitVec 32)
  local_ : Bool
  deriving DecidableEq, Repr

/-- The states of a unit (R330), with the ones before placement and after its end. -/
inductive UState where
  | waiting | placed | running | pending | stopping | saving | saved | restoring | ending | done
  deriving DecidableEq, Repr

/-- How a launch's colophon reads (R82). -/
inductive Ending where
  | ok | faulted | cancelled | watchdog | lost
  deriving DecidableEq, Repr

/-- A launch and its one unit (R81-R82, R321). `refilling` is a plane and the level whose refill runs into it, `refillDue` the level whose refill
waits for a plane, `cleared` the plane that the return in progress cleared (R301, R311); `runId` names the run in progress and `runHis` holds the
largest timestamp of each run's writes (R77); `halted` once a stream that fed its run has faulted (R107); `spilled` once a ray's stack has passed
its capacity (R277). `writing` while its colophon is on its way, `signalPending` once it is written and the completion signal waits (R67, R247). -/
structure Launch where
  record : Nat
  vmid : BitVec 16
  folio : Nat
  entry : Nat
  die : Nat
  dieFixed : Bool
  args : Word
  budget : Nat
  refill : Nat
  phaser : Nat
  colophon : Nat
  saveArea : Nat
  spillArea : Nat
  cls : BitVec 3
  scope : BitVec 2
  qwcHold : Bool
  id : BitVec 32
  graph : BitVec 32
  whw : BitVec 32
  recScope : BitVec 2
  producer : Nat
  added : Nat
  st : UState
  ending : Ending
  cause : BitVec 8
  causeDie : Nat
  causeTile : Nat
  causeClk : Nat
  faults : Nat
  start : Option (BitVec 64)
  charge : Nat
  energyUsed : Nat
  preempts : Nat
  completed : Nat
  discarded : Nat
  age : Nat
  since : Nat
  unitClk : Nat
  region : List Nat
  move : Int × Int
  depth : Nat
  levels : List Level
  planes : SMap PlaneInfo
  frames : SMap Nat
  stack : List SpillEnt
  refilling : Option (Nat × Nat)
  refillDue : Option Nat
  cleared : Option Nat
  callStage : Nat
  resume : Word
  run : Bool
  runId : Nat
  runHis : SMap (BitVec 32)
  halted : Bool
  spilled : Bool
  lastTs : BitVec 32
  drained : Bool
  drain : Option Drain
  kept : Option Nat
  idle : Nat
  firstIdle : Nat
  active : Bool
  moved : Bool
  still : Nat
  held : Bool
  frozen : Bool
  window : Option (Nat × Nat)
  wdog : Nat
  reservations : List (Nat × Nat)
  actor : Option Actor
  saved : Option Saved
  service : Bool
  victim : Option Nat
  writing : Bool
  signalPending : Bool
  deriving DecidableEq, Repr

/-- An entry of the work table (R322). -/
structure WorkEnt where
  vmid : BitVec 16
  kind : BitVec 2
  id : BitVec 32
  parent : BitVec 32
  ph : Nat
  state : BitVec 3
  count : Nat
  whw : BitVec 32
  cause : BitVec 8
  causeDie : Nat
  causeTile : Nat
  signalled : Bool
  deriving DecidableEq, Repr

/-- A flow between dies (R234): next number to send, next to deliver in order, next to acknowledge, and the numbers
delivered out of order. -/
structure Flow where
  next : BitVec 16
  want : BitVec 16
  acked : BitVec 16
  early : List (BitVec 16)
  deriving DecidableEq, Repr

/-- What the module answers a host request with (R349, R350). -/
inductive HostAns where
  | data (v : BitVec 512)
  | unsupported
  | abort
  deriving DecidableEq, Repr

/-- The module block and host ports (R347-R355): `raised` lists the MSI-X messages sent, `msix` the table entries and `pending` the pending bits by
2048·port + vector, `hostOut` the completions of host requests, `boot` the boot record, and `moduleOnly` a start that presents the module block
alone. -/
structure ModuleBlk where
  regs : SMap Word
  raised : List (Nat × Nat)
  msix : SMap (BitVec 128)
  pending : List Nat
  hostTs : SMap (BitVec 32)
  hostOut : List HostAns
  peersUp : BitVec 16
  boot : SMap Word
  moduleOnly : Bool
  warmBusy : Bool
  deriving DecidableEq, Repr

/-- The whole module. `rebases` is the count of rebases, which REBASE_STAT and every REBASES register read (R231). `now`, `tile`, `cell` and `tick` are the model's own fields (logs 2 and 5). -/
structure State where
  now : Now
  tile : Nat
  cell : Nat
  tick : Nat
  clk : Nat
  eighths : Nat
  stamp : Nat
  mem : List Host.Cell
  tiles : SMap Tile
  cells : SMap Cell
  dies : SMap Die
  homeTs : SMap (BitVec 32 × BitVec 32)
  msgs : List Msg
  net : List NetTok
  flows : SMap Flow
  launches : SMap Launch
  folios : List Folio
  work : List WorkEnt
  rebasing : Bool
  rebases : BitVec 32
  mod : ModuleBlk
  deriving DecidableEq, Repr

/-- The special registers at reset (R80's Reset column). -/
def Special.reset : Special :=
  { lclk := 0, lease := 16, whw := 0, carve := 0, qwcLimit := 65536, drift := 4096, spinN := 64, stalls := 0,
    wdog := 67108864 }

/-- An empty load state. -/
def LoadSt.empty : LoadSt := { lines := [], walks := [], waiting := false }

/-- A tile at reset: R80's values; registers the spec gives no reset value are zero (DESIGN CHOICE, log 4). -/
def Tile.reset : Tile :=
  { a := Vector.replicate 16 0, m := Vector.replicate 8 ⟨0, 0, 0, 0⟩, n := Vector.replicate 4 ⟨0, 0⟩, spc := 0,
    spr := Special.reset, hiWater := 0, sbuf := [], deps := [], ports := [], tlb := [], lines := [],
    ld := LoadSt.empty, spin := ⟨0, 0, none⟩, drifted := 0, tags := [], ctxs := [], pre := ⟨none, [], 0⟩, rayslab := 0,
    energy := 0, hostLast := [], tracked := [], wait := none, reply := none, phase := 0, owner := none }

/-- An S1 row state at rest. -/
def RowSt.empty : RowSt :=
  { held := none, bit := 0, code := 0, outs := [], side := none, group := 0, bits := 0, width := 0, mark := 0,
    flags := 0 }

/-- A plane of a cell at reset: nothing configured, nothing in flight. -/
def CellPlane.reset : CellPlane :=
  { route := 0, evroute := 0, stages := [], mode := 0, slots := [], dests := [], links := [], conv := [], outq := [],
    side := [], row := RowSt.empty, accs := [], qvals := [], qcodes := [], storeN := 0, netx := [], bank := none, pend := [], egate := 0,
    lfsr := [], cvst := 0, cvstNew := 0, cvstAt := 0, delays := [], delayRd := [], lregs := [], store := [], chans := [], fifoRd := 0,
    fifoTags := [], lineTags := [], s2t := ⟨none, 0, none, 0, 0, false⟩, t2s := ⟨[], 0, 0, 0, false, 0, false⟩,
    hops := [], events := [] }

/-- A cell at reset. -/
def Cell.reset : Cell :=
  { planes := [], codeFolio := 0, codeCfg := none, codeLen := 0, block := none, sbuf := [], hiWater := 0, whw := 0,
    ld := LoadSt.empty, spin := ⟨0, 0, none⟩, hold := [] }

/-- A queue at reset: FREE (R251). -/
def Queue.reset : Queue :=
  { state := 0, cls := 0, kind := 0, hostwin := false, cap := 0, vmid := 0, stage := 0, recs := [], rsvs := [],
    takers := [], rsvWait := [], boundTo := none }

/-- A die at reset: every control register zero. -/
def Die.reset : Die :=
  { regs := [], phasers := [], queues := [], held := [], heldOut := [], recent := [], walks := [], migration := none, vault := [], staging := [],
    irq := [], actReq := [], bindReq := [], lastQueue := [], cancelling := none, stopped := false, excluded := false,
    throttled := false, xinvBusy := false, wantRebase := false }

/-- A port's queue at reset. -/
def PortQ.reset : PortQ := { entries := [], order := 0, ld := LoadSt.empty }

/-- A flow at reset. -/
def Flow.reset : Flow := { next := 0, want := 0, acked := 0, early := [] }

/-- The module block at reset. -/
def ModuleBlk.reset : ModuleBlk :=
  { regs := [], raised := [], msix := [], pending := [], hostTs := [], hostOut := [], peersUp := 0, boot := [], moduleOnly := false,
    warmBusy := false }

/-- The module right after a cold reset (R6, R355): every register at its Reset value, memory with nothing listed. -/
def State.reset : State :=
  { now := .idle, tile := 0, cell := 0, tick := 0, clk := 0, eighths := 0, stamp := 1, mem := [], tiles := [],
    cells := [], dies := [], homeTs := [], msgs := [], net := [], flows := [], launches := [], folios := [], work := [],
    rebasing := false, rebases := 0, mod := ModuleBlk.reset }

end Sys2Proof.Machine
end

