-- ==== Sys2Proof/Syntax.lean ====
section
/-! DEFINITION. Every step of the Pleoth Siroskat, one constructor for each row of the opcode table: the sequencer's
instructions (R27-R32, R54-R80), the handler instructions (R33-R38, R145-R161, R262-R292), and the events of the engines,
fabrics, homes, hosts and resets. An event constructor's numbers name WHERE the event happens (a die, a tile, a cell, a
unit, a place in a list of messages in flight) or carry what the outside world supplies (a host's data, an upset). -/

namespace Sys2Proof

/-- A handler operand field (R33): a register-file index, or a channel, popped or peeked. -/
inductive Opnd where
  | reg (i : BitVec 4)
  | chan (peek : Bool) (i : BitVec 4)
  deriving DecidableEq, Repr

/-- The formats integer, logic and compare handler ops accept (R36). -/
inductive IFmt where
  | i64 | i32x2
  deriving DecidableEq, Repr

/-- The formats floating handler ops accept (R36). -/
inductive FFmt where
  | f32x2 | f16x4 | b16x4
  deriving DecidableEq, Repr

/-- The formats FCVT, ICVTF and FCVTI accept (R151). -/
inductive CFmt where
  | f32x2 | f16x4 | b16x4 | e4x8 | e5x8
  deriving DecidableEq, Repr

/-- The formats FDOT accepts: any tag 000-110 (R152). -/
inductive DFmt where
  | i64 | i32x2 | f32x2 | f16x4 | b16x4 | e4x8 | e5x8
  deriving DecidableEq, Repr

/-- The ext suffix of an integer handler op (R36, R145). -/
inductive IExt where
  | wrap | sat | satu
  deriving DecidableEq, Repr

/-- The rounding suffix of a floating handler op (R36). -/
inductive HRnd where
  | rne | rtz | rdn | rup
  deriving DecidableEq, Repr

/-- One constructor per row of the opcode table. -/
inductive Instr where
  /-- `ADD` (R55): Sequencer register add: aD := aS + aT modulo 2^64. -/
  | add (d : BitVec 4) (s : BitVec 4) (t : BitVec 4)
  /-- `SUB` (R55): Sequencer register subtract: aD := aS - aT modulo 2^64. -/
  | sub (d : BitVec 4) (s : BitVec 4) (t : BitVec 4)
  /-- `MUL` (R55): Sequencer multiply: aD := low 64 bits of aS × aT. -/
  | mul (d : BitVec 4) (s : BitVec 4) (t : BitVec 4)
  /-- `AND` (R55): Sequencer bitwise AND of two registers. -/
  | and (d : BitVec 4) (s : BitVec 4) (t : BitVec 4)
  /-- `OR` (R55): Sequencer bitwise OR of two registers. -/
  | or (d : BitVec 4) (s : BitVec 4) (t : BitVec 4)
  /-- `XOR` (R55): Sequencer bitwise XOR of two registers. -/
  | xor (d : BitVec 4) (s : BitVec 4) (t : BitVec 4)
  /-- `SHL` (R55): Sequencer shift left by aT[5:0]. -/
  | shl (d : BitVec 4) (s : BitVec 4) (t : BitVec 4)
  /-- `SHR` (R55): Sequencer logical shift right by aT[5:0]. -/
  | shr (d : BitVec 4) (s : BitVec 4) (t : BitVec 4)
  /-- `SRA` (R55): Sequencer arithmetic shift right by aT[5:0]. -/
  | sra (d : BitVec 4) (s : BitVec 4) (t : BitVec 4)
  /-- `MIN` (R55): Sequencer signed minimum of two registers. -/
  | min (d : BitVec 4) (s : BitVec 4) (t : BitVec 4)
  /-- `MAX` (R55): Sequencer signed maximum of two registers. -/
  | max (d : BitVec 4) (s : BitVec 4) (t : BitVec 4)
  /-- `ADDI` (R55): Sequencer add of a sign-extended 40-bit immediate. -/
  | addi (d : BitVec 4) (s : BitVec 4) (imm : BitVec 40)
  /-- `ANDI` (R55): Sequencer AND with a zero-extended immediate. -/
  | andi (d : BitVec 4) (s : BitVec 4) (imm : BitVec 40)
  /-- `ORI` (R55): Sequencer OR with a zero-extended immediate. -/
  | ori (d : BitVec 4) (s : BitVec 4) (imm : BitVec 40)
  /-- `XORI` (R55): Sequencer XOR with a zero-extended immediate. -/
  | xori (d : BitVec 4) (s : BitVec 4) (imm : BitVec 40)
  /-- `SHLI` (R55): Sequencer shift left by an immediate 0-63. -/
  | shli (d : BitVec 4) (s : BitVec 4) (sh : BitVec 6)
  /-- `SHRI` (R55): Sequencer logical shift right by an immediate 0-63. -/
  | shri (d : BitVec 4) (s : BitVec 4) (sh : BitVec 6)
  /-- `SRAI` (R55): Sequencer arithmetic shift right by an immediate 0-63. -/
  | srai (d : BitVec 4) (s : BitVec 4) (sh : BitVec 6)
  /-- `LI` (R55): Sequencer load of a sign-extended 40-bit immediate. -/
  | li (d : BitVec 4) (imm : BitVec 40)
  /-- `LUI` (R55): Sequencer upper immediate: aD := imm[23:0] << 40 OR aS[39:0]. -/
  | lui (d : BitVec 4) (s : BitVec 4) (imm : BitVec 24)
  /-- `CEQ` (R55): Sequencer compare equal, writing 1 or 0. -/
  | ceq (d : BitVec 4) (s : BitVec 4) (t : BitVec 4)
  /-- `CNE` (R55): Sequencer compare not equal, writing 1 or 0. -/
  | cne (d : BitVec 4) (s : BitVec 4) (t : BitVec 4)
  /-- `CLT` (R55): Sequencer signed compare less than. -/
  | clt (d : BitVec 4) (s : BitVec 4) (t : BitVec 4)
  /-- `CLTU` (R55): Sequencer unsigned compare less than. -/
  | cltu (d : BitVec 4) (s : BitVec 4) (t : BitVec 4)
  /-- `CEQI` (R55): Sequencer compare equal with a sign-extended immediate. -/
  | ceqi (d : BitVec 4) (s : BitVec 4) (imm : BitVec 40)
  /-- `CLTI` (R55): Sequencer signed compare less than an immediate. -/
  | clti (d : BitVec 4) (s : BitVec 4) (imm : BitVec 40)
  /-- `CLTUI` (R55): Sequencer unsigned compare less than a zero-extended immediate. -/
  | cltui (d : BitVec 4) (s : BitVec 4) (imm : BitVec 40)
  /-- `LD_8` (R57): Sequencer zero-extending byte load, blocking until the value returns. -/
  | ld8 (d : BitVec 4) (s : BitVec 4) (imm : BitVec 40)
  /-- `LD_16` (R57): Sequencer zero-extending 16-bit load. -/
  | ld16 (d : BitVec 4) (s : BitVec 4) (imm : BitVec 40)
  /-- `LD_32` (R57): Sequencer zero-extending 32-bit load. -/
  | ld32 (d : BitVec 4) (s : BitVec 4) (imm : BitVec 40)
  /-- `LD_64` (R57): Sequencer 64-bit load. -/
  | ld64 (d : BitVec 4) (s : BitVec 4) (imm : BitVec 40)
  /-- `LDS_8` (R57): Sequencer sign-extending byte load. -/
  | lds8 (d : BitVec 4) (s : BitVec 4) (imm : BitVec 40)
  /-- `LDS_16` (R57): Sequencer sign-extending 16-bit load. -/
  | lds16 (d : BitVec 4) (s : BitVec 4) (imm : BitVec 40)
  /-- `LDS_32` (R57): Sequencer sign-extending 32-bit load. -/
  | lds32 (d : BitVec 4) (s : BitVec 4) (imm : BitVec 40)
  /-- `ST_8` (R57): Sequencer byte store into the store buffer. -/
  | st8 (d : BitVec 4) (s : BitVec 4) (imm : BitVec 40)
  /-- `ST_16` (R57): Sequencer 16-bit store into the store buffer. -/
  | st16 (d : BitVec 4) (s : BitVec 4) (imm : BitVec 40)
  /-- `ST_32` (R57): Sequencer 32-bit store into the store buffer. -/
  | st32 (d : BitVec 4) (s : BitVec 4) (imm : BitVec 40)
  /-- `ST_64` (R57): Sequencer 64-bit store into the store buffer, including staging-line stores. -/
  | st64 (d : BitVec 4) (s : BitVec 4) (imm : BitVec 40)
  /-- `NSET` (R61): Sets an n register's count and clears its index, blocking while a run is active. -/
  | nset (n : BitVec 2) (s : BitVec 4)
  /-- `NGET` (R61): Reads an n register as index << 32 OR count. -/
  | nget (d : BitVec 4) (n : BitVec 2)
  /-- `PAT_LD` (R63): Loads and checks a 32-byte pattern record into an m register. -/
  | patLd (m : BitVec 3) (s : BitVec 4) (imm : BitVec 40)
  /-- `PAT_ST` (R63): Stores an m register as a pattern record. -/
  | patSt (m : BitVec 3) (s : BitVec 4) (imm : BitVec 40)
  /-- `PAT_BASE` (R63): Replaces a pattern register's base field with aS[55:0]. -/
  | patBase (m : BitVec 3) (s : BitVec 4)
  /-- `BEQ` (R56): Branch if equal. -/
  | beq (s : BitVec 4) (t : BitVec 4) (imm : BitVec 40)
  /-- `BNE` (R56): Branch if not equal. -/
  | bne (s : BitVec 4) (t : BitVec 4) (imm : BitVec 40)
  /-- `BLT` (R56): Branch if signed less than. -/
  | blt (s : BitVec 4) (t : BitVec 4) (imm : BitVec 40)
  /-- `BGE` (R56): Branch if signed greater or equal. -/
  | bge (s : BitVec 4) (t : BitVec 4) (imm : BitVec 40)
  /-- `BLTU` (R56): Branch if unsigned less than. -/
  | bltu (s : BitVec 4) (t : BitVec 4) (imm : BitVec 40)
  /-- `BGEU` (R56): Branch if unsigned greater or equal. -/
  | bgeu (s : BitVec 4) (t : BitVec 4) (imm : BitVec 40)
  /-- `JAL` (R56): Jump and link by an immediate step offset. -/
  | jal (d : BitVec 4) (imm : BitVec 40)
  /-- `JALR` (R56): Jump to a register step address plus offset and link. -/
  | jalr (d : BitVec 4) (s : BitVec 4) (imm : BitVec 40)
  /-- `CFG_LOAD` (R64): Loads a configuration into the active plane through the folio loader, blocking until done. -/
  | cfgLoad (idx : BitVec 8)
  /-- `CFG_RUN` (R65): Starts the region's sources for the active configuration. -/
  | cfgRun (idx : BitVec 8)
  /-- `CFG_WAIT` (R65): Blocks until no run is active. -/
  | cfgWait
  /-- `CFG_CALL` (R310): Freezes the caller, activates the callee's plane and sends call tokens. -/
  | cfgCall (idx : BitVec 8) (s : BitVec 4)
  /-- `CFG_RET` (R311): Clears the callee's plane, thaws the caller and sends return tokens. -/
  | cfgRet (s : BitVec 4)
  /-- `CFG_PRELOAD` (R316): Starts writing a configuration into a user plane in the background. -/
  | cfgPreload (idx : BitVec 8) (plane : BitVec 2)
  /-- `PSWAP` (R317): Parks the active plane and makes a named resident plane active. -/
  | pswap (plane : BitVec 2)
  /-- `CFG_DRAIN` (R66): Drains the region after its run and writes the drain status. -/
  | cfgDrain (d : BitVec 4)
  /-- `CFG_STOP` (R67): Ends the unit after runs, entries and streams have performed and the region is drained. -/
  | cfgStop
  /-- `STRM_IN` (R21): Queues a stream that packs pattern elements into flits for a cell's stream port. -/
  | strmIn (port : BitVec 2) (m : BitVec 3) (rt : BitVec 4) (cell : BitVec 6) (dlv : BitVec 2)
  /-- `STRM_OUT` (R21): Queues a stream that writes a cell's output flits to a pattern. -/
  | strmOut (port : BitVec 2) (m : BitVec 3) (rt : BitVec 4) (cell : BitVec 6) (dlv : BitVec 2)
  /-- `STRM_GATH` (R70): Queues a gather of 64-byte rows by index into a cell, or as its side stream. -/
  | strmGath (port : BitVec 2) (m : BitVec 3) (t : BitVec 4) (rt : BitVec 4) (cell : BitVec 6) (dlv : BitVec 2)
  /-- `STRM_SCAT` (R70): Queues a scatter of a cell's output flits to indexed 64-byte rows. -/
  | strmScat (port : BitVec 2) (m : BitVec 3) (t : BitVec 4) (rt : BitVec 4) (cell : BitVec 6) (dlv : BitVec 2)
  /-- `STRM_FILL` (R70): Queues a fill of a memory range with a 64-bit value. -/
  | strmFill (port : BitVec 2) (d : BitVec 4) (s : BitVec 4) (t : BitVec 4) (dlv : BitVec 2)
  /-- `STRM_COPY` (R70): Queues a memory-to-memory copy. -/
  | strmCopy (port : BitVec 2) (d : BitVec 4) (s : BitVec 4) (t : BitVec 4) (dlv : BitVec 2)
  /-- `STRM_KVC` (R71): Queues a commit of accepted draft rows into a key-value cache. -/
  | strmKvc (port : BitVec 2) (d : BitVec 4) (s : BitVec 4) (t : BitVec 4) (mask : Bool)
  /-- `STRM_XCH` (R352): Queues a transfer to a peer module over a Kelmar Link-X flow. -/
  | strmXch (port : BitVec 2) (d : BitVec 4) (s : BitVec 4) (t : BitVec 4) (flow : BitVec 16)
  /-- `SBAR` (R74): Orders plain direct accesses to a range against stream commands in both directions. -/
  | sbar (s : BitVec 4) (t : BitVec 4)
  /-- `QFENCE` (R73): Places a marker in each queue named by the immediate set. -/
  | qfence (set : BitVec 40)
  /-- `QFENCE_R` (R73): Places a marker in each queue named by a register set. -/
  | qfenceR (s : BitVec 4)
  /-- `FENCE_SL` (R75): Drains the store buffer before any later load performs. -/
  | fenceSl
  /-- `FENCE_REL` (R75): Sequencer release at a scope, then sets WHW. -/
  | fenceRel (scope : BitVec 2)
  /-- `FENCE_ACQ` (R75): Holds later accesses until earlier loads, atomics and waits have performed. -/
  | fenceAcq (scope : BitVec 2)
  /-- `LCLK_RD` (R75): Reads the tile's logical clock. -/
  | lclkRd (d : BitVec 4)
  /-- `LCLK_ADV` (R75): Advances the tile's logical clock by a register value. -/
  | lclkAdv (s : BitVec 4)
  /-- `DEP_NEW` (R77): Opens the lowest free dependence entry of a kind. -/
  | depNew (d : BitVec 4) (kind : BitVec 2)
  /-- `DEP_EDGE` (R77): Adds a predecessor-successor edge between dependence entries. -/
  | depEdge (s : BitVec 4) (t : BitVec 4)
  /-- `DEP_ARM` (R77): Arms a held dependence entry. -/
  | depArm (s : BitVec 4)
  /-- `DEP_WAIT` (R77): Waits for a dependence entry to be done, takes its high-water and frees it. -/
  | depWait (s : BitVec 4)
  /-- `Q_RSV` (R252): Reserves a Granary queue slot and returns its staging line address. -/
  | qRsv (d : BitVec 4) (s : BitVec 4)
  /-- `Q_ADD` (R253): Releases at a scope and adds the staging line as a queue record. -/
  | qAdd (s : BitVec 4) (scope : BitVec 2)
  /-- `Q_TAKE` (R254): Takes the oldest record of a PLAIN queue and hands off its WHW. -/
  | qTake (d : BitVec 4) (s : BitVec 4) (t : BitVec 4)
  /-- `PH_REG` (R246): Registers the sequencer as a phaser member of a mode. -/
  | phReg (s : BitVec 4) (mode : BitVec 2)
  /-- `PH_DROP` (R246): Drops the sequencer's phaser membership. -/
  | phDrop (s : BitVec 4)
  /-- `PH_SIG` (R247): Releases at a scope and signals a phaser. -/
  | phSig (s : BitVec 4) (scope : BitVec 2)
  /-- `PH_WAIT` (R248): Waits for a phaser phase to complete and takes its WHW and error code. -/
  | phWait (d : BitVec 4) (s : BitVec 4) (t : BitVec 4)
  /-- `PH_SW` (R247): Signals a phaser and then waits for a phase. -/
  | phSw (d : BitVec 4) (s : BitVec 4) (t : BitVec 4) (scope : BitVec 2)
  /-- `PH_ERR` (R249): Completes the phaser's phase in progress in error with a code. -/
  | phErr (s : BitVec 4) (t : BitVec 4)
  /-- `PH_READ` (R250): Writes a copy of a phaser record to memory. -/
  | phRead (s : BitVec 4) (t : BitVec 4)
  /-- `ATOM` (R242): Issues one atomic command to the home Concordance from the sequencer. -/
  | atom (cmd : BitVec 8) (d : BitVec 4) (s : BitVec 4) (t : BitVec 4) (x : BitVec 4) (scope : BitVec 2)
  /-- `NOP` (R80): Does nothing for one clk. -/
  | nop
  /-- `YIELD` (R80): Adds LEASE to LCLK and marks a progress point. -/
  | yield
  /-- `TRAP` (R80): Traps with user-trap, recording the code. -/
  | trap (code : BitVec 8)
  /-- `EVT` (R80): Raises a one-clk pulse on an event line. -/
  | evt (line : BitVec 4)
  /-- `SRR` (R32): Reads a special register. -/
  | srr (d : BitVec 4) (num : BitVec 12)
  /-- `SRW` (R80): Writes a special register within its limits, CARVE waiting for runs and streams. -/
  | srw (s : BitVec 4) (num : BitVec 12)
  /-- `H_ADD` (R145): Handler integer add under WRAP, SAT or SATU. -/
  | hAdd (d : BitVec 3) (a : Opnd) (b : Opnd) (f : IFmt) (g : BitVec 4) (e : IExt)
  /-- `H_SUB` (R145): Handler integer subtract. -/
  | hSub (d : BitVec 3) (a : Opnd) (b : Opnd) (f : IFmt) (g : BitVec 4) (e : IExt)
  /-- `H_MUL` (R145): Handler integer multiply. -/
  | hMul (d : BitVec 3) (a : Opnd) (b : Opnd) (f : IFmt) (g : BitVec 4) (e : IExt)
  /-- `H_MULH` (R145): Upper half of the signed product. -/
  | hMulh (d : BitVec 3) (a : Opnd) (b : Opnd) (f : IFmt) (g : BitVec 4)
  /-- `H_MULHU` (R145): Upper half of the unsigned product. -/
  | hMulhu (d : BitVec 3) (a : Opnd) (b : Opnd) (f : IFmt) (g : BitVec 4)
  /-- `H_MIN` (R145): Signed minimum. -/
  | hMin (d : BitVec 3) (a : Opnd) (b : Opnd) (f : IFmt) (g : BitVec 4)
  /-- `H_MAX` (R145): Signed maximum. -/
  | hMax (d : BitVec 3) (a : Opnd) (b : Opnd) (f : IFmt) (g : BitVec 4)
  /-- `H_MINU` (R145): Unsigned minimum. -/
  | hMinu (d : BitVec 3) (a : Opnd) (b : Opnd) (f : IFmt) (g : BitVec 4)
  /-- `H_MAXU` (R145): Unsigned maximum. -/
  | hMaxu (d : BitVec 3) (a : Opnd) (b : Opnd) (f : IFmt) (g : BitVec 4)
  /-- `H_ABS` (R145): Absolute value of each element. -/
  | hAbs (d : BitVec 3) (a : Opnd) (f : IFmt) (g : BitVec 4) (e : IExt)
  /-- `H_NEG` (R145): Negation of each element. -/
  | hNeg (d : BitVec 3) (a : Opnd) (f : IFmt) (g : BitVec 4) (e : IExt)
  /-- `H_POPC` (R145): Population count of each element. -/
  | hPopc (d : BitVec 3) (a : Opnd) (f : IFmt) (g : BitVec 4)
  /-- `H_CLZ` (R145): Leading zero count of each element. -/
  | hClz (d : BitVec 3) (a : Opnd) (f : IFmt) (g : BitVec 4)
  /-- `H_CTZ` (R145): Trailing zero count of each element. -/
  | hCtz (d : BitVec 3) (a : Opnd) (f : IFmt) (g : BitVec 4)
  /-- `H_AND` (R145): Bitwise AND. -/
  | hAnd (d : BitVec 3) (a : Opnd) (b : Opnd) (f : IFmt) (g : BitVec 4)
  /-- `H_OR` (R145): Bitwise OR. -/
  | hOr (d : BitVec 3) (a : Opnd) (b : Opnd) (f : IFmt) (g : BitVec 4)
  /-- `H_XOR` (R145): Bitwise XOR. -/
  | hXor (d : BitVec 3) (a : Opnd) (b : Opnd) (f : IFmt) (g : BitVec 4)
  /-- `H_ANDN` (R145): a AND NOT b. -/
  | hAndn (d : BitVec 3) (a : Opnd) (b : Opnd) (f : IFmt) (g : BitVec 4)
  /-- `H_SHL` (R145): Shift left by b's element bits [5:0]. -/
  | hShl (d : BitVec 3) (a : Opnd) (b : Opnd) (f : IFmt) (g : BitVec 4)
  /-- `H_SHR` (R145): Logical shift right. -/
  | hShr (d : BitVec 3) (a : Opnd) (b : Opnd) (f : IFmt) (g : BitVec 4)
  /-- `H_SRA` (R145): Arithmetic shift right. -/
  | hSra (d : BitVec 3) (a : Opnd) (b : Opnd) (f : IFmt) (g : BitVec 4)
  /-- `H_CEQ` (R146): Per-element compare equal. -/
  | hCeq (d : BitVec 3) (a : Opnd) (b : Opnd) (f : IFmt) (g : BitVec 4)
  /-- `H_CNE` (R146): Per-element compare not equal. -/
  | hCne (d : BitVec 3) (a : Opnd) (b : Opnd) (f : IFmt) (g : BitVec 4)
  /-- `H_CLT` (R146): Per-element signed less than. -/
  | hClt (d : BitVec 3) (a : Opnd) (b : Opnd) (f : IFmt) (g : BitVec 4)
  /-- `H_CLTU` (R146): Per-element unsigned less than. -/
  | hCltu (d : BitVec 3) (a : Opnd) (b : Opnd) (f : IFmt) (g : BitVec 4)
  /-- `H_CLE` (R146): Per-element signed less or equal. -/
  | hCle (d : BitVec 3) (a : Opnd) (b : Opnd) (f : IFmt) (g : BitVec 4)
  /-- `H_CLEU` (R146): Per-element unsigned less or equal. -/
  | hCleu (d : BitVec 3) (a : Opnd) (b : Opnd) (f : IFmt) (g : BitVec 4)
  /-- `H_ADDI` (R147): Handler add of a sign-extended 11-bit immediate. -/
  | hAddi (d : BitVec 3) (a : Opnd) (imm : BitVec 11) (g : BitVec 4)
  /-- `H_ANDI` (R147): Handler AND with a zero-extended immediate. -/
  | hAndi (d : BitVec 3) (a : Opnd) (imm : BitVec 11) (g : BitVec 4)
  /-- `H_ORI` (R147): Handler OR with a zero-extended immediate. -/
  | hOri (d : BitVec 3) (a : Opnd) (imm : BitVec 11) (g : BitVec 4)
  /-- `H_XORI` (R147): Handler XOR with a zero-extended immediate. -/
  | hXori (d : BitVec 3) (a : Opnd) (imm : BitVec 11) (g : BitVec 4)
  /-- `H_SHLI` (R147): Handler shift left by an immediate. -/
  | hShli (d : BitVec 3) (a : Opnd) (sh : BitVec 6) (g : BitVec 4)
  /-- `H_SHRI` (R147): Handler logical shift right by an immediate. -/
  | hShri (d : BitVec 3) (a : Opnd) (sh : BitVec 6) (g : BitVec 4)
  /-- `H_SRAI` (R147): Handler arithmetic shift right by an immediate. -/
  | hSrai (d : BitVec 3) (a : Opnd) (sh : BitVec 6) (g : BitVec 4)
  /-- `H_CEQI` (R147): Handler compare equal with a sign-extended immediate. -/
  | hCeqi (d : BitVec 3) (a : Opnd) (imm : BitVec 11) (g : BitVec 4)
  /-- `H_CLTI` (R147): Handler signed less than an immediate. -/
  | hClti (d : BitVec 3) (a : Opnd) (imm : BitVec 11) (g : BitVec 4)
  /-- `H_CLTUI` (R147): Handler unsigned less than an immediate. -/
  | hCltui (d : BitVec 3) (a : Opnd) (imm : BitVec 11) (g : BitVec 4)
  /-- `H_BFX` (R148): Signed bit-field extract. -/
  | hBfx (d : BitVec 3) (a : Opnd) (pos : BitVec 6) (len : BitVec 5) (g : BitVec 4)
  /-- `H_BFXU` (R148): Unsigned bit-field extract. -/
  | hBfxu (d : BitVec 3) (a : Opnd) (pos : BitVec 6) (len : BitVec 5) (g : BitVec 4)
  /-- `H_BFI` (R148): Bit-field insert into d. -/
  | hBfi (d : BitVec 3) (a : Opnd) (pos : BitVec 6) (len : BitVec 5) (g : BitVec 4)
  /-- `H_LIT` (R149): d := sign-extended 32-bit literal. -/
  | hLit (d : BitVec 3) (g : BitVec 4) (lit : BitVec 32)
  /-- `H_LITH` (R149): Places a literal in the upper half of d. -/
  | hLith (d : BitVec 3) (g : BitVec 4) (lit : BitVec 32)
  /-- `H_ADDL` (R149): Adds a sign-extended 32-bit literal. -/
  | hAddl (d : BitVec 3) (a : Opnd) (g : BitVec 4) (lit : BitVec 32)
  /-- `H_SYNC` (R159): Sends a Concordance command at commit after the store buffer and direct writes drain. -/
  | hSync (d : BitVec 3) (a : Opnd) (b : Opnd) (g : BitVec 4) (reply : BitVec 6) (f : BitVec 3) (scope : BitVec 2) (cmd : BitVec 8)
  /-- `H_FADD` (R150): Floating add, rounded once. -/
  | hFadd (d : BitVec 3) (a : Opnd) (b : Opnd) (f : FFmt) (g : BitVec 4) (e : HRnd)
  /-- `H_FSUB` (R150): Floating subtract. -/
  | hFsub (d : BitVec 3) (a : Opnd) (b : Opnd) (f : FFmt) (g : BitVec 4) (e : HRnd)
  /-- `H_FMUL` (R150): Floating multiply. -/
  | hFmul (d : BitVec 3) (a : Opnd) (b : Opnd) (f : FFmt) (g : BitVec 4) (e : HRnd)
  /-- `H_FMA` (R150): Fused multiply-add a × b + d. -/
  | hFma (d : BitVec 3) (a : Opnd) (b : Opnd) (f : FFmt) (g : BitVec 4) (e : HRnd)
  /-- `H_FMIN` (R150): Floating minimum. -/
  | hFmin (d : BitVec 3) (a : Opnd) (b : Opnd) (f : FFmt) (g : BitVec 4) (e : HRnd)
  /-- `H_FMAX` (R150): Floating maximum. -/
  | hFmax (d : BitVec 3) (a : Opnd) (b : Opnd) (f : FFmt) (g : BitVec 4) (e : HRnd)
  /-- `H_FABS` (R150): Clears each sign bit. -/
  | hFabs (d : BitVec 3) (a : Opnd) (f : FFmt) (g : BitVec 4)
  /-- `H_FNEG` (R150): Flips each sign bit. -/
  | hFneg (d : BitVec 3) (a : Opnd) (f : FFmt) (g : BitVec 4)
  /-- `H_FCEQ` (R150): Floating compare equal, result I64. -/
  | hFceq (d : BitVec 3) (a : Opnd) (b : Opnd) (f : FFmt) (g : BitVec 4)
  /-- `H_FCLT` (R150): Floating compare less than. -/
  | hFclt (d : BitVec 3) (a : Opnd) (b : Opnd) (f : FFmt) (g : BitVec 4)
  /-- `H_FCLE` (R150): Floating compare less or equal. -/
  | hFcle (d : BitVec 3) (a : Opnd) (b : Opnd) (f : FFmt) (g : BitVec 4)
  /-- `H_FCVT` (R151): Converts floating elements to a target format. -/
  | hFcvt (d : BitVec 3) (a : Opnd) (dst : CFmt) (f : CFmt) (g : BitVec 4) (e : HRnd)
  /-- `H_FRCP` (R150): Reciprocal. -/
  | hFrcp (d : BitVec 3) (a : Opnd) (f : FFmt) (g : BitVec 4) (e : HRnd)
  /-- `H_FSQRT` (R150): Square root. -/
  | hFsqrt (d : BitVec 3) (a : Opnd) (f : FFmt) (g : BitVec 4) (e : HRnd)
  /-- `H_FEXP2` (R150): Power of two. -/
  | hFexp2 (d : BitVec 3) (a : Opnd) (f : FFmt) (g : BitVec 4) (e : HRnd)
  /-- `H_ICVTF` (R151): Converts signed integers to a floating format. -/
  | hIcvtf (d : BitVec 3) (a : Opnd) (f : CFmt) (g : BitVec 4) (e : HRnd)
  /-- `H_FCVTI` (R151): Converts floats to saturated signed integers. -/
  | hFcvti (d : BitVec 3) (a : Opnd) (f : CFmt) (g : BitVec 4) (e : HRnd)
  /-- `H_FDOT` (R152): Dot product of the elements, rounded once to FP32 or wrapped to I64. -/
  | hFdot (d : BitVec 3) (a : Opnd) (b : Opnd) (f : DFmt) (g : BitVec 4) (e : HRnd)
  /-- `H_LDL_8` (R153): Local byte load. -/
  | hLdl8 (d : BitVec 3) (a : Opnd) (off : BitVec 11) (g : BitVec 4)
  /-- `H_LDL_16` (R153): Local 16-bit load. -/
  | hLdl16 (d : BitVec 3) (a : Opnd) (off : BitVec 11) (g : BitVec 4)
  /-- `H_LDL_32` (R153): Local 32-bit load. -/
  | hLdl32 (d : BitVec 3) (a : Opnd) (off : BitVec 11) (g : BitVec 4)
  /-- `H_LDL_64` (R153): Local 64-bit load. -/
  | hLdl64 (d : BitVec 3) (a : Opnd) (off : BitVec 11) (g : BitVec 4)
  /-- `H_STL_8` (R153): Local byte store at commit. -/
  | hStl8 (d : BitVec 3) (a : Opnd) (off : BitVec 11) (g : BitVec 4)
  /-- `H_STL_16` (R153): Local 16-bit store at commit. -/
  | hStl16 (d : BitVec 3) (a : Opnd) (off : BitVec 11) (g : BitVec 4)
  /-- `H_STL_32` (R153): Local 32-bit store at commit. -/
  | hStl32 (d : BitVec 3) (a : Opnd) (off : BitVec 11) (g : BitVec 4)
  /-- `H_STL_64` (R153): Local 64-bit store at commit. -/
  | hStl64 (d : BitVec 3) (a : Opnd) (off : BitVec 11) (g : BitVec 4)
  /-- `H_LDG_8` (R154): Global byte load, holding the block until data returns. -/
  | hLdg8 (d : BitVec 3) (a : Opnd) (off : BitVec 11) (g : BitVec 4)
  /-- `H_LDG_16` (R154): Global 16-bit load. -/
  | hLdg16 (d : BitVec 3) (a : Opnd) (off : BitVec 11) (g : BitVec 4)
  /-- `H_LDG_32` (R154): Global 32-bit load. -/
  | hLdg32 (d : BitVec 3) (a : Opnd) (off : BitVec 11) (g : BitVec 4)
  /-- `H_LDG_64` (R154): Global 64-bit load. -/
  | hLdg64 (d : BitVec 3) (a : Opnd) (off : BitVec 11) (g : BitVec 4)
  /-- `H_STG_8` (R154): Global byte store entering the store buffer at commit. -/
  | hStg8 (d : BitVec 3) (a : Opnd) (off : BitVec 11) (g : BitVec 4)
  /-- `H_STG_16` (R154): Global 16-bit store. -/
  | hStg16 (d : BitVec 3) (a : Opnd) (off : BitVec 11) (g : BitVec 4)
  /-- `H_STG_32` (R154): Global 32-bit store. -/
  | hStg32 (d : BitVec 3) (a : Opnd) (off : BitVec 11) (g : BitVec 4)
  /-- `H_STG_64` (R154): Global 64-bit store. -/
  | hStg64 (d : BitVec 3) (a : Opnd) (off : BitVec 11) (g : BitVec 4)
  /-- `H_EMIT` (R155): Sends a data token to one or two destination entries at commit. -/
  | hEmit (a : Opnd) (d0 : BitVec 6) (d1 : BitVec 6) (tagop : BitVec 3) (g : BitVec 4)
  /-- `H_EMITP` (R155): Sends a predicate to one or two destination entries at commit. -/
  | hEmitp (a : Opnd) (d0 : BitVec 6) (d1 : BitVec 6) (tagop : BitVec 3) (g : BitVec 4)
  /-- `H_SEND` (R156): Sends a packet of local memory beats at commit. -/
  | hSend (a : Opnd) (b : Opnd) (g : BitVec 4)
  /-- `H_EXIT_DONE` (R157): Firing exit that commits the block and consumes unkept inputs. -/
  | hExitDone (keep : BitVec 3) (g : BitVec 4)
  /-- `H_EXIT_DEFER` (R157): Firing exit that commits nothing and makes the firing ready again. -/
  | hExitDefer (g : BitVec 4)
  /-- `H_EXIT_FAIL` (R157): Firing exit that commits nothing and traps with handler-fail. -/
  | hExitFail (g : BitVec 4)
  /-- `H_TAG_LVL` (R158): Reads the firing's loop level. -/
  | hTagLvl (d : BitVec 3) (g : BitVec 4)
  /-- `H_TAG_FREE` (R158): Returns the firing's tag to its pool at commit. -/
  | hTagFree (g : BitVec 4)
  /-- `H_TAG_FREECTX` (R158): Returns the firing's context to the context pool at commit. -/
  | hTagFreectx (g : BitVec 4)
  /-- `H_TAG_POOL` (R158): Reads the free credits available at a level. -/
  | hTagPool (d : BitVec 3) (a : Opnd) (g : BitVec 4)
  /-- `H_TAG_PARENT` (R158): Reads the recorded parent of the firing's tag. -/
  | hTagParent (d : BitVec 3) (g : BitVec 4)
  /-- `H_FENCE_SL` (R160): Later LDGs wait for the cell's store buffer to drain. -/
  | hFenceSl (g : BitVec 4)
  /-- `H_FENCE_REL` (R160): Handler release: tokens and SYNCs leave only after stores perform within scope. -/
  | hFenceRel (scope : BitVec 2) (g : BitVec 4)
  /-- `H_FENCE_ACQ` (R160): Orders later loads after earlier ones, renewing at DIE scope or wider. -/
  | hFenceAcq (scope : BitVec 2) (g : BitVec 4)
  /-- `H_LCLK` (R161): Reads the tile's LCLK. -/
  | hLclk (d : BitVec 3) (g : BitVec 4)
  /-- `H_LCLKADV` (R161): Advances the tile's LCLK at commit. -/
  | hLclkadv (a : Opnd) (g : BitVec 4)
  /-- `H_BOXT8_ANY` (R263): Tests the top node's children against the ray and pushes hits, stack capacity 6. -/
  | hBoxt8Any (d : BitVec 3) (a : Opnd) (b : Opnd) (g : BitVec 4)
  /-- `H_BOXT8_CLOSEST` (R278): Box test with stack capacity 4, culling against the best t. -/
  | hBoxt8Closest (d : BitVec 3) (a : Opnd) (b : Opnd) (g : BitVec 4)
  /-- `H_TRIT_ANY` (R263): Watertight any-hit triangle test of the popped leaf entry. -/
  | hTritAny (d : BitVec 3) (a : Opnd) (b : Opnd) (g : BitVec 4)
  /-- `H_TRIT_CLOSEST` (R281): Triangle test with closest-hit acceptance. -/
  | hTritClosest (d : BitVec 3) (a : Opnd) (b : Opnd) (g : BitVec 4)
  /-- `H_TRIT_BARY` (R281): Barycentrics of the best hit. -/
  | hTritBary (d : BitVec 3) (a : Opnd) (b : Opnd) (g : BitVec 4)
  /-- `H_DICER` (R287): Computes edge dicing rates and the split decision of a patch. -/
  | hDicer (d : BitVec 3) (a : Opnd) (b : Opnd) (g : BitVec 4)
  /-- `H_SAMPT_TU` (R288): Generates time and lens-u sample values. -/
  | hSamptTu (d : BitVec 3) (a : Opnd) (b : Opnd) (g : BitVec 4)
  /-- `H_SAMPT_V` (R288): Generates the lens-v sample value. -/
  | hSamptV (d : BitVec 3) (a : Opnd) (b : Opnd) (g : BitVec 4)
  /-- `H_MPTEST` (R289): Tests a sample against a motion-blurred micropolygon. -/
  | hMptest (d : BitVec 3) (a : Opnd) (b : Opnd) (g : BitVec 4)
  /-- `H_SEQW` (R292): Ordered wait on an expected sequence tag: pass, defer or trap. -/
  | hSeqw (d : BitVec 3) (a : Opnd) (b : Opnd) (g : BitVec 4)
  /-- `CMD_ADD` (R239): Concordance atomic add returning the old value. -/
  | cmdAdd (die : Nat) (k : Nat)
  /-- `CMD_SUB` (R239): Concordance atomic subtract. -/
  | cmdSub (die : Nat) (k : Nat)
  /-- `CMD_AND` (R239): Concordance atomic AND. -/
  | cmdAnd (die : Nat) (k : Nat)
  /-- `CMD_OR` (R239): Concordance atomic OR. -/
  | cmdOr (die : Nat) (k : Nat)
  /-- `CMD_XOR` (R239): Concordance atomic XOR. -/
  | cmdXor (die : Nat) (k : Nat)
  /-- `CMD_MIN` (R239): Concordance atomic signed minimum. -/
  | cmdMin (die : Nat) (k : Nat)
  /-- `CMD_MAX` (R239): Concordance atomic signed maximum. -/
  | cmdMax (die : Nat) (k : Nat)
  /-- `CMD_MINU` (R239): Concordance atomic unsigned minimum. -/
  | cmdMinu (die : Nat) (k : Nat)
  /-- `CMD_MAXU` (R239): Concordance atomic unsigned maximum. -/
  | cmdMaxu (die : Nat) (k : Nat)
  /-- `CMD_XCHG` (R239): Concordance atomic exchange. -/
  | cmdXchg (die : Nat) (k : Nat)
  /-- `CMD_CAS` (R239): Concordance compare-and-swap. -/
  | cmdCas (die : Nat) (k : Nat)
  /-- `CMD_FADD` (R240): Concordance FP32 atomic add rounded with RNE. -/
  | cmdFadd (die : Nat) (k : Nat)
  /-- `CMD_H2ADD_SR` (R241): Concordance packed FP16 add with hashed stochastic rounding. -/
  | cmdH2addSr (die : Nat) (k : Nat)
  /-- `CMD_RED_ADD` (R218): Reduction add, acknowledged without a value. -/
  | cmdRedAdd (die : Nat) (k : Nat)
  /-- `CMD_RED_SUB` (R218): Reduction subtract. -/
  | cmdRedSub (die : Nat) (k : Nat)
  /-- `CMD_RED_AND` (R218): Reduction AND. -/
  | cmdRedAnd (die : Nat) (k : Nat)
  /-- `CMD_RED_OR` (R218): Reduction OR. -/
  | cmdRedOr (die : Nat) (k : Nat)
  /-- `CMD_RED_XOR` (R218): Reduction XOR. -/
  | cmdRedXor (die : Nat) (k : Nat)
  /-- `CMD_RED_MIN` (R218): Reduction signed minimum. -/
  | cmdRedMin (die : Nat) (k : Nat)
  /-- `CMD_RED_MAX` (R218): Reduction signed maximum. -/
  | cmdRedMax (die : Nat) (k : Nat)
  /-- `CMD_RED_MINU` (R218): Reduction unsigned minimum. -/
  | cmdRedMinu (die : Nat) (k : Nat)
  /-- `CMD_RED_MAXU` (R218): Reduction unsigned maximum. -/
  | cmdRedMaxu (die : Nat) (k : Nat)
  /-- `CMD_RED_FADD` (R218): Reduction FP32 add. -/
  | cmdRedFadd (die : Nat) (k : Nat)
  /-- `CMD_RED_H2ADD_SR` (R218): Reduction packed FP16 stochastic add. -/
  | cmdRedH2addSr (die : Nat) (k : Nat)
  /-- `CMD_PH_REG` (R246): Concordance adds a phaser member entry. -/
  | cmdPhReg (die : Nat) (k : Nat)
  /-- `CMD_PH_DROP` (R246): Concordance schedules a member's drop. -/
  | cmdPhDrop (die : Nat) (k : Nat)
  /-- `CMD_PH_SIG` (R247): Concordance counts or holds a phaser signal. -/
  | cmdPhSig (die : Nat) (k : Nat)
  /-- `CMD_PH_WAIT` (R248): Concordance answers or lists a wait on a phase. -/
  | cmdPhWait (die : Nat) (k : Nat)
  /-- `CMD_PH_SW` (R247): Concordance counts a signal and then handles the wait. -/
  | cmdPhSw (die : Nat) (k : Nat)
  /-- `CMD_PH_ERR` (R249): Concordance completes the phase in progress in error. -/
  | cmdPhErr (die : Nat) (k : Nat)
  /-- `CMD_PH_READ` (R250): Concordance returns a one-clk copy of a phaser record. -/
  | cmdPhRead (die : Nat) (k : Nat)
  /-- `CMD_Q_RSV` (R252): Granary grants a reservation and a zeroed staging slot when capacity allows. -/
  | cmdQRsv (die : Nat) (k : Nat)
  /-- `CMD_Q_ADD` (R253): Granary places a staging line as the newest record, serving waiting takers. -/
  | cmdQAdd (die : Nat) (k : Nat)
  /-- `CMD_Q_TAKE` (R254): Granary delivers the oldest record or lists the taker. -/
  | cmdQTake (die : Nat) (k : Nat)
  /-- `CONCORDANCE_REPLY` (R48): A success or fault reply arrives at the requesting sequencer or reply cell. -/
  | concordanceReply (k : Nat)
  /-- `OVERFLOW_RETURN` (R237): Spilled engine contents return from the GDDR 7 overflow area. -/
  | overflowReturn (die : Nat) (gran : Bool)
  /-- `RELEASE_WIDEN` (R257): The producer's tile completes its writes at a wider scope for a record. -/
  | releaseWiden (die : Nat) (q : Nat) (wide : Bool)
  /-- `PREFETCH_FILL` (R255): The Granary moves a queue's oldest records into a tile's prefetch buffer. -/
  | prefetchFill (die : Nat) (q : Nat) (tile : Nat)
  /-- `PREFETCH_RETURN` (R255): A prefetch buffer returns its records to the queue head after 4,096 idle clk. -/
  | prefetchReturn (tile : Nat)
  /-- `STAGE_EMPTY` (R16): An empty stage forwards a flit unchanged. -/
  | stageEmpty (cell : Nat) (n : Nat)
  /-- `STAGE_PASS` (R93): S1 forwards flits, interleaving srcB partials per period. -/
  | stagePass (cell : Nat)
  /-- `STAGE_CVT` (R93): S1 converts each element to fmt. -/
  | stageCvt (cell : Nat)
  /-- `STAGE_UNPK3` (R94): S1 unpacks 3-bit codes to INT32. -/
  | stageUnpk3 (cell : Nat)
  /-- `STAGE_UNPK4` (R94): S1 unpacks 4-bit codes to INT32. -/
  | stageUnpk4 (cell : Nat)
  /-- `STAGE_LUT8` (R94): S1 maps 3-bit codes through an 8-entry table taken from side flits. -/
  | stageLut8 (cell : Nat)
  /-- `STAGE_SHUF` (R93): S1 rotates and permutes lanes. -/
  | stageShuf (cell : Nat)
  /-- `STAGE_BCAST` (R93): S1 broadcasts one lane. -/
  | stageBcast (cell : Nat)
  /-- `STAGE_MASKT` (R95): S1 masks scores with an ancestor bitmap. -/
  | stageMaskt (cell : Nat)
  /-- `STAGE_UNPKQ` (R93): S1 decodes 4-bit block codes with their scales. -/
  | stageUnpkq (cell : Nat)
  /-- `STAGE_MUL` (R96): Integer multiply of two sources. -/
  | stageMul (cell : Nat)
  /-- `STAGE_MULK` (R96): Integer multiply by a constant. -/
  | stageMulk (cell : Nat)
  /-- `STAGE_FMUL` (R96): Floating multiply of two sources. -/
  | stageFmul (cell : Nat)
  /-- `STAGE_FMULK` (R96): Floating multiply by a constant. -/
  | stageFmulk (cell : Nat)
  /-- `STAGE_ADD` (R96): Integer add. -/
  | stageAdd (cell : Nat)
  /-- `STAGE_ADDK` (R96): Integer add of a constant. -/
  | stageAddk (cell : Nat)
  /-- `STAGE_FADD` (R96): Floating add. -/
  | stageFadd (cell : Nat)
  /-- `STAGE_FADDK` (R96): Floating add of a constant. -/
  | stageFaddk (cell : Nat)
  /-- `STAGE_ACC` (R96): Integer accumulate into an entry, sending after n firings or a marker. -/
  | stageAcc (cell : Nat)
  /-- `STAGE_FACC` (R96): Floating accumulate into an entry. -/
  | stageFacc (cell : Nat)
  /-- `STAGE_RSUM` (R96): Integer reduction sum. -/
  | stageRsum (cell : Nat)
  /-- `STAGE_RMAX` (R96): Integer reduction maximum. -/
  | stageRmax (cell : Nat)
  /-- `STAGE_FRSUM` (R96): Floating reduction sum. -/
  | stageFrsum (cell : Nat)
  /-- `STAGE_FRMAX` (R96): Floating reduction maximum. -/
  | stageFrmax (cell : Nat)
  /-- `STAGE_SHL` (R97): Shift left. -/
  | stageShl (cell : Nat)
  /-- `STAGE_SHR` (R97): Logical shift right. -/
  | stageShr (cell : Nat)
  /-- `STAGE_SRA` (R97): Arithmetic shift right. -/
  | stageSra (cell : Nat)
  /-- `STAGE_RSHR` (R97): Rounding shift right. -/
  | stageRshr (cell : Nat)
  /-- `STAGE_CMPEQ` (R97): Integer compare equal. -/
  | stageCmpeq (cell : Nat)
  /-- `STAGE_CMPLT` (R97): Integer compare less than. -/
  | stageCmplt (cell : Nat)
  /-- `STAGE_FCMPLT` (R97): Floating compare less than. -/
  | stageFcmplt (cell : Nat)
  /-- `STAGE_CLAMP` (R97): Integer clamp. -/
  | stageClamp (cell : Nat)
  /-- `STAGE_FCLAMP` (R97): Floating clamp. -/
  | stageFclamp (cell : Nat)
  /-- `STAGE_RELU` (R16): ReLU of each FP32 lane. -/
  | stageRelu (cell : Nat)
  /-- `STAGE_LRELU` (R97): Leaky ReLU. -/
  | stageLrelu (cell : Nat)
  /-- `STAGE_SEL` (R97): Selects A or a fill value by a mask. -/
  | stageSel (cell : Nat)
  /-- `STAGE_EXP2` (R97): Power of two. -/
  | stageExp2 (cell : Nat)
  /-- `STAGE_RCP` (R97): Reciprocal. -/
  | stageRcp (cell : Nat)
  /-- `STAGE_RSQRT` (R97): Reciprocal square root. -/
  | stageRsqrt (cell : Nat)
  /-- `STAGE_SIGM` (R97): Logistic sigmoid. -/
  | stageSigm (cell : Nat)
  /-- `STAGE_SAT` (R98): Clamps elements to a b-bit range. -/
  | stageSat (cell : Nat)
  /-- `STAGE_PACK` (R19): Converts and packs FP32 rows into fmt. -/
  | stagePack (cell : Nat)
  /-- `STAGE_ROUTE` (R98): Sends each flit to dst and a second destination. -/
  | stageRoute (cell : Nat)
  /-- `STAGE_STORE` (R98): Writes each flit into the STORE ring and forwards it. -/
  | stageStore (cell : Nat)
  /-- `STAGE_QPACK` (R98): Packs FP32 values into Q4X16 code flits with scales. -/
  | stageQpack (cell : Nat)
  /-- `STAGE_MMA` (R17): Row-firing floating matrix product against the B window. -/
  | stageMma (cell : Nat)
  /-- `STAGE_MMAI` (R102): Row-firing INT8 matrix product into INT32. -/
  | stageMmai (cell : Nat)
  /-- `STAGE_MMAQ` (R104): Row-firing 4-bit block matrix product. -/
  | stageMmaq (cell : Nat)
  /-- `STAGE_VFMA` (R105): Fused multiply-add with a lane register. -/
  | stageVfma (cell : Nat)
  /-- `STAGE_NETX` (R294): Evaluates a small network for a group of 16 samples. -/
  | stageNetx (cell : Nat)
  /-- `S1_CONVERT` (R88): The S1 converter converts a flit to the tag a stage source accepts. -/
  | s1Convert (cell : Nat) (stage : Nat) (srcB : Bool)
  /-- `FLIT_HOP` (R112): A flit moves through a registered switch box, parity checked. -/
  | flitHop (cell : Nat) (out : Nat) (upset : Bool)
  /-- `EVENT_PULSE` (R113): An event pulse reaches a cell, adding an EGATE credit or being discarded. -/
  | eventPulse (cell : Nat) (out : Nat)
  /-- `FIFO_APPEND` (R114): A B-cell FIFO appends a flit from its input. -/
  | fifoAppend (cell : Nat)
  /-- `FIFO_LEAVE` (R114): The oldest FIFO flit leaves when downstream is free. -/
  | fifoLeave (cell : Nat)
  /-- `LINEBUF_APPEND` (R114): A LINEBUF takes a flit and sends the column group of its newest lines. -/
  | linebufAppend (cell : Nat)
  /-- `DIRECT_ACCESS` (R223): A direct access performs at its target cell, B-cell, window or register block. -/
  | directAccess (k : Nat)
  /-- `CVST_WRITE` (R193): A write of 1 clears conversion status flags. -/
  | cvstWrite (cell : Nat) (value : BitVec 32)
  /-- `STREAM_BEGIN` (R72): A queue entry begins its accesses after the entry ahead has performed. -/
  | streamBegin (tile : Nat) (port : Nat)
  /-- `STREAM_LINE_ACCESS` (R229): A stream line read or write performs at its home with its timestamp. -/
  | streamLineAccess (tile : Nat) (port : Nat)
  /-- `STREAM_PERFORMED` (R70): A stream command's last read, write or flit completes. -/
  | streamPerformed (tile : Nat) (port : Nat)
  /-- `QFENCE_RELEASE` (R73): QFENCE markers release their queues once every entry ahead has performed. -/
  | qfenceRelease (tile : Nat) (id : Nat)
  /-- `KVC_LENGTH_WRITE` (R71): The length word is written after every row write completes at package scope. -/
  | kvcLengthWrite (tile : Nat) (port : Nat)
  /-- `DEP_ISSUE` (R78): The dependence table issues an armed entry whose count is zero. -/
  | depIssue (tile : Nat)
  /-- `DEP_PERFORMED` (R77): An issued entry performs, becomes DONE and decrements its successors. -/
  | depPerformed (tile : Nat) (e : Nat)
  /-- `RUN_END` (R65): A run ends when its bound streams have performed and the region is empty. -/
  | runEnd (u : Nat)
  /-- `STORE_BUFFER_SEND` (R222): The store at the head of the store buffer leaves for its home. -/
  | storeBufferSend (agent : Nat)
  /-- `HOME_LOAD_REQUEST` (R216): A home answers a miss or renewal, extending the lease. -/
  | homeLoadRequest (k : Nat) (upset : Bool)
  /-- `LOAD_REPLY` (R215): A load reply updates the tile's line and LCLK. -/
  | loadReply (k : Nat)
  /-- `HOME_STORE` (R217): A store performs at its home with a timestamp above the lease. -/
  | homeStore (k : Nat)
  /-- `STORE_REPLY` (R217): A store reply raises LCLK and the high-water and frees the buffer entry. -/
  | storeReply (k : Nat)
  /-- `RED_ACK` (R218): A reduction acknowledgement raises the issuer's store high-water. -/
  | redAck (k : Nat)
  /-- `DRIFT_TICK` (R230): LCLK gains 1 every DRIFT clk. -/
  | driftTick (tile : Nat)
  /-- `SPIN_REPETITION` (R230): The SPIN_N-th consecutive hit to one line raises LCLK past its lease. -/
  | spinRepetition (agent : Nat)
  /-- `REBASE_START` (R231): A clock passing 0xC000_0000 starts a package-wide rebase. -/
  | rebaseStart (die : Nat)
  /-- `REBASE_COMPLETE` (R231): After in-flight accesses perform, every timestamp is rebased and accesses resume. -/
  | rebaseComplete
  /-- `FLOW_PACKET_ARRIVE` (R234): A flow packet arrives and is delivered in order or as it arrives. -/
  | flowPacketArrive (k : Nat)
  /-- `FLOW_ACK` (R234): A flow acknowledgement frees the sender's window. -/
  | flowAck (k : Nat)
  /-- `WALK_START` (R206): A translation miss takes a walk slot or joins a walk. -/
  | walkStart (die : Nat) (k : Nat)
  /-- `WALK_COMPLETE` (R206): A walk fills waiting tiles' translation caches and serves its accesses. -/
  | walkComplete (die : Nat) (slot : Nat)
  /-- `XINV_PAGE` (R207): XINV_CTL go invalidates one page, dropping lines of the old frame with drop set. -/
  | xinvPage (die : Nat)
  /-- `XINV_VMID` (R207): XINV_CTL go invalidates every page of a VMID. -/
  | xinvVmid (die : Nat)
  /-- `XINV_ALL` (R207): XINV_CTL go invalidates every entry. -/
  | xinvAll (die : Nat)
  /-- `XINV_DONE` (R207): Every tile completes the invalidation and go returns to 0. -/
  | xinvDone (die : Nat)
  /-- `MIGRATION_START` (R210): MIG_CTL go blocks the page, starts the drop and the copy. -/
  | migrationStart (die : Nat)
  /-- `MIGRATION_SWITCH` (R210): With drop and copy ended, the leaf switches homes and queued accesses replay. -/
  | migrationSwitch (die : Nat)
  /-- `MIGRATION_ABORT` (R211): An uncorrectable read error restores the old leaf and replays at the old home. -/
  | migrationAbort (die : Nat)
  /-- `TOKEN_HOP` (R130): A token beat moves through a mesh router, parity checked. -/
  | tokenHop (k : Nat) (upset : Bool)
  /-- `TOKEN_ARRIVE` (R131): A token reaches its slot and is filtered, converted, held or stored for matching. -/
  | tokenArrive (k : Nat)
  /-- `PREDICATE_FLIT_ARRIVE` (R129): A predicate flit arrives on field P. -/
  | predicateFlitArrive (k : Nat) (upset : Bool)
  /-- `FIRING_START` (R119): The issue slot starts the ready firing whose last input arrived earliest. -/
  | firingStart (cell : Nat)
  /-- `BLOCK_COMMIT` (R142): A held firing exit commits its stores, pops, tokens and tag changes. -/
  | blockCommit (cell : Nat)
  /-- `FALSE_P_ABSORB` (R132): An LP or LRP slot absorbs inputs matched with a false P. -/
  | falsePAbsorb (cell : Nat) (slot : Nat)
  /-- `STEER_FIRE` (R133): A STEER slot sends L to tdest or fdest by P. -/
  | steerFire (cell : Nat) (slot : Nat)
  /-- `MERGE_FIRE` (R133): A MERGE slot forwards the input P selects. -/
  | mergeFire (cell : Nat) (slot : Nat)
  /-- `QUEUE_APPEND` (R120): A QUEUE slot appends a token to its channel. -/
  | queueAppend (k : Nat)
  /-- `CONVERT_FIRE` (R134): A CONVERT slot converts a token and sends the result. -/
  | convertFire (k : Nat)
  /-- `CONTROL_TOKEN_ABSORB` (R121): A control token at a HANDLER or QUEUE slot is absorbed once earlier data is consumed. -/
  | controlTokenAbsorb (cell : Nat) (slot : Nat)
  /-- `CONTROL_TOKEN_TURN` (R164): A control token at STEER, MERGE or CONVERT is forwarded at its turn. -/
  | controlTokenTurn (cell : Nat) (slot : Nat)
  /-- `TAG_GRANT` (R137): A waiting tag or context allocation is granted. -/
  | tagGrant (cell : Nat)
  /-- `S2T_TAKE` (R125): An S2T takes a data or side flit. -/
  | s2tTake (cell : Nat)
  /-- `S2T_SEND` (R125): An S2T sends one stamped token or a marker's control token. -/
  | s2tSend (cell : Nat)
  /-- `T2S_TAKE` (R125): A T2S places a token into the flit it builds. -/
  | t2sTake (k : Nat)
  /-- `T2S_SEND` (R125): A T2S sends a full or closed flit to the switch box. -/
  | t2sSend (cell : Nat)
  /-- `DRAIN_PASS_START` (R170): A drain pass begins with beats entering behind the last data at every source. -/
  | drainPassStart (u : Nat)
  /-- `DRAIN_BEAT` (R171): A drain beat moves through a stage, join, box, FIFO or sink. -/
  | drainBeat (cell : Nat) (place : Nat)
  /-- `TOKEN_FABRIC_SETTLE` (R172): After 256 idle clk, the token fabric abandons held blocks and drops orphans. -/
  | tokenFabricSettle (u : Nat)
  /-- `DRAIN_COMPLETE` (R170): The drain completes when no T2S sends a beat at a settling. -/
  | drainComplete (u : Nat)
  /-- `QWC_DETECT` (R167): The idle counter reaches QWC_LIMIT and the detector writes a snapshot. -/
  | qwcDetect (u : Nat)
  /-- `SNAPSHOT_RESUME` (R169): Host action resume clears the counter and releases the hold. -/
  | snapshotResume (die : Nat) (w : Nat)
  /-- `SNAPSHOT_DRAIN` (R169): Host action drain runs a drain on the held region. -/
  | snapshotDrain (die : Nat) (w : Nat)
  /-- `SNAPSHOT_FAULT` (R169): Host action fault faults the launch with 0xE1. -/
  | snapshotFault (die : Nat) (w : Nat)
  /-- `SNAPSHOT_FREE` (R168): Host writes valid 0 to free a snapshot window. -/
  | snapshotFree (die : Nat) (w : Nat)
  /-- `WATCHDOG` (R175): The watchdog count reaches WDOG and the launch faults with 0xE0. -/
  | watchdog (u : Nat)
  /-- `UNIT_PLACE` (R328): The Maltster places a waiting launch record's region on its tiles. -/
  | unitPlace (die : Nat)
  /-- `UNIT_START` (R81): After widening, region LCLKs are raised and the lead sequencer issues its entry step. -/
  | unitStart (u : Nat)
  /-- `LAUNCH_COMPLETE` (R67): After writes complete at release scope, the colophon is written and the phaser signalled. -/
  | launchComplete (u : Nat)
  /-- `ACTOR_REGISTER` (R267): A MALT_ACT write registers an actor and grants its initial tiles. -/
  | actorRegister (die : Nat)
  /-- `ACTOR_GRANT` (R270): Depth at GROW_AT for GROW_WIN clk grants a tile and re-splits buckets. -/
  | actorGrant (u : Nat)
  /-- `ACTOR_SHRINK` (R285): Depth at SHRINK_AT for SHRINK_WIN clk starts removing the highest tile. -/
  | actorShrink (u : Nat)
  /-- `SHRINK_RELEASE` (R285): Once the leaving cell is empty, its peer entries are cleared and the tile freed. -/
  | shrinkRelease (u : Nat)
  /-- `QUEUE_BIND` (R286): A MALT_QBIND write binds an ACTOR queue to the unit's actor. -/
  | queueBind (die : Nat)
  /-- `QUEUE_UNBIND` (R286): A MALT_QBIND write unbinds an ACTOR queue. -/
  | queueUnbind (die : Nat)
  /-- `ACTOR_RECORD_MOVE` (R286): The Maltster turns an ACTOR-queue record into a packet for the owning tile. -/
  | actorRecordMove (die : Nat)
  /-- `FREEZE_POINT` (R309): A token-consistent freeze point is reached and the active plane freezes. -/
  | freezePoint (u : Nat)
  /-- `PLANE_SPILL_END` (R312): A spilled plane's bytes reach staging and the plane becomes free. -/
  | planeSpillEnd (u : Nat)
  /-- `REFILL_START` (R301): A spilled level's refill starts into the lowest free user plane. -/
  | refillStart (u : Nat)
  /-- `REFILL_END` (R313): A refill ends after its CRC check and the plane is frozen again. -/
  | refillEnd (u : Nat)
  /-- `PRELOAD_END` (R318): A background preload finishes writing and the plane is PRELOADED. -/
  | preloadEnd (u : Nat)
  /-- `PH_CREATE` (R245): PH_CTL go with op create writes a phaser record at phase 0. -/
  | phCreate (die : Nat)
  /-- `PH_DESTROY` (R245): PH_CTL go with op destroy removes a phaser record. -/
  | phDestroy (die : Nat)
  /-- `QUEUE_CREATE` (R251): QCTL create opens a FREE queue. -/
  | queueCreate (die : Nat)
  /-- `QUEUE_CLOSE` (R251): QCTL close stops new reservations on an OPEN queue. -/
  | queueClose (die : Nat)
  /-- `QUEUE_FREE` (R251): QCTL free returns an empty CLOSED queue to FREE. -/
  | queueFree (die : Nat)
  /-- `LAUNCH_WINDOW_RESERVE` (R258): A host 8-byte read on BAR2 reserves a queue slot without waiting. -/
  | launchWindowReserve (port : Nat) (off : Nat)
  /-- `LAUNCH_WINDOW_ADD` (R258): A host 64-byte write on BAR2 adds a record at SYSTEM scope. -/
  | launchWindowAdd (port : Nat) (off : Nat) (bytes : Nat) (data : BitVec 512)
  /-- `WORK_CREATE` (R322): WORK_CTL create opens a graph, phase or job entry. -/
  | workCreate (die : Nat)
  /-- `WORK_SEAL` (R322): WORK_CTL seal seals an OPEN entry. -/
  | workSeal (die : Nat)
  /-- `WORK_FREE` (R322): WORK_CTL free returns a finished entry to FREE. -/
  | workFree (die : Nat)
  /-- `WORK_COMPLETE` (R323): A sealed entry's counter reaches 0: it signals, lowers its parent and logs. -/
  | workComplete (k : Nat)
  /-- `CANCEL_LAUNCH` (R324): Ends every live launch with the given id. -/
  | cancelLaunch (die : Nat)
  /-- `CANCEL_GRAPH` (R324): Ends every uncompleted launch of a graph and sets it CANCELLED. -/
  | cancelGraph (die : Nat)
  /-- `CANCEL_PHASE` (R324): Cancels every graph of a phase. -/
  | cancelPhase (die : Nat)
  /-- `CANCEL_JOB` (R324): Cancels every phase and graphless launch of a job. -/
  | cancelJob (die : Nat)
  /-- `ENERGY_CLASS_DROP` (R326): A launch's charge reaches its budget and its class number rises. -/
  | energyClassDrop (u : Nat)
  /-- `VICTIM_CHOSEN` (R329): A running unit becomes a pre-emption victim for a waiting unit. -/
  | victimChosen (u : Nat)
  /-- `PREEMPT_STOP` (R330): A pending victim reaches a progress point and begins STOPPING. -/
  | preemptStop (u : Nat)
  /-- `STREAM_SUSPEND` (R331): A begun stream idle for 256 clk while stopping is suspended with its progress. -/
  | streamSuspend (tile : Nat) (port : Nat)
  /-- `PREEMPT_SAVE` (R332): STOPPING ends, waits are withdrawn and SAVING writes the unit's state. -/
  | preemptSave (u : Nat)
  /-- `PREEMPT_SAVED` (R330): The last save write performs and the tiles are freed. -/
  | preemptSaved (u : Nat)
  /-- `PREEMPT_RESTORE` (R334): A saved unit first of its class with free tiles begins RESTORING. -/
  | preemptRestore (u : Nat)
  /-- `PREEMPT_RESUMED` (R330): The last restore write performs and the blocked step runs again. -/
  | preemptResumed (u : Nat)
  /-- `SERVICE_START` (R336): SVC_CTL go freezes the tile's unit and starts a service unit in plane 3. -/
  | serviceStart (die : Nat)
  /-- `VAULT_THAW` (R346): A write of 1 to VAULT_CTL thaw clears frozen. -/
  | vaultThaw (die : Nat)
  /-- `PLOG_WRITE` (R342): A write of 1 clears a parity log entry or the overrun bit. -/
  | plogWrite (die : Nat) (off : Nat) (value : BitVec 64)
  /-- `IRQ_RAISE` (R348): A write releases at SYSTEM and then raises an MSI-X vector. -/
  | irqRaise (die : Nat)
  /-- `HOST_READ` (R349): A host BAR4 read is translated and takes the home's current value. -/
  | hostRead (port : Nat) (bar : Nat) (off : Nat) (n : Nat)
  /-- `HOST_WRITE` (R349): A host BAR4 posted write performs at the home as a store. -/
  | hostWrite (port : Nat) (bar : Nat) (off : Nat) (n : Nat) (data : BitVec 512)
  /-- `HOST_FETCHADD` (R350): A host FetchAdd is performed by the Concordance as ADD. -/
  | hostFetchadd (port : Nat) (off : Nat) (n : Nat) (v : BitVec 64)
  /-- `HOST_SWAP` (R350): A host Swap is performed as XCHG. -/
  | hostSwap (port : Nat) (off : Nat) (n : Nat) (v : BitVec 64)
  /-- `HOST_CAS` (R350): A host 64-bit CAS is performed as CAS. -/
  | hostCas (port : Nat) (off : Nat) (n : Nat) (cmp : BitVec 64) (v : BitVec 64)
  /-- `TYPE1_COMPLETION` (R351): A host completion returns for a type-1 access. -/
  | type1Completion (k : Nat) (ok : Bool) (data : BitVec 512)
  /-- `HOST_COMPLETION_TIMEOUT` (R351): A type-1 access's 50 µs completion timeout faults the launch with 0xF0. -/
  | hostCompletionTimeout (k : Nat)
  /-- `PEER_WRITE` (R352): A Link-X packet arrives at the peer and is admitted or refused. -/
  | peerWrite (k : Nat) (granted : Bool)
  /-- `PEER_ACK` (R352): The peer acknowledges a packet of a Link-X flow. -/
  | peerAck (k : Nat)
  /-- `ATTEST` (R354): A write of 1 returns signed measurements with the nonce. -/
  | attest
  /-- `COLD_RESET` (R355): Power-on or the header command resets every field and runs start from step 0. -/
  | coldReset
  /-- `WARM_RESET` (R355): WRESET go or the header command ends launches and resets unkept state. -/
  | warmReset
  /-- `PORT_LINK_RESET` (R355): A PCI Express Hot Reset or link-down resets that port's link only. -/
  | portLinkReset (port : Nat)
  /-- `POWER_LIMIT` (R356): Above the power limit the controller lowers the clk frequency. -/
  | powerLimit (die : Nat) (above : Bool)
  /-- `THERMAL_STOP` (R356): A die leaving its temperature limit stops with fatal cause 0xF5. -/
  | thermalStop (die : Nat)
  /-- `REG_WRITE` (R6): A write to a register with no row of its own sets its fields. -/
  | regWrite (die : Nat) (block : Nat) (off : Nat) (value : BitVec 64)
  /-- `STREAM_READ_RETURN` (R70): A stream command's read data returns to its engine after the round trip and is delivered as a flit to the cell's stream port or passed on to its write. -/
  | streamReadReturn (k : Nat)
  /-- `STAGING_WRITEBACK` (R312): A spill entry held in S-die staging is written back to GDDR 7 in the background, after which a refill must read GDDR 7. -/
  | stagingWriteback (die : Nat)
  /-- `LINK_X_PORT_DOWN` (R352): A Kelmar Link-X port leaves or rejoins the set of ports that are up, so that a flow with no port up faults with peer-unreachable. -/
  | linkXPortDown (port : Nat) (up : Bool)
  /-- `MANAGEMENT_STOP` (R341): The management controller stops a die with fatal cause 0xFA, freezing its Vault and faulting every launch on it. -/
  | managementStop (die : Nat)
  deriving DecidableEq, Repr, Inhabited

end Sys2Proof
end

