-- ==== Sys2Proof/Config.lean ====
section
/-! DEFINITION. What the spec leaves open, as constants with no body: nothing can be proved of a value of them, so a claim
holds for every choice. Each is read at `State.tick`, a counter every use advances. -/

namespace Sys2Proof

/-- A value the spec leaves undefined or does not state (log 5). -/
opaque Config.freeWord : Nat → Word

/-- Which agent acts next: the spec orders agents only where it says so (log 2). -/
opaque Config.nextNow : Nat → Machine.Now

/-- Which event of the opcode table happens, with what the outside world supplies (log 2). -/
opaque Config.event : Nat → Instr

/-- The Oligil image registered next: the container format is not in the spec (log 1). -/
opaque Config.image : Nat → Machine.Folio

/-- Which line a full tile cache drops (R219 names no replacement; log 7). -/
opaque Config.cacheVictim : Nat → Nat

/-- Which lines leave a home's LLC before a line enters it, besides those its capacity makes leave (R2; R219 names no replacement; log 8). -/
opaque Config.llcVictims : Nat → List Nat

/-- The µJ a tile draws in one clk (R326 gives no figures; log 14). -/
opaque Config.energyDraw : Nat → Nat

/-- Word i of the body and checksums of a plane image, by the stamp of its spill entry: the layout of the fixed-size state within
a cell record and the form of several item kinds are not given (R312; log 13). -/
opaque Config.imageWord : Nat → Nat → Word

/-- How many 64-byte units the extension records of kinds with no stated item size take (R312; log 13). -/
opaque Config.extUnits : Nat → Nat

/-- How many eighths of a ns one clk lasts beyond its own 5 while the module is throttled (R356; log 6). -/
opaque Config.slowClk : Nat → Nat

/-- What fails in one run of a step of a start: bit d stands for die d, or bit p for port p of a step of links (R353; log 15). -/
opaque Config.startFails : Nat → BitVec 16

/-- The ports of a step of links that find a partner (R353; log 15). -/
opaque Config.partners : Nat → BitVec 16

/-- The errors that protected structures meet in a clk (R340, R341; log 129). -/
opaque Config.upsets : Nat → List Machine.Upset

/-- A packet that a peer sends this module (R352; log 16). -/
opaque Config.peerPacket : Nat → Machine.PeerPacket

/-- Where the nonce stands in the result area of ATTEST, whose layout the spec does not give (R354; log 15). -/
opaque Config.nonceAt : Nat

end Sys2Proof
end

