-- ==== Sys2Proof/Machine/Maps.lean ====
section
/-! DEFINITION. Sparse tables and the one byte memory: reading, writing, the canonical form, and the flat address regions in
which every memory of the module has its place. -/

namespace Sys2Proof.Machine

/-- The entry at a key. -/
def smFind {α : Type} : SMap α → Nat → Option α
  | [], _ => none
  | (j, w) :: r, k => if j = k then some w else smFind r k

/-- The entry at a key, or what an unlisted key reads as. -/
def smGet {α : Type} (d : α) (m : SMap α) (k : Nat) : α := (smFind m k).getD d

/-- Writes an entry, keeping keys rising. -/
def smPut {α : Type} : SMap α → Nat → α → SMap α
  | [], k, v => [(k, v)]
  | (j, w) :: r, k, v => if k < j then (k, v) :: (j, w) :: r else if k = j then (k, v) :: r else (j, w) :: smPut r k v

/-- Removes an entry. -/
def smDel {α : Type} : SMap α → Nat → SMap α
  | [], _ => []
  | (j, w) :: r, k => if k = j then r else (j, w) :: smDel r k

/-- Changes the entry at a key. -/
def smMod {α : Type} (d : α) (m : SMap α) (k : Nat) (f : α → α) : SMap α := smPut m k (f (smGet d m k))

/-- What a byte that nothing has written reads as (DESIGN CHOICE, log 3). -/
def memDefault : Byte := 0

/-- Reads one byte. -/
def memByte (m : List Host.Cell) (a : Nat) : Byte := smGet memDefault m a

/-- Writes one byte: writing what an unlisted address reads as removes the entry. -/
def memPut : List Host.Cell → Nat → Byte → List Host.Cell
  | [], k, v => if v = memDefault then [] else [(k, v)]
  | (j, w) :: r, k, v =>
    if k < j then (if v = memDefault then (j, w) :: r else (k, v) :: (j, w) :: r)
    else if k = j then (if v = memDefault then r else (k, v) :: r)
    else (j, w) :: memPut r k v

/-- The canonical form, above a bound: keys rise and no entry is the default. -/
def memWfFrom : Nat → List Host.Cell → Bool
  | _, [] => true
  | lo, (j, w) :: r => decide (lo ≤ j) && w != memDefault && memWfFrom (j + 1) r

/-- The canonical form of the memory: addresses strictly rising, no entry equal to what an unlisted address reads as. -/
def Memory.wf (m : List Host.Cell) : Bool := memWfFrom 0 m

/-- The little-endian number of `n` bytes (R4). -/
def memRead (m : List Host.Cell) (a : Nat) : Nat → Nat
  | 0 => 0
  | n + 1 => (memByte m a).toNat + 256 * memRead m (a + 1) n

/-- Writes `n` bytes little-endian (R4). -/
def memWrite (m : List Host.Cell) (a : Nat) : Nat → Nat → List Host.Cell
  | 0, _ => m
  | n + 1, v => memWrite (memPut m a (BitVec.ofNat 8 v)) (a + 1) n (v / 256)

/-- Writes zero to `n` bytes. -/
def memClear (m : List Host.Cell) (a n : Nat) : List Host.Cell := m.filter fun c => !(decide (a ≤ c.1) && decide (c.1 < a + n))

/-- Copies the listed bytes of a range to another place (R210 step 3). -/
def memMove (m : List Host.Cell) (src dst n : Nat) : List Host.Cell :=
  (m.filter fun c => decide (src ≤ c.1) && decide (c.1 < src + n)).foldl (fun acc c => memPut acc (dst + (c.1 - src)) c.2)
    (memClear m dst n)

/-- Flat addresses: GDDR 7 lies at its 52-bit physical address (R197). -/
def gddrBase : Nat := 0

/-- Local memory of a cell, 128 KiB apart (R90, R117, R114). -/
def cellBase (cell : Nat) : Nat := 2 ^ 60 + cell * 2 ^ 17

/-- B window of a V-cell: granules 0-3 of 8 KiB (R108). -/
def windowBase (cell : Nat) : Nat := 2 ^ 61 + cell * 2 ^ 15

/-- Sync space of a die (R236). -/
def syncBase (die : Nat) : Nat := 2 ^ 62 + die * 2 ^ 32

/-- Host memory behind a port (R202). -/
def hostBase (port : Nat) : Nat := 2 ^ 63 + port * 2 ^ 52

/-- A peer's type-0 memory (R202): outside the module, used only to name its addresses. -/
def peerBase (peer : Nat) : Nat := 2 ^ 64 + peer * 2 ^ 40

/-- The device registers of a block of a die, 4 KiB each (R202). -/
def regBase (die block : Nat) : Nat := 2 ^ 73 + (die * 2 ^ 16 + block) * 2 ^ 12

/-- A snapshot window (R168). -/
def snapBase (die w : Nat) : Nat := 2 ^ 74 + (die * 4 + w) * 2 ^ 16

/-- The module block's memories: MSI-X tables and the attestation area (R348, R354). -/
def moduleBase (port : Nat) : Nat := 2 ^ 75 + port * 2 ^ 24

/-- The number of listed bytes a range holds. -/
def memAny (m : List Host.Cell) (a n : Nat) : Bool := m.any fun c => decide (a ≤ c.1) && decide (c.1 < a + n)

/-- Bits [hi:lo] of a number. -/
def bitsOf (v hi lo : Nat) : Nat := (v >>> lo) % 2 ^ (hi + 1 - lo)

/-- One bit of a number. -/
def bitOf (v i : Nat) : Bool := (v >>> i) % 2 == 1

/-- v as an n-bit two's-complement number (R8). -/
def sextNat (v n : Nat) : Int := if v % 2 ^ n < 2 ^ (n - 1) then ((v % 2 ^ n : Nat) : Int) else ((v % 2 ^ n : Nat) : Int) - 2 ^ n

/-- An exact integer modulo 2^n. -/
def wrapNat (v : Int) (n : Nat) : Nat := (v % (2 ^ n : Int)).toNat

/-- Replaces bits [hi:lo] of a word. -/
def setBits (w : Word) (hi lo v : Nat) : Word :=
  BitVec.ofNat 64 (w.toNat - (bitsOf w.toNat hi lo) * 2 ^ lo + (v % 2 ^ (hi + 1 - lo)) * 2 ^ lo)

/-- The byte at a place of a 64-byte line. -/
def lineByte (l : BitVec 512) (i : Nat) : Byte := l.extractLsb' (8 * i) 8

/-- Bytes [i, i + n) of a line, as a number. -/
def lineBytes (l : BitVec 512) (i n : Nat) : Nat := bitsOf l.toNat (8 * (i + n) - 1) (8 * i)

/-- Replaces bytes [i, i + n) of a line. -/
def lineMerge (l : BitVec 512) (i n v : Nat) : BitVec 512 :=
  BitVec.ofNat 512 (l.toNat - lineBytes l i n * 2 ^ (8 * i) + (v % 2 ^ (8 * n)) * 2 ^ (8 * i))

/-- The first n elements from a start, stepped by one. -/
def upFrom (a n : Nat) : List Nat := (List.range n).map (a + ·)

/-- Replaces the element at a place of a list. -/
def listSet {α : Type} (l : List α) (i : Nat) (a : α) : List α := l.set i a

/-- The place of the first element a test accepts. -/
def findIdxFrom {α : Type} (p : α → Bool) : List α → Nat → Option Nat
  | [], _ => none
  | x :: r, i => if p x then some i else findIdxFrom p r (i + 1)

/-- Takes an element out of a list. -/
def removeAt {α : Type} (l : List α) (i : Nat) : List α := l.take i ++ l.drop (i + 1)

end Sys2Proof.Machine
end

