-- ==== Sys2Proof/Machine/Numbers.lean ====
section
/-! DEFINITION. Exact values, rounding and the number formats (R182-R192): every floating result is an exact value rounded
once. Quotients, roots and the transcendental functions are carried as a truncated integer with a sticky bit. -/

namespace Sys2Proof.Machine

/-- A rounding mode (R26). -/
inductive Rnd where
  | rne | rtz | rdn | rup | rna | sr
  deriving DecidableEq, Repr

/-- The rounding mode of a rnd field; the loader refuses 110 and 111. -/
def rndOf (c : BitVec 3) : Rnd :=
  match c.toNat with
  | 0 => .rne | 1 => .rtz | 2 => .rdn | 3 => .rup | 4 => .rna | _ => .sr

/-- An exact value. `fin neg m e sticky` is ±(m + δ)·2^e with 0 < m, where δ = 0 unless sticky, and then 0 < δ < 1. -/
inductive FVal where
  | nan
  | inf (neg : Bool)
  | zero (neg : Bool)
  | fin (neg : Bool) (m : Nat) (e : Int) (sticky : Bool)
  deriving DecidableEq, Repr

/-- A floating format (R183). `top` is the code of the largest finite value without its sign. -/
structure FpFmt where
  width : Nat
  ebits : Nat
  mbits : Nat
  bias : Int
  top : Nat
  hasInf : Bool
  nan : Nat
  deriving DecidableEq, Repr

/-- FP32. -/
def fp32 : FpFmt := ⟨32, 8, 23, 127, 0x7F7FFFFF, true, 0x7FC00000⟩
/-- FP16. -/
def fp16 : FpFmt := ⟨16, 5, 10, 15, 0x7BFF, true, 0x7E00⟩
/-- BF16. -/
def bf16 : FpFmt := ⟨16, 8, 7, 127, 0x7F7F, true, 0x7FC0⟩
/-- E4M3: no infinity; the one NaN magnitude is S.1111.111. -/
def e4m3 : FpFmt := ⟨8, 4, 3, 7, 0x7E, false, 0x7F⟩
/-- E5M2. -/
def e5m2 : FpFmt := ⟨8, 5, 2, 15, 0x7B, true, 0x7E⟩

/-- The smallest normal exponent (R183). -/
def FpFmt.emin (f : FpFmt) : Int := 1 - f.bias

/-- The code of ∞, where the format has it. -/
def FpFmt.infCode (f : FpFmt) : Nat := f.top + 1

/-- The sign bit's weight. -/
def FpFmt.signBit (f : FpFmt) : Nat := 2 ^ (f.width - 1)

/-- A code with a sign. -/
def FpFmt.signed (f : FpFmt) (neg : Bool) (c : Nat) : Nat := if neg then f.signBit + c else c

/-- The value of a code (R184). -/
def FpFmt.decode (f : FpFmt) (c : Nat) : FVal :=
  let neg := bitOf c (f.width - 1)
  let mag := c % f.signBit
  let ex := mag / 2 ^ f.mbits
  let m := mag % 2 ^ f.mbits
  if f.hasInf && mag == f.infCode then .inf neg
  else if mag > f.top then .nan
  else if mag = 0 then .zero neg
  else if ex = 0 then .fin neg m (1 - f.bias - f.mbits) false
  else .fin neg (2 ^ f.mbits + m) (ex - f.bias - f.mbits) false

/-- The number of bits of a positive number. -/
def bitLen (m : Nat) : Nat := if m = 0 then 0 else Nat.log2 m + 1

/-- Rounds the magnitude m·2^e (+ sticky) to a multiple of 2^qe by R188; `u` is the stochastic draw. -/
def roundMag (r : Rnd) (u : Nat) (neg : Bool) (m : Nat) (e : Int) (sticky : Bool) (qe : Int) : Nat :=
  let sh := (qe - e).toNat
  let m' := if qe < e then m * 2 ^ (e - qe).toNat else m
  let n := m' / 2 ^ sh
  let rem := m' % 2 ^ sh
  let unit := 2 ^ sh
  let exact := rem == 0 && !sticky
  if exact then n
  else
    let half2 := 2 * rem
    let above := decide (half2 > unit) || (half2 == unit && sticky)
    let tie := half2 == unit && !sticky
    match r with
    | .rne => if above || (tie && n % 2 == 1) then n + 1 else n
    | .rna => if above || tie then n + 1 else n
    | .rtz => n
    | .rdn => if neg then n + 1 else n
    | .rup => if neg then n else n + 1
    | .sr =>
      if neg then (if 2 ^ 32 * unit - rem * 2 ^ 32 > u * unit then n else n + 1)
      else if rem * 2 ^ 32 > u * unit || (rem * 2 ^ 32 == u * unit && sticky) then n + 1 else n

/-- What a rounding gives: the code, and the OVF and INV conditions of R190 and R192. -/
structure Rounded where
  code : Nat
  ovf : Bool
  inv : Bool
  deriving DecidableEq, Repr

/-- The result of an overflow (R190). -/
def overflowCode (f : FpFmt) (r : Rnd) (satFinite neg : Bool) : Nat :=
  let toward := match r with
    | .rtz => true
    | .rdn => !neg
    | .rup => neg
    | _ => false
  if satFinite || toward then f.signed neg f.top
  else if f.hasInf then f.signed neg f.infCode
  else f.nan

/-- Rounds an exact value into a format (R188, R190, R192). -/
def roundFp (f : FpFmt) (r : Rnd) (satFinite : Bool) (u : Nat) (x : FVal) : Rounded :=
  match x with
  | .nan => ⟨f.nan, false, false⟩
  | .inf neg =>
    if satFinite then ⟨f.signed neg f.top, true, false⟩
    else if f.hasInf then ⟨f.signed neg f.infCode, false, false⟩
    else ⟨f.nan, false, true⟩
  | .zero neg => ⟨f.signed neg 0, false, false⟩
  | .fin neg m e sticky =>
    let e0 : Int := e + bitLen m - 1
    let qe : Int := max e0 f.emin - f.mbits
    let n := roundMag r u neg m e sticky qe
    let mag : Nat :=
      if n < 2 ^ f.mbits then n
      else if n < 2 ^ (f.mbits + 1) then (qe + f.mbits + f.bias).toNat * 2 ^ f.mbits + (n - 2 ^ f.mbits)
      else (qe + f.mbits + f.bias + 1).toNat * 2 ^ f.mbits
    if mag > f.top then ⟨overflowCode f r satFinite neg, true, false⟩
    else ⟨f.signed neg mag, false, false⟩

/-- Rounds an exact finite value to an integer (R188 with qe = 0). -/
def roundInt (r : Rnd) (u : Nat) (x : FVal) : Int :=
  match x with
  | .fin neg m e sticky =>
    let n := roundMag r u neg m e sticky 0
    if neg then -(n : Int) else n
  | _ => 0

/-- Clamps to the n-bit signed or unsigned range. -/
def clampInt (uns : Bool) (n : Nat) (v : Int) : Int :=
  if uns then max 0 (min v ((2 : Int) ^ n - 1)) else max (-((2 : Int) ^ (n - 1))) (min v ((2 : Int) ^ (n - 1) - 1))

/-- Converts an exact value to an n-bit integer under SAT or WRAP (R192). -/
def convToInt (r : Rnd) (sat uns : Bool) (n : Nat) (u : Nat) (x : FVal) : Rounded :=
  match x with
  | .nan => ⟨0, false, true⟩
  | .inf neg =>
    if sat then ⟨wrapNat (clampInt uns n (if neg then -((2 : Int) ^ 70) else (2 : Int) ^ 70)) n, true, false⟩
    else ⟨0, false, true⟩
  | _ =>
    let v := roundInt r u x
    let c := clampInt uns n v
    ⟨wrapNat (if sat then c else v) n, c != v, false⟩

/-- The exact value of an integer. -/
def ofInt (v : Int) : FVal := if v = 0 then .zero false else .fin (decide (v < 0)) v.natAbs 0 false

/-- Negation. -/
def FVal.neg : FVal → FVal
  | .nan => .nan
  | .inf s => .inf (!s)
  | .zero s => .zero (!s)
  | .fin s m e k => .fin (!s) m e k

/-- The sign of a value that is not NaN. -/
def FVal.isNeg : FVal → Bool
  | .nan => false
  | .inf s => s
  | .zero s => s
  | .fin s _ _ _ => s

/-- A NaN. -/
def FVal.isNan : FVal → Bool
  | .nan => true
  | _ => false

/-- Zero of either sign. -/
def FVal.isZero : FVal → Bool
  | .zero _ => true
  | _ => false

/-- An infinity. -/
def FVal.isInf : FVal → Bool
  | .inf _ => true
  | _ => false

/-- The exact product (R101, R188). -/
def FVal.mul (x y : FVal) : FVal :=
  match x, y with
  | .nan, _ | _, .nan => .nan
  | .inf s, .zero _ | .zero s, .inf _ => if s then .nan else .nan
  | .inf s, y => .inf (s != y.isNeg)
  | x, .inf s => .inf (s != x.isNeg)
  | .zero s, y => .zero (s != y.isNeg)
  | x, .zero s => .zero (s != x.isNeg)
  | .fin s m e _, .fin t n d _ => .fin (s != t) (m * n) (e + d) false

/-- The smallest exponent of the finite terms. -/
def minExp : List FVal → Int → Int
  | [], e => e
  | .fin _ _ d _ :: r, e => minExp r (min d e)
  | _ :: r, e => minExp r e

/-- The sum of the finite terms in units of 2^e. -/
def sumAt (e : Int) : List FVal → Int
  | [] => 0
  | .fin s m d _ :: r => (if s then -((m * 2 ^ (d - e).toNat : Nat) : Int) else ((m * 2 ^ (d - e).toNat : Nat) : Int)) + sumAt e r
  | _ :: r => sumAt e r

/-- The exact sum of terms, with the special values of R101 and the zero sign of R188. -/
def exactSum (rdn : Bool) (xs : List FVal) : FVal :=
  if xs.any FVal.isNan then .nan
  else if xs.any (· == .inf true) && xs.any (· == .inf false) then .nan
  else if xs.any (· == .inf true) then .inf true
  else if xs.any (· == .inf false) then .inf false
  else
    let e := minExp xs 4096
    let v := sumAt e xs
    if v = 0 then
      (if xs.all (· == .zero false) then .zero false
       else if xs.all (· == .zero true) then .zero true
       else .zero rdn)
    else .fin (decide (v < 0)) v.natAbs e false

/-- The exact sum of two terms. -/
def FVal.add (rdn : Bool) (x y : FVal) : FVal := exactSum rdn [x, y]

/-- The quotient, truncated with a sticky bit. x/0 is ∞, 0/0 and ∞/∞ NaN. -/
def FVal.div (x y : FVal) : FVal :=
  match x, y with
  | .nan, _ | _, .nan => .nan
  | .inf _, .inf _ | .zero _, .zero _ => .nan
  | .inf s, y => .inf (s != y.isNeg)
  | x, .inf s => .zero (s != x.isNeg)
  | .zero s, y => .zero (s != y.isNeg)
  | x, .zero s => .inf (s != x.isNeg)
  | .fin s m e _, .fin t n d _ =>
    let k := 100 + bitLen n
    let q := m * 2 ^ k / n
    .fin (s != t) q (e - d - k) (m * 2 ^ k % n != 0)

/-- The integer square root, one bit at a time from bit i - 1 down. -/
def isqrtFrom (v : Nat) : Nat → Nat → Nat
  | 0, r => r
  | i + 1, r => if (r + 2 ^ i) * (r + 2 ^ i) ≤ v then isqrtFrom v i (r + 2 ^ i) else isqrtFrom v i r

/-- The integer square root. -/
def isqrt (v : Nat) : Nat := isqrtFrom v (bitLen v / 2 + 1) 0

/-- The square root, truncated with a sticky bit; −0 gives −0, below zero gives NaN (R150). -/
def FVal.sqrt (x : FVal) : FVal :=
  match x with
  | .nan => .nan
  | .zero s => .zero s
  | .inf s => if s then .nan else .inf false
  | .fin true _ _ _ => .nan
  | .fin false m e _ =>
    let k : Nat := if (e - 200) % 2 = 0 then 200 else 201
    let v := m * 2 ^ k
    let r := isqrt v
    .fin false r ((e - k) / 2) (r * r != v)

/-- 1/√a, truncated with a sticky bit (R97). -/
def FVal.rsqrt (x : FVal) : FVal :=
  match x with
  | .nan => .nan
  | .zero s => .inf s
  | .inf s => if s then .nan else .zero false
  | .fin true _ _ _ => .nan
  | .fin false m e _ =>
    let k0 : Nat := 240 + 2 * bitLen m
    let k : Nat := if ((k0 : Int) + e) % 2 = 0 then k0 else k0 + 1
    let q := 2 ^ k / m
    let r := isqrt q
    .fin false r (-((k : Int) + e) / 2) (!(q * m == 2 ^ k && r * r == q))

/-- The precision, in fraction bits, at which 2^x and e^x are carried (log 32). -/
def fixBits : Nat := 400

/-- ln 2 in fixed point: the sum of 1/(i·2^i). -/
def ln2Sum : Nat → Nat → Nat
  | 0, _ => 0
  | n + 1, i => 2 ^ (fixBits + 20) / (i * 2 ^ i) + ln2Sum n (i + 1)

/-- ln 2 in fixed point at `fixBits` fraction bits. -/
def ln2Fix : Nat := ln2Sum (fixBits + 20) 1 / 2 ^ 20

/-- The sum of y^i/i! in fixed point, the current term given. -/
def expSum (y : Nat) : Nat → Nat → Nat → Nat
  | 0, _, _ => 0
  | n + 1, i, term => term + expSum y n (i + 1) (term * y / 2 ^ fixBits / (i + 1))

/-- e^y for 0 ≤ y < 1, y and the result in fixed point. -/
def expFix (y : Nat) : Nat := expSum y 100 0 (2 ^ fixBits)

/-- 2^f for 0 ≤ f < 1, f and the result in fixed point. -/
def exp2Fix (f : Nat) : Nat := expFix (f * ln2Fix / 2 ^ fixBits)

/-- A positive value below every format's range, and one above it. -/
def tinyVal : FVal := .fin false (2 ^ 90) (-1200) true
/-- A positive value above every format's range. -/
def hugeVal : FVal := .fin false (2 ^ 90) 1200 true

/-- |x| in fixed point, x = m·2^e with e ≥ −fixBits. -/
def fixOf (m : Nat) (e : Int) : Nat := if e < 0 then m * 2 ^ fixBits / 2 ^ (-e).toNat else m * 2 ^ e.toNat * 2 ^ fixBits

/-- 2^x (R97): exact for an integer x, otherwise truncated with a sticky bit. -/
def FVal.exp2 (x : FVal) : FVal :=
  match x with
  | .nan => .nan
  | .zero _ => .fin false 1 0 false
  | .inf s => if s then .zero false else .inf false
  | .fin s m e _ =>
    if e + bitLen m > 11 then (if s then tinyVal else hugeVal)
    else
      let v := fixOf m e
      let ip := v / 2 ^ fixBits
      let fr := v % 2 ^ fixBits
      if fr = 0 then .fin false 1 (if s then -(ip : Int) else ip) false
      else if s then .fin false (exp2Fix (2 ^ fixBits - fr)) (-(ip : Int) - 1 - fixBits) true
      else .fin false (exp2Fix fr) ((ip : Int) - fixBits) true

/-- 1/(1 + e^(−x)) (R97), truncated with a sticky bit. -/
def FVal.sigm (x : FVal) : FVal :=
  match x with
  | .nan => .nan
  | .zero _ => .fin false 1 (-1) false
  | .inf s => if s then .zero false else .fin false 1 0 false
  | .fin s m e _ =>
    if e + bitLen m > 8 then (if s then tinyVal else .fin false (2 ^ 100 - 1) (-100) true)
    else
      let t := fixOf m e * 2 ^ fixBits / ln2Fix
      let ip := t / 2 ^ fixBits
      let ex := exp2Fix (t % 2 ^ fixBits) * 2 ^ ip
      let one := 2 ^ fixBits
      if s then .fin false (one * one / (one + ex)) (-(fixBits : Int)) true
      else .fin false (ex * one / (one + ex)) (-(fixBits : Int)) true

/-- x < y on exact values without sticky bits; NaN compares false. -/
def FVal.lt (x y : FVal) : Bool :=
  match x, y with
  | .nan, _ | _, .nan => false
  | .inf s, .inf t => s && !t
  | .inf s, _ => s
  | _, .inf t => !t
  | x, y =>
    let e := minExp [x, y] 4096
    decide (sumAt e [x] < sumAt e [y])

/-- x = y as numbers: +0 equals −0, NaN compares false. -/
def FVal.eqv (x y : FVal) : Bool := !x.isNan && !y.isNan && !x.lt y && !y.lt x

/-- x ≤ y; NaN compares false. -/
def FVal.le (x y : FVal) : Bool := x.lt y || x.eqv y

/-- The floating format of a tag (R26); integer tags give FP32, which no caller uses. -/
def fmtOfTag (t : Nat) : FpFmt :=
  match t with
  | 3 => fp16 | 4 => bf16 | 5 => e4m3 | 6 => e5m2 | _ => fp32

/-- An integer tag. -/
def tagIsInt (t : Nat) : Bool := t ≤ 1

/-- The element width of a tag (R85). -/
def tagWidth (t : Nat) : Nat :=
  match t with
  | 0 => 64 | 1 => 32 | 2 => 32 | 3 => 16 | 4 => 16 | 5 => 8 | 6 => 8 | _ => 4

/-- Elements of a flit (R85). -/
def tagElems (t : Nat) : Nat := 512 / tagWidth t

/-- The exact value of an element of a tag, integers read as signed. -/
def elemVal (t : Nat) (c : Nat) : FVal :=
  if tagIsInt t then ofInt (sextNat c (tagWidth t)) else (fmtOfTag t).decode c

/-- Converts an element of tag `src` to tag `dst` (R188-R192). `sat` is SATFINITE toward a floating tag and SAT toward an
integer one. -/
def convElem (r : Rnd) (sat : Bool) (src dst u c : Nat) : Rounded :=
  if src = dst && tagIsInt src then ⟨c, false, false⟩
  else if tagIsInt dst then convToInt r sat false (tagWidth dst) u (elemVal src c)
  else roundFp (fmtOfTag dst) r sat u (elemVal src c)

/-- One step of the LFSR (R189). -/
def lfsrNext (s : BitVec 32) : BitVec 32 :=
  if s.extractLsb' 0 1 == 1 then (s >>> 1) ^^^ 0x80200003 else s >>> 1

/-- The seed of a stage's LFSR (R91): the stage number is added to the XOR (DEDUCED, log 17). -/
def stageSeed (die row col stage : Nat) : BitVec 32 :=
  (0x9E3779B9 ^^^ BitVec.ofNat 32 (die * 2 ^ 16 + row * 2 ^ 8 + col)) + BitVec.ofNat 32 stage

/-- The value of a 4-bit code under a scale byte's type (R185), times 16: every code value is a multiple of 1/8. -/
def codeVal16 (ty c : Nat) : Int :=
  let mag (i : Nat) : Nat :=
    match ty, i with
    | _, 0 => 0
    | 1, 1 => 8 | 1, 2 => 16 | 1, 3 => 24 | 1, 4 => 32 | 1, 5 => 48 | 1, 6 => 64 | 1, _ => 96
    | 2, i => 2 ^ i
    | _, 1 => 16 | _, 2 => 32 | _, 3 => 48 | _, 4 => 64 | _, 5 => 128 | _, 6 => 256 | _, _ => 512
  if ty = 0 then 16 * sextNat c 4
  else if c < 8 then mag c else -(mag (c - 8) : Int)

/-- The exact value of a block code with its scale byte (R185). -/
def codeVal (scale c : Nat) : FVal :=
  let ty := scale / 64
  let v := codeVal16 ty c
  if v = 0 then .zero (ty != 0 && decide (c ≥ 8))
  else .fin (decide (v < 0)) v.natAbs ((scale % 64 : Nat) - 32 - 4) false

/-- RNE of an exact quotient a/b of naturals. -/
def rneDiv (a b : Nat) : Nat :=
  let q := a / b
  let r2 := 2 * (a % b)
  if r2 > b || (r2 == b && q % 2 == 1) then q + 1 else q

end Sys2Proof.Machine
end

