-- ==== Sys2Proof/Machine/Ops.lean ====
section
/-! DEFINITION. The named operations over the state: geometry, access to tiles, cells, planes, dies and launches, registers of
the sequencer, the Vault, taking a trap or fault (R50, R337, R338) and ending a unit (R325), messages and flows. -/

namespace Sys2Proof.Machine

/-- The outcome of one meaning. -/
abbrev Out := Host.Outcome State Fault Refusal

/-! Geometry (R2, R46, R128, R220) -/

/-- The number of a tile: 100 per die, 10·tile row + tile column. -/
def tileNo (die trow tcol : Nat) : Nat := die * 100 + trow * 10 + tcol
/-- The die of a tile. -/
def tileDie (t : Nat) : Nat := t / 100
/-- The tile's number on its die. -/
def tileLocal (t : Nat) : Nat := t % 100
/-- A static tile: tile columns 0-5 (R2). -/
def tileStatic (t : Nat) : Bool := t % 10 < 6
/-- The number of a cell. -/
def cellNo (die row col : Nat) : Nat := die * 6400 + row * 80 + col
/-- The die of a cell. -/
def cellDie (c : Nat) : Nat := c / 6400
/-- The row of a cell. -/
def cellRow (c : Nat) : Nat := c % 6400 / 80
/-- The column of a cell. -/
def cellCol (c : Nat) : Nat := c % 80
/-- The tile of a cell. -/
def cellTile (c : Nat) : Nat := tileNo (cellDie c) (cellRow c / 8) (cellCol c / 8)
/-- A T-cell. -/
def isTCell (c : Nat) : Bool := cellCol c ≥ 48
/-- A V-cell (glossary). -/
def isVCell (c : Nat) : Bool := cellCol c < 48 && (cellRow c + cellCol c) % 2 == 0
/-- A B-cell (glossary). -/
def isBCell (c : Nat) : Bool := cellCol c < 48 && (cellRow c + cellCol c) % 2 == 1
/-- The cell with a tile-local index. -/
def cellOf (t n : Nat) : Nat := cellNo (tileDie t) (tileLocal t / 10 * 8 + n / 8) (tileLocal t % 10 * 8 + n % 8)
/-- The tile-local index of a cell. -/
def cellLocal (c : Nat) : Nat := cellRow c % 8 * 8 + cellCol c % 8
/-- A cell as a token names it. -/
def destCode (c : Nat) : BitVec 18 := BitVec.ofNat 18 (cellDie c * 2 ^ 14 + cellRow c * 2 ^ 7 + cellCol c)
/-- The cell a dest field names. -/
def destCell (d : BitVec 18) : Nat := cellNo (d.toNat / 2 ^ 14) (bitsOf d.toNat 13 7) (bitsOf d.toNat 6 0)
/-- A sequencer's agent number (R220). -/
def seqAgent (t : Nat) : Nat := tileDie t * 2 ^ 16 + (80 + tileLocal t / 10) * 2 ^ 8 + 8 * (tileLocal t % 10)
/-- A T-cell's agent number (R220). -/
def cellAgent (c : Nat) : Nat := cellDie c * 2 ^ 16 + cellRow c * 2 ^ 8 + cellCol c
/-- A host port's number as an issuer; host ports are no agents (R213). -/
def hostAgent (port : Nat) : Nat := 2 ^ 32 + port
/-- A stream engine's number as an accessor of pages; engines are no agents (R213). -/
def portAgent (t p : Nat) : Nat := 2 ^ 33 + t * 4 + p
/-- The agent is a sequencer. -/
def agentIsSeq (a : Nat) : Bool := a / 2 ^ 8 % 2 ^ 8 ≥ 80
/-- The tile of an agent. -/
def agentTile (a : Nat) : Nat :=
  if a ≥ 2 ^ 33 then (a - 2 ^ 33) / 4
  else if agentIsSeq a then tileNo (a / 2 ^ 16) (a / 2 ^ 8 % 2 ^ 8 - 80) (a % 2 ^ 8 / 8)
  else tileNo (a / 2 ^ 16) (a / 2 ^ 8 % 2 ^ 8 / 8) (a % 2 ^ 8 / 8)
/-- The cell of a T-cell agent. -/
def agentCell (a : Nat) : Nat := cellNo (a / 2 ^ 16) (a / 2 ^ 8 % 2 ^ 8) (a % 2 ^ 8)

/-! Parts of the state -/

/-- A tile. -/
def State.getTile (s : State) (t : Nat) : Tile := smGet Tile.reset s.tiles t
/-- Writes a tile. -/
def State.setTile (s : State) (t : Nat) (x : Tile) : State := { s with tiles := smPut s.tiles t x }
/-- Changes a tile. -/
def State.modTile (s : State) (t : Nat) (f : Tile → Tile) : State := s.setTile t (f (s.getTile t))
/-- The acting tile. -/
def State.cur (s : State) : Tile := s.getTile s.tile
/-- Changes the acting tile. -/
def State.modCur (s : State) (f : Tile → Tile) : State := s.modTile s.tile f
/-- A cell. -/
def State.getCell (s : State) (c : Nat) : Cell := smGet Cell.reset s.cells c
/-- Writes a cell. -/
def State.setCell (s : State) (c : Nat) (x : Cell) : State := { s with cells := smPut s.cells c x }
/-- Changes a cell. -/
def State.modCell (s : State) (c : Nat) (f : Cell → Cell) : State := s.setCell c (f (s.getCell c))
/-- A die. -/
def State.getDie (s : State) (d : Nat) : Die := smGet Die.reset s.dies d
/-- Changes a die. -/
def State.modDie (s : State) (d : Nat) (f : Die → Die) : State := { s with dies := smPut s.dies d (f (s.getDie d)) }
/-- A launch. -/
def State.launch? (s : State) (u : Nat) : Option Launch := smFind s.launches u
/-- Writes a launch. -/
def State.setLaunch (s : State) (u : Nat) (l : Launch) : State := { s with launches := smPut s.launches u l }
/-- Changes a launch, if there is one. -/
def State.modLaunch (s : State) (u : Nat) (f : Launch → Launch) : State :=
  match s.launch? u with
  | some l => s.setLaunch u (f l)
  | none => s
/-- The launch whose unit holds a tile. -/
def State.owner? (s : State) (t : Nat) : Option Nat := (s.getTile t).owner
/-- The launch of the acting sequencer. -/
def State.unit? (s : State) : Option Launch :=
  match s.cur.owner with
  | some u => s.launch? u
  | none => none
/-- The number of the acting unit; 0 where no unit holds the tile. -/
def State.unitNo (s : State) : Nat := s.cur.owner.getD 0
/-- The job of the acting unit. -/
def State.vmid (s : State) : BitVec 16 := match s.unit? with | some l => l.vmid | none => 0

/-- The plane a region runs in: its active plane, 3 for a service unit, 0 before any load, and none of 0 to 3 while no plane is active. -/
def Launch.activePlane (l : Launch) : Nat :=
  if l.service then 3
  else match l.planes.find? (fun e => e.2.st == PlaneState.active) with
    | some e => e.1
    | none => if l.planes.isEmpty then 0 else 4
/-- The plane in which a cell runs. -/
def State.planeNo (s : State) (c : Nat) : Nat :=
  match s.owner? (cellTile c) with
  | some u => match s.launch? u with | some l => l.activePlane | none => 0
  | none => 0
/-- What a cell's active plane holds. -/
def State.cp (s : State) (c : Nat) : CellPlane := smGet CellPlane.reset (s.getCell c).planes (s.planeNo c)
/-- Writes what a cell's active plane holds. -/
def State.setCp (s : State) (c : Nat) (x : CellPlane) : State :=
  s.modCell c fun cl => { cl with planes := smPut cl.planes (s.planeNo c) x }
/-- Changes what a cell's active plane holds. -/
def State.modCp (s : State) (c : Nat) (f : CellPlane → CellPlane) : State := s.setCp c (f (s.cp c))

/-- A port's queue. -/
def Tile.port (t : Tile) (p : Nat) : PortQ := smGet PortQ.reset t.ports p
/-- Writes a port's queue. -/
def Tile.setPort (t : Tile) (p : Nat) (q : PortQ) : Tile := { t with ports := smPut t.ports p q }

/-- A free value and the state that has used it (log 5). -/
def State.fresh (s : State) : Word × State := (Config.freeWord s.tick, { s with tick := s.tick + 1 })

/-- Device time in ns (R5). -/
def State.timeNs (s : State) : BitVec 64 := BitVec.ofNat 64 (s.eighths / 8)

/-- A number no other entry has taken. -/
def State.nextStamp (s : State) : Nat × State := (s.stamp, { s with stamp := s.stamp + 1 })

/-! Registers of the sequencer -/

/-- Reads a register. -/
def Tile.reg (t : Tile) (r : BitVec 4) : Word := t.a[r.toNat]
/-- Writes a register. -/
def Tile.setReg (t : Tile) (r : BitVec 4) (v : Word) : Tile := { t with a := t.a.set r.toNat v }
/-- Reads a register of the acting sequencer. -/
def State.ra (s : State) (r : BitVec 4) : Word := s.cur.reg r
/-- Writes a register of the acting sequencer. -/
def State.wa (s : State) (r : BitVec 4) (v : Word) : State := s.modCur fun t => t.setReg r v

/-- Marks a unit's region as active in this clk (R167). -/
def State.touch (s : State) (u : Nat) : State := s.modLaunch u fun l => { l with active := true }
/-- Marks a commit, a slot firing or a token movement of a unit's region, which R172 counts too. -/
def State.touchTok (s : State) (u : Nat) : State := s.modLaunch u fun l => { l with active := true, moved := true }
/-- Marks the region that holds a cell as active. -/
def State.touchCell (s : State) (c : Nat) : State :=
  match s.owner? (cellTile c) with
  | some u => s.touch u
  | none => s

/-- The step has issued: what it waited for and what its load gathered is forgotten, and its issue is activity (R167). -/
def State.issued (s : State) : State :=
  (s.modCur fun t => { t with wait := none, reply := none, phase := 0, ld := LoadSt.empty }).touch s.unitNo

/-- The step has issued and the sequencer moves to the next step (R53). -/
def State.nextStep (s : State) : State := s.issued.modCur fun t => { t with spc := t.spc + 8 }

/-- The step writes a register and the sequencer moves to the next step. -/
def State.finish (s : State) (r : BitVec 4) (v : Word) : Out := .next ((s.wa r v).nextStep)

/-- The step holds the SPC and runs again (R53). `progress` says whether it is a progress point (R174). -/
def State.block (s : State) (progress : Bool) : Out := .next (s.modCur fun t => { t with wait := some (.poll progress) })

/-- The step holds the SPC until a reply arrives. -/
def State.await (s : State) (progress engine : Bool) : Out :=
  .next (s.modCur fun t => { t with wait := some (.reply progress engine), phase := 1 })

/-- An event that cannot happen now leaves the machine as it is (log 33). -/
def State.stutter (s : State) : Out := .next s

/-! Control registers of a die -/

/-- A control register. -/
def State.reg (s : State) (d off : Nat) : Word := smGet 0 (s.getDie d).regs off
/-- Writes a control register. -/
def State.setReg (s : State) (d off : Nat) (v : Word) : State := s.modDie d fun x => { x with regs := smPut x.regs off v }
/-- A register of the module block. -/
def State.mreg (s : State) (off : Nat) : Word := smGet 0 s.mod.regs off
/-- The windows of the dies are shut: a warm reset runs, or a start presents the module block alone (R353, R355). -/
def State.shut (s : State) : Bool := s.mod.warmBusy || s.mod.moduleOnly
/-- Writes a register of the module block. -/
def State.setMreg (s : State) (off : Nat) (v : Word) : State := { s with mod := { s.mod with regs := smPut s.mod.regs off v } }

/-- The entry of a port's MSI-X table for a vector, by 2048·port + vector; the standard table masks every vector at reset (PRESUMED, log 134). -/
def ModuleBlk.entry (m : ModuleBlk) (k : Nat) : BitVec 128 := smGet (BitVec.ofNat 128 (2 ^ 96)) m.msix k

/-- A vector of a port is raised: its message is sent, or its pending bit is set while its entry is masked. -/
def ModuleBlk.message (m : ModuleBlk) (port v : Nat) : ModuleBlk :=
  let k := 2048 * port + v
  if (m.entry k).getLsbD 96 then { m with pending := if m.pending.contains k then m.pending else m.pending ++ [k] }
  else { m with raised := m.raised ++ [(port, v)] }

/-- Raises an interrupt vector on both ports (R348). -/
def State.interrupt (s : State) (v : Nat) : State := { s with mod := (s.mod.message 0 v).message 1 v }

/-! The Vault (R345-R346) -/

/-- An event of the Vault. -/
structure VEvent where
  kind : Nat
  cause : Nat
  flags : Nat
  place : Nat
  launch : Nat
  job : Nat
  data : Nat
  deriving DecidableEq, Repr

/-- The 32 bytes of an event. -/
def VEvent.bytes (e : VEvent) (time : BitVec 64) : BitVec 256 :=
  BitVec.ofNat 256 (time.toNat + e.kind * 2 ^ 64 + e.cause * 2 ^ 72 + e.flags * 2 ^ 80 + e.place * 2 ^ 96 +
    e.launch % 2 ^ 32 * 2 ^ 128 + e.job % 2 ^ 16 * 2 ^ 160 + e.data % 2 ^ 64 * 2 ^ 192)

/-- Writes an event, unless the Vault is frozen. -/
def State.vault (s : State) (d : Nat) (e : VEvent) : State :=
  let ctl := (s.reg d 0xB00).toNat
  if bitOf ctl 63 then s
  else
    let head := bitsOf ctl 11 0
    let total := bitsOf ctl 43 12
    let s := s.modDie d fun x => { x with vault := smPut x.vault head (e.bytes s.timeNs) }
    s.setReg d 0xB00 (BitVec.ofNat 64 ((head + 1) % 4096 + (min (total + 1) (2 ^ 32 - 1)) * 2 ^ 12))

/-- A place that is a tile. -/
def placeTile (t : Nat) : Nat := 2 ^ 18 + (destCode (cellOf t 0)).toNat

/-- An event of a launch at its lead tile. -/
def State.vaultUnit (s : State) (u kind cause data : Nat) : State :=
  match s.launch? u with
  | some l =>
    let t := l.region.headD (l.die * 100)
    s.vault (tileDie t) ⟨kind, cause, 0, placeTile t, l.id.toNat, l.vmid.toNat, data⟩
  | none => s

/-! The work table (R322) -/

/-- The place of an entry of the work table. -/
def State.workIdx (s : State) (vmid : BitVec 16) (kind : BitVec 2) (id : BitVec 32) : Option Nat :=
  findIdxFrom (fun w => w.vmid == vmid && w.kind == kind && w.id == id) s.work 0
/-- Changes an entry of the work table. -/
def State.modWork (s : State) (i : Nat) (f : WorkEnt → WorkEnt) : State :=
  match s.work[i]? with
  | some w => { s with work := listSet s.work i (f w) }
  | none => s

/-- A launch with nothing in it. -/
def Launch.blank : Launch :=
  { record := 0, vmid := 0, folio := 0, entry := 0, die := 0, dieFixed := false, args := 0, budget := 1, refill := 1,
    phaser := 0, colophon := 0, saveArea := 0, spillArea := 0, cls := 0, scope := 0, qwcHold := false, id := 0, graph := 0,
    whw := 0, recScope := 0, producer := 0, added := 0, st := .waiting, ending := .ok, cause := 0, causeDie := 0, causeTile := 0,
    causeClk := 0, faults := 0, start := none, charge := 0, energyUsed := 0, preempts := 0, completed := 0, discarded := 0,
    age := 0, since := 0, unitClk := 0, region := [], move := (0, 0), depth := 0, levels := [], planes := [], frames := [],
    stack := [], refilling := none, refillDue := none, cleared := none, callStage := 0, resume := 0, run := false,
    runId := 0, runHis := [], halted := false, spilled := false, lastTs := 0, drained := true, drain := none, kept := none, idle := 0,
    firstIdle := 0, active := false, moved := false, still := 0, held := false, frozen := false, window := none, wdog := 0,
    reservations := [], actor := none, saved := none, service := false, victim := none, writing := false,
    signalPending := false }

/-! Ending a unit (R325, R337) -/

/-- The unit has tiles. -/
def UState.hasTiles : UState → Bool
  | .placed | .running | .pending | .stopping | .saving | .restoring | .ending => true
  | _ => false

/-- Drops the stream commands of a launch that have not begun, and where its fence markers stand in the queue too (R325 step 2). -/
def dropQueued (u : Nat) (fences : Bool) (q : PortQ) : PortQ :=
  { q with entries := q.entries.filter fun e => match e with | .cmd c => c.owner != u || c.begun | .fence _ => !fences }

/-- Takes a unit off its work: its step is abandoned, queued commands dropped, and a drain of its
region begins; a unit without tiles keeps nothing (R325, R338). A service unit's victim keeps its queues under keys 4 to 7 of a tile it
does not hold meanwhile (R336). -/
def State.beginEnding (s : State) (u : Nat) : State :=
  match s.launch? u with
  | none => s
  | some l =>
    let tiles := l.region
    let s := tiles.foldl (fun s t => s.modTile t fun x =>
      let x := { x with ports := x.ports.map fun e => (e.1, dropQueued u ((x.owner == some u && decide (e.1 < 4)) || (l.frozen && decide (e.1 ≥ 4))) e.2) }
      if x.owner = some u then
        { x with wait := none, reply := none, phase := 0, ld := LoadSt.empty, deps := x.deps.map fun e => (e.1, { e.2 with rearmed := false }) }
      else x) s
    let live := l.st.hasTiles && l.st != .placed && l.st != .saving && l.st != .restoring
    s.modLaunch u fun l =>
      { l with st := .ending, held := false, run := false, callStage := 0, saved := none, stack := if live then l.stack else [],
               drain := if live && l.drain.isNone then some ⟨.cancel, false, false, 0⟩
                        else match l.drain with | some d => some { d with why := .cancel } | none => none }

/-- A launch has completed: its colophon is written, or is on its way (R321). -/
def Launch.colophonDone (l : Launch) : Bool := l.st == .done || l.writing || l.signalPending

/-- A launch that is discarded with its graph (R337): CANCELLED with 0xE8 at the place of the first fault. -/
def State.discard (s : State) (die tile : Nat) (u : Nat) : State :=
  match s.launch? u with
  | none => s
  | some l =>
    if l.colophonDone || (l.st == .ending && l.ending != .ok) then s
    else
      (s.setLaunch u { l with ending := .cancelled, cause := 0xE8, causeDie := die, causeTile := tile, causeClk := s.clk,
                              faults := 0, completed := 0, discarded := if l.st == .waiting then 0 else 1 }).beginEnding u

/-- A launch discarded in this clk names the place of its graph's first fault, which another fault of the clk has displaced (R338). -/
def Launch.replaced (l : Launch) (clk die tile : Nat) : Launch :=
  if l.ending == .cancelled && l.cause == 0xE8 && l.causeClk == clk then { l with causeDie := die, causeTile := tile } else l

/-- The launches of a graph that have no colophon. -/
def State.graphLaunches (s : State) (vmid : BitVec 16) (g : BitVec 32) : List Nat :=
  (s.launches.filter fun e => e.2.vmid == vmid && e.2.graph == g && e.2.st != .done).map (·.1)

/-- The earlier of two causes of one clk: lower die, then lower tile, then lower code (R338). -/
def causeBefore (d t c d' t' c' : Nat) : Bool := decide (d < d') || (d == d' && (decide (t < t') || (t == t' && decide (c < c'))))

/-- Takes a fault of a launch (R337, R338): records it, ends the launch's unit and discards the rest of its graph. `code` is the cause, with
the level of a failed walk above eight bits, which the event keeps in bits [63:56] of its data (R208, log 93); `tile` is the place, `data` the VA
or the code of TRAP (R345). -/
def State.faultLaunch (s : State) (u : Nat) (code : Nat) (tile : Nat) (data : Nat) : State :=
  let cause := code % 256
  let data := data + code / 256 * 2 ^ 56
  match s.launch? u with
  | none => s.vault (tileDie tile) ⟨0x03, cause, 0, placeTile tile, 0, 0, data⟩
  | some l =>
    let s := s.vault (tileDie tile) ⟨0x03, cause, 0, placeTile tile, l.id.toNat, l.vmid.toNat, data⟩
    if l.st == .done then s
    else
      let isFault := l.ending == .faulted || l.ending == .watchdog
      let first := !isFault && (l.st != .ending || l.ending == .ok || l.causeClk == s.clk) ||
        isFault && l.causeClk == s.clk &&
          causeBefore (tileDie tile) (tileLocal tile) cause l.causeDie l.causeTile l.cause.toNat
      let l' := { l with faults := min (l.faults + 1) (2 ^ 32 - 1),
                         discarded := if l.st == .waiting then 0 else 1 }
      let l' := if first then
          { l' with ending := if cause = 0xE0 then .watchdog else .faulted, cause := BitVec.ofNat 8 cause,
                    causeDie := tileDie tile, causeTile := tileLocal tile, causeClk := s.clk, completed := 0 }
        else l'
      let s := (s.setLaunch u l')
      let s := if l.st == .ending then s else s.beginEnding u
      if !first || l.graph == 0 then s
      else
        let s := match s.workIdx l.vmid 1 l.graph with
          | some i => s.modWork i fun w =>
              if w.state == 1 || w.state == 2 ||
                  (isFault && w.state == 4 && w.cause == l.cause && w.causeDie == l.causeDie && w.causeTile == l.causeTile) then
                { w with state := 4, cause := BitVec.ofNat 8 cause, causeDie := tileDie tile, causeTile := tileLocal tile }
              else w
          | none => s
        ((s.graphLaunches l.vmid l.graph).filter (· != u)).foldl (fun s v =>
          (s.modLaunch v fun x => x.replaced s.clk (tileDie tile) (tileLocal tile)).discard (tileDie tile) (tileLocal tile) v) s

/-- A trap of the acting sequencer's step (R54): precise, the SPC stays, and the launch faults. -/
def State.trapWith (s : State) (cause data : Nat) : Out := .next (s.faultLaunch s.unitNo cause s.tile data)

/-- A trap whose Vault event carries the SPC. -/
def State.trap (s : State) (cause : Nat) : Out := s.trapWith cause s.cur.spc.toNat

/-- The launch of a cell. -/
def State.cellUnit (s : State) (c : Nat) : Nat := (s.owner? (cellTile c)).getD 0

/-- A fault raised at a cell. -/
def State.faultCell (s : State) (c cause data : Nat) : State :=
  s.faultLaunch (s.cellUnit c) cause (cellTile c) data

/-- A trap of the acting cell's handler block (R50, R142): nothing commits, and the launch faults. -/
def State.trapBlock (s : State) (cause data : Nat) : Out :=
  .next ((s.faultCell s.cell cause data).modCell s.cell fun c => { c with block := none, ld := LoadSt.empty })

/-! Messages and flows (R234-R235) -/

/-- The key of a flow: source tile (100 for a home's own unit), destination die, class. -/
def flowKey (srcDie srcLocal dstDie cls : Nat) : Nat := ((srcDie * 128 + srcLocal) * 16 + dstDie) * 4 + cls

/-- A flow. -/
def State.flow (s : State) (k : Nat) : Flow := smGet Flow.reset s.flows k

/-- The class of a message (R235). -/
def MsgKind.cls : MsgKind → Nat
  | .streamReq .. | .streamRet .. | .streamWr .. | .peer .. => 1
  | .cmd c => if c.code.toNat < 0x20 || c.code.toNat ≥ 0x80 then 0 else 3
  | .rep _ code .. => if code.toNat < 0x20 || code.toNat ≥ 0x80 then 0 else 3
  | _ => 0

/-- Takes the next sequence number of a flow. -/
def State.takeSeq (s : State) (k : Nat) : FlowRef × State :=
  let f := s.flow k
  (⟨k, f.next⟩, { s with flows := smPut s.flows k { f with next := f.next + 1 } })

/-- Sends a message from a source on one die to another die, on a flow when the dies differ. -/
def State.send (s : State) (srcDie srcLocal dstDie : Nat) (agent owner : Nat) (k : MsgKind) : State :=
  if srcDie = dstDie then
    { s with msgs := s.msgs ++ [⟨k, agent, owner, 0, dstDie, none, true, false, s.eighths⟩] }
  else
    let r := s.takeSeq (flowKey srcDie srcLocal dstDie k.cls)
    { r.2 with msgs := r.2.msgs ++ [⟨k, agent, owner, 0, dstDie, some r.1, false, false, s.eighths⟩] }

/-- Marks the message sent last with the run it was made for (R77). -/
def State.ofRun (s : State) (run : Nat) : State :=
  match s.msgs.getLast? with
  | some m => { s with msgs := s.msgs.dropLast ++ [{ m with run := run }] }
  | none => s

/-- Sends a message from an agent's tile. -/
def State.sendFrom (s : State) (agent owner dstDie : Nat) (k : MsgKind) : State :=
  s.send (tileDie (agentTile agent)) (tileLocal (agentTile agent)) dstDie agent owner k

/-- Sends a reply from a die back to an agent's tile. -/
def State.sendBack (s : State) (die agent owner : Nat) (k : MsgKind) : State :=
  s.send die 100 (if agent ≥ 2 ^ 32 && agent < 2 ^ 33 then die else tileDie (agentTile agent)) agent owner k

/-- Takes a message out of the list. -/
def State.dropMsg (s : State) (k : Nat) : State := { s with msgs := removeAt s.msgs k }

/-! Agents' load states and store buffers -/

/-- An agent's load state. -/
def State.ldOf (s : State) (a : Nat) : LoadSt :=
  if a ≥ 2 ^ 33 then ((s.getTile (agentTile a)).port ((a - 2 ^ 33) % 4)).ld
  else if agentIsSeq a then (s.getTile (agentTile a)).ld else (s.getCell (agentCell a)).ld
/-- Changes an agent's load state. -/
def State.modLd (s : State) (a : Nat) (f : LoadSt → LoadSt) : State :=
  if a ≥ 2 ^ 33 then s.modTile (agentTile a) fun t =>
    let q := t.port ((a - 2 ^ 33) % 4)
    t.setPort ((a - 2 ^ 33) % 4) { q with ld := f q.ld }
  else if agentIsSeq a then s.modTile (agentTile a) fun t => { t with ld := f t.ld }
  else s.modCell (agentCell a) fun c => { c with ld := f c.ld }
/-- An agent's store buffer. -/
def State.sbufOf (s : State) (a : Nat) : List StoreEnt :=
  if agentIsSeq a then (s.getTile (agentTile a)).sbuf else (s.getCell (agentCell a)).sbuf
/-- Writes an agent's store buffer. -/
def State.setSbuf (s : State) (a : Nat) (b : List StoreEnt) : State :=
  if agentIsSeq a then s.modTile (agentTile a) fun t => { t with sbuf := b }
  else s.modCell (agentCell a) fun c => { c with sbuf := b }
/-- An agent's spin count. -/
def State.spinOf (s : State) (a : Nat) : Spin :=
  if agentIsSeq a then (s.getTile (agentTile a)).spin else (s.getCell (agentCell a)).spin
/-- Writes an agent's spin count. -/
def State.setSpin (s : State) (a : Nat) (x : Spin) : State :=
  if agentIsSeq a then s.modTile (agentTile a) fun t => { t with spin := x }
  else s.modCell (agentCell a) fun c => { c with spin := x }
/-- An agent's store high-water (R213). -/
def State.hiOf (s : State) (a : Nat) : BitVec 32 :=
  if agentIsSeq a then (s.getTile (agentTile a)).hiWater else (s.getCell (agentCell a)).hiWater
/-- The larger of two timestamps. -/
def tsMax (x y : BitVec 32) : BitVec 32 := if x.toNat < y.toNat then y else x
/-- Raises an agent's store high-water, and the largest timestamp of its launch's stores (R82). -/
def State.raiseHi (s : State) (a : Nat) (ts : BitVec 32) : State :=
  let s := if agentIsSeq a then s.modTile (agentTile a) fun t => { t with hiWater := tsMax t.hiWater ts }
    else s.modCell (agentCell a) fun c => { c with hiWater := tsMax c.hiWater ts }
  match s.owner? (agentTile a) with
  | some u => s.modLaunch u fun l => { l with lastTs := tsMax l.lastTs ts }
  | none => s
/-- Sets an agent's WHW to its store high-water (R226). -/
def State.setWhw (s : State) (a : Nat) : State :=
  if agentIsSeq a then s.modTile (agentTile a) fun t => { t with spr := { t.spr with whw := t.hiWater } }
  else s.modCell (agentCell a) fun c => { c with whw := c.hiWater }
/-- Sets a tile's LCLK to the larger of itself and a time (R227). -/
def State.raiseLclk (s : State) (t : Nat) (x : BitVec 32) : State :=
  s.modTile t fun y => { y with spr := { y.spr with lclk := tsMax y.spr.lclk x } }
/-- A tile's LCLK. -/
def State.lclk (s : State) (t : Nat) : BitVec 32 := (s.getTile t).spr.lclk

/-- The value at which a logical clock starts a rebase (R231). -/
def rebaseLimit : Nat := 0xC0000000

end Sys2Proof.Machine
end

