-- ==== Sys2Proof/Machine/Flags.lean ====
section
/-! DEFINITION. The flags: conversion status CVST of a V-cell or T-cell (R193), set by roundings and conversions and cleared by writing
1. No other instruction of this hardware has flags (R150). -/

namespace Sys2Proof.Machine

/-- CVST's flags for a rounding. -/
def Rounded.flags (r : Rounded) : Nat := (if r.inv then 1 else 0) + if r.ovf then 2 else 0

/-- The flags of some roundings. -/
def cvstOf (rs : List Rounded) : Nat := (if rs.any (·.inv) then 1 else 0) + if rs.any (·.ovf) then 2 else 0

/-- The flags of CVST set in a clk. -/
def CellPlane.cvstSet (p : CellPlane) (clk : Nat) : BitVec 32 := if p.cvstAt = clk then p.cvstNew else 0

/-- Sets conversion status flags (R193). -/
def State.setCvst (s : State) (c v : Nat) : State :=
  if v = 0 then s
  else s.modCp c fun p =>
    { p with cvst := p.cvst ||| BitVec.ofNat 32 v, cvstNew := p.cvstSet s.clk ||| BitVec.ofNat 32 v, cvstAt := s.clk }

/-- A write of 1 clears a flag of CVST, but one set in the same clk ends set (R193). -/
def State.cvstClear (s : State) (c v : Nat) : State :=
  s.modCp c fun p => { p with cvst := p.cvst &&& ~~~(BitVec.ofNat 32 (v % 8) &&& ~~~p.cvstSet s.clk) }

end Sys2Proof.Machine
end

