-- ==== Sys2Proof/WellFormed.lean ====
section
/-! DEFINITION. Which instruction terms a word can encode: the value checks of R29-R38, R47, R148 and R159 that the types of
`Instr` do not already make. Events carry no encoding and are always well formed. -/

namespace Sys2Proof

/-- A guard value other than 8 (R34). -/
def guardOk (g : BitVec 4) : Bool := g != 8

/-- The command codes an ATOM may name (R47, R242). -/
def atomCodeOk (c : BitVec 8) : Bool :=
  (0x01 ≤ c.toNat && c.toNat ≤ 0x0D) || (0x81 ≤ c.toNat && c.toNat ≤ 0x89) || c == 0x8C || c == 0x8D

/-- A RED form (R47). -/
def isRed (c : BitVec 8) : Bool := 0x80 ≤ c.toNat

/-- The command codes a SYNC may name (R159). -/
def syncCodeOk (c : BitVec 8) : Bool := atomCodeOk c || (0x20 ≤ c.toNat && c.toNat ≤ 0x25)

/-- The static checks of SYNC (R38, R159): its code, a swap register for CAS alone, no reply for RED, z for PH.DROP and PH.SIG. -/
def syncOk (d : BitVec 3) (b : Opnd) (reply : BitVec 6) (cmd : BitVec 8) : Bool :=
  syncCodeOk cmd && (cmd == 0x0B || d == 0) && (!isRed cmd || reply == 63) &&
  (!(cmd == 0x21 || cmd == 0x22) || b == .reg 13)

/-- The static check of one instruction. -/
def Instr.wf : Instr → Bool
  | .strmIn _ _ _ _ dlv | .strmOut _ _ _ _ dlv | .strmGath _ _ _ _ _ dlv | .strmScat _ _ _ _ _ dlv
  | .strmFill _ _ _ _ dlv | .strmCopy _ _ _ _ dlv => dlv != 3
  | .cfgPreload _ plane | .pswap plane => plane != 3
  | .depNew _ kind => kind != 3
  | .phReg _ mode => mode != 0
  | .atom cmd _ _ _ x _ => atomCodeOk cmd && (cmd == 0x0B || x == 0)
  | .srr _ num => num.toNat ≤ 0x00A
  | .srw _ num => num.toNat ≤ 0x009 && num != 0x000 && num != 0x003
  | .hAdd _ _ _ _ g _ | .hSub _ _ _ _ g _ | .hMul _ _ _ _ g _ => guardOk g
  | .hMulh _ _ _ _ g | .hMulhu _ _ _ _ g | .hMin _ _ _ _ g | .hMax _ _ _ _ g | .hMinu _ _ _ _ g | .hMaxu _ _ _ _ g
  | .hAnd _ _ _ _ g | .hOr _ _ _ _ g | .hXor _ _ _ _ g | .hAndn _ _ _ _ g | .hShl _ _ _ _ g | .hShr _ _ _ _ g
  | .hSra _ _ _ _ g | .hCeq _ _ _ _ g | .hCne _ _ _ _ g | .hClt _ _ _ _ g | .hCltu _ _ _ _ g | .hCle _ _ _ _ g
  | .hCleu _ _ _ _ g => guardOk g
  | .hAbs _ _ _ g _ | .hNeg _ _ _ g _ => guardOk g
  | .hPopc _ _ _ g | .hClz _ _ _ g | .hCtz _ _ _ g => guardOk g
  | .hAddi _ _ _ g | .hAndi _ _ _ g | .hOri _ _ _ g | .hXori _ _ _ g | .hCeqi _ _ _ g | .hClti _ _ _ g
  | .hCltui _ _ _ g | .hShli _ _ _ g | .hShri _ _ _ g | .hSrai _ _ _ g => guardOk g
  | .hBfx _ _ pos len g | .hBfxu _ _ pos len g | .hBfi _ _ pos len g => guardOk g && pos.toNat + len.toNat ≤ 63
  | .hLit _ g _ | .hLith _ g _ | .hAddl _ _ g _ => guardOk g
  | .hSync d _ b g reply _ _ cmd => guardOk g && syncOk d b reply cmd
  | .hFadd _ _ _ _ g _ | .hFsub _ _ _ _ g _ | .hFmul _ _ _ _ g _ | .hFma _ _ _ _ g _ | .hFmin _ _ _ _ g _
  | .hFmax _ _ _ _ g _ => guardOk g
  | .hFabs _ _ _ g | .hFneg _ _ _ g => guardOk g
  | .hFceq _ _ _ _ g | .hFclt _ _ _ _ g | .hFcle _ _ _ _ g => guardOk g
  | .hFcvt _ _ _ _ g _ => guardOk g
  | .hFrcp _ _ _ g _ | .hFsqrt _ _ _ g _ | .hFexp2 _ _ _ g _ | .hIcvtf _ _ _ g _ | .hFcvti _ _ _ g _ => guardOk g
  | .hFdot _ _ _ f g e => guardOk g && (!(f == .i64 || f == .i32x2) || e == .rne)
  | .hLdl8 _ _ _ g | .hLdl16 _ _ _ g | .hLdl32 _ _ _ g | .hLdl64 _ _ _ g | .hStl8 _ _ _ g | .hStl16 _ _ _ g
  | .hStl32 _ _ _ g | .hStl64 _ _ _ g | .hLdg8 _ _ _ g | .hLdg16 _ _ _ g | .hLdg32 _ _ _ g | .hLdg64 _ _ _ g
  | .hStg8 _ _ _ g | .hStg16 _ _ _ g | .hStg32 _ _ _ g | .hStg64 _ _ _ g => guardOk g
  | .hEmit _ _ _ tagop g | .hEmitp _ _ _ tagop g => guardOk g && tagop != 7
  | .hSend _ _ g | .hExitDone _ g | .hExitDefer g | .hExitFail g => guardOk g
  | .hTagLvl _ g | .hTagFree g | .hTagFreectx g | .hTagPool _ _ g | .hTagParent _ g => guardOk g
  | .hFenceSl g | .hFenceRel _ g | .hFenceAcq _ g | .hLclk _ g | .hLclkadv _ g => guardOk g
  | .hBoxt8Any _ _ _ g | .hBoxt8Closest _ _ _ g | .hTritAny _ _ _ g | .hTritClosest _ _ _ g | .hTritBary _ _ _ g
  | .hDicer _ _ _ g | .hSamptTu _ _ _ g | .hSamptV _ _ _ g | .hMptest _ _ _ g | .hSeqw _ _ _ g => guardOk g
  | _ => true

end Sys2Proof
end

