-- ==== Sys2Proof/Decode.lean ====
section
/-! DEFINITION. The decoders of the sequencer word (R27-R32) and of the handler word (R33-R38), total on every word and
rejecting by cause in R50's order, and the encoders written from the same tables. -/

namespace Sys2Proof

/-- Why a word is not an instruction (R50), in the order the checks are made. -/
inductive DecodeErr where
  /-- Cause 0x01, illegal-instruction. -/
  | illegal
  /-- Cause 0x02, reserved-field. -/
  | reservedField
  /-- Cause 0x03, bad-destination-register. -/
  | badDest
  deriving DecidableEq, Repr

/-- A decoder's answer. -/
abbrev Decoded := Except DecodeErr Instr

/-- The instruction, when the check holds; reserved-field otherwise. -/
def okIf (c : Bool) (i : Instr) : Decoded := if c then .ok i else .error .reservedField

/-- The fields of a sequencer word (R27). -/
structure SeqFields where
  d : BitVec 4
  s : BitVec 4
  t : BitVec 4
  x : BitVec 4
  imm : BitVec 40

/-- Splits a sequencer word (R27). -/
def seqFields (w : BitVec 64) : SeqFields :=
  { d := w.extractLsb' 52 4, s := w.extractLsb' 48 4, t := w.extractLsb' 44 4, x := w.extractLsb' 40 4,
    imm := w.extractLsb' 0 40 }

/-- The delivery field [39:38] of a stream word (R31). -/
def immDlv (imm : BitVec 40) : BitVec 2 := imm.extractLsb' 38 2

/-- The sequencer's opcode map (R30) with the fields of R28, R31 and R32. -/
def decodeSeqRaw (w : BitVec 64) : Decoded :=
  let f := seqFields w
  let d := f.d; let s := f.s; let t := f.t; let x := f.x; let imm := f.imm
  let sr (i : Instr) : Decoded := okIf (x == 0 && imm == 0) i
  let si (i : Instr) : Decoded := okIf (t == 0 && x == 0) i
  let br (i : Instr) : Decoded := okIf (d == 0 && x == 0) i
  let sh (i : Instr) : Decoded := okIf (t == 0 && x == 0 && imm.extractLsb' 6 34 == 0) i
  let p : BitVec 2 := x.extractLsb' 0 2
  let xs : Bool := x.extractLsb' 2 2 == 0
  let m : BitVec 3 := s.extractLsb' 0 3
  let rt : BitVec 4 := imm.extractLsb' 6 4
  let cell : BitVec 6 := imm.extractLsb' 0 6
  let mid : Bool := imm.extractLsb' 10 28 == 0
  let idx : BitVec 8 := imm.extractLsb' 0 8
  let idx0 : Bool := imm.extractLsb' 8 32 == 0
  match (w.extractLsb' 56 8).toNat with
  | 0x00 => sr (.add d s t) | 0x01 => sr (.sub d s t) | 0x02 => sr (.mul d s t) | 0x03 => sr (.and d s t)
  | 0x04 => sr (.or d s t) | 0x05 => sr (.xor d s t) | 0x06 => sr (.shl d s t) | 0x07 => sr (.shr d s t)
  | 0x08 => sr (.sra d s t) | 0x09 => sr (.min d s t) | 0x0A => sr (.max d s t)
  | 0x10 => si (.addi d s imm) | 0x14 => si (.andi d s imm) | 0x15 => si (.ori d s imm) | 0x16 => si (.xori d s imm)
  | 0x17 => sh (.shli d s (imm.extractLsb' 0 6)) | 0x18 => sh (.shri d s (imm.extractLsb' 0 6))
  | 0x19 => sh (.srai d s (imm.extractLsb' 0 6))
  | 0x1E => okIf (s == 0 && t == 0 && x == 0) (.li d imm)
  | 0x1F => okIf (t == 0 && x == 0 && imm.extractLsb' 24 16 == 0) (.lui d s (imm.extractLsb' 0 24))
  | 0x20 => sr (.ceq d s t) | 0x21 => sr (.cne d s t) | 0x22 => sr (.clt d s t) | 0x23 => sr (.cltu d s t)
  | 0x28 => si (.ceqi d s imm) | 0x29 => si (.clti d s imm) | 0x2A => si (.cltui d s imm)
  | 0x30 => si (.ld8 d s imm) | 0x31 => si (.ld16 d s imm) | 0x32 => si (.ld32 d s imm) | 0x33 => si (.ld64 d s imm)
  | 0x34 => si (.lds8 d s imm) | 0x35 => si (.lds16 d s imm) | 0x36 => si (.lds32 d s imm)
  | 0x38 => si (.st8 d s imm) | 0x39 => si (.st16 d s imm) | 0x3A => si (.st32 d s imm) | 0x3B => si (.st64 d s imm)
  | 0x40 => okIf (d.toNat ≤ 3 && t == 0 && x == 0 && imm == 0) (.nset (d.extractLsb' 0 2) s)
  | 0x41 => okIf (s.toNat ≤ 3 && t == 0 && x == 0 && imm == 0) (.nget d (s.extractLsb' 0 2))
  | 0x48 => okIf (d.toNat ≤ 7 && t == 0 && x == 0) (.patLd (d.extractLsb' 0 3) s imm)
  | 0x49 => okIf (d.toNat ≤ 7 && t == 0 && x == 0) (.patSt (d.extractLsb' 0 3) s imm)
  | 0x4A => okIf (d.toNat ≤ 7 && t == 0 && x == 0 && imm == 0) (.patBase (d.extractLsb' 0 3) s)
  | 0x50 => br (.beq s t imm) | 0x51 => br (.bne s t imm) | 0x52 => br (.blt s t imm) | 0x53 => br (.bge s t imm)
  | 0x54 => br (.bltu s t imm) | 0x55 => br (.bgeu s t imm)
  | 0x56 => okIf (s == 0 && t == 0 && x == 0) (.jal d imm)
  | 0x57 => okIf (t == 0 && x == 0) (.jalr d s imm)
  | 0x60 => okIf (d == 0 && s == 0 && t == 0 && x == 0 && idx0) (.cfgLoad idx)
  | 0x61 => okIf (d == 0 && s == 0 && t == 0 && x == 0 && idx0) (.cfgRun idx)
  | 0x62 => okIf (d == 0 && s == 0 && t == 0 && x == 0 && imm == 0) .cfgWait
  | 0x63 => okIf (d == 0 && t == 0 && x == 0 && idx0) (.cfgCall idx s)
  | 0x64 => okIf (d == 0 && t == 0 && x == 0 && imm == 0) (.cfgRet s)
  | 0x65 => okIf (d == 0 && s == 0 && t == 0 && xs && idx0) (.cfgPreload idx p)
  | 0x66 => okIf (d == 0 && s == 0 && t == 0 && xs && imm == 0) (.pswap p)
  | 0x67 => okIf (s == 0 && t == 0 && x == 0 && imm == 0) (.cfgDrain d)
  | 0x68 => okIf (d == 0 && s == 0 && t == 0 && x == 0 && imm == 0) .cfgStop
  | 0x70 => okIf (d == 0 && s.toNat ≤ 7 && t == 0 && xs && mid) (.strmIn p m rt cell (immDlv imm))
  | 0x71 => okIf (d == 0 && s.toNat ≤ 7 && t == 0 && xs && mid) (.strmOut p m rt cell (immDlv imm))
  | 0x72 => okIf (d == 0 && s.toNat ≤ 7 && xs && mid) (.strmGath p m t rt cell (immDlv imm))
  | 0x73 => okIf (d == 0 && s.toNat ≤ 7 && xs && mid) (.strmScat p m t rt cell (immDlv imm))
  | 0x74 => okIf (xs && imm.extractLsb' 0 38 == 0) (.strmFill p d s t (immDlv imm))
  | 0x75 => okIf (xs && imm.extractLsb' 0 38 == 0) (.strmCopy p d s t (immDlv imm))
  | 0x76 => okIf (xs && imm.extractLsb' 1 39 == 0) (.strmKvc p d s t (imm.extractLsb' 0 1 == 1))
  | 0x77 => okIf (xs && imm.extractLsb' 16 24 == 0) (.strmXch p d s t (imm.extractLsb' 0 16))
  | 0x78 => okIf (d == 0 && x == 0 && imm == 0) (.sbar s t)
  | 0x79 =>
    if x == 0 then okIf (d == 0 && s == 0 && t == 0) (.qfence imm)
    else okIf (x == 1 && d == 0 && t == 0 && imm == 0) (.qfenceR s)
  | 0x7A => okIf (d == 0 && s == 0 && t == 0 && x == 0 && imm == 0) .fenceSl
  | 0x7B => okIf (d == 0 && s == 0 && t == 0 && xs && imm == 0) (.fenceRel p)
  | 0x7C => okIf (d == 0 && s == 0 && t == 0 && xs && imm == 0) (.fenceAcq p)
  | 0x7D => okIf (s == 0 && t == 0 && x == 0 && imm == 0) (.lclkRd d)
  | 0x7E => okIf (d == 0 && t == 0 && x == 0 && imm == 0) (.lclkAdv s)
  | 0x80 => okIf (s == 0 && t == 0 && x == 0 && imm.extractLsb' 2 38 == 0) (.depNew d (imm.extractLsb' 0 2))
  | 0x81 => okIf (d == 0 && x == 0 && imm == 0) (.depEdge s t)
  | 0x82 => okIf (d == 0 && t == 0 && x == 0 && imm == 0) (.depArm s)
  | 0x83 => okIf (d == 0 && t == 0 && x == 0 && imm == 0) (.depWait s)
  | 0x84 => okIf (t == 0 && x == 0 && imm == 0) (.qRsv d s)
  | 0x85 => okIf (d == 0 && t == 0 && xs && imm == 0) (.qAdd s p)
  | 0x86 => sr (.qTake d s t)
  | 0x88 => okIf (d == 0 && t == 0 && xs && imm == 0) (.phReg s p)
  | 0x89 => okIf (d == 0 && t == 0 && x == 0 && imm == 0) (.phDrop s)
  | 0x8A => okIf (d == 0 && t == 0 && xs && imm == 0) (.phSig s p)
  | 0x8B => sr (.phWait d s t)
  | 0x8C => okIf (xs && imm == 0) (.phSw d s t p)
  | 0x8D => okIf (d == 0 && x == 0 && imm == 0) (.phErr s t)
  | 0x8E => okIf (d == 0 && x == 0 && imm == 0) (.phRead s t)
  | 0x90 => okIf (imm.extractLsb' 10 30 == 0) (.atom idx d s t x (imm.extractLsb' 8 2))
  | 0xF0 => okIf (d == 0 && s == 0 && t == 0 && x == 0 && imm == 0) .nop
  | 0xF1 => okIf (d == 0 && s == 0 && t == 0 && x == 0 && imm == 0) .yield
  | 0xF2 => okIf (d == 0 && s == 0 && t == 0 && x == 0 && idx0) (.trap idx)
  | 0xF3 => okIf (d == 0 && s == 0 && t == 0 && x == 0 && imm.extractLsb' 4 36 == 0) (.evt (imm.extractLsb' 0 4))
  | 0xF4 => okIf (s == 0 && t == 0 && x == 0 && imm.extractLsb' 12 28 == 0) (.srr d (imm.extractLsb' 0 12))
  | 0xF5 => okIf (d == 0 && t == 0 && x == 0 && imm.extractLsb' 12 28 == 0) (.srw s (imm.extractLsb' 0 12))
  | _ => .error .illegal

/-- A decoded instruction whose values R31, R32 and R38 allow. -/
def checkWf (r : Decoded) : Decoded :=
  match r with
  | .ok i => okIf i.wf i
  | .error e => .error e

/-- Decodes one sequencer word (R50). -/
def decodeSeq (w : BitVec 64) : Decoded := checkWf (decodeSeqRaw w)

/-- An integer format, or illegal-instruction (R36). -/
def ifmtOf (f : BitVec 3) : Option IFmt :=
  if f == 0 then some .i64 else if f == 1 then some .i32x2 else none

/-- A floating format (R36). -/
def ffmtOf (f : BitVec 3) : Option FFmt :=
  if f == 2 then some .f32x2 else if f == 3 then some .f16x4 else if f == 4 then some .b16x4 else none

/-- A conversion format (R151). -/
def cfmtOf (f : BitVec 3) : Option CFmt :=
  if f == 2 then some .f32x2 else if f == 3 then some .f16x4 else if f == 4 then some .b16x4
  else if f == 5 then some .e4x8 else if f == 6 then some .e5x8 else none

/-- A dot-product format (R152). -/
def dfmtOf (f : BitVec 3) : Option DFmt :=
  if f == 0 then some .i64 else if f == 1 then some .i32x2 else if f == 2 then some .f32x2
  else if f == 3 then some .f16x4 else if f == 4 then some .b16x4 else if f == 5 then some .e4x8
  else if f == 6 then some .e5x8 else none

/-- The ext code of an integer op; 11 is reserved (R36). -/
def iextOf (e : BitVec 2) : Option IExt :=
  if e == 0 then some .wrap else if e == 1 then some .sat else if e == 2 then some .satu else none

/-- The ext code of a floating op (R36). -/
def hrndOf (e : BitVec 2) : HRnd :=
  if e == 0 then .rne else if e == 1 then .rtz else if e == 2 then .rdn else .rup

/-- An operand field (R33): a register may not carry the peek bit. -/
def opndOf (o : BitVec 6) : Option Opnd :=
  if o.extractLsb' 5 1 == 1 then some (.chan (o.extractLsb' 4 1 == 1) (o.extractLsb' 0 4))
  else if o.extractLsb' 4 1 == 1 then none
  else some (.reg (o.extractLsb' 0 4))

/-- A destination field: t0-t7 (R34). -/
def destOf (d : BitVec 4) : Option (BitVec 3) :=
  if d.toNat ≤ 7 then some (d.extractLsb' 0 3) else none

/-- The value, or the error. -/
def orErr {α : Type} (e : DecodeErr) : Option α → Except DecodeErr α
  | some a => .ok a
  | none => .error e

/-- Reserved-field unless the condition holds. -/
def must (c : Bool) : Except DecodeErr Unit := if c then .ok () else .error .reservedField

/-- The last two checks of R50 for a word whose static checks the constructor's own `wf` completes: reserved fields first,
then the destination. -/
def withDest (d : BitVec 4) (mk : BitVec 3 → Instr) : Decoded :=
  if (mk 0).wf then
    match destOf d with
    | some r => if (mk r).wf then .ok (mk r) else .error .reservedField
    | none => .error .badDest
  else .error .reservedField

/-- As `withDest`, for an instruction with no destination. -/
def noDest (i : Instr) : Decoded := okIf i.wf i

/-- Two operands, both sound. -/
def two (a b : BitVec 6) (k : Opnd → Opnd → Decoded) : Decoded :=
  match opndOf a, opndOf b with
  | some x, some y => k x y
  | _, _ => .error .reservedField

/-- One operand. -/
def one (a : BitVec 6) (k : Opnd → Decoded) : Decoded :=
  match opndOf a with
  | some x => k x
  | none => .error .reservedField

/-- The encoding of z in an operand field (R38). -/
def zField : BitVec 6 := 0b001101

/-- The handler's opcode map (R37) with the formats of R35 and the field rules of R36 and R38. `lit` is the word that
follows, read for format HL alone. -/
def decodeHandler (w lit : BitVec 32) : Decoded :=
  let d : BitVec 4 := w.extractLsb' 21 4
  let a : BitVec 6 := w.extractLsb' 15 6
  let b : BitVec 6 := w.extractLsb' 9 6
  let f : BitVec 3 := w.extractLsb' 6 3
  let g : BitVec 4 := w.extractLsb' 2 4
  let e : BitVec 2 := w.extractLsb' 0 2
  let i : BitVec 11 := w.extractLsb' 4 11
  let gi : BitVec 4 := w.extractLsb' 0 4
  let int (k : IFmt → Decoded) : Decoded :=
    match ifmtOf f with | some v => k v | none => .error .illegal
  let flt (k : FFmt → Decoded) : Decoded :=
    match ffmtOf f with | some v => k v | none => .error .illegal
  let cvt (k : CFmt → Decoded) : Decoded :=
    match cfmtOf f with | some v => k v | none => .error .illegal
  let zero (k : Decoded) : Decoded := if f == 0 then k else .error .illegal
  let ext (k : IExt → Decoded) : Decoded :=
    match iextOf e with | some v => k v | none => .error .reservedField
  let plain (k : Decoded) : Decoded := if e == 0 then k else .error .reservedField
  let unary (k : Decoded) : Decoded := if b == zField then k else .error .reservedField
  let guardFirst (c : Bool) (k : Decoded) : Decoded := if c then k else .error .reservedField
  let i3 (mk : BitVec 3 → Opnd → Opnd → IFmt → BitVec 4 → Instr) : Decoded :=
    int fun v => plain (two a b fun x y => withDest d fun r => mk r x y v g)
  let ie (mk : BitVec 3 → Opnd → Opnd → IFmt → BitVec 4 → IExt → Instr) : Decoded :=
    int fun v => ext fun u => two a b fun x y => withDest d fun r => mk r x y v g u
  let hi (mk : BitVec 3 → Opnd → BitVec 11 → BitVec 4 → Instr) : Decoded :=
    one a fun x => withDest d fun r => mk r x i gi
  let hs (mk : BitVec 3 → Opnd → BitVec 6 → BitVec 4 → Instr) : Decoded :=
    guardFirst (i.extractLsb' 6 5 == 0) (one a fun x => withDest d fun r => mk r x (i.extractLsb' 0 6) gi)
  let bf (mk : BitVec 3 → Opnd → BitVec 6 → BitVec 5 → BitVec 4 → Instr) : Decoded :=
    one a fun x => withDest d fun r => mk r x (i.extractLsb' 5 6) (i.extractLsb' 0 5) gi
  let f3 (mk : BitVec 3 → Opnd → Opnd → FFmt → BitVec 4 → HRnd → Instr) : Decoded :=
    flt fun v => two a b fun x y => withDest d fun r => mk r x y v g (hrndOf e)
  let fc (mk : BitVec 3 → Opnd → Opnd → FFmt → BitVec 4 → Instr) : Decoded :=
    flt fun v => plain (two a b fun x y => withDest d fun r => mk r x y v g)
  let f1 (mk : BitVec 3 → Opnd → FFmt → BitVec 4 → HRnd → Instr) : Decoded :=
    flt fun v => unary (one a fun x => withDest d fun r => mk r x v g (hrndOf e))
  let c1 (mk : BitVec 3 → Opnd → CFmt → BitVec 4 → HRnd → Instr) : Decoded :=
    cvt fun v => unary (one a fun x => withDest d fun r => mk r x v g (hrndOf e))
  let r3 (mk : BitVec 3 → Opnd → Opnd → BitVec 4 → Instr) : Decoded :=
    zero (two a b fun x y => withDest d fun r => mk r x y g)
  match (w.extractLsb' 25 7).toNat with
  | 0x01 => ie .hAdd | 0x02 => ie .hSub | 0x03 => ie .hMul | 0x04 => i3 .hMulh | 0x05 => i3 .hMulhu
  | 0x06 => i3 .hMin | 0x07 => i3 .hMax | 0x08 => i3 .hMinu | 0x09 => i3 .hMaxu
  | 0x0A => int fun v => ext fun u => unary (one a fun x => withDest d fun r => .hAbs r x v g u)
  | 0x0B => int fun v => ext fun u => unary (one a fun x => withDest d fun r => .hNeg r x v g u)
  | 0x0C => int fun v => plain (unary (one a fun x => withDest d fun r => .hPopc r x v g))
  | 0x0D => int fun v => plain (unary (one a fun x => withDest d fun r => .hClz r x v g))
  | 0x0E => int fun v => plain (unary (one a fun x => withDest d fun r => .hCtz r x v g))
  | 0x10 => i3 .hAnd | 0x11 => i3 .hOr | 0x12 => i3 .hXor | 0x13 => i3 .hAndn | 0x14 => i3 .hShl | 0x15 => i3 .hShr
  | 0x16 => i3 .hSra | 0x18 => i3 .hCeq | 0x19 => i3 .hCne | 0x1A => i3 .hClt | 0x1B => i3 .hCltu | 0x1C => i3 .hCle
  | 0x1D => i3 .hCleu
  | 0x20 => hi .hAddi | 0x21 => hi .hAndi | 0x22 => hi .hOri | 0x23 => hi .hXori
  | 0x24 => hs .hShli | 0x25 => hs .hShri | 0x26 => hs .hSrai
  | 0x27 => hi .hCeqi | 0x28 => hi .hClti | 0x29 => hi .hCltui
  | 0x2A => bf .hBfx | 0x2B => bf .hBfxu | 0x2C => bf .hBfi
  | 0x30 => guardFirst (a == zField && i == 0) (withDest d fun r => .hLit r gi lit)
  | 0x31 => guardFirst (a == zField && i == 0) (withDest d fun r => .hLith r gi lit)
  | 0x32 => guardFirst (i == 0) (one a fun x => withDest d fun r => .hAddl r x gi lit)
  | 0x33 =>
    guardFirst (i.extractLsb' 0 5 == 0 && lit.extractLsb' 19 13 == 0 && (d == 0 || lit.extractLsb' 0 8 == 0x0B))
      (two a (i.extractLsb' 5 6) fun x y => withDest d fun r =>
        .hSync r x y gi (lit.extractLsb' 13 6) (lit.extractLsb' 10 3) (lit.extractLsb' 8 2) (lit.extractLsb' 0 8))
  | 0x38 => f3 .hFadd | 0x39 => f3 .hFsub | 0x3A => f3 .hFmul | 0x3B => f3 .hFma | 0x3C => f3 .hFmin | 0x3D => f3 .hFmax
  | 0x3E => flt fun v => plain (unary (one a fun x => withDest d fun r => .hFabs r x v g))
  | 0x3F => flt fun v => plain (unary (one a fun x => withDest d fun r => .hFneg r x v g))
  | 0x40 => fc .hFceq | 0x41 => fc .hFclt | 0x42 => fc .hFcle
  | 0x43 => cvt fun v =>
    match cfmtOf (b.extractLsb' 0 3) with
    | some u => guardFirst (b.extractLsb' 3 3 == 0) (one a fun x => withDest d fun r => .hFcvt r x u v g (hrndOf e))
    | none => .error .reservedField
  | 0x44 => f1 .hFrcp | 0x45 => f1 .hFsqrt | 0x46 => f1 .hFexp2 | 0x47 => c1 .hIcvtf | 0x48 => c1 .hFcvti
  | 0x49 =>
    match dfmtOf f with
    | some v => two a b fun x y => withDest d fun r => .hFdot r x y v g (hrndOf e)
    | none => .error .illegal
  | 0x50 => hi .hLdl8 | 0x51 => hi .hLdl16 | 0x52 => hi .hLdl32 | 0x53 => hi .hLdl64
  | 0x54 => hi .hStl8 | 0x55 => hi .hStl16 | 0x56 => hi .hStl32 | 0x57 => hi .hStl64
  | 0x58 => hi .hLdg8 | 0x59 => hi .hLdg16 | 0x5A => hi .hLdg32 | 0x5B => hi .hLdg64
  | 0x5C => hi .hStg8 | 0x5D => hi .hStg16 | 0x5E => hi .hStg32 | 0x5F => hi .hStg64
  | 0x68 => one (w.extractLsb' 19 6) fun x =>
      noDest (.hEmit x (w.extractLsb' 13 6) (w.extractLsb' 7 6) (w.extractLsb' 4 3) gi)
  | 0x69 => one (w.extractLsb' 19 6) fun x =>
      noDest (.hEmitp x (w.extractLsb' 13 6) (w.extractLsb' 7 6) (w.extractLsb' 4 3) gi)
  | 0x6A => zero (guardFirst (d == 0 && e == 0) (two a b fun x y => noDest (.hSend x y g)))
  | 0x6B =>
    let kind := (w.extractLsb' 22 3).toNat
    let keep : BitVec 3 := w.extractLsb' 19 3
    guardFirst (w.extractLsb' 4 15 == 0)
      (if kind = 0 then noDest (.hExitDone keep gi)
       else if kind = 1 then guardFirst (keep == 0) (noDest (.hExitDefer gi))
       else if kind = 2 then guardFirst (keep == 0) (noDest (.hExitFail gi))
       else .error .reservedField)
  | 0x6C =>
    if i == 0 then guardFirst (a == zField) (withDest d fun r => .hTagLvl r gi)
    else if i == 1 then guardFirst (a == zField && d == 0) (noDest (.hTagFree gi))
    else if i == 2 then guardFirst (a == zField && d == 0) (noDest (.hTagFreectx gi))
    else if i == 3 then one a fun x => withDest d fun r => .hTagPool r x gi
    else if i == 4 then guardFirst (a == zField) (withDest d fun r => .hTagParent r gi)
    else .error .reservedField
  | 0x70 =>
    let v : BitVec 2 := i.extractLsb' 0 2
    let sc : BitVec 2 := i.extractLsb' 2 2
    guardFirst (a == zField && d == 0 && i.extractLsb' 4 7 == 0)
      (if v == 0 then guardFirst (sc == 0) (noDest (.hFenceSl gi))
       else if v == 1 then noDest (.hFenceRel sc gi)
       else if v == 2 then noDest (.hFenceAcq sc gi)
       else .error .reservedField)
  | 0x71 => guardFirst (a == zField && i == 0) (withDest d fun r => .hLclk r gi)
  | 0x72 => guardFirst (d == 0 && i == 0) (one a fun x => noDest (.hLclkadv x gi))
  | 0x78 =>
    if e == 0 then r3 .hBoxt8Any else if e == 1 then r3 .hBoxt8Closest else zero (.error .reservedField)
  | 0x79 =>
    if e == 0 then r3 .hTritAny else if e == 1 then r3 .hTritClosest else if e == 2 then r3 .hTritBary
    else zero (.error .reservedField)
  | 0x7A => zero (plain (r3 .hDicer))
  | 0x7B => if e == 0 then r3 .hSamptTu else if e == 1 then r3 .hSamptV else zero (.error .reservedField)
  | 0x7C => zero (plain (r3 .hMptest))
  | 0x7D => zero (plain (r3 .hSeqw))
  | _ => .error .illegal

/-- The instruction, if the word is one. -/
def Decoded.instr? (r : Decoded) : Option Instr :=
  match r with
  | .ok i => some i
  | .error _ => none

/-- The instruction my decoders read from an instruction of `nbits` bits with value `w` (the rest zero): 32 bits are a
handler word, its literal word zero; 64 bits are a sequencer word. -/
def decodeTableWord (nbits w : Nat) : Option Instr :=
  if nbits ≤ 32 then Decoded.instr? (decodeHandler (BitVec.ofNat 32 w) 0)
  else if nbits ≤ 64 then Decoded.instr? (decodeSeq (BitVec.ofNat 64 w))
  else none

/-- A sequencer word from its fields (R27). -/
def seqWord (op : BitVec 8) (d s t x : BitVec 4) (imm : BitVec 40) : BitVec 64 := op ++ d ++ s ++ t ++ x ++ imm

/-- imm40 of a stream word that names a cell (R31). -/
def strmImm (rt : BitVec 4) (cell : BitVec 6) (dlv : BitVec 2) : BitVec 40 := dlv ++ (0 : BitVec 28) ++ rt ++ cell

/-- A port, scope, plane or mode in the x field (R31). -/
def xField (p : BitVec 2) : BitVec 4 := (0 : BitVec 2) ++ p

/-- An m register in a 4-bit field (R29). -/
def mField (m : BitVec 3) : BitVec 4 := (0 : BitVec 1) ++ m

/-- The word of a sequencer instruction (R27-R32), none for anything else. -/
def encodeSeq : Instr → Option (BitVec 64)
  | .add d s t => some (seqWord 0x00 d s t 0 0)
  | .sub d s t => some (seqWord 0x01 d s t 0 0)
  | .mul d s t => some (seqWord 0x02 d s t 0 0)
  | .and d s t => some (seqWord 0x03 d s t 0 0)
  | .or d s t => some (seqWord 0x04 d s t 0 0)
  | .xor d s t => some (seqWord 0x05 d s t 0 0)
  | .shl d s t => some (seqWord 0x06 d s t 0 0)
  | .shr d s t => some (seqWord 0x07 d s t 0 0)
  | .sra d s t => some (seqWord 0x08 d s t 0 0)
  | .min d s t => some (seqWord 0x09 d s t 0 0)
  | .max d s t => some (seqWord 0x0A d s t 0 0)
  | .addi d s i => some (seqWord 0x10 d s 0 0 i)
  | .andi d s i => some (seqWord 0x14 d s 0 0 i)
  | .ori d s i => some (seqWord 0x15 d s 0 0 i)
  | .xori d s i => some (seqWord 0x16 d s 0 0 i)
  | .shli d s k => some (seqWord 0x17 d s 0 0 (k.setWidth 40))
  | .shri d s k => some (seqWord 0x18 d s 0 0 (k.setWidth 40))
  | .srai d s k => some (seqWord 0x19 d s 0 0 (k.setWidth 40))
  | .li d i => some (seqWord 0x1E d 0 0 0 i)
  | .lui d s i => some (seqWord 0x1F d s 0 0 (i.setWidth 40))
  | .ceq d s t => some (seqWord 0x20 d s t 0 0)
  | .cne d s t => some (seqWord 0x21 d s t 0 0)
  | .clt d s t => some (seqWord 0x22 d s t 0 0)
  | .cltu d s t => some (seqWord 0x23 d s t 0 0)
  | .ceqi d s i => some (seqWord 0x28 d s 0 0 i)
  | .clti d s i => some (seqWord 0x29 d s 0 0 i)
  | .cltui d s i => some (seqWord 0x2A d s 0 0 i)
  | .ld8 d s i => some (seqWord 0x30 d s 0 0 i)
  | .ld16 d s i => some (seqWord 0x31 d s 0 0 i)
  | .ld32 d s i => some (seqWord 0x32 d s 0 0 i)
  | .ld64 d s i => some (seqWord 0x33 d s 0 0 i)
  | .lds8 d s i => some (seqWord 0x34 d s 0 0 i)
  | .lds16 d s i => some (seqWord 0x35 d s 0 0 i)
  | .lds32 d s i => some (seqWord 0x36 d s 0 0 i)
  | .st8 d s i => some (seqWord 0x38 d s 0 0 i)
  | .st16 d s i => some (seqWord 0x39 d s 0 0 i)
  | .st32 d s i => some (seqWord 0x3A d s 0 0 i)
  | .st64 d s i => some (seqWord 0x3B d s 0 0 i)
  | .nset n s => some (seqWord 0x40 (xField n) s 0 0 0)
  | .nget d n => some (seqWord 0x41 d (xField n) 0 0 0)
  | .patLd m s i => some (seqWord 0x48 (mField m) s 0 0 i)
  | .patSt m s i => some (seqWord 0x49 (mField m) s 0 0 i)
  | .patBase m s => some (seqWord 0x4A (mField m) s 0 0 0)
  | .beq s t i => some (seqWord 0x50 0 s t 0 i)
  | .bne s t i => some (seqWord 0x51 0 s t 0 i)
  | .blt s t i => some (seqWord 0x52 0 s t 0 i)
  | .bge s t i => some (seqWord 0x53 0 s t 0 i)
  | .bltu s t i => some (seqWord 0x54 0 s t 0 i)
  | .bgeu s t i => some (seqWord 0x55 0 s t 0 i)
  | .jal d i => some (seqWord 0x56 d 0 0 0 i)
  | .jalr d s i => some (seqWord 0x57 d s 0 0 i)
  | .cfgLoad i => some (seqWord 0x60 0 0 0 0 (i.setWidth 40))
  | .cfgRun i => some (seqWord 0x61 0 0 0 0 (i.setWidth 40))
  | .cfgWait => some (seqWord 0x62 0 0 0 0 0)
  | .cfgCall i s => some (seqWord 0x63 0 s 0 0 (i.setWidth 40))
  | .cfgRet s => some (seqWord 0x64 0 s 0 0 0)
  | .cfgPreload i p => some (seqWord 0x65 0 0 0 (xField p) (i.setWidth 40))
  | .pswap p => some (seqWord 0x66 0 0 0 (xField p) 0)
  | .cfgDrain d => some (seqWord 0x67 d 0 0 0 0)
  | .cfgStop => some (seqWord 0x68 0 0 0 0 0)
  | .strmIn p m rt c dl => some (seqWord 0x70 0 (mField m) 0 (xField p) (strmImm rt c dl))
  | .strmOut p m rt c dl => some (seqWord 0x71 0 (mField m) 0 (xField p) (strmImm rt c dl))
  | .strmGath p m t rt c dl => some (seqWord 0x72 0 (mField m) t (xField p) (strmImm rt c dl))
  | .strmScat p m t rt c dl => some (seqWord 0x73 0 (mField m) t (xField p) (strmImm rt c dl))
  | .strmFill p d s t dl => some (seqWord 0x74 d s t (xField p) (strmImm 0 0 dl))
  | .strmCopy p d s t dl => some (seqWord 0x75 d s t (xField p) (strmImm 0 0 dl))
  | .strmKvc p d s t mk => some (seqWord 0x76 d s t (xField p) (if mk then 1 else 0))
  | .strmXch p d s t fl => some (seqWord 0x77 d s t (xField p) (fl.setWidth 40))
  | .sbar s t => some (seqWord 0x78 0 s t 0 0)
  | .qfence st => some (seqWord 0x79 0 0 0 0 st)
  | .qfenceR s => some (seqWord 0x79 0 s 0 1 0)
  | .fenceSl => some (seqWord 0x7A 0 0 0 0 0)
  | .fenceRel sc => some (seqWord 0x7B 0 0 0 (xField sc) 0)
  | .fenceAcq sc => some (seqWord 0x7C 0 0 0 (xField sc) 0)
  | .lclkRd d => some (seqWord 0x7D d 0 0 0 0)
  | .lclkAdv s => some (seqWord 0x7E 0 s 0 0 0)
  | .depNew d k => some (seqWord 0x80 d 0 0 0 (k.setWidth 40))
  | .depEdge s t => some (seqWord 0x81 0 s t 0 0)
  | .depArm s => some (seqWord 0x82 0 s 0 0 0)
  | .depWait s => some (seqWord 0x83 0 s 0 0 0)
  | .qRsv d s => some (seqWord 0x84 d s 0 0 0)
  | .qAdd s sc => some (seqWord 0x85 0 s 0 (xField sc) 0)
  | .qTake d s t => some (seqWord 0x86 d s t 0 0)
  | .phReg s md => some (seqWord 0x88 0 s 0 (xField md) 0)
  | .phDrop s => some (seqWord 0x89 0 s 0 0 0)
  | .phSig s sc => some (seqWord 0x8A 0 s 0 (xField sc) 0)
  | .phWait d s t => some (seqWord 0x8B d s t 0 0)
  | .phSw d s t sc => some (seqWord 0x8C d s t (xField sc) 0)
  | .phErr s t => some (seqWord 0x8D 0 s t 0 0)
  | .phRead s t => some (seqWord 0x8E 0 s t 0 0)
  | .atom c d s t x sc => some (seqWord 0x90 d s t x ((0 : BitVec 30) ++ sc ++ c))
  | .nop => some (seqWord 0xF0 0 0 0 0 0)
  | .yield => some (seqWord 0xF1 0 0 0 0 0)
  | .trap c => some (seqWord 0xF2 0 0 0 0 (c.setWidth 40))
  | .evt l => some (seqWord 0xF3 0 0 0 0 (l.setWidth 40))
  | .srr d n => some (seqWord 0xF4 d 0 0 0 (n.setWidth 40))
  | .srw s n => some (seqWord 0xF5 0 s 0 0 (n.setWidth 40))
  | _ => none

/-- The code of an integer format (R26). -/
def IFmt.code : IFmt → BitVec 3
  | .i64 => 0 | .i32x2 => 1

/-- The code of a floating format (R26). -/
def FFmt.code : FFmt → BitVec 3
  | .f32x2 => 2 | .f16x4 => 3 | .b16x4 => 4

/-- The code of a conversion format (R26). -/
def CFmt.code : CFmt → BitVec 3
  | .f32x2 => 2 | .f16x4 => 3 | .b16x4 => 4 | .e4x8 => 5 | .e5x8 => 6

/-- The code of a dot-product format (R26). -/
def DFmt.code : DFmt → BitVec 3
  | .i64 => 0 | .i32x2 => 1 | .f32x2 => 2 | .f16x4 => 3 | .b16x4 => 4 | .e4x8 => 5 | .e5x8 => 6

/-- The ext code of an integer op (R36). -/
def IExt.code : IExt → BitVec 2
  | .wrap => 0 | .sat => 1 | .satu => 2

/-- The ext code of a rounding (R36). -/
def HRnd.code : HRnd → BitVec 2
  | .rne => 0 | .rtz => 1 | .rdn => 2 | .rup => 3

/-- An operand field (R33). -/
def Opnd.code : Opnd → BitVec 6
  | .reg i => (0 : BitVec 2) ++ i
  | .chan pk i => (1 : BitVec 1) ++ BitVec.ofBool pk ++ i

/-- A word of format H3 (R35). -/
def h3Word (op : BitVec 7) (d : BitVec 3) (a b : BitVec 6) (f : BitVec 3) (g : BitVec 4) (e : BitVec 2) : BitVec 32 :=
  op ++ ((0 : BitVec 1) ++ d) ++ a ++ b ++ f ++ g ++ e

/-- A word of format HI or HM (R35). -/
def hiWord (op : BitVec 7) (d : BitVec 3) (a : BitVec 6) (i : BitVec 11) (g : BitVec 4) : BitVec 32 :=
  op ++ ((0 : BitVec 1) ++ d) ++ a ++ i ++ g

/-- A word of format HE (R35). -/
def heWord (op : BitVec 7) (a d0 d1 : BitVec 6) (tg : BitVec 3) (g : BitVec 4) : BitVec 32 := op ++ a ++ d0 ++ d1 ++ tg ++ g

/-- A word of format HX (R35). -/
def hxWord (kind keep : BitVec 3) (g : BitVec 4) : BitVec 32 := (0x6B : BitVec 7) ++ kind ++ keep ++ (0 : BitVec 15) ++ g

/-- The words of a handler instruction (R33-R38): the instruction word, and its literal word (zero where there is none). -/
def encodeHandler : Instr → Option (BitVec 32 × BitVec 32)
  | .hAdd d a b f g e => some (h3Word 1 d a.code b.code f.code g e.code, 0)
  | .hSub d a b f g e => some (h3Word 2 d a.code b.code f.code g e.code, 0)
  | .hMul d a b f g e => some (h3Word 3 d a.code b.code f.code g e.code, 0)
  | .hMulh d a b f g => some (h3Word 4 d a.code b.code f.code g 0, 0)
  | .hMulhu d a b f g => some (h3Word 5 d a.code b.code f.code g 0, 0)
  | .hMin d a b f g => some (h3Word 6 d a.code b.code f.code g 0, 0)
  | .hMax d a b f g => some (h3Word 7 d a.code b.code f.code g 0, 0)
  | .hMinu d a b f g => some (h3Word 8 d a.code b.code f.code g 0, 0)
  | .hMaxu d a b f g => some (h3Word 9 d a.code b.code f.code g 0, 0)
  | .hAbs d a f g e => some (h3Word 10 d a.code zField f.code g e.code, 0)
  | .hNeg d a f g e => some (h3Word 11 d a.code zField f.code g e.code, 0)
  | .hPopc d a f g => some (h3Word 12 d a.code zField f.code g 0, 0)
  | .hClz d a f g => some (h3Word 13 d a.code zField f.code g 0, 0)
  | .hCtz d a f g => some (h3Word 14 d a.code zField f.code g 0, 0)
  | .hAnd d a b f g => some (h3Word 16 d a.code b.code f.code g 0, 0)
  | .hOr d a b f g => some (h3Word 17 d a.code b.code f.code g 0, 0)
  | .hXor d a b f g => some (h3Word 18 d a.code b.code f.code g 0, 0)
  | .hAndn d a b f g => some (h3Word 19 d a.code b.code f.code g 0, 0)
  | .hShl d a b f g => some (h3Word 20 d a.code b.code f.code g 0, 0)
  | .hShr d a b f g => some (h3Word 21 d a.code b.code f.code g 0, 0)
  | .hSra d a b f g => some (h3Word 22 d a.code b.code f.code g 0, 0)
  | .hCeq d a b f g => some (h3Word 24 d a.code b.code f.code g 0, 0)
  | .hCne d a b f g => some (h3Word 25 d a.code b.code f.code g 0, 0)
  | .hClt d a b f g => some (h3Word 26 d a.code b.code f.code g 0, 0)
  | .hCltu d a b f g => some (h3Word 27 d a.code b.code f.code g 0, 0)
  | .hCle d a b f g => some (h3Word 28 d a.code b.code f.code g 0, 0)
  | .hCleu d a b f g => some (h3Word 29 d a.code b.code f.code g 0, 0)
  | .hAddi d a i g => some (hiWord 32 d a.code i g, 0)
  | .hAndi d a i g => some (hiWord 33 d a.code i g, 0)
  | .hOri d a i g => some (hiWord 34 d a.code i g, 0)
  | .hXori d a i g => some (hiWord 35 d a.code i g, 0)
  | .hShli d a k g => some (hiWord 36 d a.code (k.setWidth 11) g, 0)
  | .hShri d a k g => some (hiWord 37 d a.code (k.setWidth 11) g, 0)
  | .hSrai d a k g => some (hiWord 38 d a.code (k.setWidth 11) g, 0)
  | .hCeqi d a i g => some (hiWord 39 d a.code i g, 0)
  | .hClti d a i g => some (hiWord 40 d a.code i g, 0)
  | .hCltui d a i g => some (hiWord 41 d a.code i g, 0)
  | .hBfx d a p l g => some (hiWord 42 d a.code (p ++ l) g, 0)
  | .hBfxu d a p l g => some (hiWord 43 d a.code (p ++ l) g, 0)
  | .hBfi d a p l g => some (hiWord 44 d a.code (p ++ l) g, 0)
  | .hLit d g v => some (hiWord 48 d zField 0 g, v)
  | .hLith d g v => some (hiWord 49 d zField 0 g, v)
  | .hAddl d a g v => some (hiWord 0x32 d a.code 0 g, v)
  | .hSync d a b g rp f sc c => some (hiWord 0x33 d a.code (b.code ++ (0 : BitVec 5)) g, (0 : BitVec 13) ++ rp ++ f ++ sc ++ c)
  | .hFadd d a b f g e => some (h3Word 56 d a.code b.code f.code g e.code, 0)
  | .hFsub d a b f g e => some (h3Word 57 d a.code b.code f.code g e.code, 0)
  | .hFmul d a b f g e => some (h3Word 58 d a.code b.code f.code g e.code, 0)
  | .hFma d a b f g e => some (h3Word 59 d a.code b.code f.code g e.code, 0)
  | .hFmin d a b f g e => some (h3Word 60 d a.code b.code f.code g e.code, 0)
  | .hFmax d a b f g e => some (h3Word 61 d a.code b.code f.code g e.code, 0)
  | .hFabs d a f g => some (h3Word 62 d a.code zField f.code g 0, 0)
  | .hFneg d a f g => some (h3Word 63 d a.code zField f.code g 0, 0)
  | .hFceq d a b f g => some (h3Word 64 d a.code b.code f.code g 0, 0)
  | .hFclt d a b f g => some (h3Word 65 d a.code b.code f.code g 0, 0)
  | .hFcle d a b f g => some (h3Word 66 d a.code b.code f.code g 0, 0)
  | .hFcvt d a t f g e => some (h3Word 0x43 d a.code ((0 : BitVec 3) ++ t.code) f.code g e.code, 0)
  | .hFrcp d a f g e => some (h3Word 68 d a.code zField f.code g e.code, 0)
  | .hFsqrt d a f g e => some (h3Word 69 d a.code zField f.code g e.code, 0)
  | .hFexp2 d a f g e => some (h3Word 70 d a.code zField f.code g e.code, 0)
  | .hIcvtf d a f g e => some (h3Word 71 d a.code zField f.code g e.code, 0)
  | .hFcvti d a f g e => some (h3Word 72 d a.code zField f.code g e.code, 0)
  | .hFdot d a b f g e => some (h3Word 0x49 d a.code b.code f.code g e.code, 0)
  | .hLdl8 d a i g => some (hiWord 80 d a.code i g, 0)
  | .hLdl16 d a i g => some (hiWord 81 d a.code i g, 0)
  | .hLdl32 d a i g => some (hiWord 82 d a.code i g, 0)
  | .hLdl64 d a i g => some (hiWord 83 d a.code i g, 0)
  | .hStl8 d a i g => some (hiWord 84 d a.code i g, 0)
  | .hStl16 d a i g => some (hiWord 85 d a.code i g, 0)
  | .hStl32 d a i g => some (hiWord 86 d a.code i g, 0)
  | .hStl64 d a i g => some (hiWord 87 d a.code i g, 0)
  | .hLdg8 d a i g => some (hiWord 88 d a.code i g, 0)
  | .hLdg16 d a i g => some (hiWord 89 d a.code i g, 0)
  | .hLdg32 d a i g => some (hiWord 90 d a.code i g, 0)
  | .hLdg64 d a i g => some (hiWord 91 d a.code i g, 0)
  | .hStg8 d a i g => some (hiWord 92 d a.code i g, 0)
  | .hStg16 d a i g => some (hiWord 93 d a.code i g, 0)
  | .hStg32 d a i g => some (hiWord 94 d a.code i g, 0)
  | .hStg64 d a i g => some (hiWord 95 d a.code i g, 0)
  | .hEmit a x y tg g => some (heWord 104 a.code x y tg g, 0)
  | .hEmitp a x y tg g => some (heWord 105 a.code x y tg g, 0)
  | .hSend a b g => some (h3Word 0x6A 0 a.code b.code 0 g 0, 0)
  | .hExitDone k g => some (hxWord 0 k g, 0)
  | .hExitDefer g => some (hxWord 1 0 g, 0)
  | .hExitFail g => some (hxWord 2 0 g, 0)
  | .hTagLvl d g => some (hiWord 0x6C d zField 0 g, 0)
  | .hTagFree g => some (hiWord 0x6C 0 zField 1 g, 0)
  | .hTagFreectx g => some (hiWord 0x6C 0 zField 2 g, 0)
  | .hTagPool d a g => some (hiWord 0x6C d a.code 3 g, 0)
  | .hTagParent d g => some (hiWord 0x6C d zField 4 g, 0)
  | .hFenceSl g => some (hiWord 0x70 0 zField 0 g, 0)
  | .hFenceRel sc g => some (hiWord 0x70 0 zField ((0 : BitVec 7) ++ sc ++ (1 : BitVec 2)) g, 0)
  | .hFenceAcq sc g => some (hiWord 0x70 0 zField ((0 : BitVec 7) ++ sc ++ (2 : BitVec 2)) g, 0)
  | .hLclk d g => some (hiWord 0x71 d zField 0 g, 0)
  | .hLclkadv a g => some (hiWord 0x72 0 a.code 0 g, 0)
  | .hBoxt8Any d a b g => some (h3Word 120 d a.code b.code 0 g 0, 0)
  | .hBoxt8Closest d a b g => some (h3Word 120 d a.code b.code 0 g 1, 0)
  | .hTritAny d a b g => some (h3Word 121 d a.code b.code 0 g 0, 0)
  | .hTritClosest d a b g => some (h3Word 121 d a.code b.code 0 g 1, 0)
  | .hTritBary d a b g => some (h3Word 121 d a.code b.code 0 g 2, 0)
  | .hDicer d a b g => some (h3Word 122 d a.code b.code 0 g 0, 0)
  | .hSamptTu d a b g => some (h3Word 123 d a.code b.code 0 g 0, 0)
  | .hSamptV d a b g => some (h3Word 123 d a.code b.code 0 g 1, 0)
  | .hMptest d a b g => some (h3Word 124 d a.code b.code 0 g 0, 0)
  | .hSeqw d a b g => some (h3Word 125 d a.code b.code 0 g 0, 0)
  | _ => none

end Sys2Proof
end

