-- ==== Sys2Proof/Machine/Access.lean ====
section
/-! DEFINITION. Reaching memory: page table entries, the walker, translation caches, the checks of R208, targets and their
bounds, loads (R215, R223) and stores (R217, R222) as an agent issues them. -/

namespace Sys2Proof.Machine

/-- What an access needs of its page (R204): `x` for the folio loader and the step fetch. -/
inductive Need where
  | r | w | rw | x
  deriving DecidableEq, Repr

/-- Where an access goes: target type, home die or port, flat address, target cell (types 3-5), the page's OF bit, and
whether a type-5 page steps beyond column 47. -/
structure Target where
  ty : BitVec 3
  home : Nat
  flat : Nat
  cell : Nat
  ordered : Bool
  beyond : Bool
  deriving DecidableEq, Repr

/-- What asking for a translation gives. A fault's number is its cause, with the level of a failed walk above eight bits (log 93). -/
inductive XOut where
  | ok (pte : Word) (size : BitVec 2) (s : State)
  | wait (s : State)
  | fault (cause : Nat)

/-- What a load gives. -/
inductive LRes where
  | val (v : Nat) (s : State)
  | wait (s : State)
  | fault (cause : Nat)

/-- What reaching a target, or putting a store into the buffer, gives. -/
inductive TRes where
  | ok (t : Target) (s : State)
  | wait (s : State)
  | fault (cause : Nat)

/-! Page table entries (R198-R203) -/

/-- A page number at a size. -/
def pageOf (va : Nat) (size : BitVec 2) : Nat := va >>> (if size = 0 then 16 else if size = 1 then 21 else 30)
/-- The bytes of a page of a size. -/
def pageBytes (size : BitVec 2) : Nat := if size = 0 then 2 ^ 16 else if size = 1 then 2 ^ 21 else 2 ^ 30
/-- The frame field of a leaf, [51:16]. -/
def pteFrame (p : Nat) : Nat := bitsOf p 51 16
/-- The home field of an entry. -/
def pteHome (p : Nat) : Nat := bitsOf p 59 56
/-- The target type of a leaf. -/
def pteType (p : Nat) : BitVec 3 := BitVec.ofNat 3 (bitsOf p 5 3)
/-- Reserved bits common to every entry. -/
def pteReserved (p : Nat) : Bool := bitsOf p 63 60 != 0 || bitsOf p 55 52 != 0

/-- A cell field of a frame: die [35:32], row [31:25], column [24:18] of the leaf. -/
def frameCell (p : Nat) : Nat := cellNo (bitsOf p 35 32) (bitsOf p 31 25) (bitsOf p 24 18)
/-- The frame names a cell that exists. -/
def frameCellOk (p : Nat) : Bool := bitsOf p 31 25 < 80 && bitsOf p 24 18 < 80
/-- The frame's die equals the home. -/
def frameDieOk (p : Nat) : Bool := bitsOf p 35 32 == pteHome p

/-- A leaf breaks one of R203's rules. -/
def leafBad (p : Nat) (size : BitVec 2) : Bool :=
  let large := (size == 1 && bitsOf p 20 16 != 0) || (size == 2 && bitsOf p 29 16 != 0)
  pteReserved p || bitsOf p 15 12 != 0 || bitOf p 1 ||
    (bitOf p 11 && pteType p != 0) ||
    match (pteType p).toNat with
    | 0 => bitsOf p 51 39 != 0 || pteHome p != bitsOf p 38 35 || large
    | 1 => decide (pteHome p > 1) || large
    | 2 => pteHome p != 0 || bitsOf p 43 39 != 0 || size == 2
    | 3 => size != 0 || !frameDieOk p || bitsOf p 51 36 != 0 || bitOf p 17 || !frameCellOk p || !isBCell (frameCell p)
    | 4 => size != 0 || !frameDieOk p || bitsOf p 51 36 != 0 || bitOf p 17 || !frameCellOk p || isBCell (frameCell p)
    | 5 => size != 0 || !frameDieOk p || !frameCellOk p || !isVCell (frameCell p)
    | 6 => size != 0 || !frameDieOk p
    | _ => size != 0 || !frameDieOk p || bitsOf p 31 16 % 16 != 0

/-- A table pointer breaks one of R203's rules; `low` is the number of zero low bits of the table it names. -/
def pointerBad (p low : Nat) : Bool :=
  pteReserved p || bitsOf p 7 3 != 0 || bitOf p 1 || bitsOf p 51 39 != 0 || pteHome p != bitsOf p 38 35 ||
    bitsOf p 51 8 * 256 % 2 ^ low != 0

/-- One level of a walk: the table's address, the index, the page size of a leaf here (none at the root), and the size in
bits of the next table (none at L0). -/
def walkLevel (m : List Host.Cell) (level table idx : Nat) (leafSize : Option (BitVec 2)) (nextLow : Option Nat) :
    Except XRes Nat :=
  let p := memRead m (gddrBase + table + 8 * idx) 8
  if !bitOf p 0 then .error (.fail 0x20 level)
  else if bitOf p 2 then
    match leafSize with
    | none => .error (.fail 0x28 level)
    | some z => .error (if leafBad p z then .fail 0x28 level else .leaf (BitVec.ofNat 64 p) z)
  else
    match nextLow with
    | none => .error (.fail 0x28 level)
    | some low => if pointerBad p low then .error (.fail 0x28 level) else .ok (bitsOf p 51 8 * 256)

/-- A walk of a 64 KiB page of a job (R198-R203, R206). Its levels are 0 for the directory, 1 for the root, and 2, 3, 4 for L2, L1, L0 (log 93). -/
def walkPage (m : List Host.Cell) (jobdir : Nat) (vmid : BitVec 16) (page : Nat) : XRes :=
  let va := page * 2 ^ 16
  let d := memRead m (gddrBase + bitsOf jobdir 51 0 + 8 * vmid.toNat) 8
  if !bitOf d 0 then .fail 0x20 0
  else if pteReserved d || bitsOf d 15 1 != 0 || bitsOf d 51 39 != 0 || pteHome d != bitsOf d 38 35 then .fail 0x28 0
  else
    let go : Except XRes Nat := do
      let l2 ← walkLevel m 1 (bitsOf d 51 16 * 2 ^ 16) (bitsOf va 55 43) none (some 16)
      let l1 ← walkLevel m 2 l2 (bitsOf va 42 30) (some 2) (some 12)
      let l0 ← walkLevel m 3 l1 (bitsOf va 29 21) (some 1) (some 8)
      walkLevel m 4 l0 (bitsOf va 20 16) (some 0) none
    match go with
    | .error x => x
    | .ok _ => .fail 0x28 4

/-- The address of the leaf that maps a page, for a migration (R210). -/
def leafAddr (m : List Host.Cell) (jobdir : Nat) (vmid : BitVec 16) (page : Nat) : Nat :=
  let va := page * 2 ^ 16
  let d := memRead m (gddrBase + bitsOf jobdir 51 0 + 8 * vmid.toNat) 8
  let a0 := bitsOf d 51 16 * 2 ^ 16 + 8 * bitsOf va 55 43
  let a1 := bitsOf (memRead m (gddrBase + a0) 8) 51 8 * 256 + 8 * bitsOf va 42 30
  let p1 := memRead m (gddrBase + a1) 8
  if bitOf p1 2 then a1
  else
    let a2 := bitsOf p1 51 8 * 256 + 8 * bitsOf va 29 21
    let p2 := memRead m (gddrBase + a2) 8
    if bitOf p2 2 then a2 else bitsOf p2 51 8 * 256 + 8 * bitsOf va 20 16

/-- The target of an access through a leaf (R202). -/
def leafTarget (pte : Word) (size : BitVec 2) (va : Nat) : Target :=
  let p := pte.toNat
  let off := va % pageBytes size
  let addr := pteFrame p * 2 ^ 16 + off
  let of := bitOf p 10
  let home := pteHome p
  let at64 := bitsOf p 16 16 * 2 ^ 16 + off
  match (pteType p).toNat with
  | 0 => ⟨0, bitsOf addr 38 35, gddrBase + addr, 0, of, false⟩
  | 1 => ⟨1, home, hostBase home + addr, 0, of, false⟩
  | 2 => ⟨2, bitsOf p 51 44, peerBase (bitsOf p 51 44) + bitsOf p 38 16 * 2 ^ 16 + off, 0, of, false⟩
  | 3 => ⟨3, home, cellBase (frameCell p) + at64, frameCell p, of, false⟩
  | 4 => ⟨4, home, cellBase (frameCell p) + at64, frameCell p, of, false⟩
  | 5 =>
    let c := frameCell p + 2 * bitsOf off 15 13
    ⟨5, home, windowBase c + bitsOf p 17 16 * 8192 + off % 8192, c, of, decide (cellCol (frameCell p) + 2 * bitsOf off 15 13 > 47)⟩
  | 6 => ⟨6, home, syncBase home + bitsOf p 31 16 * 2 ^ 16 + off, 0, of, false⟩
  | _ => ⟨7, home, regBase home (bitsOf p 31 16 + bitsOf off 15 12) + off % 4096, 0, of, false⟩

/-- The page gives what the access needs (R204). -/
def permOk (n : Need) (pte : Word) : Bool :=
  match n with
  | .r => bitOf pte.toNat 6
  | .w => bitOf pte.toNat 7
  | .rw => bitOf pte.toNat 6 && bitOf pte.toNat 7
  | .x => bitOf pte.toNat 8

/-! Translation caches and the walker (R205, R206) -/

/-- The translation cache's entry for an address. -/
def tlbFind (t : Tile) (vmid : BitVec 16) (va : Nat) : Option TlbEnt :=
  t.tlb.find? fun e => e.vmid == vmid && e.page == pageOf va e.size

/-- Makes an entry the most recently used; the least recently used of 64 is replaced (R205). -/
def tlbUse (t : Tile) (e : TlbEnt) : Tile :=
  { t with tlb := (e :: t.tlb.filter fun x => !(x.vmid == e.vmid && x.page == e.page && x.size == e.size)).take 64 }

/-- An accessor joins the walk of its page (R206). -/
def State.askWalk (s : State) (a : Nat) (vmid : BitVec 16) (page : Nat) : State :=
  s.modDie (tileDie (agentTile a)) fun d =>
    match findIdxFrom (fun w : Walk => w.vmid == vmid && w.page == page) d.walks 0 with
    | some i =>
      let w := d.walks.getD i ⟨0, 0, [], false⟩
      { d with walks := listSet d.walks i { w with waiters := if w.waiters.contains a then w.waiters else w.waiters ++ [a] } }
    | none => { d with walks := d.walks ++ [⟨vmid, page, [a], false⟩] }

/-- The key of a walk's result in an accessor's load state. -/
def walkKey (vmid : BitVec 16) (page : Nat) : Nat := vmid.toNat * 2 ^ 40 + page

/-- A failed walk's fault: its cause, and its level above eight bits (R208). -/
def walkCause (cause : BitVec 8) (level : Nat) : Nat := cause.toNat + 256 * level

/-- Asks for a translation: a walk result kept for this access, the translation cache, or a walk. -/
def State.translate (s : State) (a : Nat) (vmid : BitVec 16) (va : Nat) : XOut :=
  match smFind (s.ldOf a).walks (walkKey vmid (va >>> 16)) with
  | some (.leaf pte size) => .ok pte size s
  | some (.fail cause level) => .fault (walkCause cause level)
  | none =>
    match tlbFind (s.getTile (agentTile a)) vmid va with
    | some e => .ok e.pte e.size (s.modTile (agentTile a) fun t => tlbUse t e)
    | none => .wait (s.askWalk a vmid (va >>> 16))

/-! Targets' own bounds (R108, R110, R114-R117, R208) -/

/-- The mode word of a B-cell in force. -/
def State.bMode (s : State) (c : Nat) : Nat := (s.cp c).mode.toNat
/-- The mode of a mode word (R45). -/
def bmMode (m : Nat) : Nat := bitsOf m 63 60
/-- The first byte of a mode word's region. -/
def bmBase (m : Nat) : Nat := 64 * bitsOf m 23 12
/-- The length of a mode word's region in bytes. -/
def bmLen (m : Nat) : Nat := 64 * bitsOf m 11 0

/-- The word of a RAM region that a region word maps to (R115). -/
def bankMap (m w : Nat) : Nat :=
  let rowlen := bitsOf m 47 36
  let row := w / rowlen
  match bitsOf m 59 58 with
  | 1 => w + bitsOf m 55 48 * row
  | 2 => w / 16 * 16 + (w % 16 ^^^ row % 16)
  | _ => w

/-- The byte of B-cell memory that an offset reaches, none outside the RAM region or beyond its end (R115, R208). -/
def bMap (m off : Nat) : Option Nat :=
  if bmMode m = 1 && decide (bmBase m ≤ off) && decide (off < bmBase m + bmLen m) then
    let w := bankMap m ((off - bmBase m) / 4)
    if 4 * w < bmLen m then some (bmBase m + 4 * w + off % 4) else none
  else none

/-- Granules carved above a V-cell (R108). -/
def State.carved (s : State) (c : Nat) : Nat :=
  bitsOf (s.getTile (cellTile c)).spr.carve.toNat (3 * (cellRow c % 8) + 2) (3 * (cellRow c % 8))

/-- The target's own bounds (R208 item 6); memory of an excluded die answers no access (R353). -/
def State.boundFault (s : State) (t : Target) (n : Nat) (write : Bool) : Option Nat :=
  if t.ty ≠ 1 && t.ty ≠ 2 && (s.getDie t.home).excluded then some 0xF7
  else match t.ty.toNat with
  | 3 =>
    let m := s.bMode t.cell
    let off := t.flat - cellBase t.cell
    if (upFrom (off / 4) ((off % 4 + n + 3) / 4)).all (fun w => (bMap m (4 * w)).isSome) then none else some 0x27
  | 4 =>
    let off := t.flat - cellBase t.cell
    if off + n > 0x18000 then some 0x26
    else if write && isTCell t.cell && decide (off < 0x4000) then some 0x26 else none
  | 5 => if t.beyond || decide ((t.flat - windowBase t.cell) / 8192 ≥ s.carved t.cell) then some 0x25 else none
  | _ => none

/-- The type check of plain accesses: sync space is refused (R60). -/
def plainType (ty : BitVec 3) : Option Nat := if ty = 6 then some 0x23 else none
/-- No type check before the bounds. -/
def anyType (_ : BitVec 3) : Option Nat := none
/-- The type check of Granary and phaser addresses (R79). -/
def syncType (ty : BitVec 3) : Option Nat := if ty = 6 then none else some 0x21
/-- The type check of atomics (R159, R242). -/
def atomType (ty : BitVec 3) : Option Nat := if ty = 0 then none else if ty = 6 then some 0x23 else some 0x21

/-- The checks of R208, in its order, for an access of `n` bytes that must be `align`-aligned. `types` is the instruction's check
of the target type. -/
def State.reach (s : State) (a : Nat) (vmid : BitVec 16) (va n align : Nat) (need : Need) (types : BitVec 3 → Option Nat) : TRes :=
  if va ≥ 2 ^ 56 then .fault 0x29
  else if va % align ≠ 0 then .fault 0x22
  else
    match s.translate a vmid va with
    | .wait s => .wait s
    | .fault c => .fault c
    | .ok pte size s =>
      if !permOk need pte then .fault 0x21
      else
        let t := leafTarget pte size va
        match types t.ty, s.boundFault t n (need == .w || need == .rw) with
        | some c, _ => .fault c
        | none, some c => .fault c
        | none, none => .ok t s

/-! Direct memory (R115, R116, R223) -/

/-- The plane-private lane register of a V-cell that an address of target type 4 reaches, and its byte there (R90). -/
def laneAt (ty : BitVec 3) (a : Nat) : Option (Nat × Nat × Nat) :=
  let c := (a - cellBase 0) / 2 ^ 17
  let off := (a - cellBase 0) % 2 ^ 17
  if ty = 4 && isVCell c && decide (0xC00 ≤ off) && decide (off < 0x1000) then some (c, off / 64, off % 64) else none

/-- Where a byte of a direct target lies in memory: a B-cell maps each word (R115). -/
def State.directAt (s : State) (ty : BitVec 3) (flat : Nat) : Nat :=
  let c := (flat - cellBase 0) / 2 ^ 17
  if ty = 3 then cellBase c + (bMap (s.bMode c) (flat - cellBase c)).getD (flat - cellBase c) else flat

/-- Reads a byte at a direct target. -/
def State.directByte (s : State) (ty : BitVec 3) (flat : Nat) : Byte :=
  match laneAt ty flat with
  | some (c, r, i) => lineByte (smGet 0 (s.cp c).lregs r) i
  | none => memByte s.mem (s.directAt ty flat)

/-- Writes a byte at a direct target. -/
def State.directPut (s : State) (ty : BitVec 3) (flat : Nat) (v : Byte) : State :=
  match laneAt ty flat with
  | some (c, r, i) => s.modCp c fun p => { p with lregs := smPut p.lregs r (lineMerge (smGet 0 p.lregs r) i 1 v.toNat) }
  | none => { s with mem := memPut s.mem (s.directAt ty flat) v }

/-- Reads `n` bytes at a direct target. -/
def State.directRead (s : State) (ty : BitVec 3) (flat : Nat) : Nat → Nat
  | 0 => 0
  | n + 1 =>
    (s.directByte ty flat).toNat + 256 * s.directRead ty (flat + 1) n

/-- Writes `n` bytes at a direct target. -/
def State.directWrite (s : State) (ty : BitVec 3) (flat : Nat) : Nat → Nat → State
  | 0, _ => s
  | n + 1, v =>
    State.directWrite (s.directPut ty flat (BitVec.ofNat 8 v)) ty (flat + 1) n (v / 256)

/-! Loads -/

/-- A store of the buffer covers a byte of [flat, flat + n). -/
def StoreEnt.touches (e : StoreEnt) (flat n : Nat) : Bool := decide (e.flat < flat + n) && decide (flat < e.flat + e.n)

/-- A line with an agent's buffered stores laid over it (R59, R222). -/
def overlay (b : List StoreEnt) (line : Nat) (l : BitVec 512) : BitVec 512 :=
  b.foldl (fun l e => if e.ty = 0 && e.flat / 64 * 64 == line then lineMerge l (e.flat - line) e.n e.data.toNat else l) l

/-- A sector of [flat, flat + n) is dirty: a store of an agent of the tile to it has left its buffer's head and not been
answered (R217). -/
def State.dirty (s : State) (t flat n : Nat) : Bool :=
  let lo := flat / 16 * 16
  let hi := (flat + n + 15) / 16 * 16
  let hit (b : List StoreEnt) : Bool := b.any fun e => e.sent && e.ty == 0 && e.touches lo (hi - lo)
  hit (s.getTile t).sbuf || s.cells.any fun c => cellTile c.1 == t && hit c.2.sbuf

/-- Sends a message and marks the agent's load as waiting for its reply. -/
def State.request (s : State) (a owner die : Nat) (k : MsgKind) : State :=
  (s.sendFrom a owner die k).modLd a fun l => { l with waiting := true }

/-- A hit counts toward the repetition rule (R230). -/
def State.countHit (s : State) (a line : Nat) (rts : BitVec 32) : State :=
  let sp := s.spinOf a
  let n := if sp.line == line then sp.count + 1 else 1
  let lim := (s.getTile (agentTile a)).spr.spinN.toNat
  if lim != 4095 && decide (n ≥ lim) then s.setSpin a ⟨line, 0, some (rts.toNat + 1)⟩ else s.setSpin a ⟨line, n, none⟩

/-- A load of `n` bytes at a type-0 target (R215), within one line. -/
def State.loadLine (s : State) (a owner flat n : Nat) : LRes :=
  let t := agentTile a
  let line := flat / 64 * 64
  let fin (l : BitVec 512) (s : State) : LRes := .val (lineBytes (overlay (s.sbufOf a) line l) (flat - line) n) s
  match smFind (s.ldOf a).lines line with
  | some l => fin l s
  | none =>
    if s.rebasing || s.dirty t flat n || (s.ldOf a).waiting then .wait s
    else
      let tl := s.getTile t
      let clk := tl.spr.lclk.toNat
      let req (w : Option (BitVec 32)) : LRes :=
        .wait ((s.request a owner (bitsOf line 38 35) (.loadReq line w (clk + tl.spr.lease.toNat))).setSpin a ⟨line, 0, none⟩)
      match smFind tl.lines line with
      | some l =>
        if l.wts.toNat ≤ clk && clk ≤ l.rts.toNat then fin l.data ((s.countHit a line l.rts).modLd a fun x => { x with lines := smPut x.lines line l.data }) else req (some l.wts)
      | none => req none

/-- The place at which direct and flow accesses of one agent keep program order: the cell, whether its memory, its window or its
registers are reached (R223), the tile or die control block, or the flow's port or peer (R224). -/
def orderPlace (ty : BitVec 3) (home flat : Nat) : Nat :=
  match ty.toNat with
  | 3 | 4 => (flat - cellBase 0) / 2 ^ 17
  | 5 => (flat - windowBase 0) / 2 ^ 15
  | 7 =>
    let b := (flat - regBase 0 0) / 2 ^ 12
    if b % 2 ^ 16 < 6400 then b / 2 ^ 16 * 6400 + b % 2 ^ 16 else 2 ^ 32 + b
  | t => 2 ^ 40 * (t + 1) + home

/-- A byte as the newest buffered store that holds it gives it (R59, R154). -/
def bufByte (b : List StoreEnt) (ty : BitVec 3) (a : Nat) : Option Nat :=
  (b.reverse.find? fun e => e.ty == ty && e.touches a 1).map fun e => e.data.toNat / 2 ^ (8 * (a - e.flat)) % 256

/-- The value of `n` bytes that buffered stores hold whole. -/
def bufVal (b : List StoreEnt) (ty : BitVec 3) (a : Nat) : Nat → Option Nat
  | 0 => some 0
  | n + 1 => match bufByte b ty a, bufVal b ty (a + 1) n with
    | some x, some r => some (x + 256 * r)
    | _, _ => none

/-- A load of `n` bytes at a direct target or on a flow (R223, R224): bytes that the agent's buffered stores hold are read there (R59,
R154); otherwise it follows the buffered stores to the same target and overtakes the others (log 125). -/
def State.loadDirect (s : State) (a owner : Nat) (t : Target) (n : Nat) : LRes :=
  match smFind (s.ldOf a).lines t.flat, bufVal (s.sbufOf a) t.ty t.flat n with
  | some l, _ => .val (lineBytes l 0 n) s
  | none, some v => .val v s
  | none, none =>
    if (s.ldOf a).waiting ||
        (s.sbufOf a).any (fun e => orderPlace e.ty e.home e.flat == orderPlace t.ty t.home t.flat) then .wait s
    else .wait (s.request a owner (if t.ty.toNat ≤ 2 then tileDie (agentTile a) else t.home) (.access t.ty t.home t.flat n false 0))

/-- A load as an agent issues it. -/
def State.load (s : State) (a owner : Nat) (vmid : BitVec 16) (va n : Nat) : LRes :=
  match s.reach a vmid va n n .r plainType with
  | .fault c => .fault c
  | .wait s => .wait s
  | .ok t s => if t.ty = 0 then s.loadLine a owner t.flat n else s.loadDirect a owner t n

/-! Stores -/

/-- The depth of an agent's store buffer (R57, R142). -/
def sbufDepth (a : Nat) : Nat := if agentIsSeq a then 8 else 4

/-- Puts a store into an agent's store buffer (R57). -/
def State.putStore (s : State) (a owner va : Nat) (t : Target) (n v : Nat) : State :=
  s.setSbuf a (s.sbufOf a ++ [⟨va, t.flat, t.ty, t.home, n, BitVec.ofNat 512 v, owner, 0, false⟩])

end Sys2Proof.Machine
end

