-- ==== Sys2Proof/Machine/Fetch.lean ====
section
/-! DEFINITION. Which agent may act, and fetching: the step word at a lead sequencer's SPC (R52, R53), the handler word of a
running block (R139), what a word that is no instruction does (R50), and where `State.withFetchWord` puts one. -/

namespace Sys2Proof.Machine

/-- An instruction of a step program or of a handler; the others are events. -/
def isProgram (i : Instr) : Bool := (encodeSeq i).isSome || (encodeHandler i).isSome

/-- The cause of a word that is no instruction (R50). -/
def errCause : DecodeErr → Nat
  | .illegal => 0x01
  | .reservedField => 0x02
  | .badDest => 0x03

/-- A wait that is a progress point (R174). -/
def Wait.progress : Wait → Bool
  | .reply p _ => p
  | .poll p => p

/-- A tile waits at a progress point. -/
def Tile.atProgress (t : Tile) : Bool := match t.wait with | some w => w.progress | none => false

/-- The sequencer of a tile may issue a step: it is the lead of a running unit, owes no reply, has no repetition due (R230),
and is not at a progress point with a pre-emption pending (R174, R330). -/
def State.seqReady (s : State) (t : Nat) : Bool :=
  let tl := s.getTile t
  match tl.owner with
  | none => false
  | some u =>
    match s.launch? u with
    | none => false
    | some l =>
      l.region.head? == some t && !l.frozen && tl.spin.due.isNone &&
        (match tl.wait with | some (.reply _ _) => false | _ => true) &&
        (l.st == .running || (l.st == .pending && !tl.atProgress))

/-- The region of a launch lets its stages, slots and blocks go on: it is not held (R169), not frozen by a service unit, and no
plane change has passed its freeze point (`callStage`, R310, R311, R317). -/
def Launch.goes (l : Launch) : Bool :=
  !l.held && !l.frozen && (l.callStage ≤ 1 || l.callStage == 11 || l.callStage ≥ 100) && (l.st == .running || l.st == .pending || l.st == .stopping || l.st == .ending)

/-- The region that holds a cell goes on. -/
def State.cellGoes (s : State) (c : Nat) : Bool :=
  match s.owner? (cellTile c) with
  | some u => (match s.launch? u with | some l => l.goes | none => false)
  | none => false

/-- The sources of the region that holds a cell go on: no freeze point is awaited (R310). -/
def State.cellFeeds (s : State) (c : Nat) : Bool :=
  match s.owner? (cellTile c) with
  | some u => (match s.launch? u with | some l => l.goes && (l.callStage == 0 || l.callStage ≥ 100) | none => false)
  | none => false

/-- The stages of the region that holds a cell fire: its sources go on, and no stream that fed its run has faulted (R107, R310). -/
def State.cellFires (s : State) (c : Nat) : Bool :=
  s.cellFeeds c && match (s.owner? (cellTile c)).bind s.launch? with | some l => !l.halted | none => false

/-- A cell's block may issue its next word. -/
def State.handlerReady (s : State) (c : Nat) : Bool :=
  let cl := s.getCell c
  s.cellFeeds c && cl.spin.due.isNone &&
    match cl.block with
    | some b => b.exiting.isNone && !b.committing
    | none => false

/-- The step word at the SPC of the acting sequencer (R52); none beyond the step program. -/
def State.stepWord (s : State) : Option (BitVec 64) :=
  match s.unit? with
  | none => none
  | some l =>
    match s.folios[l.folio]? with
    | none => none
    | some f => f.steps[s.cur.spc.toNat / 8]?

/-- The VA of the step at the acting sequencer's SPC (log 1). -/
def State.stepVa (s : State) : Nat :=
  (match s.unit? with | some l => (match s.folios[l.folio]? with | some f => f.stepsAt | none => 0) | none => 0) + s.cur.spc.toNat

/-- The fetch of a step needs a page with X (R204); a service folio stands at a physical address, which needs none (R336). -/
def State.fetchStep (s : State) : TRes :=
  match s.unit? with
  | none => .ok ⟨0, 0, 0, 0, false, false⟩ s
  | some l => if l.service then .ok ⟨0, 0, 0, 0, false, false⟩ s else s.reach (seqAgent s.tile) l.vmid s.stepVa 8 1 .x anyType

/-- A code word of a cell (R117). -/
def State.codeWord (s : State) (c n : Nat) : BitVec 32 := BitVec.ofNat 32 (memRead s.mem (cellBase c + 4 * n) 4)

/-- The word and literal of a handler instruction, and how many words it takes; none at the block's 65th word or beyond the
loaded code (R139). -/
def State.handlerWord (s : State) (c : Nat) (b : Block) : Option (BitVec 32 × BitVec 32) :=
  let len := (s.getCell c).codeLen
  if b.issued ≥ 64 || b.pc ≥ len then none else some (s.codeWord c b.pc, s.codeWord c (b.pc + 1))

/-- An instruction that a literal word follows (R149, R159). -/
def hasLiteral : Instr → Bool
  | .hLit _ _ _ | .hLith _ _ _ | .hAddl _ _ _ _ | .hSync _ _ _ _ _ _ _ _ => true
  | _ => false

/-- The literal of an instruction lies within the block and the loaded code. -/
def State.literalOk (s : State) (c : Nat) (b : Block) (i : Instr) : Bool :=
  !hasLiteral i || (decide (b.issued + 1 < 64) && decide (b.pc + 1 < (s.getCell c).codeLen))

/-- The state a step of the model hands on: who acts next is chosen by `Config.nextNow` (log 2). -/
def advance : Out → Out
  | .next s => .next { s with now := Config.nextNow s.tick, tick := s.tick + 1 }
  | o => o

/-- A folio that holds one step word. -/
def oneStep (w : BitVec 64) : Folio := { (default : Folio) with steps := [w] }

/-- A running launch on one tile. -/
def oneTile (t folio : Nat) : Launch := { Launch.blank with st := .running, region := [t], folio := folio, die := tileDie t }

/-- A block at word 0 with no inputs. -/
def Block.blank : Block :=
  { slot := 0, pc := 0, issued := 0, ctx := 0, iter := 0, lvl := 0, l := ⟨0, 0⟩, r := ⟨0, 0⟩, laux := 0, raux := 0, p := false,
    t := Vector.replicate 8 ⟨0, 0⟩, lstores := [], gstores := [], emits := [], syncs := [], pops := [], lclkAdv := 0,
    freeTag := false, freeCtx := false, fenceSl := false, fenceRel := none, fenceAcq := false, groups := 0, inputs := [],
    exiting := none, committing := false, held := false }

/-- A translation of page 0 of job 0 that gives R and X. -/
def fetchLeaf : TlbEnt := ⟨0, 0, 0, 0x145⟩

/-- A step word where the lead sequencer of tile 0 fetches next. -/
def State.placeStep (s : State) (w : BitVec 64) : State :=
  let u := s.stamp
  let s := { s with stamp := s.stamp + 1, folios := s.folios ++ [oneStep w],
                    launches := smPut s.launches u (oneTile 0 s.folios.length), now := .seq 0 }
  s.modTile 0 fun t => 
    { (tlbUse t fetchLeaf) with owner := some u, spc := 0, wait := none, reply := none, phase := 0, ld := LoadSt.empty, spin := ⟨0, 0, none⟩ }

/-- A handler word and its literal where T-cell (0, 48) of die 0 fetches next. -/
def State.placeWord (s : State) (w : BitVec 64) : State :=
  let u := s.stamp
  let s := { s with stamp := s.stamp + 1, launches := smPut s.launches u (oneTile 6 s.folios.length), now := .handler 48,
                    mem := memWrite s.mem (cellBase 48) 8 w.toNat }
  let s := s.modTile 6 fun t => { t with owner := some u }
  s.modCell 48 fun c => { c with codeLen := 2, block := some Block.blank, spin := ⟨0, 0, none⟩, ld := LoadSt.empty }

end Sys2Proof.Machine
end

