-- ==== Sys2Proof/Machine/Homes.lean ====
section
/-! DEFINITION. Homes and their messages: misses and renewals (R215, R216), stores (R217), acknowledgements of RED forms (R218),
lines that leave the LLC (R219), drift and repetition (R230), rebases (R231-R233) and flows between dies (R234, R235). -/

namespace Sys2Proof.Machine

/-- The home die of a GDDR 7 address (R197). -/
def homeDie (flat : Nat) : Nat := bitsOf flat 38 35

/-- An atomic's command code (R47). -/
def atomicCode (c : Nat) : Bool := c < 0x20 || c ≥ 0x80

/-- The type-0 address a request or a stream write names. -/
def MsgKind.flat? : MsgKind → Option Nat
  | .loadReq line _ _ => some line
  | .storeReq e _ => some e.flat
  | .cmd c => if atomicCode c.code.toNat then some c.addr else none
  | .streamWr _ _ ty _ flat .. => if ty = 0 then some flat else none
  | .streamReq _ _ _ ty _ flat .. => if ty = 0 then some flat else none
  | .host _ flat _ => some flat
  | _ => none

/-- The line a reply is about, for the order of replies to one tile. -/
def MsgKind.replyLine? : MsgKind → Option Nat
  | .loadRep line _ _ _ => some line
  | .storeRep line _ _ _ => some line
  | _ => none

/-- No message before place `k` passes a test. -/
def State.noneBefore (s : State) (k : Nat) (p : Msg → Bool) : Bool := (s.msgs.take k).all fun m => !p m

/-- A flow from a source has room for another packet (R234). -/
def State.room (s : State) (srcDie srcLocal dstDie cls : Nat) : Bool :=
  srcDie == dstDie || decide (((s.flow (flowKey srcDie srcLocal dstDie cls)).next - (s.flow (flowKey srcDie srcLocal dstDie cls)).acked).toNat < 32768)

/-- The die a reply to an agent goes to. -/
def replyDie (die agent : Nat) : Nat := if agent ≥ 2 ^ 32 && agent < 2 ^ 33 then die else tileDie (agentTile agent)

/-- A home may send a reply of a class. -/
def State.roomBack (s : State) (die agent cls : Nat) : Bool := s.room die 100 (replyDie die agent) cls

/-! Migration's queue (R210) -/

/-- An address lies in the page that a die's migration moves. -/
def Migration.covers (g : Migration) (flat : Nat) : Bool :=
  !g.switched && decide (g.oldFrame ≤ flat) && decide (flat < g.oldFrame + pageBytes g.size)

/-- An access to an address must be queued: its page is migrating at its home (R210 step 1). -/
def State.migrating (s : State) (flat : Nat) : Bool :=
  match (s.getDie (homeDie flat)).migration with
  | some g => g.covers flat
  | none => false

/-- The frame, with its length, in which the queued accesses of a migration are being replayed, if an address lies in one (R210, R211). -/
def State.replayOf (s : State) (flat : Nat) : Option (Nat × Nat) :=
  s.dies.findSome? fun e => e.2.migration.bind fun g : Migration =>
    if g.switched && decide (g.newFrame ≤ flat) && decide (flat < g.newFrame + pageBytes g.size) then some (g.newFrame, pageBytes g.size) else none

/-- Some message of a list is a queued access to the page of an address that has yet to be replayed (R210 steps 5, 6). -/
def State.heldPage (s : State) (msgs : List Msg) (flat : Nat) : Bool :=
  match s.replayOf flat with
  | some (lo, n) => msgs.any fun m => m.held && match m.kind.flat? with | some f => decide (lo ≤ f) && decide (f < lo + n) | none => false
  | none => false

/-- An access that is no message may perform at a type-0 home now: its page does not migrate, nothing queued to it is owed a
replay, and no rebase runs (R210, R231). -/
def State.homeOpen (s : State) (flat : Nat) : Bool := !s.rebasing && !s.migrating flat && !s.heldPage s.msgs flat

/-- Whether a request at a home waits, is queued by a migration, or performs. Requests of one agent to one die perform in the
order they were issued (R238). -/
inductive Turn where
  | wait | queue | go
  deriving DecidableEq, Repr

/-- Whose turn it is at a home. -/
def State.homeTurn (s : State) (k : Nat) (m : Msg) (flat : Nat) : Turn :=
  if !m.arrived then .wait
  else if m.held then (if s.migrating flat || s.heldPage (s.msgs.take k) flat then .wait else .go)
  else if !s.noneBefore k (fun e => e.arrived && e.agent == m.agent && e.die == m.die && !e.held && e.kind.cls != 1 && e.kind.flat?.isSome) then .wait
  else if s.migrating flat then .queue
  else if s.heldPage s.msgs flat then .wait
  else .go

/-- Whose turn it is of a host or peer access at a type-0 home (R210, R231, R349): it waits for a replay and behind the queued writes of its own
port, and its own entry in a queue is the first with its port, address and kind. -/
def State.hostTurn (s : State) (port flat kind : Nat) : Turn :=
  let own := findIdxFrom (fun m : Msg => m.kind == .host port flat kind) s.msgs 0
  let before := match own with | some k => s.msgs.take k | none => s.msgs
  if s.migrating flat then (if own.isNone then .queue else .wait)
  else if s.rebasing || s.heldPage before flat || before.any (fun m => match m.kind with | .host p _ 1 => p == port | _ => false) then .wait
  else .go

/-- A message joins a migration's queue, behind those that arrived before it (R210 step 1). -/
def State.queueMsg (s : State) (k : Nat) : State :=
  match s.msgs[k]? with
  | some m => { s with msgs := removeAt s.msgs k ++ [{ m with held := true }] }
  | none => s

/-! Lines at their homes (R213, R216, R217, R219) -/

/-- MEMTS's mwts and mrts of a die. -/
def State.memts (s : State) (d : Nat) : BitVec 32 × BitVec 32 := ((s.reg d 0x300).setWidth 32, (s.reg d 0x300).extractLsb' 32 32)

/-- A line leaves the LLC: its timestamps fold into MEMTS (R219). -/
def State.evictLine (s : State) (line : Nat) : State :=
  match smFind s.homeTs line with
  | none => s
  | some h =>
    let d := homeDie line
    let m := s.memts d
    State.setReg { s with homeTs := smDel s.homeTs line } d 0x300 (tsMax m.2 h.2 ++ tsMax m.1 h.1)

/-- The granules that CARVE of a die's static tiles takes from its LLC: four V-cells stand in each row of a tile (R108). -/
def State.carvedGranules (s : State) (d : Nat) : Nat :=
  s.tiles.foldl (fun n e => if tileDie e.1 == d && tileStatic e.1
    then (List.range 8).foldl (fun n r => n + 4 * bitsOf e.2.spr.carve.toNat (3 * r + 2) (3 * r)) n else n) 0

/-- The lines a die's LLC holds at most: its S-die's 96 MiB but the reserved megabyte and the carved granules (R2, R108, R345, log 8). -/
def State.llcLines (s : State) (d : Nat) : Nat := (95 * 2 ^ 20 - 8192 * s.carvedGranules d) / 64

/-- Lines leave a die's LLC until it holds at most `room`: first those that `Config.llcVictims` names, then as many more as it takes (R219, log 8). -/
def State.makeRoom (s : State) (d room : Nat) : State :=
  let s := ((Config.llcVictims s.tick).filter fun v => homeDie v == d).foldl (fun s v => s.evictLine v) { s with tick := s.tick + 1 }
  let here := s.homeTs.filter fun e => homeDie e.1 == d
  (here.take (here.length - room)).foldl (fun s e => s.evictLine e.1) s

/-- A line is in the LLC: lines that make room leave first, and a line filled from GDDR 7 takes MEMTS (R219, log 8). -/
def State.fillLine (s : State) (line : Nat) : State :=
  match smFind s.homeTs line with
  | some _ => s
  | none =>
    let d := homeDie line
    let s := s.makeRoom d (s.llcLines d - 1)
    { s with homeTs := smPut s.homeTs line (s.memts d) }

/-- A home line's wts and rts. -/
def State.lineTs (s : State) (line : Nat) : BitVec 32 × BitVec 32 := smGet (0, 0) s.homeTs line

/-- Sets a home line's timestamps. -/
def State.setLineTs (s : State) (line : Nat) (w r : BitVec 32) : State := { s with homeTs := smPut s.homeTs line (w, r) }

/-- The bytes of a line. -/
def State.lineData (s : State) (line : Nat) : BitVec 512 := BitVec.ofNat 512 (memRead s.mem line 64)

/-- The timestamp of a write at a home with send clock t: max(t, H.rts + 1), as a number (R217). -/
def State.writeTs (s : State) (line t : Nat) : Nat := max t ((s.lineTs line).2.toNat + 1)

/-- Writes bytes at a home with a timestamp: wts and rts take it (R217). -/
def State.homeWrite (s : State) (flat n v : Nat) (ts : BitVec 32) : State :=
  State.setLineTs { s with mem := memWrite s.mem flat n v } (flat / 64 * 64) ts ts

/-- A die asks for a rebase, because an update would pass 0xFFFF_FFFF (R233). -/
def State.askRebase (s : State) (d : Nat) : State := s.modDie d fun x => { x with wantRebase := true }

/-- Frees an agent whose access met an uncorrectable error: its load waits no more and a block of a T-cell ends (R341). -/
def State.dropAgent (s : State) (a : Nat) : State :=
  if agentIsSeq a then s.modLd a fun _ => LoadSt.empty
  else s.modCell (agentCell a) fun c => { c with block := none, ld := LoadSt.empty }

/-- A fatal cause at a die (R341, R346, R348): the event, the freeze of the Vault, a fault of every launch with a unit on the die, no placement
until a warm reset, and vector d. A thermal stop's event is of kind thermal, any other of kind fault. -/
def State.fatal (s : State) (d cause : Nat) : State :=
  let s := s.vault d ⟨if cause = 0xF5 then 0x0C else 0x03, cause, 1, placeTile (d * 100), 0, 0, 0⟩
  let s := s.setReg d 0xB00 (s.reg d 0xB00 ||| (1 <<< 63))
  let s := s.modDie d fun x => { x with stopped := true }
  let us := s.launches.filter fun e => e.2.st != .done && e.2.st != .waiting && e.2.st != .saved && e.2.region.any (fun t => tileDie t == d)
  (us.foldl (fun s e => s.faultLaunch e.1 cause (e.2.region.headD (d * 100)) 0) s).interrupt d

/-- HOME_LOAD_REQUEST (R216): a home answers a miss or renewal. `upset` is an uncorrectable error met by the read (R341): in a
word the Concordance holds it is fatal (0xCF), in GDDR 7 it faults the launch (0xD1). -/
def execHomeLoadRequest (k : Nat) (upset : Bool) (s : State) : Out :=
  match s.msgs[k]? with
  | some m =>
    match m.kind with
    | .loadReq line wts lim =>
      match s.homeTurn k m line with
      | .wait => s.stutter
      | .queue => .next (s.queueMsg k)
      | .go =>
        if !s.roomBack (homeDie line) m.agent 0 then s.stutter
        else if upset then
          let s := (s.dropMsg k).dropAgent m.agent
          if (s.getDie (homeDie line)).held.contains line then .next (s.fatal (homeDie line) 0xCF)
          else .next (s.faultLaunch m.owner 0xD1 (agentTile m.agent) line)
        else if lim ≥ 2 ^ 32 then .next (s.askRebase (homeDie line))
        else
          let s := s.fillLine line
          let h := s.lineTs line
          let rts := tsMax h.2 (BitVec.ofNat 32 lim)
          let data := if wts == some h.1 then none else some (s.lineData line)
          let s := (s.setLineTs line h.1 rts).dropMsg k
          .next (s.sendBack (homeDie line) m.agent m.owner (.loadRep line h.1 rts data))
    | _ => s.stutter
  | none => s.stutter

/-- No earlier reply to the same tile is about the same line. -/
def State.replyTurn (s : State) (k : Nat) (m : Msg) (line : Nat) : Bool :=
  m.arrived && s.noneBefore k (fun e => e.arrived && e.kind.replyLine? == some line && agentTile e.agent == agentTile m.agent)

/-- Puts a line into a tile cache, which holds 256 KiB (R2); the line `Config.cacheVictim` names leaves it first, and where that leaves no
room as many more as it takes (R219, log 7). -/
def State.cacheLine (s : State) (t line : Nat) (l : CLine) : State :=
  let v := Config.cacheVictim s.tick
  State.modTile { s with tick := s.tick + 1 } t fun x =>
    let rest := smDel (smDel x.lines v) line
    { x with lines := smPut (rest.drop (rest.length - 4095)) line l }

/-- The load of an agent gets its line: LCLK takes the larger of itself and the line's wts (R215). -/
def State.giveLine (s : State) (a line : Nat) (l : CLine) : State :=
  (s.raiseLclk (agentTile a) l.wts).modLd a fun x => { x with lines := smPut x.lines line l.data, waiting := false }

/-- LOAD_REPLY (R215): the tile's line takes the reply's timestamps and data, and the load completes. A renewal whose line the
tile has dropped meanwhile is sent again as a miss. -/
def execLoadReply (k : Nat) (s : State) : Out :=
  match s.msgs[k]? with
  | some m =>
    match m.kind with
    | .loadRep line wts rts data =>
      if !s.replyTurn k m line then s.stutter
      else
        let t := agentTile m.agent
        let s := s.dropMsg k
        match data, smFind (s.getTile t).lines line with
        | some d, _ => .next ((s.cacheLine t line ⟨wts, rts, d⟩).giveLine m.agent line ⟨wts, rts, d⟩)
        | none, some l => .next ((s.cacheLine t line ⟨wts, rts, l.data⟩).giveLine m.agent line ⟨wts, rts, l.data⟩)
        | none, none => .next (s.modLd m.agent fun x => { x with waiting := false })
    | _ => s.stutter
  | none => s.stutter

/-- STORE_BUFFER_SEND (R217, R222): the head of an agent's store buffer leaves toward its target. A type-0 store and a store
to a staging line stay until they have performed; a rebase holds type-0 stores (R231). -/
def execStoreBufferSend (agent : Nat) (s : State) : Out :=
  match s.sbufOf agent with
  | [] => s.stutter
  | e :: r =>
    let t := agentTile agent
    if e.sent then s.stutter
    else if e.ty = 0 then
      if s.rebasing || !s.room (tileDie t) (tileLocal t) (homeDie e.flat) 0 then s.stutter
      else .next ((s.setSbuf agent ({ e with sent := true } :: r)).sendFrom agent e.owner (homeDie e.flat)
        (.storeReq { e with sent := true } (s.lclk t)))
    else
      let die := if e.ty.toNat ≤ 2 then tileDie t else e.home
      if !s.room (tileDie t) (tileLocal t) die 0 then s.stutter
      else
        let s := s.setSbuf agent (if e.ty = 6 then { e with sent := true } :: r else r)
        let s := if e.ty = 1 then s.modTile t fun x => { x with hostLast := smPut x.hostLast e.home e.flat } else s
        .next (s.sendFrom agent e.owner die (.access e.ty e.home e.flat e.n true e.data))

/-- HOME_STORE (R217): a store performs at its home. -/
def execHomeStore (k : Nat) (s : State) : Out :=
  match s.msgs[k]? with
  | some m =>
    match m.kind with
    | .storeReq e t =>
      let line := e.flat / 64 * 64
      match s.homeTurn k m e.flat with
      | .wait => s.stutter
      | .queue => .next (s.queueMsg k)
      | .go =>
        if !s.roomBack (homeDie line) m.agent 0 then s.stutter
        else
          let s := s.fillLine line
          let ts := s.writeTs line t.toNat
          if ts ≥ 2 ^ 32 then .next (s.askRebase (homeDie line))
          else
            let h := s.lineTs line
            let s := (s.homeWrite e.flat e.n e.data.toNat (BitVec.ofNat 32 ts)).dropMsg k
            .next (s.sendBack (homeDie line) m.agent m.owner (.storeRep line (BitVec.ofNat 32 ts) h.1 (s.lineData line)))
    | _ => s.stutter
  | none => s.stutter

/-- Every agent of a tile starts its count of hits again, for a store of the tile has performed (R230). -/
def State.resetSpins (s : State) (t : Nat) : State :=
  let clear (x : Spin) : Spin := { x with count := 0 }
  let s := s.modTile t fun x => { x with spin := clear x.spin }
  { s with cells := s.cells.map fun e => if cellTile e.1 == t then (e.1, { e.2 with spin := clear e.2.spin }) else e }

/-- Raises the high-water of the writes made for a run of a unit (R77). -/
def State.raiseRun (s : State) (u run : Nat) (ts : BitVec 32) : State :=
  s.modLaunch u fun l => { l with runHis := smMod 0 l.runHis run (tsMax · ts) }

/-- The stream commands of a unit that have not begun read no earlier than a store of their sequencer that has performed
(R229). -/
def State.raiseQueued (s : State) (u : Nat) (ts : BitVec 32) : State :=
  let up (e : QEnt) : QEnt := match e with
    | .cmd c => if c.owner == u && !c.begun then .cmd { c with lclk := tsMax c.lclk ts } else e
    | e => e
  match s.launch? u with
  | some l => l.region.foldl (fun s t => s.modTile t fun x =>
      { x with ports := x.ports.map fun q => (q.1, { q.2 with entries := q.2.entries.map up }) }) s
  | none => s

/-- A load of the storing agent that has its line already, and has yet to run again, keeps the store in what it gathered (R222). -/
def LoadSt.merge (x : LoadSt) (line : Nat) (e : StoreEnt) : LoadSt :=
  { x with lines := match smFind x.lines line with
      | some l => smPut x.lines line (lineMerge l (e.flat - line) e.n e.data.toNat)
      | none => x.lines }

/-- STORE_REPLY (R217): the storing tile takes the timestamp, its line becomes (data, ts, ts), and the store leaves the
buffer. -/
def execStoreReply (k : Nat) (s : State) : Out :=
  match s.msgs[k]?, (s.msgs[k]?.map Msg.kind : Option MsgKind) with
  | some m, some (.storeRep line ts prev data) =>
    match s.replyTurn k m line, s.sbufOf m.agent with
    | true, e :: r =>
      let t := agentTile m.agent
      let s := (((s.dropMsg k).setSbuf m.agent r).modLd m.agent fun x => x.merge line e).raiseLclk t ts
      let s := match smFind (s.getTile t).lines line with
        | some l =>
          let d := if l.wts == prev then lineMerge l.data (e.flat - line) e.n e.data.toNat else data
          s.modTile t fun x => { x with lines := smPut x.lines line ⟨ts, ts, d⟩ }
        | none => s
      let s := (s.raiseHi m.agent ts).resetSpins t
      .next (if agentIsSeq m.agent then s.raiseQueued m.owner ts else s.raiseRun m.owner e.run ts)
    | _, _ => s.stutter
  | _, _ => s.stutter

/-- RED_ACK (R218): raises the issuing agent's store high-water, not LCLK. -/
def execRedAck (k : Nat) (s : State) : Out :=
  match s.msgs[k]?, (s.msgs[k]?.map Msg.kind : Option MsgKind) with
  | some m, some (.redAck ts) =>
    if !m.arrived then s.stutter
    else
      let s := (s.dropMsg k).raiseHi m.agent ts
      .next (if agentIsSeq m.agent then s else s.raiseRun m.owner m.run ts)
  | _, _ => s.stutter

/-! Drift, repetition and rebases (R230-R233) -/

/-- DRIFT_TICK (R230): LCLK gains 1 every DRIFT clk. -/
def execDriftTick (tile : Nat) (s : State) : Out :=
  let t := s.getTile tile
  let d := t.spr.drift.toNat
  if tile < 1600 && decide (d ≤ s.clk - t.drifted) && decide (t.spr.lclk.toNat + 1 < 2 ^ 32) then
    .next (s.modTile tile fun t => { t with drifted := t.drifted + d, spr := { t.spr with lclk := t.spr.lclk + 1 } })
  else s.stutter

/-- SPIN_REPETITION (R230): the hit that brought an agent's count to SPIN_N sets LCLK past the line's lease. -/
def execSpinRepetition (agent : Nat) (s : State) : Out :=
  let sp := s.spinOf agent
  match sp.due with
  | some v =>
    if v < 2 ^ 32 then .next ((s.setSpin agent { sp with due := none }).raiseLclk (agentTile agent) (BitVec.ofNat 32 v))
    else .next (s.askRebase (tileDie (agentTile agent)))
  | none => s.stutter

/-- A logical clock of a die has passed 0xC000_0000, or an update waits for a rebase (R231, R233). -/
def State.rebaseDue (s : State) (d : Nat) : Bool :=
  (s.getDie d).wantRebase ||
  s.tiles.any (fun e => tileDie e.1 == d && decide (e.2.spr.lclk.toNat > rebaseLimit)) ||
  s.homeTs.any (fun e => homeDie e.1 == d && (decide (e.2.1.toNat > rebaseLimit) || decide (e.2.2.toNat > rebaseLimit))) ||
  decide ((s.memts d).1.toNat > rebaseLimit) || decide ((s.memts d).2.toNat > rebaseLimit)

/-- REBASE_START (R231): the die starts a package-wide rebase; every die stops issuing new type-0 accesses. -/
def execRebaseStart (die : Nat) (s : State) : Out :=
  if die < 16 && !s.rebasing && s.rebaseDue die then .next { s with rebasing := true } else s.stutter

/-- The update a message stands for would pass 0xFFFF_FFFF, so that it waits for the rebase (R233). -/
def State.tsWaits (s : State) (m : Msg) : Bool :=
  match m.kind with
  | .loadReq _ _ lim => decide (lim ≥ 2 ^ 32)
  | .storeReq e t => decide (s.writeTs (e.flat / 64 * 64) t.toNat ≥ 2 ^ 32)
  | .cmd c => atomicCode c.code.toNat && decide (s.writeTs (c.addr / 64 * 64) c.aux ≥ 2 ^ 32)
  | .streamWr _ _ ty _ flat _ _ clk _ => ty == 0 && m.arrived && decide (s.writeTs flat clk.toNat ≥ 2 ^ 32)
  | .streamReq _ _ _ ty _ _ lim _ => ty == 0 && decide (lim ≥ 2 ^ 32)
  | _ => false

/-- A type-0 access in flight. -/
def MsgKind.timed : MsgKind → Bool
  | .loadReq .. | .loadRep .. | .storeReq .. | .storeRep .. | .redAck .. => true
  | .cmd c => atomicCode c.code.toNat
  | .rep _ code .. => atomicCode code.toNat
  | .streamWr _ _ ty .. => ty == 0
  | .streamReq _ _ _ ty .. => ty == 0
  | _ => false

/-- v − 0x8000_0000, or 0 if v was below it (R231 step 2). -/
def rb (v : BitVec 32) : BitVec 32 := if v.toNat < 2 ^ 31 then 0 else v - 0x80000000

/-- Rebases the timestamps of a stream command. -/
def Cmd.rebase (c : Cmd) : Cmd := { c with lclk := rb c.lclk, readClk := rb c.readClk, maxTs := rb c.maxTs }

/-- Rebases the timestamps of a port's queue. -/
def PortQ.rebase (q : PortQ) : PortQ :=
  { q with order := rb q.order, entries := q.entries.map fun e => match e with | .cmd c => .cmd c.rebase | .fence i => .fence i }

/-- Rebases a dependence entry. -/
def DepEnt.rebase (e : DepEnt) : DepEnt :=
  { e with hw := rb e.hw, before := rb e.before, step := match e.step with | .stream c p t => .stream c.rebase p t | x => x }

/-- Rebases a queued record. -/
def QRec.rebase (r : QRec) : QRec := { r with whw := rb r.whw }

/-- Rebases a tile: clocks, high-waters, queues, and its cache, which drops lines whose rts is below 0x8000_0000 (R231). -/
def Tile.rebase (t : Tile) : Tile :=
  { t with spr := { t.spr with lclk := rb t.spr.lclk, whw := rb t.spr.whw }, hiWater := rb t.hiWater,
           lines := (t.lines.filter fun e => decide (e.2.rts.toNat ≥ 2 ^ 31)).map fun e =>
             (e.1, { e.2 with wts := rb e.2.wts, rts := rb e.2.rts }),
           ports := t.ports.map fun e => (e.1, e.2.rebase), deps := t.deps.map fun e => (e.1, e.2.rebase),
           pre := { t.pre with recs := t.pre.recs.map QRec.rebase },
           spin := { t.spin with due := t.spin.due.map (· - 2 ^ 31) },
           reply := t.reply.map fun r => { r with time := rb r.time } }

/-- Rebases a cell's high-waters. -/
def Cell.rebase (c : Cell) : Cell :=
  { c with hiWater := rb c.hiWater, whw := rb c.whw, spin := { c.spin with due := c.spin.due.map (· - 2 ^ 31) } }

/-- Rebases a phaser record; a held signal keeps its WHW with it. -/
def Phaser.rebase (p : Phaser) : Phaser :=
  { p with whw := rb p.whw, whw0 := rb p.whw0, whw1 := rb p.whw1,
           members := p.members.map fun m => { m with held := m.held.map rb } }

/-- Rebases the engines of a die, and MEMTS. -/
def Die.rebase (d : Die) : Die :=
  let m := smGet 0 d.regs 0x300
  { d with phasers := d.phasers.map fun e => (e.1, e.2.rebase),
           queues := d.queues.map fun e => (e.1, { e.2 with recs := e.2.recs.map QRec.rebase }),
           regs := if m = 0 then d.regs else smPut d.regs 0x300 (rb (m.extractLsb' 32 32) ++ rb (m.setWidth 32)),
           wantRebase := false }

/-- Rebases a command: its send clock, the WHW of a signal in operand A's upper half (R247), the WHW of a Q.ADD in operand B. -/
def SyncCmd.rebase (c : SyncCmd) : SyncCmd :=
  let c := { c with aux := c.aux - 2 ^ 31 }
  if c.code = 0x22 || c.code = 0x24 then { c with a := rb (c.a.extractLsb' 32 32) ++ c.a.setWidth 32 }
  else if c.code = 0x31 then { c with b := (rb (c.b.setWidth 32)).setWidth 64 } else c

/-- Rebases what a message carries. -/
def Msg.rebase (m : Msg) : Msg :=
  let k := match m.kind with
    | .loadReq l w lim => .loadReq l (w.map rb) (lim - 2 ^ 31)
    | .storeReq e t => .storeReq e (rb t)
    | .cmd c => .cmd c.rebase
    | .rep d c f ok v t l => .rep d c f ok v (rb t) l
    | .streamWr p o ty h f n d t i => .streamWr p o ty h f n d (rb t) i
    | .streamReq p k b ty h f lim i => .streamReq p k b ty h f (lim - 2 ^ 31) i
    | x => x
  { m with kind := k }

/-- Steps 2 to 4 of a rebase (R231): every timestamp, every tile cache, the counts and the Vault events. -/
def State.rebase (s : State) : State :=
  let s := { s with rebasing := false, rebases := s.rebases + 1,
                    tiles := s.tiles.map fun e => (e.1, e.2.rebase), cells := s.cells.map fun e => (e.1, e.2.rebase),
                    dies := s.dies.map fun e => (e.1, e.2.rebase), msgs := s.msgs.map Msg.rebase,
                    homeTs := s.homeTs.map fun e => (e.1, (rb e.2.1, rb e.2.2)),
                    launches := s.launches.map fun e => (e.1, { e.2 with whw := rb e.2.whw, runHis := e.2.runHis.map (fun r => (r.1, rb r.2)), lastTs := rb e.2.lastTs }),
                    work := s.work.map fun w => { w with whw := rb w.whw },
                    mod := { s.mod with hostTs := s.mod.hostTs.map fun e => (e.1, rb e.2) } }
  (List.range 16).foldl (fun s d => s.vault d ⟨0x0A, 0, 0, placeTile (d * 100), 0, 0, s.rebases.toNat⟩) s

/-- REBASE_COMPLETE (R231): once no type-0 access is in flight, but those whose own update waits for the rebase (R233). -/
def execRebaseComplete (s : State) : Out :=
  if s.rebasing && s.msgs.all (fun m => !m.kind.timed || s.tsWaits m) then .next s.rebase else s.stutter

/-- What a tile tracks of its flows falls by what a flow has acknowledged (R257). -/
def Tile.ackTracked (t : Tile) (k : Nat) (acked : BitVec 16) : Tile :=
  { t with tracked := (t.tracked.map fun e => (e.1, e.2.filter fun f => !(f.1 == k && decide ((acked - f.2).toNat < 32768)))).filter fun e => !e.2.isEmpty }

/-- FLOW_ACK (R234): the destination acknowledges what it has delivered, in sequence order. `k` is the flow. -/
def execFlowAck (k : Nat) (s : State) : Out :=
  let f := s.flow k
  if f.acked = f.want then s.stutter
  else .next { s with flows := smPut s.flows k { f with acked := f.want }, tiles := s.tiles.map fun e => (e.1, e.2.ackTracked k f.want) }

end Sys2Proof.Machine
end

