-- ==== Sys2Proof/Machine/Walker.lean ====
section
/-! DEFINITION. The page walker (R206), invalidation of translations (R207) and page migration (R209-R211). -/

namespace Sys2Proof.Machine

/-- WALK_START (R206): the oldest waiting walk takes a free one of 32 slots. -/
def execWalkStart (die k : Nat) (s : State) : Out :=
  let ws := (s.getDie die).walks
  match ws[k]? with
  | some w =>
    if !w.active && (ws.take k).all (·.active) && decide ((ws.filter (·.active)).length < 32) then
      .next (s.modDie die fun d => { d with walks := listSet d.walks k { w with active := true } })
    else s.stutter
  | none => s.stutter

/-- Fills a tile's translation cache; a leaf with MB set is never held (R205). -/
def Tile.fillTlb (t : Tile) (vmid : BitVec 16) (page : Nat) : XRes → Tile
  | .leaf pte size =>
    if bitOf pte.toNat 11 then t else tlbUse t ⟨vmid, pageOf (page * 2 ^ 16) size, size, pte⟩
  | .fail _ _ => t

/-- WALK_COMPLETE (R206): the walk reads the page table, fills the translation cache of every waiting tile and serves the
waiting accesses in arrival order. -/
def execWalkComplete (die slot : Nat) (s : State) : Out :=
  match (s.getDie die).walks[slot]? with
  | some w =>
    if !w.active then s.stutter
    else
      let r := walkPage s.mem (s.reg die 0x000).toNat w.vmid w.page
      let s := s.modDie die fun d => { d with walks := removeAt d.walks slot }
      .next (w.waiters.foldl (fun s a =>
        (s.modTile (agentTile a) fun t => t.fillTlb w.vmid w.page r).modLd a fun l =>
          { l with walks := smPut l.walks (walkKey w.vmid w.page) r }) s)
  | none => s.stutter

/-! Invalidation (R207) -/

/-- Drops the translation cache entries a test accepts, and every kept walk result, in every tile. -/
def State.dropTlb (s : State) (p : TlbEnt → Bool) : State :=
  let noWalks (l : LoadSt) : LoadSt := { l with walks := [] }
  { s with tiles := s.tiles.map (fun e => (e.1, { e.2 with
             tlb := e.2.tlb.filter fun x => !p x, ld := noWalks e.2.ld,
             ports := e.2.ports.map fun q => (q.1, { q.2 with ld := noWalks q.2.ld }) })),
           cells := s.cells.map fun e => (e.1, { e.2 with ld := noWalks e.2.ld }) }

/-- An entry translates an address of a page. -/
def tlbCovers (vmid : BitVec 16) (va : Nat) (size : BitVec 2) (e : TlbEnt) : Bool :=
  e.vmid == vmid && (pageOf va e.size == e.page || (e.page * pageBytes e.size) / pageBytes size == pageOf va size)

/-- Drops every tile's lines of a frame (R207). -/
def State.dropLines (s : State) (frame bytes : Nat) : State :=
  { s with tiles := s.tiles.map fun e => (e.1, { e.2 with
      lines := e.2.lines.filter fun l => !(decide (frame ≤ l.1) && decide (l.1 < frame + bytes)) }) }

/-- A store to a frame has left a store buffer and has not performed. -/
def State.storeOut (s : State) (frame bytes : Nat) : Bool :=
  let hit (b : List StoreEnt) : Bool := b.any fun e => e.sent && e.ty == 0 && e.touches frame bytes
  s.tiles.any (fun e => hit e.2.sbuf) || s.cells.any fun e => hit e.2.sbuf

/-- XINV_CTL of a die, as a number. -/
def State.xinvCtl (s : State) (die : Nat) : Nat := (s.reg die 0x108).toNat

/-- An invalidation of a kind may start. -/
def State.xinvReady (s : State) (die kind : Nat) : Bool :=
  decide (die < 16) && bitOf (s.xinvCtl die) 63 && bitsOf (s.xinvCtl die) 62 61 == kind && !(s.getDie die).xinvBusy

/-- The invalidation has reached every tile. -/
def State.xinvMark (s : State) (die : Nat) : State := s.modDie die fun d => { d with xinvBusy := true }

/-- XINV_PAGE (R207): every tile drops its translation of the page, and with drop = 1 its lines of the old frame, once every
store to that frame that has left a store buffer has performed. -/
def execXinvPage (die : Nat) (s : State) : Out :=
  let c := s.xinvCtl die
  let size := BitVec.ofNat 2 (bitsOf c 60 59)
  let old := (s.reg die 0x110).toNat
  let frame := bitsOf old 51 16 * 2 ^ 16
  if !s.xinvReady die 0 then s.stutter
  else if bitOf old 63 && s.storeOut frame (pageBytes size) then s.stutter
  else
    let s := s.dropTlb (tlbCovers (BitVec.ofNat 16 c) (bitsOf (s.reg die 0x100).toNat 55 0) size)
    .next ((if bitOf old 63 then s.dropLines frame (pageBytes size) else s).xinvMark die)

/-- XINV_VMID (R207): every tile drops every translation of the job. -/
def execXinvVmid (die : Nat) (s : State) : Out :=
  if !s.xinvReady die 1 then s.stutter
  else .next ((s.dropTlb fun e => e.vmid == BitVec.ofNat 16 (s.xinvCtl die)).xinvMark die)

/-- XINV_ALL (R207): every tile drops every translation. -/
def execXinvAll (die : Nat) (s : State) : Out :=
  if !s.xinvReady die 2 then s.stutter else .next ((s.dropTlb fun _ => true).xinvMark die)

/-- XINV_DONE (R207): every tile has completed, so go and drop read 0. -/
def execXinvDone (die : Nat) (s : State) : Out :=
  if !(s.getDie die).xinvBusy then s.stutter
  else
    let s := s.modDie die fun d => { d with xinvBusy := false }
    let s := s.setReg die 0x108 (setBits (s.reg die 0x108) 63 63 0)
    .next (s.setReg die 0x110 (setBits (s.reg die 0x110) 63 63 0))

/-! Migration (R209-R211) -/

/-- Ends a migration request with a status and its Vault event. -/
def State.migEnd (s : State) (die status : Nat) : State :=
  let s := s.setReg die 0x210 (setBits (setBits (s.reg die 0x210) 63 63 0) 62 60 status)
  s.vault die ⟨0x0F, 0, 0, placeTile (die * 100), 0, bitsOf (s.reg die 0x210).toNat 15 0, status⟩

/-- MIGRATION_START (R209, R210 steps 1 and 2): MB is written, accesses to the page are queued from now, and every tile drops
its translation and its lines of the page. A page without a valid leaf is refused as not type 0 (DEDUCED, log 37). -/
def execMigrationStart (die : Nat) (s : State) : Out :=
  let ctl := (s.reg die 0x210).toNat
  if !(decide (die < 16) && bitOf ctl 63) then s.stutter
  else
    let vmid := BitVec.ofNat 16 ctl
    let page := bitsOf (s.reg die 0x200).toNat 55 16
    let dst := bitsOf (s.reg die 0x208).toNat 51 16 * 2 ^ 16
    if (s.getDie die).migration.isSome then .next (s.migEnd die 5)
    else match walkPage s.mem (s.reg die 0x000).toNat vmid page with
      | .fail _ _ => .next (s.migEnd die 3)
      | .leaf pte size =>
        let t := leafTarget pte size (page * 2 ^ 16 / pageBytes size * pageBytes size)
        if t.ty ≠ 0 then .next (s.migEnd die 3)
        else if size = 2 || dst % pageBytes size ≠ 0 || dst ≥ 2 ^ 39 then .next (s.migEnd die 4)
        else if t.home ≠ die then .next (s.migEnd die 7)
        else
          let la := leafAddr s.mem (s.reg die 0x000).toNat vmid page
          let g : Migration := ⟨la, size, t.flat, dst, homeDie dst, vmid, page, false, false⟩
          let s := { s with mem := memWrite s.mem la 8 (pte.toNat ||| 2 ^ 11) }
          let s := s.setReg die 0x210 (setBits (setBits (s.reg die 0x210) 63 63 0) 62 60 1)
          let s := s.modDie die fun d => { d with migration := some g }
          .next ((s.dropTlb (tlbCovers vmid (page * 2 ^ 16) size)).dropLines t.flat (pageBytes size))

/-- The new place of an address of the page. -/
def Migration.moved (g : Migration) (flat : Nat) : Nat := if g.covers flat then g.newFrame + (flat - g.oldFrame) else flat

/-- A message is about an address of the page. -/
def Migration.about (g : Migration) (m : Msg) : Bool :=
  (match m.kind.flat? with | some f => g.covers f | none => false) || match m.kind.replyLine? with | some f => g.covers f | none => false

/-- A buffered store follows its page. -/
def Migration.moveStore (g : Migration) (e : StoreEnt) : StoreEnt :=
  if e.ty = 0 && g.covers e.flat then { e with flat := g.moved e.flat, home := g.newDie } else e

/-- A queued request follows its page to the new home. -/
def Migration.moveMsg (g : Migration) (m : Msg) : Msg :=
  match m.kind.flat? with
  | some f =>
    if g.covers f then
      let k := match m.kind with
        | .loadReq line _ lim => .loadReq (g.moved line) none lim
        | .storeReq e t => .storeReq (g.moveStore e) t
        | .cmd c => .cmd { c with addr := g.moved c.addr }
        | .streamWr p o ty _ f n d t i => .streamWr p o ty g.newDie (g.moved f) n d t i
        | .streamReq p q b ty _ f lim i => .streamReq p q b ty g.newDie (g.moved f) lim i
        | .host p f n => .host p (g.moved f) n
        | x => x
      { m with kind := k, die := g.newDie }
    else m
  | none => m

/-- A cell's buffered stores, and the stores and atomics of its running block, follow the page. -/
def Migration.moveCell (g : Migration) (c : Cell) : Cell :=
  { c with sbuf := c.sbuf.map g.moveStore,
           block := c.block.map fun b => { b with
             gstores := b.gstores.map g.moveStore,
             syncs := b.syncs.map fun x => if atomicCode x.code.toNat then { x with addr := g.moved x.addr } else x } }

/-- Copies the lines of the page with the timestamps the old home would have answered with (R210 step 3). -/
def State.copyPage (s : State) (die : Nat) (g : Migration) : State :=
  let ts (line : Nat) : BitVec 32 × BitVec 32 := (smFind s.homeTs line).getD (s.memts die)
  let home := (List.range (pageBytes g.size / 64)).foldl (fun h i => smPut h (g.newFrame + 64 * i) (ts (g.oldFrame + 64 * i))) s.homeTs
  { s with mem := memMove s.mem g.oldFrame g.newFrame (pageBytes g.size), homeTs := home }

/-- MIGRATION_SWITCH (R210 steps 3 to 6): the Concordance writes back, the page is copied, the leaf names the new frame, and the
queued accesses go to the new home for their replay, after every access on its way to the page has arrived and joined them. Once the replay has
ended the status reads done, or stays aborted. -/
def execMigrationSwitch (die : Nat) (s : State) : Out :=
  match (s.getDie die).migration with
  | none => s.stutter
  | some g =>
    if g.switched then
      if s.heldPage s.msgs g.newFrame then s.stutter
      else
        let s := s.modDie die fun d => { d with migration := none }
        .next (if g.aborted then s else s.migEnd die 2)
    else if s.msgs.any (fun m => !m.held && g.about m) then s.stutter
    else
      let s := s.copyPage die g
      let pte := memRead s.mem g.leafAddr 8
      let leaf := setBits (setBits (setBits (BitVec.ofNat 64 pte) 51 16 (g.newFrame / 2 ^ 16)) 59 56 g.newDie) 11 11 0
      let s := { s with mem := memWrite s.mem g.leafAddr 8 leaf.toNat }
      let s := (s.dropTlb (tlbCovers g.vmid (g.page * 2 ^ 16) g.size)).dropLines g.oldFrame (pageBytes g.size)
      let s : State :=
        { s with msgs := s.msgs.map g.moveMsg, tiles := s.tiles.map (fun e => (e.1, { e.2 with sbuf := e.2.sbuf.map g.moveStore })),
                 cells := s.cells.map fun e => (e.1, g.moveCell e.2) }
      .next (s.modDie die fun d => { d with migration := some { g with switched := true },
                                             held := d.held.filter fun l => !g.covers l })

/-- MIGRATION_ABORT (R211): an uncorrectable error of the old frame ends the migration; the leaf is restored, the queued accesses
perform at the old home and the error is recorded as a data-integrity fault's event. -/
def execMigrationAbort (die : Nat) (s : State) : Out :=
  match (s.getDie die).migration with
  | some g =>
    if g.switched then s.stutter
    else
      let pte := memRead s.mem g.leafAddr 8
      let s := { s with mem := memWrite s.mem g.leafAddr 8 (setBits (BitVec.ofNat 64 pte) 11 11 0).toNat }
      let s := s.modDie die fun d => { d with migration := some { g with newFrame := g.oldFrame, newDie := die, switched := true, aborted := true } }
      .next ((s.vault die ⟨0x03, 0xD1, 0, placeTile (die * 100), 0, g.vmid.toNat, g.page * 2 ^ 16⟩).migEnd die 6)
  | none => s.stutter

end Sys2Proof.Machine
end

