-- ==== Sys2Proof/Machine/Regs.lean ====
section
/-! DEFINITION. Device registers (R7, R202): reading and writing a register of a cell, a tile or a die's control block, and
direct accesses (R223), by which a program reaches them. -/

namespace Sys2Proof.Machine

/-- The register block of a die's control block. -/
def ctlBlock : Nat := 6500

/-- The flat register address of a control register. -/
def ctlAddr (die off : Nat) : Nat := regBase die ctlBlock + off

/-- Bits [hi:lo] set. -/
def ones (hi lo : Nat) : Nat := (2 ^ (hi + 1 - lo) - 1) * 2 ^ lo

/-- Replaces the bits of a mask. -/
def maskIn (old v mask : Nat) : Word := BitVec.ofNat 64 (old - (old &&& mask) + (v &&& mask))

/-- The actor of the unit whose agent reads or writes a register. -/
def State.actorOf (s : State) (agent : Nat) : Option Actor :=
  match s.owner? (agentTile agent) with
  | some u => (match s.launch? u with | some l => l.actor | none => none)
  | none => none

/-- QSTAT of the queue QSEL names (R251). -/
def State.qstat (s : State) (die : Nat) : Word :=
  let q := smGet Queue.reset (s.getDie die).queues (bitsOf (s.reg die 0x400).toNat 11 0)
  BitVec.ofNat 64 (q.state.toNat * 2 ^ 62 + q.recs.length % 2 ^ 18 * 2 ^ 32 + min q.takers.length 16383 * 2 ^ 18 + q.rsvs.length % 2 ^ 18)

/-- WORK_STAT of the entry WORK_ID names (R322). -/
def State.workStat (s : State) (die : Nat) : Word :=
  let id := (s.reg die 0x700).toNat
  match s.workIdx (BitVec.ofNat 16 (bitsOf id 63 48)) (BitVec.ofNat 2 (bitsOf id 33 32)) (BitVec.ofNat 32 id) with
  | some i => (match s.work[i]? with | some w => BitVec.ofNat 64 (w.state.toNat * 2 ^ 61 + w.count % 2 ^ 32) | none => 0)
  | none => 0

/-- The reserved bits of a register whose go bit starts an operation: they read zero (R7). -/
def goReserved (off : Nat) : Nat :=
  if off = 0x408 then ones 50 50 + ones 15 0
  else if off = 0x508 then ones 57 48
  else if off = 0x718 then ones 57 0
  else if off = 0x748 then ones 56 0
  else if off = 0xB10 then ones 59 14 + ones 9 7
  else 0

/-- Reads a register of a die's control block. -/
def State.ctlRead (s : State) (die off agent : Nat) : Word :=
  if off = 0x308 then (if s.rebasing then 1 <<< 63 else 0) ||| s.rebases.setWidth 64
  else if off = 0x418 then s.qstat die
  else if off = 0x600 || off = 0x610 then 0
  else if off = 0x608 then
    (match s.actorOf agent with | some a => BitVec.ofNat 64 (a.status.toNat * 256 + a.tiles.length) | none => 0)
  else if off = 0x720 then s.workStat die
  else s.reg die off &&& ~~~(BitVec.ofNat 64 (goReserved off))

/-- Reads an 8-byte register: a cell's CVST (R193), a tile's RAYSLAB and ENERGY (R276, R326), or a control register. An
unlisted offset reads zero. -/
def State.regRead (s : State) (die block off agent : Nat) : Word :=
  if block < 6400 then
    (if off = 0x10 then (s.cp (cellNo die (block / 80) (block % 80))).cvst.setWidth 64 else 0)
  else if block < 6500 then
    let t := s.getTile (tileNo die ((block - 6400) / 10) ((block - 6400) % 10))
    (if off = 0x40 then t.rayslab else if off = 0x48 then t.energy else 0)
  else if block = 6500 then s.ctlRead die off agent
  else 0

/-- The writable bits of a control register that is plain storage (R6, R7); zero where the register is read-only or has a rule
of its own. -/
def plainMask (off : Nat) : Nat :=
  if off = 0x000 then ones 51 0
  else if off = 0x100 then ones 55 16
  else if off = 0x200 then ones 55 16
  else if off = 0x208 then ones 51 16
  else if off = 0x400 then ones 11 0
  else if off = 0x410 then ones 55 23
  else if off = 0x500 then ones 30 6
  else if off = 0x700 then ones 63 48 + ones 33 32 + ones 31 0
  else if off = 0x708 then ones 31 0
  else if off = 0x710 then ones 55 0
  else if off = 0x740 then ones 63 48 + ones 31 0
  else if off ≥ 0x800 && off < 0xA00 then ones 63 62 + ones 55 48 + ones 17 0
  else if off = 0xB08 then ones 51 0
  else 0

/-- The bits that a write gives a register whose go bit starts an operation: MIG_CTL, QCTL, PH_CTL, WORK_CTL, CANCEL_CTL, SVC_CTL. The operation
sees the reserved bits among them, which it refuses; the status field is the hardware's. -/
def goMask (off : Nat) : Nat :=
  if off = 0x210 then ones 63 63 + ones 15 0
  else if off = 0x408 then ones 63 60 + ones 56 51 + ones 49 16 + ones 50 50 + ones 15 0
  else if off = 0x508 then ones 63 61 + ones 57 0
  else if off = 0x718 then ones 63 61 + ones 57 0
  else if off = 0x748 then ones 63 60 + ones 56 0
  else if off = 0xB10 then ones 63 63 + ones 59 0
  else 0

/-- A write to XINV_CTL (R207): a reserved value, or go while busy, is discarded and sets overrun; overrun is cleared by 1. -/
def xinvWrite (old v m : Nat) : Word :=
  let w := v &&& m
  let bad := bitsOf w 62 61 == 3 || bitsOf w 60 59 == 3 || bitsOf w 57 16 != 0 || (bitOf w 63 && bitOf old 63)
  if bad then BitVec.ofNat 64 (old ||| 2 ^ 58)
  else
    let kept := if bitOf w 58 then old - (old &&& 2 ^ 58) else old
    if bitOf old 63 then BitVec.ofNat 64 kept else maskIn kept v (m &&& (ones 63 59 + ones 15 0))

/-- The bytes of an overflow area. -/
def ovfArea (r : Nat) : Nat × Nat := (bitsOf r 51 16 * 2 ^ 16, bitsOf r 15 0 * 2 ^ 16)

/-- Something of an engine lies in its overflow area (R237). -/
def Die.ovfBusy (d : Die) (conc : Bool) : Bool :=
  if conc then !d.heldOut.isEmpty || d.phasers.any (fun e => e.2.spilled) else d.queues.any fun e => e.2.recs.any (·.spilled)

/-- VAULT_CTL's thaw (R346): frozen reads 0 from now. -/
def State.vaultThaw (s : State) (die : Nat) : State := s.setReg die 0xB00 (setBits (s.reg die 0xB00) 63 63 0)

/-- A write of the parity log (R342): 1 to valid clears an entry, 1 to overrun clears the overrun bit. -/
def State.plogWrite (s : State) (die off v : Nat) : State :=
  if !bitOf v 63 then s
  else if off = 0xA00 then s.setReg die 0xA00 (setBits (s.reg die 0xA00) 63 63 0)
  else if 0xA08 ≤ off && off < 0xA88 then s.setReg die off 0
  else s

/-- Writes a control register of a die: `v` holds the written bytes in place, `m` their bits. -/
def State.ctlWrite (s : State) (die off v m agent : Nat) : State :=
  let old := (s.reg die off).toNat
  if off = 0x108 then s.setReg die off (xinvWrite old v m)
  else if off = 0x100 && bitsOf (v &&& m) 63 56 + bitsOf (v &&& m) 15 0 != 0 then s.setReg die 0x108 (s.reg die 0x108 ||| (1 <<< 58))
  else if off = 0x110 then
    if bitsOf (v &&& m) 62 52 != 0 || bitsOf (v &&& m) 15 0 != 0 then s.setReg die 0x108 (s.reg die 0x108 ||| (1 <<< 58))
    else s.setReg die off (maskIn old v (m &&& (ones 63 63 + ones 51 16)))
  else if off = 0x510 || off = 0x518 then
    (if (s.getDie die).ovfBusy (off == 0x510) then s else s.setReg die off (maskIn old v (m &&& ones 51 0)))
  else if off = 0x600 then s.modDie die fun d => { d with actReq := d.actReq ++ [(agent, (s.owner? (agentTile agent)).getD 0, bitsOf v 55 0)] }
  else if off = 0x610 then s.modDie die fun d => { d with bindReq := d.bindReq ++ [(agent, BitVec.ofNat 64 (v &&& m), (s.owner? (agentTile agent)).getD 0)] }
  else if 0xA00 ≤ off && off < 0xA88 then s.plogWrite die off (v &&& m)
  else if off = 0xB00 then (if bitOf (v &&& m) 62 then s.vaultThaw die else s)
  else if off = 0xB20 then
    let w := v &&& m
    if w < 64 || w ≥ 2 ^ 11 then s
    else (s.setReg die off (BitVec.ofNat 64 w)).modDie die fun d => { d with irq := d.irq ++ [(agent, w)] }
  else if goMask off ≠ 0 then (if bitOf old 63 then s else s.setReg die off (maskIn old v (m &&& goMask off)))
  else if plainMask off = 0 then s
  else s.setReg die off (maskIn old v (m &&& plainMask off))

/-- Writes `n` bytes at an offset of a register block; the access lies within one 8-byte register. -/
def State.regWrite (s : State) (die block off n v agent : Nat) : State :=
  let r := off / 8 * 8
  let sh := 2 ^ (8 * (off % 8))
  let w := v % 2 ^ (8 * n) * sh % 2 ^ 64
  let m := (2 ^ (8 * n) - 1) * sh % 2 ^ 64
  if block < 6400 then (if r = 0x10 then s.cvstClear (cellNo die (block / 80) (block % 80)) (w &&& m) else s)
  else if block < 6500 then
    if r = 0x40 then s.modTile (tileNo die ((block - 6400) / 10) ((block - 6400) % 10)) fun t =>
      { t with rayslab := maskIn t.rayslab.toNat w (m &&& ones 55 8) }
    else s
  else if block = 6500 then s.ctlWrite die r w m agent
  else s

/-- The register block and offset of a flat register address. -/
def regPlace (flat : Nat) : Nat × Nat × Nat := ((flat - regBase 0 0) / 2 ^ 28, (flat - regBase 0 0) / 2 ^ 12 % 2 ^ 16, flat % 4096)

/-- Reads bytes of registers, least significant first. -/
def State.regBytes (s : State) (agent flat : Nat) : Nat → Nat
  | 0 => 0
  | n + 1 =>
    let p := regPlace flat
    ((s.regRead p.1 p.2.1 (p.2.2 / 8 * 8) agent).toNat >>> (8 * (p.2.2 % 8))) % 256 + 256 * s.regBytes agent (flat + 1) n

/-- Writes registers from bytes, one 8-byte register at a time. -/
def State.regPut (s : State) (agent : Nat) : Nat → Nat → Nat → Nat → State
  | 0, _, _, _ => s
  | fuel + 1, flat, n, v =>
    if n = 0 then s
    else
      let p := regPlace flat
      let k := min n (8 - flat % 8)
      State.regPut (s.regWrite p.1 p.2.1 p.2.2 k v agent) agent fuel (flat + k) (n - k) (v / 2 ^ (8 * k))

/-- A registration of a unit's actor is under way. -/
def State.registering (s : State) (u : Nat) : Bool := s.dies.any fun d => d.2.actReq.any fun r => r.2.1 == u

/-- A read of MALT_STAT waits while its status is 1 (R266). -/
def State.regHolds (s : State) (agent flat n : Nat) : Bool :=
  let p := regPlace flat
  p.2.1 == ctlBlock && decide (p.2.2 ≤ 0x60F) && decide (p.2.2 + n > 0x608) &&
    match s.owner? (agentTile agent) with | some u => s.registering u | none => false

/-- Reads at a target of types 3 to 7. -/
def State.targetRead (s : State) (agent : Nat) (ty : BitVec 3) (flat n : Nat) : Nat :=
  if ty = 7 then s.regBytes agent flat n else s.directRead ty flat n

/-- Writes at a target of types 3 to 7. -/
def State.targetWrite (s : State) (agent : Nat) (ty : BitVec 3) (flat n v : Nat) : State :=
  if ty = 7 then s.regPut agent 9 flat n v else s.directWrite ty flat n v

/-- The direct access a message carries: type, address, length, whether it writes, data. -/
def MsgKind.direct? : MsgKind → Option (BitVec 3 × Nat × Nat × Bool × BitVec 512)
  | .access ty _ flat n w d => if ty.toNat ≥ 3 then some (ty, flat, n, w, d) else none
  | _ => none

/-- The place that orders the direct access a message carries (R223). -/
def MsgKind.place? : MsgKind → Option Nat
  | .access ty home flat .. => if ty.toNat ≥ 3 then some (orderPlace ty home flat) else none
  | _ => none

/-- The B-cell that a stream's access is for. -/
def MsgKind.streamPlace? : MsgKind → Option Nat
  | .streamReq _ _ _ ty home flat .. => if ty = 3 then some (orderPlace ty home flat) else none
  | .streamWr _ _ ty home flat .. => if ty = 3 then some (orderPlace ty home flat) else none
  | _ => none

/-- A direct access is in its turn: its agent's earlier ones to the same cell have performed (R223), and a B-cell serves plain accesses oldest
first and after the accesses of streams that have arrived (R116, log 126). -/
def State.directTurn (s : State) (k : Nat) (m : Msg) : Bool :=
  m.arrived && !s.msgs.any (fun e => e.arrived && e.kind.streamPlace?.isSome && e.kind.streamPlace? == m.kind.place?) &&
    s.noneBefore k fun e => e.arrived && e.kind.place? == m.kind.place? &&
      (e.agent == m.agent || match e.kind with | .access ty .. => ty == 3 | _ => false)

/-- An agent's load from a direct target or a flow gets its bytes. -/
def State.giveBytes (s : State) (a flat : Nat) (v : Nat) : State :=
  s.modLd a fun l => { l with lines := smPut l.lines flat (BitVec.ofNat 512 v), waiting := false }

/-- DIRECT_ACCESS (R223): an access of types 3 to 7 performs at its target, in the agent's order to that target. A read returns
its bytes, on a flow when it crosses dies; a store to a staging line leaves the store buffer (R60). -/
def execDirectAccess (k : Nat) (s : State) : Out :=
  match s.msgs[k]? with
  | some m =>
    match m.kind.direct? with
    | some (ty, flat, n, w, d) =>
      if !s.directTurn k m then s.stutter
      else if w then
        let s := (s.dropMsg k).targetWrite m.agent ty flat n d.toNat
        .next (if ty = 6 then s.setSbuf m.agent ((s.sbufOf m.agent).drop 1) else s)
      else if ty = 7 && s.regHolds m.agent flat n then s.stutter
      else
        let v := s.targetRead m.agent ty flat n
        let back := replyDie m.die m.agent
        if back = m.die then .next ((s.dropMsg k).giveBytes m.agent flat v)
        else if !s.roomBack m.die m.agent 0 then s.stutter
        else .next ((s.dropMsg k).sendBack m.die m.agent m.owner (.accessRep flat n false (BitVec.ofNat 512 v)))
    | none => s.stutter
  | none => s.stutter

/-- CVST_WRITE (R193): a write of 1 clears conversion status flags of a cell. -/
def execCvstWrite (cell : Nat) (value : BitVec 32) (s : State) : Out := .next (s.cvstClear cell value.toNat)

/-- VAULT_THAW (R346). Host accesses to BAR0 have no effect while a warm reset runs (R355). -/
def execVaultThaw (die : Nat) (s : State) : Out := if s.shut then s.stutter else .next (s.vaultThaw die)

/-- PLOG_WRITE (R342). -/
def execPlogWrite (die off : Nat) (value : BitVec 64) (s : State) : Out := if s.shut then s.stutter else .next (s.plogWrite die off value.toNat)

/-- REG_WRITE (R6, R7): the host writes an 8-byte register of a block of a die through BAR0. -/
def execRegWrite (die block off : Nat) (value : BitVec 64) (s : State) : Out :=
  if die < 16 && block ≥ 6400 && off % 8 == 0 && !s.shut then .next (s.regWrite die block off 8 value.toNat (hostAgent 0)) else s.stutter

end Sys2Proof.Machine
end

