-- ==== Sys2Proof/Machine/Release.lean ====
section
/-! DEFINITION. Scopes and releases (R225, R226): which targets lie within a scope, which writes of an agent are outstanding, and
when a release of a scope may go on. -/

namespace Sys2Proof.Machine

/-- The tile a direct target belongs to, none for a die's control block or sync space (R225). -/
def targetTile (ty : BitVec 3) (flat : Nat) : Option Nat :=
  match ty.toNat with
  | 3 | 4 => some (cellTile ((flat - cellBase 0) / 2 ^ 17))
  | 5 => some (cellTile ((flat - windowBase 0) / 2 ^ 15))
  | 7 =>
    let p := regPlace flat
    if p.2.1 < 6400 then some (cellTile (cellNo p.1 (p.2.1 / 80) (p.2.1 % 80)))
    else if p.2.1 < 6500 then some (tileNo p.1 ((p.2.1 - 6400) / 10) ((p.2.1 - 6400) % 10)) else none
  | _ => none

/-- A write's target lies within a scope of an issuer on a tile (R225). -/
def inScope (scope : BitVec 2) (tile : Nat) (ty : BitVec 3) (home flat : Nat) : Bool :=
  match scope.toNat with
  | 0 => targetTile ty flat == some tile
  | 1 => ty != 1 && ty != 2 && home == tileDie tile
  | 2 => ty != 1 && ty != 2
  | _ => true

/-- The write a message carries: type, home and address. -/
def MsgKind.write? : MsgKind → Option (BitVec 3 × Nat × Nat)
  | .access ty home flat _ true _ => some (ty, home, flat)
  | .streamWr _ _ ty home flat .. => some (ty, home, flat)
  | .peer .. => some (2, 0, 0)
  | _ => none

/-- A message is a write of an agent whose target lies within a scope; `direct` leaves stream writes out. -/
def Msg.writesIn (m : Msg) (a : Nat) (scope : BitVec 2) (direct : Bool) : Bool :=
  m.agent == a && !(direct && m.kind.cls == 1) && match m.kind.write? with
    | some (ty, home, flat) => inScope scope (agentTile a) ty home flat
    | none => false

/-- An agent has a direct write, or unless `direct` a stream write, outstanding whose target lies within a scope. -/
def State.writesOut (s : State) (a : Nat) (scope : BitVec 2) (direct : Bool) : Bool := s.msgs.any fun m => m.writesIn a scope direct

/-- An atomic of an agent has not been answered or acknowledged (R218). -/
def State.atomsOut (s : State) (a : Nat) : Bool :=
  s.msgs.any fun m => m.agent == a && match m.kind with
    | .cmd c => atomicCode c.code.toNat
    | .rep _ code .. => atomicCode code.toNat && !m.held
    | .redAck _ => true
    | _ => false

/-- The tile a flow starts at. -/
def flowTile (key : Nat) : Nat := key / 4 / 16 / 128 * 100 + key / 4 / 16 % 128

/-- Every Kelmar Link-D flow of memory writes from some tiles has been acknowledged (R225); `direct` leaves stream flows out. -/
def State.flowsAcked (s : State) (tiles : List Nat) (direct : Bool) : Bool :=
  s.flows.all fun e => e.1 % 4 > (if direct then 0 else 1) || e.1 / 4 / 16 % 128 == 100 || !tiles.contains (flowTile e.1) || e.2.acked == e.2.next

/-- A stream command that writes memory. -/
def Cmd.writes (c : Cmd) : Bool := c.op != 0 && c.op != 2

/-- The stream commands in the queues of a unit's region that belong to it, and those that its table issues again after a resume (R83). -/
def State.cmdsOf (s : State) (u : Nat) : List Cmd :=
  match s.launch? u with
  | some l =>
    (l.region.flatMap fun t => (s.getTile t).ports.flatMap fun q => q.2.entries.filterMap fun e =>
      match e with | .cmd c => if c.owner == u then some c else none | .fence _ => none) ++
    (s.getTile (l.region.headD 0)).deps.filterMap fun e =>
      match e.2.step with | .stream c _ _ => if e.2.rearmed && c.owner == u then some c else none | _ => none
  | none => []

/-- The tiles from which an agent's writes leave: its own, and for a sequencer's streams its unit's region. -/
def State.writeTiles (s : State) (a owner : Nat) (direct : Bool) : List Nat :=
  agentTile a :: (if agentIsSeq a && !direct then (match s.launch? owner with | some l => l.region | none => []) else [])

/-- One read of the last address an agent's tile wrote through a host port since its last SYSTEM release (R225): the state with
the read asked for or answered, and whether none is owed. -/
def State.hostReads (s : State) (a owner : Nat) : Bool × State :=
  let t := agentTile a
  match (s.getTile t).hostLast with
  | [] => (true, s)
  | (port, flat) :: r =>
    match smFind (s.ldOf a).lines (flat / 8 * 8) with
    | some _ => (r.isEmpty, s.modTile t fun x => { x with hostLast := r })
    | none =>
      if (s.ldOf a).waiting then (false, s)
      else (false, s.request a owner (tileDie t) (.access 1 port (flat / 8 * 8) 8 false 0))

/-- An agent's direct writes, and unless `direct` its stream writes, have completed within a scope (R225): the state on which it goes on, or
waits. A SYNC or an ATOM waits for direct writes alone (R159, R242). -/
def State.settled (s : State) (a owner : Nat) (scope : BitVec 2) (direct : Bool) : Bool × State :=
  if s.writesOut a scope direct then (false, s)
  else if scope.toNat ≥ 2 && !s.flowsAcked (s.writeTiles a owner direct) (direct || !agentIsSeq a) then (false, s)
  else if scope = 3 then s.hostReads a owner
  else (true, s)

/-- A release of a scope by an agent (R226): the store buffer has drained, every stream command that writes has issued its
writes, direct and stream writes within the scope have completed, and atomics have been answered or acknowledged. Then WHW takes the
store high-water. -/
def State.release (s : State) (a owner : Nat) (scope : BitVec 2) : Bool × State :=
  if !(s.sbufOf a).isEmpty || s.atomsOut a then (false, s)
  else if agentIsSeq a && (s.cmdsOf owner).any (fun c => c.writes && !c.issuedAll) then (false, s)
  else
    let r := s.settled a owner scope false
    if r.1 then (true, r.2.setWhw a) else r

/-! The producer's tile keeps track of what its Q.ADDs cover (R257) -/

/-- The flows of memory writes from some tiles that are not acknowledged, each up to its next sequence number. -/
def State.openFlows (s : State) (tiles : List Nat) : SMap (BitVec 16) :=
  (s.flows.filter fun e => !(e.1 % 4 > 1 || e.1 / 4 / 16 % 128 == 100 || !tiles.contains (flowTile e.1) || e.2.acked == e.2.next)).map
    fun e => (e.1, e.2.next)

/-- A Q.ADD leaves an agent's tile. -/
def State.track (s : State) (a owner : Nat) : State :=
  let open_ := s.openFlows (s.writeTiles a owner false)
  if open_.isEmpty then s else s.modTile (agentTile a) fun t => { t with tracked := smPut t.tracked s.eighths open_ }

/-- The direct and stream writes that a producer issued before a Q.ADD have completed within a scope, and at PACKAGE their flows have been
acknowledged. -/
def State.producerDone (s : State) (agent : Nat) (scope : BitVec 2) (added : Nat) : Bool :=
  decide (agent ≥ 2 ^ 32) || (!s.msgs.any (fun m => decide (m.since ≤ added) && m.writesIn agent scope false) &&
    (scope.toNat < 2 || (smFind (s.getTile (agentTile agent)).tracked added).isNone))

end Sys2Proof.Machine
end

