-- ==== Sys2Proof/Machine/Conc.lean ====
section
/-! DEFINITION. The Concordance (R236-R250): atomics and reductions at their home, phasers, and its overflow area. -/

namespace Sys2Proof.Machine

/-! Commands and replies (R46-R48) -/

/-- The command a message carries. -/
def MsgKind.cmd? : MsgKind → Option SyncCmd
  | .cmd c => some c
  | _ => none

/-- Sends the reply of a command; a command without a reply address gets none, but an atomic's timestamp still returns to its agent (R218). -/
def State.reply (s : State) (m : Msg) (c : SyncCmd) (ok : Bool) (data : Word) (time : BitVec 32) (line : Option (BitVec 512)) : State :=
  if c.reply = .none && !(ok && atomicCode c.code.toNat) then s
  else (s.sendBack m.die m.agent m.owner (.rep c.reply c.code c.fmt ok data time line)).ofRun m.run

/-- A command that faults (R47): it is answered with a fault reply, and its launch faults. -/
def State.cmdFault (s : State) (k : Nat) (m : Msg) (c : SyncCmd) (cause : Nat) : State :=
  ((s.dropMsg k).reply m c false (BitVec.ofNat 64 cause) 0 none).faultLaunch m.owner cause (agentTile m.agent) (c.addr % 2 ^ 56)

/-- The class of a command's replies. -/
def replyCls (code : Nat) : Nat := if atomicCode code then 0 else 3

/-! The Concordance's SRAM (R237) -/

/-- The key of a phaser and of a held line in the order of last use. -/
def phKey (off : Nat) : Nat := 2 * off
/-- The key of a held line. -/
def lineKey (line : Nat) : Nat := 2 * line + 1

/-- The bytes of a record with its member entries. -/
def Phaser.bytes (p : Phaser) : Nat := 64 + 16 * p.members.length

/-- The bytes the Concordance holds in its SRAM, or has moved to its overflow area. -/
def Die.concBytes (d : Die) (spilled : Bool) : Nat :=
  ((d.phasers.filter fun e => e.2.spilled == spilled).map fun e => e.2.bytes).sum +
    64 * (if spilled then d.heldOut.length else d.held.length)

/-- Marks a content as the latest used. -/
def Die.use (d : Die) (key : Nat) : Die := { d with recent := key :: d.recent.filter (· != key) }

/-- Moves the least recently used content but `key` to the overflow area. -/
def Die.spillOne (d : Die) (key : Nat) : Option Die :=
  match (d.recent.filter (· != key)).getLast? with
  | none => none
  | some x =>
    let area := (ovfArea (smGet 0 d.regs 0x510).toNat).2
    let d' := { d with recent := d.recent.filter (· != x) }
    let d' := if x % 2 = 0 then
        (match smFind d'.phasers (x / 2) with | some p => { d' with phasers := smPut d'.phasers (x / 2) { p with spilled := true } } | none => d')
      else { d' with held := d'.held.filter (· != x / 2), heldOut := if d'.held.contains (x / 2) then x / 2 :: d'.heldOut else d'.heldOut }
    if d'.concBytes true > area then none else some d'

/-- Makes room in the 4 MiB: least recently used contents move out until the rest fits; none when the overflow area is full. -/
def Die.fit (key : Nat) : Nat → Die → Option Die
  | 0, _ => none
  | n + 1, d => if d.concBytes false ≤ 2 ^ 22 then some d else (d.spillOne key).bind (Die.fit key n)

/-- A content is used or added: the die with room made for it, none when the overflow area is full (R237). -/
def Die.take (d : Die) (key : Nat) : Option Die := (d.use key).fit key (d.recent.length + 2)

/-! Atomics (R238-R241) -/

/-- The new word of an integer atomic on `n` bits (R239). -/
def atomicInt (op n old a b : Nat) : Nat :=
  match op with
  | 0x01 => (old + a) % 2 ^ n
  | 0x02 => wrapNat ((old : Int) - a) n
  | 0x03 => old &&& a
  | 0x04 => old ||| a
  | 0x05 => old ^^^ a
  | 0x06 => if sextNat old n ≤ sextNat a n then old else a
  | 0x07 => if sextNat old n ≤ sextNat a n then a else old
  | 0x08 => min old a
  | 0x09 => max old a
  | 0x0A => a
  | _ => if old = a then b else old

/-- FADD (R240): one rounding with RNE; an exact zero sum is −0 only when both terms are. -/
def atomicFadd (old a : Nat) : Nat := (roundFp fp32 .rne false 0 (exactSum false [fp32.decode old, fp32.decode a])).code

/-- hmix (R241). -/
def hmix (pa n h : Nat) : Nat :=
  let v := (pa % 2 ^ 32) ^^^ (pa / 2 ^ 32 * 2 ^ 12) ^^^ (n * 0x9E3779B9 % 2 ^ 32) ^^^ (h * 0x85EBCA6B % 2 ^ 32)
  let v := (v ^^^ (v >>> 16)) * 0x7FEB352D % 2 ^ 32
  let v := (v ^^^ (v >>> 15)) * 0x846CA68B % 2 ^ 32
  v ^^^ (v >>> 16)

/-- H2ADD.SR (R241): each FP16 half rounds stochastically with bits from the address and the count. -/
def atomicH2add (pa n old a : Nat) : Nat :=
  let half (h : Nat) : Nat :=
    (roundFp fp16 .sr false (hmix pa n h)
      (exactSum false [fp16.decode (bitsOf old (16 * h + 15) (16 * h)), fp16.decode (bitsOf a (16 * h + 15) (16 * h))])).code
  half 0 + half 1 * 2 ^ 16

/-- The formats R47 gives an atomic. -/
def atomicFmtOk (op : Nat) (fmt : BitVec 3) : Bool :=
  if op ≤ 0x0B then fmt == 0 || fmt == 1 else if op = 0x0C then fmt == 2 else fmt == 3

/-- Performs an atomic at its home (R218, R238). `op` is the returning form's code; `red` the RED form. -/
def State.atomic (s : State) (k op : Nat) (red : Bool) : Out :=
  match s.msgs[k]? with
  | some m =>
    match m.kind.cmd? with
    | some c =>
      if c.code.toNat ≠ op + (if red then 0x80 else 0) then s.stutter
      else match s.homeTurn k m c.addr with
      | .wait => s.stutter
      | .queue => .next (s.queueMsg k)
      | .go =>
        let die := homeDie c.addr
        let line := c.addr / 64 * 64
        let n := if c.fmt = 0 then 8 else 4
        if !s.roomBack die m.agent 0 then s.stutter
        else if !atomicFmtOk op c.fmt || (n == 4 && (c.a.toNat ≥ 2 ^ 32 || c.b.toNat ≥ 2 ^ 32)) then .next (s.cmdFault k m c 0x81)
        else if (s.getDie die).heldOut.contains line then s.stutter
        else
          let s := s.fillLine line
          let ts := s.writeTs line c.aux
          if ts ≥ 2 ^ 32 then .next (s.askRebase die)
          else
            let d := s.getDie die
            match Die.take { d with held := if d.held.contains line then d.held else line :: d.held } (lineKey line) with
            | none => .next (s.cmdFault k m c 0x88)
            | some d' =>
              let s := s.modDie die fun _ => d'
              let old := memRead s.mem c.addr n
              let cnt := (s.reg die 0x520).toNat
              let new := if op = 0x0C then atomicFadd old c.a.toNat
                else if op = 0x0D then atomicH2add c.addr cnt old c.a.toNat
                else atomicInt op (8 * n) old (c.a.toNat % 2 ^ (8 * n)) (c.b.toNat % 2 ^ (8 * n))
              let s := if op = 0x0D then s.setReg die 0x520 (BitVec.ofNat 64 ((cnt + 1) % 2 ^ 32)) else s
              let s := (s.homeWrite c.addr n new (BitVec.ofNat 32 ts)).dropMsg k
              .next (if red then (s.sendBack die m.agent m.owner (.redAck (BitVec.ofNat 32 ts))).ofRun m.run
                else s.reply m c true (BitVec.ofNat 64 old) (BitVec.ofNat 32 ts) none)
    | none => s.stutter
  | none => s.stutter

/-- CMD_ADD (R238-R241). -/
def execCmdAdd (die k : Nat) (s : State) : Out := if (s.msgs[k]?.map Msg.die) = some die then s.atomic k 1 false else s.stutter

/-- CMD_SUB (R238-R241). -/
def execCmdSub (die k : Nat) (s : State) : Out := if (s.msgs[k]?.map Msg.die) = some die then s.atomic k 2 false else s.stutter

/-- CMD_AND (R238-R241). -/
def execCmdAnd (die k : Nat) (s : State) : Out := if (s.msgs[k]?.map Msg.die) = some die then s.atomic k 3 false else s.stutter

/-- CMD_OR (R238-R241). -/
def execCmdOr (die k : Nat) (s : State) : Out := if (s.msgs[k]?.map Msg.die) = some die then s.atomic k 4 false else s.stutter

/-- CMD_XOR (R238-R241). -/
def execCmdXor (die k : Nat) (s : State) : Out := if (s.msgs[k]?.map Msg.die) = some die then s.atomic k 5 false else s.stutter

/-- CMD_MIN (R238-R241). -/
def execCmdMin (die k : Nat) (s : State) : Out := if (s.msgs[k]?.map Msg.die) = some die then s.atomic k 6 false else s.stutter

/-- CMD_MAX (R238-R241). -/
def execCmdMax (die k : Nat) (s : State) : Out := if (s.msgs[k]?.map Msg.die) = some die then s.atomic k 7 false else s.stutter

/-- CMD_MINU (R238-R241). -/
def execCmdMinu (die k : Nat) (s : State) : Out := if (s.msgs[k]?.map Msg.die) = some die then s.atomic k 8 false else s.stutter

/-- CMD_MAXU (R238-R241). -/
def execCmdMaxu (die k : Nat) (s : State) : Out := if (s.msgs[k]?.map Msg.die) = some die then s.atomic k 9 false else s.stutter

/-- CMD_XCHG (R238-R241). -/
def execCmdXchg (die k : Nat) (s : State) : Out := if (s.msgs[k]?.map Msg.die) = some die then s.atomic k 10 false else s.stutter

/-- CMD_CAS (R238-R241). -/
def execCmdCas (die k : Nat) (s : State) : Out := if (s.msgs[k]?.map Msg.die) = some die then s.atomic k 11 false else s.stutter

/-- CMD_FADD (R238-R241). -/
def execCmdFadd (die k : Nat) (s : State) : Out := if (s.msgs[k]?.map Msg.die) = some die then s.atomic k 12 false else s.stutter

/-- CMD_H2ADD_SR (R238-R241). -/
def execCmdH2addSr (die k : Nat) (s : State) : Out := if (s.msgs[k]?.map Msg.die) = some die then s.atomic k 13 false else s.stutter

/-- CMD_RED_ADD (R218): acknowledged only. -/
def execCmdRedAdd (die k : Nat) (s : State) : Out := if (s.msgs[k]?.map Msg.die) = some die then s.atomic k 1 true else s.stutter

/-- CMD_RED_SUB (R218): acknowledged only. -/
def execCmdRedSub (die k : Nat) (s : State) : Out := if (s.msgs[k]?.map Msg.die) = some die then s.atomic k 2 true else s.stutter

/-- CMD_RED_AND (R218): acknowledged only. -/
def execCmdRedAnd (die k : Nat) (s : State) : Out := if (s.msgs[k]?.map Msg.die) = some die then s.atomic k 3 true else s.stutter

/-- CMD_RED_OR (R218): acknowledged only. -/
def execCmdRedOr (die k : Nat) (s : State) : Out := if (s.msgs[k]?.map Msg.die) = some die then s.atomic k 4 true else s.stutter

/-- CMD_RED_XOR (R218): acknowledged only. -/
def execCmdRedXor (die k : Nat) (s : State) : Out := if (s.msgs[k]?.map Msg.die) = some die then s.atomic k 5 true else s.stutter

/-- CMD_RED_MIN (R218): acknowledged only. -/
def execCmdRedMin (die k : Nat) (s : State) : Out := if (s.msgs[k]?.map Msg.die) = some die then s.atomic k 6 true else s.stutter

/-- CMD_RED_MAX (R218): acknowledged only. -/
def execCmdRedMax (die k : Nat) (s : State) : Out := if (s.msgs[k]?.map Msg.die) = some die then s.atomic k 7 true else s.stutter

/-- CMD_RED_MINU (R218): acknowledged only. -/
def execCmdRedMinu (die k : Nat) (s : State) : Out := if (s.msgs[k]?.map Msg.die) = some die then s.atomic k 8 true else s.stutter

/-- CMD_RED_MAXU (R218): acknowledged only. -/
def execCmdRedMaxu (die k : Nat) (s : State) : Out := if (s.msgs[k]?.map Msg.die) = some die then s.atomic k 9 true else s.stutter

/-- CMD_RED_FADD (R218): acknowledged only. -/
def execCmdRedFadd (die k : Nat) (s : State) : Out := if (s.msgs[k]?.map Msg.die) = some die then s.atomic k 12 true else s.stutter

/-- CMD_RED_H2ADD_SR (R218): acknowledged only. -/
def execCmdRedH2addSr (die k : Nat) (s : State) : Out := if (s.msgs[k]?.map Msg.die) = some die then s.atomic k 13 true else s.stutter

/-! Phasers (R243-R250) -/

/-- The member entry of an agent. -/
def Phaser.member (p : Phaser) (agent : Nat) : Option PMember := p.members.find? fun m => m.agent == agent

/-- Changes the member entry of an agent. -/
def Phaser.modMember (p : Phaser) (agent : Nat) (f : PMember → PMember) : Phaser :=
  { p with members := p.members.map fun m => if m.agent == agent then f m else m }

/-- Modes of members: 1 SIG, 2 WAIT, 3 SIGWAIT (R31, R244). -/
def modeSignals (m : BitVec 2) : Bool := m == 1 || m == 3
/-- The mode waits. -/
def modeWaits (m : BitVec 2) : Bool := m == 2 || m == 3

/-- Binds an unnamed member to an agent that needs to signal, to wait, or both, and has no entry (R245). A member that has missed
no phase signals the phase in progress next. -/
def Phaser.bind (p : Phaser) (agent : Nat) (sig wait : Bool) : Option Phaser :=
  match p.member agent with
  | some m => if (!sig || modeSignals m.mode) && (!wait || modeWaits m.mode) then some p else none
  | none =>
    let entry (mode : BitVec 2) : List PMember := p.members ++ [⟨agent, mode, p.phase, none, none⟩]
    if sig && !wait && p.freeSig > 0 then some { p with members := entry 1, freeSig := p.freeSig - 1 }
    else if wait && !sig && p.freeWait > 0 then some { p with members := entry 2, freeWait := p.freeWait - 1 }
    else if p.freeSw > 0 then some { p with members := entry 3, freeSw := p.freeSw - 1 }
    else none

/-- What a signal comes to (R247). -/
inductive SigRes where
  | counted (p : Phaser)
  | overrun
  deriving DecidableEq, Repr

/-- Counts or holds a signal of a bound member (R247). -/
def Phaser.signal (p : Phaser) (m : PMember) (whw : BitVec 32) : SigRes :=
  let moved (q : Phaser) : Phaser := q.modMember m.agent fun x => { x with next := x.next + 1 }
  if m.next = p.phase then .counted (moved { p with arr0 := p.arr0 + 1, whw0 := tsMax p.whw0 whw })
  else if m.next = p.phase + 1 then .counted (moved { p with arr1 := p.arr1 + 1, whw1 := tsMax p.whw1 whw })
  else if m.next = p.phase + 2 && m.held.isNone then
    .counted ((moved p).modMember m.agent fun x => { x with held := some whw })
  else .overrun

/-- Step 3 of a completion: a drop that takes effect leaves, and both sets of counts fall by it. -/
def Phaser.leave (p : Phaser) (m : PMember) : Phaser :=
  let p := { p with members := p.members.filter fun x => x.agent != m.agent }
  if m.mode = 1 then { p with nsig := p.nsig - 1, nsig1 := p.nsig1 - 1 }
  else if m.mode = 2 then { p with nwait := p.nwait - 1, nwait1 := p.nwait1 - 1 }
  else { p with nsw := p.nsw - 1, nsw1 := p.nsw1 - 1 }

/-- Completes the phase in progress (R247 steps 1 to 4) with an error code; PH.ERR and a fault give one (R249). -/
def Phaser.complete (p : Phaser) (time : BitVec 64) (lerr : BitVec 8) : Phaser :=
  let done := p.phase
  let p := { p with lerr := lerr, ferr := if p.ferr = 0 then lerr else p.ferr, whw := tsMax p.whw p.whw0, ctime := time,
                    phase := p.phase + 1 }
  let p := { p with nsig := p.nsig1, nwait := p.nwait1, nsw := p.nsw1, arr0 := p.arr1, whw0 := p.whw1, arr1 := 0, whw1 := 0 }
  let p := { p with members := p.members.map fun (m : PMember) => if modeSignals m.mode && m.next == done then { m with next := m.next + 1 } else m }
  let p := (p.members.filter fun m => m.dropAt == some done).foldl Phaser.leave p
  (p.members.filter fun m => m.held.isSome).foldl (fun p m =>
    Phaser.modMember { p with arr1 := p.arr1 + 1, whw1 := tsMax p.whw1 (m.held.getD 0) } m.agent fun x => { x with held := none }) p

/-- The phase in progress completes (R247). -/
def Phaser.full (p : Phaser) : Bool :=
  decide (p.nsig.toNat + p.nsw.toNat ≥ 1) && decide (p.arr0.toNat = p.nsig.toNat + p.nsw.toNat)

/-- A phase is complete (R248). -/
def Phaser.isDone (p : Phaser) (w : BitVec 32) : Bool := (p.phase - w - 1).toNat < 2 ^ 31

/-- The answer to a wait: phase − 1 and lerr (R248). -/
def Phaser.answer (p : Phaser) : Word := BitVec.ofNat 64 ((p.phase - 1).toNat + p.lerr.toNat * 2 ^ 32)

/-- Answers the waiters whose phase is complete, in the order they joined (R247 step 5). -/
def State.answerWaiters (s : State) (die off : Nat) : State :=
  let d := s.getDie die
  match smFind d.phasers off with
  | none => s
  | some p =>
    let ready := p.waiters.filter fun w => p.isDone w.phase
    let s := s.modDie die fun d => { d with phasers := smPut d.phasers off { p with waiters := p.waiters.filter fun w => !p.isDone w.phase } }
    ready.foldl (fun s w =>
      if w.reply = .none then s else s.sendBack die w.agent w.owner (.rep w.reply w.code 0 true p.answer p.whw none)) s

/-- Completes phases while the condition holds, one after the other (R247 step 6). -/
def State.runPhases (die off : Nat) : Nat → State → State
  | 0, s => s
  | n + 1, s =>
    match smFind (s.getDie die).phasers off with
    | some p =>
      if p.full then
        let s := s.modDie die fun d => { d with phasers := smPut d.phasers off (p.complete s.timeNs 0) }
        State.runPhases die off n (s.answerWaiters die off)
      else s
    | none => s

/-- Writes a phaser record with its rebase tag (R243) and completes the phases it makes complete. -/
def State.putPhaser (s : State) (die off : Nat) (p : Phaser) : State :=
  let p := { p with tag := s.rebases.setWidth 8 }
  State.runPhases die off 4 (s.modDie die fun d => { d with phasers := smPut d.phasers off p })

/-- Completes the phase in progress in error (R249). -/
def State.phaserError (s : State) (die off : Nat) (code : BitVec 8) : State :=
  match smFind (s.getDie die).phasers off with
  | none => s
  | some p =>
    let s := s.modDie die fun d => { d with phasers := smPut d.phasers off { p.complete s.timeNs code with tag := s.rebases.setWidth 8 } }
    State.runPhases die off 4 (s.answerWaiters die off)

/-- The offset of a flat address in the sync space of its die, and the die (R236). -/
def syncPlace (flat : Nat) : Nat × Nat := ((flat - syncBase 0) / 2 ^ 32, (flat - syncBase 0) % 2 ^ 32)

/-- The member of a mode that a signal of an agent outside the fabric binds: a work entry (R323). -/
def State.signalAs (s : State) (flat agent : Nat) (whw : BitVec 32) : State :=
  let pl := syncPlace flat
  match smFind (s.getDie pl.1).phasers pl.2 with
  | none => s
  | some p =>
    match p.bind agent true false with
    | none => s
    | some p => match p.member agent with
      | none => s
      | some m => match p.signal m whw with
        | .counted p => s.putPhaser pl.1 pl.2 p
        | .overrun => s

/-- The checks common to the PH commands: the message's turn, the phaser range (0x81), the record (0x89) and its place in the
SRAM (R236, R237, R250). -/
def State.phCmd (s : State) (k code : Nat) (go : Msg → SyncCmd → Nat → Phaser → Out) : Out :=
  match s.msgs[k]? with
  | some m =>
    match m.kind.cmd? with
    | some c =>
      let pl := syncPlace c.addr
      let first := s.noneBefore k fun e => e.arrived && e.agent == m.agent && e.die == m.die && e.kind.cmd?.isSome
      if c.code.toNat ≠ code || !m.arrived || !first || !s.roomBack m.die m.agent 3 then s.stutter
      else if c.fmt ≠ 0 || pl.2 ≥ 0x80000000 then .next (s.cmdFault k m c 0x81)
      else match smFind (s.getDie m.die).phasers pl.2 with
        | none => .next (s.cmdFault k m c 0x89)
        | some p => if p.spilled then s.stutter else go m c pl.2 p
    | none => s.stutter
  | none => s.stutter

/-- Writes a phaser after a command, makes room for it (R237) and answers the command. -/
def State.phDone (s : State) (k : Nat) (m : Msg) (c : SyncCmd) (off : Nat) (p : Phaser) : Out :=
  let s1 := s.modDie m.die fun d => { d with phasers := smPut d.phasers off p }
  match (s1.getDie m.die).take (phKey off) with
  | none => .next (s.cmdFault k m c 0x88)
  | some d => .next ((((s.dropMsg k).modDie m.die fun _ => d).putPhaser m.die off p).reply m c true 0 0 none)

/-- CMD_PH_REG (R246). -/
def execCmdPhReg (die k : Nat) (s : State) : Out := s.phCmd k 0x20 fun m c off p =>
  let mode := c.a.toNat
  if m.die ≠ die then s.stutter
  else if (p.member m.agent).isSome || mode = 0 || mode > 3 then .next (s.cmdFault k m c 0x86)
  else
    let now := p.nsig.toNat + p.nsw.toNat == 0 && p.arr0 == 0
    let p := { p with members := p.members ++ [(⟨m.agent, BitVec.ofNat 2 mode, if now then p.phase else p.phase + 1, none, none⟩ : PMember)] }
    let up (b : Bool) (x : BitVec 16) : BitVec 16 := if b then x + 1 else x
    let p := { p with nsig1 := up (mode == 1) p.nsig1, nwait1 := up (mode == 2) p.nwait1, nsw1 := up (mode == 3) p.nsw1,
                      nsig := up (now && mode == 1) p.nsig, nwait := up (now && mode == 2) p.nwait, nsw := up (now && mode == 3) p.nsw }
    s.phDone k m c off p

/-- CMD_PH_DROP (R246): the drop takes effect at the boundary after the later of the phase in progress and the last phase the
member has signalled. -/
def execCmdPhDrop (die k : Nat) (s : State) : Out := s.phCmd k 0x21 fun m c off p =>
  if m.die ≠ die then s.stutter
  else match p.member m.agent with
  | none => .next (s.cmdFault k m c 0x86)
  | some e =>
    if e.dropAt.isSome then .next (s.cmdFault k m c 0x86)
    else
      let last := if modeSignals e.mode && (e.next - 1 - p.phase).toNat < 2 ^ 31 then e.next - 1 else p.phase
      s.phDone k m c off (p.modMember m.agent fun x => { x with dropAt := some last })

/-- Counts a signal of a command's agent; a sequencer's signal that would overrun waits (R247). A PH.SW by a SIG member signals, and its wait
then faults (R79, R248). -/
def State.signalCmd (s : State) (k : Nat) (m : Msg) (c : SyncCmd) (p : Phaser) (wait : Bool) (go : Phaser → Out) : Out :=
  match (p.bind m.agent true wait).or (if wait then p.bind m.agent true false else none) with
  | none => .next (s.cmdFault k m c 0x86)
  | some p =>
    match p.member m.agent with
    | none => .next (s.cmdFault k m c 0x86)
    | some e =>
      match p.signal e (c.a.extractLsb' 32 32) with
      | .counted p =>
        if wait && !modeWaits e.mode then .next ((s.putPhaser m.die (syncPlace c.addr).2 p).cmdFault k m c 0x86) else go p
      | .overrun => if agentIsSeq m.agent then s.stutter else .next (s.cmdFault k m c 0x87)

/-- CMD_PH_SIG (R247). -/
def execCmdPhSig (die k : Nat) (s : State) : Out := s.phCmd k 0x22 fun m c off p =>
  if m.die ≠ die then s.stutter else s.signalCmd k m c p false fun p => s.phDone k m c off p

/-- Joins the wait list (R248); a wait for a complete phase is answered at once. -/
def Phaser.join (p : Phaser) (m : Msg) (c : SyncCmd) : Phaser :=
  { p with waiters := p.waiters ++ [⟨m.agent, m.owner, c.code, c.a.setWidth 32, c.reply⟩] }

/-- Writes a phaser with a waiter joined and answers every waiter that is due. -/
def State.phWaitDone (s : State) (k : Nat) (m : Msg) (c : SyncCmd) (off : Nat) (p : Phaser) : Out :=
  let s1 := s.modDie m.die fun d => { d with phasers := smPut d.phasers off p }
  match (s1.getDie m.die).take (phKey off) with
  | none => .next (s.cmdFault k m c 0x88)
  | some d => .next ((((s.dropMsg k).modDie m.die fun _ => d).putPhaser m.die off p).answerWaiters m.die off)

/-- CMD_PH_WAIT (R248). -/
def execCmdPhWait (die k : Nat) (s : State) : Out := s.phCmd k 0x23 fun m c off p =>
  if m.die ≠ die then s.stutter
  else match p.bind m.agent false true with
  | none => .next (s.cmdFault k m c 0x86)
  | some p => s.phWaitDone k m c off (p.join m c)

/-- CMD_PH_SW: as PH.SIG, then as PH.WAIT (R79, R247, R248). -/
def execCmdPhSw (die k : Nat) (s : State) : Out := s.phCmd k 0x24 fun m c off p =>
  if m.die ≠ die then s.stutter else s.signalCmd k m c p true fun p => s.phWaitDone k m c off (p.join m c)

/-- CMD_PH_ERR (R249): completes the phase in progress at once with the code. -/
def execCmdPhErr (die k : Nat) (s : State) : Out := s.phCmd k 0x25 fun m c off p =>
  if m.die ≠ die then s.stutter
  else .next ((((s.dropMsg k).modDie m.die fun d => { d with phasers := smPut d.phasers off p }.use (phKey off)).phaserError m.die off
    (c.a.setWidth 8)).reply m c true 0 0 none)

/-- The 64-byte record as PH.READ writes it (R243). -/
def Phaser.record (p : Phaser) : BitVec 512 :=
  BitVec.ofNat 512 (p.phase.toNat + p.nsig.toNat * 2 ^ 32 + p.nwait.toNat * 2 ^ 48 + p.nsw.toNat * 2 ^ 64 + p.arr0.toNat * 2 ^ 80 +
    p.arr1.toNat * 2 ^ 96 + p.nsig1.toNat * 2 ^ 112 + p.nwait1.toNat * 2 ^ 128 + p.nsw1.toNat * 2 ^ 144 + p.lerr.toNat * 2 ^ 160 +
    p.ferr.toNat * 2 ^ 168 + (1 + if p.spilled then 2 else 0) * 2 ^ 176 + p.tag.toNat * 2 ^ 184 + p.whw.toNat * 2 ^ 192 +
    p.whw0.toNat * 2 ^ 224 + p.whw1.toNat * 2 ^ 256 + p.waiters.length % 2 ^ 32 * 2 ^ 288 + p.members.length % 2 ^ 32 * 2 ^ 320 +
    p.ctime.toNat * 2 ^ 384)

/-- CMD_PH_READ (R250): a copy of the record, taken in a single clk. -/
def execCmdPhRead (die k : Nat) (s : State) : Out := s.phCmd k 0x26 fun m c off p =>
  if m.die ≠ die then s.stutter
  else .next (((s.dropMsg k).modDie m.die fun d => d.use (phKey off)).reply m c true 0 0 (some p.record))

/-! Phaser control (R245) -/

/-- Ends a PH_CTL operation with a status. -/
def State.phEnd (s : State) (die status : Nat) : State :=
  s.setReg die 0x508 (setBits (setBits (s.reg die 0x508) 63 63 0) 60 58 status)

/-- A PH_CTL operation is asked for. -/
def State.phAsked (s : State) (die op : Nat) : Bool :=
  decide (die < 16) && bitOf (s.reg die 0x508).toNat 63 && bitsOf (s.reg die 0x508).toNat 62 61 == op

/-- A new record at phase 0 with unnamed members (R245). -/
def Phaser.create (nsig nwait nsw : Nat) (tag : BitVec 8) : Phaser :=
  { phase := 0, nsig := BitVec.ofNat 16 nsig, nwait := BitVec.ofNat 16 nwait, nsw := BitVec.ofNat 16 nsw, arr0 := 0, arr1 := 0,
    nsig1 := BitVec.ofNat 16 nsig, nwait1 := BitVec.ofNat 16 nwait, nsw1 := BitVec.ofNat 16 nsw, lerr := 0, ferr := 0,
    spilled := false, tag := tag, whw := 0, whw0 := 0, whw1 := 0, ctime := 0, freeSig := nsig, freeWait := nwait,
    freeSw := nsw, members := [], waiters := [] }

/-- The folio loader creates the phaser records of an image as create does, where none exists (R49, R245), and the image is loaded. -/
def State.loadImage (s : State) (f : Folio) : State :=
  let s := f.phasers.foldl (fun s x =>
    let d := s.getDie x.die
    if (smFind d.phasers x.off).isSome then s
    else match Die.take { d with phasers := smPut d.phasers x.off (Phaser.create x.nsig.toNat x.nwait.toNat x.nsw.toNat (s.rebases.setWidth 8)) }
        (phKey x.off) with
      | some d => s.modDie x.die fun _ => d
      | none => s) s
  { s with folios := s.folios ++ [f] }

/-- PH_CREATE (R245). A reserved op or bit is refused with status 3 by whichever of the two events reads it. -/
def execPhCreate (die : Nat) (s : State) : Out :=
  let c := (s.reg die 0x508).toNat
  if s.phAsked die 2 || s.phAsked die 3 then .next (s.phEnd die 3)
  else if !s.phAsked die 0 then s.stutter
  else if bitsOf c 57 48 ≠ 0 then .next (s.phEnd die 3)
  else
    let off := bitsOf (s.reg die 0x500).toNat 30 6 * 64
    let d := s.getDie die
    if (smFind d.phasers off).isSome then .next (s.phEnd die 2)
    else
      let p := Phaser.create (bitsOf c 47 32) (bitsOf c 31 16) (bitsOf c 15 0) (s.rebases.setWidth 8)
      match Die.take { d with phasers := smPut d.phasers off p } (phKey off) with
      | none => .next (s.phEnd die 4)
      | some d => .next ((s.modDie die fun _ => d).phEnd die 1)

/-- PH_DESTROY (R245). -/
def execPhDestroy (die : Nat) (s : State) : Out :=
  if !s.phAsked die 1 then s.stutter
  else if bitsOf (s.reg die 0x508).toNat 57 48 ≠ 0 then .next (s.phEnd die 3)
  else
    let off := bitsOf (s.reg die 0x500).toNat 30 6 * 64
    match smFind (s.getDie die).phasers off with
    | none => .next (s.phEnd die 2)
    | some p =>
      if !p.waiters.isEmpty then .next (s.phEnd die 2)
      else .next ((s.modDie die fun d => { d with phasers := smDel d.phasers off, recent := d.recent.filter (· != phKey off) }).phEnd die 1)

end Sys2Proof.Machine
end

