-- ==== Sys2Proof/Machine/Launches.lean ====
section
/-! DEFINITION. Launch records (R81): reading one at its home, its limits, and the launch it makes. -/

namespace Sys2Proof.Machine

/-- The JOBDIR of a die. -/
def State.jobdir (s : State) (die : Nat) : Nat := (s.reg die 0x000).toNat

/-- The target of an address as an engine of a die sees it, with the permission it needs; none where the walk or the permission
fails. -/
def State.engineTarget (s : State) (die : Nat) (vmid : BitVec 16) (va : Nat) (need : Need) : Option Target :=
  if va ≥ 2 ^ 56 then none
  else match walkPage s.mem (s.jobdir die) vmid (va / 2 ^ 16) with
  | .leaf pte size => if permOk need pte then some (leafTarget pte size va) else none
  | .fail _ _ => none

/-- Two 64-byte halves of a launch record on type-0 pages with R, and the home of the first. -/
def State.recordBytes (s : State) (die : Nat) (vmid : BitVec 16) (va : Nat) : Option (Nat × Nat) :=
  if va % 64 ≠ 0 then none
  else match s.engineTarget die vmid va .r, s.engineTarget die vmid (va + 64) .r with
  | some a, some b =>
    if a.ty = 0 && b.ty = 0 then some (memRead s.mem a.flat 64 + memRead s.mem b.flat 64 * 2 ^ 512, a.home) else none
  | _, _ => none

/-- The bytes of a launch record wherever they translate, on a page of any type and permission, that its limits may be found broken (R81). -/
def State.recordRaw (s : State) (die : Nat) (vmid : BitVec 16) (va : Nat) : Nat → Option Nat
  | 0 => some 0
  | n + 1 =>
    if va ≥ 2 ^ 56 then none
    else match walkPage s.mem (s.jobdir die) vmid (va / 2 ^ 16), s.recordRaw die vmid (va + 1) n with
    | .leaf pte size, some r =>
      let t := leafTarget pte size va
      some ((if t.ty.toNat ≤ 2 then (memByte s.mem t.flat).toNat else s.targetRead (hostAgent 0) t.ty t.flat 1) + 256 * r)
    | _, _ => none

/-- Bytes [i, i + n) of a record. -/
def recField (r i n : Nat) : Nat := bitsOf r (8 * (i + n) - 1) (8 * i)

/-- The loaded Oligil image of a job at an address. -/
def State.folioAt (s : State) (vmid : BitVec 16) (va : Nat) : Option Nat :=
  findIdxFrom (fun f : Folio => f.va == va && f.vmid == vmid && !f.service) s.folios 0

/-- The folio a launch runs. -/
def State.folio (s : State) (l : Launch) : Folio := s.folios.getD l.folio default

/-- The launch a record describes, waiting for its tiles. -/
def Launch.ofRecord (r : Nat) (va : Nat) (vmid : BitVec 16) (folio : Nat) (q : QRec) (age : Nat) : Launch :=
  { Launch.blank with
    record := va, vmid := vmid, folio := folio, entry := recField r 8 4, die := bitsOf (recField r 12 4) 8 5,
    dieFixed := bitOf (recField r 12 4) 9, args := BitVec.ofNat 64 (recField r 16 8), budget := recField r 24 4,
    refill := recField r 28 4, phaser := recField r 32 8, colophon := recField r 40 8, saveArea := recField r 48 8,
    spillArea := recField r 56 8, cls := BitVec.ofNat 3 (recField r 64 1), scope := BitVec.ofNat 2 (recField r 65 1),
    qwcHold := recField r 66 1 == 1, id := BitVec.ofNat 32 (recField r 68 4), graph := BitVec.ofNat 32 (recField r 72 4),
    whw := q.whw, recScope := q.scope, producer := q.agent, added := q.added, age := age, charge := 0 }

/-- The completion phaser of a record is one: a type-6 page and an offset in the phaser range (R236). -/
def State.phaserOk (s : State) (die : Nat) (vmid : BitVec 16) (va : Nat) : Bool :=
  match s.engineTarget die vmid va .w with
  | some t => t.ty == 6 && (t.flat - syncBase 0) % 2 ^ 32 < 0x80000000 && t.flat % 64 == 0
  | none => false

/-- The state of a graph, 0 where it does not exist. -/
def State.graphState (s : State) (vmid : BitVec 16) (g : BitVec 32) : BitVec 3 :=
  match s.workIdx vmid 1 g with
  | some i => (match s.work[i]? with | some w => w.state | none => 0)
  | none => 0

/-- A record keeps the limits of R81, and names a graph that exists (R322). -/
def State.recordOk (s : State) (die : Nat) (vmid : BitVec 16) (r : Nat) : Bool :=
  (match s.folioAt vmid (recField r 0 8) with
   | some i =>
     let f := s.folios.getD i default
     recField r 8 4 % 8 == 0 && decide (recField r 8 4 / 8 < f.steps.length) &&
       bitsOf (recField r 12 4) 4 0 == f.region.length && decide (1 ≤ f.region.length) && decide (f.region.length ≤ 16)
   | none => false) &&
  bitsOf (recField r 12 4) 31 10 == 0 && recField r 24 4 != 0 && recField r 28 4 != 0 &&
  s.phaserOk die vmid (recField r 32 8) && recField r 40 8 % 64 == 0 && recField r 48 8 % 64 == 0 && recField r 56 8 % 64 == 0 &&
  decide (recField r 64 1 < 8) && decide (recField r 65 1 < 4) && decide (recField r 66 1 < 2) && recField r 67 1 == 0 &&
  recField r 76 52 == 0 && (recField r 72 4 == 0 || s.graphState vmid (BitVec.ofNat 32 (recField r 72 4)) != 0)

/-- The Maltster takes a record (R81, R322, R337): a launch that waits for its tiles, one that faults with bad-launch-record, or
one that is discarded with its graph. `bad` marks a record whose bytes 8 to 63 are not zero (R253). A launch record that no translation
reaches names no colophon and no phaser, and the Vault alone records the fault (log 39). -/
def State.takeRecord (s : State) (die : Nat) (vmid : BitVec 16) (q : QRec) (bad : Bool) : State :=
  let va := q.data.toNat % 2 ^ 64
  match (s.recordBytes die vmid va).map (·.1) |>.or (s.recordRaw die vmid va 128) with
  | none => s.vault die ⟨0x03, 0x6A, 0, placeTile (die * 100), 0, vmid.toNat, va⟩
  | some r =>
    let u := s.stamp
    let l := Launch.ofRecord r va vmid ((s.folioAt vmid (recField r 0 8)).getD s.folios.length) q u
    let s := { s with stamp := s.stamp + 1, launches := smPut s.launches u l }
    if bad || (s.recordBytes die vmid va).isNone || !s.recordOk die vmid r then s.faultLaunch u 0x6A (die * 100) va
    else
      let g := s.graphState vmid l.graph
      if l.graph ≠ 0 && (g == 4 || g == 5) then
        match s.workIdx vmid 1 l.graph with
        | some i => (match s.work[i]? with | some w => s.discard w.causeDie w.causeTile u | none => s)
        | none => s
      else s

/-- The graph that a queued record names. -/
def State.recordGraph (s : State) (die : Nat) (vmid : BitVec 16) (va : Nat) : BitVec 32 :=
  match s.recordBytes die vmid va with
  | some (r, _) => BitVec.ofNat 32 (recField r 72 4)
  | none => 0

/-- A graph's counter rises by one (R321). -/
def State.countGraph (s : State) (vmid : BitVec 16) (g : BitVec 32) : State :=
  if g = 0 then s
  else match s.workIdx vmid 1 g with
  | some i => s.modWork i fun w => { w with count := w.count + 1 }
  | none => s

end Sys2Proof.Machine
end

