-- ==== Sys2Proof/Machine/Granary.lean ====
section
/-! DEFINITION. The Granary (R251-R258): queues, reservations and staging slots, records, takers, prefetch buffers, widening, the
overflow areas of both engines (R237) and the host launch window. -/

namespace Sys2Proof.Machine

/-- The staging slots of a die. -/
def slotCount : Nat := 131072
/-- The staging line of a slot. -/
def stageFlat (die k : Nat) : Nat := syncBase die + 0x80000000 + 64 * k
/-- A queue id's die and index. -/
def queuePlace (id : Nat) : Nat × Nat := (bitsOf id 19 16, bitsOf id 15 0)
/-- A queue. -/
def Die.queue (d : Die) (q : Nat) : Queue := smGet Queue.reset d.queues q
/-- Writes a queue. -/
def Die.setQueue (d : Die) (q : Nat) (x : Queue) : Die := { d with queues := smPut d.queues q x }
/-- Writes a queue of a die. -/
def State.setQueue (s : State) (die q : Nat) (x : Queue) : State := s.modDie die fun d => d.setQueue q x
/-- A queue of a die. -/
def State.queue (s : State) (die q : Nat) : Queue := (s.getDie die).queue q

/-- A reservation or a resident record holds a slot. -/
def Die.slotUsed (d : Die) (k : Nat) : Bool :=
  d.queues.any fun e => e.2.rsvs.any (fun r => r.1 == k) || e.2.recs.any fun r => r.slot == k && !r.spilled

/-- The first free slot at or after a place, in a circle. -/
def Die.freeSlot (d : Die) (k : Nat) : Nat → Option Nat
  | 0 => none
  | n + 1 => if d.slotUsed (k % slotCount) then d.freeSlot (k + 1) n else some (k % slotCount)

/-- The stamp of the least recently used resident record. -/
def Die.oldestRec (d : Die) : Option Nat :=
  let all := d.queues.flatMap fun e => (e.2.recs.filter fun r => !r.spilled && r.slot < slotCount).map (·.stamp)
  match all with
  | [] => none
  | x :: r => some (r.foldl min x)

/-- Records that lie in the overflow area. -/
def Die.spilledRecs (d : Die) : Nat := (d.queues.map fun e => (e.2.recs.filter (·.spilled)).length).sum

/-- Moves the record with a stamp to the overflow area. -/
def Die.spillRec (d : Die) (x : Nat) : Die :=
  { d with queues := d.queues.map fun e =>
      (e.1, { e.2 with recs := e.2.recs.map fun r => if r.stamp == x then { r with spilled := true, slot := slotCount } else r }) }

/-- What asking for a slot gives. -/
inductive SlotRes where
  | slot (k : Nat) (d : Die)
  | wait
  | full

/-- A free slot (R237, R252): any free one; when none is, the least recently used record moves to the overflow area; when every
slot is held by reservations the request waits. -/
def Die.takeSlot (d : Die) (start : Nat) : SlotRes :=
  match d.freeSlot start slotCount with
  | some k => .slot k d
  | none =>
    match d.oldestRec with
    | none => .wait
    | some x =>
      if 64 * (d.spilledRecs + 1) > (ovfArea (smGet 0 d.regs 0x518).toNat).2 then .full
      else
        let d := d.spillRec x
        match d.freeSlot start slotCount with
        | some k => .slot k d
        | none => .wait

/-! Grants, deliveries -/

/-- The tile lies within the scope a record was released at (R257). -/
def recInScope (r : QRec) (tile : Nat) : Bool :=
  match r.scope.toNat with
  | 0 => agentTile r.agent == tile && r.agent < 2 ^ 32
  | 1 => tileDie (agentTile r.agent) == tileDie tile
  | _ => true

/-- A waiter of a queue faults its launch (R252): it gets a fault reply. -/
def State.refuseWaiter (s : State) (die : Nat) (w : QWaiter) (code : BitVec 8) (cause : Nat) : State :=
  (s.sendBack die w.agent w.owner (.rep (.seq w.tile) code 0 false (BitVec.ofNat 64 cause) 0 none)).faultLaunch w.owner cause w.tile 0

/-- The queue whose first waiting reservation arrived earliest, of those whose capacity allows one (R252). -/
def Die.nextRsv (d : Die) : Option (Nat × QWaiter × List QWaiter) :=
  d.queues.foldl (fun b e => match e.2.rsvWait with
    | [] => b
    | w :: r =>
      if e.2.recs.length + e.2.rsvs.length ≥ e.2.cap then b
      else match b with
      | some x => if w.stamp < x.2.1.stamp then some (e.1, w, r) else b
      | none => some (e.1, w, r)) none

/-- Grants a die's waiting reservations in the order they arrived, while their queues' capacity and the slots allow (R252). -/
def State.serveRsv (die : Nat) : Nat → State → State
  | 0, s => s
  | n + 1, s =>
    match (s.getDie die).nextRsv with
    | none => s
    | some (q, w, r) =>
        let x := s.queue die q
        let v := s.fresh
        match (v.2.getDie die).takeSlot v.1.toNat with
        | .wait => s
        | .full => State.serveRsv die n ((s.setQueue die q { x with rsvWait := r }).refuseWaiter die w 0x30 0x88)
        | .slot k d =>
          let s := v.2.modDie die fun _ => d
          let x := s.queue die q
          let s := s.setQueue die q { x with rsvWait := r, rsvs := smPut x.rsvs k w.owner }
          let s := { s with mem := memClear s.mem (stageFlat die k) 64 }
          let va := x.stage + BitVec.ofNat 64 (64 * k)
          let s := s.modLaunch w.owner fun l => { l with reservations := l.reservations ++ [(va.toNat, stageFlat die k)] }
          State.serveRsv die n (s.sendBack die w.agent w.owner (.rep (.seq w.tile) 0x30 0 true va 0 none))

/-- Delivers records to waiting takers in the order they arrived (R254): the oldest record goes to the first taker once it is
within the record's scope and in the SRAM; a closed queue with nothing left answers 1. -/
def State.serveTake (die q : Nat) : Nat → State → State
  | 0, s => s
  | n + 1, s =>
    let x := s.queue die q
    match x.takers, x.recs with
    | [], _ => s
    | w :: r, rec :: more =>
      if rec.spilled || !recInScope rec w.tile then s
      else
        let s := s.setQueue die q { x with takers := r, recs := more }
        State.serveTake die q n (s.sendBack die w.agent w.owner (.rep (.seq w.tile) 0x32 0 true 0 rec.whw (some rec.data)))
    | w :: r, [] =>
      if x.state == 2 && x.rsvs.isEmpty then
        State.serveTake die q n ((s.setQueue die q { x with takers := r }).sendBack die w.agent w.owner
          (.rep (.seq w.tile) 0x32 0 true 1 0 none))
      else s

/-- A queue serves its takers and then its waiting reservations; a freed slot serves every queue of the die (R252). -/
def State.serveQueue (s : State) (die q : Nat) : State :=
  let s := State.serveTake die q (s.queue die q).takers.length s
  State.serveRsv die ((s.getDie die).queues.map fun e => e.2.rsvWait.length).sum s

/-! The commands -/

/-- The checks common to the Granary commands: the message's turn among its agent's commands to the die. -/
def State.qCmd (s : State) (die k code : Nat) (go : Msg → SyncCmd → Out) : Out :=
  match s.msgs[k]? with
  | some m =>
    match m.kind.cmd? with
    | some c =>
      let first := s.noneBefore k fun e => e.arrived && e.agent == m.agent && e.die == m.die && e.kind.cmd?.isSome
      if m.die ≠ die || c.code.toNat ≠ code || !m.arrived || !first || !s.roomBack die m.agent 3 then s.stutter
      else if c.fmt ≠ 0 then .next (s.cmdFault k m c 0x81)
      else go m c
    | none => s.stutter
  | none => s.stutter

/-- CMD_Q_RSV (R252): a reservation joins the queue's order and is granted when capacity and a slot allow. -/
def execCmdQRsv (die k : Nat) (s : State) : Out := s.qCmd die k 0x30 fun m c =>
  let q := (queuePlace c.addr).2
  let x := s.queue die q
  if x.state ≠ 1 || x.kind.toNat > 1 || x.vmid ≠ c.vmid then .next (s.cmdFault k m c 0x85)
  else
    let n := s.nextStamp
    .next (((n.2.dropMsg k).setQueue die q { x with rsvWait := x.rsvWait ++ [⟨m.agent, m.owner, agentTile m.agent, n.1⟩] }).serveQueue die q)

/-- The queue whose reservation holds a slot. -/
def Die.rsvOf (d : Die) (k : Nat) : Option Nat := (d.queues.find? fun e => e.2.rsvs.any fun r => r.1 == k).map (·.1)

/-- A record becomes the newest of its queue (R253). A LAUNCH queue's record must name a launch record and nothing else. -/
def State.placeRec (s : State) (die q : Nat) (r : QRec) : State :=
  let x := s.queue die q
  let va := r.data.toNat % 2 ^ 64
  if x.kind = 1 && (r.data.toNat / 2 ^ 64 != 0 || va % 64 != 0 || decide (va ≥ 2 ^ 56)) then
    (s.countGraph x.vmid (s.recordGraph die x.vmid va)).takeRecord die x.vmid r true
  else
    let s := if x.kind = 1 then s.countGraph x.vmid (s.recordGraph die x.vmid va) else s
    s.setQueue die q { x with recs := x.recs ++ [r] }

/-- CMD_Q_ADD (R253): the staging line becomes the newest record of its queue, and its reservation ends. -/
def execCmdQAdd (die k : Nat) (s : State) : Out := s.qCmd die k 0x31 fun m c =>
  let slot := (c.addr - stageFlat die 0) / 64
  match (s.getDie die).rsvOf slot with
  | none => .next (s.cmdFault k m c 0x84)
  | some q =>
    let x := s.queue die q
    let s := (s.dropMsg k).setQueue die q { x with rsvs := smDel x.rsvs slot }
    let st := s.nextStamp
    let r : QRec := ⟨BitVec.ofNat 512 (memRead s.mem (stageFlat die slot) 64), c.b.setWidth 32, c.scope, m.agent, m.since,
      s.rebases.setWidth 8, slot, st.1, false⟩
    .next (((st.2.placeRec die q r).serveQueue die q).reply m c true 0 0 none)

/-- CMD_Q_TAKE (R254): the taker joins the queue's order and is served when a record is there. -/
def execCmdQTake (die k : Nat) (s : State) : Out := s.qCmd die k 0x32 fun m c =>
  let q := (queuePlace c.addr).2
  let x := s.queue die q
  if x.state = 0 || x.kind ≠ 0 || x.vmid ≠ c.vmid then .next (s.cmdFault k m c 0x85)
  else
    let n := s.nextStamp
    .next (((n.2.dropMsg k).setQueue die q { x with takers := x.takers ++ [⟨m.agent, m.owner, agentTile m.agent, n.1⟩] }).serveQueue die q)

/-! Overflow areas (R237) -/

/-- The phaser or held line that an arrived command at a die waits for in the Concordance's overflow area. -/
def State.concWant (s : State) (die : Nat) : Option (Nat × Nat) :=
  let d := s.getDie die
  let want (m : Msg) : Option Nat := match m.kind.cmd? with
    | some c =>
      if m.die ≠ die || !m.arrived then none
      else if atomicCode c.code.toNat then
        (if d.heldOut.contains (c.addr / 64 * 64) then some (lineKey (c.addr / 64 * 64)) else none)
      else match smFind d.phasers (syncPlace c.addr).2 with
        | some p => if p.spilled then some (phKey (syncPlace c.addr).2) else none
        | none => none
    | none => none
  match findIdxFrom (fun m => (want m).isSome) s.msgs 0 with
  | some k => (s.msgs[k]?.bind want).map fun x => (k, x)
  | none => none

/-- Brings a content of the Concordance back into its SRAM. -/
def Die.unspill (d : Die) (key : Nat) : Die :=
  if key % 2 = 0 then
    (match smFind d.phasers (key / 2) with | some p => { d with phasers := smPut d.phasers (key / 2) { p with spilled := false } } | none => d)
  else { d with heldOut := d.heldOut.filter (· != key / 2), held := key / 2 :: d.held }

/-- The queue whose oldest record lies in the overflow area. -/
def Die.granWant (d : Die) : Option Nat :=
  (d.queues.find? fun e => match e.2.recs with | r :: _ => r.spilled | [] => false).map (·.1)

/-- OVERFLOW_RETURN (R237): spilled contents return from the overflow area when they are next used. -/
def execOverflowReturn (die : Nat) (gran : Bool) (s : State) : Out :=
  if gran then
    match (s.getDie die).granWant with
    | none => s.stutter
    | some q =>
      let v := s.fresh
      let back (s : State) (slot : Nat) : Out :=
        let x := s.queue die q
        match x.recs with
        | r :: more =>
          let st := s.nextStamp
          .next ((st.2.setQueue die q { x with recs := { r with spilled := false, slot := slot, stamp := st.1 } :: more }).serveQueue die q)
        | [] => s.stutter
      match (v.2.getDie die).takeSlot v.1.toNat with
      | .slot k d => back (v.2.modDie die fun _ => d) k
      | _ => back v.2 slotCount
  else
    match s.concWant die with
    | none => s.stutter
    | some (k, key) =>
      match ((s.getDie die).unspill key).take key with
      | some d => .next (s.modDie die fun _ => d)
      | none =>
        match s.msgs[k]? with
        | some m => (match m.kind.cmd? with | some c => .next (s.cmdFault k m c 0x88) | none => s.stutter)
        | none => s.stutter

/-! Widening (R257) -/

/-- RELEASE_WIDEN (R257): the producer's tile has completed its writes at DIE or at PACKAGE, and the oldest record counts as
released at that scope. -/
def execReleaseWiden (die q : Nat) (wide : Bool) (s : State) : Out :=
  let x := s.queue die q
  let scope : BitVec 2 := if wide then 2 else 1
  match x.recs with
  | r :: more =>
    if r.scope.toNat < scope.toNat && s.producerDone r.agent scope r.added then
      .next ((s.setQueue die q { x with recs := { r with scope := scope } :: more }).serveQueue die q)
    else s.stutter
  | [] => s.stutter

/-! Prefetch buffers (R255) -/

/-- PREFETCH_FILL (R255): the oldest record of the queue of a tile's latest Q.TAKE moves into its buffer. -/
def execPrefetchFill (die q tile : Nat) (s : State) : Out :=
  let x := s.queue die q
  let t := s.getTile tile
  match x.recs with
  | r :: more =>
    if t.pre.queue = some (die * 2 ^ 16 + q) && t.owner.isSome && t.pre.recs.length < 2 && x.takers.isEmpty && !r.spilled &&
        recInScope r tile then
      let s := s.setQueue die q { x with recs := more }
      .next ((s.modTile tile fun t => { t with pre := { t.pre with recs := t.pre.recs ++ [{ r with slot := slotCount }] } }).serveQueue die q)
    else s.stutter
  | [] => s.stutter

/-- A tile's prefetch buffer returns its records to the head of their queue, in their order (R255). -/
def State.returnPrefetch (s : State) (tile : Nat) : State :=
  let t := s.getTile tile
  match t.pre.queue, t.pre.recs with
  | _, [] => s.modTile tile fun t => { t with pre := ⟨none, [], 0⟩ }
  | none, _ => s
  | some id, recs =>
    let p := queuePlace id
    let x := s.queue p.1 p.2
    let s := s.modTile tile fun t => { t with pre := ⟨none, [], 0⟩ }
    (s.setQueue p.1 p.2 { x with recs := recs ++ x.recs }).serveQueue p.1 p.2

/-- PREFETCH_RETURN (R255): 4,096 clk have passed without a take. -/
def execPrefetchReturn (tile : Nat) (s : State) : Out :=
  let t := s.getTile tile
  if t.pre.recs.isEmpty || decide (s.clk - t.pre.age < 4096) then s.stutter
  else
    let s1 := s.returnPrefetch tile
    .next (s1.modTile tile fun x => { x with pre := ⟨t.pre.queue, [], s.clk⟩ })

/-! Queue control (R251) -/

/-- Ends a QCTL operation with a status. -/
def State.qEnd (s : State) (die status : Nat) : State :=
  s.setReg die 0x408 (setBits (setBits (s.reg die 0x408) 63 63 0) 59 57 status)

/-- A QCTL operation is asked for. -/
def State.qAsked (s : State) (die op : Nat) : Bool :=
  decide (die < 16) && bitOf (s.reg die 0x408).toNat 63 && bitsOf (s.reg die 0x408).toNat 62 60 == op

/-- The queue QSEL names. -/
def State.qSel (s : State) (die : Nat) : Nat := bitsOf (s.reg die 0x400).toNat 11 0

/-- A reserved bit of QCTL is set. -/
def State.qReserved (s : State) (die : Nat) : Bool := bitOf (s.reg die 0x408).toNat 50 || bitsOf (s.reg die 0x408).toNat 15 0 != 0

/-- QUEUE_CREATE (R251). An op of 3 to 7 is refused as a reserved value by whichever of the three events reads it. -/
def execQueueCreate (die : Nat) (s : State) : Out :=
  let c := (s.reg die 0x408).toNat
  if (List.range 5).any fun i => s.qAsked die (i + 3) then .next (s.qEnd die 3)
  else if !s.qAsked die 0 then s.stutter
  else
    let cap := bitsOf c 49 32
    if s.qReserved die || bitsOf c 53 52 = 3 || cap = 0 || cap > 131072 then .next (s.qEnd die 3)
    else if (s.queue die (s.qSel die)).state ≠ 0 then .next (s.qEnd die 2)
    else
      let x : Queue := { Queue.reset with
        state := 1, cls := BitVec.ofNat 3 (bitsOf c 56 54), kind := BitVec.ofNat 2 (bitsOf c 53 52), hostwin := bitOf c 51,
        cap := cap, vmid := BitVec.ofNat 16 (bitsOf c 31 16), stage := s.reg die 0x410 }
      .next ((s.setQueue die (s.qSel die) x).qEnd die 1)

/-- QUEUE_CLOSE (R251, R252, R254): waiting reservations fault their launches, waiting takers of an empty queue are answered. -/
def execQueueClose (die : Nat) (s : State) : Out :=
  if !s.qAsked die 1 then s.stutter
  else if s.qReserved die then .next (s.qEnd die 3)
  else
    let q := s.qSel die
    let x := s.queue die q
    if x.state ≠ 1 then .next (s.qEnd die 2)
    else
      let s := s.setQueue die q { x with state := 2, rsvWait := [] }
      let s := x.rsvWait.foldl (fun s w => s.refuseWaiter die w 0x30 0x85) s
      .next ((s.serveQueue die q).qEnd die 1)

/-- QUEUE_FREE (R251): a closed queue with no record, reservation or taker. -/
def execQueueFree (die : Nat) (s : State) : Out :=
  if !s.qAsked die 2 then s.stutter
  else if s.qReserved die then .next (s.qEnd die 3)
  else
    let q := s.qSel die
    let x := s.queue die q
    if x.state ≠ 2 || !x.recs.isEmpty || !x.rsvs.isEmpty || !x.takers.isEmpty then .next (s.qEnd die 2)
    else .next ((s.modDie die fun d => { d with queues := smDel d.queues q }).qEnd die 1)

/-! The host launch window (R258) -/

/-- A refused access of the window. -/
def State.windowRefused (s : State) (die : Nat) : State := s.vault (die % 16) ⟨0x11, 0xF2, 0, placeTile (die % 16 * 100), 0, 0, 0⟩

/-- An answer to a host read leaves through its port. -/
def State.hostAnswer (s : State) (v : BitVec 512) : State := { s with mod := { s.mod with hostOut := s.mod.hostOut ++ [.data v] } }

/-- A host request ends with Completer Abort. -/
def State.hostAbort (s : State) : State := { s with mod := { s.mod with hostOut := s.mod.hostOut ++ [.abort] } }

/-- A host request that the module does not support ends with Unsupported Request. -/
def State.hostUnclaimed (s : State) : State := { s with mod := { s.mod with hostOut := s.mod.hostOut ++ [.unsupported] } }

/-- A window offset names a queue. -/
def windowQueue (off : Nat) : Option (Nat × Nat) :=
  if off % 64 = 0 && off < 16 * 262144 then some (off / 262144, off % 262144 / 64) else none

/-- LAUNCH_WINDOW_RESERVE (R258): an 8-byte read performs a Q.RSV for the port without waiting: 1 if it reserved, 0 if the queue
is full. Reads of other offsets return zero. -/
def execLaunchWindowReserve (port off : Nat) (s : State) : Out :=
  if port ≥ 2 then s.stutter
  else if s.mod.warmBusy then .next s.hostAbort
  else if s.mod.moduleOnly then .next s.hostUnclaimed
  else match windowQueue off with
  | none => .next (s.hostAnswer 0)
  | some (die, q) =>
    let x := s.queue die q
    if x.state ≠ 1 || !x.hostwin then .next ((s.windowRefused die).hostAnswer 0)
    else if x.recs.length + x.rsvs.length ≥ x.cap then .next (s.hostAnswer 0)
    else
      let v := s.fresh
      match (v.2.getDie die).takeSlot v.1.toNat with
      | .slot k d =>
        let s := v.2.modDie die fun _ => d
        let x := s.queue die q
        let s := s.setQueue die q { x with rsvs := smPut x.rsvs k (hostAgent port) }
        .next (State.hostAnswer { s with mem := memClear s.mem (stageFlat die k) 64 } 1)
      | _ => .next (s.hostAnswer 0)

/-- A read of the launch window of another size (R258): it reserves nothing, and one at a queue that is not OPEN or has no hostwin is recorded. -/
def State.windowRead (s : State) (off : Nat) : State :=
  match windowQueue off with
  | some (die, q) => if (s.queue die q).state ≠ 1 || !(s.queue die q).hostwin then s.windowRefused die else s
  | none => s

/-- LAUNCH_WINDOW_ADD (R258): a 64-byte write adds a record for one reservation the port holds, at SYSTEM scope with the largest
timestamp of the port's writes. -/
def execLaunchWindowAdd (port off bytes : Nat) (data : BitVec 512) (s : State) : Out :=
  if port ≥ 2 || s.shut then s.stutter
  else match windowQueue off with
  | none => .next (s.windowRefused (off / 262144))
  | some (die, q) =>
    let x := s.queue die q
    match x.rsvs.find? fun r => r.2 == hostAgent port with
    | none => .next (s.windowRefused die)
    | some (slot, _) =>
      if bytes ≠ 64 || x.state ≠ 1 || !x.hostwin then .next (s.windowRefused die)
      else
        let st := (s.setQueue die q { x with rsvs := smDel x.rsvs slot }).nextStamp
        let r : QRec := ⟨data, smGet 0 s.mod.hostTs port, 3, hostAgent port, s.eighths, s.rebases.setWidth 8, slot, st.1, false⟩
        .next ((st.2.placeRec die q r).serveQueue die q)

end Sys2Proof.Machine
end

