-- ==== Sys2Proof/Machine/Scalar.lean ====
section
/-! DEFINITION. Scalar and address arithmetic of the sequencer (R55) and its branches (R56). -/

namespace Sys2Proof.Machine

/-- sext(imm40, 40). -/
def sx (imm : BitVec 40) : Word := imm.signExtend 64
/-- zext(imm40, 40). -/
def zx (imm : BitVec 40) : Word := imm.zeroExtend 64
/-- A shift amount: aT[5:0]. -/
def shAmt (v : Word) : Nat := v.toNat % 64
/-- 1 or 0. -/
def flag (b : Bool) : Word := if b then 1 else 0

/-- The number of words of the acting unit's step program. -/
def State.stepCount (s : State) : Nat :=
  match s.unit? with
  | some l => (match s.folios[l.folio]? with | some f => f.steps.length | none => 0)
  | none => 0
/-- A step address of the acting unit's program (R29, R30). -/
def State.isStep (s : State) (a : Word) : Bool := a.toNat % 8 == 0 && decide (a.toNat / 8 < s.stepCount)
/-- The step has issued and the sequencer moves to a step address. -/
def State.jump (s : State) (a : Word) : State := s.issued.modCur fun t => { t with spc := a }
/-- 8·sext(imm40, 40) beyond an address. -/
def farBy (a : Word) (imm : BitVec 40) : Word := a + 8 * sx imm
/-- A branch: a taken one whose target is no step traps (R29, R56). -/
def State.branch (s : State) (taken : Bool) (imm : BitVec 40) : Out :=
  if taken then (if s.isStep (farBy s.cur.spc imm) then .next (s.jump (farBy s.cur.spc imm)) else s.trap 0x01)
  else .next s.nextStep
/-- A jump that links: the target is computed before aD is written (R56). -/
def State.link (s : State) (d : BitVec 4) (target : Word) : Out :=
  if s.isStep target then .next ((s.wa d (s.cur.spc + 8)).jump target) else s.trap 0x01

/-- ADD: aS + aT (R55). -/
def execAdd (d s t : BitVec 4) (st : State) : Out := st.finish d (st.ra s + st.ra t)

/-- SUB: aS − aT (R55). -/
def execSub (d s t : BitVec 4) (st : State) : Out := st.finish d (st.ra s - st.ra t)

/-- MUL: the low 64 bits of aS × aT (R55). -/
def execMul (d s t : BitVec 4) (st : State) : Out := st.finish d (st.ra s * st.ra t)

/-- AND: bitwise AND (R55). -/
def execAnd (d s t : BitVec 4) (st : State) : Out := st.finish d (st.ra s &&& st.ra t)

/-- OR: bitwise OR (R55). -/
def execOr (d s t : BitVec 4) (st : State) : Out := st.finish d (st.ra s ||| st.ra t)

/-- XOR: bitwise XOR (R55). -/
def execXor (d s t : BitVec 4) (st : State) : Out := st.finish d (st.ra s ^^^ st.ra t)

/-- SHL: aS << aT[5:0] (R55). -/
def execShl (d s t : BitVec 4) (st : State) : Out := st.finish d (st.ra s <<< shAmt (st.ra t))

/-- SHR: logical aS >> aT[5:0] (R55). -/
def execShr (d s t : BitVec 4) (st : State) : Out := st.finish d (st.ra s >>> shAmt (st.ra t))

/-- SRA: aS asr aT[5:0] (R55). -/
def execSra (d s t : BitVec 4) (st : State) : Out := st.finish d ((st.ra s).sshiftRight (shAmt (st.ra t)))

/-- MIN: signed minimum (R55). -/
def execMin (d s t : BitVec 4) (st : State) : Out := st.finish d (if (st.ra s).slt (st.ra t) then st.ra s else st.ra t)

/-- MAX: signed maximum (R55). -/
def execMax (d s t : BitVec 4) (st : State) : Out := st.finish d (if (st.ra s).slt (st.ra t) then st.ra t else st.ra s)

/-- CEQ: 1 if aS = aT (R55). -/
def execCeq (d s t : BitVec 4) (st : State) : Out := st.finish d (flag (st.ra s == st.ra t))

/-- CNE: 1 if aS ≠ aT (R55). -/
def execCne (d s t : BitVec 4) (st : State) : Out := st.finish d (flag (st.ra s != st.ra t))

/-- CLT: 1 if aS < aT, signed (R55). -/
def execClt (d s t : BitVec 4) (st : State) : Out := st.finish d (flag ((st.ra s).slt (st.ra t)))

/-- CLTU: 1 if aS < aT, unsigned (R55). -/
def execCltu (d s t : BitVec 4) (st : State) : Out := st.finish d (flag ((st.ra s).ult (st.ra t)))

/-- ADDI: aS + sext(imm40) (R55). -/
def execAddi (d s : BitVec 4) (imm : BitVec 40) (st : State) : Out := st.finish d (st.ra s + sx imm)

/-- ANDI: AND with zext(imm40) (R55). -/
def execAndi (d s : BitVec 4) (imm : BitVec 40) (st : State) : Out := st.finish d (st.ra s &&& zx imm)

/-- ORI: OR with zext(imm40) (R55). -/
def execOri (d s : BitVec 4) (imm : BitVec 40) (st : State) : Out := st.finish d (st.ra s ||| zx imm)

/-- XORI: XOR with zext(imm40) (R55). -/
def execXori (d s : BitVec 4) (imm : BitVec 40) (st : State) : Out := st.finish d (st.ra s ^^^ zx imm)

/-- CEQI: 1 if aS = sext(imm40) (R55). -/
def execCeqi (d s : BitVec 4) (imm : BitVec 40) (st : State) : Out := st.finish d (flag (st.ra s == sx imm))

/-- CLTI: 1 if aS < sext(imm40), signed (R55). -/
def execClti (d s : BitVec 4) (imm : BitVec 40) (st : State) : Out := st.finish d (flag ((st.ra s).slt (sx imm)))

/-- CLTUI: 1 if aS < zext(imm40), unsigned (R55). -/
def execCltui (d s : BitVec 4) (imm : BitVec 40) (st : State) : Out := st.finish d (flag ((st.ra s).ult (zx imm)))

/-- SHLI: aS << imm (R55). -/
def execShli (d s : BitVec 4) (sh : BitVec 6) (st : State) : Out := st.finish d (st.ra s <<< sh.toNat)

/-- SHRI: logical aS >> imm (R55). -/
def execShri (d s : BitVec 4) (sh : BitVec 6) (st : State) : Out := st.finish d (st.ra s >>> sh.toNat)

/-- SRAI: aS asr imm (R55). -/
def execSrai (d s : BitVec 4) (sh : BitVec 6) (st : State) : Out := st.finish d ((st.ra s).sshiftRight sh.toNat)

/-- LI: sext(imm40) (R55). -/
def execLi (d : BitVec 4) (imm : BitVec 40) (st : State) : Out := st.finish d (sx imm)

/-- LUI: imm40[23:0] above aS[39:0] (R55). -/
def execLui (d s : BitVec 4) (imm : BitVec 24) (st : State) : Out := st.finish d (imm ++ (st.ra s).extractLsb' 0 40)

/-- BEQ (R56). -/
def execBeq (s t : BitVec 4) (imm : BitVec 40) (st : State) : Out := st.branch (st.ra s == st.ra t) imm

/-- BNE (R56). -/
def execBne (s t : BitVec 4) (imm : BitVec 40) (st : State) : Out := st.branch (st.ra s != st.ra t) imm

/-- BLT (R56). -/
def execBlt (s t : BitVec 4) (imm : BitVec 40) (st : State) : Out := st.branch ((st.ra s).slt (st.ra t)) imm

/-- BGE (R56). -/
def execBge (s t : BitVec 4) (imm : BitVec 40) (st : State) : Out := st.branch (!(st.ra s).slt (st.ra t)) imm

/-- BLTU (R56). -/
def execBltu (s t : BitVec 4) (imm : BitVec 40) (st : State) : Out := st.branch ((st.ra s).ult (st.ra t)) imm

/-- BGEU (R56). -/
def execBgeu (s t : BitVec 4) (imm : BitVec 40) (st : State) : Out := st.branch (!(st.ra s).ult (st.ra t)) imm

/-- JAL (R56). -/
def execJal (d : BitVec 4) (imm : BitVec 40) (st : State) : Out := st.link d (farBy st.cur.spc imm)

/-- JALR: aS is read before aD is written (R56). -/
def execJalr (d s : BitVec 4) (imm : BitVec 40) (st : State) : Out := st.link d (farBy (st.ra s) imm)

end Sys2Proof.Machine
end

