-- ==== Sys2Proof/Machine/SeqMem.lean ====
section
/-! DEFINITION. Loads and stores of the sequencer (R57-R60), iteration registers (R61) and pattern registers (R63). -/

namespace Sys2Proof.Machine

/-- The acting sequencer as an agent. -/
def State.me (s : State) : Nat := seqAgent s.tile

/-- The address of a load or store: aS + sext(imm40, 40). -/
def State.ea (s : State) (r : BitVec 4) (imm : BitVec 40) : Nat := (s.ra r + sx imm).toNat

/-- A load step (R57): it blocks until its value returns; `ext` extends the value into aD. -/
def State.loadStep (s : State) (d r : BitVec 4) (imm : BitVec 40) (n : Nat) (ext : Nat → Word) : Out :=
  match s.load s.me s.unitNo s.vmid (s.ea r imm) n with
  | .fault c => s.trapWith c (s.ea r imm)
  | .wait s => s.block false
  | .val v s => s.finish d (ext v)

/-- A flat address lies in the staging line of a reservation the acting unit holds (R60). -/
def State.inStaging (s : State) (flat : Nat) : Bool :=
  match s.unit? with
  | some l => l.reservations.any fun r => decide (r.2 ≤ flat) && decide (flat < r.2 + 64)
  | none => false

/-- A store of `n` bytes by the acting sequencer (R57): it enters the store buffer and blocks only while the buffer is full.
Sync space takes ST.64 into a held staging line alone (R60). -/
def State.storeStep (s : State) (va n v : Nat) : Out :=
  match s.reach s.me s.vmid va n n .w anyType with
  | .fault c => s.trapWith c va
  | .wait s => s.block false
  | .ok t s =>
    if t.ty = 6 && !(n == 8 && s.inStaging t.flat) then s.trapWith 0x23 va
    else if s.cur.sbuf.length ≥ 8 then s.block false
    else .next (s.putStore s.me s.unitNo va t n v).nextStep

/-- zext(value, 64). -/
def zext64 (v : Nat) : Word := BitVec.ofNat 64 v

/-- sext(value, n). -/
def sext64 (n v : Nat) : Word := BitVec.ofInt 64 (sextNat v n)

/-- LD.8: zero-extends (R57). -/
def execLd8 (d s : BitVec 4) (imm : BitVec 40) (st : State) : Out := st.loadStep d s imm 1 zext64

/-- LD.16: zero-extends (R57). -/
def execLd16 (d s : BitVec 4) (imm : BitVec 40) (st : State) : Out := st.loadStep d s imm 2 zext64

/-- LD.32: zero-extends (R57). -/
def execLd32 (d s : BitVec 4) (imm : BitVec 40) (st : State) : Out := st.loadStep d s imm 4 zext64

/-- LD.64: zero-extends (R57). -/
def execLd64 (d s : BitVec 4) (imm : BitVec 40) (st : State) : Out := st.loadStep d s imm 8 zext64

/-- LDS.8: sign-extends (R57). -/
def execLds8 (d s : BitVec 4) (imm : BitVec 40) (st : State) : Out := st.loadStep d s imm 1 (sext64 8)

/-- LDS.16: sign-extends (R57). -/
def execLds16 (d s : BitVec 4) (imm : BitVec 40) (st : State) : Out := st.loadStep d s imm 2 (sext64 16)

/-- LDS.32: sign-extends (R57). -/
def execLds32 (d s : BitVec 4) (imm : BitVec 40) (st : State) : Out := st.loadStep d s imm 4 (sext64 32)

/-- ST.8: writes the low 8 bits of aD (R57). -/
def execSt8 (d s : BitVec 4) (imm : BitVec 40) (st : State) : Out := st.storeStep (st.ea s imm) 1 ((st.ra d).toNat % 2 ^ 8)

/-- ST.16: writes the low 16 bits of aD (R57). -/
def execSt16 (d s : BitVec 4) (imm : BitVec 40) (st : State) : Out := st.storeStep (st.ea s imm) 2 ((st.ra d).toNat % 2 ^ 16)

/-- ST.32: writes the low 32 bits of aD (R57). -/
def execSt32 (d s : BitVec 4) (imm : BitVec 40) (st : State) : Out := st.storeStep (st.ea s imm) 4 ((st.ra d).toNat % 2 ^ 32)

/-- ST.64: writes the low 64 bits of aD (R57). -/
def execSt64 (d s : BitVec 4) (imm : BitVec 40) (st : State) : Out := st.storeStep (st.ea s imm) 8 ((st.ra d).toNat % 2 ^ 64)

/-- The acting unit has an active run (R65). -/
def State.runActive (s : State) : Bool := match s.unit? with | some l => l.run | none => false

/-- NSET: count := aS, index := 0; blocks while a run is active (R61). -/
def execNset (n : BitVec 2) (s : BitVec 4) (st : State) : Out :=
  if (st.ra s).toNat ≥ 2 ^ 32 then st.trap 0x04
  else if st.runActive then st.block false
  else .next (st.modCur fun t => { t with n := t.n.set n.toNat ⟨(st.ra s).setWidth 32, 0⟩ }).nextStep

/-- NGET: the register as a whole (R61). -/
def execNget (d : BitVec 4) (n : BitVec 2) (st : State) : Out :=
  let r := st.cur.n[n.toNat]
  st.finish d (r.index ++ r.count)

/-- The dimensions of a pattern record, minus 1. -/
def Pattern.dims (p : Pattern) : Nat := bitsOf p.w0.toNat 60 59
/-- The format tag of a pattern record. -/
def Pattern.fmt (p : Pattern) : Nat := bitsOf p.w0.toNat 58 56
/-- The base address of a pattern record. -/
def Pattern.base (p : Pattern) : Nat := bitsOf p.w0.toNat 55 0
/-- The count of a dimension. -/
def Pattern.count (p : Pattern) (i : Nat) : Nat := bitsOf p.w1.toNat (16 * i + 15) (16 * i)
/-- The stride of a dimension. -/
def Pattern.stride (p : Pattern) (i : Nat) : Int :=
  sextNat (if i < 2 then bitsOf p.w2.toNat (32 * i + 31) (32 * i) else bitsOf p.w3.toNat (32 * (i - 2) + 31) (32 * (i - 2))) 32

/-- A pattern record that PAT.LD accepts (R14). -/
def Pattern.ok (p : Pattern) : Bool :=
  bitsOf p.w0.toNat 63 61 == 0 &&
    (List.range 4).all fun i => if i ≤ p.dims then p.count i != 0 else p.count i == 0 && p.stride i == 0

/-- A pattern record from its 32 bytes. -/
def Pattern.ofNat (v : Nat) : Pattern :=
  ⟨BitVec.ofNat 64 v, BitVec.ofNat 64 (v / 2 ^ 64), BitVec.ofNat 64 (v / 2 ^ 128), BitVec.ofNat 64 (v / 2 ^ 192)⟩

/-- The 32 bytes of a pattern record. -/
def Pattern.toNat (p : Pattern) : Nat :=
  p.w0.toNat + p.w1.toNat * 2 ^ 64 + p.w2.toNat * 2 ^ 128 + p.w3.toNat * 2 ^ 192

/-- PAT.LD: loads and checks a record; blocks like a load (R14, R63). -/
def execPatLd (m : BitVec 3) (s : BitVec 4) (imm : BitVec 40) (st : State) : Out :=
  match st.load st.me st.unitNo st.vmid (st.ea s imm) 32 with
  | .fault c => st.trapWith c (st.ea s imm)
  | .wait st => st.block false
  | .val v st =>
    if (Pattern.ofNat v).ok then .next (st.modCur fun t => { t with m := t.m.set m.toNat (Pattern.ofNat v) }).nextStep
    else st.trap 0x02

/-- PAT.ST: stores mD as a record (R63). -/
def execPatSt (m : BitVec 3) (s : BitVec 4) (imm : BitVec 40) (st : State) : Out :=
  st.storeStep (st.ea s imm) 32 st.cur.m[m.toNat].toNat

/-- PAT.BASE: replaces the base field (R63). -/
def execPatBase (m : BitVec 3) (s : BitVec 4) (st : State) : Out :=
  if bitsOf (st.ra s).toNat 63 56 ≠ 0 then st.trap 0x04
  else .next (st.modCur fun t =>
    let p := t.m[m.toNat]
    { t with m := t.m.set m.toNat { p with w0 := p.w0.extractLsb' 56 8 ++ (st.ra s).extractLsb' 0 56 } }).nextStep

end Sys2Proof.Machine
end

