-- ==== Sys2Proof/Machine/Sync.lean ====
section
/-! DEFINITION. The sequencer's Granary, phaser and atomic instructions (R79, R176, R236-R254). Phase 0 of such a step checks
its operands, drains the store buffer and sends its command; phase 1 has its reply; phase 2 writes the record it brought. -/

namespace Sys2Proof.Machine

/-- Sends the command of a step to an engine and waits for its reply. A rebase holds atomics (R231). -/
def State.sendCmd (s : State) (die : Nat) (c : SyncCmd) (progress engine : Bool) : Out :=
  if !s.room (tileDie s.tile) (tileLocal s.tile) die (replyCls c.code.toNat) || (atomicCode c.code.toNat && s.rebasing) then
    s.block progress
  else (s.sendFrom s.me s.unitNo die (.cmd c)).await progress engine

/-- A command of the acting sequencer. -/
def State.mkCmd (s : State) (code : BitVec 8) (fmt : BitVec 3) (scope : BitVec 2) (addr : Nat) (a b : Word) (replies : Bool) : SyncCmd :=
  ⟨code, fmt, scope, addr, a, b, s.cur.spr.lclk.toNat, s.vmid, if replies then .seq s.tile else .none⟩

/-- The reply that completes the acting step, if it has come. -/
def State.replied (s : State) : Option SeqReply := if s.cur.phase = 1 then s.cur.reply else none

/-- The step completes and its hand-off raises LCLK (R227). -/
def State.handOff (s : State) (t : BitVec 32) : State := s.raiseLclk s.tile t

/-- A queue id in a register (R251). -/
def queueIdOk (v : Word) : Bool := v.toNat < 2 ^ 20 && v.toNat % 2 ^ 16 < 4096

/-- Q.RSV: blocks until a slot of queue aS is reserved; aD := the staging address (R79, R176, R252). -/
def execQRsv (d s : BitVec 4) (st : State) : Out :=
  match st.replied with
  | some r => st.finish d r.data
  | none =>
    if !queueIdOk (st.ra s) then st.trap 0x04
    else if !st.cur.sbuf.isEmpty then st.block true
    else st.sendCmd (queuePlace (st.ra s).toNat).1 (st.mkCmd 0x30 0 0 (st.ra s).toNat 0 0 true) true true

/-- The reservation of the acting unit at a staging address (R176). -/
def State.reservation (s : State) (va : Nat) : Option Nat :=
  match s.unit? with
  | some l => (l.reservations.find? fun r => r.1 == va).map (·.2)
  | none => none

/-- Q.ADD: releases at scope, then sends the staging line of a reservation the unit holds (R79, R176, R253). -/
def execQAdd (s : BitVec 4) (scope : BitVec 2) (st : State) : Out :=
  match st.replied with
  | some _ => .next st.nextStep
  | none =>
    let va := (st.ra s).toNat
    match st.reach st.me st.vmid va 64 1 .rw syncType with
    | .fault c => st.trapWith c va
    | .wait st => st.block false
    | .ok _ st =>
      match st.reservation va with
      | none => st.trapWith 0x84 va
      | some flat =>
        match st.release st.me st.unitNo scope with
        | (false, st) => st.block false
        | (true, st) =>
          let whw := st.cur.spr.whw
          let c := st.mkCmd 0x31 0 scope flat 0 (whw.setWidth 64) true
          if !st.room (tileDie st.tile) (tileLocal st.tile) (syncPlace flat).1 3 then st.block false
          else
            ((st.track st.me st.unitNo).modLaunch st.unitNo fun l => { l with reservations := l.reservations.filter fun r => r.1 != va }).sendCmd
              (syncPlace flat).1 c false false

/-- A plain write of an agent that is in flight. -/
def State.accessOut (s : State) (a : Nat) : Bool :=
  s.msgs.any fun m => m.agent == a && match m.kind with | .access _ _ _ _ true _ => true | _ => false

/-- Phase 1 and 2 of Q.TAKE and PH.READ: the 64-byte record is written at an address as a store of the sequencer, and has
performed before the step completes (R79, R176, R250). -/
def State.landRecord (s : State) (va : Nat) (line : BitVec 512) (done : State → Out) : Out :=
  if s.cur.phase = 1 then
    match s.reach s.me s.vmid va 64 64 .w plainType with
    | .fault c => s.trapWith c va
    | .wait s => s.block false
    | .ok t s => ((s.putStore s.me s.unitNo va t 64 line.toNat).modCur fun x => { x with phase := 2 }).block false
  else if !s.cur.sbuf.isEmpty || s.accessOut s.me then s.block false
  else done s

/-- A reply or the record of one, in phases 1 and 2. -/
def State.recordReply (s : State) : Option SeqReply := if s.cur.phase = 0 then none else s.cur.reply

/-- Q.TAKE completes (R254): status 0, and LCLK takes the record's WHW in the same clk (R176). -/
def State.tookRecord (s : State) (d : BitVec 4) (whw : BitVec 32) : Out :=
  ((s.modCur fun t => { t with pre := { t.pre with age := s.clk } }).handOff whw).finish d 0

/-- Q.TAKE: takes one record of queue aS to the 64 bytes at aT (R79, R176, R254), from the tile's prefetch buffer when that holds
one (R255). A Q.TAKE on another queue returns the buffer. -/
def execQTake (d s t : BitVec 4) (st : State) : Out :=
  let va := (st.ra t).toNat
  match st.recordReply with
  | some r =>
    match r.line with
    | some l => st.landRecord va l fun st => st.tookRecord d r.time
    | none => st.finish d r.data
  | none =>
    if !queueIdOk (st.ra s) then st.trap 0x04
    else match st.reach st.me st.vmid va 64 64 .w plainType with
    | .fault c => st.trapWith c va
    | .wait st => st.block true
    | .ok _ st =>
      if !st.cur.sbuf.isEmpty then st.block true
      else
        let id := (st.ra s).toNat
        let st := if st.cur.pre.queue = some id then st
          else (st.returnPrefetch st.tile).modCur fun t => { t with pre := ⟨some id, [], st.clk⟩ }
        match st.cur.pre.recs with
        | r :: more =>
          (st.modCur fun t => { t with pre := ⟨some id, more, st.clk⟩, phase := 1,
                                        reply := some ⟨0x32, true, 0, r.whw, some r.data⟩ }).block false
        | [] => st.sendCmd (queuePlace id).1 (st.mkCmd 0x32 0 0 id 0 0 true) true true

/-! Phasers -/

/-- The phaser of a PH step: a type-6 page with R and W (R79, R204). -/
def State.phaserStep (s : State) (va : Nat) (progress : Bool) (go : Nat → State → Out) : Out :=
  match s.reach s.me s.vmid va 64 1 .rw syncType with
  | .fault c => s.trapWith c va
  | .wait s => s.block progress
  | .ok t s => go t.flat s

/-- A PH step that needs only the store buffer drained. -/
def State.phPlain (s : State) (va : Nat) (code : BitVec 8) (a : Word) (progress engine : Bool) : Out :=
  s.phaserStep va progress fun flat s =>
    if !s.cur.sbuf.isEmpty then s.block progress
    else s.sendCmd (syncPlace flat).1 (s.mkCmd code 0 0 flat a 0 true) progress engine

/-- A PH step that releases at a scope first; the signal's WHW travels above its operand (R247). -/
def State.phSignal (s : State) (va : Nat) (code : BitVec 8) (scope : BitVec 2) (operand : BitVec 32) (progress engine : Bool) : Out :=
  s.phaserStep va progress fun flat s =>
    match s.release s.me s.unitNo scope with
    | (false, s) => s.block progress
    | (true, s) => s.sendCmd (syncPlace flat).1 (s.mkCmd code 0 scope flat (s.cur.spr.whw ++ operand) 0 true) progress engine

/-- PH.REG (R79, R246). -/
def execPhReg (s : BitVec 4) (mode : BitVec 2) (st : State) : Out :=
  match st.replied with
  | some _ => .next st.nextStep
  | none => st.phPlain (st.ra s).toNat 0x20 (mode.setWidth 64) false false

/-- PH.DROP (R79, R246). -/
def execPhDrop (s : BitVec 4) (st : State) : Out :=
  match st.replied with
  | some _ => .next st.nextStep
  | none => st.phPlain (st.ra s).toNat 0x21 0 false false

/-- The dependence entry that waits for its step (R77). -/
def Tile.openDep (t : Tile) : Option (Nat × DepEnt) := t.deps.find? fun e => e.2.state == .opened

/-- Captures the acting step in the open entry of a kind, instead of issuing it (R77). -/
def State.captured (s : State) (kind : BitVec 2) (step : DepStep) : Option State :=
  match s.cur.openDep with
  | some (i, e) =>
    if e.kind = kind then
      some (s.modCur fun t => { t with deps := smPut t.deps i { e with state := .held, step := step } }).nextStep
    else none
  | none => none

/-- PH.SIG: captured by an open phaser-signal entry, or a release and a signal (R77, R79, R247). -/
def execPhSig (s : BitVec 4) (scope : BitVec 2) (st : State) : Out :=
  match st.replied with
  | some _ => .next st.nextStep
  | none =>
    match st.captured 2 (.signal (st.ra s) scope) with
    | some st => .next st
    | none => st.phSignal (st.ra s).toNat 0x22 scope 0 false false

/-- The answer of a wait: aD := the error code, and LCLK takes the phase's WHW (R227, R248). -/
def State.waited (s : State) (d : BitVec 4) (r : SeqReply) : Out :=
  (s.handOff r.time).finish d ((r.data.extractLsb' 32 8).setWidth 64)

/-- A phase number in a register, taken modulo 2^32. -/
def phaseOf (v : Word) : BitVec 32 := v.setWidth 32

/-- PH.WAIT (R79, R248). -/
def execPhWait (d s t : BitVec 4) (st : State) : Out :=
  match st.replied with
  | some r => st.waited d r
  | none => st.phPlain (st.ra s).toNat 0x23 ((phaseOf (st.ra t)).setWidth 64) true true

/-- PH.SW: as PH.SIG, then as PH.WAIT (R79, R247, R248). Phase 3 is a resumed PH.SW whose signal was counted before its wait was
withdrawn: it waits only (R53, R331). -/
def execPhSw (d s t : BitVec 4) (scope : BitVec 2) (st : State) : Out :=
  match st.replied with
  | some r => st.waited d r
  | none =>
    if st.cur.phase = 3 then st.phPlain (st.ra s).toNat 0x23 ((phaseOf (st.ra t)).setWidth 64) true true
    else st.phSignal (st.ra s).toNat 0x24 scope (phaseOf (st.ra t)) true true

/-- PH.ERR (R79, R249). -/
def execPhErr (s t : BitVec 4) (st : State) : Out :=
  match st.replied with
  | some _ => .next st.nextStep
  | none =>
    if st.ra t = 0 || (st.ra t).toNat ≥ 256 then st.trap 0x04
    else st.phPlain (st.ra s).toNat 0x25 (st.ra t) false false

/-- PH.READ (R79, R250). -/
def execPhRead (s t : BitVec 4) (st : State) : Out :=
  let va := (st.ra t).toNat
  match st.recordReply with
  | some r => st.landRecord va (r.line.getD 0) fun st => .next st.nextStep
  | none =>
    match st.reach st.me st.vmid va 64 64 .w plainType with
    | .fault c => st.trapWith c va
    | .wait st => st.block false
    | .ok _ st => st.phPlain (st.ra s).toNat 0x26 0 false false

/-- ATOM (R79, R242): a RED form blocks only until its message has left. -/
def execAtom (cmd : BitVec 8) (d s t x : BitVec 4) (scope : BitVec 2) (st : State) : Out :=
  match st.replied with
  | some r => st.finish d r.data
  | none =>
    let op := cmd.toNat % 0x80
    let wide := decide (op ≤ 0x0B)
    let red := decide (cmd.toNat ≥ 0x80)
    let va := (st.ra s).toNat
    let n := if wide then 8 else 4
    if !wide && decide ((st.ra t).toNat ≥ 2 ^ 32) then st.trap 0x04
    else match st.reach st.me st.vmid va n n .rw atomType with
    | .fault c => st.trapWith c va
    | .wait st => st.block false
    | .ok tg st =>
      if !st.cur.sbuf.isEmpty then st.block false
      else match st.settled st.me st.unitNo scope true with
      | (false, st) => st.block false
      | (true, st) =>
        let fmt : BitVec 3 := if wide then 0 else if op = 0x0C then 2 else 3
        let c := st.mkCmd cmd fmt scope tg.flat (st.ra t) (if cmd = 0x0B then st.ra x else 0) (!red)
        if red then
          if !st.room (tileDie st.tile) (tileLocal st.tile) tg.home 0 || st.rebasing then st.block false
          else (st.sendFrom st.me st.unitNo tg.home (.cmd c)).finish d 0
        else st.sendCmd tg.home c false true

end Sys2Proof.Machine
end

