-- ==== Sys2Proof/Machine/Misc.lean ====
section
/-! DEFINITION. Fences and clocks of the sequencer (R75, R226, R228), its special registers (R32, R80, R108), NOP, YIELD and TRAP
(R80), and the dependence commands (R76, R77). -/

namespace Sys2Proof.Machine

/-- FENCE.SL: blocks until the store buffer has drained, so that no later load performs before (R75, log 42). -/
def execFenceSl (s : State) : Out := if s.cur.sbuf.isEmpty then .next s.nextStep else s.block false

/-- FENCE.REL: a release of the scope (R75, R226). -/
def execFenceRel (scope : BitVec 2) (s : State) : Out :=
  match s.release s.me s.unitNo scope with
  | (false, s) => s.block false
  | (true, s) => .next s.nextStep

/-- FENCE.ACQ: every earlier load, atomic, PH.WAIT and Q.TAKE has performed; those that block have by then, so that RED forms alone
are waited for (R75, R228). -/
def execFenceAcq (_scope : BitVec 2) (s : State) : Out := if s.atomsOut s.me then s.block false else .next s.nextStep

/-- LCLK.RD (R75). -/
def execLclkRd (d : BitVec 4) (s : State) : Out := s.finish d (s.cur.spr.lclk.setWidth 64)

/-- Adds to LCLK; an update beyond 2^32 − 1 waits for a rebase (R233). -/
def State.advLclk (s : State) (n : Nat) (wait : State → Out) (go : State → Out) : Out :=
  let v := s.cur.spr.lclk.toNat + n
  if v ≥ 2 ^ 32 then wait (s.askRebase (tileDie s.tile))
  else go (s.modCur fun t => { t with spr := { t.spr with lclk := BitVec.ofNat 32 v } })

/-- LCLK.ADV (R75, R233). -/
def execLclkAdv (s : BitVec 4) (st : State) : Out :=
  if (st.ra s).toNat ≥ 2 ^ 31 then st.trap 0x04
  else st.advLclk (st.ra s).toNat (fun st => st.block false) fun st => .next st.nextStep

/-- NOP (R80). -/
def execNop (s : State) : Out := .next s.nextStep

/-- YIELD: adds LEASE to LCLK, restarts the watchdog and marks a progress point, at which a pending pre-emption takes the unit
(R80, R174, R175). -/
def execYield (s : State) : Out :=
  s.advLclk s.cur.spr.lease.toNat (fun s => s.block true) fun s =>
    let pending : Bool := match s.unit? with | some l => l.st == .pending | none => false
    let s := s.nextStep.modLaunch s.unitNo fun l => { l with wdog := 0 }
    if pending then s.block true else .next s

/-- TRAP (R80). -/
def execTrap (code : BitVec 8) (s : State) : Out := s.trapWith 0x1F code.toNat

/-- The value of a special register (R32, R80). -/
def State.sprRead (s : State) (num : Nat) : Option Word :=
  let t := s.cur
  match num with
  | 0x000 => some t.spc
  | 0x001 => some (t.spr.lclk.setWidth 64)
  | 0x002 => some (t.spr.lease.setWidth 64)
  | 0x003 => some (t.spr.whw.setWidth 64)
  | 0x004 => some t.spr.carve
  | 0x005 => some (t.spr.qwcLimit.setWidth 64)
  | 0x006 => some (t.spr.drift.setWidth 64)
  | 0x007 => some (t.spr.spinN.setWidth 64)
  | 0x008 => some t.spr.stalls
  | 0x009 => some (t.spr.wdog.setWidth 64)
  | 0x00A => some (s.rebases.setWidth 64)
  | _ => none

/-- SRR: an unassigned number traps with reserved-field (R32, R80). -/
def execSrr (d : BitVec 4) (num : BitVec 12) (s : State) : Out :=
  match s.sprRead num.toNat with
  | some v => s.finish d v
  | none => s.trap 0x02

/-- The range of values SRW takes (R80, R108). -/
def sprRange (num v : Nat) : Bool :=
  match num with
  | 0x001 => decide (v < 2 ^ 32)
  | 0x002 => decide (1 ≤ v) && decide (v ≤ 4095)
  | 0x004 => decide (v < 2 ^ 24) && (List.range 8).all fun i => decide (bitsOf v (3 * i + 2) (3 * i) ≤ 4)
  | 0x005 => decide (1 ≤ v) && decide (v < 2 ^ 32)
  | 0x006 => decide (1 ≤ v) && decide (v ≤ 65535)
  | 0x007 => decide (1 ≤ v) && decide (v ≤ 4095)
  | 0x008 => true
  | 0x009 => decide (2 ^ 16 ≤ v) && decide (v < 2 ^ 40)
  | _ => false

/-- Writes a special register other than CARVE. -/
def Special.put (x : Special) (num : Nat) (v : Word) : Special :=
  match num with
  | 0x001 => { x with lclk := tsMax x.lclk (v.setWidth 32) }
  | 0x002 => { x with lease := v.setWidth 12 }
  | 0x005 => { x with qwcLimit := v.setWidth 32 }
  | 0x006 => { x with drift := v.setWidth 16 }
  | 0x007 => { x with spinN := v.setWidth 12 }
  | 0x008 => { x with stalls := v }
  | 0x009 => { x with wdog := v.setWidth 40 }
  | _ => x

/-- Granules of a V-cell between two counts read zero: a newly carved granule reads zero, and a released one is lost (R108). -/
def clearGranules (m : List Host.Cell) (c lo hi : Nat) : List Host.Cell := memClear m (windowBase c + 8192 * lo) (8192 * (hi - lo))

/-- Writes CARVE of a tile (R108). The LLC lines that give way fold their timestamps into MEMTS (R219, log 8). -/
def State.setCarve (s : State) (t : Nat) (v : Word) : State :=
  let old := (s.getTile t).spr.carve.toNat
  let cells := (List.range 64).map (cellOf t)
  let field (w c : Nat) : Nat := bitsOf w (3 * (cellRow c % 8) + 2) (3 * (cellRow c % 8))
  let m := (cells.filter isVCell).foldl (fun m c =>
    clearGranules m c (min (field old c) (field v.toNat c)) (max (field old c) (field v.toNat c))) s.mem
  let s := State.modTile { s with mem := m } t fun x => { x with spr := { x.spr with carve := v } }
  s.makeRoom (tileDie t) (s.llcLines (tileDie t))

/-- SRW (R32, R80). A new DRIFT counts at most one of its intervals as passed (R230, log 128). -/
def execSrw (s : BitVec 4) (num : BitVec 12) (st : State) : Out :=
  let v := st.ra s
  let n := num.toNat
  if n = 0x000 || n = 0x003 || n > 0x009 then st.trap 0x02
  else if !sprRange n v.toNat then st.trap 0x04
  else if n = 0x004 then
    if st.runActive || !(st.cmdsOf st.unitNo).isEmpty then st.block true else .next (st.setCarve st.tile v).nextStep
  else
    let st := (st.modCur fun t => { t with
      spr := t.spr.put n v, drifted := if n = 0x006 then max t.drifted (st.clk - v.toNat) else t.drifted }).nextStep
    .next (if n = 0x009 then st.modLaunch st.unitNo fun l => { l with wdog := 0 } else st)

/-! The dependence table (R76, R77) -/

/-- The lowest free entry. -/
def Tile.freeDep (t : Tile) : Option Nat := (List.range 64).find? fun i => (smFind t.deps i).isNone

/-- An entry just opened. -/
def DepEnt.fresh (kind : BitVec 2) : DepEnt :=
  { kind := kind, state := .opened, step := .none, count := 0, succ := [], hw := 0, before := 0, age := 0, performed := false, run := 0,
    rearmed := false }

/-- DEP.NEW (R77). -/
def execDepNew (d : BitVec 4) (kind : BitVec 2) (s : State) : Out :=
  match s.cur.freeDep with
  | none => s.trap 0x82
  | some i =>
    if s.cur.openDep.isSome then s.trap 0x83
    else (s.modCur fun t => { t with deps := smPut t.deps i (DepEnt.fresh kind) }).finish d (BitVec.ofNat 64 i)

/-- A successor that DEP.EDGE takes: it has yet to issue, and its count has room (R77). -/
def DepEnt.takesEdge (e : DepEnt) : Bool :=
  (match e.state with | .opened | .held => true | .armed => e.count != 0 | _ => false) && decide (e.count < 63)

/-- DEP.EDGE (R77). -/
def execDepEdge (s t : BitVec 4) (st : State) : Out :=
  let p := (st.ra s).toNat
  let q := (st.ra t).toNat
  if p ≥ 64 || q ≥ 64 then st.trap 0x04
  else match smFind st.cur.deps p, smFind st.cur.deps q with
  | some e, some f =>
    if e.state == .done then .next st.nextStep
    else if !f.takesEdge || e.succ.length ≥ 8 then st.trap 0x83
    else
      let deps := smMod e st.cur.deps p fun e => { e with succ := e.succ ++ [q] }
      .next (st.modCur fun x => { x with deps := smMod f deps q fun f => { f with count := f.count + 1 } }).nextStep
  | _, _ => st.trap 0x83

/-- DEP.ARM (R77, R78): age counts from here. -/
def execDepArm (s : BitVec 4) (st : State) : Out :=
  let i := (st.ra s).toNat
  if i ≥ 64 then st.trap 0x04
  else match smFind st.cur.deps i with
  | some e =>
    if e.state == .held then
      let n := st.nextStamp
      .next (n.2.modCur fun x => { x with deps := smPut x.deps i { e with state := .armed, age := n.1 } }).nextStep
    else st.trap 0x83
  | none => st.trap 0x83

/-- DEP.WAIT (R77). -/
def execDepWait (s : BitVec 4) (st : State) : Out :=
  let i := (st.ra s).toNat
  if i ≥ 64 then st.trap 0x04
  else match smFind st.cur.deps i with
  | none => .next st.nextStep
  | some e =>
    match e.state with
    | .done => .next ((st.handOff e.hw).modCur fun x => { x with deps := smDel x.deps i }).nextStep
    | .opened => st.trap 0x83
    | _ => st.block true

end Sys2Proof.Machine
end

