-- ==== Sys2Proof/Machine/LoadCheck.lean ====
section
/-! DEFINITION. The folio loader's checks of a configuration (R51): route words (R20, R111, R114, R124), stage words (R16-R19,
R39-R40, R92-R106, R295), slot words (R41-R42, R189-R190), destination entries (R43, R299-R300), code and B-cell mode words
(R45, R114-R115). -/

namespace Sys2Proof.Machine

/-! Positions -/

/-- The tile a tile image was built for. -/
def TileImg.tile (t : TileImg) : Nat := tileNo t.die t.trow t.tcol
/-- The cell of a tile image. -/
def TileImg.cell (t : TileImg) (n : Nat) : Nat := cellOf t.tile n
/-- The cells of a configuration, by the cell they were built for. -/
def ConfigImg.cellList (c : ConfigImg) : List (Nat × CellImg) := c.tiles.flatMap fun t => t.cells.map fun x => (t.cell x.n, x)
/-- The cell image at a cell. -/
def ConfigImg.cell? (c : ConfigImg) (n : Nat) : Option CellImg := (c.cellList.find? fun e => e.1 == n).map (·.2)
/-- The non-zero route words, by cell. -/
def ConfigImg.routeList (c : ConfigImg) : List (Nat × Nat) :=
  (c.tiles.flatMap fun t => t.routes.map fun r => (t.cell r.1, r.2.toNat)).filter fun e => e.2 != 0
/-- The non-zero event route words, by cell. -/
def ConfigImg.evList (c : ConfigImg) : List (Nat × Nat) :=
  (c.tiles.flatMap fun t => t.evroutes.map fun r => (t.cell r.1, r.2.toNat)).filter fun e => e.2 != 0
/-- The route word of a cell. -/
def ConfigImg.route (c : ConfigImg) (n : Nat) : Nat := smGet 0 c.routeList n

/-- The source an output names: outputs N, E, S, W, CELL are 0 to 4. -/
def routeSrc (w o : Nat) : Nat := bitsOf w (3 * o + 2) (3 * o)

/-- The neighbour of a cell on a side: N, E, S, W are 0 to 3; none beyond the static mesh of its die. -/
def neighbour (c side : Nat) : Option Nat :=
  let r := cellRow c
  let k := cellCol c
  match side with
  | 0 => if r = 0 then none else some (c - 80)
  | 1 => if k = 79 then none else some (c + 1)
  | 2 => if r = 79 then none else some (c + 80)
  | _ => if k = 0 then none else some (c - 1)

/-- The output of a neighbour that faces a cell's side. -/
def facing (side : Nat) : Nat := match side with | 0 => 2 | 1 => 3 | 2 => 0 | _ => 1

/-! Stage words (R39) -/

/-- A stage word's fields. -/
structure StageF where
  op : Nat
  fmt : Nat
  rnd : Nat
  sat : Nat
  srcA : Nat
  srcB : Nat
  dst : Nat
  flags : Nat
  k : Nat
  deriving DecidableEq, Repr

/-- The fields of a stage word. -/
def stageF (w : Nat) : StageF :=
  ⟨bitsOf w 63 56, bitsOf w 55 53, bitsOf w 52 50, bitsOf w 49 48, bitsOf w 47 44, bitsOf w 43 40, bitsOf w 39 36, bitsOf w 35 32,
    bitsOf w 31 0⟩

/-- The op is listed (R40). -/
def stageOpListed (op : Nat) : Bool :=
  let n := op % 32
  match op / 32 with
  | 1 => n ≤ 8 | 2 => n ≤ 3 | 3 => n ≤ 9 | 4 => n ≤ 8 | 5 => 1 ≤ n && n ≤ 7 | 6 => n ≤ 4 | 7 => n ≤ 4 | _ => false

/-- The stage whose word takes an op. -/
def stageOfOp (op : Nat) : Nat := if op / 32 = 7 then 2 else op / 32

/-- The op uses k for a value of its own (R92). -/
def stageOwnK (f : StageF) : Bool :=
  match f.op with
  | 0x20 => f.srcB != 0
  | 0x22 | 0x23 | 0x24 | 0x25 | 0x26 | 0x27 | 0x28 | 0x41 | 0x43 | 0x61 | 0x63 | 0x64 | 0x65 | 0x83 | 0x87 | 0x88 | 0xA2 => true
  | 0x80 | 0x81 | 0x82 => f.srcB == 0
  | 0xC0 | 0xC1 | 0xC2 | 0xC3 | 0xC4 | 0xE0 | 0xE1 | 0xE2 | 0xE4 => true
  | _ => false

/-- The format tags an op's word may hold. -/
def stageFmtOk (f : StageF) : Bool :=
  let int := f.fmt ≤ 1
  let fp := 2 ≤ f.fmt && f.fmt ≤ 4
  let fp8 := 2 ≤ f.fmt && f.fmt ≤ 6
  match f.op with
  | 0x20 | 0x25 | 0x26 | 0xA3 | 0xC2 | 0xC3 => true
  | 0x21 => f.fmt ≤ 6
  | 0x22 | 0x23 | 0xE1 => f.fmt == 1
  | 0x24 | 0x42 | 0x62 | 0xE0 => fp8
  | 0x40 | 0x41 | 0x60 | 0x61 | 0x64 | 0x66 | 0x67 | 0x80 | 0x81 | 0x82 | 0x83 | 0x84 | 0x85 | 0x87 | 0xC0 => int
  | 0xC1 => 3 ≤ f.fmt && f.fmt ≤ 6
  | 0xC4 | 0xE2 => f.fmt == 7
  | _ => fp

/-- The overflow modes an op's word may hold (R92, R190, R295). An op that R92 names neither an integer nor a floating op, and whose entry names
no sat, loads with any of the four (DESIGN CHOICE, log 127). -/
def stageSatOk (f : StageF) : Bool :=
  match f.op with
  | 0x20 | 0x22 | 0x23 | 0x24 | 0x25 | 0x26 | 0x27 | 0xA3 | 0xC2 | 0xC3 | 0xC4 => true
  | 0x21 => if f.fmt ≤ 1 then f.sat ≥ 2 else f.sat ≤ 1
  | 0xE4 => f.sat == 0
  | _ => if f.fmt ≤ 1 then f.sat ≥ 2 else f.sat ≤ 1

/-- The flags an op names. -/
def stageFlagMask (op : Nat) : Nat :=
  (match op with
   | 0x22 | 0x23 | 0x40 | 0x60 | 0x67 | 0x85 | 0xA3 | 0xC0 | 0xE0 | 0xE2 | 0xE3 => 1
   | 0xE1 => 7
   | _ => 0) + (if op / 32 = 1 then 8 else 0)

/-- FCLAMP's bounds are in order. -/
def fclampOk (k : Nat) : Bool := (bf16.decode (k % 2 ^ 16)).le (bf16.decode (k / 2 ^ 16))

/-- The k values an op allows. Where an op's entry gives k no use, the bits that select a lane register or a delay line may still be set while the
word names LREG or DLY (DESIGN CHOICE, log 127). -/
def stageKOk (f : StageF) : Bool :=
  let k := f.k
  let w := tagWidth f.fmt
  let lanes := [f.srcA, f.srcB, f.dst]
  let free := (if lanes.contains 5 then 0x3F else 0) + (if lanes.contains 6 then 0x3F00 else 0)
  match f.op with
  | 0x20 => if f.srcB = 0 then k &&& free == k else 1 ≤ k && k ≤ 255
  | 0x22 | 0x23 | 0x28 => 1 ≤ k && k < 2 ^ 16
  | 0x24 => k < 2 ^ 17 && k % 2 ^ 16 != 0
  | 0x25 => k < 256
  | 0x26 => k < 16
  | 0x27 => 1 ≤ k && k ≤ 64
  | 0x41 | 0x43 | 0x61 | 0x63 | 0xA2 => true
  | 0x64 | 0x65 => k < 2 ^ 24 && k / 256 != 0
  | 0x80 | 0x81 | 0x82 => if f.srcB = 0 then k < w else k &&& free == k
  | 0x83 => 1 ≤ k && k < w
  | 0x87 => sextNat k 16 ≤ sextNat (k / 2 ^ 16) 16
  | 0x88 => fclampOk k
  | 0xC0 => k < 64 && k < w
  | 0xC1 => 1 ≤ k && k ≤ 8
  | 0xC2 => k == 0 || k == 2 || k == 3
  | 0xC3 => k < 2 ^ 15 && !bitOf k 7
  | 0xC4 => k < 4
  | 0xE0 | 0xE1 | 0xE2 => k < 2 ^ 25 && 1 ≤ k % 256 && k % 256 ≤ 32
  | 0xE3 => k < 64
  | 0xE4 => k < 512
  | _ => k &&& free == k

/-- The window bounds of a macro-op (R17, R104). -/
def windowOk (f : StageF) (granules : Nat) : Bool :=
  let kb := bitsOf f.k 7 0
  let first := bitsOf f.k 15 8
  let bias := bitsOf f.k 24 16
  match f.op with
  | 0xE0 | 0xE1 => first + kb ≤ 8 * granules && (!bitOf f.flags 0 || bias + 1 ≤ 128 * granules)
  | 0xE2 => first + kb ≤ 8 * granules && bias + 1 + kb ≤ 128 * granules
  | _ => true

/-- The cause for which a stage word of stage n fails (R16-R19, R39, R40, R92-R106, R295). -/
def stageBad (n w granules : Nat) : Option Nat :=
  let f := stageF w
  if w = 0 then none
  else if f.op = 0 then some 0x61
  else if !stageOpListed f.op then some 0x60
  else if stageOfOp f.op ≠ n then some 0x63
  else if f.rnd > 5 || f.srcA > 6 || f.srcB > 6 || f.dst > 6 then some 0x61
  else if (n = 1 && (f.srcA == 1 || f.srcB == 1)) || (n == 6 && f.dst == 1) then some 0x61
  else if f.srcA = 4 || f.dst = 4 || (f.srcB == 4) != (f.op ≥ 0xE0 && f.op != 0xE3) then some 0x61
  else if stageOwnK f && ([f.srcA, f.srcB, f.dst].contains 5 || [f.srcA, f.srcB, f.dst].contains 6) then some 0x61
  else if !stageFmtOk f || !stageSatOk f || f.flags &&& stageFlagMask f.op != f.flags || !stageKOk f then some 0x61
  else if f.op = 0xE1 && f.rnd ≠ 0 then some 0x61
  else if !windowOk f granules then some 0x62
  else none

/-- The first failing word of a V-cell's stages; a non-empty S3 or S4 beside a macro-op fails (R16). -/
def stagesBad (x : CellImg) : Option Nat :=
  let word (n : Nat) : Nat := (smGet 0 x.stages n).toNat
  let macroOp := (stageF (word 2)).op ≥ 0xE0
  (upFrom 1 6).findSome? fun n =>
    if macroOp && (n == 3 || n == 4) && word n != 0 then some 0x61 else stageBad n (word n) x.granules

/-! Slot words and destination entries -/

/-- A slot word's fields (R41). -/
structure SlotF where
  kind : Nat
  arity : Nat
  sticky : Bool
  lmask : Nat
  rmask : Nat
  entry : Nat
  tdest : Nat
  fdest : Nat
  chan : Nat
  cfmt : Nat
  crnd : Nat
  csat : Nat
  seed : Nat
  deriving DecidableEq, Repr

/-- The fields of a slot word. -/
def slotF (w : Nat) : SlotF :=
  ⟨bitsOf w 2 0, bitsOf w 4 3, bitOf w 5, bitsOf w 39 32, bitsOf w 47 40, bitsOf w 59 48, bitsOf w 65 60, bitsOf w 71 66,
    bitsOf w 75 72, bitsOf w 78 76, bitsOf w 81 79, bitsOf w 83 82, bitsOf w 127 96⟩

/-- The arity has an R input. -/
def arityR (a : Nat) : Bool := a == 1 || a == 3
/-- The arity has a P input. -/
def arityP (a : Nat) : Bool := a == 2 || a == 3

/-- The cause for which a slot word fails (R41, R42, R189, R190). A CONVERT toward Q4X16, which R190 names neither a floating nor an integer
target, loads with IEEE and SATFINITE and fails with WRAP and SAT (DESIGN CHOICE, log 127). -/
def slotBad (i w ncode : Nat) : Option Nat :=
  let f := slotF w
  if w = 0 then none
  else
    let conv := f.kind == 5
    let has (b : Bool) (v : Nat) : Bool := b || v == 0
    let ok :=
      1 ≤ f.kind && f.kind ≤ 5 && bitsOf w 31 6 == 0 && bitsOf w 95 84 == 0 &&
      (match f.kind with | 1 => true | 2 => f.arity == 2 | 3 => f.arity == 3 | _ => f.arity == 0) &&
      (!f.sticky || (f.kind == 1 && f.arity != 0)) && f.lmask != 0 &&
      has (f.kind == 1 && arityR f.arity || f.kind == 3) f.rmask && has (f.kind == 1) f.entry &&
      has (f.kind == 2 || f.kind == 3 || conv) f.tdest && has (f.kind == 2) f.fdest && f.tdest != 63 && f.fdest != 63 &&
      has (f.kind == 4) f.chan && has conv f.cfmt && has conv f.crnd && has conv f.csat && f.crnd ≤ 5 &&
      (!conv || (if f.cfmt ≤ 1 then f.csat ≥ 2 else f.csat ≤ 1)) &&
      (if conv && f.crnd == 5 then f.seed != 0 else f.seed == 0)
    if !ok then some 0x61
    else if (i == 63) != conv then some 0x62
    else if f.kind = 1 && f.entry ≥ ncode then some 0x62
    else none

/-- A destination entry's fields (R43). -/
structure DestF where
  valid : Bool
  tagop : Nat
  net : Nat
  field : Nat
  slot : Nat
  cell : BitVec 18
  deriving DecidableEq, Repr

/-- The fields of a destination entry. -/
def destF (w : Nat) : DestF := ⟨bitOf w 31, bitsOf w 30 28, bitsOf w 27 26, bitsOf w 25 24, bitsOf w 23 18, BitVec.ofNat 18 w⟩

/-- A dest field names a T-cell that exists. -/
def destIsT (d : BitVec 18) : Bool :=
  decide (bitsOf d.toNat 13 7 < 80) && decide (48 ≤ bitsOf d.toNat 6 0) && decide (bitsOf d.toNat 6 0 < 80)

/-- The cause for which a destination entry of a cell fails (R43, R299, R300). -/
def destBad (cell i w : Nat) : Option Nat :=
  let f := destF w
  if w / 2 ^ 32 ≠ 0 then some 0x61
  else if !f.valid then (if w = 0 then none else some 0x61)
  else if f.tagop = 0 || f.tagop > 6 || f.net > 2 || f.field > 2 || (f.net == 1 && f.field != 2) then some 0x61
  else if !destIsT f.cell || (f.net == 2 && destCell f.cell != cell) then some 0x62
  else if (i = 60 || i = 61) && (f.net = 1 || f.field ≠ 0) then some 0x62
  else none

/-- The cause for which a B-cell's mode word fails (R45, R114, R115). -/
def modeBad (w : Nat) : Option Nat :=
  let mode := bmMode w
  let map := bitsOf w 59 58
  let pad := bitsOf w 55 48
  let rowlen := bitsOf w 47 36
  let aux := bitsOf w 35 24
  let base := bitsOf w 23 12
  let len := bitsOf w 11 0
  if mode = 0 then (if w = 0 then none else some 0x61)
  else if mode > 3 || map = 3 || bitsOf w 57 56 ≠ 0 then some 0x61
  else
    let uses (b : Bool) (v : Nat) : Bool := b || v == 0
    let ok := uses (mode == 1) map && uses (mode == 1 && map == 1) pad && uses ((mode == 1 && map != 0) || mode == 3) rowlen &&
      uses (mode != 1) aux && (!((mode == 1 && map != 0) || mode == 3) || rowlen != 0) && (mode != 3 || aux != 0) && len != 0 &&
      (!((mode == 1 && map == 2) || mode == 3) || rowlen % 16 == 0)
    if !ok then some 0x61
    else if base + len > 1536 || (mode = 2 && aux > len) || (mode == 3 && aux * rowlen * 4 > len * 64) then some 0x62
    else none

/-! Routes -/

/-- The cell drives its own switch box: a stage with dst SBOX, a ROUTE with second destination 2, or a B-cell in FIFO or LINEBUF
mode. -/
def CellImg.drives (x : CellImg) (cell : Nat) : Bool :=
  if isBCell cell then bmMode x.mode.toNat ≥ 2
  else (upFrom 1 6).any fun n =>
    let f := stageF (smGet 0 x.stages n).toNat
    f.op != 0 && (f.dst == 2 || (f.op == 0xC2 && f.k == 2))

/-- Follows an output up to the output that drives it; a chain longer than the outputs there are is a cycle (R111). -/
def ConfigImg.cyclic (c : ConfigImg) : Nat → Nat → Nat → Bool
  | 0, _, _ => true
  | n + 1, cell, o =>
    let src := routeSrc (c.route cell) o
    if src = 0 || src = 5 || (src == 2 && cellCol cell == 47) then false
    else match neighbour cell (src - 1) with
    | some m => c.cyclic n m (facing (src - 1))
    | none => false

/-- The cause for which a route word fails (R20, R111, R114, R124). -/
def ConfigImg.routeBad (c : ConfigImg) (cell w : Nat) : Option Nat :=
  let tiles := c.tiles.map TileImg.tile
  let inside (x : Option Nat) : Bool := match x with | some m => cellCol m < 48 && tiles.contains (cellTile m) | none => false
  let drives : Bool := match c.cell? cell with | some x => x.drives cell | none => false
  let srcs := (List.range 5).map (routeSrc w)
  if w / 2 ^ 15 ≠ 0 || srcs.any (· > 5) then some 0x61
  else if cellCol cell ≥ 48 then some 0x62
  else
    let edge := cellCol cell == 47
    let srcOk (o : Nat) : Bool :=
      let s := routeSrc w o
      s == 0 ||
        ((o == 4 || (o == 1 && edge) || inside (neighbour cell o)) &&
         (if s = 5 then drives
          else (s == 2 && edge) || (inside (neighbour cell (s - 1)) && routeSrc (c.route ((neighbour cell (s - 1)).getD 0)) (facing (s - 1)) != 0)))
    let bOk := !isBCell cell || (routeSrc w 4 == 0 && !srcs.contains 5) ||
      (match c.cell? cell with | some x => bmMode x.mode.toNat ≥ 2 | none => false)
    let seam := c.cell? (cell + 1)
    let s2tOk := !edge || routeSrc w 1 == 0 || (match seam with | some x => (destF (smGet 0 x.dests 62).toNat).valid | none => false)
    let t2sOk := !edge || !srcs.contains 2 || (match seam with | some x => smGet 0 x.slots 62 == 0 | none => true)
    let cyc := (List.range 4).any fun o => c.cyclic (4 * c.routeList.length + 1) cell o
    if !(List.range 5).all srcOk || !bOk || !s2tOk || !t2sOk || cyc then some 0x62 else none

/-- A V-cell whose dst SBOX finds no output of its box that names code 5 (R111). -/
def ConfigImg.boxUnnamed (c : ConfigImg) : Bool :=
  c.cellList.any fun e => isVCell e.1 && e.2.drives e.1 && !(List.range 5).any fun o => routeSrc (c.route e.1) o == 5

/-- The event route words' check (R44, R20). -/
def evBad (w : Nat) : Bool := w / 2 ^ 15 != 0 || (List.range 5).any fun o => routeSrc w o > 5

/-- The first failing check of a configuration, in section order (R51); none when it loads. -/
def ConfigImg.bad (c : ConfigImg) : Option Nat :=
  let dies := (c.tiles.map (·.die)).eraseDups
  if dies.length > 1 then some 0x62
  else
    (c.routeList.findSome? fun e => c.routeBad e.1 e.2) <|>
    (if c.evList.any (fun e => evBad e.2) then some 0x61 else none) <|>
    (if c.boxUnnamed then some 0x62 else none) <|>
    (c.cellList.findSome? fun e => if isVCell e.1 then stagesBad e.2 else none) <|>
    (c.cellList.findSome? fun e => if isTCell e.1 then e.2.slots.findSome? fun x => slotBad x.1 x.2.toNat e.2.code.length else none) <|>
    (c.cellList.findSome? fun e => if isTCell e.1 then e.2.dests.findSome? fun x => destBad e.1 x.1 x.2.toNat else none) <|>
    (if c.cellList.any (fun e => e.2.code.length > 4096) then some 0x62 else none) <|>
    (c.cellList.findSome? fun e => if isBCell e.1 then modeBad e.2.mode.toNat else none)

end Sys2Proof.Machine
end

