-- ==== Sys2Proof/Machine/Vcell.lean ====
section
/-! DEFINITION. V-cells: the places of a cell's flits, sources and destinations of a stage (R16, R39, R86-R90), the S1 converter
(R88), EGATE (R113) and the frame of one stage firing (R87, R166). -/

namespace Sys2Proof.Machine

/-! Elements of a flit (R85) -/

/-- The elements of a flit, in element order. -/
def elems (t : Nat) (d : BitVec 512) : List Nat :=
  (List.range (tagElems t)).map fun i => bitsOf d.toNat (tagWidth t * i + tagWidth t - 1) (tagWidth t * i)

/-- Packs elements into 512 bits, zero-filled. -/
def packBits (w : Nat) : List Nat → Nat
  | [] => 0
  | x :: r => x % 2 ^ w + 2 ^ w * packBits w r

/-- A flit's data from its elements. -/
def ofElems (t : Nat) (xs : List Nat) : BitVec 512 := BitVec.ofNat 512 (packBits (tagWidth t) xs)

/-- Even parity over some bits of a word. -/
def parityOf (v n : Nat) : Bool := ((List.range n).filter fun i => bitOf v i).length % 2 == 1

/-- A flit with its parity bits (R86). -/
def mkFlit (data : BitVec 512) (fmt : Nat) (mark : BitVec 3) : Flit :=
  let plane := packBits 1 ((List.range 8).map fun i => if parityOf (bitsOf data.toNat (64 * i + 63) (64 * i)) 64 then 1 else 0)
  let f : BitVec 3 := BitVec.ofNat 3 fmt
  ⟨data, f, mark, BitVec.ofNat 8 plane, if parityOf (mark.toNat * 8 + f.toNat) 6 then 1 else 0, false⟩

/-- A drain beat (R171). -/
def beatFlit : Flit := ⟨0, 0, 0, 0, 0, true⟩

/-- A side flit (R86). -/
def Flit.isSide (f : Flit) : Bool := !f.beat && f.mark == 4
/-- A flit that carries an end marker. -/
def Flit.marked (f : Flit) : Bool := !f.beat && f.mark != 0 && f.mark.toNat ≤ 3
/-- The tag of a flit. -/
def Flit.tag (f : Flit) : Nat := f.fmt.toNat
/-- The elements of a flit in its own tag. -/
def Flit.elems (f : Flit) : List Nat := Sys2Proof.Machine.elems f.tag f.data

/-- The higher rank of two marks (R166). -/
def markMax (a b : BitVec 3) : BitVec 3 := if a.toNat < b.toNat then b else a

/-! Places. `links` holds, by key: 2-6 the link into a stage from the stage before it, 7 the cell output, 8 the stream output, 9 the
stream input. `outq` holds the switch box's output buffers N, E, S, W and CELL as 0 to 4, and the event ones are `events`. -/

/-- The key of the cell output's buffer. -/
def lkOut : Nat := 7
/-- The key of the stream output's buffer. -/
def lkSout : Nat := 8
/-- The key of the stream input's buffer. -/
def lkSin : Nat := 9

/-- What a link holds. -/
def CellPlane.link (p : CellPlane) (k : Nat) : List Flit := smGet [] p.links k
/-- Writes a link. -/
def CellPlane.setLink (p : CellPlane) (k : Nat) (l : List Flit) : CellPlane := { p with links := smPut p.links k l }
/-- What a switch-box output buffers. -/
def CellPlane.box (p : CellPlane) (o : Nat) : List Flit := smGet [] p.outq o
/-- Writes a switch-box output's buffer. -/
def CellPlane.setBox (p : CellPlane) (o : Nat) (l : List Flit) : CellPlane := { p with outq := smPut p.outq o l }
/-- The word of a stage. -/
def CellPlane.stage (p : CellPlane) (n : Nat) : Nat := (smGet 0 p.stages n).toNat
/-- The fields of a stage's word; an empty stage after S1 takes from the stage before it and sends to the next (R16). -/
def CellPlane.stageFields (p : CellPlane) (n : Nat) : StageF :=
  let f := stageF (p.stage n)
  if p.stage n = 0 && n > 1 then { f with srcA := 1, dst := 1 } else f
/-- A stage's LFSR (R91). -/
def CellPlane.lfsrOf (p : CellPlane) (n : Nat) : BitVec 32 := smGet 0 p.lfsr n

/-- The flits an input holds. -/
def CellPlane.source (p : CellPlane) (n code k : Nat) : List Flit :=
  match code with
  | 1 => p.link n
  | 2 => p.box 4
  | 3 => p.link lkSin
  | 6 => (smGet [] p.delays (bitsOf k 13 8)).map fun x => ⟨0, x.1, x.2, 0, 0, false⟩
  | _ => []

/-- The flat address of a lane register 0-47 or of another place in a cell's local memory. -/
def localAt (c off : Nat) : Nat := cellBase c + off

/-- Reads 64 bytes of a cell's local memory. -/
def State.localLine (s : State) (c off : Nat) : BitVec 512 := BitVec.ofNat 512 (memRead s.mem (localAt c off) 64)
/-- Writes 64 bytes of a cell's local memory. -/
def State.setLocalLine (s : State) (c off : Nat) (v : BitVec 512) : State :=
  { s with mem := memWrite s.mem (localAt c off) 64 v.toNat }

/-- A lane register: 48 to 63 belong to the plane (R90). -/
def State.laneReg (s : State) (c i : Nat) : BitVec 512 :=
  if i ≥ 48 then smGet 0 (s.cp c).lregs i else s.localLine c (64 * i)
/-- Writes a lane register. -/
def State.setLaneReg (s : State) (c i : Nat) (v : BitVec 512) : State :=
  if i ≥ 48 then s.modCp c fun p => { p with lregs := smPut p.lregs i v } else s.setLocalLine c (64 * i) v

/-- The local offset of the entry of a delay line at a place from its head (R90). -/
def CellPlane.delayAt (p : CellPlane) (line i : Nat) : Nat := 0x5000 + 1024 * line + 64 * ((smGet 0 p.delayRd line + i) % 16)

/-- A flit of data that nothing determines, for an operand a stage word does not connect (log 5). -/
def State.freeFlit (s : State) (fmt : Nat) : Flit × State :=
  let r := (List.range 8).foldl (fun (acc : Nat × State) _ => let v := acc.2.fresh; (acc.1 * 2 ^ 64 + v.1.toNat, v.2)) (0, s)
  (mkFlit (BitVec.ofNat 512 r.1) fmt 0, r.2)

/-! Side streams at a stream port (R178) -/

/-- The cell's STRM.GATH is a side stream. -/
def CellPlane.sideFed (p : CellPlane) : Bool :=
  let o1 := (stageF (p.stage 1)).op
  o1 == 0x24 || o1 == 0x28 || (stageF (p.stage 2)).op == 0xE2

/-- A STRM.GATH that has not performed names a cell as its target. -/
def State.gathers (s : State) (c : Nat) : Bool :=
  s.tiles.any fun t => t.2.ports.any fun q => q.2.entries.any fun e => match e with | .cmd x => x.op == 2 && x.cell == c | .fence _ => false

/-- The stream port of a cell with MMAQ places a side flit ahead of each group of 16 code flits of a row (R94, R178). -/
def CellPlane.portWantsSide (p : CellPlane) : Bool :=
  (stageF (p.stage 2)).op == 0xE2 && (smGet ⟨0, 0⟩ p.accs 304).count % 16 == 0 && (smGet ⟨0, 0⟩ p.accs 305).count == 0

/-- The port's side flit goes next into the stream that a stage takes at a source: the stream port, or what S1 receives from the switch box
while a side stream feeds the cell (R178). -/
def State.sideNext (s : State) (c n code : Nat) : Bool :=
  let p := s.cp c
  p.portWantsSide && (code == 3 || (code == 2 && (n == 1 || (n == 2 && p.stage 1 == 0)) && (s.gathers c || !p.side.isEmpty)))

/-- A code flit leaves a stream toward MMAQ: the place of the next one in its row and group (R94). -/
def CellPlane.countCode (p : CellPlane) (x : Option Flit) : CellPlane :=
  match x with
  | none => p
  | some x =>
    if (stageF (p.stage 2)).op ≠ 0xE2 || x.beat || x.isSide then p
    else
      let r := (smGet ⟨0, 0⟩ p.accs 304).count + 1
      let r := if x.marked || r ≥ bitsOf (p.stageFields 2).k 7 0 then 0 else r
      { p with accs := smPut (if r % 16 = 0 then smDel p.accs 305 else p.accs) 304 ⟨r, 0⟩ }

/-- What a stage finds at a source. -/
inductive Head where
  | flit (f : Flit)
  | wait
  | none
  deriving DecidableEq, Repr

/-- A head is a beat. -/
def Head.beat (h : Head) : Bool := match h with | .flit x => x.beat | _ => false
/-- A head is a flit. -/
def Head.data (h : Head) : Bool := match h with | .flit x => !x.beat | _ => false

/-- The head of a stream source before conversion. -/
def State.rawHead (s : State) (c n code k fmt : Nat) : Head :=
  let p := s.cp c
  match code with
  | 0 | 4 => .none
  | 5 => .flit (mkFlit (s.laneReg c (bitsOf k 5 0)) fmt 0)
  | 6 =>
    match smGet [] p.delays (bitsOf k 13 8) with
    | x :: _ => .flit (if x.2 = 7 then beatFlit else mkFlit (s.localLine c (p.delayAt (bitsOf k 13 8) 0)) x.1.toNat x.2)
    | [] => .wait
  | _ =>
    if s.sideNext c n code then
      (match p.side with | x :: _ => .flit x | [] => .wait)
    else match p.source n code k with
    | x :: _ => .flit x
    | [] => .wait

/-- The head of a source as the stage reads it: a converted flit goes first (R88). `b` tells srcB from srcA. -/
def State.head (s : State) (c n : Nat) (b : Bool) : Head :=
  let p := s.cp c
  let f := p.stageFields n
  match smGet [] p.conv (2 * n + if b then 1 else 0) with
  | x :: _ => .flit x
  | [] => s.rawHead c n (if b then f.srcB else f.srcA) f.k f.fmt

/-- Takes the head of a stream source. -/
def State.popRaw (s : State) (c n code k : Nat) : State :=
  let side := s.sideNext c n code
  s.modCp c fun p =>
    match code with
    | 1 => p.setLink n ((p.link n).drop 1)
    | 2 | 3 =>
      if side && !p.side.isEmpty then { p with side := p.side.drop 1, accs := smPut p.accs 305 ⟨1, 0⟩ }
      else if code = 2 then (p.setBox 4 ((p.box 4).drop 1)).countCode (p.box 4).head?
      else (p.setLink lkSin ((p.link lkSin).drop 1)).countCode (p.link lkSin).head?
    | 6 =>
      let l := bitsOf k 13 8
      { p with delays := smPut p.delays l ((smGet [] p.delays l).drop 1), delayRd := smPut p.delayRd l ((smGet 0 p.delayRd l + 1) % 16) }
    | _ => p

/-- Takes the head of a source as the stage read it. -/
def State.pop (s : State) (c n : Nat) (b : Bool) : State :=
  let p := s.cp c
  let f := p.stageFields n
  let key := 2 * n + if b then 1 else 0
  match smGet [] p.conv key with
  | _ :: r => s.modCp c fun p => { p with conv := smPut p.conv key r }
  | [] => s.popRaw c n (if b then f.srcB else f.srcA) f.k

/-! Destinations -/

/-- A destination has a free slot (R87). `n` is the stage the flit leaves. A delay line holds the 16 flits that R90 gives it (DEDUCED, log 105). -/
def CellPlane.free (p : CellPlane) (n code k : Nat) : Bool :=
  match code with
  | 1 => n == 6 || (p.link (n + 1)).length < 2
  | 2 => (p.link lkOut).length < 2
  | 3 => (p.link lkSout).length < 2
  | 6 => (smGet [] p.delays (bitsOf k 13 8)).length < 16
  | _ => true

/-- A stage after `n` reads a delay line. -/
def CellPlane.delayRead (p : CellPlane) (l n : Nat) : Bool :=
  (upFrom (n + 1) (6 - n)).any fun m =>
    let f := p.stageFields m
    (f.srcA == 6 || f.srcB == 6) && bitsOf f.k 13 8 == l

/-- Sends a flit to a destination; a drain beat is absorbed by a stream output, a lane register, NONE, and a delay line that no later stage
reads (R171; DEDUCED, log 59). In a delay line the mark 7 stands for a beat. -/
def State.put (s : State) (c n code k : Nat) (x : Flit) : State :=
  match code with
  | 1 => if n = 6 then s else s.modCp c fun p => p.setLink (n + 1) (p.link (n + 1) ++ [x])
  | 2 => s.modCp c fun p => p.setLink lkOut (p.link lkOut ++ [x])
  | 3 => if x.beat then s else s.modCp c fun p => p.setLink lkSout (p.link lkSout ++ [x])
  | 5 => if x.beat then s else s.setLaneReg c (bitsOf k 5 0) x.data
  | 6 =>
    let l := bitsOf k 13 8
    let p := s.cp c
    if x.beat then
      (if p.delayRead l n then s.setCp c { p with delays := smPut p.delays l (smGet [] p.delays l ++ [(0, 7)]) } else s)
    else
      let s := s.setLocalLine c (p.delayAt l (smGet [] p.delays l).length) x.data
      s.modCp c fun p => { p with delays := smPut p.delays l (smGet [] p.delays l ++ [(x.fmt, x.mark)]) }
  | _ => s

/-- The stage a flit leaves: a macro-op sends from S4 (R89). -/
def leaveStage (n : Nat) (f : StageF) : Nat := if f.op ≥ 0xE0 then 4 else n

/-- Every destination of a stage is free; ROUTE needs both (R98). -/
def CellPlane.dstFree (p : CellPlane) (n : Nat) : Bool :=
  let f := p.stageFields n
  p.free (leaveStage n f) f.dst f.k && (f.op != 0xC2 || p.free n (f.k % 16) 0)

/-- Sends an output to the destinations of a stage, of which ROUTE has two; the flags it carries are set as it leaves (R193). -/
def State.sendOut (s : State) (c n : Nat) (x : Flit × Nat) : State :=
  let f := (s.cp c).stageFields n
  let s := s.put c (leaveStage n f) f.dst f.k x.1
  (if f.op = 0xC2 && f.k % 16 ≠ 0 then s.put c n (f.k % 16) 0 x.1 else s).setCvst c x.2

/-- The outputs of a firing with their flags: the first leaves, and the others stay in the stage to leave one by one (R87, R89). -/
def State.emitOuts (s : State) (c n : Nat) (xs : List (Flit × Nat)) : State :=
  match xs with
  | [] => s
  | x :: r =>
    let s := s.sendOut c n x
    if r.isEmpty then s else s.modCp c fun p => { p with pend := smPut p.pend n r }

/-- Sends the outputs of a firing, which set no flag. -/
def State.emit (s : State) (c n : Nat) (xs : List Flit) : State := s.emitOuts c n (xs.map fun x => (x, 0))

/-! The S1 converter (R88) -/

/-- The tag a source accepts; none where it accepts every tag (R87). The chain partial of MMA is accepted apart. -/
def acceptTag (f : StageF) (b : Bool) : Option Nat :=
  match f.op with
  | 0x00 | 0x21 | 0x25 | 0x26 | 0xC2 | 0xC3 | 0xA3 | 0x22 | 0x23 | 0x24 => none
  | 0x20 => if b then none else some f.fmt
  | 0x27 => if b then none else some f.fmt
  | 0x28 => some 7
  | 0xE1 => none
  | 0xC1 | 0xC4 => some 2
  | _ => some f.fmt

/-- A flit at the start of an MMA row that is a chain partial (R100). A second F32X2 flit there is a row-block, converted to fmt (DESIGN CHOICE,
log 131). -/
def CellPlane.isPartial (p : CellPlane) (f : StageF) (x : Flit) : Bool :=
  f.op == 0xE0 && f.fmt != 2 && x.tag == 2 && (smGet ⟨0, 0⟩ p.accs 300).count == 0 && (smGet ⟨0, 0⟩ p.accs 301).count == 0

/-- The head must pass through the converter before the stage takes it. -/
def CellPlane.needsConv (p : CellPlane) (n : Nat) (b : Bool) (x : Flit) : Bool :=
  let f := p.stageFields n
  !x.beat && !x.isSide &&
    match acceptTag f b with
    | none => false
    | some t => x.tag != t && !(!b && p.isPartial f x)

/-- Runs a rounding over elements, drawing once per element under SR (R189). -/
def drawMap {α : Type} (sr : Bool) (f : Nat → Nat → α) : List Nat → BitVec 32 → List α × BitVec 32
  | [], l => ([], l)
  | x :: r, l =>
    let l' := if sr then lfsrNext l else l
    let t := drawMap sr f r l'
    (f l'.toNat x :: t.1, t.2)

/-- Cuts elements into groups of n. -/
def chunks (n : Nat) : Nat → List Nat → List (List Nat)
  | 0, _ => []
  | k + 1, xs => xs.take n :: chunks n k (xs.drop n)

/-- Output flits from elements of a tag, the mark on the last (R93, R180). -/
def flitsOf (t : Nat) (xs : List Nat) (mark : BitVec 3) : List Flit :=
  let n := (xs.length + tagElems t - 1) / tagElems t
  let gs := chunks (tagElems t) n xs
  (gs.zipIdx).map fun g => mkFlit (ofElems t g.1) t (if g.2 + 1 = n then mark else 0)

/-- Converts a flit to a tag: the flits, the flags and the LFSR (R93, R188-R192). -/
def convFlit (x : Flit) (t : Nat) (r : Rnd) (sat : Bool) (l : BitVec 32) : List Flit × Nat × BitVec 32 :=
  let rs := drawMap (r == .sr) (fun u e => convElem r sat x.tag t u e) x.elems l
  (flitsOf t (rs.1.map (·.code)) x.mark, cvstOf rs.1, rs.2)

/-- The overflow mode of the S1 converter toward a tag: S1's sat where that is valid, else SAT or IEEE (R88); true is SAT or
SATFINITE. -/
def convSat (sat t : Nat) : Bool := if t ≤ 1 then (if sat ≥ 2 then sat == 3 else true) else sat == 1

/-- A faulted flit of a cell: it has been dropped (R88, R94). -/
def State.flitFault (s : State) (c cause : Nat) : State := (s.faultCell c cause 0).touchCell c

/-- A source of a stage waits for the converter. -/
def State.convReady (s : State) (c n : Nat) (b : Bool) : Bool :=
  let p := s.cp c
  let f := p.stageFields n
  let code := if b then f.srcB else f.srcA
  code != 5 && (smGet [] p.conv (2 * n + if b then 1 else 0)).isEmpty &&
    match s.rawHead c n code f.k f.fmt with | .flit x => p.needsConv n b x | _ => false

/-- A source that comes before another waits for the converter: S1 is served first, then S2 to S6 (R88). -/
def State.convBefore (s : State) (c n : Nat) (b : Bool) : Bool :=
  (b && s.convReady c n false) || (upFrom 1 (n - 1)).any fun m => s.convReady c m false || s.convReady c m true

/-- S1_CONVERT (R88): a flit whose tag a stage's source does not accept goes through the cell's converter with S1's rounding, and under SR with the
draws of stage 1's LFSR (DESIGN CHOICE, log 131). One flit is converted by itself (DEDUCED, log 132). -/
def execS1Convert (cell stage : Nat) (srcB : Bool) (s : State) : Out :=
  let p := s.cp cell
  let f := p.stageFields stage
  let code := if srcB then f.srcB else f.srcA
  let key := 2 * stage + if srcB then 1 else 0
  if !(isVCell cell && s.cellFires cell && 1 ≤ stage && stage ≤ 6 && (smGet [] p.conv key).isEmpty) || code = 5 || s.convBefore cell stage srcB then
    s.stutter
  else match s.rawHead cell stage code f.k f.fmt with
  | .flit x =>
    if !p.needsConv stage srcB x then s.stutter
    else
      let s := s.popRaw cell stage code f.k
      let t := (acceptTag f srcB).getD 0
      if x.tag = 7 || t = 7 then .next (s.flitFault cell 0xA4)
      else
        let f1 := stageF (p.stage 1)
        let r := convFlit x t (rndOf (BitVec.ofNat 3 f1.rnd)) (convSat f1.sat t) (p.lfsrOf 1)
        let s := s.modCp cell fun p => { p with conv := smPut p.conv key r.1, lfsr := if f1.rnd = 5 then smPut p.lfsr 1 r.2.2 else p.lfsr }
        .next ((s.setCvst cell r.2.1).touchCell cell)
  | _ => s.stutter

/-! EGATE (R113) and the frame of a firing -/

/-- S1 may take a flit: with EGATE it needs a credit. -/
def CellPlane.gateOpen (p : CellPlane) (n : Nat) : Bool := n != 1 || !bitOf (p.stageFields 1).flags 3 || p.egate != 0

/-- A marked flit that S1 takes ends the row its credit opened. -/
def State.gateTook (s : State) (c n : Nat) (x : Flit) : State :=
  if n = 1 && bitOf ((s.cp c).stageFields 1).flags 3 && x.marked then s.modCp c fun p => { p with egate := p.egate - 1 } else s

/-- The op of a stage of a cell, which its region lets fire. -/
def State.stageRuns (s : State) (c n op : Nat) : Bool :=
  isVCell c && s.cellFires c && (stageF ((s.cp c).stage n)).op == op && ((s.cp c).stage n != 0 || op == 0)

/-- A stage's turn: an output of an earlier firing that has yet to leave goes first; with none, `go` may fire (R87). -/
def State.stageTurn (s : State) (c n op : Nat) (go : Out) : Out :=
  let p := s.cp c
  if !(s.stageRuns c n op && p.dstFree n) then s.stutter
  else match smGet [] p.pend n with
  | x :: r => .next (((s.modCp c fun p => { p with pend := if r.isEmpty then smDel p.pend n else smPut p.pend n r }).sendOut c n x).touchCell c)
  | [] => if p.gateOpen n then go else s.stutter

/-- A stage takes what its sources hold (R86, R87): it waits for every stream source, forwards a side flit that it does not consume,
leaves beats to the drain, and otherwise runs `go` on its heads. An operand that the word does not connect is a free value. -/
def State.fire (s : State) (c n op : Nat) (go : Flit → Flit → State → Out) : Out :=
  s.stageTurn c n op <|
    let p := s.cp c
    let f := p.stageFields n
    let a := s.head c n false
    let b := s.head c n true
    let side (h : Head) : Bool := match h with | .flit x => x.isSide | _ => false
    let busy (h : Head) (b : Bool) : Bool := match h with | .flit x => x.beat || p.needsConv n b x | .wait => true | .none => false
    if side a then
      (match a with | .flit x => .next (((s.pop c n false).emit c n [x]).touchCell c) | _ => s.stutter)
    else if side b then
      (match b with | .flit x => .next (((s.pop c n true).emit c n [x]).touchCell c) | _ => s.stutter)
    else if busy a false || busy b true then s.stutter
    else
      let fa := match a with | .flit x => (x, s) | _ => s.freeFlit f.fmt
      let fb := match b with | .flit x => (x, fa.2) | _ => fa.2.freeFlit f.fmt
      let s := (fb.2.pop c n false).pop c n true
      let s := s.gateTook c n (if fa.1.marked then fa.1 else fb.1)
      go fa.1 { fb.1 with mark := match b with | .flit x => x.mark | _ => 0 } (s.touchCell c)

end Sys2Proof.Machine
end

