-- ==== Sys2Proof/Machine/Stages.lean ====
section
/-! DEFINITION. The stage ops of V-cells but the macro-ops (R16, R19, R92-R98, R179-R180, R185-R188). -/

namespace Sys2Proof.Machine

/-- The rounding mode of a stage. -/
def StageF.mode (f : StageF) : Rnd := rndOf (BitVec.ofNat 3 f.rnd)
/-- Rounds a result to a stage's format. -/
def StageF.round (f : StageF) (u : Nat) (x : FVal) : Nat := (roundFp (fmtOfTag f.fmt) f.mode (f.sat == 1) u x).code
/-- Holds an exact integer in n bits under a stage's WRAP or SAT. -/
def StageF.hold (f : StageF) (uns : Bool) (v : Int) : Nat :=
  let w := tagWidth f.fmt
  wrapNat (if f.sat = 3 then clampInt uns w v else v) w
/-- The value of an integer element. -/
def intVal (uns : Bool) (w v : Nat) : Int := if uns then ((v % 2 ^ w : Nat) : Int) else sextNat v w
/-- The value of a floating element of a stage's tag. -/
def StageF.val (f : StageF) (c : Nat) : FVal := (fmtOfTag f.fmt).decode c
/-- The value of k as an FP32. -/
def StageF.kval (f : StageF) : FVal := fp32.decode f.k
/-- All ones in an element. -/
def ifOnes (w : Nat) (b : Bool) : Nat := if b then 2 ^ w - 1 else 0
/-- Flag 0 makes an op unsigned. -/
def StageF.uns (f : StageF) : Bool := bitOf f.flags 0

/-- An element op of two sources (R96, R97): the stochastic draw, then the elements of srcA and srcB. -/
abbrev ElemOp := StageF → Nat → Nat → Nat → Nat

/-- Runs an element op over a pair of flits and sends the result with the higher mark (R87, R166). -/
def State.elemStage (s : State) (c n op : Nat) (e : ElemOp) : Out :=
  s.fire c n op fun a b s =>
    let p := s.cp c
    let f := p.stageFields n
    let bs := elems f.fmt b.data
    let r := drawMap (f.rnd == 5) (fun u i => e f u ((elems f.fmt a.data).getD i 0) (bs.getD i 0)) (List.range (tagElems f.fmt)) (p.lfsrOf n)
    let s := if f.rnd = 5 then s.modCp c fun p => { p with lfsr := smPut p.lfsr n r.2 } else s
    .next (s.emit c n [mkFlit (ofElems f.fmt r.1) f.fmt (markMax a.mark b.mark)])

/-- Runs an op over one flit that gives element 0 and zeros beyond (R96). It draws once under SR. -/
def State.reduceStage (s : State) (c n op : Nat) (e : StageF → Nat → List Nat → Nat) : Out :=
  s.fire c n op fun a b s =>
    let p := s.cp c
    let f := p.stageFields n
    let l := if f.rnd = 5 then lfsrNext (p.lfsrOf n) else p.lfsrOf n
    let s := if f.rnd = 5 then s.modCp c fun p => { p with lfsr := smPut p.lfsr n l } else s
    .next (s.emit c n [mkFlit (ofElems f.fmt [e f l.toNat (elems f.fmt a.data)]) f.fmt (markMax a.mark b.mark)])

/-- Runs an op that rearranges whole flits and keeps their tag. -/
def State.flitStage (s : State) (c n op : Nat) (e : StageF → Flit → BitVec 512) : Out :=
  s.fire c n op fun a b s => .next (s.emit c n [mkFlit (e ((s.cp c).stageFields n) a) a.tag (markMax a.mark b.mark)])

/-- STAGE_EMPTY (R16): forwards each flit unchanged; an empty S6 discards it, for NEXT names no stage there (DEDUCED, log 43). -/
def execStageEmpty (cell n : Nat) (s : State) : Out :=
  let macroOp := (stageF ((s.cp cell).stage 2)).op ≥ 0xE0
  if n < 2 || n > 6 || (macroOp && (n == 3 || n == 4)) then s.stutter
  else s.fire cell n 0 fun a _ s => .next (s.emit cell n [a])

/-- STAGE_PASS (R16, R93): with a srcB, one srcB flit goes ahead of each group of P srcA flits. -/
def execStagePass (cell : Nat) (s : State) : Out :=
  let p := s.cp cell
  let f := p.stageFields 1
  if f.srcB = 0 then s.fire cell 1 0x20 fun a _ s => .next (s.emit cell 1 [a])
  else s.stageTurn cell 1 0x20 <|
    let b := p.row.group == 0
    match s.head cell 1 b with
    | .flit x =>
      if x.beat || (s.head cell 1 !b).beat || p.needsConv 1 b x then s.stutter
      else
        let s := ((s.pop cell 1 b).gateTook cell 1 x).modCp cell fun p =>
          { p with row := { p.row with group := if x.isSide then p.row.group else if b then f.k % 256 else p.row.group - 1 } }
        .next ((s.emit cell 1 [x]).touchCell cell)
    | _ => s.stutter

/-- The output flits of elements with their flags, n a flit and the last one with the row's mark, zero beyond the elements (R180). -/
def outFlits (t : Nat) (xs : List (Nat × Nat)) (mark : BitVec 3) : List (Flit × Nat) :=
  let k := (xs.length + tagElems t - 1) / tagElems t
  (List.range k).map fun i =>
    let g := (xs.drop (i * tagElems t)).take (tagElems t)
    (mkFlit (ofElems t (g.map (·.1))) t (if i + 1 = k then mark else 0), g.foldl (fun v x => v ||| x.2) 0)

/-- STAGE_CVT (R93, R180): the elements of a row follow each other through its output flits, and a mark ends the row (DEDUCED, log 132). -/
def execStageCvt (cell : Nat) (s : State) : Out :=
  s.fire cell 1 0x21 fun a _ s =>
    let p := s.cp cell
    let f := p.stageFields 1
    if a.tag = 7 then .next (s.flitFault cell 0xA4)
    else
      let rs := drawMap (f.rnd == 5) (fun u e => convElem f.mode (if f.fmt ≤ 1 then f.sat == 3 else f.sat == 1) a.tag f.fmt u e) a.elems (p.lfsrOf 1)
      let s := if f.rnd = 5 then s.modCp cell fun p => { p with lfsr := smPut p.lfsr 1 rs.2 } else s
      let xs := (p.row.outs.map fun v => (v.toNat, p.row.flags)) ++ rs.1.map fun r => (r.code, r.flags)
      let n := if a.marked then xs.length else xs.length / tagElems f.fmt * tagElems f.fmt
      let rest := xs.drop n
      let row := { RowSt.empty with outs := rest.map fun x => BitVec.ofNat 64 x.1, flags := rest.foldl (fun v x => v ||| x.2) 0 }
      .next ((s.modCp cell fun p => { p with row := row }).emitOuts cell 1 (outFlits f.fmt (xs.take n) a.mark))

/-- STAGE_SHUF (R93). -/
def execStageShuf (cell : Nat) (s : State) : Out :=
  s.flitStage cell 1 0x25 fun f a => ofElems 1 ((List.range 16).map fun i =>
    (elems 1 a.data).getD (((i ^^^ f.k % 16) + f.k / 16) % 16) 0)

/-- STAGE_BCAST (R93). -/
def execStageBcast (cell : Nat) (s : State) : Out :=
  s.flitStage cell 1 0x26 fun f a => ofElems 1 (List.replicate 16 ((elems 1 a.data).getD (f.k % 16) 0))

/-! Bit streams (R94) -/

/-- The width of a code of an op. -/
def codeWidth (op : Nat) : Nat := if op = 0x22 || op = 0x24 then 3 else 4

/-- The output tag of a bit-stream op. -/
def bitTag (f : StageF) : Nat := if f.op = 0x22 || f.op = 0x23 then 1 else f.fmt

/-- The op needs a side flit now: LUT8 a table at code 0 of a row, and at each multiple of 128 with k[16]; UNPKQ its scales ahead
of each group of 16 code flits (R94). -/
def CellPlane.needsSide (p : CellPlane) (f : StageF) : Bool :=
  let r := p.row
  match f.op with
  | 0x24 => (r.code == 0 || (bitOf f.k 16 && r.code % 128 == 0)) && r.width / 16 != r.code + 1
  | 0x28 => r.held.isNone && r.group == 0 && r.width / 16 != r.code + 1
  | _ => false

/-- The bits the row holds that no code has taken. -/
def RowSt.left (r : RowSt) : Nat := r.width % 16 + match r.held with | some _ => 512 - r.bit | none => 0

/-- The value a code maps to, and its flags; `table` is S1's stage table, which LUT8 looks it up in (R94). -/
def codeOut (f : StageF) (r : RowSt) (table : BitVec 512) (u code flitNo : Nat) : Nat × Nat :=
  match f.op with
  | 0x22 | 0x23 => (if bitOf f.flags 0 then wrapNat (sextNat code (codeWidth f.op)) 32 else code, 0)
  | 0x24 => ((elems f.fmt table).getD code 0, 0)
  | _ =>
    let scale := lineBytes ((r.side.map (·.data)).getD 0) (4 * (flitNo % 16) + (r.code % 128) / 32) 1
    let v := roundFp (fmtOfTag f.fmt) f.mode (f.sat == 1) u (codeVal scale code)
    (v.code, v.flags)

/-- Takes the next code of the row: its value, and the row after it. Bits that a code leaves in an ended flit are carried in `bits`
and `width` mod 16, the mark of that flit above them in `bits`. -/
def RowSt.takeCode (r : RowSt) (w : Nat) : Nat × RowSt :=
  let have_ := r.width % 16
  let carry := r.bits % 16
  let keep := r.width / 16 * 16
  match r.held with
  | none => (carry, r)
  | some x =>
    let code := (carry + bitsOf x.data.toNat (r.bit + (w - have_) - 1) r.bit * 2 ^ have_) % 2 ^ w
    let mark := markMax r.mark (BitVec.ofNat 3 (r.bits / 16))
    let bit := r.bit + (w - have_)
    let rest := 512 - bit
    if rest = 0 then (code, { r with held := none, bit := 0, bits := 0, width := keep, mark := markMax mark (if x.marked then x.mark else 0) })
    else if rest < w then
      (code, { r with held := none, bit := 0, bits := bitsOf x.data.toNat 511 bit + 16 * (if x.marked then x.mark.toNat else 0),
                      width := keep + rest, mark := mark })
    else (code, { r with bit := bit, bits := 0, width := keep, mark := mark })

/-- The rest of the flit of a row that has ended is discarded; its mark goes on the row's last output. -/
def RowSt.endMark (r : RowSt) : BitVec 3 :=
  markMax (markMax r.mark (BitVec.ofNat 3 (r.bits / 16))) (match r.held with | some x => if x.marked then x.mark else 0 | none => 0)

/-- Where S1's stage table lies in local memory: the start of the stage tables (R90; DESIGN CHOICE, log 131). -/
def tableAt : Nat := 0x15000

/-- Takes codes until an output flit is full, the row ends, or input is needed (R94, R180). -/
def State.runBits (c : Nat) (f : StageF) : Nat → State → State
  | 0, s => s
  | n + 1, s =>
    let p := s.cp c
    let r := p.row
    let w := codeWidth f.op
    let rowLen := f.k % 2 ^ 16
    if p.needsSide f || r.left < w then s
    else
      let l := if f.rnd = 5 && f.op = 0x28 then lfsrNext (p.lfsrOf 1) else p.lfsrOf 1
      let t := r.takeCode w
      let v := codeOut f r (s.localLine c tableAt) l.toNat t.1 (r.group + 15)
      let r' := { t.2 with code := r.code + 1, outs := r.outs ++ [BitVec.ofNat 64 v.1], flags := r.flags ||| v.2 }
      let s := s.modCp c fun p => { p with row := r', lfsr := if f.rnd = 5 && f.op = 0x28 then smPut p.lfsr 1 l else p.lfsr }
      let full := r'.outs.length == tagElems (bitTag f)
      let ends := r'.code == rowLen
      if !full && !ends then State.runBits c f n s
      else
        let mark := if ends then r'.endMark else r'.mark
        let s := s.modCp c fun p => { p with row := if ends then RowSt.empty else { r' with outs := [], mark := 0, flags := 0 } }
        s.emitOuts c 1 [(mkFlit (ofElems (bitTag f) (r'.outs.map (·.toNat))) (bitTag f) mark, r'.flags)]

/-- One turn of a bit-stream op: it takes the side flit or the code flit it needs, or sends an output flit (R94, R178). A side flit that the
stream port holds goes in where one is needed, whatever S1's source is. A data flit where a side flit is needed and no side stream feeds the
cell, and a side flit where none is needed, is dropped and faults with 0xA5. -/
def State.bitStage (s : State) (c op : Nat) : Out := s.stageTurn c 1 op <|
  let p := s.cp c
  let f := p.stageFields 1
  if p.needsSide f then
    let took (x : Flit) (s : State) : Out :=
      let s := if f.op = 0x24 then s.setLocalLine c tableAt x.data else s
      .next ((s.modCp c fun p => { p with row :=
        { p.row with side := if f.op = 0x24 then none else some x, width := p.row.width % 16 + 16 * (p.row.code + 1) } }).touchCell c)
    match p.side, s.head c 1 false with
    | x :: _, _ => took x (s.modCp c fun p => { p with side := p.side.drop 1 })
    | [], .flit x =>
      if x.beat then s.stutter
      else if x.isSide then took x (s.pop c 1 false)
      else if f.srcA = 3 || s.gathers c then s.stutter
      else .next ((s.pop c 1 false).flitFault c 0xA5)
    | [], _ => s.stutter
  else if p.row.left ≥ codeWidth op then .next ((State.runBits c f 130 s).touchCell c)
  else
    match s.head c 1 false with
    | .flit x =>
      if x.beat || p.needsConv 1 false x then s.stutter
      else if x.isSide then
        (if op = 0x24 || op = 0x28 then .next ((s.pop c 1 false).flitFault c 0xA5)
         else .next (((s.pop c 1 false).emit c 1 [x]).touchCell c))
      else
        let s := (s.pop c 1 false).gateTook c 1 x
        .next ((s.modCp c fun p =>
          { p with row := { p.row with held := some x, bit := 0, group := (p.row.group + 1) % 16 } }).touchCell c)
    | _ => s.stutter

/-- STAGE_UNPK3 (R94). -/
def execStageUnpk3 (cell : Nat) (s : State) : Out := s.bitStage cell 0x22
/-- STAGE_UNPK4 (R94). -/
def execStageUnpk4 (cell : Nat) (s : State) : Out := s.bitStage cell 0x23
/-- STAGE_LUT8 (R94, R178, R179). -/
def execStageLut8 (cell : Nat) (s : State) : Out := s.bitStage cell 0x24
/-- STAGE_UNPKQ (R93, R94, R185, R187). -/
def execStageUnpkq (cell : Nat) (s : State) : Out := s.bitStage cell 0x28

/-- Negative infinity, or what stands for it, in a tag (R95, R97). -/
def negInf (t : Nat) : Nat := match t with | 2 => 0xFF800000 | 3 => 0xFC00 | 4 => 0xFF80 | 5 => 0xFE | 6 => 0xFC | _ => 0

/-- STAGE_MASKT (R95): `row.code` counts the flits of the row and `row.group` the bitmaps taken from the held srcB flit. -/
def execStageMaskt (cell : Nat) (s : State) : Out :=
  let p := s.cp cell
  let f := p.stageFields 1
  let keys := f.k % 128
  let epf := tagElems f.fmt
  s.stageTurn cell 1 0x27 <| match s.head cell 1 false with
  | .flit x =>
    if x.isSide then .next (((s.pop cell 1 false).emit cell 1 [x]).touchCell cell)
    else if x.beat || (s.head cell 1 true).beat || p.needsConv 1 false x then s.stutter
    else
      let go (b : Flit) (q : Nat) (bm : BitVec 3) (s : State) : Out :=
        let base := p.row.code * epf
        let xs := (elems f.fmt x.data).zipIdx.map fun e =>
          if base + e.2 < keys && !bitOf b.data.toNat (64 * q + base + e.2) then negInf f.fmt else e.1
        let ends := (p.row.code + 1) * epf ≥ keys
        let s := ((s.pop cell 1 false).gateTook cell 1 x).modCp cell fun p =>
          { p with row := { p.row with side := some b, code := if ends then 0 else p.row.code + 1, group := if ends then (q + 1) % 8 else q } }
        .next ((s.emit cell 1 [mkFlit (ofElems f.fmt xs) f.fmt (markMax x.mark bm)]).touchCell cell)
      if p.row.code ≠ 0 || (p.row.group ≠ 0 && p.row.side.isSome) then go (p.row.side.getD beatFlit) p.row.group 0 s
      else match s.head cell 1 true with
      | .flit b =>
        if b.beat then s.stutter
        else if b.isSide then .next (((s.pop cell 1 true).emit cell 1 [b]).touchCell cell)
        else go b 0 b.mark (s.pop cell 1 true)
      | _ => s.stutter
  | _ => s.stutter

/-! Element ops (R96, R97) -/

/-- The shift amount of SHL, SHR and SRA: k[5:0] with srcB NONE, else B[5:0] (R97). -/
def shiftOf (f : StageF) (b : Nat) : Nat := if f.srcB = 0 then f.k % 64 else b % 64

/-- A divided by 2^k, rounded to an integer by rnd (R97). -/
def rshr (f : StageF) (u : Nat) (a : Int) : Int :=
  if a = 0 then 0 else roundInt f.mode u (.fin (decide (a < 0)) a.natAbs (-(f.k % 64 : Nat)) false)

/-- min(max(A, lo), hi) on exact values. -/
def fclamp (a lo hi : FVal) : FVal := if a.isNan then .nan else if a.lt lo then lo else if hi.lt a then hi else a

/-- STAGE_MUL (R96). -/
def execStageMul (cell : Nat) (s : State) : Out :=
  s.elemStage cell 2 0x40 fun f _ a b => f.hold f.uns (intVal f.uns (tagWidth f.fmt) a * intVal f.uns (tagWidth f.fmt) b)

/-- STAGE_MULK (R96). -/
def execStageMulk (cell : Nat) (s : State) : Out :=
  s.elemStage cell 2 0x41 fun f _ a _ => f.hold false (sextNat a (tagWidth f.fmt) * sextNat f.k 32)

/-- STAGE_FMUL (R96). -/
def execStageFmul (cell : Nat) (s : State) : Out :=
  s.elemStage cell 2 0x42 fun f u a b => f.round u ((f.val a).mul (f.val b))

/-- STAGE_FMULK (R96). -/
def execStageFmulk (cell : Nat) (s : State) : Out :=
  s.elemStage cell 2 0x43 fun f u a _ => f.round u ((f.val a).mul f.kval)

/-- STAGE_ADD (R96). -/
def execStageAdd (cell : Nat) (s : State) : Out :=
  s.elemStage cell 3 0x60 fun f _ a b => f.hold f.uns (intVal f.uns (tagWidth f.fmt) a + intVal f.uns (tagWidth f.fmt) b)

/-- STAGE_ADDK (R96). -/
def execStageAddk (cell : Nat) (s : State) : Out :=
  s.elemStage cell 3 0x61 fun f _ a _ => f.hold false (sextNat a (tagWidth f.fmt) + sextNat f.k 32)

/-- STAGE_FADD (R96). -/
def execStageFadd (cell : Nat) (s : State) : Out :=
  s.elemStage cell 3 0x62 fun f u a b => f.round u (FVal.add (f.rnd == 2) (f.val a) (f.val b))

/-- STAGE_FADDK (R96). -/
def execStageFaddk (cell : Nat) (s : State) : Out :=
  s.elemStage cell 3 0x63 fun f u a _ => f.round u (FVal.add (f.rnd == 2) (f.val a) f.kval)

/-- STAGE_SHL (R97): WRAP keeps the low bits, SAT clamps the exact value. -/
def execStageShl (cell : Nat) (s : State) : Out :=
  s.elemStage cell 4 0x80 fun f _ a b => f.hold false (sextNat a (tagWidth f.fmt) * 2 ^ shiftOf f b)

/-- STAGE_SHR (R97): logical. -/
def execStageShr (cell : Nat) (s : State) : Out :=
  s.elemStage cell 4 0x81 fun f _ a b => a / 2 ^ shiftOf f b

/-- STAGE_SRA (R97): a shift of the width or more gives all sign bits. -/
def execStageSra (cell : Nat) (s : State) : Out :=
  s.elemStage cell 4 0x82 fun f _ a b => wrapNat (sextNat a (tagWidth f.fmt) / 2 ^ shiftOf f b) (tagWidth f.fmt)

/-- STAGE_RSHR (R97). -/
def execStageRshr (cell : Nat) (s : State) : Out :=
  s.elemStage cell 4 0x83 fun f u a _ => f.hold false (rshr f u (sextNat a (tagWidth f.fmt)))

/-- STAGE_CMPEQ (R97). -/
def execStageCmpeq (cell : Nat) (s : State) : Out :=
  s.elemStage cell 4 0x84 fun f _ a b => ifOnes (tagWidth f.fmt) (a == b)

/-- STAGE_CMPLT (R97). -/
def execStageCmplt (cell : Nat) (s : State) : Out :=
  s.elemStage cell 4 0x85 fun f _ a b => ifOnes (tagWidth f.fmt) (decide (intVal f.uns (tagWidth f.fmt) a < intVal f.uns (tagWidth f.fmt) b))

/-- STAGE_FCMPLT (R97). -/
def execStageFcmplt (cell : Nat) (s : State) : Out :=
  s.elemStage cell 4 0x86 fun f _ a b => ifOnes (tagWidth f.fmt) ((f.val a).lt (f.val b))

/-- STAGE_CLAMP (R97). -/
def execStageClamp (cell : Nat) (s : State) : Out :=
  s.elemStage cell 4 0x87 fun f _ a _ => f.hold false (min (max (sextNat a (tagWidth f.fmt)) (sextNat f.k 16)) (sextNat (f.k / 2 ^ 16) 16))

/-- STAGE_FCLAMP (R97): NaN stays NaN. -/
def execStageFclamp (cell : Nat) (s : State) : Out :=
  s.elemStage cell 4 0x88 fun f u a _ => f.round u (fclamp (f.val a) (bf16.decode (f.k % 2 ^ 16)) (bf16.decode (f.k / 2 ^ 16)))

/-- STAGE_RELU (R16). -/
def execStageRelu (cell : Nat) (s : State) : Out :=
  s.elemStage cell 5 0xA1 fun f _ a _ => if (f.val a).isNan then a else if bitOf a (tagWidth f.fmt - 1) then 0 else a

/-- STAGE_LRELU (R97): −0 stays −0. -/
def execStageLrelu (cell : Nat) (s : State) : Out :=
  s.elemStage cell 5 0xA2 fun f u a _ => if (f.val a).lt (.zero false) || (f.val a).isNan then f.round u ((f.val a).mul f.kval) else a

/-- STAGE_EXP2 (R97). -/
def execStageExp2 (cell : Nat) (s : State) : Out :=
  s.elemStage cell 5 0xA4 fun f u a _ => f.round u (f.val a).exp2

/-- STAGE_RCP (R97). -/
def execStageRcp (cell : Nat) (s : State) : Out :=
  s.elemStage cell 5 0xA5 fun f u a _ => f.round u ((FVal.fin false 1 0 false).div (f.val a))

/-- STAGE_RSQRT (R97). -/
def execStageRsqrt (cell : Nat) (s : State) : Out :=
  s.elemStage cell 5 0xA6 fun f u a _ => f.round u (f.val a).rsqrt

/-- STAGE_SIGM (R97). -/
def execStageSigm (cell : Nat) (s : State) : Out :=
  s.elemStage cell 5 0xA7 fun f u a _ => f.round u (f.val a).sigm

/-- STAGE_SAT (R98): clamps to the b-bit range. -/
def execStageSat (cell : Nat) (s : State) : Out :=
  s.elemStage cell 6 0xC0 fun f _ a _ => wrapNat (clampInt f.uns (f.k % 64 + 1) (intVal f.uns (tagWidth f.fmt) a)) (tagWidth f.fmt)

/-! Accumulating ops (R96) -/

/-- ACC and FACC: the entry takes A; after n firings, or at once on a marker, it is sent and cleared (R96, R166). -/
def State.accStage (s : State) (c op : Nat) (e : ElemOp) : Out :=
  s.fire c 3 op fun a b s =>
    let p := s.cp c
    let f := p.stageFields 3
    let entry := f.k % 256
    let off := 0x1000 + 64 * entry
    let old := elems f.fmt (s.localLine c off)
    let r := drawMap (f.rnd == 5) (fun u i => e f u ((elems f.fmt a.data).getD i 0) (old.getD i 0)) (List.range (tagElems f.fmt)) (p.lfsrOf 3)
    let s := if f.rnd = 5 then s.modCp c fun p => { p with lfsr := smPut p.lfsr 3 r.2 } else s
    let n := (smGet ⟨0, 0⟩ p.accs entry).count + 1
    let mark := markMax a.mark b.mark
    if n ≥ bitsOf f.k 23 8 || mark ≠ 0 then
      let s := (s.setLocalLine c off 0).modCp c fun p => { p with accs := smDel p.accs entry }
      .next (s.emit c 3 [mkFlit (ofElems f.fmt r.1) f.fmt mark])
    else .next ((s.setLocalLine c off (ofElems f.fmt r.1)).modCp c fun p => { p with accs := smPut p.accs entry ⟨n, 0⟩ })

/-- STAGE_ACC (R96). -/
def execStageAcc (cell : Nat) (s : State) : Out :=
  s.accStage cell 0x64 fun f _ a b => f.hold false (sextNat a (tagWidth f.fmt) + sextNat b (tagWidth f.fmt))

/-- STAGE_FACC (R96): each addition is rounded once. -/
def execStageFacc (cell : Nat) (s : State) : Out :=
  s.accStage cell 0x65 fun f u a b => f.round u (FVal.add (f.rnd == 2) (f.val b) (f.val a))

/-- STAGE_RSUM (R96): the exact sum, then WRAP or SAT. -/
def execStageRsum (cell : Nat) (s : State) : Out :=
  s.reduceStage cell 3 0x66 fun f _ xs => f.hold false ((xs.map fun x => sextNat x (tagWidth f.fmt)).sum)

/-- STAGE_RMAX (R96). -/
def execStageRmax (cell : Nat) (s : State) : Out :=
  s.reduceStage cell 3 0x67 fun f _ xs =>
    let vs := xs.map fun x => intVal f.uns (tagWidth f.fmt) x
    wrapNat (vs.foldl max (vs.headD 0)) (tagWidth f.fmt)

/-- STAGE_FRSUM (R96): the exact sum, rounded once. -/
def execStageFrsum (cell : Nat) (s : State) : Out :=
  s.reduceStage cell 3 0x68 fun f u xs => f.round u (exactSum (f.rnd == 2) (xs.map f.val))

/-- The larger of two values; −0 is below +0. -/
def fmaxVal (a b : FVal) : FVal := if a.lt b || (a == .zero true && b == .zero false) then b else a

/-- STAGE_FRMAX (R96): −0 below +0, and any NaN gives NaN. -/
def execStageFrmax (cell : Nat) (s : State) : Out :=
  s.reduceStage cell 3 0x69 fun f u xs =>
    let vs := xs.map f.val
    f.round u (if vs.any FVal.isNan then .nan else vs.foldl fmaxVal (vs.headD .nan))

/-- STAGE_SEL (R97): the output keeps srcA's tag, and mask elements are read at srcA's width and place. -/
def execStageSel (cell : Nat) (s : State) : Out :=
  s.fire cell 5 0xA3 fun a b s =>
    let f := (s.cp cell).stageFields 5
    let bs := elems a.tag b.data
    let fill := if bitOf f.flags 0 then negInf a.tag else 0
    let xs := a.elems.zipIdx.map fun e => if bs.getD e.2 0 ≠ 0 then e.1 else fill
    .next (s.emit cell 5 [mkFlit (ofElems a.tag xs) a.tag (markMax a.mark b.mark)])

/-! S6 (R19, R98) -/

/-- STAGE_PACK (R19, R98): packs 16 FP32 lanes into fmt and sends k flits, the first with the values. -/
def execStagePack (cell : Nat) (s : State) : Out :=
  s.fire cell 6 0xC1 fun a b s =>
    let p := s.cp cell
    let f := p.stageFields 6
    let rs := drawMap (f.rnd == 5) (fun u e => convElem f.mode (f.sat == 1) 2 f.fmt u e) (elems 2 a.data) (p.lfsrOf 6)
    let s := if f.rnd = 5 then s.modCp cell fun p => { p with lfsr := smPut p.lfsr 6 rs.2 } else s
    let mark := markMax a.mark b.mark
    let first := ofElems f.fmt (rs.1.map (·.code))
    let outs := (List.range f.k).map fun i =>
      (mkFlit (if i = 0 then first else 0) f.fmt (if i + 1 = f.k then mark else 0), if i = 0 then cvstOf rs.1 else 0)
    .next (s.emitOuts cell 6 outs)

/-- STAGE_ROUTE (R98): to dst and to the second destination. -/
def execStageRoute (cell : Nat) (s : State) : Out :=
  s.fire cell 6 0xC2 fun a b s => .next (s.emit cell 6 [{ a with mark := markMax a.mark b.mark, pmark := (mkFlit a.data a.tag (markMax a.mark b.mark)).pmark }])

/-- STAGE_STORE (R98): the nth flit of the run goes to the STORE ring and on to dst. -/
def execStageStore (cell : Nat) (s : State) : Out :=
  s.fire cell 6 0xC3 fun a b s =>
    let p := s.cp cell
    let f := p.stageFields 6
    let off := 0x16000 + 64 * ((f.k % 128 + p.storeN) % (bitsOf f.k 14 8 + 1))
    let s := (s.setLocalLine cell off a.data).modCp cell fun p => { p with storeN := p.storeN + 1 }
    .next (s.emit cell 6 [mkFlit a.data a.tag (markMax a.mark b.mark)])

/-! QPACK (R98, R185, R192) -/

/-- The magnitudes of a code type, times 16: the largest below zero and above it. -/
def typeMax (ty : Nat) : Nat × Nat := match ty with | 0 => (128, 112) | 1 => (96, 96) | 2 => (128, 128) | _ => (512, 512)

/-- The magnitude of a finite value over 2^(e − 32), times 16, against a bound: whether it is at most `b`. -/
def quotLe (m : Nat) (x : Int) (e b : Nat) : Bool :=
  let d : Int := (e : Int) - 36
  let lo := min x d
  decide (m * 2 ^ (x - lo).toNat ≤ b * 2 ^ (d - lo).toNat)

/-- A value lies within a type's range at an exponent; a NaN is ignored. -/
def inRange (ty e : Nat) (v : FVal) : Bool :=
  match v with
  | .nan | .zero _ => true
  | .inf _ => false
  | .fin neg m x _ => quotLe m x e (if neg then (typeMax ty).1 else (typeMax ty).2)

/-- The smallest exponent that takes every value of a block; none when there is none. -/
def blockExp (ty : Nat) (vs : List FVal) : Option Nat := (List.range 64).find? fun e => vs.all (inRange ty e)

/-- Twice the distance of a quotient's magnitude from a code's magnitude, on a common scale. -/
def codeDist (m : Nat) (x : Int) (e g : Nat) : Nat :=
  let d : Int := (e : Int) - 36
  let lo := min x d
  ((m * 2 ^ (x - lo).toNat : Nat) - (g * 2 ^ (d - lo).toNat : Nat) : Int).natAbs

/-- The code of a value at an exponent: the nearest, a tie to the code whose low bit is 0; a NaN the largest positive code. -/
def blockCode (ty e : Nat) (v : FVal) : Nat :=
  let mags := (List.range 8).map fun i => (codeVal16 ty i).natAbs
  let top := if ty = 0 then 7 else 7
  match v with
  | .nan => top
  | .zero neg => if ty ≠ 0 && neg then 8 else 0
  | .inf neg => if neg then (if ty = 0 then 8 else 15) else 7
  | .fin neg m x _ =>
    let cands := (if ty = 0 && neg then mags ++ [128] else mags).zipIdx
    let best := cands.foldl (fun (acc : Nat × Nat) g =>
      let dg := codeDist m x e g.1
      if dg < acc.1 || (dg == acc.1 && g.2 % 2 == 0) then (dg, g.2) else acc) (codeDist m x e 0, 0)
    if ty = 0 then (if neg then (16 - best.2) % 16 else best.2) else if neg then 8 + best.2 else best.2

/-- The scale byte and codes of a block, with the flags it sets (R98, R192, R193): BSAT when no exponent takes it. -/
def packBlock (ty : Nat) (vs : List FVal) : Nat × List Nat × Nat :=
  let e := blockExp ty vs
  let x := e.getD 63
  let ovf := if e.isNone && vs.any (fun v => !inRange ty 63 v) then 2 else 0
  (ty * 64 + x, vs.map (blockCode ty x), (if vs.any FVal.isNan then 1 else 0) + ovf + if e.isNone then 4 else 0)

/-- A code flit of 128 values with its four scales and flags. -/
def packCode (ty : Nat) (vs : List FVal) : QCode :=
  let bs := (List.range 4).map fun b => packBlock ty ((vs.drop (32 * b)).take 32)
  ⟨mkFlit (BitVec.ofNat 512 (packBits 4 (bs.flatMap fun b => b.2.1))) 7 0, BitVec.ofNat 32 (packBits 8 (bs.map (·.1))),
   bs.foldl (fun f b => f ||| b.2.2) 0⟩

/-- The side flit of held code flits and the code flits with their flags, the last with a mark. -/
def sendCodes (qs : List QCode) (mark : BitVec 3) : List (Flit × Nat) :=
  (mkFlit (BitVec.ofNat 512 (packBits 32 (qs.map fun q => q.scales.toNat))) 7 4, 0) ::
    qs.zipIdx.map fun q => (mkFlit q.1.flit.data 7 (if q.2 + 1 = qs.length then mark else 0), q.1.flags)

/-- STAGE_QPACK (R98): eight input flits make a code flit; 16 of them, or a marker, send their scales and codes. Values that a
marker's flit leaves short are zero. -/
def execStageQpack (cell : Nat) (s : State) : Out :=
  s.fire cell 6 0xC4 fun a b s =>
    let p := s.cp cell
    let f := p.stageFields 6
    let mark := markMax a.mark b.mark
    let vals := p.qvals ++ (elems 2 a.data).map (BitVec.ofNat 32)
    if vals.length < 128 && mark = 0 then .next (s.modCp cell fun p => { p with qvals := vals })
    else
      let q := packCode (f.k % 4) ((vals.map fun v => fp32.decode v.toNat) ++ List.replicate (128 - vals.length) (.zero false))
      let held := p.qcodes ++ [q]
      if held.length < 16 && mark = 0 then .next (s.modCp cell fun p => { p with qvals := [], qcodes := held })
      else .next ((s.modCp cell fun p => { p with qvals := [], qcodes := [] }).emitOuts cell 6 (sendCodes held mark))

end Sys2Proof.Machine
end

