-- ==== Sys2Proof/Machine/Matrix.lean ====
section
/-! DEFINITION. The macro-ops of V-cells: MMA, MMAI, MMAQ, VFMA (R17, R18, R99-R105) and NETX (R106, R195, R293-R295). Their
row state lies in accumulator tag 300 (the row-blocks taken, the SAT bits), tag 301 (1 after a chain partial) and `netx` (MMAQ's
side flit, NETX's features), `bank` (a NETX group in its layers). -/

namespace Sys2Proof.Machine

/-- The fields of k (R17): row-blocks in a row, first window block, bias offset. -/
def StageF.kb (f : StageF) : Nat := bitsOf f.k 7 0
/-- The window block row-block 0 reads. -/
def StageF.first (f : StageF) : Nat := bitsOf f.k 15 8
/-- The bias row's offset in 64-byte units. -/
def StageF.biasOff (f : StageF) : Nat := bitsOf f.k 24 16

/-- Bytes of a cell's window, as a number. -/
def State.window (s : State) (c off n : Nat) : Nat := memRead s.mem (windowBase c + off) n

/-- Element (i, j) of a 1 KiB block of w-bit elements (R18, R99). -/
def blockElem (b w i j : Nat) : Nat := bitsOf b (w * (16 * i + j) + w - 1) (w * (16 * i + j))

/-- Where a macro-op's row stands: the row-blocks it has taken. -/
def CellPlane.rowBlk (p : CellPlane) : Nat := (smGet ⟨0, 0⟩ p.accs 300).count

/-- A row begins: no row-block and no chain partial taken. -/
def CellPlane.rowFresh (p : CellPlane) : Bool := p.rowBlk == 0 && (smGet ⟨0, 0⟩ p.accs 301).count == 0

/-- The accumulator of a row: entry 0, or the bias, or zeros where the row begins without a partial (R17, R100). -/
def State.rowAcc (s : State) (c : Nat) (f : StageF) : List Nat :=
  if (s.cp c).rowFresh then
    (if bitOf f.flags 0 then packedWords (s.window c (64 * f.biasOff) 64) else List.replicate 16 0)
  else packedWords (s.localLine c 0x1000).toNat
where
  /-- The 16 words of a 64-byte row. -/
  packedWords (v : Nat) : List Nat := (List.range 16).map fun j => bitsOf v (32 * j + 31) (32 * j)

/-- A firing's columns done: the row-block counts, and the row's last sends the accumulator with the mark (R17, R100). -/
def State.rowDone (s : State) (c : Nat) (f : StageF) (tag : Nat) (acc : List Nat) (stuck : BitVec 16) (mark : BitVec 3) : Out :=
  let blk := (s.cp c).rowBlk + 1
  let line := ofElems tag acc
  let s := s.setLocalLine c 0x1000 line
  if blk ≥ f.kb || mark ≠ 0 then
    let s := s.modCp c fun p => { p with accs := smDel (smDel p.accs 300) 301, netx := [] }
    .next (s.emit c 2 [mkFlit line tag mark])
  else
    .next (s.modCp c fun p => { p with accs := smDel (smPut p.accs 300 ⟨blk, stuck⟩) 301, netx := if blk % 16 = 0 then [] else p.netx })

/-- Adds the group sums of some column terms to an FP32 accumulator, each with one rounding (R17, R101). One draw is taken per
column under SR (R189). -/
def State.addGroup (s : State) (c : Nat) (f : StageF) (acc : List Nat) (terms : Nat → List FVal) : List Nat × State :=
  let rdn := f.rnd == 2
  let r := drawMap (f.rnd == 5) (fun u j =>
    (roundFp fp32 f.mode (f.sat == 1) u (FVal.add rdn (fp32.decode (acc.getD j 0)) (exactSum rdn (terms j)))).code)
    (List.range 16) ((s.cp c).lfsrOf 2)
  (r.1, if f.rnd = 5 then s.modCp c fun p => { p with lfsr := smPut p.lfsr 2 r.2 } else s)

/-- The products of a column over some K-rows. -/
def columnTerms (f : StageF) (a : List Nat) (b w lo n j : Nat) : List FVal :=
  (upFrom lo n).map fun i => (f.val (a.getD i 0)).mul (f.val (blockElem b w i j))

/-- STAGE_MMA (R17, R99-R101): a row-block, or a chain partial at the start of a row. A partial is no row-block, so that a marker on it ends
no row (DEDUCED, log 73). -/
def execStageMma (cell : Nat) (s : State) : Out :=
  s.fire cell 2 0xE0 fun a _ s =>
    let p := s.cp cell
    let f := p.stageFields 2
    if p.isPartial f a then
      .next ((s.setLocalLine cell 0x1000 a.data).modCp cell fun p => { p with accs := smPut p.accs 301 ⟨1, 0⟩ })
    else
      let w := tagWidth f.fmt
      let b := s.window cell (1024 * (f.first + p.rowBlk)) 1024
      let xs := elems f.fmt a.data
      let acc := s.rowAcc cell f
      if f.fmt = 2 then
        let r := s.addGroup cell f acc (columnTerms f xs b w 0 8)
        let r := r.2.addGroup cell f r.1 (columnTerms f xs b w 8 8)
        r.2.rowDone cell f 2 r.1 0 a.mark
      else
        let r := s.addGroup cell f acc (columnTerms f xs b w 0 (tagElems f.fmt))
        r.2.rowDone cell f 2 r.1 0 a.mark

/-- One column of MMAI (R102): the new accumulator and its sticky bit. -/
def mmaiColumn (sat : Nat) (acc : Nat) (stuck : Bool) (g : Int) : Nat × Bool :=
  let v := sextNat acc 32 + g
  if sat = 2 then (wrapNat v 32, false)
  else if stuck then (acc, true)
  else if v > 2 ^ 31 - 1 then (2 ^ 31 - 1, true)
  else if v < -(2 ^ 31) then (2 ^ 31, true)
  else (wrapNat v 32, false)

/-- STAGE_MMAI (R99, R102, R103): raw bytes, signed or unsigned by flags 1 and 2. -/
def execStageMmai (cell : Nat) (s : State) : Out :=
  s.fire cell 2 0xE1 fun a _ s =>
    let p := s.cp cell
    let f := p.stageFields 2
    let b := s.window cell (1024 * (f.first + p.rowBlk)) 1024
    let acc := s.rowAcc cell f
    let stuck := if p.rowFresh then 0 else (smGet ⟨0, 0⟩ p.accs 300).stuck
    let col (j : Nat) : Nat × Bool :=
      let g := ((List.range 64).map fun i =>
        intVal (bitOf f.flags 1) 8 (bitsOf a.data.toNat (8 * i + 7) (8 * i)) * intVal (bitOf f.flags 2) 8 (blockElem b 8 i j)).sum
      mmaiColumn f.sat (acc.getD j 0) (bitOf stuck.toNat j) g
    let cols := (List.range 16).map col
    s.rowDone cell f 1 (cols.map (·.1)) (BitVec.ofNat 16 (packBits 1 (cols.map fun x => if x.2 then 1 else 0))) a.mark

/-- The products of a column of MMAQ: code × scale × code × scale, exactly (R104, R187). `sa` and `sb` give the scale bytes. -/
def mmaqTerms (a b : Nat) (sa : Nat → Nat) (sb : Nat → Nat → Nat) (j : Nat) : List FVal :=
  (List.range 128).map fun i =>
    (codeVal (sa (i / 32)) (bitsOf a (4 * i + 3) (4 * i))).mul (codeVal (sb (i / 32) j) (blockElem b 4 i j))

/-- STAGE_MMAQ (R94, R99, R104): a side flit ahead of each group of 16 code flits of a row, then row-blocks. A flit of the other kind
than it needs is dropped with 0xA5. -/
def execStageMmaq (cell : Nat) (s : State) : Out :=
  let p := s.cp cell
  let f := p.stageFields 2
  s.stageTurn cell 2 0xE2 <| match s.head cell 2 false with
  | .flit x =>
    if x.beat || p.needsConv 2 false x then s.stutter
    else if x.isSide then
      (if p.netx.isEmpty then .next (((s.pop cell 2 false).modCp cell fun p => { p with netx := [x] }).touchCell cell)
       else .next ((s.pop cell 2 false).flitFault cell 0xA5))
    else match p.netx with
    | [] => .next ((s.pop cell 2 false).flitFault cell 0xA5)
    | side :: _ =>
      let blk := p.rowBlk
      let s := (s.pop cell 2 false).touchCell cell
      let b := s.window cell (1024 * (f.first + blk)) 1024
      let row := s.window cell (64 * (f.biasOff + 1 + blk)) 64
      let sa (i : Nat) : Nat := lineBytes side.data (4 * (blk % 16) + i) 1
      let sb (i j : Nat) : Nat := bitsOf row (8 * (16 * i + j) + 7) (8 * (16 * i + j))
      let r := s.addGroup cell f (s.rowAcc cell f) (mmaqTerms x.data.toNat b sa sb)
      r.2.rowDone cell f 2 r.1 0 x.mark
  | _ => s.stutter

/-- STAGE_VFMA (R105): A × B + C fused, C a lane register, which flag 0 also writes. -/
def execStageVfma (cell : Nat) (s : State) : Out :=
  s.fire cell 2 0xE3 fun a b s =>
    let p := s.cp cell
    let f := p.stageFields 2
    let reg := f.k % 64
    let c := elems f.fmt (s.laneReg cell reg)
    let xs := elems f.fmt a.data
    let ys := elems f.fmt b.data
    let r := drawMap (f.rnd == 5) (fun u i =>
      f.round u (FVal.add (f.rnd == 2) ((f.val (xs.getD i 0)).mul (f.val (ys.getD i 0))) (f.val (c.getD i 0))))
      (List.range (tagElems f.fmt)) (p.lfsrOf 2)
    let s := if f.rnd = 5 then s.modCp cell fun p => { p with lfsr := smPut p.lfsr 2 r.2 } else s
    let out := ofElems f.fmt r.1
    let s := if bitOf f.flags 0 then s.setLaneReg cell reg out else s
    .next (s.emit cell 2 [mkFlit out f.fmt (markMax a.mark b.mark)])

/-! NETX -/

/-- A network shape record's fields (R293). -/
structure Shape where
  layers : Nat
  widths : List Nat
  wfmt : Nat
  policy : Nat
  acts : List Nat
  woff : List Nat
  boff : List Nat
  slope : Nat
  ok : Bool
  deriving DecidableEq, Repr

/-- Rounds up to a multiple of 64. -/
def up64 (n : Nat) : Nat := (n + 63) / 64 * 64

/-- The bytes a weight array takes (R293). -/
def weightBytes (fmt n : Nat) : Nat := if fmt = 7 then up64 (16 * ((n + 31) / 32)) + (n + 31) / 32 else (n * tagWidth fmt + 7) / 8

/-- Reads and checks the shape record at a window offset (R195, R293). -/
def State.shape (s : State) (c off : Nat) : Shape :=
  let size := 8192 * s.carved c
  let r := s.window c off 64
  let byte (i : Nat) : Nat := recField r i 1
  let n := byte 0 % 8
  let widths := (List.range 5).map fun i => byte (1 + i)
  let acts := (List.range 4).map fun i => byte (8 + i)
  let woff := (List.range 4).map fun i => recField r (16 + 2 * i) 2
  let boff := (List.range 4).map fun i => recField r (24 + 2 * i) 2
  let wfmt := byte 6 % 8
  let layerOk (j : Nat) : Bool :=
    let prev := widths.getD j 0
    let this := widths.getD (j + 1) 0
    if j < n then
      decide (1 ≤ this) && decide (this ≤ 64) && decide (acts.getD j 0 ≤ 3) &&
        decide (64 * woff.getD j 0 + weightBytes wfmt (prev * this) ≤ size) &&
        (boff.getD j 0 == 0xFFFF || decide (64 * boff.getD j 0 + 4 * this ≤ size))
    else this == 0 && acts.getD j 0 == 0 && woff.getD j 0 == 0 && boff.getD j 0 == 0
  let ok := decide (off + 64 ≤ size) && byte 0 < 8 && decide (1 ≤ n) && decide (n ≤ 4) && decide (1 ≤ byte 1) && decide (byte 1 ≤ 64) &&
    decide (2 ≤ wfmt) && byte 6 < 8 && byte 7 < 8 && recField r 12 4 == 0 && recField r 36 28 == 0 && (List.range 4).all layerOk
  ⟨n, widths, wfmt, byte 7, acts, woff, boff, recField r 32 4, ok⟩

/-- The exact value of a weight (R186, R293). -/
def State.weight (s : State) (c : Nat) (h : Shape) (j n e : Nat) : FVal :=
  let base := 64 * h.woff.getD j 0
  if h.wfmt = 7 then
    codeVal (s.window c (base + up64 (16 * ((n + 31) / 32)) + e / 32) 1) (bitsOf (s.window c (base + e / 2) 1) (4 * (e % 2) + 3) (4 * (e % 2)))
  else
    let w := tagWidth h.wfmt / 8
    (fmtOfTag h.wfmt).decode (s.window c (base + w * e) w)

/-- An activation of an FP32 code, rounded once to FP32 (R294). -/
def activate (a slope z : Nat) : Rounded :=
  let v := fp32.decode z
  let same : Rounded := ⟨z, false, false⟩
  match a with
  | 1 => if v.isNan then same else if bitOf z 31 then ⟨0, false, false⟩ else same
  | 2 => if v.lt (.zero false) || v.isNan then roundFp fp32 .rne false 0 (v.mul (fp32.decode slope)) else same
  | 3 => roundFp fp32 .rne false 0 v.sigm
  | _ => same

/-- What a layer or a network gives: its values as FP32 codes, whether a value was NaN, whether a rounding overflowed. -/
structure NetOut where
  vals : List Nat
  nan : Bool
  ovf : Bool
  deriving DecidableEq, Repr

/-- One layer for one lane (R294). -/
def State.layer (s : State) (c : Nat) (h : Shape) (j : Nat) (x : NetOut) : NetOut :=
  let prev := h.widths.getD j 0
  let this := h.widths.getD (j + 1) 0
  let bias (o : Nat) : FVal := if h.boff.getD j 0 = 0xFFFF then .zero false else fp32.decode (s.window c (64 * h.boff.getD j 0 + 4 * o) 4)
  let one (o : Nat) : Rounded :=
    roundFp fp32 .rne false 0 (exactSum false (bias o :: (List.range prev).map fun i =>
      (fp32.decode (x.vals.getD i 0)).mul (s.weight c h j (prev * this) (i * this + o))))
  let rs := (List.range this).map one
  let zs := rs.map fun r => activate (h.acts.getD j 0) h.slope r.code
  let clean := zs.map fun z => if bitOf h.policy 1 && (fp32.decode z.code).isNan then 0 else z.code
  ⟨clean, x.nan || zs.any (fun z => (fp32.decode z.code).isNan), x.ovf || rs.any (·.ovf) || zs.any (·.ovf)⟩

/-- The features of a lane, exact in FP32; missing ones are zero (R294, R295). -/
def laneFeatures (fmt epl w0 : Nat) (xs : List Flit) (lane : Nat) : List Nat :=
  (List.range w0).map fun i =>
    match xs[i / epl]? with
    | some x => (roundFp fp32 .rne false 0 ((fmtOfTag fmt).decode ((elems fmt x.data).getD (lane * epl + i % epl) 0))).code
    | none => 0

/-- Rounds the outputs of a group into a stage's tag, in element order within each flit (R189, R294). -/
def netRound (f : StageF) (sat : Bool) (epl w : Nat) (lanes : List NetOut) (l : BitVec 32) : List (List Rounded) × BitVec 32 :=
  (List.range ((w + epl - 1) / epl)).foldl (fun (acc : List (List Rounded) × BitVec 32) k =>
    let vals := (List.range (16 * epl)).filterMap fun e =>
      let i := k * epl + e % epl
      if i < w then some (((lanes.getD (e / epl) ⟨[], false, false⟩).vals).getD i 0) else none
    let r := drawMap (f.rnd == 5) (fun u z => roundFp (fmtOfTag f.fmt) f.mode sat u (fp32.decode z)) vals acc.2
    (acc.1 ++ [r.1], r.2)) ([], l)

/-- An output flit of a group from its rounded values; elements beyond the last layer's width are zero. -/
def netFlit (f : StageF) (epl w k : Nat) (rs : List Rounded) (mark : BitVec 3) : Flit :=
  let per := min epl (w - k * epl)
  mkFlit (ofElems f.fmt ((List.range (16 * epl)).map fun e => if e % epl < per then ((rs.map (·.code)).getD (e / epl * per + e % epl) 0) else 0)) f.fmt mark

/-- A NETX group whose features are in: its lanes at layer 0, each with its features (R294). -/
def netStart (f : StageF) (epl w0 : Nat) (xs : List Flit) (mark : BitVec 3) : NetBank :=
  let lanes := (List.range 16).map fun lane => laneFeatures f.fmt epl w0 xs lane
  let clean := lanes.map fun l => if l.any (fun v => (fp32.decode v).isNan) then 0 else 1
  ⟨0, lanes.map fun l => l.map (BitVec.ofNat 32), BitVec.ofNat 16 (packBits 1 clean), 0, false, mark⟩

/-- One layer of a group, for each of its lanes (R294). -/
def State.netLayer (s : State) (c : Nat) (h : Shape) (b : NetBank) : NetBank :=
  let outs := b.lanes.map fun l => s.layer c h b.layer ⟨l.map (·.toNat), false, false⟩
  { b with layer := b.layer + 1, lanes := outs.map fun o => o.vals.map (BitVec.ofNat 32),
           nan := b.nan ||| BitVec.ofNat 16 (packBits 1 (outs.map fun o => if o.nan then 1 else 0)), ovf := b.ovf || outs.any (·.ovf) }

/-- A group past its last layer sends its outputs, or faults under the policy's trap bit (R195, R294). The inputs of R195's trap are the
features of a lane (log 44). -/
def State.netSend (s : State) (c : Nat) (f : StageF) (h : Shape) (b : NetBank) : Out :=
  let epl := if f.fmt = 2 then 1 else 2
  let w := h.widths.getD h.layers 0
  let out := netRound f (bitOf h.policy 0 && f.fmt != 2) epl w (b.lanes.map fun l => ⟨l.map (·.toNat), false, false⟩) ((s.cp c).lfsrOf 2)
  let s := s.modCp c fun p => { p with bank := none, lfsr := if f.rnd = 5 then smPut p.lfsr 2 out.2 else p.lfsr }
  let nan := b.nan &&& b.clean != 0
  let ovf := b.ovf || out.1.any fun rs => rs.any (·.ovf)
  let flags := (if nan || out.1.any (fun rs => rs.any (·.inv)) then 1 else 0) + if ovf then 2 else 0
  if bitOf h.policy 2 && (nan || ovf) then .next ((s.setCvst c flags).faultCell c 0xA0 0)
  else .next (s.emitOuts c 2 (out.1.zipIdx.map fun g =>
    (netFlit f epl w g.2 g.1 (if g.2 + 1 = out.1.length then b.mark else 0), if g.2 = 0 then flags else 0)))

/-- STAGE_NETX (R106, R195, R294, R295): it takes a feature flit, or does one layer of the group whose features are in; the last layer sends the
outputs. The record is checked each time, and a failing one discards the group. Between two of these a freeze may fall (R309; log 133). -/
def execStageNetx (cell : Nat) (s : State) : Out :=
  let p := s.cp cell
  let f := p.stageFields 2
  let h := s.shape cell (64 * (f.k % 512))
  match p.bank with
  | some b => s.stageTurn cell 2 0xE4 <|
    let s := s.touchCell cell
    if !h.ok then .next ((s.modCp cell fun p => { p with bank := none }).faultCell cell 0xA6 0)
    else
      let b := s.netLayer cell h b
      if b.layer ≥ h.layers then s.netSend cell f h b else .next (s.modCp cell fun p => { p with bank := some b })
  | none => s.fire cell 2 0xE4 fun a _ s =>
    let epl := if f.fmt = 2 then 1 else 2
    let xs := p.netx ++ [a]
    let w0 := h.widths.getD 0 0
    if !h.ok then .next ((s.modCp cell fun p => { p with netx := [] }).faultCell cell 0xA6 0)
    else if xs.length < (w0 + epl - 1) / epl && !a.marked then .next (s.modCp cell fun p => { p with netx := xs })
    else .next (s.modCp cell fun p => { p with netx := [], bank := some (netStart f epl w0 xs a.mark) })

end Sys2Proof.Machine
end

