-- ==== Sys2Proof/Machine/Mesh.lean ====
section
/-! DEFINITION. The static mesh (R20, R111, R112), the event network (R44, R80, R113), B-cells (R69, R114) and the parity log with
the list of bad cells (R342, R343). -/

namespace Sys2Proof.Machine

/-! Parity log and bad cells -/

/-- The first valid-bit-clear entry of BADNODE. -/
def State.freeBad (s : State) (die : Nat) : Option Nat := (List.range 64).find? fun i => !bitOf (s.reg die (0x800 + 8 * i)).toNat 63

/-- The hardware adds a cell to BADNODE, or writes a Vault event when there is no free entry (R343). -/
def State.addBad (s : State) (c cause : Nat) : State :=
  let die := cellDie c
  match s.freeBad die with
  | some i => s.setReg die (0x800 + 8 * i) (BitVec.ofNat 64 (2 ^ 63 + cause * 2 ^ 48 + (destCode c).toNat))
  | none => s.vault die ⟨0x12, cause, 0, (destCode c).toNat, 0, 0, 0⟩

/-- The cell that drives a port of a checking cell: ports 0 N, 1 E, 2 S, 3 W, 4 the cell itself. -/
def portDriver (c port : Nat) : Nat := if port = 4 then c else (neighbour c port).getD c

/-- The place of a PLOG entry: cause, port and cell. -/
def plogPlace (c port cause : Nat) : Nat := cause * 2 ^ 48 + port * 2 ^ 45 + (destCode c).toNat

/-- Logs a parity failure (R342): a further failure at a logged place raises its count; a port whose count reaches 4 lists its
driver as bad (R343). -/
def State.plog (s : State) (c port cause : Nat) : State :=
  let die := cellDie c
  let entry (i : Nat) : Nat := (s.reg die (0xA08 + 8 * i)).toNat
  let place := plogPlace c port cause
  match (List.range 16).find? fun i => bitOf (entry i) 63 && entry i % 2 ^ 56 == place with
  | some i =>
    let n := min (bitsOf (entry i) 62 56 + 1) 127
    let s := s.setReg die (0xA08 + 8 * i) (BitVec.ofNat 64 (2 ^ 63 + n * 2 ^ 56 + place))
    if n = 4 then s.addBad (portDriver c port) cause else s
  | none =>
    let ctl := (s.reg die 0xA00).toNat
    let head := ctl % 16
    let lost := bitOf ctl 63 || bitOf (entry head) 63
    let s := s.setReg die (0xA08 + 8 * head) (BitVec.ofNat 64 (2 ^ 63 + 2 ^ 56 + place))
    s.setReg die 0xA00 (BitVec.ofNat 64 ((if lost then 2 ^ 63 else 0) + (head + 1) % 16))

/-! Switch boxes -/

/-- The outputs of a cell's box that name an input: codes 1 N, 2 E, 3 S, 4 W, 5 the cell output. -/
def CellPlane.named (p : CellPlane) (code : Nat) : List Nat := (List.range 5).filter fun o => routeSrc p.route.toNat o == code

/-- Every output of a multicast has room. -/
def CellPlane.boxRoom (p : CellPlane) (outs : List Nat) : Bool := outs.all fun o => (p.box o).length < 2

/-- A flit enters every output of a box that names its input. -/
def CellPlane.intoBox (p : CellPlane) (outs : List Nat) (x : Flit) : CellPlane := outs.foldl (fun p o => p.setBox o (p.box o ++ [x])) p

/-- A begun STRM.OUT or STRM.SCAT takes the flits of a cell's output. -/
def State.taken (s : State) (c : Nat) : Bool :=
  s.tiles.any fun t => t.2.ports.any fun q => q.2.entries.any fun e =>
    match e with | .cmd x => (x.op == 1 || x.op == 3) && x.cell == c && x.begun | .fence _ => false

/-- The parity of a flit is even (R86). -/
def Flit.parityOk (x : Flit) : Bool := x.plane == (mkFlit x.data x.tag x.mark).plane && x.pmark == (mkFlit x.data x.tag x.mark).pmark

/-- Moves the head of a box output over its link into the neighbour's box, or the head of the cell output (`out` of 4 and above) into
the cell's own box and, of a B-cell, its stream output (R69, R111). The flit leaves only when every taker has room. `upset` is a
parity failure: the flit is dropped, logged, and faults with 0xC1 (R112). -/
def State.boxMove (s : State) (c out : Nat) (upset : Bool) (ok : Flit → Bool) : Out :=
  if !s.cellGoes c then s.stutter
  else if out < 4 then
    match (s.cp c).box out, neighbour c out with
    | x :: r, some m =>
      let p := s.cp m
      let outs := p.named (facing out + 1)
      if !ok x || outs.isEmpty || !p.boxRoom outs || cellCol m ≥ 48 then s.stutter
      else
        let s := s.modCp c fun p => p.setBox out r
        if !x.beat && (upset || !x.parityOk) then .next (((s.plog m (facing out) 0xC1).faultCell m 0xC1 0).touchCell m)
        else .next ((s.modCp m fun p => p.intoBox outs x).touchCell c)
    | _, _ => s.stutter
  else
    let p := s.cp c
    match p.link lkOut with
    | x :: r =>
      let outs := p.named 5
      let stream := isBCell c && s.taken c
      if !ok x || (outs.isEmpty && !stream) || !p.boxRoom outs || (stream && (p.link lkSout).length ≥ 2) then s.stutter
      else
        let s := s.modCp c fun p => p.setLink lkOut r
        if !x.beat && (upset || !x.parityOk) then .next (((s.plog c 4 0xC1).faultCell c 0xC1 0).touchCell c)
        else
          let s := s.modCp c fun p => p.intoBox outs x
          .next ((if stream && !x.beat then s.modCp c fun p => p.setLink lkSout (p.link lkSout ++ [x]) else s).touchCell c)
    | [] => s.stutter

/-- FLIT_HOP (R111, R112). -/
def execFlitHop (cell out : Nat) (upset : Bool) (s : State) : Out := s.boxMove cell out upset fun x => !x.beat

/-! The event network -/

/-- A pulse enters a box by a source code: every output of the event route word that names it carries it on. -/
def State.pulse (s : State) (c code : Nat) : State :=
  s.modCp c fun p =>
    let outs := (List.range 5).filter fun o => routeSrc p.evroute.toNat o == code
    { p with events := outs.foldl (fun e o => smPut e o (smGet 0 e o + 1)) p.events }

/-- EVENT_PULSE (R113): a pulse moves on to the neighbour's event box, or reaches the cell, where an EGATE V-cell gains a credit and any
other cell discards it. -/
def execEventPulse (cell out : Nat) (s : State) : Out :=
  let p := s.cp cell
  match smFind p.events out with
  | none => s.stutter
  | some n =>
    let s := s.modCp cell fun p => { p with events := if n ≤ 1 then smDel p.events out else smPut p.events out (n - 1) }
    if out < 4 then
      (match neighbour cell out with
       | some m => .next (s.pulse m (facing out + 1))
       | none => .next s)
    else if isVCell cell && bitOf (p.stageFields 1).flags 3 && (stageF (p.stage 1)).op / 32 == 1 then
      .next (s.modCp cell fun p => { p with egate := if p.egate = 65535 then p.egate else p.egate + 1 })
    else .next s

/-- EVT (R80): a pulse at the event box of a cell of the lead tile, as its code 5 source. -/
def execEvt (line : BitVec 4) (s : State) : Out := .next (s.nextStep.pulse (cellOf s.tile line.toNat) 5)

/-! B-cells -/

/-- The head of a B-cell's input: its box, or its stream input when the route word gives CELL no source (R69). -/
def CellPlane.bIn (p : CellPlane) : List Flit := if routeSrc p.route.toNat 4 = 0 then p.link lkSin else p.box 4

/-- Takes the head of a B-cell's input. -/
def CellPlane.bPop (p : CellPlane) : CellPlane :=
  if routeSrc p.route.toNat 4 = 0 then p.setLink lkSin ((p.link lkSin).drop 1) else p.setBox 4 ((p.box 4).drop 1)

/-- The mode of a B-cell that goes on. -/
def State.bRuns (s : State) (c mode : Nat) : Bool := isBCell c && s.cellGoes c && bmMode (s.bMode c) == mode

/-- The local offset of a flit of a region. -/
def regionAt (m i : Nat) : Nat := bmBase m + 64 * i

/-- FIFO_APPEND (R114, R113): a flit joins the FIFO; reaching aux raises the cell's event output. -/
def execFifoAppend (cell : Nat) (s : State) : Out :=
  let p := s.cp cell
  let m := p.mode.toNat
  let cap := bitsOf m 11 0
  match p.bIn with
  | x :: _ =>
    if !s.bRuns cell 2 || x.beat || p.fifoTags.length ≥ cap then s.stutter
    else
      let n := p.fifoTags.length
      let s := (s.modCp cell fun p => { p.bPop with fifoTags := p.fifoTags ++ [(x.fmt, x.mark)] }).setLocalLine cell
        (regionAt m ((p.fifoRd + n) % cap)) x.data
      .next ((if n + 1 = bitsOf m 35 24 then s.pulse cell 5 else s).touchCell cell)
  | [] => s.stutter

/-- FIFO_LEAVE (R114): the oldest flit leaves on the cell output. -/
def execFifoLeave (cell : Nat) (s : State) : Out :=
  let p := s.cp cell
  let m := p.mode.toNat
  match p.fifoTags with
  | t :: r =>
    if !s.bRuns cell 2 || (p.link lkOut).length ≥ 2 then s.stutter
    else
      let x := mkFlit (s.localLine cell (regionAt m p.fifoRd)) t.1.toNat t.2
      .next ((s.modCp cell fun p =>
        { (p.setLink lkOut (p.link lkOut ++ [x])) with fifoTags := r, fifoRd := (p.fifoRd + 1) % bitsOf m 11 0 }).touchCell cell)
  | [] => s.stutter

/-- LINEBUF_APPEND (R114): a flit fills its line; once aux lines are held it sends the flits of its column in the held lines, oldest
first, with its tag and its marker on the last (DEDUCED, log 45); they leave one at a time, ahead of the next arriving flit's. `fifoRd` counts the
flits taken. -/
def execLinebufAppend (cell : Nat) (s : State) : Out :=
  let p := s.cp cell
  let m := p.mode.toNat
  let per := bitsOf m 47 36 / 16
  let lines := bitsOf m 35 24
  if !s.bRuns cell 3 || (p.link lkOut).length ≥ 2 then s.stutter
  else match smGet [] p.pend 7 with
  | x :: r => .next ((s.modCp cell fun p =>
      { (p.setLink lkOut (p.link lkOut ++ [x.1])) with pend := if r.isEmpty then smDel p.pend 7 else smPut p.pend 7 r }).touchCell cell)
  | [] => match p.bIn with
  | x :: _ =>
    if x.beat then s.stutter
    else
      let n := p.fifoRd
      let col := n % per
      let line := n / per
      let at_ (l : Nat) : Nat := regionAt m (l % lines * per + col)
      let group := if line < lines then [] else (upFrom (line - lines) lines).map fun l =>
        mkFlit (s.localLine cell (at_ l)) x.tag (if l + 1 = line then x.mark else 0)
      let rest := (group.drop 1).map fun x => (x, 0)
      let s := s.modCp cell fun p =>
        { (p.bPop.setLink lkOut (p.link lkOut ++ group.take 1)) with fifoRd := n + 1, pend := if rest.isEmpty then p.pend else smPut p.pend 7 rest }
      .next ((s.setLocalLine cell (at_ line) x.data).touchCell cell)
  | [] => s.stutter

end Sys2Proof.Machine
end

