-- ==== Sys2Proof/Machine/Tokens.lean ====
section
/-! DEFINITION. Tokens (R128-R130), tag pools (R136-R138), places at a consumer (R119, R120, R131), arrival at a slot (R131, R134, R135,
R308, R315), and the slot kinds that act without the issue slot (R120, R121, R132-R134, R164). -/

namespace Sys2Proof.Machine

/-! Tokens -/

/-- A tag: context, iteration, loop-nest level. -/
structure Tag where
  ctx : BitVec 8
  iter : BitVec 10
  lvl : BitVec 3
  deriving DecidableEq, Repr

/-- Bits [125:64] of a token (R128). -/
def Token.ctlBits (t : Token) : Nat :=
  t.fmt.toNat + t.head.toNat * 2 ^ 3 + t.beats.toNat * 2 ^ 4 + t.iter.toNat * 2 ^ 7 + t.ctx.toNat * 2 ^ 17 + t.lvl.toNat * 2 ^ 25 +
    t.field.toNat * 2 ^ 28 + t.slot.toNat * 2 ^ 30 + t.dest.toNat * 2 ^ 36 + t.aux.toNat * 2 ^ 54

/-- The parity bit of a number of n bits. -/
def parityBit (v n : Nat) : BitVec 1 := if parityOf v n then 1 else 0

/-- A token with its parity bits. -/
def Token.seal (t : Token) : Token := { t with pctl := parityBit t.ctlBits 62, pdata := parityBit t.data.toNat 64 }

/-- Both parity bits of a token are right. -/
def Token.parityOk (t : Token) : Bool := t.pctl == parityBit t.ctlBits 62 && t.pdata == parityBit t.data.toNat 64

/-- The tag of a token. -/
def Token.tag (t : Token) : Tag := ⟨t.ctx, t.iter, t.lvl⟩

/-- A token to a slot. -/
def mkTok (dest : BitVec 18) (slot field : Nat) (g : Tag) (fmt : BitVec 3) (aux : BitVec 8) (data : Word) : Token :=
  Token.seal ⟨0, 0, aux, dest, BitVec.ofNat 6 slot, BitVec.ofNat 2 field, g.lvl, g.ctx, g.iter, 0, 1, fmt, data⟩

/-- The beats of a packet of a head token (R135). -/
def followers (t : Token) : List Word → Nat → List Token
  | [], _ => []
  | w :: r, i => Token.seal { t with data := w, head := 0, beats := BitVec.ofNat 3 i } :: followers t r (i + 1)

/-- The two-bit code and place of a command's reply (R46): the cell, slot and field; zero for none. A sequencer is named by row 80 + tile row and
column 8·tile column. -/
def ReplyTo.bits : ReplyTo → Nat
  | .none => 0
  | .seq t | .dep t _ => tileDie t * 2 ^ 14 + (80 + tileLocal t / 10) * 2 ^ 7 + 8 * (tileLocal t % 10)
  | .cell d sl f _ _ _ => d.toNat + sl.toNat * 2 ^ 18 + f.toNat * 2 ^ 24

/-- The home of a command as its packet's dest: row 0x7F for the Concordance and 0x7E for the Granary, column 0x7F (R46). -/
def SyncCmd.dest (c : SyncCmd) (die : Nat) : BitVec 18 :=
  BitVec.ofNat 18 (die * 2 ^ 14 + (if c.code.toNat / 16 = 3 then 0x7E else 0x7F) * 2 ^ 7 + 0x7F)

/-- The packet of a command to a die from a requester with a tag (R46): the head, the address, operand A, and for CAS the swap value. -/
def SyncCmd.packet (c : SyncCmd) (die : Nat) (g : Tag) : List Token :=
  let red := bitOf c.code.toNat 7
  let beats := if c.code = 0x0B then 3 else 2
  let head := Token.seal ⟨0, 0, c.code, c.dest die, 0, 3, g.lvl, g.ctx, g.iter, BitVec.ofNat 3 beats, 1, c.fmt,
    BitVec.ofNat 64 ((if red then 0 else c.reply.bits) + c.scope.toNat * 2 ^ 26)⟩
  head :: followers head ([BitVec.ofNat 64 (c.addr % 2 ^ 52), c.a] ++ if c.code = 0x0B then [c.b] else []) 1

/-- Bits [45:0] of a predicate flit (R129). -/
def Token.predBits (t : Token) : Nat :=
  t.data.toNat % 2 + t.iter.toNat * 2 + t.ctx.toNat * 2 ^ 11 + t.lvl.toNat * 2 ^ 19 + t.slot.toNat * 2 ^ 22 + t.dest.toNat * 2 ^ 28

/-- A predicate flit's 48 bits: even parity over [45:0] in bit 46 (R129). -/
def Token.predFlit (t : Token) : BitVec 48 := BitVec.ofNat 48 (t.predBits + parityOf46 t * 2 ^ 46)
where
  /-- The parity bit of a predicate flit. -/
  parityOf46 (t : Token) : Nat := (parityBit t.predBits 46).toNat

/-- A token as a predicate flit carries it: its place, its tag and its value alone, on field P; `pctl` holds the flit's parity. It stands for a P
token of format I64 (DESIGN CHOICE, log 135). -/
def Token.asPred (t : Token) : Token :=
  let t := { t with pdata := 0, aux := 0, field := 2, beats := 0, head := 1, fmt := 0, data := t.data &&& 1 }
  { t with pctl := parityBit t.predBits 46 }

/-- A predicate flit's parity is right. -/
def Token.predOk (t : Token) : Bool := t.pctl == parityBit t.predBits 46

/-- The entries a token takes in a matching store: one per beat (R131). -/
def NetTok.beats (t : NetTok) : Nat := 1 + t.more.length

/-! Tag pools (R136-R138) -/

/-- A live tag. -/
def findTag (tags : List TagEnt) (g : Tag) : Option TagEnt := tags.find? fun t => t.ctx == g.ctx && t.lvl == g.lvl && t.iter == g.iter

/-- The live tags of a context at a level. -/
def liveAt (tags : List TagEnt) (ctx : BitVec 8) (lvl : Nat) : Nat := (tags.filter fun t => t.ctx == ctx && t.lvl.toNat == lvl).length

/-- F − Σ(m ≠ l) U_m, as an integer (R137). -/
def credit (tags : List TagEnt) (ctx : BitVec 8) (lvl : Nat) : Int :=
  let live := (tags.filter fun t => t.ctx == ctx).length
  let unused := ((upFrom 1 7).filter (· != lvl)).map fun m => 4 - liveAt tags ctx m
  (1024 : Int) - live - (unused.sum : Nat)

/-- The lowest iteration free at a level. -/
def freeIter (tags : List TagEnt) (ctx : BitVec 8) (lvl : Nat) : Option Nat :=
  (List.range 1024).find? fun i => !tags.any fun t => t.ctx == ctx && t.lvl.toNat == lvl && t.iter.toNat == i

/-- The lowest context of 1-191 that is not allocated (R138). -/
def freeCtx (ctxs : List (BitVec 8)) : Option (BitVec 8) := ((upFrom 1 191).map (BitVec.ofNat 8)).find? fun c => !ctxs.contains c

/-- What a tag operation comes to. -/
inductive TagRes where
  | ok (g : Tag) (tags : List TagEnt) (ctxs : List (BitVec 8))
  | wait
  | fault (cause : Nat)
  deriving DecidableEq, Repr

/-- Allocates a tag at a level (R137). `first` is none where the tag begins its loop instance. -/
def allocTag (tags : List TagEnt) (ctxs : List (BitVec 8)) (ctx : BitVec 8) (lvl : Nat) (parent : BitVec 10) (first : Option (BitVec 10)) :
    TagRes :=
  if credit tags ctx lvl < 1 then .wait
  else match freeIter tags ctx lvl with
  | some i =>
    let it := BitVec.ofNat 10 i
    .ok ⟨ctx, it, BitVec.ofNat 3 lvl⟩ (tags ++ [⟨ctx, BitVec.ofNat 3 lvl, it, parent, first.getD it⟩]) ctxs
  | none => .wait

/-- A tag operation on a firing's tag (R136). -/
def tagOp (tags : List TagEnt) (ctxs : List (BitVec 8)) (op : Nat) (g : Tag) : TagRes :=
  let lvl := g.lvl.toNat
  let same (h : Tag) : TagRes := .ok h tags ctxs
  match op with
  | 2 =>
    if lvl = 0 then same { g with iter := g.iter + 1 }
    else (match findTag tags g with
      | some t => allocTag tags ctxs g.ctx lvl t.parent (some t.first)
      | none => .fault 0x45)
  | 3 =>
    if lvl = 0 then same { g with iter := 0 }
    else (match findTag tags g with | some t => same { g with iter := t.first } | none => .fault 0x45)
  | 4 => if lvl = 7 then .fault 0x44 else allocTag tags ctxs g.ctx (lvl + 1) g.iter none
  | 5 =>
    if lvl = 0 then .fault 0x44
    else (match findTag tags g with | some t => same ⟨g.ctx, t.parent, g.lvl - 1⟩ | none => .fault 0x45)
  | 6 => (match freeCtx ctxs with | some c => .ok ⟨c, 0, 0⟩ tags (ctxs ++ [c]) | none => .wait)
  | _ => same g

/-- The lead tile of the unit that holds a cell. -/
def State.leadOf (s : State) (c : Nat) : Nat :=
  match s.owner? (cellTile c) with
  | some u => (match s.launch? u with | some l => l.region.headD (cellTile c) | none => cellTile c)
  | none => cellTile c

/-- A tag operation in the pools of the unit that holds a cell. -/
def State.tagOpAt (s : State) (c op : Nat) (g : Tag) : TagRes :=
  let t := s.getTile (s.leadOf c)
  tagOp t.tags t.ctxs op g

/-- Writes the tag pools of the unit that holds a cell. -/
def State.setPools (s : State) (c : Nat) (tags : List TagEnt) (ctxs : List (BitVec 8)) : State :=
  s.modTile (s.leadOf c) fun t => { t with tags := tags, ctxs := ctxs }

/-- The context of a call level (R308). -/
def levelCtx (depth : Nat) : BitVec 8 := BitVec.ofNat 8 (if depth = 0 then 0 else 256 - depth)

/-- A token is held for a frozen level of the unit on its cell's tile (R315), or for the unit that a service unit has frozen there (R336). -/
def State.frozenLevel (s : State) (t : NetTok) : Bool :=
  match s.owner? (cellTile (destCell t.tok.dest)) with
  | some u => (match s.launch? u with
      | some l => if l.service then l.victim.isSome && t.owner != u else l.levels.any fun v => levelCtx v.depth == t.tok.ctx
      | none => false)
  | none => false

/-- A context of 192-255 that no level of the unit on a cell's tile holds (R308). -/
def State.deadCtx (s : State) (c : Nat) (ctx : BitVec 8) : Bool :=
  match s.owner? (cellTile c) with
  | some u => (match s.launch? u with
      | some l => decide (ctx.toNat ≥ 192) && levelCtx l.depth != ctx && !(l.levels.any fun v => levelCtx v.depth == ctx)
      | none => false)
  | none => false

/-! Converters' enables (R124) -/

/-- A seam cell. -/
def isSeam (c : Nat) : Bool := cellCol c == 48
/-- The T2S of a seam cell's row is enabled. -/
def State.t2sOn (s : State) (c : Nat) : Bool := isSeam c && (List.range 5).any fun o => routeSrc (s.cp (c - 1)).route.toNat o == 2
/-- The S2T of a seam cell's row is enabled. -/
def State.s2tOn (s : State) (c : Nat) : Bool := isSeam c && routeSrc (s.cp (c - 1)).route.toNat 1 != 0

/-! Places (R119, R131) -/

/-- The slot word of a slot. -/
def CellPlane.slot (p : CellPlane) (i : Nat) : SlotF := slotF (smGet 0 p.slots i).toNat
/-- A channel of a cell. -/
def CellPlane.chan (p : CellPlane) (i : Nat) : List ChanEnt := smGet [] p.chans i
/-- The matching-store entries that are held; the inputs of the started block wait no more and hold none (R131). -/
def CellPlane.entries (p : CellPlane) : Nat := ((p.store.filter fun e => !e.busy).map fun e => 1 + e.more.length).sum

/-- Where a token takes its place: a matching store, a channel, a T2S, or a frozen level's hold buffer. -/
inductive Bucket where
  | store (c : Nat)
  | chan (c i : Nat)
  | t2s (c : Nat)
  | hold (c : Nat) (ctx : BitVec 8)
  deriving DecidableEq, Repr

/-- The place a token is bound for. -/
def State.bucket (s : State) (n : NetTok) : Bucket :=
  let t := n.tok
  let c := destCell t.dest
  let sl := t.slot.toNat
  if s.frozenLevel n then .hold c t.ctx
  else if sl = 62 && s.t2sOn c then .t2s c
  else
    let f := (s.cp c).slot sl
    if f.kind = 4 && t.field ≠ 3 then .chan c f.chan else .store c

/-- The places a bucket has. -/
def State.bucketFree (s : State) : Bucket → Nat
  | .store c => 128 - (s.cp c).entries
  | .chan c i => 16 - ((s.cp c).chan i).length
  | .t2s c => let x := (s.cp c).t2s; if x.closed then 0 else 8 - x.toks.length
  | .hold c ctx => 32 - (smGet [] (s.getCell c).hold ctx.toNat).length

/-- The places that tokens in flight have taken. -/
def State.bucketTaken (s : State) (b : Bucket) : Nat :=
  ((s.net.filter fun n => decide (s.bucket n = b)).map NetTok.beats).sum

/-- Tokens about to be sent all have their places. -/
def State.placesFor (s : State) (ts : List NetTok) : Bool :=
  let bs := ts.map fun t => (s.bucket t, t.beats)
  bs.all fun b => decide (((bs.filter fun x => decide (x.1 = b.1)).map (·.2)).sum + s.bucketTaken b.1 ≤ s.bucketFree b.1)

/-- The flows that tokens to other dies take have room. -/
def State.tokRoom (s : State) (ts : List NetTok) : Bool :=
  ts.all fun t => s.room (tileDie (cellTile t.src)) (tileLocal (cellTile t.src)) (cellDie (destCell t.tok.dest)) 2

/-! Sending -/

/-- A destination entry of a cell. -/
def State.entry (s : State) (c i : Nat) : DestF := destF (smGet 0 (s.cp c).dests i).toNat

/-- A token, packet or predicate through an entry: the entry's cell, slot, field and net replace the token's (R133). `ctl` is the
rank of a control token. Through an entry of net PRED a token becomes a predicate flit (R129). -/
def State.throughEntry (s : State) (c : Nat) (e : DestF) (g : Tag) (fmt : BitVec 3) (aux : BitVec 8) (ctl : Bool) (beats : List Word) : NetTok :=
  let head := mkTok e.cell e.slot (if ctl then 3 else e.field) g fmt aux (beats.headD 0)
  let head := Token.seal { head with beats := BitVec.ofNat 3 (beats.length - 1) }
  if e.net = 1 then ⟨head.asPred, [], c, c, s.cellUnit c, true, none, true, false⟩
  else ⟨head, followers head (beats.drop 1) 1, c, c, s.cellUnit c, false, none, true, false⟩

/-- Sends tokens: those to another die ride an in-order flow of class 2 (R130, R235). -/
def State.sendToks (s : State) (ts : List NetTok) : State :=
  ts.foldl (fun s t =>
    let src := cellTile t.src
    let die := cellDie (destCell t.tok.dest)
    if tileDie src = die then { s with net := s.net ++ [t] }
    else
      let r := s.takeSeq (flowKey (tileDie src) (tileLocal src) die 2)
      { r.2 with net := r.2.net ++ [{ t with flow := some r.1, arrived := false }] }) s

/-- Takes a token off the network. -/
def State.dropTok (s : State) (k : Nat) : State := { s with net := removeAt s.net k }

/-! Movement (R130) -/

/-- The next router on the way: along the row first. -/
def nextHop (pos dest : Nat) : Nat :=
  if cellCol pos < cellCol dest then pos + 1
  else if cellCol dest < cellCol pos then pos - 1
  else if cellRow pos < cellRow dest then pos + 80
  else if cellRow dest < cellRow pos then pos - 80 else pos

/-- The port of a router by which a token comes from another. -/
def portFrom (pos next : Nat) : Nat :=
  if next = pos + 80 then 0 else if next + 80 = pos then 2 else if next = pos + 1 then 3 else if next + 1 = pos then 1 else 4

/-- The launch a fault at a cell belongs to: the unit on its tile, else the sender's. -/
def State.tokUnit (s : State) (c : Nat) (t : NetTok) : Nat := (s.owner? (cellTile c)).getD t.owner

/-- A token is dropped and a launch faults. -/
def State.tokFault (s : State) (k : Nat) (t : NetTok) (c cause : Nat) : State :=
  (s.dropTok k).faultLaunch (s.tokUnit c t) cause (cellTile c) 0

/-- A token's unit lets it move. -/
def State.tokGoes (s : State) (t : NetTok) : Bool := match s.launch? t.owner with | some l => l.goes || l.st == .done | none => true

/-- TOKEN_HOP (R130): one router further, in order on the link. A beat that fails its parity is dropped, logged and faults with 0xC2. -/
def execTokenHop (k : Nat) (upset : Bool) (s : State) : Out :=
  match s.net[k]? with
  | none => s.stutter
  | some t =>
    let c := destCell t.tok.dest
    let n := nextHop t.pos c
    let ahead := (s.net.take k).any fun x => !x.pred && x.arrived && x.pos == t.pos && nextHop x.pos (destCell x.tok.dest) == n && x.pos != destCell x.tok.dest
    if t.pred || !t.arrived || t.pos = c || ahead || !s.tokGoes t then s.stutter
    else if upset || !(t.tok :: t.more).all Token.parityOk then
      .next ((((s.plog n (portFrom t.pos n) 0xC2).dropTok k).faultLaunch t.owner 0xC2 (cellTile n) 0).touchTok t.owner)
    else .next (State.touchTok { s with net := listSet s.net k { t with pos := n } } t.owner)

/-! Arrival at a slot -/

/-- Tokens of one cell to one slot arrive in their order, and none passes one that stands at the slot (R119); tokens that wait for a
frozen level let those of other contexts pass (R315). -/
def State.tokFirst (s : State) (k : Nat) (t : NetTok) : Bool :=
  (s.net.take k).all fun x => !(x.tok.dest == t.tok.dest && x.tok.slot == t.tok.slot && x.pred == t.pred &&
    (x.tok.ctx == t.tok.ctx || !s.frozenLevel x) && (x.src == t.src || (x.arrived && x.pos == destCell t.tok.dest)))

/-- A token of a context that a hold buffer has delivered to a region comes before one at the same cell, and before every later token of the
context (R315). -/
def State.dueFirst (s : State) (k : Nat) (t : NetTok) : Bool :=
  let u := s.owner? (cellTile (destCell t.tok.dest))
  if t.due then (s.net.take k).all fun x => !(x.due && x.tok.dest == t.tok.dest)
  else s.net.all fun x => !(x.due && x.tok.ctx == t.tok.ctx && s.owner? (cellTile (destCell x.tok.dest)) == u)

/-- The cell's slot 63 converts. -/
def CellPlane.converts (p : CellPlane) : Bool := (p.slot 63).kind == 5

/-- A token converted to the CONVERT slot's format, element by element (R134): the tokens' data, the flags and the LFSR. -/
def convTok (f : SlotF) (fmt : Nat) (w : Word) (l : BitVec 32) : List Word × Nat × BitVec 32 :=
  if fmt = f.cfmt then ([w], 0, l)
  else
    let n := 64 / tagWidth fmt
    let xs := (List.range n).map fun i => bitsOf w.toNat (tagWidth fmt * i + tagWidth fmt - 1) (tagWidth fmt * i)
    let sat := if f.cfmt ≤ 1 then f.csat == 3 else f.csat == 1
    let rs := drawMap (f.crnd == 5) (fun u e => convElem (rndOf (BitVec.ofNat 3 f.crnd)) sat fmt f.cfmt u e) xs l
    let out := 64 / tagWidth f.cfmt
    let gs := chunks out ((n + out - 1) / out) (rs.1.map (·.code))
    (gs.map fun g => BitVec.ofNat 64 (packBits (tagWidth f.cfmt) g), cvstOf rs.1, rs.2)

/-- What the checks and the filter of a slot make of a token (R42, R131, R134, R135). -/
inductive Filtered where
  | drop (cause : Nat)
  | pass (data : List Word) (fmt : BitVec 3) (flags : Nat) (lfsr : BitVec 32)
  deriving DecidableEq, Repr

/-- A slot's check of a data token or packet. A packet is filtered and not converted (DEDUCED, log 46). A cfmt that the slot's mask lacks is
looked at before Q4X16 is, so that such a token faults with 0x43 and not with 0xA4 (DESIGN CHOICE, log 136). -/
def CellPlane.filter (p : CellPlane) (t : NetTok) : Filtered :=
  let f := p.slot t.tok.slot.toNat
  let field := t.tok.field.toNat
  let l := smGet 0 p.lfsr 63
  if f.kind = 0 then .drop 0x41
  else if field = 3 then .pass [t.tok.data] t.tok.fmt 0 l
  else if (field = 1 && !arityR f.arity) || (field = 2 && !arityP f.arity) then .drop 0x41
  else if !t.more.isEmpty && (f.kind ≠ 1 || f.arity ≠ 0) then .drop 0x42
  else if field = 2 || bitOf (if field = 1 then f.rmask else f.lmask) t.tok.fmt.toNat then .pass [t.tok.data] t.tok.fmt 0 l
  else if !t.more.isEmpty || !p.converts then .drop 0x43
  else
    let g := p.slot 63
    if !bitOf (if field = 1 then f.rmask else f.lmask) g.cfmt then .drop 0x43
    else if t.tok.fmt = 7 || g.cfmt = 7 then .drop 0xA4
    else
      let r := convTok g t.tok.fmt.toNat t.tok.data l
      .pass r.1 (BitVec.ofNat 3 g.cfmt) r.2.1 r.2.2

/-- A conversion's flags and LFSR at a cell. -/
def State.tokConverted (s : State) (c flags : Nat) (l : BitVec 32) : State :=
  (s.modCp c fun p => if smGet 0 p.lfsr 63 = l then p else { p with lfsr := smPut p.lfsr 63 l }).setCvst c flags

/-- A token enters the matching store; a second sticky L of a context replaces the held one (R131). -/
def State.intoStore (s : State) (c : Nat) (t : Token) (more : List Token) : State :=
  let n := s.nextStamp
  n.2.modCp c fun p =>
    let f := p.slot t.slot.toNat
    let sticky := f.kind == 1 && f.sticky && t.field == 0
    let kept := if sticky then p.store.filter fun e => !(e.sticky && e.tok.slot == t.slot && e.tok.ctx == t.ctx) else p.store
    { p with store := kept ++ [⟨t, more, sticky, n.1, n.1, false⟩] }

/-- A token enters a hold buffer (R315). -/
def State.intoHold (s : State) (c : Nat) (t : NetTok) : State :=
  s.modCell c fun x => { x with hold := smPut x.hold t.tok.ctx.toNat (smGet [] x.hold t.tok.ctx.toNat ++ [t]) }

/-- The checks every token meets at its cell, in their order: a T2S's own (R124, R186), a frozen level's hold buffer (R315), a dead context
(R308); then `go`. -/
def State.atCell (s : State) (k : Nat) (t : NetTok) (c : Nat) (go : Out) : Out :=
  if !(s.tokFirst k t && s.dueFirst k t) then s.stutter
  else if s.frozenLevel t then
    (if (smGet [] (s.getCell c).hold t.tok.ctx.toNat).length ≥ 32 then s.stutter
     else .next (((s.dropTok k).intoHold c t).touchTok t.owner))
  else if s.deadCtx c t.tok.ctx then .next (s.tokFault k t c 0x45)
  else if s.t2sOn c && t.tok.slot = 62 then
    (if t.tok.field = 1 || t.tok.field = 2 then .next (s.tokFault k t c 0x41)
     else if !t.more.isEmpty then .next (s.tokFault k t c 0x42)
     else if t.tok.field = 0 && t.tok.fmt = 7 then .next (s.tokFault k t c 0xA4) else go)
  else if (s.owner? (cellTile c)).isSome && !s.cellGoes c then s.stutter
  else go

/-- A token that no T2S, channel or converter slot takes is stored. -/
def State.storeTok (s : State) (k : Nat) (t : NetTok) (c : Nat) : Out :=
  let p := s.cp c
  let f := p.slot t.tok.slot.toNat
  match p.filter t with
  | .drop cause => .next (s.tokFault k t c cause)
  | .pass data fmt flags l =>
    if (f.kind = 4 || f.kind = 5) && t.tok.field ≠ 3 then s.stutter
    else
      let replaces := f.kind = 1 && f.sticky && t.tok.field == 0 && p.store.any fun e => e.sticky && e.tok.slot == t.tok.slot && e.tok.ctx == t.tok.ctx
      if p.entries + data.length + t.more.length > 128 + (if replaces then 1 else 0) then s.stutter
      else
        let s := (s.dropTok k).tokConverted c flags l
        let s := data.foldl (fun s w => s.intoStore c (Token.seal { t.tok with data := w, fmt := fmt }) t.more) s
        .next ((s.touchTok t.owner).touchTok (s.cellUnit c))

/-- TOKEN_ARRIVE (R131, R134, R135). -/
def execTokenArrive (k : Nat) (s : State) : Out :=
  match s.net[k]? with
  | none => s.stutter
  | some t =>
    let c := destCell t.tok.dest
    if t.pred || !t.arrived || t.pos ≠ c then s.stutter
    else s.atCell k t c (if s.t2sOn c && t.tok.slot = 62 then s.stutter else s.storeTok k t c)

/-- PREDICATE_FLIT_ARRIVE (R129): it arrives on field P; one that fails its parity faults with 0xC3. -/
def execPredicateFlitArrive (k : Nat) (upset : Bool) (s : State) : Out :=
  match s.net[k]? with
  | none => s.stutter
  | some t =>
    let c := destCell t.tok.dest
    if !t.pred || !t.arrived then s.stutter
    else if upset || !t.tok.predOk then .next ((((s.plog c 4 0xC3).dropTok k).faultLaunch t.owner 0xC3 (cellTile c) 0).touchTok t.owner)
    else s.atCell k t c (if s.t2sOn c && t.tok.slot = 62 then s.stutter else s.storeTok k t c)

/-- QUEUE_APPEND (R120): a QUEUE slot appends a token to its channel. -/
def execQueueAppend (k : Nat) (s : State) : Out :=
  match s.net[k]? with
  | none => s.stutter
  | some t =>
    let c := destCell t.tok.dest
    let f := (s.cp c).slot t.tok.slot.toNat
    if t.pred || !t.arrived || t.pos ≠ c || f.kind ≠ 4 || t.tok.field = 3 || (s.t2sOn c && t.tok.slot = 62) then s.stutter
    else s.atCell k t c (match (s.cp c).filter t with
      | .drop cause => .next (s.tokFault k t c cause)
      | .pass data fmt flags l =>
        if ((s.cp c).chan f.chan).length + data.length > 16 then s.stutter
        else
          let s := (s.dropTok k).tokConverted c flags l
          let s := data.foldl (fun s w =>
            let n := s.nextStamp
            n.2.modCp c fun p => { p with chans := smPut p.chans f.chan (p.chan f.chan ++ [⟨w, fmt, t.tok.ctx, n.1⟩]) }) s
          .next ((s.touchTok t.owner).touchTok (s.cellUnit c)))

/-! Slots that act in the switch logic (R133, R134) -/

/-- Sends tokens through an entry with its tagop, if they have their places and tags: the state, or none while they wait. A tag
fault drops them, and so does an invalid entry, which faults with 0x05 as it does for EMIT (DESIGN CHOICE, log 136). -/
def State.forward (s : State) (c : Nat) (e : DestF) (g : Tag) (fmt : BitVec 3) (aux : BitVec 8) (data : List Word) : Option State :=
  if !e.valid then some (s.faultCell c 0x05 0)
  else match s.tagOpAt c e.tagop g with
  | .wait => none
  | .fault cause => some (s.faultCell c cause 0)
  | .ok g tags ctxs =>
    let ts := data.map fun w => s.throughEntry c e g fmt aux false [w]
    if s.placesFor ts && s.tokRoom ts then some ((s.setPools c tags ctxs).sendToks ts) else none

/-- CONVERT_FIRE (R134): a token at the CONVERT slot is converted and sent to tdest. -/
def execConvertFire (k : Nat) (s : State) : Out :=
  match s.net[k]? with
  | none => s.stutter
  | some t =>
    let c := destCell t.tok.dest
    let p := s.cp c
    let f := p.slot t.tok.slot.toNat
    if t.pred || !t.arrived || t.pos ≠ c || f.kind ≠ 5 || t.tok.field = 3 || ((s.owner? (cellTile c)).isSome && !s.cellFeeds c) then s.stutter
    else s.atCell k t c (match p.filter t with
      | .drop cause => .next (s.tokFault k t c cause)
      | .pass [w] fmt flags l =>
        if (fmt = 7 || f.cfmt = 7) && fmt.toNat ≠ f.cfmt then .next (s.tokFault k t c 0xA4)
        else
          let r := convTok f fmt.toNat w l
          let go := (s.dropTok k).tokConverted c (flags ||| r.2.1) r.2.2
          (match go.forward c (s.entry c f.tdest) t.tok.tag (BitVec.ofNat 3 f.cfmt) t.tok.aux r.1 with
           | some s' => .next (s'.touchTok (s.cellUnit c))
           | none => s.stutter)
      | .pass data fmt flags l =>
        let go := (s.dropTok k).tokConverted c flags l
        (match go.forward c (s.entry c f.tdest) t.tok.tag fmt t.tok.aux data with
         | some s' => .next (s'.touchTok (s.cellUnit c))
         | none => s.stutter))

/-! Matching (R119, R131) -/

/-- The entries of a slot and field that wait, in arrival order; a held sticky L is not among them. -/
def CellPlane.waitingAt (p : CellPlane) (slot field : Nat) : List MEnt :=
  p.store.filter fun e => e.tok.slot.toNat == slot && e.tok.field.toNat == field && !e.sticky && !e.busy

/-- The held sticky L of a slot and context. -/
def CellPlane.heldL (p : CellPlane) (slot : Nat) (ctx : BitVec 8) : Option MEnt :=
  p.store.find? fun e => e.sticky && e.tok.slot.toNat == slot && e.tok.ctx == ctx

/-- A matched firing. -/
structure Firing where
  slot : Nat
  l : Option MEnt
  r : Option MEnt
  p : Option MEnt
  deriving DecidableEq, Repr

/-- The inputs of a firing. -/
def Firing.inputs (f : Firing) : List MEnt := [f.l, f.r, f.p].filterMap id
/-- When its last input arrived. -/
def Firing.key (f : Firing) : Nat := (f.inputs.map (·.ord)).foldl max 0
/-- Its predicate; true where the arity lacks one. -/
def Firing.pred (f : Firing) : Bool := match f.p with | some e => bitOf e.tok.data.toNat 0 | none => true

/-- The first entry with a tag. -/
def firstWith (es : List MEnt) (t : Token) : Option MEnt := es.find? fun e => e.tok.ctx == t.ctx && e.tok.iter == t.iter

/-- The firings of a slot that are ready, the earliest of each tag (R119, R131). -/
def CellPlane.ready (p : CellPlane) (slot : Nat) : List Firing :=
  let f := p.slot slot
  let ls := p.waitingAt slot 0
  let rs := p.waitingAt slot 1
  let ps := p.waitingAt slot 2
  let partners (t : Token) : Option (Option MEnt × Option MEnt) :=
    match f.arity with
    | 0 => some (none, none)
    | 1 => (firstWith rs t).map fun r => (some r, none)
    | 2 => (firstWith ps t).map fun q => (none, some q)
    | _ => (match firstWith rs t, firstWith ps t with | some r, some q => some (some r, some q) | _, _ => none)
  if f.sticky then
    (if f.arity = 2 then ps else rs).filterMap fun e =>
      match p.heldL slot e.tok.ctx, partners e.tok with
      | some l, some (r, q) => some ⟨slot, some l, r, q⟩
      | _, _ => none
  else ls.filterMap fun l => (partners l.tok).map fun x => ⟨slot, some l, x.1, x.2⟩

/-- Takes entries out of the matching store, but a sticky L. -/
def CellPlane.consume (p : CellPlane) (seqs : List Nat) : CellPlane := { p with store := p.store.filter fun e => e.sticky || !seqs.contains e.seq }

/-- FALSE_P_ABSORB (R132). -/
def execFalsePAbsorb (cell slot : Nat) (s : State) : Out :=
  let p := s.cp cell
  if !(isTCell cell && s.cellFeeds cell && (p.slot slot).kind == 1) then s.stutter
  else match (p.ready slot).find? fun f => !f.pred with
  | some f => .next ((s.modCp cell fun p => p.consume (f.inputs.map (·.seq))).touchTok (s.cellUnit cell))
  | none => s.stutter

/-- The entry of a firing that was ready first. -/
def earliest : List Firing → Option Firing
  | [] => none
  | f :: r => match earliest r with | some g => if g.key < f.key then some g else some f | none => some f

/-- STEER_FIRE (R133). -/
def execSteerFire (cell slot : Nat) (s : State) : Out :=
  let p := s.cp cell
  let f := p.slot slot
  if !(isTCell cell && s.cellFeeds cell && f.kind == 2) then s.stutter
  else match earliest (p.ready slot) with
  | some x =>
    (match x.l with
     | some e =>
       let go := s.modCp cell fun p => p.consume (x.inputs.map (·.seq))
       (match go.forward cell (s.entry cell (if x.pred then f.tdest else f.fdest)) e.tok.tag e.tok.fmt e.tok.aux [e.tok.data] with
        | some s' => .next (s'.touchTok (s.cellUnit cell))
        | none => s.stutter)
     | none => s.stutter)
  | none => s.stutter

/-- The pair that became complete first. -/
def earliestPair : List (MEnt × MEnt) → Option (MEnt × MEnt)
  | [] => none
  | x :: r => match earliestPair r with
    | some y => if max y.1.ord y.2.ord < max x.1.ord x.2.ord then some y else some x
    | none => some x

/-- MERGE_FIRE (R133): the input that P selects is forwarded; the other is neither needed nor consumed. Of several ready firings the one whose last
input arrived earliest acts, as at STEER (DESIGN CHOICE, log 136). -/
def execMergeFire (cell slot : Nat) (s : State) : Out :=
  let p := s.cp cell
  let f := p.slot slot
  let pick (q : MEnt) : Option MEnt := firstWith (p.waitingAt slot (if bitOf q.tok.data.toNat 0 then 0 else 1)) q.tok
  if !(isTCell cell && s.cellFeeds cell && f.kind == 3) then s.stutter
  else match earliestPair ((p.waitingAt slot 2).filterMap fun q => (pick q).map fun e => (q, e)) with
  | some (q, e) =>
    let go := s.modCp cell fun p => p.consume [q.seq, e.seq]
    (match go.forward cell (s.entry cell f.tdest) e.tok.tag e.tok.fmt e.tok.aux [e.tok.data] with
     | some s' => .next (s'.touchTok (s.cellUnit cell))
     | none => s.stutter)
  | none => s.stutter

/-! Control tokens (R121, R164) -/

/-- The oldest waiting control token of a slot. -/
def CellPlane.control (p : CellPlane) (slot : Nat) : Option MEnt := p.store.find? fun e => e.tok.slot.toNat == slot && e.tok.field == 3

/-- Every data token of a control token's context that reached the slot before it has left. -/
def CellPlane.turn (p : CellPlane) (slot : Nat) (e : MEnt) : Bool :=
  let f := p.slot slot
  !(p.store.any fun x => x.tok.slot == e.tok.slot && decide (x.tok.field.toNat < 2) && !x.sticky && x.tok.ctx == e.tok.ctx && decide (x.seq < e.seq)) &&
    (f.kind != 4 || !(p.chan f.chan).any fun x => x.ctx == e.tok.ctx && decide (x.seq < e.seq))

/-- CONTROL_TOKEN_ABSORB (R121, R164). -/
def execControlTokenAbsorb (cell slot : Nat) (s : State) : Out :=
  let p := s.cp cell
  let kind := (p.slot slot).kind
  if !(isTCell cell && s.cellGoes cell && (kind == 1 || kind == 4)) then s.stutter
  else match p.store.find? fun e => e.tok.slot.toNat == slot && e.tok.field == 3 && p.turn slot e with
  | some e => .next ((s.modCp cell fun p => p.consume [e.seq]).touchTok (s.cellUnit cell))
  | none => s.stutter

/-- CONTROL_TOKEN_TURN (R164): copies go to the entries that are not of net PRED, unchanged. -/
def execControlTokenTurn (cell slot : Nat) (s : State) : Out :=
  let p := s.cp cell
  let f := p.slot slot
  if !(isTCell cell && s.cellFeeds cell && (f.kind == 2 || f.kind == 3 || f.kind == 5)) then s.stutter
  else match p.store.find? fun e => e.tok.slot.toNat == slot && e.tok.field == 3 && p.turn slot e with
  | some e =>
    let entries := ((if f.kind = 2 then [f.tdest, f.fdest] else [f.tdest]).map (s.entry cell)).filter fun d => d.net != 1
    let ts := entries.map fun d => s.throughEntry cell d e.tok.tag e.tok.fmt e.tok.aux true [e.tok.data]
    let go := s.modCp cell fun p => p.consume [e.seq]
    if entries.any (fun d => !d.valid) then .next (go.faultCell cell 0x05 0)
    else if go.placesFor ts && go.tokRoom ts then .next ((go.sendToks ts).touchTok (s.cellUnit cell)) else s.stutter
  | none => s.stutter

end Sys2Proof.Machine
end

