-- ==== Sys2Proof/Machine/Convert.lean ====
section
/-! DEFINITION. The seam converters S2T and T2S (R124, R125, R162, R163, R186). -/

namespace Sys2Proof.Machine

/-- The level-0 tag an S2T stamps: the context of the unit's call level and n0's index (R125, R162). -/
def State.stampTag (s : State) (c : Nat) : Tag :=
  match s.owner? (cellTile c) with
  | some u => (match s.launch? u with
      | some l => ⟨levelCtx l.depth, (s.getTile (l.region.headD 0)).n[0].index.setWidth 10, 0⟩
      | none => ⟨0, 0, 0⟩)
  | none => ⟨0, 0, 0⟩

/-- S2T_TAKE (R125, R186): the S2T of a seam cell's row takes the flit that waits at the east output of the cell beside it. A side flit is
kept for the code flits of its group; a code flit that no side flit covers is dropped with 0xA5. -/
def execS2tTake (cell : Nat) (s : State) : Out :=
  let p := s.cp cell
  let q := p.s2t
  if !(s.s2tOn cell && s.cellGoes cell) || q.flit.isSome then s.stutter
  else match (s.cp (cell - 1)).box 1 with
  | [] => s.stutter
  | x :: r =>
    if x.beat then s.stutter
    else
      let s := (s.modCp (cell - 1) fun p => p.setBox 1 r).touchTok (s.cellUnit cell)
      if x.isSide then .next (s.modCp cell fun p => { p with s2t := { q with side := some x, group := 0 } })
      else if x.tag = 7 && (q.side.isNone || q.group ≥ 16) then .next (s.faultCell cell 0xA5 0)
      else .next (s.modCp cell fun p =>
        { p with s2t := { q with flit := some x, next := 0, group := if x.tag = 7 then q.group + 1 else q.group } })

/-- The S2T is done with its flit; the last code flit of a row ends its group. -/
def S2T.clear (q : S2T) (x : Flit) : S2T :=
  if x.tag = 7 && x.marked then { q with flit := none, next := 0, side := none, group := 0 } else { q with flit := none, next := 0 }

/-- S2T_SEND (R125, R186): the next of the eight tokens of the flit, through destination entry 62 and under its tagop (DEDUCED, log 22),
and after a marked flit a control token of its rank; the control token carries the flit's tag as its fmt (DEDUCED, log 47) and is not given the
entry's tagop (DESIGN CHOICE, log 136). -/
def execS2tSend (cell : Nat) (s : State) : Out :=
  let q := (s.cp cell).s2t
  let e := s.entry cell 62
  match q.flit with
  | none => s.stutter
  | some x =>
    if !(s.s2tOn cell && s.cellFeeds cell) then s.stutter
    else if q.next < 8 then
      let aux := match q.side with
        | some y => if x.tag = 7 then lineByte y.data (4 * (q.group - 1) + q.next / 2) else 0
        | none => 0
      let done : S2T := if q.next + 1 = 8 && !x.marked then q.clear x else { q with next := q.next + 1 }
      match s.forward cell e (s.stampTag cell) x.fmt aux [x.data.extractLsb' (64 * q.next) 64] with
      | some s => .next ((s.modCp cell fun p => { p with s2t := done }).touchTok (s.cellUnit cell))
      | none => s.stutter
    else
      let t := s.throughEntry cell e (s.stampTag cell) x.fmt (x.mark.setWidth 8) true [0]
      let done := (s.modCp cell fun p => { p with s2t := q.clear x }).touchTok (s.cellUnit cell)
      if e.net = 1 then .next done
      else if s.placesFor [t] && s.tokRoom [t] then .next (done.sendToks [t]) else s.stutter

/-- T2S_TAKE (R125): a token takes the next lanes of the flit; one that differs in fmt or (ctx, iter) closes the flit first; a control
token closes it with its marker. The zero flit of a marker with no token placed has the control token's fmt (DESIGN CHOICE, log 136). -/
def execT2sTake (k : Nat) (s : State) : Out :=
  match s.net[k]? with
  | none => s.stutter
  | some t =>
    let c := destCell t.tok.dest
    let q := (s.cp c).t2s
    if t.pred || !t.arrived || t.pos ≠ c || !(s.t2sOn c && t.tok.slot = 62) || q.closed then s.stutter
    else
      let took (x : T2S) : Out := .next (((s.dropTok k).modCp c fun p => { p with t2s := x }).touchTok (s.cellUnit c))
      s.atCell k t c
        (if t.tok.field = 3 then
          took { q with closed := true, mark := t.tok.aux.setWidth 3, fmt := if q.toks.isEmpty then t.tok.fmt else q.fmt }
        else if !q.toks.isEmpty && (q.fmt != t.tok.fmt || q.ctx != t.tok.ctx || q.iter != t.tok.iter) then
          .next (s.modCp c fun p => { p with t2s := { q with closed := true, mark := 0 } })
        else took { q with toks := q.toks ++ [t.tok.data], fmt := t.tok.fmt, ctx := t.tok.ctx, iter := t.tok.iter,
                           closed := decide (q.toks.length + 1 = 8), mark := 0 })

/-- The flit a T2S has built. -/
def T2S.flitOf (q : T2S) : Flit := mkFlit (BitVec.ofNat 512 (packBits 64 (q.toks.map (·.toNat)))) q.fmt.toNat q.mark

/-- T2S_SEND (R125): a closed flit goes to the E input of the switch box of the cell beside the seam. -/
def execT2sSend (cell : Nat) (s : State) : Out :=
  let q := (s.cp cell).t2s
  let m := cell - 1
  let outs := (s.cp m).named 2
  if !(s.t2sOn cell && s.cellGoes cell && q.closed) || !(s.cp m).boxRoom outs then s.stutter
  else
    let s := s.modCp m fun p => p.intoBox outs q.flitOf
    .next ((s.modCp cell fun p => { p with t2s := { q with toks := [], closed := false, mark := 0 } }).touchTok (s.cellUnit cell))

end Sys2Proof.Machine
end

