-- ==== Sys2Proof/Machine/Operands.lean ====
section
/-! DEFINITION. The operand forms of handlers (R33, R34, R140, R141): registers, matched inputs, channel pops and peeks, guards; the
elements of a 64-bit value; and the frame of one handler word (R139, R143). -/

namespace Sys2Proof.Machine

/-- The frame base of a cell at the unit's level (R307). -/
def State.frameBase (s : State) (c : Nat) : Nat :=
  match s.owner? (cellTile c) with
  | some u => (match s.launch? u with | some l => smGet 0x4000 l.frames c | none => 0x4000)
  | none => 0x4000

/-- A value with tag I64. -/
def i64 (w : Word) : TVal := ⟨w, 0⟩

/-- The registers of a block (R33, R140). -/
def State.regOf (s : State) (b : Block) (i : BitVec 4) : TVal :=
  match i.toNat with
  | 8 => b.l
  | 9 => b.r
  | 10 => i64 (if b.p then 1 else 0)
  | 11 => i64 (b.iter.setWidth 64)
  | 12 => i64 (b.ctx.setWidth 64)
  | 13 => i64 0
  | 14 => i64 ((destCode s.cell).setWidth 64)
  | 15 => i64 (BitVec.ofNat 64 (s.frameBase s.cell))
  | _ => b.t[(i.setWidth 3).toNat]

/-- Reads an operand: a pop or a peek of a channel with no entry left has none yet (R141). -/
def State.opnd (s : State) (b : Block) (o : Opnd) : Option (TVal × Block) :=
  match o with
  | .reg i => some (s.regOf b i, b)
  | .chan peek i =>
    let n := (b.pops.filter (· == i)).length
    match ((s.cp s.cell).chan i.toNat)[n]? with
    | some e => some (⟨e.data, e.fmt⟩, if peek then b else { b with pops := b.pops ++ [i] })
    | none => none

/-- A guard holds (R34). -/
def guardTrue (b : Block) (g : BitVec 4) : Bool :=
  if g = 0 then true
  else if g.toNat < 8 then bitOf b.t[(g.setWidth 3).toNat].data.toNat 0
  else !bitOf b.t[(g.setWidth 3).toNat].data.toNat 0

/-- The running block of the acting cell. -/
def State.blk (s : State) : Block := (s.getCell s.cell).block.getD Block.blank

/-- Writes the running block of the acting cell. -/
def State.setBlk (s : State) (b : Block) : State := s.modCell s.cell fun c => { c with block := some b }

/-- A word of a block has issued; `n` words it takes. -/
def State.wordDone (s : State) (n : Nat) (b : Block) : Out :=
  .next ((s.modCell s.cell fun c =>
    { c with block := some { b with pc := b.pc + n, issued := b.issued + n, held := false }, ld := LoadSt.empty }).touchCell s.cell)

/-- The block holds at this word (R119, R141). -/
def State.wordHolds (s : State) : Out := .next (s.setBlk { s.blk with held := true })

/-- Runs a word under its guard; a word whose guard is false has no effect (R34). -/
def State.word (s : State) (g : BitVec 4) (n : Nat) (go : Block → Out) : Out :=
  if guardTrue s.blk g then go s.blk else s.wordDone n s.blk

/-- Writes a temporary and ends the word. -/
def State.put1 (s : State) (n : Nat) (b : Block) (d : BitVec 3) (v : TVal) : Out := s.wordDone n { b with t := b.t.set d.toNat v }

/-- A word of one operand that writes d. -/
def State.word1 (s : State) (g : BitVec 4) (n : Nat) (d : BitVec 3) (a : Opnd) (f : Block → TVal → TVal) : Out :=
  s.word g n fun b =>
    match s.opnd b a with
    | some (x, b) => s.put1 n b d (f b x)
    | none => s.wordHolds

/-- A word of two operands that writes d; a is read before b. -/
def State.word2 (s : State) (g : BitVec 4) (d : BitVec 3) (a b : Opnd) (f : Block → TVal → TVal → TVal) : Out :=
  s.word g 1 fun k =>
    match s.opnd k a with
    | some (x, k) => (match s.opnd k b with | some (y, k) => s.put1 1 k d (f k x y) | none => s.wordHolds)
    | none => s.wordHolds

/-! Elements of a 64-bit value (R85) -/

/-- The elements of w bits. -/
def parts (w : Nat) (v : Word) : List Nat := (List.range (64 / w)).map fun i => bitsOf v.toNat (w * i + w - 1) (w * i)
/-- A value from elements of w bits, zero-filled. -/
def joinParts (w : Nat) (xs : List Nat) : Word := BitVec.ofNat 64 (packBits w xs)
/-- Runs an element function over two values. -/
def zipParts (w : Nat) (f : Nat → Nat → Nat) (a b : Word) : Word := joinParts w (List.zipWith f (parts w a) (parts w b))
/-- Runs an element function over a value. -/
def mapParts (w : Nat) (f : Nat → Nat) (a : Word) : Word := joinParts w ((parts w a).map f)

/-- The tag and width of an integer format. -/
def iTag : IFmt → Nat | .i64 => 0 | .i32x2 => 1
/-- The element width of an integer format. -/
def iWidth : IFmt → Nat | .i64 => 64 | .i32x2 => 32
/-- The tag of a floating format. -/
def fTag : FFmt → Nat | .f32x2 => 2 | .f16x4 => 3 | .b16x4 => 4
/-- The tag of a conversion format. -/
def cTag : CFmt → Nat | .f32x2 => 2 | .f16x4 => 3 | .b16x4 => 4 | .e4x8 => 5 | .e5x8 => 6
/-- The tag of a dot-product format. -/
def dTag : DFmt → Nat | .i64 => 0 | .i32x2 => 1 | .f32x2 => 2 | .f16x4 => 3 | .b16x4 => 4 | .e4x8 => 5 | .e5x8 => 6
/-- The rounding mode of a handler word. -/
def hRnd : HRnd → Rnd | .rne => .rne | .rtz => .rtz | .rdn => .rdn | .rup => .rup

/-- The job of the unit on a cell's tile. -/
def State.cellVmid (s : State) (c : Nat) : BitVec 16 := match s.launch? (s.cellUnit c) with | some l => l.vmid | none => 0

end Sys2Proof.Machine
end

