-- ==== Sys2Proof/Machine/HInt.lean ====
section
/-! DEFINITION. Integer, logic, compare, immediate, bit-field and literal operations of handlers (R145-R149). -/

namespace Sys2Proof.Machine

/-- An element read as signed, or as unsigned for .SATU (R145). -/
def readElem (e : IExt) (w v : Nat) : Int := match e with | .satu => v | _ => sextNat v w
/-- The exact result reduced by ext (R145). -/
def reduceElem (e : IExt) (w : Nat) (v : Int) : Nat :=
  match e with
  | .wrap => wrapNat v w
  | .sat => wrapNat (clampInt false w v) w
  | .satu => wrapNat (clampInt true w v) w
/-- A value of an integer format from elements. -/
def iVal (f : IFmt) (v : Word) : TVal := ⟨v, BitVec.ofNat 3 (iTag f)⟩
/-- An exact operation on two elements (R145). -/
def iOp2 (f : IFmt) (e : IExt) (op : Int → Int → Int) (x y : TVal) : TVal :=
  iVal f (zipParts (iWidth f) (fun a b => reduceElem e (iWidth f) (op (readElem e (iWidth f) a) (readElem e (iWidth f) b))) x.data y.data)
/-- An operation on two elements read as signed, kept modulo 2^n. -/
def iSigned (f : IFmt) (op : Int → Int → Int) (x y : TVal) : TVal :=
  iVal f (zipParts (iWidth f) (fun a b => wrapNat (op (sextNat a (iWidth f)) (sextNat b (iWidth f))) (iWidth f)) x.data y.data)
/-- An operation on two elements read as unsigned, kept modulo 2^n; it also takes the width. -/
def iUns (f : IFmt) (op : Nat → Nat → Nat → Nat) (x y : TVal) : TVal := iVal f (zipParts (iWidth f) (fun a b => op (iWidth f) a b) x.data y.data)
/-- An operation on one element read as unsigned. -/
def iUn1 (f : IFmt) (op : Nat → Nat → Nat) (x : TVal) : TVal := iVal f (mapParts (iWidth f) (fun a => op (iWidth f) a) x.data)
/-- The upper n bits of the 2n-bit signed product. -/
def mulHigh (f : IFmt) (a b : Int) : Int := a * b / 2 ^ iWidth f
/-- The number of 1 bits of an n-bit element. -/
def popCount (w v : Nat) : Nat := ((List.range w).filter fun i => bitOf v i).length
/-- Leading zeros of an n-bit element; n for zero. -/
def leadZeros (w v : Nat) : Nat := w - bitLen v
/-- Trailing zeros of an n-bit element; n for zero. -/
def trailZeros (w v : Nat) : Nat := ((List.range w).find? fun i => bitOf v i).getD w
/-- A shift of an element by s = b[5:0]; s of n or more leaves no bit of a (R145). -/
def shlElem (w a b : Nat) : Nat := a <<< (b % 64) % 2 ^ w
/-- Logical right shift. -/
def shrElem (_ a b : Nat) : Nat := a >>> (b % 64)
/-- Arithmetic right shift: s of n or more gives copies of the sign bit. -/
def sraElem (w a b : Nat) : Nat := wrapNat (sextNat a w / 2 ^ (b % 64)) w
/-- 1 or 0. -/
def bit01 (b : Bool) : Nat := if b then 1 else 0
/-- A compare of two elements read as signed (R146). -/
def iCmpS (f : IFmt) (op : Int → Int → Bool) (x y : TVal) : TVal :=
  iVal f (zipParts (iWidth f) (fun a b => bit01 (op (sextNat a (iWidth f)) (sextNat b (iWidth f)))) x.data y.data)
/-- A compare of two elements read as unsigned (R146). -/
def iCmpU (f : IFmt) (op : Nat → Nat → Bool) (x y : TVal) : TVal := iVal f (zipParts (iWidth f) (fun a b => bit01 (op a b)) x.data y.data)

/-- ADD (R145). -/
def execHAdd (d : BitVec 3) (a b : Opnd) (f : IFmt) (g : BitVec 4) (e : IExt) (s : State) : Out := s.word2 g d a b (fun _ x y => iOp2 f e (· + ·) x y)

/-- SUB (R145). -/
def execHSub (d : BitVec 3) (a b : Opnd) (f : IFmt) (g : BitVec 4) (e : IExt) (s : State) : Out := s.word2 g d a b (fun _ x y => iOp2 f e (· - ·) x y)

/-- MUL (R145). -/
def execHMul (d : BitVec 3) (a b : Opnd) (f : IFmt) (g : BitVec 4) (e : IExt) (s : State) : Out := s.word2 g d a b (fun _ x y => iOp2 f e (· * ·) x y)

/-- MULH (R145): the upper half of the signed product. -/
def execHMulh (d : BitVec 3) (a b : Opnd) (f : IFmt) (g : BitVec 4) (s : State) : Out := s.word2 g d a b (fun _ x y => iSigned f (mulHigh f) x y)

/-- MULHU (R145): the upper half of the unsigned product. -/
def execHMulhu (d : BitVec 3) (a b : Opnd) (f : IFmt) (g : BitVec 4) (s : State) : Out := s.word2 g d a b (fun _ x y => iUns f (fun w a b => a * b / 2 ^ w) x y)

/-- MIN (R145), signed. -/
def execHMin (d : BitVec 3) (a b : Opnd) (f : IFmt) (g : BitVec 4) (s : State) : Out := s.word2 g d a b (fun _ x y => iSigned f min x y)

/-- MAX (R145), signed. -/
def execHMax (d : BitVec 3) (a b : Opnd) (f : IFmt) (g : BitVec 4) (s : State) : Out := s.word2 g d a b (fun _ x y => iSigned f max x y)

/-- MINU (R145), unsigned. -/
def execHMinu (d : BitVec 3) (a b : Opnd) (f : IFmt) (g : BitVec 4) (s : State) : Out := s.word2 g d a b (fun _ x y => iUns f (fun _ a b => min a b) x y)

/-- MAXU (R145), unsigned. -/
def execHMaxu (d : BitVec 3) (a b : Opnd) (f : IFmt) (g : BitVec 4) (s : State) : Out := s.word2 g d a b (fun _ x y => iUns f (fun _ a b => max a b) x y)

/-- ABS (R145): the operand is read as signed under every ext. -/
def execHAbs (d : BitVec 3) (a : Opnd) (f : IFmt) (g : BitVec 4) (e : IExt) (s : State) : Out := s.word1 g 1 d a (fun _ x => iVal f (mapParts (iWidth f) (fun v => reduceElem e (iWidth f) ((sextNat v (iWidth f)).natAbs : Nat)) x.data))

/-- NEG (R145). -/
def execHNeg (d : BitVec 3) (a : Opnd) (f : IFmt) (g : BitVec 4) (e : IExt) (s : State) : Out := s.word1 g 1 d a (fun _ x => iVal f (mapParts (iWidth f) (fun v => reduceElem e (iWidth f) (-readElem e (iWidth f) v)) x.data))

/-- POPC (R145). -/
def execHPopc (d : BitVec 3) (a : Opnd) (f : IFmt) (g : BitVec 4) (s : State) : Out := s.word1 g 1 d a (fun _ x => iUn1 f popCount x)

/-- CLZ (R145). -/
def execHClz (d : BitVec 3) (a : Opnd) (f : IFmt) (g : BitVec 4) (s : State) : Out := s.word1 g 1 d a (fun _ x => iUn1 f leadZeros x)

/-- CTZ (R145). -/
def execHCtz (d : BitVec 3) (a : Opnd) (f : IFmt) (g : BitVec 4) (s : State) : Out := s.word1 g 1 d a (fun _ x => iUn1 f trailZeros x)

/-- AND (R145). -/
def execHAnd (d : BitVec 3) (a b : Opnd) (f : IFmt) (g : BitVec 4) (s : State) : Out := s.word2 g d a b (fun _ x y => iVal f (x.data &&& y.data))

/-- OR (R145). -/
def execHOr (d : BitVec 3) (a b : Opnd) (f : IFmt) (g : BitVec 4) (s : State) : Out := s.word2 g d a b (fun _ x y => iVal f (x.data ||| y.data))

/-- XOR (R145). -/
def execHXor (d : BitVec 3) (a b : Opnd) (f : IFmt) (g : BitVec 4) (s : State) : Out := s.word2 g d a b (fun _ x y => iVal f (x.data ^^^ y.data))

/-- ANDN (R145): a AND NOT b. -/
def execHAndn (d : BitVec 3) (a b : Opnd) (f : IFmt) (g : BitVec 4) (s : State) : Out := s.word2 g d a b (fun _ x y => iVal f (x.data &&& ~~~y.data))

/-- SHL (R145). -/
def execHShl (d : BitVec 3) (a b : Opnd) (f : IFmt) (g : BitVec 4) (s : State) : Out := s.word2 g d a b (fun _ x y => iUns f shlElem x y)

/-- SHR (R145). -/
def execHShr (d : BitVec 3) (a b : Opnd) (f : IFmt) (g : BitVec 4) (s : State) : Out := s.word2 g d a b (fun _ x y => iUns f shrElem x y)

/-- SRA (R145). -/
def execHSra (d : BitVec 3) (a b : Opnd) (f : IFmt) (g : BitVec 4) (s : State) : Out := s.word2 g d a b (fun _ x y => iUns f sraElem x y)

/-- CEQ (R146). -/
def execHCeq (d : BitVec 3) (a b : Opnd) (f : IFmt) (g : BitVec 4) (s : State) : Out := s.word2 g d a b (fun _ x y => iCmpU f (· == ·) x y)

/-- CNE (R146). -/
def execHCne (d : BitVec 3) (a b : Opnd) (f : IFmt) (g : BitVec 4) (s : State) : Out := s.word2 g d a b (fun _ x y => iCmpU f (· != ·) x y)

/-- CLT (R146), signed. -/
def execHClt (d : BitVec 3) (a b : Opnd) (f : IFmt) (g : BitVec 4) (s : State) : Out := s.word2 g d a b (fun _ x y => iCmpS f (fun a b => decide (a < b)) x y)

/-- CLTU (R146), unsigned. -/
def execHCltu (d : BitVec 3) (a b : Opnd) (f : IFmt) (g : BitVec 4) (s : State) : Out := s.word2 g d a b (fun _ x y => iCmpU f (fun a b => decide (a < b)) x y)

/-- CLE (R146), signed. -/
def execHCle (d : BitVec 3) (a b : Opnd) (f : IFmt) (g : BitVec 4) (s : State) : Out := s.word2 g d a b (fun _ x y => iCmpS f (fun a b => decide (a ≤ b)) x y)

/-- CLEU (R146), unsigned. -/
def execHCleu (d : BitVec 3) (a b : Opnd) (f : IFmt) (g : BitVec 4) (s : State) : Out := s.word2 g d a b (fun _ x y => iCmpU f (fun a b => decide (a ≤ b)) x y)

/-- sext(imm11, 11). -/
def sx11 (i : BitVec 11) : Word := i.signExtend 64
/-- zext(imm11, 11). -/
def zx11 (i : BitVec 11) : Word := i.zeroExtend 64

/-- ADDI (R147). -/
def execHAddi (d : BitVec 3) (a : Opnd) (imm : BitVec 11) (g : BitVec 4) (s : State) : Out := s.word1 g 1 d a (fun _ x => i64 (x.data + sx11 imm))

/-- ANDI (R147). -/
def execHAndi (d : BitVec 3) (a : Opnd) (imm : BitVec 11) (g : BitVec 4) (s : State) : Out := s.word1 g 1 d a (fun _ x => i64 (x.data &&& zx11 imm))

/-- ORI (R147). -/
def execHOri (d : BitVec 3) (a : Opnd) (imm : BitVec 11) (g : BitVec 4) (s : State) : Out := s.word1 g 1 d a (fun _ x => i64 (x.data ||| zx11 imm))

/-- XORI (R147). -/
def execHXori (d : BitVec 3) (a : Opnd) (imm : BitVec 11) (g : BitVec 4) (s : State) : Out := s.word1 g 1 d a (fun _ x => i64 (x.data ^^^ zx11 imm))

/-- SHLI (R147). -/
def execHShli (d : BitVec 3) (a : Opnd) (sh : BitVec 6) (g : BitVec 4) (s : State) : Out := s.word1 g 1 d a (fun _ x => i64 (x.data <<< sh.toNat))

/-- SHRI (R147), logical. -/
def execHShri (d : BitVec 3) (a : Opnd) (sh : BitVec 6) (g : BitVec 4) (s : State) : Out := s.word1 g 1 d a (fun _ x => i64 (x.data >>> sh.toNat))

/-- SRAI (R147), arithmetic. -/
def execHSrai (d : BitVec 3) (a : Opnd) (sh : BitVec 6) (g : BitVec 4) (s : State) : Out := s.word1 g 1 d a (fun _ x => i64 (x.data.sshiftRight sh.toNat))

/-- CEQI (R147). -/
def execHCeqi (d : BitVec 3) (a : Opnd) (imm : BitVec 11) (g : BitVec 4) (s : State) : Out := s.word1 g 1 d a (fun _ x => i64 (flag (x.data == sx11 imm)))

/-- CLTI (R147), signed. -/
def execHClti (d : BitVec 3) (a : Opnd) (imm : BitVec 11) (g : BitVec 4) (s : State) : Out := s.word1 g 1 d a (fun _ x => i64 (flag (x.data.slt (sx11 imm))))

/-- CLTUI (R147), unsigned. -/
def execHCltui (d : BitVec 3) (a : Opnd) (imm : BitVec 11) (g : BitVec 4) (s : State) : Out := s.word1 g 1 d a (fun _ x => i64 (flag (x.data.ult (zx11 imm))))

/-- Bits [e:pos] of a value, e = pos + len − 1 (R148). The field `l` holds len − 1, and the decoder has checked e. -/
def fieldOf (v : Word) (p : BitVec 6) (l : BitVec 5) : Nat := bitsOf v.toNat (p.toNat + l.toNat) p.toNat

/-- BFX (R148). -/
def execHBfx (d : BitVec 3) (a : Opnd) (p : BitVec 6) (l : BitVec 5) (g : BitVec 4) (s : State) : Out :=
  s.word1 g 1 d a (fun _ x => i64 (sext64 (l.toNat + 1) (fieldOf x.data p l)))

/-- BFXU (R148). -/
def execHBfxu (d : BitVec 3) (a : Opnd) (p : BitVec 6) (l : BitVec 5) (g : BitVec 4) (s : State) : Out :=
  s.word1 g 1 d a (fun _ x => i64 (zext64 (fieldOf x.data p l)))

/-- BFI (R148): the other bits of d stay. -/
def execHBfi (d : BitVec 3) (a : Opnd) (p : BitVec 6) (l : BitVec 5) (g : BitVec 4) (s : State) : Out :=
  s.word1 g 1 d a (fun k x => i64 (setBits k.t[d.toNat].data (p.toNat + l.toNat) p.toNat x.data.toNat))

/-- LIT (R149): sext(literal, 32). -/
def execHLit (d : BitVec 3) (g : BitVec 4) (lit : BitVec 32) (s : State) : Out :=
  s.word g 2 fun k => s.put1 2 k d (i64 (lit.signExtend 64))

/-- LITH (R149): the literal above d[31:0]. -/
def execHLith (d : BitVec 3) (g : BitVec 4) (lit : BitVec 32) (s : State) : Out :=
  s.word g 2 fun k => s.put1 2 k d (i64 (lit ++ k.t[d.toNat].data.extractLsb' 0 32))

/-- ADDL (R149): a + sext(literal, 32). -/
def execHAddl (d : BitVec 3) (a : Opnd) (g : BitVec 4) (lit : BitVec 32) (s : State) : Out :=
  s.word1 g 2 d a (fun _ x => i64 (x.data + lit.signExtend 64))

end Sys2Proof.Machine
end

