-- ==== Sys2Proof/Machine/HFloat.lean ====
section
/-! DEFINITION. Floating operations, conversions and dot products of handlers (R150-R152). Nothing here raises a flag or traps on a
value; overflow is the IEEE mode. -/

namespace Sys2Proof.Machine

/-- A value of a floating format. -/
def fVal (f : FFmt) (v : Word) : TVal := ⟨v, BitVec.ofNat 3 (fTag f)⟩
/-- The format of the elements. -/
def fForm (f : FFmt) : FpFmt := fmtOfTag (fTag f)
/-- The element width of a floating format. -/
def fWidth (f : FFmt) : Nat := tagWidth (fTag f)
/-- Rounds an exact value by a handler's rounding (R150). -/
def hRound (f : FFmt) (e : HRnd) (x : FVal) : Nat := (roundFp (fForm f) (hRnd e) false 0 x).code
/-- The sign of an exact zero sum is − under RDN (R188). -/
def hDown (e : HRnd) : Bool := e == .rdn
/-- An exact operation on two elements, rounded once. -/
def fOp2 (f : FFmt) (e : HRnd) (op : FVal → FVal → FVal) (x y : TVal) : TVal :=
  fVal f (zipParts (fWidth f) (fun a b => hRound f e (op ((fForm f).decode a) ((fForm f).decode b))) x.data y.data)
/-- An exact operation on one element, rounded once. -/
def fOp1 (f : FFmt) (e : HRnd) (op : FVal → FVal) (x : TVal) : TVal :=
  fVal f (mapParts (fWidth f) (fun a => hRound f e (op ((fForm f).decode a))) x.data)
/-- a × b + c on each element, rounded once. -/
def fMulAdd (f : FFmt) (e : HRnd) (x y c : Word) : TVal :=
  let go (v : Nat × Nat) (w : Nat) : Nat :=
    hRound f e ((((fForm f).decode v.1).mul ((fForm f).decode v.2)).add (hDown e) ((fForm f).decode w))
  fVal f (joinParts (fWidth f) (List.zipWith go (List.zip (parts (fWidth f) x) (parts (fWidth f) y)) (parts (fWidth f) c)))
/-- x is below y, −0 below +0 (R150). -/
def fBelow (x y : FVal) : Bool := x.lt y || (x.isZero && y.isZero && x.isNeg && !y.isNeg)
/-- FMIN or FMAX of two codes: a NaN gives the other operand, two give the canonical NaN (R150). -/
def fPick (f : FpFmt) (low : Bool) (a b : Nat) : Nat :=
  let x := f.decode a
  let y := f.decode b
  if x.isNan && y.isNan then f.nan
  else if x.isNan then b
  else if y.isNan then a
  else if fBelow x y == low then a else b
/-- FMIN or FMAX of two values. -/
def fPick2 (f : FFmt) (low : Bool) (x y : TVal) : TVal := fVal f (zipParts (fWidth f) (fPick (fForm f) low) x.data y.data)
/-- A compare: all ones or zero in each element, tag I64 (R150). -/
def fCmp (f : FFmt) (op : FVal → FVal → Bool) (x y : TVal) : TVal :=
  i64 (zipParts (fWidth f) (fun a b => if op ((fForm f).decode a) ((fForm f).decode b) then 2 ^ fWidth f - 1 else 0) x.data y.data)
/-- One. -/
def fOne : FVal := .fin false 1 0 false

/-- FADD (R150). -/
def execHFadd (d : BitVec 3) (a b : Opnd) (f : FFmt) (g : BitVec 4) (e : HRnd) (s : State) : Out := s.word2 g d a b (fun _ x y => fOp2 f e (FVal.add (hDown e)) x y)

/-- FSUB (R150): a + (−b). -/
def execHFsub (d : BitVec 3) (a b : Opnd) (f : FFmt) (g : BitVec 4) (e : HRnd) (s : State) : Out := s.word2 g d a b (fun _ x y => fOp2 f e (fun u v => u.add (hDown e) v.neg) x y)

/-- FMUL (R150). -/
def execHFmul (d : BitVec 3) (a b : Opnd) (f : FFmt) (g : BitVec 4) (e : HRnd) (s : State) : Out := s.word2 g d a b (fun _ x y => fOp2 f e FVal.mul x y)

/-- FMA (R150): a × b + d, fused; d is read. -/
def execHFma (d : BitVec 3) (a b : Opnd) (f : FFmt) (g : BitVec 4) (e : HRnd) (s : State) : Out := s.word2 g d a b (fun k x y => fMulAdd f e x.data y.data k.t[d.toNat].data)

/-- FMIN (R150); ext has no effect on a minimum. -/
def execHFmin (d : BitVec 3) (a b : Opnd) (f : FFmt) (g : BitVec 4) (_e : HRnd) (s : State) : Out := s.word2 g d a b (fun _ x y => fPick2 f true x y)

/-- FMAX (R150); ext has no effect on a maximum. -/
def execHFmax (d : BitVec 3) (a b : Opnd) (f : FFmt) (g : BitVec 4) (_e : HRnd) (s : State) : Out := s.word2 g d a b (fun _ x y => fPick2 f false x y)

/-- FABS (R150): the sign bit cleared; NaN payloads kept. -/
def execHFabs (d : BitVec 3) (a : Opnd) (f : FFmt) (g : BitVec 4) (s : State) : Out := s.word1 g 1 d a (fun _ x => fVal f (mapParts (fWidth f) (fun v => v % (fForm f).signBit) x.data))

/-- FNEG (R150): the sign bit flipped; NaN payloads kept. -/
def execHFneg (d : BitVec 3) (a : Opnd) (f : FFmt) (g : BitVec 4) (s : State) : Out := s.word1 g 1 d a (fun _ x => fVal f (mapParts (fWidth f) (fun v => v ^^^ (fForm f).signBit) x.data))

/-- FCEQ (R150). -/
def execHFceq (d : BitVec 3) (a b : Opnd) (f : FFmt) (g : BitVec 4) (s : State) : Out := s.word2 g d a b (fun _ x y => fCmp f FVal.eqv x y)

/-- FCLT (R150). -/
def execHFclt (d : BitVec 3) (a b : Opnd) (f : FFmt) (g : BitVec 4) (s : State) : Out := s.word2 g d a b (fun _ x y => fCmp f FVal.lt x y)

/-- FCLE (R150). -/
def execHFcle (d : BitVec 3) (a b : Opnd) (f : FFmt) (g : BitVec 4) (s : State) : Out := s.word2 g d a b (fun _ x y => fCmp f FVal.le x y)

/-- FRCP (R150): 1/a. -/
def execHFrcp (d : BitVec 3) (a : Opnd) (f : FFmt) (g : BitVec 4) (e : HRnd) (s : State) : Out := s.word1 g 1 d a (fun _ x => fOp1 f e (FVal.div fOne) x)

/-- FSQRT (R150). -/
def execHFsqrt (d : BitVec 3) (a : Opnd) (f : FFmt) (g : BitVec 4) (e : HRnd) (s : State) : Out := s.word1 g 1 d a (fun _ x => fOp1 f e FVal.sqrt x)

/-- FEXP2 (R150): 2^a. -/
def execHFexp2 (d : BitVec 3) (a : Opnd) (f : FFmt) (g : BitVec 4) (e : HRnd) (s : State) : Out := s.word1 g 1 d a (fun _ x => fOp1 f e FVal.exp2 x)

/-- FCVT (R151): elements beyond the source's or the target's count are zero or lost. -/
def execHFcvt (d : BitVec 3) (a : Opnd) (dst f : CFmt) (g : BitVec 4) (e : HRnd) (s : State) : Out :=
  s.word1 g 1 d a fun _ x =>
    let n := 64 / tagWidth (cTag dst)
    let vs := ((parts (tagWidth (cTag f)) x.data).take n).map fun v => (convElem (hRnd e) false (cTag f) (cTag dst) 0 v).code
    ⟨joinParts (tagWidth (cTag dst)) vs, BitVec.ofNat 3 (cTag dst)⟩

/-- ICVTF (R151): signed integers of the target's width, in place. -/
def execHIcvtf (d : BitVec 3) (a : Opnd) (f : CFmt) (g : BitVec 4) (e : HRnd) (s : State) : Out :=
  s.word1 g 1 d a fun _ x =>
    let w := tagWidth (cTag f)
    ⟨mapParts w (fun v => (roundFp (fmtOfTag (cTag f)) (hRnd e) false 0 (ofInt (sextNat v w))).code) x.data, BitVec.ofNat 3 (cTag f)⟩

/-- FCVTI (R151): saturated signed integers of the source's width; NaN gives 0. -/
def execHFcvti (d : BitVec 3) (a : Opnd) (f : CFmt) (g : BitVec 4) (e : HRnd) (s : State) : Out :=
  s.word1 g 1 d a fun _ x =>
    let w := tagWidth (cTag f)
    ⟨mapParts w (fun v => (convToInt (hRnd e) true false w 0 ((fmtOfTag (cTag f)).decode v)).code) x.data, if f == .f32x2 then 1 else 0⟩

/-- The dot product of two values (R152). -/
def dotVal (f : DFmt) (e : HRnd) (x y : Word) : TVal :=
  let w := tagWidth (dTag f)
  let ps := List.zip (parts w x) (parts w y)
  if tagIsInt (dTag f) then i64 (BitVec.ofInt 64 (ps.map fun p => sextNat p.1 w * sextNat p.2 w).sum)
  else
    let s := exactSum (hDown e) (ps.map fun p => ((fmtOfTag (dTag f)).decode p.1).mul ((fmtOfTag (dTag f)).decode p.2))
    ⟨BitVec.ofNat 64 (roundFp fp32 (hRnd e) false 0 s).code, 2⟩

/-- FDOT (R152). -/
def execHFdot (d : BitVec 3) (a b : Opnd) (f : DFmt) (g : BitVec 4) (e : HRnd) (s : State) : Out := s.word2 g d a b (fun _ x y => dotVal f e x.data y.data)

end Sys2Proof.Machine
end

