-- ==== Sys2Proof/Machine/HMem.lean ====
section
/-! DEFINITION. Local and global loads and stores of handlers (R118, R153, R154). -/

namespace Sys2Proof.Machine

/-- The address of an access: base + size·sext(off11, 11). -/
def hAddr (base : TVal) (off : BitVec 11) (n : Nat) : Nat := (base.data + BitVec.ofNat 64 n * sx11 off).toNat

/-- The check of a local access of `n` bytes, aligned or not before its bounds (R118); `last` is the last byte it may reach. -/
def localFault (p n last : Nat) : Option Nat := if p % n ≠ 0 then some 0x22 else if p < 0x4000 || p + n - 1 > last then some 0x26 else none

/-- A byte of local memory as a block reads it: its own stores first, then what earlier firings committed (R153). -/
def State.localByte (s : State) (b : Block) (p : Nat) : Nat :=
  ((smFind b.lstores p).getD (memByte s.mem (cellBase s.cell + p))).toNat
/-- `n` bytes of local memory as a block reads them. -/
def State.localRead (s : State) (b : Block) (p : Nat) : Nat → Nat
  | 0 => 0
  | n + 1 => s.localByte b p + 256 * s.localRead b (p + 1) n
/-- A block's store to local memory, byte by byte, visible at its commit. -/
def putLocal (m : SMap Byte) (p : Nat) : Nat → Nat → SMap Byte
  | 0, _ => m
  | n + 1, v => putLocal (smPut m p (BitVec.ofNat 8 v)) (p + 1) n (v / 256)

/-- LDL of `n` bytes (R153). -/
def State.loadLocal (s : State) (g : BitVec 4) (d : BitVec 3) (a : Opnd) (off : BitVec 11) (n : Nat) : Out :=
  s.word g 1 fun k =>
    match s.opnd k a with
    | none => s.wordHolds
    | some (x, k) =>
      match localFault (hAddr x off n) n 0x17FFF with
      | some c => s.trapBlock c (hAddr x off n)
      | none => s.put1 1 k d (i64 (zext64 (s.localRead k (hAddr x off n) n)))

/-- STL of `n` bytes (R153): the packet window takes no store (R135). -/
def State.storeLocal (s : State) (g : BitVec 4) (d : BitVec 3) (a : Opnd) (off : BitVec 11) (n : Nat) : Out :=
  s.word g 1 fun k =>
    match s.opnd k a with
    | none => s.wordHolds
    | some (x, k) =>
      match localFault (hAddr x off n) n 0x17FBF with
      | some c => s.trapBlock c (hAddr x off n)
      | none => s.wordDone 1 { k with lstores := putLocal k.lstores (hAddr x off n) n k.t[d.toNat].data.toNat }

/-- A cacheable load performed as a renewal at the home, whatever the line's lease (R160). -/
def State.loadRenew (s : State) (a owner flat n : Nat) : LRes :=
  let line := flat / 64 * 64
  match smFind (s.ldOf a).lines line with
  | some l => .val (lineBytes (overlay (s.sbufOf a) line l) (flat - line) n) s
  | none =>
    if s.rebasing || s.dirty (agentTile a) flat n || (s.ldOf a).waiting then .wait s
    else
      let tl := s.getTile (agentTile a)
      .wait ((s.request a owner (bitsOf line 38 35)
        (.loadReq line ((smFind tl.lines line).map (·.wts)) (tl.spr.lclk.toNat + tl.spr.lease.toNat))).setSpin a ⟨line, 0, none⟩)

/-- A value with a block's own global stores laid over it, byte by byte (R154). -/
def layStores (es : List StoreEnt) (ty : BitVec 3) (flat n v : Nat) : Nat :=
  (es.foldl (fun l e => (List.range e.n).foldl (fun l i =>
    if e.ty = ty && decide (flat ≤ e.flat + i) && decide (e.flat + i < flat + n) then lineMerge l (e.flat + i - flat) 1 (lineBytes e.data i 1) else l) l)
    (BitVec.ofNat 512 v)).toNat % 2 ^ (8 * n)

/-- A global load as a block issues it. -/
def State.hLoad (s : State) (b : Block) (va n : Nat) : LRes :=
  let a := cellAgent s.cell
  let owner := s.cellUnit s.cell
  match s.reach a (s.cellVmid s.cell) va n n .r plainType with
  | .fault c => .fault c
  | .wait s => .wait s
  | .ok t s =>
    if b.fenceSl && !(s.sbufOf a).isEmpty then .wait s
    else
      match (if t.ty ≠ 0 then s.loadDirect a owner t n else if b.fenceAcq then s.loadRenew a owner t.flat n else s.loadLine a owner t.flat n) with
      | .val v s => .val (layStores b.gstores t.ty t.flat n v) s
      | r => r

/-- LDG of `n` bytes (R154): it holds the block until its data returns. -/
def State.loadGlobal (s : State) (g : BitVec 4) (d : BitVec 3) (a : Opnd) (off : BitVec 11) (n : Nat) : Out :=
  s.word g 1 fun k =>
    match s.opnd k a with
    | none => s.wordHolds
    | some (x, k) =>
      match s.hLoad k (hAddr x off n) n with
      | .fault c => s.trapBlock c (hAddr x off n)
      | .wait s => .next s
      | .val v s => s.put1 1 k d (i64 (zext64 v))

/-- STG of `n` bytes (R154): translated and checked as it issues, in the store buffer from the commit on. -/
def State.storeGlobal (s : State) (g : BitVec 4) (d : BitVec 3) (a : Opnd) (off : BitVec 11) (n : Nat) : Out :=
  s.word g 1 fun k =>
    match s.opnd k a with
    | none => s.wordHolds
    | some (x, k) =>
      let va := hAddr x off n
      match s.reach (cellAgent s.cell) (s.cellVmid s.cell) va n n .w plainType with
      | .fault c => s.trapBlock c va
      | .wait s => .next s
      | .ok t s =>
        s.wordDone 1 { k with gstores := k.gstores ++
          [⟨va, t.flat, t.ty, t.home, n, BitVec.ofNat 512 (k.t[d.toNat].data.toNat % 2 ^ (8 * n)), s.cellUnit s.cell, 0, false⟩] }

/-- LDL.8 (R153). -/
def execHLdl8 (d : BitVec 3) (a : Opnd) (off : BitVec 11) (g : BitVec 4) (s : State) : Out := s.loadLocal g d a off 1

/-- LDL.16 (R153). -/
def execHLdl16 (d : BitVec 3) (a : Opnd) (off : BitVec 11) (g : BitVec 4) (s : State) : Out := s.loadLocal g d a off 2

/-- LDL.32 (R153). -/
def execHLdl32 (d : BitVec 3) (a : Opnd) (off : BitVec 11) (g : BitVec 4) (s : State) : Out := s.loadLocal g d a off 4

/-- LDL.64 (R153). -/
def execHLdl64 (d : BitVec 3) (a : Opnd) (off : BitVec 11) (g : BitVec 4) (s : State) : Out := s.loadLocal g d a off 8

/-- STL.8 (R153). -/
def execHStl8 (d : BitVec 3) (a : Opnd) (off : BitVec 11) (g : BitVec 4) (s : State) : Out := s.storeLocal g d a off 1

/-- STL.16 (R153). -/
def execHStl16 (d : BitVec 3) (a : Opnd) (off : BitVec 11) (g : BitVec 4) (s : State) : Out := s.storeLocal g d a off 2

/-- STL.32 (R153). -/
def execHStl32 (d : BitVec 3) (a : Opnd) (off : BitVec 11) (g : BitVec 4) (s : State) : Out := s.storeLocal g d a off 4

/-- STL.64 (R153). -/
def execHStl64 (d : BitVec 3) (a : Opnd) (off : BitVec 11) (g : BitVec 4) (s : State) : Out := s.storeLocal g d a off 8

/-- LDG.8 (R154). -/
def execHLdg8 (d : BitVec 3) (a : Opnd) (off : BitVec 11) (g : BitVec 4) (s : State) : Out := s.loadGlobal g d a off 1

/-- LDG.16 (R154). -/
def execHLdg16 (d : BitVec 3) (a : Opnd) (off : BitVec 11) (g : BitVec 4) (s : State) : Out := s.loadGlobal g d a off 2

/-- LDG.32 (R154). -/
def execHLdg32 (d : BitVec 3) (a : Opnd) (off : BitVec 11) (g : BitVec 4) (s : State) : Out := s.loadGlobal g d a off 4

/-- LDG.64 (R154). -/
def execHLdg64 (d : BitVec 3) (a : Opnd) (off : BitVec 11) (g : BitVec 4) (s : State) : Out := s.loadGlobal g d a off 8

/-- STG.8 (R154). -/
def execHStg8 (d : BitVec 3) (a : Opnd) (off : BitVec 11) (g : BitVec 4) (s : State) : Out := s.storeGlobal g d a off 1

/-- STG.16 (R154). -/
def execHStg16 (d : BitVec 3) (a : Opnd) (off : BitVec 11) (g : BitVec 4) (s : State) : Out := s.storeGlobal g d a off 2

/-- STG.32 (R154). -/
def execHStg32 (d : BitVec 3) (a : Opnd) (off : BitVec 11) (g : BitVec 4) (s : State) : Out := s.storeGlobal g d a off 4

/-- STG.64 (R154). -/
def execHStg64 (d : BitVec 3) (a : Opnd) (off : BitVec 11) (g : BitVec 4) (s : State) : Out := s.storeGlobal g d a off 8

end Sys2Proof.Machine
end

