-- ==== Sys2Proof/Machine/HBlock.lean ====
section
/-! DEFINITION. Handler blocks: starting a firing (R119, R139, R140), emitting tokens and packets (R155, R156), tags (R158), SYNC (R159),
fences and the clock (R160, R161), the kinds of EXIT (R157), the granting of tags (R137, R138) and the commit (R142). -/

namespace Sys2Proof.Machine

/-! Starting and abandoning -/

/-- The tag of a firing. -/
def Block.tag (b : Block) : Tag := ⟨b.ctx, b.iter, b.lvl⟩

/-- The registers t0-t7 of a block that starts: undefined (R140, log 5). -/
def State.freeRegs (s : State) : Vector TVal 8 × State :=
  (List.range 8).foldl (fun r i =>
    let d := r.2.fresh
    let f := d.2.fresh
    (if h : i < 8 then r.1.set i ⟨d.1, f.1.setWidth 3⟩ else r.1, f.2)) (Vector.replicate 8 (i64 0), s)

/-- The firings of a cell that are ready to run a handler (R119, R132). -/
def CellPlane.firings (p : CellPlane) : List Firing :=
  (List.range 64).flatMap fun i => if (p.slot i).kind == 1 then (p.ready i).filter (·.pred) else []

/-- The tag of a firing: its inputs', and where a sticky L's and its partner's differ, either (R136 does not say which, log 24). -/
def State.firingTag (s : State) (f : Firing) : Tag × State :=
  match f.inputs.map (·.tok.tag) with
  | [] => (⟨0, 0, 0⟩, s)
  | g :: r =>
    if r.all (· == g) then (g, s)
    else let v := s.fresh; (if bitOf v.1.toNat 0 then g else r.headD g, v.2)

/-- The packet window of a cell (R135). -/
def packetWindow (c : Nat) : Nat := cellBase c + 0x17FC0

/-- A packet's beats fill the window; a single beat leaves it (R135). -/
def State.fillWindow (s : State) (c : Nat) (l : Option MEnt) : State :=
  match l with
  | some e =>
    if e.more.isEmpty then s
    else { s with mem := memWrite s.mem (packetWindow c) 64 (packBits 64 (e.tok.data.toNat :: e.more.map (·.data.toNat))) }
  | none => s

/-- The aux byte of a matched input. -/
def inputAux (e : Option MEnt) : BitVec 8 := match e with | some e => e.tok.aux | none => 0

/-- The value of a matched input. -/
def inputVal (e : Option MEnt) : TVal := match e with | some e => ⟨e.tok.data, e.tok.fmt⟩ | none => i64 0

/-- A cell may start a firing: its region feeds it and no block runs. -/
def State.mayStart (s : State) (c : Nat) : Bool := isTCell c && s.cellFeeds c && (s.getCell c).block.isNone

/-- FIRING_START (R119, R139, R140): of the ready firings, the one whose last input arrived earliest. -/
def execFiringStart (cell : Nat) (s : State) : Out :=
  let p := s.cp cell
  if !s.mayStart cell then s.stutter
  else match earliest p.firings with
  | none => s.stutter
  | some f =>
    let seqs := f.inputs.map (·.seq)
    let g := s.firingTag f
    let t := g.2.freeRegs
    let b := { Block.blank with slot := BitVec.ofNat 6 f.slot, pc := (p.slot f.slot).entry, ctx := g.1.ctx, iter := g.1.iter,
                                lvl := g.1.lvl, l := inputVal f.l, r := inputVal f.r, laux := inputAux f.l, raux := inputAux f.r, inputs := seqs, t := t.1,
                                p := match f.p with | some e => bitOf e.tok.data.toNat 0 | none => false }
    let take (e : MEnt) : MEnt := if seqs.contains e.seq && !e.sticky then { e with busy := true } else e
    let s := (t.2.fillWindow cell f.l).modCp cell fun p => { p with store := p.store.map take }
    .next ((s.modCell cell fun c => { c with block := some b, ld := LoadSt.empty }).touchTok (s.cellUnit cell))

/-- An operation that allocates (R136). -/
def allocs (op lvl : Nat) : Bool := op == 4 || op == 6 || (op == 2 && lvl != 0)

/-- Returns the tags and contexts granted to a block that will not commit (R309). -/
def State.ungrant (s : State) (c : Nat) (b : Block) : State :=
  let t := s.getTile (s.leadOf c)
  let got := (b.emits.filter fun e => allocs e.tagop.toNat b.lvl.toNat).filterMap (·.grant)
  let gone (x : BitVec 8) (l : BitVec 3) (i : BitVec 10) : Bool := got.any fun g => g.1 == x && g.2.2 == l && g.2.1 == i
  let ctxs := ((b.emits.filter fun e => e.tagop == 6).filterMap (·.grant)).map (·.1)
  if got.isEmpty then s else s.setPools c (t.tags.filter fun e => !gone e.ctx e.lvl e.iter) (t.ctxs.filter fun x => !ctxs.contains x)

/-- A block is abandoned as DEFER abandons it (R157, R309): nothing commits, nothing is consumed, and its firing is ready again
behind every firing that is ready. -/
def State.abandon (s : State) (c : Nat) : State :=
  match (s.getCell c).block with
  | none => s
  | some b =>
    let n := (s.ungrant c b).nextStamp
    let mine (e : MEnt) : Bool := b.inputs.contains e.seq && !e.sticky
    let again (p : CellPlane) : List MEnt := (p.store.filter mine).map fun e => { e with ord := n.1, busy := false }
    let s := n.2.modCp c fun p => { p with store := p.store.filter (fun e => !mine e) ++ again p }
    s.modCell c fun x => { x with block := none, ld := LoadSt.empty }

/-! Emitting -/

/-- The tag operation of a token: the instruction's, or the entry's own under DEF (R136). -/
def opFor (e : DestF) (tagop : Nat) : Nat := if tagop = 0 then e.tagop else tagop

/-- A token's tag as it is emitted: none where its operation allocates, which the EXIT waits for (R137). -/
def State.emitTag (s : State) (b : Block) (op : Nat) : Except Nat (Option (BitVec 8 × BitVec 10 × BitVec 3)) :=
  match s.tagOpAt s.cell op b.tag with
  | .fault c => .error c
  | .ok g _ _ => .ok (if allocs op b.lvl.toNat then none else some (g.ctx, g.iter, g.lvl))
  | .wait => .ok none

/-- The aux byte that data of a format is sent with (R128): a Q4X16 value's scale byte, which comes with a matched input; of any other
Q4X16 value the spec states none (log 137). -/
def State.emitAux (s : State) (b : Block) (a : Opnd) (fmt : BitVec 3) : BitVec 8 × State :=
  if fmt ≠ 7 then (0, s)
  else match a with
  | .reg 8 => (b.laux, s)
  | .reg 9 => (b.raux, s)
  | _ => (s.fresh.1.setWidth 8, s.fresh.2)

/-- Adds an instruction's tokens to a block, in the order of its destinations (R155). Two entries of different default operations that allocate
make one allocation for each operation (DESIGN CHOICE, log 136). -/
def State.emitAll (s : State) (b : Block) (tagop : Nat) (fmt : BitVec 3) (aux : BitVec 8) (beats : List Word) (loc : Option Nat) : List Nat → Except Nat Block
  | [] => .ok { b with groups := b.groups + 1 }
  | d :: r =>
    let e := s.entry s.cell d
    match s.emitTag b (opFor e tagop) with
    | .error c => .error c
    | .ok g =>
      s.emitAll { b with emits := b.emits ++ [(⟨BitVec.ofNat 6 d, e.net == 1, BitVec.ofNat 3 (opFor e tagop), fmt, aux, beats, loc,
        8 * b.groups + opFor e tagop, g⟩ : Emission)] } tagop fmt aux beats loc r

/-- The destinations an EMIT names: 63 names none. -/
def dests (d0 d1 : BitVec 6) : List Nat := ([d0, d1].filter (· != 63)).map (·.toNat)

/-- An entry that EMIT may name (R155): of field L or R. -/
def DestF.takesData (e : DestF) : Bool := e.valid && e.net != 1 && decide (e.field ≤ 1)
/-- An entry that SEND may name (R156): of field L. -/
def DestF.takesPacket (e : DestF) : Bool := e.takesData && e.field == 0

/-- A word that emits: its entries must serve it (0x05), and its tag operations must be allowed (R136). -/
def State.emitWord (s : State) (g : BitVec 4) (a : Opnd) (ds : List Nat) (ok : DestF → Bool) (tagop : Nat) (val : TVal → TVal) : Out :=
  s.word g 1 fun k =>
    match s.opnd k a with
    | none => s.wordHolds
    | some (x, k) =>
      if ds.any (fun d => !ok (s.entry s.cell d)) then s.trapBlock 0x05 0
      else
        let u := s.emitAux k a (val x).fmt
        match u.2.emitAll k tagop (val x).fmt u.1 [(val x).data] none ds with
        | .error c => s.trapBlock c 0
        | .ok k => u.2.wordDone 1 k

/-- EMIT (R155). -/
def execHEmit (a : Opnd) (d0 d1 : BitVec 6) (tagop : BitVec 3) (g : BitVec 4) (s : State) : Out :=
  s.emitWord g a (dests d0 d1) DestF.takesData tagop.toNat id

/-- EMITP (R155): bit 0 of a as a predicate. -/
def execHEmitp (a : Opnd) (d0 d1 : BitVec 6) (tagop : BitVec 3) (g : BitVec 4) (s : State) : Out :=
  s.emitWord g a (dests d0 d1) (fun e => e.valid && e.field == 2) tagop.toNat fun x => i64 (if bitOf x.data.toNat 0 then 1 else 0)

/-- SEND (R156): the packet's bytes are read at the commit. -/
def execHSend (a b : Opnd) (g : BitVec 4) (s : State) : Out :=
  s.word g 1 fun k =>
    match s.opnd k a with
    | none => s.wordHolds
    | some (x, k) =>
      match s.opnd k b with
      | none => s.wordHolds
      | some (y, k) =>
        let p := x.data.toNat
        let v := y.data.toNat
        let n := bitsOf v 8 6 + 1
        if p % 8 ≠ 0 then s.trapBlock 0x22 p
        else if v ≥ 2 ^ 15 || bitsOf v 5 0 == 63 || bitsOf v 14 12 == 7 then s.trapBlock 0x04 0
        else if !(s.entry s.cell (bitsOf v 5 0)).takesPacket then s.trapBlock 0x05 0
        else if p < 0x4000 || p + 8 * n > 0x18000 then s.trapBlock 0x26 p
        else
          let u := s.emitAux k (.reg 13) (BitVec.ofNat 3 (bitsOf v 11 9))
          match u.2.emitAll k (bitsOf v 14 12) (BitVec.ofNat 3 (bitsOf v 11 9)) u.1 (List.replicate n 0) (some p) [bitsOf v 5 0] with
          | .error c => s.trapBlock c 0
          | .ok k => u.2.wordDone 1 k

/-! EXIT -/

/-- EXIT DONE (R157): the block holds until it can commit. -/
def execHExitDone (keep : BitVec 3) (g : BitVec 4) (s : State) : Out := s.word g 1 fun k => s.wordDone 1 { k with exiting := some keep }

/-- EXIT DEFER (R157). -/
def execHExitDefer (g : BitVec 4) (s : State) : Out := s.word g 1 fun _ => .next ((s.abandon s.cell).touchCell s.cell)

/-- EXIT FAIL (R157). -/
def execHExitFail (g : BitVec 4) (s : State) : Out := s.word g 1 fun _ => s.trapBlock 0x07 0

/-! Tags (R158) -/

/-- The tag pool entries of the acting cell's unit. -/
def State.pool (s : State) : Tile := s.getTile (s.leadOf s.cell)

/-- TAG LVL. -/
def execHTagLvl (d : BitVec 3) (g : BitVec 4) (s : State) : Out := s.word g 1 fun k => s.put1 1 k d (i64 (k.lvl.setWidth 64))

/-- TAG FREE: at the commit; no effect at lvl 0. -/
def execHTagFree (g : BitVec 4) (s : State) : Out := s.word g 1 fun k => s.wordDone 1 { k with freeTag := true }

/-- TAG FREECTX: at the commit; ctx 0 and a context not allocated trap. -/
def execHTagFreectx (g : BitVec 4) (s : State) : Out :=
  s.word g 1 fun k => if s.pool.ctxs.contains k.ctx then s.wordDone 1 { k with freeCtx := true } else s.trapBlock 0x45 0

/-- TAG POOL: the credits of a level of the firing's context beyond the other levels' reserves. -/
def execHTagPool (d : BitVec 3) (a : Opnd) (g : BitVec 4) (s : State) : Out :=
  s.word g 1 fun k =>
    match s.opnd k a with
    | none => s.wordHolds
    | some (x, k) =>
      if x.data.toNat ≥ 8 then s.trapBlock 0x04 0
      else s.put1 1 k d (i64 (if x.data = 0 then 0 else BitVec.ofNat 64 (credit s.pool.tags k.ctx x.data.toNat).toNat))

/-- TAG PARENT: 0 at lvl 0; of a tag that is not live the spec states no parent (log 5). -/
def execHTagParent (d : BitVec 3) (g : BitVec 4) (s : State) : Out :=
  s.word g 1 fun k =>
    if k.lvl = 0 then s.put1 1 k d (i64 0)
    else match findTag s.pool.tags k.tag with
    | some t => s.put1 1 k d (i64 (t.parent.setWidth 64))
    | none => s.fresh.2.put1 1 k d (i64 s.fresh.1)

/-! SYNC (R159) -/

/-- The bytes a command's operand has (R46, R159). -/
def syncBytes (f : BitVec 3) : Nat := if f = 0 then 8 else 4
/-- An operand as a command carries it: bits [31:0] for the 32-bit formats. -/
def syncData (f : BitVec 3) (v : Word) : Word := if f = 0 then v else (v.setWidth 32).setWidth 64
/-- The page type a SYNC command needs. -/
def syncNeeds (cmd : BitVec 8) : BitVec 3 → Option Nat := if atomicCode cmd.toNat then atomType else syncType
/-- An entry that a reply may be sent to: of fields L and R, and not of net PRED (R46, R159). -/
def State.replyOk (s : State) (reply : BitVec 6) : Bool := reply == 63 || (s.entry s.cell reply.toNat).takesData
/-- Where the reply of a SYNC goes, with the firing's tag; RED forms and NONE have none. -/
def State.replyTo (s : State) (k : Block) (reply : BitVec 6) : ReplyTo :=
  if reply = 63 then .none
  else
    let e := s.entry s.cell reply.toNat
    .cell e.cell (BitVec.ofNat 6 e.slot) (BitVec.ofNat 2 e.field) k.ctx k.iter k.lvl

/-- SYNC (R159): translated and checked as it issues, sent at the commit. -/
def execHSync (d : BitVec 3) (a b : Opnd) (g : BitVec 4) (reply : BitVec 6) (f : BitVec 3) (scope : BitVec 2) (cmd : BitVec 8) (s : State) : Out :=
  s.word g 2 fun k =>
    match s.opnd k a with
    | none => s.wordHolds
    | some (x, k) =>
      match s.opnd k b with
      | none => s.wordHolds
      | some (y, k) =>
        let va := x.data.toNat
        let n := syncBytes f
        match s.reach (cellAgent s.cell) (s.cellVmid s.cell) va n n .rw (syncNeeds cmd) with
        | .fault c => s.trapBlock c va
        | .wait s => .next s
        | .ok t s =>
          if !s.replyOk reply then s.trapBlock 0x05 0
          else if cmd = 0x25 && bitsOf y.data.toNat 7 0 == 0 then s.trapBlock 0x04 0
          else
            let arg := if cmd = 0x25 then y.data &&& 0xFF else syncData f y.data
            s.wordDone 2 { k with syncs := k.syncs ++ [⟨cmd, f, scope, t.flat, arg,
              if cmd = 0x0B then syncData f k.t[d.toNat].data else 0, 0, s.cellVmid s.cell, s.replyTo k reply⟩] }

/-! Fences and the clock (R160, R161) -/

/-- FENCE SL. -/
def execHFenceSl (g : BitVec 4) (s : State) : Out := s.word g 1 fun k => s.wordDone 1 { k with fenceSl := true }

/-- The wider of two scopes. -/
def scopeMax (x : Option (BitVec 2)) (y : BitVec 2) : BitVec 2 := match x with | some x => if x.toNat < y.toNat then y else x | none => y

/-- FENCE REL: a release of the scope at the commit. -/
def execHFenceRel (scope : BitVec 2) (g : BitVec 4) (s : State) : Out :=
  s.word g 1 fun k => s.wordDone 1 { k with fenceRel := some (scopeMax k.fenceRel scope) }

/-- FENCE ACQ: with scope DIE or wider every later cacheable LDG renews. Words issue in order, so earlier loads, pops and peeks have
performed. -/
def execHFenceAcq (scope : BitVec 2) (g : BitVec 4) (s : State) : Out :=
  s.word g 1 fun k => s.wordDone 1 { k with fenceAcq := k.fenceAcq || scope != 0 }

/-- LCLK: the tile's LCLK as it issues. -/
def execHLclk (d : BitVec 3) (g : BitVec 4) (s : State) : Out :=
  s.word g 1 fun k => s.put1 1 k d (i64 ((s.lclk (cellTile s.cell)).setWidth 64))

/-- LCLKADV: at the commit. -/
def execHLclkadv (a : Opnd) (g : BitVec 4) (s : State) : Out :=
  s.word g 1 fun k =>
    match s.opnd k a with
    | none => s.wordHolds
    | some (x, k) =>
      if x.data.toNat ≥ 2 ^ 31 then s.trapBlock 0x04 0 else s.wordDone 1 { k with lclkAdv := k.lclkAdv + x.data.toNat }

/-! Granting tags -/

/-- TAG_GRANT (R136-R138): the next tag or context that a block at its EXIT waits for. -/
def execTagGrant (cell : Nat) (s : State) : Out :=
  match (s.getCell cell).block with
  | none => s.stutter
  | some b =>
    if !s.cellFeeds cell || b.exiting.isNone || b.committing then s.stutter
    else match b.emits.find? (·.grant.isNone) with
    | none => s.stutter
    | some e =>
      match s.tagOpAt cell e.tagop.toNat b.tag with
      | .wait => s.stutter
      | .fault c => { (s.ungrant cell b) with cell := cell }.trapBlock c 0
      | .ok g tags ctxs =>
        let emits := b.emits.map fun x => if x.group = e.group then { x with grant := some (g.ctx, g.iter, g.lvl) } else x
        .next (((s.setPools cell tags ctxs).modCell cell fun c => { c with block := some { b with emits := emits } }).touchCell cell)

/-! The commit (R142) -/

/-- The tokens of a block, with a packet's bytes as the commit finds them. -/
def State.blockToks (s : State) (c : Nat) (b : Block) : List NetTok :=
  b.emits.map fun e =>
    let g : Tag := match e.grant with | some g => ⟨g.1, g.2.1, g.2.2⟩ | none => b.tag
    let beats := match e.loc with
      | some p => (List.range e.beats.length).map fun i => BitVec.ofNat 64 (memRead s.mem (cellBase c + p + 8 * i) 8)
      | none => e.beats
    s.throughEntry c (s.entry c e.entry.toNat) g e.fmt e.aux false beats

/-- Local stores become visible. -/
def State.localCommit (s : State) (c : Nat) (b : Block) : State :=
  { s with mem := b.lstores.foldl (fun m x => memPut m (cellBase c + x.1) x.2) s.mem }

/-- Channel pops leave, and inputs are consumed but a sticky L and those kept (R141, R157). -/
def State.takeInputs (s : State) (c : Nat) (b : Block) (keep : BitVec 3) : State :=
  let n := s.nextStamp
  n.2.modCp c fun p =>
    let chans := b.pops.foldl (fun m i => smPut m i.toNat ((smGet [] m i.toNat).drop 1)) p.chans
    let mine (e : MEnt) : Bool := b.inputs.contains e.seq && !e.sticky
    let kept := (p.store.filter fun e => mine e && bitOf keep.toNat e.tok.field.toNat).map fun e => { e with ord := n.1, busy := false }
    { p with chans := chans, store := p.store.filter (fun e => !mine e) ++ kept }

/-- TAG FREE and TAG FREECTX take effect. -/
def State.freeTags (s : State) (c : Nat) (b : Block) : State :=
  let t := s.getTile (s.leadOf c)
  let tags := if b.freeTag && b.lvl != 0 then t.tags.filter fun e => !(e.ctx == b.ctx && e.lvl == b.lvl && e.iter == b.iter) else t.tags
  let ctxs := if b.freeCtx then t.ctxs.filter (· != b.ctx) else t.ctxs
  if b.freeTag || b.freeCtx then s.setPools c tags ctxs else s

/-- The store buffer has room for a block's global stores, or is empty. -/
def roomFor (buf : List StoreEnt) (n : Nat) : Bool := n == 0 || buf.isEmpty || decide (buf.length + n ≤ 4)

/-- Tokens of a block that may not leave yet hold their places (R142, R160). -/
def State.reserveToks (s : State) (ts : List NetTok) : State := { s with net := s.net ++ ts.map fun t => { t with arrived := false } }

/-- A block's token that has its place and has not left. -/
def NetTok.reserved (t : NetTok) (c : Nat) : Bool := t.src == c && t.flow.isNone && !t.arrived

/-- The run in progress of a unit (R77). -/
def State.runOf (s : State) (u : Nat) : Nat := match s.launch? u with | some l => l.runId | none => 0

/-- The commit begins once every token has a place and a tag, the store buffer has room and a FENCE REL is satisfied. -/
def State.commitStart (s : State) (c : Nat) (b : Block) (keep : BitVec 3) : Out :=
  let a := cellAgent c
  let t := cellTile c
  let after := s.localCommit c b
  let toks := after.blockToks c b
  if b.emits.any (·.grant.isNone) || !roomFor (s.sbufOf a) b.gstores.length || !s.placesFor toks || !s.tokRoom toks then s.stutter
  else if (s.lclk t).toNat + b.lclkAdv ≥ 2 ^ 32 then .next (s.askRebase (tileDie t))
  else
    let r := match b.fenceRel with | some sc => s.release a (s.cellUnit c) sc | none => (true, s)
    if !r.1 then .next r.2
    else
      let s := ((r.2.localCommit c b).takeInputs c b keep).freeTags c b
      let s := if b.lclkAdv = 0 then s else s.raiseLclk t (BitVec.ofNat 32 ((s.lclk t).toNat + b.lclkAdv))
      let room := 4 - (s.sbufOf a).length
      let stores := b.gstores.map fun e => { e with run := s.runOf e.owner }
      let s := s.setSbuf a (s.sbufOf a ++ stores.take room)
      let later := stores.drop room
      let wait := b.fenceRel.isSome && !b.gstores.isEmpty
      let s := if wait then s.reserveToks toks else s.sendToks toks
      let rest := if later.isEmpty && !wait && b.syncs.isEmpty then none
        else some { b with committing := true, gstores := later, emits := [], fenceRel := if wait then b.fenceRel else none }
      .next ((s.modCell c fun x => { x with block := rest }).touchTok (s.cellUnit c))

/-- A SYNC message as it leaves: a phaser's signal carries the cell's WHW (R247). -/
def State.syncNow (s : State) (c : Nat) (m : SyncCmd) : SyncCmd :=
  { m with aux := (s.lclk (cellTile c)).toNat,
           a := if m.code = 0x22 || m.code = 0x24 then (s.getCell c).whw ++ m.a.setWidth 32 else m.a }

/-- A SYNC message of a cell may leave: the store buffer has drained and the earlier direct writes within its scope have completed (R159). -/
def State.syncSend (s : State) (c : Nat) (m : SyncCmd) : Bool × State :=
  let a := cellAgent c
  let die := if atomicCode m.code.toNat then homeDie m.addr else (syncPlace m.addr).1
  if !(s.sbufOf a).isEmpty || (atomicCode m.code.toNat && s.rebasing) ||
      !s.room (tileDie (cellTile c)) (tileLocal (cellTile c)) die (replyCls m.code.toNat) then (false, s)
  else
    let r := s.settled a (s.cellUnit c) m.scope true
    if r.1 then (true, (r.2.sendFrom a (s.cellUnit c) die (.cmd (s.syncNow c m))).ofRun (s.runOf (s.cellUnit c))) else r

/-- A commit that has begun goes on: its later stores enter, then under FENCE REL its tokens leave, then its SYNC messages. -/
def State.commitMore (s : State) (c : Nat) (b : Block) : Out :=
  let a := cellAgent c
  let put (s : State) (b : Option Block) : Out := .next ((s.modCell c fun x => { x with block := b }).touchTok (s.cellUnit c))
  match b.gstores with
  | e :: r =>
    if (s.sbufOf a).length ≥ 4 then s.stutter
    else
      let b := { b with gstores := r }
      put (s.setSbuf a (s.sbufOf a ++ [e])) (if r.isEmpty && b.fenceRel.isNone && b.syncs.isEmpty then none else some b)
  | [] =>
    match b.fenceRel with
    | some sc =>
      let toks := (s.net.filter (·.reserved c)).map fun t => { t with arrived := true }
      if !s.tokRoom toks then s.stutter
      else
        let r := s.release a (s.cellUnit c) sc
        if !r.1 then .next r.2
        else put ({ r.2 with net := r.2.net.filter fun t => !t.reserved c }.sendToks toks)
          (if b.syncs.isEmpty then none else some { b with fenceRel := none })
    | none =>
      match b.syncs with
      | m :: r =>
        let x := s.syncSend c m
        if x.1 then put x.2 (if r.isEmpty then none else some { b with syncs := r }) else .next x.2
      | [] => put s none

/-- BLOCK_COMMIT (R142). -/
def execBlockCommit (cell : Nat) (s : State) : Out :=
  match (s.getCell cell).block with
  | none => s.stutter
  | some b =>
    if b.committing then s.commitMore cell b
    else match b.exiting with
    | some keep => if s.cellFeeds cell then s.commitStart cell b keep else s.stutter
    | none => s.stutter

end Sys2Proof.Machine
end

