-- ==== Sys2Proof/Machine/HRender.lean ====
section
/-! DEFINITION. Traversal, dicing, sampling, micropolygon tests and ordered waits of handlers (R260-R264, R273-R283, R287-R289, R292). -/

namespace Sys2Proof.Machine

/-- Runs a word of two operands under its guard. -/
def State.two (s : State) (g : BitVec 4) (a b : Opnd) (go : Block → TVal → TVal → Out) : Out :=
  s.word g 1 fun k =>
    match s.opnd k a with
    | none => s.wordHolds
    | some (x, k) => (match s.opnd k b with | some (y, k) => go k x y | none => s.wordHolds)

/-- The check of a record of local memory (R118): its alignment, then its bounds. -/
def recFault (p align n : Nat) : Option Nat := if p % align ≠ 0 then some 0x22 else if p < 0x4000 || p + n > 0x18000 then some 0x26 else none

/-- Rounds to FP32 and reads the result back. -/
def round32 (r : Rnd) (x : FVal) : FVal := fp32.decode (roundFp fp32 r false 0 x).code
/-- The FP32 code of a value under RNE. -/
def code32 (x : FVal) : Nat := (roundFp fp32 .rne false 0 x).code
/-- x − y, exactly. -/
def FVal.sub (x y : FVal) : FVal := x.add false y.neg
/-- A value that is neither NaN nor infinite. -/
def FVal.finite (x : FVal) : Bool := !x.isNan && !x.isInf
/-- The 32-bit word at an offset of a record. -/
def word32 (v off : Nat) : Nat := v / 2 ^ (8 * off) % 2 ^ 32
/-- The byte at an offset of a record. -/
def byteOf (v off : Nat) : Nat := v / 2 ^ (8 * off) % 2 ^ 8
/-- The FP32 at an offset of a record. -/
def fp32At (v off : Nat) : FVal := fp32.decode (word32 v off)
/-- Three FP32 values in a row. -/
def vec3 (v off : Nat) : List FVal := [fp32At v off, fp32At v (off + 4), fp32At v (off + 8)]
/-- The component of an axis. -/
def comp (p : List FVal) (i : Nat) : FVal := p.getD i .nan

/-! Ray packets (R260, R261) -/

/-- A ray as the packet window holds it; `ok` is R282's condition. -/
structure Ray where
  win : Nat
  o : List FVal
  dir : List FVal
  tmin : FVal
  tmax : FVal
  sp : Nat
  ok : Bool
  deriving DecidableEq, Repr

/-- The ray of a window's 64 bytes. -/
def rayOf (w : Nat) : Ray :=
  let o := vec3 w 0
  let d := vec3 w 12
  ⟨w, o, d, fp32At w 24, fp32At w 28, byteOf w 38 % 8, o.all FVal.finite && d.all FVal.finite && (fp32At w 24).finite && !(fp32At w 28).isNan⟩

/-- The current packet window of the acting cell. -/
def State.rayWindow (s : State) : Nat := memRead s.mem (packetWindow s.cell) 64
/-- Stack entry i of a window. -/
def Ray.entry (r : Ray) (i : Nat) : Nat := word32 r.win (40 + 4 * i)
/-- The top entry. -/
def Ray.top (r : Ray) : Nat := r.entry (r.sp - 1)
/-- The stack below the top. -/
def Ray.below (r : Ray) : List Nat := (List.range (r.sp - 1)).map r.entry
/-- The window with a stack and, in the closest forms, with entries 4 and 5 (R263, R278). -/
def imageOf (w : Nat) (stack : List Nat) (best : Option (Nat × Nat)) : Nat :=
  let es := (List.range 6).map fun i => match best, i with | some b, 4 => b.1 | some b, 5 => b.2 | _, i => stack.getD i 0
  w % 2 ^ 304 + (byteOf w 38 / 8 * 8 + stack.length) * 2 ^ 304 + byteOf w 39 * 2 ^ 312 + packBits 32 es * 2 ^ 320

/-- The operand checks of BOXT8 and TRIT that need no record (R264, R278). `leaf` tells a leaf entry from a node entry. -/
def Ray.check (r : Ray) (leaf closest : Bool) (a b align : Nat) : Option Nat :=
  let e := r.top
  if r.sp = 0 || r.sp > (if closest then 4 else 6) then some 0x04
  else if bitOf e 31 != leaf then some 0x04
  else if !leaf && bitsOf e 30 27 != 0 then some 0x04
  else if leaf && bitsOf e 30 27 != 0 && bitsOf e 26 0 + 1 == 2 ^ 27 then some 0x04
  else if a % align ≠ 0 || b % 64 ≠ 0 then some 0x22
  else if b < 0x4000 || b > 0x17F80 then some 0x26 else none

/-! Records in memory (R264) -/

/-- A record of k 16-byte pieces, each read as LDG reads. -/
def State.hPieces (s : State) (b : Block) (va : Nat) : Nat → LRes
  | 0 => .val 0 s
  | k + 1 =>
    match s.hLoad b va 16 with
    | .val v s => (match State.hPieces s b ((va + 16) % 2 ^ 64) k with | .val w s => .val (v + 2 ^ 128 * w) s | r => r)
    | r => r

/-- Some words of memory, each read as LDG.32 reads. -/
def State.hWords (s : State) (b : Block) (va : Nat) : Nat → LRes
  | 0 => .val 0 s
  | k + 1 =>
    match s.hLoad b va 4 with
    | .val v s => (match State.hWords s b (va + 4) k with | .val w s => .val (v + 2 ^ 32 * w) s | r => r)
    | r => r

/-- What preparing a block's global stores gives. -/
inductive GRes where
  | ok (b : Block) (s : State)
  | wait (s : State)
  | fault (cause : Nat)

/-- Words stored to memory in order, each as STG.32 stores. -/
def State.hPuts (s : State) (b : Block) : List (Nat × Nat) → GRes
  | [] => .ok b s
  | (va, v) :: r =>
    match s.reach (cellAgent s.cell) (s.cellVmid s.cell) va 4 4 .w plainType with
    | .fault c => .fault c
    | .wait s => .wait s
    | .ok t s =>
      State.hPuts s { b with gstores := b.gstores ++ [⟨va, t.flat, t.ty, t.home, 4, BitVec.ofNat 512 v, s.cellUnit s.cell, 0, false⟩] } r

/-! The ray's slab (R276, R277) -/

/-- The slab of a ray, where its home tile has one. -/
def State.slab (s : State) (r : Ray) : Option Nat :=
  let id := word32 r.win 32
  let home := bitsOf id 31 25
  let base := (s.getTile (cellDie s.cell * 100 + home)).rayslab.toNat
  if home > 99 || base = 0 then none else some (base + 256 * bitsOf id 24 0)

/-- What fitting a stack into its packet gives. -/
inductive FitRes where
  | ok (stack : List Nat) (b : Block) (s : State)
  | wait (s : State)
  | fault (cause va : Nat)

/-- The slab's count and entries as one block changes them. -/
def State.slabPut (s : State) (b : Block) (slab : Nat) (stack : List Nat) (ws : List (Nat × Nat)) : FitRes :=
  match s.hPuts b ws with
  | .ok b s => .ok stack b s
  | .wait s => .wait s
  | .fault c => .fault c slab

/-- A store of some bytes is on its way from a handler: in a store buffer, in a commit that has begun, or sent. -/
def State.storesOut (s : State) (ty : BitVec 3) (flat n : Nat) : Bool :=
  let meets (e : StoreEnt) : Bool := e.ty == ty && decide (e.flat < flat + n) && decide (flat < e.flat + e.n)
  s.cells.any (fun e => e.2.sbuf.any meets || (match e.2.block with | some b => b.committing && b.gstores.any meets | none => false)) ||
    s.msgs.any fun m => match m.kind with
      | .storeReq e _ => meets e
      | .access t _ f k w _ => w && t == ty && decide (f < flat + n) && decide (flat < f + k)
      | _ => false

/-- Some words of a slab as they are once every store of them has performed, so that a refill finds what a spill on any tile left (R276, R277,
R283): a cacheable read renews its line at the home (DEDUCED, log 48). -/
def State.slabWords (s : State) (b : Block) (va : Nat) (n : Nat) : LRes :=
  match s.reach (cellAgent s.cell) (s.cellVmid s.cell) va 4 4 .r plainType with
  | .fault c => .fault c
  | .wait s => .wait s
  | .ok t s => if s.storesOut t.ty t.flat (4 * n) then .wait s else State.hWords s { b with fenceAcq := true } va n

/-- Fits a stack into its capacity: the oldest entries move to the slab, or the newest come back from it (R277). While no stack of the unit's
rays has passed its capacity there is nothing to fetch and the slab is not read (DEDUCED, log 48). -/
def State.fit (s : State) (b : Block) (r : Ray) (cap : Nat) (stack : List Nat) : FitRes :=
  let spilled := match s.launch? (s.cellUnit s.cell) with | some l => l.spilled | none => false
  if stack.length ≤ cap && (!stack.isEmpty || !spilled) then .ok stack b s
  else match s.slab r with
  | none => if stack.isEmpty then .ok stack b s else .fault 0x09 0
  | some slab =>
    match s.slabWords b slab 1 with
    | .wait s => .wait s
    | .fault c => .fault c slab
    | .val c s =>
      let n := stack.length - cap
      if c > 63 || c + n > 63 then .fault 0x09 slab
      else if !stack.isEmpty then
        (s.modLaunch (s.cellUnit s.cell) fun l => { l with spilled := true }).slabPut b slab (stack.drop n) (((stack.take n).zipIdx).map (fun e => (slab + 4 * (c + 1 + e.2), e.1)) ++ [(slab, c + n)])
      else if c = 0 then .ok stack b s
      else
        let k := min 3 c
        match s.slabWords b (slab + 4 * (c - k + 1)) k with
        | .wait s => .wait s
        | .fault f => .fault f slab
        | .val v s => s.slabPut b slab ((List.range k).map fun i => word32 v (4 * i)) [(slab, c - k)]

/-- Ends BOXT8 or TRIT: the stack is fitted, the image is a local store of the block, and d is written (R263). -/
def State.traced (s : State) (k : Block) (d : BitVec 3) (r : Ray) (w b : Nat) (best : Option (Nat × Nat)) (stack : List Nat) (v : Nat) : Out :=
  match s.fit k r (if best.isSome then 4 else 6) stack with
  | .wait s => .next s
  | .fault c va => s.trapBlock c va
  | .ok stack k s =>
    s.put1 1 { k with lstores := putLocal k.lstores b 64 (imageOf w stack best) } d (i64 (BitVec.ofNat 64 v))

/-! BOXT8 (R263, R273, R274, R279) -/

/-- A node record breaks R273 among the bytes read. -/
def nodeBad (n : Nat) : Bool :=
  let cnt := byteOf n 15
  cnt == 0 || decide (cnt > 8) || bitsOf n 191 128 != 0 || bitsOf n 1023 896 != 0 ||
    (List.range cnt).any fun c => bitsOf (byteOf n (24 + c)) 6 4 != 0 || decide (word32 n (80 + 4 * c) ≥ 2 ^ 27)

/-- A bound of a child's box: origin + q·2^e rounded once (R274). -/
def boxBound (r : Rnd) (n axis q : Nat) : FVal :=
  let v : FVal := if q = 0 then .zero false else .fin false q (sextNat (byteOf n (12 + axis)) 8) false
  round32 r ((fp32At n (4 * axis)).add false v)

/-- The interval of a ray with a child's box after some axes; none where the child is not hit (R279). -/
def boxAxis (n c : Nat) (r : Ray) (i : Option (FVal × FVal)) (axis : Nat) : Option (FVal × FVal) :=
  match i with
  | none => none
  | some (en, ex) =>
    let ql := byteOf n (32 + 8 * axis + c)
    let qh := byteOf n (56 + 8 * axis + c)
    let lo := boxBound .rdn n axis ql
    let hi := boxBound .rup n axis qh
    let o := comp r.o axis
    let dir := comp r.dir axis
    if ql > qh then none
    else if dir.isZero then (if o.lt lo || hi.lt o then none else some (en, ex))
    else
      let near := if dir.isNeg then hi else lo
      let far := if dir.isNeg then lo else hi
      let x := round32 .rdn ((near.sub o).div dir)
      let y := round32 .rup ((far.sub o).div dir)
      some (if en.lt x then x else en, if y.lt ex then y else ex)

/-- The entry distance of a child that is hit. -/
def boxHit (n : Nat) (r : Ray) (c : Nat) : Option FVal :=
  let info := byteOf n (24 + c)
  if !r.ok || (bitOf info 7 && info % 16 == 0) then none
  else match [0, 1, 2].foldl (boxAxis n c r) (some (r.tmin, r.tmax)) with
  | some (en, ex) => if en.le ex then some en else none
  | none => none

/-- Puts a child among those nearer; on equal distances the lower child goes first. -/
def nearInsert (c : Nat) (t : FVal) : List (Nat × FVal) → List (Nat × FVal)
  | [] => [(c, t)]
  | x :: r => if t.lt x.2 then (c, t) :: x :: r else x :: nearInsert c t r

/-- The children that are hit, nearest first. -/
def boxOrder (n : Nat) (r : Ray) : List Nat :=
  ((List.range (byteOf n 15)).foldl (fun l c => match boxHit n r c with | some t => nearInsert c t l | none => l) []).map (·.1)

/-- The stack entry of a child (R261, R263). -/
def childEntry (n c : Nat) : Nat :=
  let info := byteOf n (24 + c)
  if bitOf info 7 then 2 ^ 31 + (info % 16 - 1) * 2 ^ 27 + word32 n (80 + 4 * c) else word32 n (80 + 4 * c)

/-- The result register of BOXT8. -/
def boxResult (order : List Nat) : Nat :=
  (order.map (2 ^ ·)).sum + order.length * 2 ^ 8 + packBits 4 ((List.range 8).map fun i => order.getD i 15) * 2 ^ 32

/-- BOXT8 in either form (R263, R278). -/
def State.boxt8 (s : State) (closest : Bool) (d : BitVec 3) (a b : Opnd) (g : BitVec 4) : Out :=
  s.two g a b fun k x y =>
    let r := rayOf s.rayWindow
    let va := (x.data.toNat + 128 * bitsOf r.top 26 0) % 2 ^ 64
    match r.check false closest x.data.toNat y.data.toNat 128 with
    | some c => s.trapBlock c va
    | none =>
      match s.hPieces k va 8 with
      | .fault c => s.trapBlock c va
      | .wait s => .next s
      | .val n s =>
        if nodeBad n then s.trapBlock 0x08 va
        else
          let order := boxOrder n r
          s.traced k d r r.win y.data.toNat (if closest then some (r.entry 4, r.entry 5) else none)
            (r.below ++ order.reverse.map (childEntry n)) (boxResult order)

/-- BOXT8.ANY (R263). -/
def execHBoxt8Any (d : BitVec 3) (a b : Opnd) (g : BitVec 4) (s : State) : Out := s.boxt8 false d a b g

/-- BOXT8.CLOSEST (R278). -/
def execHBoxt8Closest (d : BitVec 3) (a b : Opnd) (g : BitVec 4) (s : State) : Out := s.boxt8 true d a b g

/-! TRIT (R263, R275, R280, R281) -/

/-- A triangle record breaks R275. -/
def triBad (t : Nat) : Bool := word32 t 40 / 2 != 0 || word32 t 44 != 0

/-- The axis of largest |dir|; the earlier axis on a tie. -/
def mainAxis (dir : List FVal) : Nat :=
  let mag (i : Nat) : FVal := if (comp dir i).isNeg then (comp dir i).neg else comp dir i
  let k := if (mag 0).lt (mag 1) then 1 else 0
  if (mag k).lt (mag 2) then 2 else k

/-- A vertex projected along the ray (R280). -/
def project (r : Ray) (kx ky kz : Nat) (v : List FVal) : FVal × FVal × FVal :=
  let rn := round32 .rne
  let z := comp r.dir kz
  let sx := rn ((comp r.dir kx).div z)
  let sy := rn ((comp r.dir ky).div z)
  let sz := rn (fOne.div z)
  let p (i : Nat) : FVal := rn ((comp v i).sub (comp r.o i))
  (rn ((p kx).sub (sx.mul (p kz))), rn ((p ky).sub (sy.mul (p kz))), rn (sz.mul (p kz)))

/-- x·y − z·w, exactly. -/
def cross (x y z w : FVal) : FVal := (x.mul y).sub (z.mul w)
/-- Below zero. -/
def FVal.below0 (x : FVal) : Bool := x.lt (.zero false)
/-- Above zero. -/
def FVal.above0 (x : FVal) : Bool := (FVal.zero false).lt x

/-- The exact values of the watertight test: U, V, W, det and the numerator of t (R280). -/
structure Tri where
  u : FVal
  v : FVal
  w : FVal
  det : FVal
  num : FVal
  deriving DecidableEq, Repr

/-- The watertight test's exact values for a ray and a triangle record. -/
def triOf (r : Ray) (t : Nat) : Tri :=
  let kz := mainAxis r.dir
  let swap := (comp r.dir kz).below0
  let kx := if swap then (kz + 2) % 3 else (kz + 1) % 3
  let ky := if swap then (kz + 1) % 3 else (kz + 2) % 3
  let a := project r kx ky kz (vec3 t 0)
  let b := project r kx ky kz (vec3 t 12)
  let c := project r kx ky kz (vec3 t 24)
  let u := cross c.1 b.2.1 c.2.1 b.1
  let v := cross a.1 c.2.1 a.2.1 c.1
  let w := cross b.1 a.2.1 b.2.1 a.1
  ⟨u, v, w, exactSum false [u, v, w], exactSum false [u.mul a.2.2, v.mul b.2.2, w.mul c.2.2]⟩

/-- The distance at which a ray hits a triangle, as an FP32 value; none where it misses (R280, R282). -/
def triHit (r : Ray) (t : Nat) : Option FVal :=
  let x := triOf r t
  let d := round32 .rne (x.num.div x.det)
  if !r.ok || bitOf (word32 t 40) 0 then none
  else if (x.u.below0 || x.v.below0 || x.w.below0) && (x.u.above0 || x.v.above0 || x.w.above0) then none
  else if x.det.isZero then none
  else if r.tmin.le d && d.le r.tmax then some d else none

/-- The result register of a test: the distance, or infinity, above the bit. -/
def hitResult (t : Option FVal) : Nat := match t with | some t => code32 t * 2 ^ 32 + 1 | none => 0x7F800000 * 2 ^ 32

/-- The stack of TRIT: the rest of the leaf goes back (R263). -/
def Ray.rest (r : Ray) : List Nat :=
  let e := r.top
  r.below ++ (if bitsOf e 30 27 = 0 then [] else [2 ^ 31 + (bitsOf e 30 27 - 1) * 2 ^ 27 + bitsOf e 26 0 + 1])

/-- The acceptance of TRIT.CLOSEST (R281): a nearer hit, or an equal one of a lower primitive id. -/
def Ray.accepts (r : Ray) (t : Nat) (h : Option FVal) : Option FVal :=
  match h with
  | some d => if r.entry 5 == 0 || d.lt r.tmax || (d.eqv r.tmax && decide (word32 t 36 < r.entry 4)) then some d else none
  | none => none

/-- TRIT.ANY and TRIT.CLOSEST (R263, R281). -/
def State.trit (s : State) (closest : Bool) (d : BitVec 3) (a b : Opnd) (g : BitVec 4) : Out :=
  s.two g a b fun k x y =>
    let r := rayOf s.rayWindow
    let va := (x.data.toNat + 48 * bitsOf r.top 26 0) % 2 ^ 64
    match r.check true closest x.data.toNat y.data.toNat 16 with
    | some c => s.trapBlock c va
    | none =>
      match s.hPieces k va 3 with
      | .fault c => s.trapBlock c va
      | .wait s => .next s
      | .val t s =>
        if triBad t then s.trapBlock 0x08 va
        else if !closest then s.traced k d r r.win y.data.toNat none r.rest (hitResult (triHit r t))
        else
          let h := r.accepts t (triHit r t)
          let w := match h with | some v => r.win % 2 ^ 224 + code32 v * 2 ^ 224 + r.win / 2 ^ 256 * 2 ^ 256 | none => r.win
          let best := if h.isSome then (word32 t 36, bitsOf r.top 26 0 + 1) else (r.entry 4, r.entry 5)
          s.traced k d r w y.data.toNat (some best) r.rest (hitResult h)

/-- TRIT.ANY (R263). -/
def execHTritAny (d : BitVec 3) (a b : Opnd) (g : BitVec 4) (s : State) : Out := s.trit false d a b g

/-- TRIT.CLOSEST (R281). -/
def execHTritClosest (d : BitVec 3) (a b : Opnd) (g : BitVec 4) (s : State) : Out := s.trit true d a b g

/-- The barycentrics of a triangle; none where the exact values give no quotient (R281). -/
def bary (r : Ray) (t : Nat) : Option Nat :=
  let x := triOf r t
  if x.v.finite && x.w.finite && x.det.finite && !x.det.isZero then some (code32 (x.v.div x.det) + code32 (x.w.div x.det) * 2 ^ 32) else none

/-- TRIT.BARY (R281): it pops nothing; without a best hit d is 0. Of a det of 0 or of values that are not finite the spec states no
quotient (log 5). -/
def execHTritBary (d : BitVec 3) (a b : Opnd) (g : BitVec 4) (s : State) : Out :=
  s.two g a b fun k x y =>
    let r := rayOf s.rayWindow
    let p := y.data.toNat
    let va := (x.data.toNat + 48 * (r.entry 5 - 1)) % 2 ^ 64
    let done (s : State) (v : Word) : Out := s.put1 1 { k with lstores := putLocal k.lstores p 64 r.win } d (i64 v)
    if r.sp > 4 then s.trapBlock 0x04 0
    else if x.data.toNat % 16 ≠ 0 || p % 64 ≠ 0 then s.trapBlock 0x22 p
    else if p < 0x4000 || p > 0x17F80 then s.trapBlock 0x26 p
    else if r.entry 5 = 0 then done s 0
    else match s.hPieces k va 3 with
    | .fault c => s.trapBlock c va
    | .wait s => .next s
    | .val t s =>
      if triBad t then s.trapBlock 0x08 va
      else match bary r t with
      | some v => done s (BitVec.ofNat 64 v)
      | none => done s.fresh.2 s.fresh.1

/-! DICER (R287) -/

/-- ceil(x / y) of two positive finite values, at most 64. -/
def ceilDiv64 (x y : FVal) : Nat :=
  match x, y with
  | .fin _ m e _, .fin _ n d _ =>
    let up := e - d
    let num := if up < 0 then m else m * 2 ^ (min up 600).toNat
    let den := if up < 0 then n * 2 ^ (min (-up) 600).toNat else n
    min 64 ((num + den - 1) / den)
  | _, _ => 0

/-- The rate of an edge of a patch. -/
def edgeRate (rec : Nat) (sr : FVal) (i j : Nat) : Nat :=
  let rn := round32 .rne
  let dx := rn ((fp32At rec (8 * j)).sub (fp32At rec (8 * i)))
  let dy := rn ((fp32At rec (8 * j + 4)).sub (fp32At rec (8 * i + 4)))
  let l := rn (rn ((dx.mul dx).add false (dy.mul dy))).sqrt
  if !l.finite then 64 else max 1 (ceilDiv64 l sr)

/-- The result register of DICER. -/
def dicerOf (rec : Nat) (sr : FVal) : Nat :=
  let r0 := edgeRate rec sr 0 1
  let r1 := edgeRate rec sr 1 2
  let r2 := edgeRate rec sr 3 2
  let r3 := edgeRate rec sr 0 3
  let mu := max r0 r2
  let mv := max r1 r3
  let split := decide (mu > 16) || decide (mv > 16)
  r0 + r1 * 2 ^ 8 + r2 * 2 ^ 16 + r3 * 2 ^ 24 +
    (if split then 2 ^ 32 + (if mu ≥ mv then 1 else 2) * 2 ^ 33 else mu * 2 ^ 40 + mv * 2 ^ 48)

/-- DICER (R287). -/
def execHDicer (d : BitVec 3) (a b : Opnd) (g : BitVec 4) (s : State) : Out :=
  s.two g a b fun k x y =>
    let p := x.data.toNat
    let sr := fp32.decode (y.data.toNat % 2 ^ 32)
    match recFault p 16 32 with
    | some c => s.trapBlock c p
    | none =>
      if y.data.toNat ≥ 2 ^ 32 || !sr.finite || !sr.above0 then s.trapBlock 0x04 0
      else s.put1 1 k d (i64 (BitVec.ofNat 64 (dicerOf (s.localRead k p 32) sr)))

/-! SAMPT (R288) -/

/-- The mixing function. -/
def mix (v : BitVec 32) : BitVec 32 :=
  let v := (v ^^^ v >>> 16) * 0x7FEB352D
  let v := (v ^^^ v >>> 15) * 0x846CA68B
  v ^^^ v >>> 16

/-- The numerator, over B^D, of a scrambled radical inverse: D digits from digit i on. -/
def radical (s : BitVec 32) (base : Nat) : Nat → Nat → Nat → Nat
  | 0, _, _ => 0
  | n + 1, i, m =>
    (m % base + (mix (s + BitVec.ofNat 32 i)).toNat % base) % base * base ^ n + radical s base n (i + 1) (m / base)

/-- Value j of a sample as FP32. -/
def sampleVal (a seed : Nat) (j base digits : Nat) : Nat :=
  let h := mix (BitVec.ofNat 32 (bitsOf a 15 0) ^^^ mix (BitVec.ofNat 32 (bitsOf a 31 16) ^^^ mix (BitVec.ofNat 32 seed)))
  let s := mix (h ^^^ BitVec.ofNat 32 (j * 0x632BE5AB))
  let n := radical s base digits 0 (bitsOf a 37 32)
  (roundFp fp32 .rdn false 0 ((ofInt n).div (ofInt (base ^ digits : Nat)))).code

/-- SAMPT in either form. -/
def State.sampt (s : State) (d : BitVec 3) (a b : Opnd) (g : BitVec 4) (val : Nat → Nat → Nat) : Out :=
  s.two g a b fun k x y =>
    if x.data.toNat ≥ 2 ^ 38 || y.data.toNat ≥ 2 ^ 32 then s.trapBlock 0x04 0
    else s.put1 1 k d ⟨BitVec.ofNat 64 (val x.data.toNat y.data.toNat), 2⟩

/-- SAMPT.TU (R288). -/
def execHSamptTu (d : BitVec 3) (a b : Opnd) (g : BitVec 4) (s : State) : Out :=
  s.sampt d a b g fun x y => sampleVal x y 1 3 15 * 2 ^ 32 + sampleVal x y 0 2 24

/-- SAMPT.V (R288). -/
def execHSamptV (d : BitVec 3) (a b : Opnd) (g : BitVec 4) (s : State) : Out := s.sampt d a b g fun x y => sampleVal x y 2 5 10

/-! MPTEST (R289) -/

/-- A vertex at a time: P0 + t·(P1 − P0). -/
def moved (rec : Nat) (t : FVal) (i : Nat) : List FVal :=
  (List.range 3).map fun j =>
    let p := fp32At rec (12 * i + 4 * j)
    round32 .rne (p.add false (t.mul (round32 .rne ((fp32At rec (48 + 12 * i + 4 * j)).sub p))))

/-- The exact edge function of the edge p → q at a sample, with the edge's dx and dy. -/
def edgeFn (p q : List FVal) (sx sy : FVal) : FVal × FVal × FVal :=
  let dx := (comp q 0).sub (comp p 0)
  let dy := (comp q 1).sub (comp p 1)
  (cross dx (sy.sub (comp p 1)) dy (sx.sub (comp p 0)), dx, dy)

/-- What one triangle of a micropolygon makes of a sample: NaN, or a hit's depth, or none. Edge i is the one opposite vertex i, whose
depth e_i weighs, the area is rounded once, and a hit's depth is one quotient rounded once (DEDUCED, log 49). -/
def mpTri (a b c : List FVal) (sx sy : FVal) : Option FVal :=
  let es := [edgeFn b c sx sy, edgeFn c a sx sy, edgeFn a b sx sy]
  let rs := es.map fun e => round32 .rne e.1
  let area := round32 .rne (exactSum false rs)
  if area.isNan || es.any (fun e => e.1.isNan) then some .nan
  else if area.isZero then none
  else
    let neg := area.isNeg
    let topLeft (e : FVal × FVal × FVal) : Bool :=
      let dx := if neg then e.2.1.neg else e.2.1
      let dy := if neg then e.2.2.neg else e.2.2
      dy.below0 || (dy.isZero && dx.above0)
    if es.all (fun e => if e.1.isZero then topLeft e else e.1.isNeg == neg) then
      some (round32 .rne ((exactSum false (List.zipWith FVal.mul rs [comp a 2, comp b 2, comp c 2])).div area))
    else none

/-- The result register of MPTEST. -/
def mpTest (rec smp : Nat) : Nat :=
  let t := fp32At smp 8
  let v := (List.range 4).map (moved rec t)
  let p (i : Nat) : List FVal := v.getD i []
  let miss := hitResult none
  if v.any (fun q => q.any FVal.isNan) || (fp32At smp 0).isNan || (fp32At smp 4).isNan || t.isNan then miss
  else
    let x := mpTri (p 0) (p 1) (p 2) (fp32At smp 0) (fp32At smp 4)
    let y := match x with | some _ => x | none => mpTri (p 0) (p 2) (p 3) (fp32At smp 0) (fp32At smp 4)
    match y with
    | some z => if z.isNan then miss else hitResult (some z)
    | none => miss

/-- MPTEST (R289). -/
def execHMptest (d : BitVec 3) (a b : Opnd) (g : BitVec 4) (s : State) : Out :=
  s.two g a b fun k x y =>
    match recFault x.data.toNat 16 96 with
    | some c => s.trapBlock c x.data.toNat
    | none =>
      match recFault y.data.toNat 16 16 with
      | some c => s.trapBlock c y.data.toNat
      | none => s.put1 1 k d (i64 (BitVec.ofNat 64 (mpTest (s.localRead k x.data.toNat 96) (s.localRead k y.data.toNat 16))))

/-! SEQW (R292) -/

/-- SEQW: passes on the expected tag, defers on a later one, traps on an earlier one. -/
def execHSeqw (d : BitVec 3) (a b : Opnd) (g : BitVec 4) (s : State) : Out :=
  s.two g a b fun k x y =>
    let p := x.data.toNat
    match recFault p 4 4 with
    | some c => s.trapBlock c p
    | none =>
      let ahead := (y.data.toNat % 2 ^ 32 + 2 ^ 32 - s.localRead k p 4) % 2 ^ 32
      if ahead = 0 then s.put1 1 k d (i64 1)
      else if ahead < 2 ^ 31 then .next ((s.abandon s.cell).touchCell s.cell)
      else s.trapBlock 0x0A 0

end Sys2Proof.Machine
end

