-- ==== Sys2Proof/Machine/Planes.lean ====
section
/-! DEFINITION. Planes and loads (R51, R298-R307, R312, R318): where a configuration's cells are placed, loading a plane, code, frames,
whether a region is empty (R65), spill entries and their bytes, and freezing and thawing. -/

namespace Sys2Proof.Machine

/-! Placement of a folio's cells (R328, R344) -/

/-- The die a folio was built for. -/
def Folio.die (f : Folio) : Nat := match f.region with | t :: _ => t.die | [] => 0
/-- How far a placed region lies from the folio's positions, in cells: the move of its tiles and the move of cells within them. -/
def Launch.shift (l : Launch) (f : Folio) : Int × Int :=
  match f.region, l.region with
  | t :: _, r :: _ => (8 * ((tileLocal r / 10 : Nat) - (t.trow : Int)) + l.move.1, 8 * ((tileLocal r % 10 : Nat) - (t.tcol : Int)) + l.move.2)
  | _, _ => l.move
/-- A cell moved and renamed to a die. -/
def shiftCell (c die : Nat) (m : Int × Int) : Nat := cellNo die ((cellRow c : Int) + m.1).toNat ((cellCol c : Int) + m.2).toNat
/-- The cell on which a folio's cell is placed. -/
def Launch.placed (l : Launch) (f : Folio) (c : Nat) : Nat := shiftCell c l.die (l.shift f)
/-- A destination entry as it is placed: one that names the folio's die names the placed die, and moves with the region. -/
def Launch.moveDest (l : Launch) (f : Folio) (w : BitVec 64) : BitVec 64 :=
  let d := destF w.toNat
  if d.valid && d.cell.toNat / 2 ^ 14 == f.die then setBits w 17 0 (destCode (l.placed f (destCell d.cell))).toNat else w

/-- A configuration of the unit's folio. -/
def State.config? (s : State) (l : Launch) (idx : Nat) : Option ConfigImg := (s.folio l).configs[idx]?

/-! Loading -/

/-- The cells a configuration gives a word, as they were built. -/
def ConfigImg.cells (c : ConfigImg) : List Nat := (c.cellList.map (·.1) ++ c.routeList.map (·.1) ++ c.evList.map (·.1)).eraseDups

/-- What a plane of a cell holds after a load: its words, its LFSRs seeded (R91, R41), everything else at rest (R193). -/
def loadedPlane (l : Launch) (f : Folio) (cfg : ConfigImg) (c : Nat) : CellPlane :=
  let x := (cfg.cell? c).getD default
  let p := l.placed f c
  let seed (n : Nat) : BitVec 32 := stageSeed (cellDie p) (cellRow p) (cellCol p) n
  let conv := slotF (smGet 0 x.slots 63).toNat
  { CellPlane.reset with
    route := BitVec.ofNat 32 (cfg.route c), evroute := BitVec.ofNat 32 (smGet 0 cfg.evList c), stages := x.stages, mode := x.mode,
    slots := x.slots, dests := x.dests.map fun e => (e.1, l.moveDest f e.2),
    lfsr := (x.stages.filter fun e => e.2 != 0).map (fun e => (e.1, seed e.1)) ++
      (if conv.kind = 5 then [(63, BitVec.ofNat 32 conv.seed)] else []) }

/-- The cells of a unit's region. -/
def Launch.cells (l : Launch) : List Nat := l.region.flatMap fun t => (List.range 64).map (cellOf t)
/-- A cell lies in a unit's region. -/
def Launch.holds (l : Launch) (c : Nat) : Bool := l.region.contains (cellTile c)

/-- Empties a plane of a region. -/
def State.clearPlane (s : State) (l : Launch) (plane : Nat) : State :=
  l.cells.foldl (fun s c => match smFind s.cells c with
    | some x => s.setCell c { x with planes := smDel x.planes plane }
    | none => s) s

/-- Writes a plane of a cell. -/
def State.setPlane (s : State) (c plane : Nat) (x : CellPlane) : State := s.modCell c fun y => { y with planes := smPut y.planes plane x }

/-- Writes a configuration into a plane of a region. -/
def State.writePlane (s : State) (l : Launch) (cfg : ConfigImg) (plane : Nat) : State :=
  let f := s.folio l
  cfg.cells.foldl (fun s c => s.setPlane (l.placed f c) plane (loadedPlane l f cfg c)) (s.clearPlane l plane)

/-- Writes a T-cell's code into its code store (R117). -/
def State.writeCode (s : State) (c : Nat) (code : List (BitVec 32)) (folio idx : Nat) : State :=
  let m := (code.zipIdx).foldl (fun m w => memWrite m (cellBase c + 4 * w.2) 4 w.1.toNat) s.mem
  { s with mem := m }.modCell c fun x => { x with codeFolio := folio, codeCfg := some idx, codeLen := code.length }

/-- Code stores that hold another configuration's code are rewritten before a plane becomes active (R306). -/
def State.writeCodes (s : State) (l : Launch) (cfg : ConfigImg) (idx : Nat) : State :=
  let f := s.folio l
  cfg.cellList.foldl (fun s e =>
    let c := l.placed f e.1
    let x := s.getCell c
    if !isTCell c || e.2.code.isEmpty || (x.codeFolio == l.folio && x.codeCfg == some idx) then s
    else s.writeCode c e.2.code l.folio idx) s

/-- CFG.LOAD leaves local memory of its cells zero where R117 and R90 say so. -/
def State.zeroLocal (s : State) (l : Launch) (cfg : ConfigImg) : State :=
  let f := s.folio l
  let m := cfg.cellList.foldl (fun m e =>
    let c := l.placed f e.1
    if isTCell c then (if e.2.code.isEmpty then m else memClear m (cellBase c + 0x4000) 0x14000)
    else if isVCell c then memClear m (cellBase c + 0x1000) 0x4000 else m) s.mem
  { s with mem := m }

/-- The largest granule count a folio declares for a row of a tile (R109). -/
def Folio.granules (f : Folio) (tile row : Nat) : Nat :=
  ((f.configs.flatMap (·.cellList)).filterMap fun e =>
    if isVCell e.1 && cellTile e.1 == tile && cellRow e.1 % 8 == row then some e.2.granules else none).foldl max 0

/-- CARVE with each row field raised to what the folio declares. -/
def raisedCarve (f : Folio) (tile : Nat) (v : Word) : Word :=
  (List.range 8).foldl (fun v r => setBits v (3 * r + 2) (3 * r) (max (bitsOf v.toNat (3 * r + 2) (3 * r)) (f.granules tile r))) v

/-- CFG.LOAD raises CARVE of the region's tiles and lowers none (R109). -/
def State.raiseCarves (s : State) (l : Launch) : State :=
  let f := s.folio l
  f.region.foldl (fun s t =>
    let tile := l.region.getD t.index (cellTile (l.placed f (t.cell 0)))
    let v := raisedCarve f t.tile (s.getTile tile).spr.carve
    if v = (s.getTile tile).spr.carve then s else s.setCarve tile v) s

/-! Levels and planes of a unit -/

/-- A plane that holds nothing. -/
def PlaneInfo.empty : PlaneInfo := ⟨.free, none, 0, false, 0, false, 0⟩
/-- The state of a plane of a region. -/
def Launch.plane (l : Launch) (p : Nat) : PlaneInfo := smGet PlaneInfo.empty l.planes p
/-- Writes the state of a plane. -/
def Launch.setPlane (l : Launch) (p : Nat) (x : PlaneInfo) : Launch := { l with planes := smPut l.planes p x }
/-- The active plane, none before the first load. -/
def Launch.active? (l : Launch) : Option Nat := (l.planes.find? fun e => e.2.st == .active).map (·.1)
/-- The configuration of the active plane. -/
def Launch.activeCfg (l : Launch) : Option Nat := match l.active? with | some p => (l.plane p).cfg | none => none
/-- A plane that a load or a call may take: no level owns it, and no refill runs into it (R301, R318). -/
def Launch.takable (l : Launch) (p : Nat) : Bool :=
  let x := l.plane p
  !x.busy && (x.st == .free || x.st == .loading || x.st == .preloaded)
/-- The lowest-numbered plane that may be taken. -/
def Launch.freePlane (l : Launch) : Option Nat := [0, 1, 2].find? l.takable
/-- Every user plane that is not active is parked (R317). -/
def Launch.allParked (l : Launch) : Bool := [0, 1, 2].all fun p => (l.plane p).st == .active || (l.plane p).st == .parked

/-- A V-cell as a run starts: STORE's n begins again (R98), and so does the row of an MMA, MMAI or MMAQ (R17). -/
def CellPlane.runStarts (p : CellPlane) : CellPlane :=
  { p with storeN := 0, accs := smDel (smDel (smDel (smDel p.accs 300) 301) 304) 305,
           netx := if (stageF (smGet 0 p.stages 2).toNat).op == 0xE2 then [] else p.netx }

/-- A run starts: CFG.RUN, a call or a return token starts it (R65, R299, R300). -/
def State.startRun (s : State) (u : Nat) : State :=
  let n := s.nextStamp
  let s := n.2.modLaunch u fun l => { l with run := true, runId := n.1, drained := false }
  match s.launch? u with
  | some l => l.cells.foldl (fun s c =>
      if isVCell c && (smFind (s.getCell c).planes l.activePlane).isSome then s.modCp c CellPlane.runStarts else s) s
  | none => s

/-- FRAME of a cell in a configuration: 0 where it gives the cell no code (R307). -/
def ConfigImg.frame (cfg : ConfigImg) (c : Nat) : Nat := match cfg.cell? c with | some x => if x.code.isEmpty then 0 else x.frame | none => 0

/-- The frame bases one level deeper (R307). -/
def State.deeper (s : State) (l : Launch) : SMap Nat :=
  let f := s.folio l
  match l.activeCfg with
  | none => l.frames
  | some i => match f.configs[i]? with
    | none => l.frames
    | some cfg => cfg.cellList.foldl (fun m e =>
        let c := l.placed f e.1
        if isTCell c && cfg.frame e.1 != 0 then smPut m c (smGet 0x4000 m c + cfg.frame e.1) else m) l.frames

/-- Some T-cell of the region would pass 0x1_7FC0 at the callee, whether the callee gives it code or not (R307). -/
def State.frameOver (s : State) (l : Launch) (cfg : ConfigImg) : Bool :=
  let f := s.folio l
  let fr := s.deeper l
  fr.any (fun e => decide (e.2 > 0x17FC0)) ||
    cfg.cellList.any fun e => isTCell (l.placed f e.1) && decide (smGet 0x4000 fr (l.placed f e.1) + cfg.frame e.1 > 0x17FC0)

/-! An empty region (R65) -/

/-- A plane of a cell holds no flit or token: sticky Ls (R122), a LINEBUF's lines and delay lines are state (DEDUCED, log 50). -/
def CellPlane.quiet (p : CellPlane) : Bool :=
  p.links.all (·.2.isEmpty) && p.conv.all (·.2.isEmpty) && p.outq.all (·.2.isEmpty) && p.pend.all (·.2.isEmpty) && p.side.isEmpty &&
    p.row.held.isNone && p.bank.isNone &&
    (bmMode p.mode.toNat != 2 || p.fifoTags.isEmpty) && p.store.all (·.sticky) && p.chans.all (·.2.isEmpty) &&
    p.s2t.flit.isNone && p.t2s.toks.isEmpty && !p.t2s.closed && p.hops.isEmpty

/-- A token in flight is in a unit's region or bound for it. -/
def Launch.hasTok (l : Launch) (t : NetTok) : Bool := l.holds (destCell t.tok.dest) || (t.arrived && l.holds t.pos)

/-- No token is in flight in a region. -/
def State.netQuiet (s : State) (l : Launch) : Bool := s.net.all fun t => !l.hasTok t

/-- No flit or token remains in a region. -/
def State.regionQuiet (s : State) (l : Launch) : Bool :=
  s.netQuiet l && l.cells.all fun c => match smFind s.cells c with
    | some x => x.block.isNone && (smGet CellPlane.reset x.planes l.activePlane).quiet
    | none => true

/-! The loader's reads (R204) -/

/-- What the folio loader reads lies on a page with X; a service folio stands at a physical address, which needs none (R336). -/
def State.loaderReach (s : State) (l : Launch) : TRes :=
  if l.service then .ok ⟨0, 0, 0, 0, false, false⟩ s else s.reach s.me l.vmid (s.folio l).va 1 1 .x anyType

/-! Spill entries (R312) -/

/-- The contents of a plane of a region. -/
def State.planeImage (s : State) (l : Launch) (plane : Nat) : SMap CellPlane :=
  l.cells.filterMap fun c => (smFind (s.getCell c).planes plane).map fun p => (c, p)

/-- The two words of a token (R128). -/
def Token.words (t : Token) : List Word :=
  [t.data, BitVec.ofNat 64 (t.ctlBits + t.pdata.toNat * 2 ^ 62 + t.pctl.toNat * 2 ^ 63)]

/-- The eight data words of a flit. -/
def flitWords (d : BitVec 512) : List Word := (List.range 8).map fun i => d.extractLsb' (64 * i) 64

/-- An extension record: its cell, its kind, how many items it has, and the words of its items, none where the spec gives a word no layout.
`open_` marks a kind whose items have no stated size. -/
structure ExtRec where
  cell : Nat
  kind : Nat
  count : Nat
  items : List (Option Word)
  open_ : Bool
  deriving DecidableEq, Repr

/-- The flits a cell's seam converters hold. -/
def CellPlane.seamFlits (p : CellPlane) : List (BitVec 512) :=
  (match p.s2t.flit with | some f => [f.data] | none => []) ++
    if p.t2s.toks.isEmpty && !p.t2s.closed then [] else [BitVec.ofNat 512 (packBits 64 (p.t2s.toks.map (·.toNat)))]

/-- The words of some items that are tokens, or flits with an item's other 16 bytes, which have no stated layout. -/
def tokItems (ts : List Token) : List (Option Word) := (ts.flatMap Token.words).map some
/-- The words of items that are flits. -/
def flitItems (fs : List (BitVec 512)) : List (Option Word) := fs.flatMap fun f => (flitWords f).map some ++ [none, none]

/-- The extension records of a cell's plane whose content is there, by kind; `dests` are the entries that the folio gives the cell. -/
def CellPlane.exts (p : CellPlane) (c : Nat) (dests : SMap (BitVec 64)) : List ExtRec :=
  let toks := p.store.flatMap fun e => e.tok :: e.more
  let chans := p.chans.flatMap (·.2)
  let hops := p.hops.flatMap fun t => t.tok :: t.more
  let flits := (p.links.flatMap (·.2) ++ p.outq.flatMap (·.2)).map (·.data)
  let netx := (stageF (smGet 0 p.stages 2).toNat).op == 0xE4
  let pipe := p.conv.flatMap (·.2) ++ p.side ++ p.row.held.toList ++ p.qcodes.map (·.flit) ++ (p.pend.flatMap (·.2)).map (·.1) ++ if netx then [] else p.netx
  let seam := p.seamFlits
  [⟨c, 0, toks.length, tokItems toks, false⟩, ⟨c, 1, chans.length, chans.flatMap fun e => [some e.data, none], false⟩,
   ⟨c, 2, hops.length, tokItems hops, false⟩, ⟨c, 3, flits.length, flitItems flits, false⟩,
   ⟨c, 4, pipe.length + p.qvals.length + p.row.outs.length, [], true⟩, ⟨c, 5, p.lregs.length, [], true⟩, ⟨c, 6, p.accs.length, [], true⟩,
   ⟨c, 7, if p.bank.isSome || (netx && !p.netx.isEmpty) then 1 else 0, [], true⟩,
   ⟨c, 8, (p.dests.filter fun e => smGet 0 dests e.1 != e.2).length, [], true⟩, ⟨c, 9, seam.length, flitItems seam, false⟩,
   ⟨c, 10, (p.delays.filter fun e => !e.2.isEmpty).length, [], true⟩].filter fun r => r.count != 0

/-- The words of a record, padded to a multiple of 64 bytes; an open kind takes the units that `Config.extUnits` gives (log 13). -/
def ExtRec.words (r : ExtRec) (stamp : Nat) : List (Option Word) :=
  let n := if r.open_ then 8 * max 1 (Config.extUnits (stamp * 2 ^ 22 + r.cell * 16 + r.kind)) else (r.items.length + 9) / 8 * 8
  let own := [some (BitVec.ofNat 64 ((destCode r.cell).toNat + r.kind * 2 ^ 18 + r.count * 2 ^ 32)), some 0] ++ r.items
  own ++ List.replicate (n - own.length) (if r.open_ then none else some 0)

/-- The extension records of a region tile, by cell and kind (DESIGN CHOICE, log 13). -/
def tileExts (im : SMap CellPlane) (dests : Nat → SMap (BitVec 64)) (stamp tile : Nat) : List (Option Word) :=
  (im.filter fun e => cellTile e.1 == tile).flatMap fun e => (e.2.exts e.1 (dests e.1)).flatMap fun r => r.words stamp

/-- The 1,024 words of a tile's base: a record of zero for a cell with no plane, and the extension records' length in record 0. -/
def tileBase (im : SMap CellPlane) (tile units : Nat) : List (Option Word) :=
  (List.range 64).flatMap fun i =>
    List.replicate 15 (if (smFind im (cellOf tile i)).isSome then none else some 0) ++ [some (if i = 0 then BitVec.ofNat 64 units else 0)]

/-- A region tile's image: its base, then its extension records. Words without a stated layout are `Config.imageWord` (log 13). -/
def tileImage (im : SMap CellPlane) (dests : Nat → SMap (BitVec 64)) (stamp tile : Nat) : List Word :=
  let x := tileExts im dests stamp tile
  (tileBase im tile (x.length / 8) ++ x).zipIdx.map fun e => e.1.getD (Config.imageWord stamp (tile * 2 ^ 32 + e.2))

/-- The destination entries that a configuration gives a placed cell. -/
def State.folioDests (s : State) (l : Launch) (cfg c : Nat) : SMap (BitVec 64) :=
  let f := s.folio l
  match f.configs[cfg]? with
  | some x => (match x.cells.find? fun b => l.placed f b == c with | some b => (loadedPlane l f x b).dests | none => [])
  | none => []

/-- CRC-32 as IEEE 802.3 computes it, one byte on (PRESUMED: the spec names no polynomial; log 13). -/
def crcByte (c : BitVec 32) (b : Nat) : BitVec 32 :=
  (List.range 8).foldl (fun c _ => if c &&& 1 = 1 then c >>> 1 ^^^ 0xEDB88320 else c >>> 1) (c ^^^ BitVec.ofNat 32 (b % 256))
/-- The CRC-32 of the bytes of some words. -/
def crc32 (ws : List Word) : BitVec 32 :=
  ~~~(ws.foldl (fun c w => (List.range 8).foldl (fun c i => crcByte c (w.toNat / 2 ^ (8 * i))) c) 0xFFFFFFFF)

/-- The images of a unit's region tiles in an entry. -/
def State.tileImages (s : State) (l : Launch) (e : SpillEnt) : List (List Word) :=
  l.region.map (tileImage e.image (s.folioDests l e.cfg) e.stamp)

/-- The bytes of an entry: its header of 128, then 8 KiB and the extension records of each region tile. -/
def State.entryLen (s : State) (l : Launch) (e : SpillEnt) : Nat :=
  128 + (l.region.map fun t => 8192 + 8 * (tileExts e.image (s.folioDests l e.cfg) e.stamp t).length).sum

/-- The words of a spill entry (R312). -/
def State.entryWords (s : State) (l : Launch) (e : SpillEnt) : List Word :=
  let ims := s.tileImages l e
  let crc (i : Nat) : Nat := match ims[i]? with | some ws => (crc32 ws).toNat | none => 0
  [BitVec.ofNat 64 (e.depth + e.plane * 2 ^ 8 + (l.region.length - 1) * 2 ^ 10 + e.len / 64 * 2 ^ 32), BitVec.ofNat 64 (e.cfg % 256)] ++
    List.replicate 6 0 ++ (List.range 8).map (fun i => BitVec.ofNat 64 (crc (2 * i) + crc (2 * i + 1) * 2 ^ 32)) ++ ims.flatten

/-- A page of a memory area, as the staging controller and the Maltster reach it: the target of its first byte, or the cause. -/
def State.areaPage (s : State) (die : Nat) (vmid : BitVec 16) (va : Nat) (need : Need) : Except Nat Target :=
  if va ≥ 2 ^ 56 then .error 0x29
  else match walkPage s.mem (s.jobdir die) vmid (va / 2 ^ 16) with
  | .fail c level => .error (walkCause c level)
  | .leaf pte size => if permOk need pte then .ok (leafTarget pte size va) else .error 0x21

/-- The first fault over the 64 KiB pages of an area. -/
def State.areaFault (s : State) (die : Nat) (vmid : BitVec 16) (va n : Nat) (need : Need) : Option Nat :=
  (List.range ((va + n - 1) / 2 ^ 16 - va / 2 ^ 16 + 1)).findSome? fun i =>
    match s.areaPage die vmid ((va / 2 ^ 16 + i) * 2 ^ 16) need with | .ok _ => none | .error c => some c

/-- Writes words to an area of memory, page by page. -/
def State.areaWrite (s : State) (die : Nat) (vmid : BitVec 16) (va : Nat) (ws : List Word) : State :=
  (ws.zipIdx).foldl (fun s w => match s.areaPage die vmid (va + 8 * w.2) .w with
    | .ok t => { s with mem := memWrite s.mem t.flat 8 w.1.toNat }
    | .error _ => s) s

/-- The words that an area of memory holds. -/
def State.areaRead (s : State) (die : Nat) (vmid : BitVec 16) (va n : Nat) : List Word :=
  (List.range n).map fun i => match s.areaPage die vmid (va + 8 * i) .r with
    | .ok t => BitVec.ofNat 64 (memRead s.mem t.flat 8)
    | .error _ => 0

/-- The first byte beyond a unit's spill stack, as the next entry begins (R312). -/
def Launch.stackTop (l : Launch) : Nat := match l.stack.getLast? with | some e => (e.off + e.len + 63) / 64 * 64 | none => 0

/-- The bytes of a die's staging that entries hold. -/
def State.stagedBytes (s : State) (die : Nat) : Nat :=
  ((s.getDie die).staging.map fun g => match s.launch? g.owner with
    | some l => (match l.stack.find? (fun e => l.spillArea + e.off == g.addr) with | some e => e.len | none => 0)
    | none => 0).sum

/-- The capacity of a die's staging. -/
def stagingSize : Nat := 786432

/-- Pushes a plane of a region on its spill stack and into staging: the state, or none while staging has no room, or the cause of an
access fault. -/
def State.pushPlane (s : State) (u : Nat) (l : Launch) (plane depth cfg : Nat) : Except Nat (Option State) :=
  let n := s.nextStamp
  let e : SpillEnt := ⟨l.stackTop, 0, depth, plane, cfg, s.planeImage l plane, n.1⟩
  let len := s.entryLen l e
  let e := { e with len := len }
  match s.areaFault l.die l.vmid (l.spillArea + e.off) len .w with
  | some c => .error c
  | none =>
    if s.stagedBytes l.die + len > stagingSize && s.stagedBytes l.die != 0 then .ok none
    else
      let s := (n.2.modDie l.die fun d => { d with staging := d.staging ++ [⟨u, l.spillArea + e.off⟩] }).setLaunch u { l with stack := l.stack ++ [e] }
      .ok (some ((s.clearPlane l plane).vaultUnit u 0x08 0 depth))

/-- An entry's bytes are still in staging. -/
def State.isStaged (s : State) (u : Nat) (l : Launch) (e : SpillEnt) : Bool :=
  (s.getDie l.die).staging.any fun g => g.owner == u && g.addr == l.spillArea + e.off

/-- Takes an entry off staging. -/
def State.unstage (s : State) (u : Nat) (l : Launch) (e : SpillEnt) : State :=
  s.modDie l.die fun d => { d with staging := d.staging.filter fun g => !(g.owner == u && g.addr == l.spillArea + e.off) }

/-- The CRCs of an entry's tile images hold in memory (R313). -/
def State.crcsHold (s : State) (l : Launch) (e : SpillEnt) : Bool :=
  let lens := (s.tileImages l e).map List.length
  let crcs := s.areaRead l.die l.vmid (l.spillArea + e.off + 64) 8
  lens.zipIdx.all fun n =>
    let ws := s.areaRead l.die l.vmid (l.spillArea + e.off + 128 + 8 * (lens.take n.2).sum) n.1
    (crc32 ws).toNat == bitsOf (crcs.getD (n.2 / 2) 0).toNat (32 * (n.2 % 2) + 31) (32 * (n.2 % 2))

/-- Reads an entry back into a plane of the region: from staging, or from memory under its checksums (R312, R313). -/
def State.popPlane (s : State) (u : Nat) (l : Launch) (e : SpillEnt) (plane : Nat) : Except Nat State :=
  match s.areaFault l.die l.vmid (l.spillArea + e.off) e.len .r with
  | some c => .error c
  | none =>
    if !s.isStaged u l e && !s.crcsHold l e then .error 0x6C
    else
      let s := e.image.foldl (fun s x => s.setPlane x.1 plane x.2) (s.clearPlane l plane)
      .ok ((s.unstage u l e).vaultUnit u 0x09 0 e.depth)

/-! Freezing and thawing (R304, R309, R315) -/

/-- Every block of a region that has not begun its commit is abandoned (R309). -/
def State.abandonAll (s : State) (l : Launch) : State :=
  l.cells.foldl (fun s c => match (s.getCell c).block with | some b => if b.committing then s else s.abandon c | none => s) s

/-- A block of a region is committing. -/
def State.committingIn (s : State) (l : Launch) : Bool :=
  l.cells.any fun c => match (s.getCell c).block with | some b => b.committing | none => false

/-- A token that the region's plane holds in a router: the region sent it, and it is in the region. -/
def Launch.routes (l : Launch) (t : NetTok) : Bool := t.arrived && l.holds t.pos && l.holds t.src

/-- Tokens in the routers of a region freeze with its active plane. -/
def State.freezeToks (s : State) (l : Launch) : State :=
  let ts := s.net.filter l.routes
  ts.foldl (fun s t => s.modCp t.pos fun p => { p with hops := p.hops ++ [t] }) { s with net := s.net.filter fun t => !l.routes t }

/-- The router tokens of a plane that becomes active go on. -/
def State.thawToks (s : State) (l : Launch) (plane : Nat) : State :=
  l.cells.foldl (fun s c => match smFind (s.getCell c).planes plane with
    | some p => if p.hops.isEmpty then s else { (s.setPlane c plane { p with hops := [] }) with net := s.net ++ p.hops }
    | none => s) s

/-- The tokens held for a level are delivered, in arrival order and before any later token (R311, R315). -/
def State.deliverHeld (s : State) (l : Launch) (ctx : BitVec 8) : State :=
  l.cells.foldl (fun s c =>
    let ts := smGet [] (s.getCell c).hold ctx.toNat
    if ts.isEmpty then s
    else { (s.modCell c fun x => { x with hold := smDel x.hold ctx.toNat }) with net := ts.map (fun t => { t with due := true }) ++ s.net }) s

/-- The commands of a level that belong to a plane, queued and captured, belong to another from now on (R314): none while the level's plane is
spilled or not yet loaded. -/
def State.bindCmds (s : State) (l : Launch) (u depth : Nat) (old new : Option Nat) : State :=
  let cmd (c : Cmd) : Cmd := if c.owner == u && c.depth == depth && c.plane == old then { c with plane := new } else c
  let ent (e : QEnt) : QEnt := match e with | .cmd c => .cmd (cmd c) | e => e
  let dep (e : DepEnt) : DepEnt := match e.step with | .stream c p t => { e with step := .stream (cmd c) p t } | _ => e
  l.region.foldl (fun s t => s.modTile t fun x =>
    { x with ports := x.ports.map fun q => (q.1, { q.2 with entries := q.2.entries.map ent }), deps := x.deps.map fun e => (e.1, dep e.2) }) s

end Sys2Proof.Machine
end

