-- ==== Sys2Proof/Machine/Cfg.lean ====
section
/-! DEFINITION. Configuration control (R64-R68): loading, running, draining and stopping, calls, returns, preloads and plane exchange
(R299-R301, R309-R319), and the events that carry them on. -/

namespace Sys2Proof.Machine

/-! Loading and running (R64, R65) -/

/-- The lowest-numbered free plane into which no refill runs. -/
def Launch.lowestFree (l : Launch) : Option Nat := [0, 1, 2].find? fun p => (l.plane p).st == .free && !(l.plane p).busy

/-- The plane a CFG.LOAD fills: the active one, plane 3 of a service unit (R336), or before the first load the lowest that is FREE: a plane with a
preload keeps it (R318; DESIGN CHOICE, log 140). -/
def Launch.loadPlane (l : Launch) : Option Nat := if l.service then some 3 else match l.active? with | some p => some p | none => l.lowestFree

/-- A plane that holds a configuration and is active. -/
def activeInfo (idx depth : Nat) : PlaneInfo := ⟨.active, some idx, depth, false, 0, false, 0⟩

/-- CFG.LOAD (R64). -/
def execCfgLoad (idx : BitVec 8) (s : State) : Out :=
  match s.unit? with
  | none => s.stutter
  | some l =>
    match s.config? l idx.toNat with
    | none => s.trap 0x64
    | some cfg =>
      if l.run then s.block true
      else match cfg.bad, l.loadPlane with
      | some c, _ => s.trap c
      | none, none => s.block true
      | none, some p =>
        match s.loaderReach l with
        | .fault c => s.trap c
        | .wait s => .next s
        | .ok _ s =>
          let s := ((((s.writePlane l cfg p).writeCodes l cfg idx.toNat).zeroLocal l cfg).raiseCarves l)
          let s := if l.active?.isNone then s.bindCmds l s.unitNo l.depth none (some p) else s
          .next (s.modLaunch s.unitNo fun l => l.setPlane p (activeInfo idx.toNat l.depth)).nextStep

/-- CFG.RUN (R65), captured by an open run entry (R77). -/
def execCfgRun (idx : BitVec 8) (s : State) : Out :=
  match s.captured 1 (.run idx), s.unit? with
  | some s, _ => .next s
  | none, none => s.stutter
  | none, some l =>
    if (s.config? l idx.toNat).isNone then s.trap 0x64
    else if l.activeCfg ≠ some idx.toNat then s.trap 0x65
    else if l.run then s.block true
    else .next (s.startRun s.unitNo).nextStep

/-- CFG.WAIT (R65). -/
def execCfgWait (s : State) : Out := if s.runActive then s.block true else .next s.nextStep

/-- A command bound to the region's stream ports: it names a cell (R65). -/
def Cmd.bound (c : Cmd) : Bool := decide (c.op.toNat < 4)

/-- A command's plane is active: it was issued at the level that runs and for its active plane (R314). -/
def Cmd.awake (c : Cmd) (l : Launch) : Bool := c.depth == l.depth && c.plane == l.active?

/-- RUN_END (R65): every bound command has performed and the region is empty. -/
def execRunEnd (u : Nat) (s : State) : Out :=
  match s.launch? u with
  | none => s.stutter
  | some l =>
    if l.run && l.goes && l.callStage == 0 && !(s.cmdsOf u).any (fun c => c.bound && c.awake l) && s.regionQuiet l then
      .next (s.modLaunch u fun l => { l with run := false })
    else s.stutter

/-! Draining and stopping (R66, R67) -/

/-- The step starts a drain of its region and waits for it. -/
def State.startDrain (s : State) (why : DrainWhy) : Out :=
  ((s.modLaunch s.unitNo fun l => { l with drain := some ⟨why, false, false, 0⟩ }).modCur fun t => { t with phase := 1 }).block true

/-- The status of a drain (R66). -/
def drainStatus (orphans : Nat) : Word := BitVec.ofNat 64 (min orphans (2 ^ 32 - 1) * 2 ^ 32 + if orphans = 0 then 0 else 1)

/-- CFG.DRAIN (R66, R172): phase 1 waits for the drain it started, whose count joins what was kept. -/
def execCfgDrain (d : BitVec 4) (s : State) : Out :=
  match s.unit? with
  | none => s.stutter
  | some l =>
    if l.run || l.drain.isSome then s.block true
    else if s.cur.phase = 0 then s.startDrain .step
    else (s.modLaunch s.unitNo fun l => { l with kept := none }).finish d (drainStatus (l.kept.getD 0))

/-- An armed or issued dependence entry has yet to perform. -/
def Tile.depsOut (t : Tile) : Bool := t.deps.any fun e => e.2.state == .armed || e.2.state == .issued

/-- The tokens in the hold buffers of a region. -/
def State.heldToks (s : State) (l : Launch) : Nat := (l.cells.map fun c => ((s.getCell c).hold.map fun e => e.2.length).sum).sum

/-- Every plane, level and hold buffer of a region is emptied (R318, R319); a service unit has none, and its victim's stay (R336). -/
def State.dropLevels (s : State) (u : Nat) : State :=
  match s.launch? u with
  | none => s
  | some l =>
    if l.service then s
    else
    let s := ([0, 1, 2].filter fun p => l.active? != some p).foldl (fun s p => s.clearPlane l p) s
    let s := l.cells.foldl (fun s c => match smFind s.cells c with
      | some x => if x.hold.isEmpty then s else s.setCell c { x with hold := [] }
      | none => s) s
    s.setLaunch u { l with levels := [], stack := [], refilling := none, refillDue := none, cleared := none, planes := l.planes.filter fun e => e.2.st == .active,
                           depth := if l.levels.isEmpty then l.depth else 0 }

/-- CFG.STOP's last part (R67, R319): entries never armed are freed, the levels below are discarded, and the unit has completed. -/
def State.stopUnit (s : State) (u : Nat) (l : Launch) : State :=
  let n := if l.service then 0 else s.heldToks l
  let s := s.issued.modCur fun t => { t with deps := t.deps.filter fun e => e.2.state == .done }
  let s := s.modLaunch u fun l => { l with st := .ending, completed := 1, kept := if n = 0 then l.kept else some (l.kept.getD 0 + n) }
  s.dropLevels u

/-- CFG.STOP (R67). -/
def execCfgStop (s : State) : Out :=
  match s.unit? with
  | none => s.stutter
  | some l =>
    if l.run || l.drain.isSome || s.cur.depsOut || !(s.cmdsOf s.unitNo).isEmpty then s.block true
    else if !l.drained && s.cur.phase = 0 then s.startDrain .stop
    else .next (s.stopUnit s.unitNo l)

/-! Tokens through entries 60 and 61 (R299, R300) -/

/-- The T-cells of a configuration whose entry `i` is valid. -/
def State.talkers (s : State) (l : Launch) (cfg : Option Nat) (i : Nat) : List Nat :=
  match cfg.bind (s.config? l) with
  | some c => (c.cellList.filter fun e => isTCell e.1 && (destF (smGet 0 e.2.dests i).toNat).valid).map fun e => l.placed (s.folio l) e.1
  | none => []

/-- The step sends its next call or return token, or goes on to `fin` after the last: `callStage` counts the tokens sent. -/
def State.talk (s : State) (l : Launch) (i : Nat) (v : Word) (fin : State) : Out :=
  match (s.talkers l l.activeCfg i)[l.callStage - 100]? with
  | none => .next fin
  | some c =>
    match s.forward c (s.entry c i) ⟨levelCtx l.depth, 0, 0⟩ 0 0 [v] with
    | none => s.block false
    | some s => ((s.modLaunch s.unitNo fun l => if l.callStage ≥ 100 then { l with callStage := l.callStage + 1 } else l).touchTok s.unitNo).block false

/-- The stores of the sequencer have left and performed, and its direct writes too (R310, R311). -/
def State.writesDone (s : State) : Bool := s.cur.sbuf.isEmpty && !s.accessOut s.me

/-- Every tile of a region takes the sequencer's store high-water (R310). -/
def State.shareHi (s : State) (l : Launch) : State := l.region.foldl (fun s t => s.raiseLclk t s.cur.hiWater) s

/-- The parts of a plane exchange start at a stage of their own. -/
def State.atStage (s : State) (n : Nat) : State := s.modLaunch s.unitNo fun l => { l with callStage := n }

/-! CFG.CALL (R68, R299, R310) -/

/-- The callee's plane becomes active (R310): the preload is used if it is the callee's, or the configuration is loaded without zeroing
local memory; then code (R306), depth and frames. -/
def State.activate (s : State) (l : Launch) (cfg : ConfigImg) (idx p : Nat) : State :=
  let x := l.plane p
  let s := if x.st == .preloaded && x.cfg == some idx then s else s.writePlane l cfg p
  let s := s.writeCodes l cfg idx
  s.modLaunch s.unitNo fun l =>
    { (l.setPlane p (activeInfo idx (l.depth + 1))) with depth := l.depth + 1, callStage := 4 }

/-- The resident frozen plane of least depth. -/
def Launch.oldestFrozen (l : Launch) : Option Nat :=
  (l.levels.find? fun v => match v.plane with | some p => (l.plane p).st == .frozen && !(l.plane p).busy | none => false).bind (·.plane)

/-- Takes a plane for the callee (R301): the lowest that may be taken, once a preload of it has ended; or the oldest frozen plane spills
first, once no refill runs. -/
def State.takePlane (s : State) (l : Launch) (cfg : ConfigImg) (idx : Nat) : Out :=
  match l.freePlane with
  | some p =>
    if (l.plane p).st == .loading then s.block false
    else if (l.plane p).st == .preloaded && (l.plane p).cfg == some idx then (s.activate l cfg idx p).block false
    else (match cfg.bad, s.loaderReach l with
      | some c, _ | none, .fault c => s.trap c
      | none, .wait s => .next s
      | none, .ok _ s => (s.activate l cfg idx p).block false)
  | none =>
    match l.refilling, l.oldestFrozen with
    | none, some p => ((s.modLaunch s.unitNo fun l => l.setPlane p { l.plane p with busy := true }).atStage 3).block false
    | _, _ => s.block false

/-- The callee starts: a1 is the argument, its n registers are zero, its run is active, and the first call token goes next. -/
def State.enterCallee (s : State) (l : Launch) (arg : Word) : Out :=
  if !s.writesDone then s.block false
  else
    let s := (s.shareHi l).modCur fun t => { t with a := t.a.set 1 arg, n := Vector.replicate 4 ⟨0, 0⟩ }
    ((s.startRun s.unitNo).atStage 100).block false

/-- CFG.CALL by its stages: 0 checks and stops the sources, 1 awaits the freeze point, 2 takes a plane, 3 awaits a spill, 4 awaits the
caller's writes, 100 on sends the call tokens. -/
def execCfgCall (idx : BitVec 8) (r : BitVec 4) (s : State) : Out :=
  match s.unit? with
  | none => s.stutter
  | some l =>
    if l.service then s.trap 0x68
    else if l.callStage = 0 && l.depth = 64 then s.trap 0x67
    else match s.config? l idx.toNat with
    | none => s.trap 0x64
    | some cfg =>
      match cfg.entry, l.callStage with
      | none, _ => s.trap 0x64
      | some _, 0 =>
        if s.frameOver l cfg then s.trap 0x6B
        else if l.allParked then s.trap 0x68
        else ((s.abandonAll l).atStage 1).block true
      | some _, 1 => s.block true
      | some _, 2 => s.takePlane l cfg idx.toNat
      | some _, 4 => s.enterCallee l (s.ra r)
      | some e, n =>
        if n < 100 then s.block false
        else
          s.talk l 61 (s.cur.a[1]) (((s.vaultUnit s.unitNo 0x06 0 l.depth).atStage 0).issued.modCur fun t => { t with spc := BitVec.ofNat 64 e })

/-- The level record of the caller (R304). -/
def Launch.levelNow (l : Launch) (t : Tile) : Level :=
  { depth := l.depth, plane := l.active?, spilled := false, cfg := l.activeCfg, spc := t.spc + 8, n := t.n, run := l.run, runId := l.runId,
    drained := l.drained, frames := l.frames }

/-- FREEZE_POINT (R309, R310, R317): no block of the region is committing; the active plane freezes, or parks with its run state. From here on the
step is no progress point (R174). -/
def execFreezePoint (u : Nat) (s : State) : Out :=
  match s.launch? u with
  | none => s.stutter
  | some l =>
    if !(l.callStage == 1 || l.callStage == 11) || !l.goes || s.committingIn l then s.stutter
    else
      let lead := l.region.headD 0
      let t := s.getTile lead
      let s := (if l.active?.isSome then s.freezeToks l else s).modTile lead fun t => { t with wait := some (.poll false) }
      if l.callStage = 1 then
        let v := l.levelNow t
        let fr := s.deeper l
        let n := s.nextStamp
        .next (n.2.modLaunch u fun l =>
          let l := match l.active? with | some p => l.setPlane p { l.plane p with st := .frozen, depth := l.depth, parked := n.1 } | none => l
          { l with levels := l.levels ++ [v], frames := fr, run := false, callStage := 2 })
      else
        let n := s.nextStamp
        .next (n.2.modLaunch u fun l =>
          let l := match l.active? with
            | some p => l.setPlane p { l.plane p with st := .parked, run := l.run, runId := l.runId, parked := n.1 }
            | none => l
          { l with run := false, callStage := 12 })

/-- PLANE_SPILL_END (R301, R312): the spilled plane's bytes are in staging, and the plane is free. -/
def execPlaneSpillEnd (u : Nat) (s : State) : Out :=
  match s.launch? u with
  | none => s.stutter
  | some l =>
    match l.callStage, l.levels.find? fun v => match v.plane with | some p => (l.plane p).busy && (l.plane p).st == .frozen | none => false with
    | 3, some v =>
      let p := v.plane.getD 0
      match s.pushPlane u l p v.depth (v.cfg.getD 0) with
      | .error c => .next (s.faultLaunch u c (l.region.headD 0) (l.spillArea + l.stackTop))
      | .ok none => s.stutter
      | .ok (some s) =>
        .next ((s.bindCmds l u v.depth (some p) none).modLaunch u fun l =>
          { (l.setPlane p PlaneInfo.empty) with
            callStage := 2, levels := l.levels.map fun x => if x.depth == v.depth then { x with plane := none, spilled := true } else x })
    | _, _ => s.stutter

/-! Refills (R301, R311, R313) -/

/-- The refill of a level runs into a plane. -/
def Launch.refillInto (l : Launch) (p depth : Nat) : Launch :=
  { (l.setPlane p { l.plane p with busy := true }) with
    refilling := some (p, depth), refillDue := if l.refillDue = some depth then none else l.refillDue,
    cleared := if l.cleared = some p then none else l.cleared }

/-- The level on top of the plane spill stack has a depth. -/
def Launch.onTop (l : Launch) (depth : Nat) : Bool := match l.stack.getLast? with | some e => e.depth == depth | none => false

/-- REFILL_START (R301): the level whose refill waits for a plane starts it into the lowest-numbered FREE one; a call that needs the plane goes
first. -/
def execRefillStart (u : Nat) (s : State) : Out :=
  match s.launch? u with
  | none => s.stutter
  | some l =>
    match l.refilling.isNone && l.callStage == 0 && (l.st == .running || l.st == .pending), l.refillDue, l.lowestFree with
    | true, some d, some p => if l.onTop d then .next (s.modLaunch u fun l => l.refillInto p d) else s.stutter
    | _, _, _ => s.stutter

/-- REFILL_END (R312, R313): the entry's checksums hold, and the plane is the level's frozen plane again. -/
def execRefillEnd (u : Nat) (s : State) : Out :=
  match s.launch? u with
  | none => s.stutter
  | some l =>
    match l.refilling, l.stack.getLast? with
    | some (p, d), some e =>
      if e.depth ≠ d then s.stutter
      else match s.popPlane u l e p with
       | .error c => .next (s.faultLaunch u c (l.region.headD 0) (l.spillArea + e.off))
       | .ok s =>
         .next ((s.bindCmds l u d none (some p)).modLaunch u fun l =>
           { (l.setPlane p { PlaneInfo.empty with st := .frozen, cfg := some e.cfg, depth := d }) with
             refilling := none, stack := l.stack.dropLast,
             levels := l.levels.map fun v => if v.depth == d then { v with plane := some p, spilled := false } else v })
    | _, _ => s.stutter

/-! CFG.RET (R68, R300, R311) -/

/-- The caller is spilled, or its refill still runs (R301). -/
def Launch.awaitsRefill (l : Launch) (v : Level) : Bool := v.spilled || match v.plane with | some p => (l.plane p).busy | none => false

/-- A spilled caller's refill starts into the plane just cleared unless it runs. -/
def Launch.refillCaller (l : Launch) (v : Level) : Launch :=
  match v.spilled && l.refilling.isNone && l.onTop v.depth, l.cleared <|> l.lowestFree with
  | true, some p => l.refillInto p v.depth
  | _, _ => l

/-- The callee's plane is cleared and its context freed; a spilled caller's refill starts. -/
def State.leaveCallee (s : State) (l : Launch) (v : Level) : State :=
  let ctx := levelCtx l.depth
  let s := match l.active? with
    | some p => (s.clearPlane l p).modLaunch s.unitNo fun l => { l.setPlane p PlaneInfo.empty with cleared := some p }
    | none => s
  let s := s.modLaunch s.unitNo fun l => l.refillCaller v
  (s.modCur fun t => { t with tags := t.tags.filter fun e => e.ctx != ctx }).atStage 21

/-- The refill of a spilled level below the one that a return has made active: into the plane that the return cleared, where the level did not
need it, and otherwise when a plane is next FREE (R301, R311). -/
def Launch.refillBelow (l : Launch) : Launch :=
  match l.levels.getLast? with
  | some v =>
    if !v.spilled then { l with cleared := none }
    else (match l.refilling, l.cleared with
      | none, some p => if l.onTop v.depth then l.refillInto p v.depth else { l with refillDue := some v.depth, cleared := none }
      | _, _ => { l with refillDue := some v.depth, cleared := none })
  | none => { l with cleared := none }

/-- The caller thaws (R311): its code, plane, depth, frames, n registers and run state are restored, and its held tokens delivered; its
saved SPC waits for the return tokens. -/
def State.thaw (s : State) (l : Launch) (v : Level) (arg : Word) : State :=
  let s := match v.cfg.bind fun i => (s.config? l i).map fun c => (i, c) with
    | some (i, c) => s.writeCodes l c i
    | none => s
  let s := s.modLaunch s.unitNo fun l =>
    let l := match v.plane with | some p => l.setPlane p { l.plane p with st := .active, run := false } | none => l
    { l with levels := l.levels.dropLast, depth := v.depth, frames := v.frames, run := v.run, runId := v.runId, drained := v.drained, resume := v.spc,
             callStage := 100 }
  let s := s.modCur fun t => { t with a := t.a.set 1 arg, n := v.n }
  let s := match v.plane with | some p => s.thawToks l p | none => s
  let s := s.deliverHeld l (levelCtx v.depth)
  if !v.run && !(s.talkers l v.cfg 60).isEmpty then s.startRun s.unitNo else s

/-- CFG.RET by its stages: 0 awaits the run's end and clears the callee, 21 awaits the caller's refill and the callee's writes, 100 on
sends the return tokens. -/
def execCfgRet (r : BitVec 4) (s : State) : Out :=
  match s.unit? with
  | none => s.stutter
  | some l =>
    if l.callStage ≥ 100 then
      s.talk l 60 (s.cur.a[1]) (((((s.vaultUnit s.unitNo 0x07 0 l.depth).modLaunch s.unitNo Launch.refillBelow).atStage 0).issued).modCur
        fun t => { t with spc := l.resume })
    else match l.levels.getLast? with
    | none => s.trap 0x66
    | some v =>
      if l.callStage = 0 then (if l.run then s.block true else (s.leaveCallee l v).block (l.awaitsRefill v))
      else if l.awaitsRefill v then (s.modLaunch s.unitNo fun l => l.refillCaller v).block true
      else if !s.writesDone then s.block false
      else ((s.shareHi l).thaw l v (s.ra r)).block false

/-! Preloads and plane exchange (R316, R317) -/

/-- The write of a preload into a plane ends; a load that fails its checks faults the launch. -/
def State.preloaded (s : State) (u : Nat) (l : Launch) (p idx : Nat) : State :=
  match s.config? l idx with
  | none => s
  | some cfg =>
    let page : Option Nat := if l.service then none else match s.areaPage l.die l.vmid (s.folio l).va .x with | .ok _ => none | .error c => some c
    match cfg.bad, page with
    | some c, _ | none, some c => s.faultLaunch u c (l.region.headD 0) 0
    | none, none => (s.writePlane l cfg p).modLaunch u fun l => l.setPlane p { l.plane p with st := .preloaded }

/-- CFG.PRELOAD (R316). A plane into which a refill runs is busy too (DEDUCED, log 51). A PRELOADED plane goes through no LOADING (R318): the new
configuration is in it at once (DEDUCED, log 139). -/
def execCfgPreload (idx : BitVec 8) (plane : BitVec 2) (s : State) : Out :=
  match s.unit? with
  | none => s.stutter
  | some l =>
    let x := l.plane plane.toNat
    if l.service || x.busy || x.st == .active || x.st == .frozen || x.st == .parked then s.trap 0x68
    else if (s.config? l idx.toNat).isNone then s.trap 0x64
    else
      let st : PlaneState := if x.st == .preloaded then .preloaded else .loading
      let s := s.modLaunch s.unitNo fun l => l.setPlane plane.toNat { PlaneInfo.empty with st := st, cfg := some idx.toNat }
      .next (if x.st == .preloaded then s.preloaded s.unitNo l plane.toNat idx.toNat else s).nextStep

/-- PRELOAD_END (R316, R318): the write into the lowest loading plane ends. -/
def execPreloadEnd (u : Nat) (s : State) : Out :=
  match s.launch? u with
  | none => s.stutter
  | some l =>
    match [0, 1, 2].find? (fun p => (l.plane p).st == .loading), l.st == .running || l.st == .pending || l.st == .stopping with
    | some p, true =>
      (match (l.plane p).cfg with | some i => .next (s.preloaded u l p i) | none => s.stutter)
    | _, _ => s.stutter

/-- A named plane becomes active after its code is in the store (R306, R317). -/
def State.swapIn (s : State) (l : Launch) (p : Nat) : State :=
  let x := l.plane p
  let s := match x.cfg.bind fun i => (s.config? l i).map fun c => (i, c) with
    | some (i, c) => s.writeCodes l c i
    | none => s
  let s := s.modLaunch s.unitNo fun l =>
    { (l.setPlane p { x with st := .active, depth := l.depth, run := false }) with run := x.run, runId := x.runId, callStage := 0 }
  s.thawToks l p

/-- PSWAP by its stages: 0 checks and stops the sources, 11 awaits the freeze point, 12 makes the named plane active. -/
def execPswap (plane : BitVec 2) (s : State) : Out :=
  match s.unit? with
  | none => s.stutter
  | some l =>
    let p := plane.toNat
    let x := l.plane p
    if l.service then s.trap 0x68
    else if l.callStage = 12 then .next (s.swapIn l p).nextStep
    else if l.callStage = 11 then s.block true
    else match x.st with
    | .active => .next s.nextStep
    | .frozen => s.trap 0x68
    | .loading => s.block true
    | .free => s.trap (if x.busy then 0x68 else 0x69)
    | .preloaded | .parked => ((s.abandonAll l).atStage 11).block true

/-- STAGING_WRITEBACK (R312): the oldest entry in a die's staging goes to memory. -/
def execStagingWriteback (die : Nat) (s : State) : Out :=
  match (s.getDie die).staging with
  | [] => s.stutter
  | g :: r =>
    let off := s.modDie die fun d => { d with staging := r }
    match s.launch? g.owner with
    | none => .next off
    | some l =>
      match l.stack.find? fun e => l.spillArea + e.off == g.addr with
      | none => .next off
      | some e =>
        match s.areaFault l.die l.vmid g.addr e.len .w with
        | some c => .next (off.faultLaunch g.owner c (l.region.headD (die * 100)) g.addr)
        | none => .next (off.areaWrite l.die l.vmid g.addr (off.entryWords l e))

end Sys2Proof.Machine
end

