-- ==== Sys2Proof/Machine/Streams.lean ====
section
/-! DEFINITION. Stream engines (R21, R62, R69-R74, R165, R177, R178, R229): issuing stream commands and fences, and the events that carry
them on. An engine reads at most one flit or line ahead (DESIGN CHOICE, log 52). -/

namespace Sys2Proof.Machine

/-! Patterns (R14, R21, R165) -/

/-- Bytes of a pattern's element: a Q4X16 element is a block of 16 bytes (DESIGN CHOICE, log 53). -/
def Pattern.elemBytes (p : Pattern) : Nat := if p.fmt = 7 then 16 else tagWidth p.fmt / 8
/-- Elements of a flit. -/
def Pattern.perFlit (p : Pattern) : Nat := 64 / p.elemBytes
/-- The elements in `i` inner dimensions. -/
def Pattern.below (p : Pattern) (i : Nat) : Nat := ((List.range i).map p.count).foldl (· * ·) 1
/-- The elements of the whole pattern. -/
def Pattern.total (p : Pattern) : Nat := p.below (p.dims + 1)
/-- The address of an element, modulo 2^64. -/
def Pattern.addr (p : Pattern) (e : Nat) : Nat :=
  wrapNat (((List.range (p.dims + 1)).map fun i => p.stride i * ((e / p.below i % p.count i : Nat) : Int)).foldl (· + ·) (p.base : Int)) 64
/-- The elements that the flit from element `e` on holds: a run of count0 elements starts a new flit (R21). -/
def Pattern.flitElems (p : Pattern) (e : Nat) : Nat := min p.perFlit (p.count 0 - e % p.count 0)
/-- The mark of the flit after whose elements `e` are done (R165). -/
def Pattern.markAt (p : Pattern) (e : Nat) : BitVec 3 :=
  if e ≥ p.total then 3 else if p.dims ≥ 1 && e % p.below 2 == 0 then 2 else if e % p.count 0 = 0 then 1 else 0

/-! Commands and queues. `buf` holds: 0 the bytes of the piece in hand, 1 an index, 3 the mark of a held flit plus 1, 4 the descriptor of a
STRM.KVC. `done` marks the bytes of the piece that are read or written. -/

/-- A number an engine keeps for a command. -/
def Cmd.num (c : Cmd) (k : Nat) : Nat := (smGet 0 c.buf k).toNat
/-- The engine keeps a value for a command. -/
def Cmd.keep (c : Cmd) (k : Nat) (v : BitVec 512) : Cmd := { c with buf := smPut c.buf k v }
/-- The engine holds a value. -/
def Cmd.has (c : Cmd) (k : Nat) : Bool := (smFind c.buf k).isSome
/-- A piece is finished. -/
def Cmd.nextPiece (c : Cmd) (pos : Nat) : Cmd := { c with pos := pos, done := 0, buf := smDel (smDel (smDel c.buf 0) 1) 3 }
/-- Nothing is left to move. -/
def Cmd.finished (c : Cmd) : Cmd := { c with cut := true, issuedAll := true }
/-- A command that reads memory (R70). -/
def Cmd.reads (c : Cmd) : Bool := c.op != 1 && c.op != 4
/-- A command that needs no transfer: a length of zero (R70). -/
def Cmd.empty (c : Cmd) : Bool := (c.op == 4 || c.op == 5 || c.op == 7) && c.t == 0

/-- The command at the head of a port's queue. -/
def PortQ.cmd? (q : PortQ) : Option Cmd := match q.entries with | .cmd c :: _ => some c | _ => none
/-- Writes the command at the head. -/
def PortQ.setCmd (q : PortQ) (c : Cmd) : PortQ := { q with entries := .cmd c :: q.entries.drop 1 }
/-- The key under which a port's queue of a launch stands: a service unit's victim keeps its own beyond 3 (R336). -/
def Tile.portKey (t : Tile) (p owner : Nat) : Nat :=
  match (t.port (p + 4)).cmd? with
  | some c => if c.owner == owner then p + 4 else p
  | none => p
/-- Changes the begun head command that a launch has at a port. -/
def State.modHead (s : State) (tile p owner : Nat) (f : Cmd → Cmd) : State :=
  s.modTile tile fun t =>
    let k := t.portKey p owner
    match (t.port k).cmd? with
    | some c => if c.owner == owner && c.begun then t.setPort k ((t.port k).setCmd (f c)) else t
    | none => t
/-- The begun head command that a launch has at a port. -/
def State.headOf (s : State) (tile p owner : Nat) : Option Cmd :=
  match ((s.getTile tile).port ((s.getTile tile).portKey p owner)).cmd? with
  | some c => if c.owner == owner && c.begun then some c else none
  | none => none

/-- A new command. -/
def Cmd.new (op : BitVec 3) (pat : Pattern) (d s t : Word) (cell : Nat) (dlv : BitVec 2) (mask : Bool) (flow : BitVec 16)
    (owner depth : Nat) (plane : Option Nat) (lclk : BitVec 32) : Cmd :=
  { op := op, pat := pat, d := d, s := s, t := t, cell := cell, dlv := dlv, mask := mask, flow := flow, owner := owner, issue := 0, depth := depth,
    plane := plane, lclk := lclk, dep := none, begun := false, readClk := 0, pos := 0, done := 0, waiting := 0, buf := [],
    reading := false, issuedAll := false, cut := false, maxTs := 0, quiet := 0, suspended := false }

/-- The entries a queue holds: two for a service unit (R69, R336). -/
def Launch.queueCap (l : Launch) : Nat := if l.service then 2 else 8

/-- A command issues: it joins a port's queue. -/
def State.enqueue (s : State) (tile p : Nat) (c : Cmd) : State :=
  let n := s.nextStamp
  n.2.modTile tile fun t => t.setPort p { t.port p with entries := (t.port p).entries ++ [.cmd { c with issue := n.1 }] }

/-- An entry of the acting sequencer's table that issues again after a resume, ahead of any new command (R83). -/
def State.reissues (s : State) : Bool := s.cur.deps.any fun e => e.2.rearmed

/-- Stands for a region tile outside the region, which no tile has. -/
def noTile : Nat := 65536

/-- What is wrong with a command's operands: a cell or a region tile that R69 does not allow, or an operand that is no multiple (R70). -/
def Cmd.bad (c : Cmd) (tile : Nat) : Option Nat :=
  let off (al : Nat) (ws : List Word) : Option Nat := if ws.any (fun w => w.toNat % al != 0) then some 0x22 else none
  let place := if tile = noTile || isTCell c.cell then some 0x04 else none
  match c.op.toNat with
  | 0 | 1 => place
  | 2 | 3 => (off 64 [c.t]).or place
  | 4 => off 8 [c.d, c.t]
  | 5 => off 16 [c.d, c.s, c.t]
  | 6 => off 64 [c.d]
  | _ => off 64 [c.d, c.s, c.t]

/-- A stream step (R69): captured by an open stream entry instead of issuing (R77), or queued; it blocks only while the queue is full, or behind
what a resume issues again (R83). -/
def State.strmStep (s : State) (tile p : Nat) (c : Cmd) (cap : Nat) : Out :=
  match s.captured 0 (.stream c p tile), c.bad tile with
  | some s, _ => .next s
  | none, some cause => s.trap cause
  | none, none => if s.reissues || decide (((s.getTile tile).port p).entries.length ≥ cap) then s.block false else .next (s.enqueue tile p c).nextStep

/-- A command that names a cell: its region tile, and the cell of that tile as it is placed (R69, R344). -/
def State.strmCell (s : State) (p : BitVec 2) (rt : BitVec 4) (n : BitVec 6) (mk : Launch → Nat → Cmd) : Out :=
  match s.unit? with
  | none => s.stutter
  | some l =>
    let tile := l.region.getD rt.toNat noTile
    let c := cellOf tile n.toNat
    s.strmStep tile p.toNat (mk l (shiftCell c (cellDie c) l.move)) l.queueCap

/-- A command on a port of the lead tile. -/
def State.strmLead (s : State) (p : BitVec 2) (mk : Launch → Cmd) : Out :=
  match s.unit? with
  | none => s.stutter
  | some l => s.strmStep s.tile p.toNat (mk l) l.queueCap

/-- STRM.IN (R21, R69, R70). -/
def execStrmIn (port : BitVec 2) (m : BitVec 3) (rt : BitVec 4) (cell : BitVec 6) (dlv : BitVec 2) (s : State) : Out :=
  s.strmCell port rt cell fun l c => Cmd.new 0 s.cur.m[m.toNat] 0 0 0 c dlv false 0 s.unitNo l.depth l.active? s.cur.spr.lclk

/-- STRM.OUT (R21, R69, R70). -/
def execStrmOut (port : BitVec 2) (m : BitVec 3) (rt : BitVec 4) (cell : BitVec 6) (dlv : BitVec 2) (s : State) : Out :=
  s.strmCell port rt cell fun l c => Cmd.new 1 s.cur.m[m.toNat] 0 0 0 c dlv false 0 s.unitNo l.depth l.active? s.cur.spr.lclk

/-- STRM.GATH (R70, R178). -/
def execStrmGath (port : BitVec 2) (m : BitVec 3) (t : BitVec 4) (rt : BitVec 4) (cell : BitVec 6) (dlv : BitVec 2) (s : State) : Out :=
  s.strmCell port rt cell fun l c => Cmd.new 2 s.cur.m[m.toNat] 0 0 (s.ra t) c dlv false 0 s.unitNo l.depth l.active? s.cur.spr.lclk

/-- STRM.SCAT (R70). -/
def execStrmScat (port : BitVec 2) (m : BitVec 3) (t : BitVec 4) (rt : BitVec 4) (cell : BitVec 6) (dlv : BitVec 2) (s : State) : Out :=
  s.strmCell port rt cell fun l c => Cmd.new 3 s.cur.m[m.toNat] 0 0 (s.ra t) c dlv false 0 s.unitNo l.depth l.active? s.cur.spr.lclk

/-- A pattern no command uses. -/
def Pattern.none : Pattern := ⟨0, 0, 0, 0⟩

/-- STRM.FILL (R70). -/
def execStrmFill (port : BitVec 2) (d s t : BitVec 4) (dlv : BitVec 2) (st : State) : Out :=
  st.strmLead port fun l => Cmd.new 4 Pattern.none (st.ra d) (st.ra s) (st.ra t) 0 dlv false 0 st.unitNo l.depth l.active? st.cur.spr.lclk

/-- STRM.COPY (R70). -/
def execStrmCopy (port : BitVec 2) (d s t : BitVec 4) (dlv : BitVec 2) (st : State) : Out :=
  st.strmLead port fun l =>
    Cmd.new 5 Pattern.none (st.ra d) (st.ra s) (st.ra t) 0 dlv false 0 st.unitNo l.depth l.active? st.cur.spr.lclk

/-- STRM.KVC (R71). -/
def execStrmKvc (port : BitVec 2) (d s t : BitVec 4) (mask : Bool) (st : State) : Out :=
  st.strmLead port fun l => Cmd.new 6 Pattern.none (st.ra d) (st.ra s) (st.ra t) 0 0 mask 0 st.unitNo l.depth l.active? st.cur.spr.lclk

/-- STRM.XCH (R70, R352). -/
def execStrmXch (port : BitVec 2) (d s t : BitVec 4) (flow : BitVec 16) (st : State) : Out :=
  st.strmLead port fun l =>
    Cmd.new 7 Pattern.none (st.ra d) (st.ra s) (st.ra t) 0 0 false flow st.unitNo l.depth l.active? st.cur.spr.lclk

/-! STRM.KVC (R71) -/

/-- A field of the descriptor. -/
def Cmd.kv (c : Cmd) (i n : Nat) : Nat := recField (c.num 4) i n
/-- The rows of the draft. -/
def Cmd.kvD (c : Cmd) : Nat := c.kv 28 4
/-- The accepted positions. -/
def Cmd.kvList (c : Cmd) : List Nat := if c.mask then (List.range 64).filter (bitOf c.s.toNat) else List.range (min c.s.toNat 64)
/-- The descriptor keeps its limits, and the accepted rows fit (R71). -/
def Cmd.kvOk (c : Cmd) : Bool :=
  let rs := c.kv 16 4
  let len := c.kv 24 4
  c.kv 0 8 % 64 == 0 && c.kv 8 8 % 64 == 0 && rs % 64 == 0 && decide (64 ≤ rs) && decide (rs ≤ 65536) && decide (1 ≤ c.kv 20 4) &&
    decide (len ≤ c.kv 20 4) && decide (1 ≤ c.kvD) && decide (c.kvD ≤ 64) && c.kv 32 32 == 0 &&
    (if c.mask then decide (c.s.toNat < 2 ^ c.kvD) else decide (c.s.toNat ≤ c.kvD)) && decide (len + c.kvList.length ≤ c.kv 20 4)
/-- The 64-byte pieces of a commit: each row's key and then its value. -/
def Cmd.kvPieces (c : Cmd) : Nat := c.kvList.length * 2 * (c.kv 16 4 / 64)
/-- The source and destination of the piece in turn. -/
def Cmd.kvPiece (c : Cmd) : Nat × Nat :=
  let rs := c.kv 16 4
  let per := rs / 64
  let j := c.pos / (2 * per)
  let v := c.pos / per % 2
  let o := 64 * (c.pos % per)
  (c.t.toNat + v * c.kvD * rs + c.kvList.getD j 0 * rs + o, (if v = 0 then c.kv 0 8 else c.kv 8 8) + (c.kv 24 4 + j) * rs + o)

/-! Fences (R73, R74) -/

/-- The region tile and port of each bit of a queue set. -/
def queueSet (w : Nat) : List (Nat × Nat) := ((List.range 64).filter (bitOf w)).map fun b => (b / 4, b % 4)

/-- QFENCE (R73): a marker enters every named queue. -/
def State.qfenceStep (s : State) (w : Nat) : Out :=
  match s.unit? with
  | none => s.stutter
  | some l =>
    let qs := queueSet w
    if qs.any (fun q => decide (q.1 ≥ l.region.length)) then s.trap 0x04
    else if qs.isEmpty then .next s.nextStep
    else if s.reissues || qs.any (fun q => decide (((s.getTile (l.region.getD q.1 0)).port q.2).entries.length ≥ l.queueCap)) then s.block false
    else
      let n := s.nextStamp
      .next (qs.foldl (fun s q => s.modTile (l.region.getD q.1 0) fun t =>
        t.setPort q.2 { t.port q.2 with entries := (t.port q.2).entries ++ [.fence n.1] }) n.2).nextStep

/-- QFENCE, immediate form (R73). -/
def execQfence (set40 : BitVec 40) (s : State) : Out := s.qfenceStep set40.toNat

/-- QFENCE.R (R73). -/
def execQfenceR (s : BitVec 4) (st : State) : Out := st.qfenceStep (st.ra s).toNat

/-- A queue entry is a marker. -/
def QEnt.isFence (e : QEnt) (id : Nat) : Bool := match e with | .fence i => i == id | .cmd _ => false

/-- QFENCE_RELEASE (R73, R229): every queue that holds the marker has it at its head; it goes, and each order clock takes the largest. -/
def execQfenceRelease (tile id : Nat) (s : State) : Out :=
  match (s.owner? tile).bind s.launch? with
  | none => s.stutter
  | some l =>
    let qs := (l.region.flatMap fun t => (List.range 4).map fun p => (t, p)).filter fun q =>
      ((s.getTile q.1).port q.2).entries.any (·.isFence id)
    let heads := qs.all fun q => match ((s.getTile q.1).port q.2).entries with | e :: _ => e.isFence id | [] => false
    if qs.isEmpty || !heads then s.stutter
    else
      let top := qs.foldl (fun x q => tsMax x ((s.getTile q.1).port q.2).order) 0
      .next (qs.foldl (fun s q => s.modTile q.1 fun t =>
        t.setPort q.2 { t.port q.2 with entries := (t.port q.2).entries.drop 1, order := top }) s)

/-- The page of an address is of target types 3 to 5. -/
def State.directPage (s : State) (l : Launch) (page : Nat) : Bool :=
  match walkPage s.mem (s.jobdir l.die) l.vmid page with
  | .leaf pte _ => let t := (pteType pte.toNat).toNat; decide (3 ≤ t) && decide (t ≤ 5)
  | .fail _ _ => false

/-- Two byte ranges meet on a page of target types 3 to 5. -/
def State.meets (s : State) (l : Launch) (a n lo hi : Nat) : Bool :=
  let x := max a lo
  let y := min (a + n) hi
  decide (x < y) && (List.range ((y - 1) / 2 ^ 16 - x / 2 ^ 16 + 1)).any fun i => s.directPage l (x / 2 ^ 16 + i)

/-- The n bytes at an address of one page as memory holds them; none where no home of the package does. -/
def State.peek (s : State) (l : Launch) (va n : Nat) : Option Nat :=
  match walkPage s.mem (s.jobdir l.die) l.vmid (va / 2 ^ 16) with
  | .fail _ _ => none
  | .leaf pte size =>
    let t := leafTarget pte size va
    if t.ty = 1 || t.ty = 2 then none
    else some (if t.ty = 0 then memRead s.mem t.flat n else s.targetRead (seqAgent (l.region.headD 0)) t.ty t.flat n)

/-- A gather or scatter has a row in a range yet to move: the row of an index as memory holds it now, or wherever an index may lie that no home of
the package holds (DEDUCED, log 54). -/
def State.rowsTouch (s : State) (l : Launch) (c : Cmd) (from_ lo hi : Nat) : Bool :=
  (c.has 1 && s.meets l (c.t.toNat + 64 * (c.num 1 % 2 ^ 32)) 64 lo hi) ||
    (List.range (c.pat.total - from_)).any fun e =>
      match s.peek l (c.pat.addr (c.pat.total - 1 - e)) 4 with
      | some i => s.meets l (c.t.toNat + 64 * i) 64 lo hi
      | none => s.meets l c.t.toNat (2 ^ 38) lo hi

/-- A STRM.KVC has a row or its length word in a range yet to move, under the descriptor that it has read or that memory holds now. -/
def State.kvcTouches (s : State) (l : Launch) (c : Cmd) (lo hi : Nat) : Bool :=
  let at_ (c : Cmd) : Bool :=
    c.kvOk && (s.meets l (c.d.toNat + 24) 4 lo hi || (List.range (c.kvPieces - c.pos + if c.waiting != 0 then c.pos else 0)).any fun e =>
      let x := ({ c with pos := c.kvPieces - 1 - e } : Cmd).kvPiece
      s.meets l x.1 64 lo hi || s.meets l x.2 64 lo hi)
  if c.has 4 then at_ c
  else s.meets l c.d.toNat 64 lo hi || match s.peek l c.d.toNat 64 with
    | some v => at_ (c.keep 4 (BitVec.ofNat 512 v))
    | none => true

/-- A command has an access to a range yet to perform (R74). -/
def State.cmdTouches (s : State) (l : Launch) (c : Cmd) (lo hi : Nat) : Bool :=
  let from_ := if c.reading || c.waiting != 0 then 0 else c.pos
  let elems (n : Nat) : Bool := (List.range (c.pat.total - from_)).any fun e => s.meets l (c.pat.addr (c.pat.total - 1 - e)) n lo hi
  match c.op.toNat with
  | 0 | 1 => elems c.pat.elemBytes
  | 2 | 3 => elems 4 || s.rowsTouch l c from_ lo hi
  | 4 => s.meets l c.d.toNat c.t.toNat lo hi
  | 5 | 7 => s.meets l c.d.toNat c.t.toNat lo hi || s.meets l c.s.toNat c.t.toNat lo hi
  | _ => s.kvcTouches l c lo hi

/-- A direct store of a buffer touches a range. -/
def bufTouches (b : List StoreEnt) (lo hi : Nat) : Bool :=
  b.any fun e => decide (3 ≤ e.ty.toNat) && decide (e.ty.toNat ≤ 5) && decide (e.va < hi) && decide (lo < e.va + e.n)

/-- A direct write of types 3 to 5 of an agent is in flight. -/
def State.directOut (s : State) (a : Nat) : Bool :=
  s.msgs.any fun m => m.agent == a && match m.kind with | .access ty _ _ _ true _ => decide (3 ≤ ty.toNat) && decide (ty.toNat ≤ 5) | _ => false

/-- SBAR (R74). -/
def execSbar (s t : BitVec 4) (st : State) : Out :=
  let lo := (st.ra s).toNat
  let hi := lo + (st.ra t).toNat
  match st.unit? with
  | none => st.stutter
  | some l =>
    if st.ra t = 0 then .next st.nextStep
    else if bufTouches st.cur.sbuf lo hi || st.directOut st.me || (l.cells.filter isTCell).any (fun c =>
        match smFind st.cells c with | some x => bufTouches x.sbuf lo hi || st.directOut (cellAgent c) | none => false) ||
        (st.cmdsOf st.unitNo).any (fun c => st.cmdTouches l c lo hi) then st.block false
    else .next st.nextStep

/-! Beginning (R69, R70, R72, R178, R229) -/

/-- The region of a unit that has been taken off its work is drained: what waits on it ends where it stands (R325). -/
def Launch.emptied (l : Launch) : Bool := l.st == .ending && l.drain.isNone

/-- The unit of a command lets it run on: it holds its tiles, no service unit has frozen it, and the plane of a bound command is active
(R314, R331, R336), or its drained region ends it (R325). -/
def Cmd.runsOn (c : Cmd) (l : Launch) : Bool :=
  (l.st == .running || l.st == .pending || l.st == .stopping || l.st == .ending) && !l.frozen && (!c.bound || c.awake l || l.emptied)

/-- The B-cell a command names has a stream port, which its command may use (R69). -/
def State.portOk (s : State) (c : Cmd) : Bool :=
  !(c.bound && isBCell c.cell) || ((bmMode (s.bMode c.cell) == 2 || bmMode (s.bMode c.cell) == 3) && routeSrc (s.cp c.cell).route.toNat 4 == 0)

/-- A STRM.GATH that issued earlier has the side stream of the cell and has yet to perform (R178). -/
def State.sideBusy (s : State) (c : Cmd) : Bool :=
  c.op == 2 && (s.cp c.cell).sideFed && s.tiles.any fun t => t.2.ports.any fun q => q.2.entries.any fun e => match e with
    | .cmd x => x.op == 2 && x.cell == c.cell && x.plane == c.plane && x.owner == c.owner && decide (x.issue < c.issue)
    | .fence _ => false

/-- Takes the head entry off a port's queue. -/
def State.popQueue (s : State) (tile k : Nat) : State :=
  s.modTile tile fun t => t.setPort k { t.port k with entries := (t.port k).entries.drop 1, ld := LoadSt.empty }

/-- A command stops at a fault: it leaves its queue and its launch faults at the port's tile (R70; DEDUCED, log 55). Where it fed a run, every stage
of the region stops with its flits (R107). -/
def State.streamFault (s : State) (tile k : Nat) (c : Cmd) (cause va : Nat) : State :=
  let feeds := (c.op == 0 || c.op == 2) && match s.launch? c.owner with | some l => l.run | none => false
  let s := (s.popQueue tile k).faultLaunch c.owner cause tile va
  (if feeds then s.modLaunch c.owner fun l => { l with halted := true } else s).touch c.owner

/-- STREAM_BEGIN: the head of a queue begins; its read clock is fixed now (R229). -/
def execStreamBegin (tile port : Nat) (s : State) : Out :=
  let q := (s.getTile tile).port port
  match q.cmd? with
  | none => s.stutter
  | some c =>
    match s.launch? c.owner with
    | none => s.stutter
    | some l =>
      let lead := s.getTile (l.region.headD tile)
      if port ≥ 4 || c.begun || !c.runsOn l || l.st == .stopping || l.st == .ending then s.stutter
      else if c.reads && lead.sbuf.any (fun e => e.ty == 0) || s.sideBusy c then s.stutter
      else if !s.portOk c then .next (s.streamFault tile port c 0x04 0)
      else
        let c := { c with begun := true, readClk := tsMax c.lclk q.order, suspended := false, quiet := 0 }
        .next (s.modTile tile fun t => t.setPort port (q.setCmd (if c.empty then c.finished else c)))

/-! Lines -/

/-- The bytes of a piece that lie in one line: the line's address, and for each byte its place in the piece and in the line. -/
structure Part where
  va : Nat
  bytes : List (Nat × Nat)
  deriving DecidableEq, Repr

/-- The next line of a piece, from the addresses of its bytes: the line of its first byte that is not done, with every byte in it. -/
def nextPart (vas : List Nat) (done : Nat) : Option Part :=
  let open_ := vas.zipIdx.filter fun e => !bitOf done e.2
  match open_ with
  | [] => none
  | e :: _ => some ⟨e.1 / 64 * 64, (open_.filter fun x => x.1 / 64 == e.1 / 64).map fun x => (x.2, x.1 % 64)⟩

/-- The bytes of a part as a mask over the piece. -/
def Part.places (p : Part) : Nat := (p.bytes.map fun b => 2 ^ b.1).foldl (· ||| ·) 0
/-- The bytes of a part as a mask over the line. -/
def Part.lineMask (p : Part) : Nat := (p.bytes.map fun b => 2 ^ b.2).foldl (· ||| ·) 0
/-- The first and the last byte of the line that a part touches. -/
def Part.span (p : Part) : Nat × Nat := ((p.bytes.map (·.2)).foldl min 63, (p.bytes.map (·.2)).foldl max 0)
/-- The bytes of a line at their places in the piece. -/
def Part.gather (p : Part) (byte : Nat → Nat) : BitVec 512 := p.bytes.foldl (fun l b => lineMerge l b.1 1 (byte b.2)) 0
/-- The bytes of a piece at their places in the line; of two for one place the later stays. -/
def Part.scatter (p : Part) (d : BitVec 512) : BitVec 512 := p.bytes.foldl (fun l b => lineMerge l b.2 1 (lineBytes d b.1 1)) 0

/-- The target of a part's line, with `flat` at the line's first byte, under the checks of R208. -/
def State.partTarget (s : State) (tile p : Nat) (l : Launch) (x : Part) (need : Need) (types : BitVec 3 → Option Nat) : TRes :=
  let lo := x.span.1
  match s.reach (portAgent tile p) l.vmid (x.va + lo) 1 1 need types with
  | .ok t s =>
    let base : Target := { t with flat := t.flat - lo }
    (match x.bytes.findSome? fun b => s.boundFault { base with flat := base.flat + b.2 } 1 (need != .r) with
     | some c => .fault c
     | none => .ok base s)
  | r => r

/-- What a line access of an engine comes to. -/
inductive SRes where
  | done (s : State)
  | wait (s : State)
  | fault (cause va : Nat)

/-- The number of a port, as messages name it. -/
def portNo (tile p : Nat) : Nat := tile * 4 + p

/-- The message sent last is queued at its home by a migration (R210). -/
def State.heldLast (s : State) : State :=
  match s.msgs.getLast? with
  | some m => { s with msgs := s.msgs.dropLast ++ [{ m with held := true }] }
  | none => s

/-- A command has asked for the bytes of a part, which return to it. -/
def State.asked (s : State) (tile p owner : Nat) (x : Part) : State :=
  (s.modLd (portAgent tile p) fun _ => LoadSt.empty).modHead tile p owner fun c => { c with reading := true, done := c.done ||| x.places, quiet := 0 }

/-- A stream's delivery over a flow is in order: as its delivery field says, or its page's OF bit (R31, R235). -/
def Cmd.ordered (c : Cmd) (t : Target) : Bool := if c.dlv = 0 then t.ordered else c.dlv == 1

/-- A stream's read of a line performs at its home, at type 0 with a lease as a load has (R229; DEDUCED, log 56), and the data leaves for the
engine. -/
def State.serveRead (s : State) (pn key : Nat) (x : Part) (ty : BitVec 3) (home flat lim agent owner : Nat) (inOrder : Bool) : SRes :=
  let back (s : State) (d : BitVec 512) : SRes := .done (s.send home 100 (tileDie (pn / 4)) agent owner (.streamRet pn x.places key d inOrder))
  if !s.room home 100 (tileDie (pn / 4)) 1 then .wait s
  else if ty = 0 then
    if lim ≥ 2 ^ 32 then .wait (s.askRebase home)
    else
      let s := s.fillLine flat
      let h := s.lineTs flat
      back (s.setLineTs flat h.1 (tsMax h.2 (BitVec.ofNat 32 lim))) (x.gather fun o => memRead s.mem (flat + o) 1)
  else if ty = 7 && s.regHolds agent (flat + x.span.1) (x.span.2 + 1 - x.span.1) then .wait s
  else back s (x.gather fun o => s.targetRead agent ty (flat + o) 1)

/-- Reads a line for a command (R177, R223, R229): at once on the engine's die, as a request on a flow to another die (R235), behind a migration's
other accesses (R210); host and peer memory answers through a port. -/
def State.streamRead (s : State) (tile p : Nat) (l : Launch) (c : Cmd) (key : Nat) (x : Part) : SRes :=
  let lead := l.region.headD tile
  match s.partTarget tile p l x .r plainType with
  | .fault f => .fault f (x.va + x.span.1)
  | .wait s => .wait s
  | .ok t s =>
    if t.ty = 1 || t.ty = 2 then
      let ld := s.ldOf (portAgent tile p)
      let at_ := t.flat + x.span.1
      match smFind ld.lines at_ with
      | some v => .done ((s.send (tileDie tile) 100 (tileDie tile) (seqAgent lead) c.owner
          (.streamRet (portNo tile p) x.places key (x.gather fun o => lineBytes v (o - x.span.1) 1) (c.ordered t))).asked tile p c.owner x)
      | none =>
        if ld.waiting then .wait s
        else .wait (s.request (portAgent tile p) c.owner (tileDie tile) (.access t.ty t.home at_ (x.span.2 + 1 - x.span.1) false 0))
    else
      let lim := c.readClk.toNat + (s.getTile lead).spr.lease.toNat
      let req : MsgKind := .streamReq (portNo tile p) key x.bytes t.ty t.home t.flat lim (c.ordered t)
      if t.ty = 0 && s.rebasing then .wait s
      else if t.home ≠ tileDie tile then
        if !s.room (tileDie tile) (tileLocal tile) t.home 1 then .wait s
        else .done ((s.send (tileDie tile) (tileLocal tile) t.home (seqAgent lead) c.owner req).asked tile p c.owner x)
      else if t.ty = 0 && s.migrating t.flat then .done (((s.sendFrom (seqAgent lead) c.owner t.home req).heldLast).asked tile p c.owner x)
      else if t.ty = 0 && s.heldPage s.msgs t.flat then .wait s
      else match s.serveRead (portNo tile p) key x t.ty t.home t.flat lim (seqAgent lead) c.owner (c.ordered t) with
        | .done s => .done (s.asked tile p c.owner x)
        | r => r

/-- Writes the masked bytes of a line at a target of types 0 and 3 to 7, one run of bytes at a time. -/
def State.writeMasked (s : State) (agent : Nat) (ty : BitVec 3) (flat mask : Nat) (d : BitVec 512) : State :=
  (List.range 64).foldl (fun s o =>
    if !bitOf mask o then s
    else if ty = 0 then { s with mem := memPut s.mem (flat + o) (lineByte d o) }
    else if ty = 7 then
      (if o % 8 ≠ 0 && bitOf mask (o - 1) then s
       else
         let n := ((upFrom o (8 - o % 8)).takeWhile (bitOf mask)).length
         s.targetWrite agent ty (flat + o) n (lineBytes d o n))
    else s.targetWrite agent ty (flat + o) 1 (lineByte d o).toNat) s

/-- A write of a command took a timestamp: its sequencer's store high-water, the command's largest, and the run it was bound to take it (R77,
R213, R229). -/
def State.streamTs (s : State) (tile p : Nat) (agent owner run : Nat) (ts : BitVec 32) : State :=
  let s := (s.raiseHi agent ts).modHead tile p owner fun c => { c with maxTs := tsMax c.maxTs ts }
  match s.headOf tile p owner with
  | some c => if c.bound then s.raiseRun owner run ts else s
  | none => s

/-- A line write of a command performs at its target; at type 0 it takes ts := max(read clock, H.rts + 1) (R229). None while a rebase is
due. -/
def State.streamLand (s : State) (tile p : Nat) (agent owner run : Nat) (ty : BitVec 3) (flat mask : Nat) (d : BitVec 512) (clk : BitVec 32) :
    Option State :=
  if ty ≠ 0 then some (s.writeMasked agent ty flat mask d)
  else
    let s := s.fillLine flat
    let ts := s.writeTs flat clk.toNat
    if ts ≥ 2 ^ 32 then none
    else
      let t := BitVec.ofNat 32 ts
      some (((s.writeMasked agent 0 flat mask d).setLineTs flat t t).streamTs tile p agent owner run t)

/-- A write asked for by a command has left its engine. -/
def State.wrote (s : State) (tile p owner : Nat) (x : Part) (out : Nat) : State :=
  (s.modLd (portAgent tile p) fun _ => LoadSt.empty).modHead tile p owner fun c =>
    { c with done := c.done ||| x.places, waiting := c.waiting + out, quiet := 0 }

/-- Writes a line for a command: at once on the engine's die, as a message to another die or through a port. -/
def State.streamWrite (s : State) (tile p : Nat) (l : Launch) (c : Cmd) (x : Part) (d : BitVec 512) : SRes :=
  let lead := l.region.headD tile
  match s.partTarget tile p l x .w plainType with
  | .fault f => .fault f (x.va + x.span.1)
  | .wait s => .wait s
  | .ok t s =>
    let d := x.scatter d
    let far := t.ty == 1 || t.ty == 2 || t.home != tileDie tile
    let die := if t.ty = 1 || t.ty = 2 then tileDie tile else t.home
    let run := s.runOf c.owner
    let req : MsgKind := .streamWr (portNo tile p) x.lineMask t.ty t.home t.flat 64 d c.readClk (c.ordered t)
    if t.ty = 0 && (s.rebasing || (!far && !s.migrating t.flat && s.heldPage s.msgs t.flat)) then .wait s
    else if t.ty = 0 && !far && s.migrating t.flat then
      .done ((((s.sendFrom (seqAgent lead) c.owner die req).ofRun run).heldLast).wrote tile p c.owner x 1)
    else if far then
      if !s.room (tileDie tile) (tileLocal tile) die 1 then .wait s
      else
        let s := if t.ty = 1 then s.modTile lead fun y => { y with hostLast := smPut y.hostLast t.home (t.flat + x.span.1) } else s
        .done (((s.send (tileDie tile) (tileLocal tile) die (seqAgent lead) c.owner req).ofRun run).wrote tile p c.owner x 1)
    else match s.streamLand tile p (seqAgent lead) c.owner run t.ty t.flat x.lineMask d c.readClk with
      | some s => .done (s.wrote tile p c.owner x 0)
      | none => .wait (s.askRebase t.home)

/-- An access ends in the outcome of its event. -/
def State.accessed (s : State) (tile k : Nat) (c : Cmd) : SRes → Out
  | .done s' => .next (s'.touch c.owner)
  | .wait s' => .next s'
  | .fault f va => .next (s.streamFault tile k c f va)

/-! The commands' pieces -/

/-- The addresses of the bytes of some elements of a pattern. -/
def Pattern.bytes (p : Pattern) (e n : Nat) : List Nat :=
  (List.range (n * p.elemBytes)).map fun b => (p.addr (e + b / p.elemBytes) + b % p.elemBytes) % 2 ^ 64
/-- The addresses of n bytes from one on. -/
def run64 (a n : Nat) : List Nat := (List.range n).map fun i => (a + i) % 2 ^ 64

/-- The index element in turn is aligned (R70). -/
def Cmd.indexOk (c : Cmd) : Bool := c.pat.addr c.pos % 4 == 0
/-- The row that an index names. -/
def Cmd.row (c : Cmd) : List Nat := run64 (c.t.toNat + 64 * (c.num 1 % 2 ^ 32)) 64

/-- A copy from `s` to `d` begins at its end, for its destination overlaps the later part of its source. -/
def Cmd.backward (c : Cmd) : Bool := decide (c.s.toNat < c.d.toNat) && decide (c.d.toNat < c.s.toNat + c.t.toNat)
/-- The offset and length of a copy's piece: one line of the destination at most. -/
def Cmd.piece (c : Cmd) : Nat × Nat :=
  let left := c.t.toNat - c.pos
  if c.op = 5 && c.backward then
    let n := min ((c.d.toNat + left - 1) % 64 + 1) left
    (left - n, n)
  else (c.pos, min (64 - (c.d.toNat + c.pos) % 64) left)

/-! A flit that leaves the region -/

/-- Adds 1 to an iteration register, and carries on into the next (R62). -/
def countMarks (n : Vector NReg 4) : Nat → Nat → Vector NReg 4
  | _, 0 => n
  | i, fuel + 1 =>
    if h : i < 4 then
      let x := n[i]
      let v := x.index + 1
      if x.count ≠ 0 && decide (v.toNat ≥ x.count.toNat) then countMarks (n.set i { x with index := 0 }) (i + 1) fuel
      else n.set i { x with index := v }
    else n

/-- An end marker left the region through a stream output (R62). -/
def State.marker (s : State) (l : Launch) : State :=
  if l.run then s.modTile (l.region.headD 0) fun t => { t with n := countMarks t.n 0 4 } else s

/-- An engine takes the next flit of its cell's stream output. -/
def State.takeFlit (s : State) (tile p : Nat) (l : Launch) (c : Cmd) : Out :=
  match (s.cp c.cell).link lkSout with
  | x :: r =>
    if x.beat || !s.cellFeeds c.cell then s.stutter
    else
      let s := s.modCp c.cell fun q => q.setLink lkSout r
      let s := if x.marked then s.marker l else s
      let mark : BitVec 3 := if x.isSide then 0 else x.mark
      .next ((s.modHead tile p c.owner fun c =>
        { ((c.keep 0 x.data).keep 3 (mark.setWidth 512 + 1)) with quiet := 0, done := 0 }).touch c.owner)
  | [] => s.stutter

/-- A flit's elements are written: the stream goes on, or ends with the marker's flit (R21, R166). -/
def Cmd.flitDone (c : Cmd) (n : Nat) : Cmd := if c.num 3 = 4 then (c.nextPiece (c.pos + n)).finished else c.nextPiece (c.pos + n)

/-- The flit an engine holds goes on to memory, line by line. -/
def State.outFlit (s : State) (tile p k : Nat) (l : Launch) (c : Cmd) (vas : List Nat) (n : Nat) : Out :=
  match nextPart vas c.done with
  | some x => s.accessed tile k c (s.streamWrite tile p l c x (smGet 0 c.buf 0))
  | none => .next (s.modHead tile p c.owner fun c => c.flitDone n)

/-- One access of a STRM.IN: a line of the elements of its next flit. -/
def State.inAccess (s : State) (tile p k : Nat) (l : Launch) (c : Cmd) : Out :=
  match nextPart (c.pat.bytes c.pos (c.pat.flitElems c.pos)) c.done with
  | some x => s.accessed tile k c (s.streamRead tile p l c 0 x)
  | none => s.stutter

/-- One access of a STRM.OUT: it takes a flit, or writes a line of its elements. -/
def State.outAccess (s : State) (tile p k : Nat) (l : Launch) (c : Cmd) : Out :=
  if !c.has 3 then s.takeFlit tile p l c
  else
    let n := if c.pos ≥ c.pat.total then 0 else c.pat.flitElems c.pos
    s.outFlit tile p k l c (c.pat.bytes c.pos n) n

/-- Reads the index in turn. -/
def State.indexAccess (s : State) (tile p k : Nat) (l : Launch) (c : Cmd) : Out :=
  if !c.indexOk then .next (s.streamFault tile k c 0x22 (c.pat.addr c.pos))
  else match nextPart (run64 (c.pat.addr c.pos) 4) 0 with
  | some x => s.accessed tile k c (s.streamRead tile p l c 1 x)
  | none => s.stutter

/-- One access of a STRM.GATH: the index, then the row it names. -/
def State.gathAccess (s : State) (tile p k : Nat) (l : Launch) (c : Cmd) : Out :=
  if !c.has 1 then s.indexAccess tile p k l c
  else match nextPart c.row c.done with
  | some x => s.accessed tile k c (s.streamRead tile p l c 0 x)
  | none => s.stutter

/-- One access of a STRM.SCAT: the flit, the index, then the row's write after the writes before it. -/
def State.scatAccess (s : State) (tile p k : Nat) (l : Launch) (c : Cmd) : Out :=
  if !c.has 3 then s.takeFlit tile p l c
  else if c.pos ≥ c.pat.total then .next (s.modHead tile p c.owner fun c => c.flitDone 0)
  else if !c.has 1 then s.indexAccess tile p k l c
  else if c.done = 0 && c.waiting ≠ 0 then s.stutter
  else s.outFlit tile p k l c c.row 1

/-- One access of a STRM.FILL. -/
def State.fillAccess (s : State) (tile p k : Nat) (l : Launch) (c : Cmd) : Out :=
  let n := c.piece.2
  match nextPart (run64 (c.d.toNat + c.pos) n) c.done with
  | some x => s.accessed tile k c (s.streamWrite tile p l c x (BitVec.ofNat 512 (packBits 64 (List.replicate 8 c.s.toNat))))
  | none => .next (s.modHead tile p c.owner fun c => if c.pos + n ≥ c.t.toNat then c.finished else c.nextPiece (c.pos + n))

/-- A piece of a copy is read; its write takes the whole of one line, or what a misaligned destination leaves of two. -/
def State.copyPiece (s : State) (tile p k : Nat) (l : Launch) (c : Cmd) (src dst n : Nat) (next : Cmd → Cmd) : Out :=
  if c.num 5 = 0 then
    match nextPart (run64 src n) c.done with
    | some x => s.accessed tile k c (s.streamRead tile p l c 0 x)
    | none => .next (s.modHead tile p c.owner fun c => { c.keep 5 1 with done := 0 })
  else match nextPart (run64 dst n) c.done with
    | some x => s.accessed tile k c (s.streamWrite tile p l c x (smGet 0 c.buf 0))
    | none => .next (s.modHead tile p c.owner fun c => next { c with buf := smDel c.buf 5 })

/-- One access of a STRM.COPY. -/
def State.copyAccess (s : State) (tile p k : Nat) (l : Launch) (c : Cmd) : Out :=
  let x := c.piece
  s.copyPiece tile p k l c (c.s.toNat + x.1) (c.d.toNat + x.1) x.2 fun c =>
    if c.pos + x.2 ≥ c.t.toNat then c.finished else c.nextPiece (c.pos + x.2)

/-- One access of a STRM.KVC: its descriptor, then the pieces of its rows. A bad descriptor faults before anything is written. -/
def State.kvcAccess (s : State) (tile p k : Nat) (l : Launch) (c : Cmd) : Out :=
  if !c.has 4 then
    match nextPart (run64 c.d.toNat 64) c.done with
    | some x => s.accessed tile k c (s.streamRead tile p l c 4 x)
    | none => s.stutter
  else if !c.kvOk then .next (s.streamFault tile k c 0x24 c.d.toNat)
  else if c.pos ≥ c.kvPieces then s.stutter
  else
    let x := c.kvPiece
    s.copyPiece tile p k l c x.1 x.2 64 fun c => c.nextPiece (c.pos + 1)

/-- The peer module a STRM.XCH names. -/
def Cmd.peer (c : Cmd) : Nat := c.flow.toNat % 256
/-- A port toward a peer is up (R352). -/
def State.peerUp (s : State) (peer : Nat) : Bool := (s.mreg (0x1000 + 8 * peer)).toNat &&& s.mod.peersUp.toNat != 0

/-- The destination of a STRM.XCH is a type-2 page (R70; another type is refused as a permission fault, DEDUCED, log 57). -/
def peerType (ty : BitVec 3) : Option Nat := if ty = 2 then none else some 0x21

/-- One access of a STRM.XCH: a line of its source, then the packet. -/
def State.xchAccess (s : State) (tile p k : Nat) (l : Launch) (c : Cmd) : Out :=
  if c.num 5 = 0 then
    match nextPart (run64 (c.s.toNat + c.pos) 64) c.done with
    | some x => s.accessed tile k c (s.streamRead tile p l c 0 x)
    | none => .next (s.modHead tile p c.owner fun c => { c.keep 5 1 with done := 0 })
  else match nextPart (run64 (c.d.toNat + c.pos) 64) 0 with
    | none => s.stutter
    | some x =>
      match s.partTarget tile p l x .w peerType with
      | .fault f => .next (s.streamFault tile k c f (c.d.toNat + c.pos))
      | .wait s => .next s
      | .ok t s =>
        if !s.peerUp c.peer then .next (s.streamFault tile k c 0xF3 (c.d.toNat + c.pos))
        else
          let m : Msg := ⟨.peer (portNo tile p) c.flow.toNat c.peer t.flat (smGet 0 c.buf 0),
            seqAgent (l.region.headD tile), c.owner, 0, tileDie tile, none, true, false, s.eighths⟩
          let s := { s with msgs := s.msgs ++ [m] }
          let s := s.wrote tile p c.owner x 1
          .next ((s.modHead tile p c.owner fun c =>
            let c := { c with buf := smDel c.buf 5 }
            if c.pos + 64 ≥ c.t.toNat then c.finished else c.nextPiece (c.pos + 64)).touch c.owner)

/-- STREAM_LINE_ACCESS (R70, R229): the begun command at the head of a queue makes its next transfer. -/
def execStreamLineAccess (tile port : Nat) (s : State) : Out :=
  match ((s.getTile tile).port port).cmd? with
  | none => s.stutter
  | some c =>
    match s.launch? c.owner with
    | none => s.stutter
    | some l =>
      if port ≥ 4 || !c.begun || c.cut || c.suspended || c.reading || !c.runsOn l then s.stutter
      else if c.bound && l.emptied && !(c.has 3) then .next (s.modHead tile port c.owner Cmd.finished)
      else match c.op.toNat with
      | 0 => s.inAccess tile port port l c
      | 1 => s.outAccess tile port port l c
      | 2 => s.gathAccess tile port port l c
      | 3 => s.scatAccess tile port port l c
      | 4 => s.fillAccess tile port port l c
      | 5 => s.copyAccess tile port port l c
      | 6 => s.kvcAccess tile port port l c
      | _ => s.xchAccess tile port port l c

/-! Data that returns, and the end of a command -/

/-- The bytes that a return carries join the piece in hand. -/
def mergePlaces (l d : BitVec 512) (mask : Nat) : BitVec 512 :=
  (List.range 64).foldl (fun l i => if bitOf mask i then lineMerge l i 1 (lineByte d i).toNat else l) l

/-- A cell's port takes a flit of a command: side flits apart from data flits, two of each (R178). -/
def State.portFree (s : State) (c : Cmd) : Bool :=
  let q := s.cp c.cell
  if c.op = 2 && q.sideFed then decide (q.side.length < 2) else decide ((q.link lkSin).length < 2)

/-- A flit enters a cell's stream port. -/
def State.intoPort (s : State) (c : Cmd) (d : BitVec 512) (mark : BitVec 3) : State :=
  s.modCp c.cell fun q =>
    if c.op = 2 && q.sideFed then { q with side := q.side ++ [mkFlit d c.pat.fmt 4] }
    else q.setLink lkSin (q.link lkSin ++ [mkFlit d c.pat.fmt mark])

/-- A STRM.IN or STRM.GATH delivers its flit and goes on (R21, R70, R165). -/
def State.feed (s : State) (tile p : Nat) (c : Cmd) (d : BitVec 512) : State :=
  let n := if c.op = 0 then c.pat.flitElems c.pos else 1
  let s := s.intoPort c d (c.pat.markAt (c.pos + n))
  s.modHead tile p c.owner fun c =>
    if c.pos + n ≥ c.pat.total then { (c.nextPiece (c.pos + n)).finished with reading := false, quiet := 0 }
    else { c.nextPiece (c.pos + n) with reading := false, quiet := 0 }

/-- STREAM_READ_RETURN (R70): read data reaches its engine. The data that completes a flit of a STRM.IN or STRM.GATH enters the port
while the region's sources run; until there is room it waits. -/
def execStreamReadReturn (k : Nat) (s : State) : Out :=
  match s.msgs[k]?, (s.msgs[k]?.map Msg.kind : Option MsgKind) with
  | some m, some (.streamRet pn mask key d _) =>
    let tile := pn / 4
    let p := pn % 4
    if !m.arrived then s.stutter
    else match s.headOf tile p m.owner, s.launch? m.owner with
    | some c, some l =>
      let v := mergePlaces (smGet 0 c.buf key) d mask
      let whole := if c.op = 0 then (nextPart (c.pat.bytes c.pos (c.pat.flitElems c.pos)) c.done).isNone
        else c.op == 2 && key == 0 && (nextPart c.row c.done).isNone
      if l.frozen then s.stutter
      else if c.bound && l.emptied && !(c.has 3) then
        .next ((s.dropMsg k).modHead tile p m.owner fun c => { c.finished with reading := false })
      else if whole then
        (if l.run && l.drain.isNone && s.cellFeeds c.cell && c.awake l && s.portFree c then .next (((s.dropMsg k).feed tile p c v).touch m.owner) else s.stutter)
      else
        .next (((s.dropMsg k).modHead tile p m.owner fun c =>
          { c.keep key v with reading := false, done := if key = 0 then c.done else 0, quiet := 0 }).touch m.owner)
    | _, _ => .next (s.dropMsg k)
  | _, _ => s.stutter

/-- Marks a dependence entry as performed with its write high-water (R77). -/
def State.depDone (s : State) (tile e : Nat) (hw : BitVec 32) : State :=
  s.modTile tile fun t => match smFind t.deps e with
    | some x => { t with deps := smPut t.deps e { x with performed := true, hw := hw } }
    | none => t

/-- STREAM_PERFORMED (R70, R72, R229): the head command has nothing left to move and nothing outstanding. -/
def execStreamPerformed (tile port : Nat) (s : State) : Out :=
  let q := (s.getTile tile).port port
  match q.cmd? with
  | none => s.stutter
  | some c =>
    match s.launch? c.owner with
    | none => s.stutter
    | some l =>
      if port ≥ 4 || !c.begun || !c.cut || c.reading || c.waiting ≠ 0 || l.frozen then s.stutter
      else
        let s := s.modTile tile fun t => t.setPort port { q with entries := q.entries.drop 1, order := tsMax q.order c.maxTs, ld := LoadSt.empty }
        .next (match c.dep with | some e => s.depDone (l.region.headD tile) e c.maxTs | none => s)

/-- KVC_LENGTH_WRITE (R71): every row write has completed at package scope, so the length word takes the new length. -/
def execKvcLengthWrite (tile port : Nat) (s : State) : Out :=
  match ((s.getTile tile).port port).cmd? with
  | none => s.stutter
  | some c =>
    match s.launch? c.owner with
    | none => s.stutter
    | some l =>
      if port ≥ 4 || c.op ≠ 6 || !c.begun || c.cut || c.reading || !c.runsOn l || !c.has 4 || !c.kvOk || c.pos < c.kvPieces ||
          c.waiting ≠ 0 || !s.flowsAcked [tile] false then s.stutter
      else match nextPart (run64 (c.d.toNat + 24) 4) 0 with
      | none => s.stutter
      | some x =>
        match s.streamWrite tile port l c x (BitVec.ofNat 512 (c.kv 24 4 + c.kvList.length)) with
        | .done s' => .next ((s'.modHead tile port c.owner Cmd.finished).touch c.owner)
        | r => s.accessed tile port c r

end Sys2Proof.Machine
end

