-- ==== Sys2Proof/Machine/Replies.lean ====
section
/-! DEFINITION. The dependence table's events (R77, R78, R84, R229), replies of the engines (R48, R227), and packets that reach their die
(R234, R235). -/

namespace Sys2Proof.Machine

/-! The dependence table -/

/-- The unit may issue from its table: it runs, and nothing has frozen it (R330, R336). -/
def Launch.issues (l : Launch) : Bool := (l.st == .running || l.st == .pending) && !l.frozen

/-- The entry of least age that a test accepts. -/
def oldestDep (deps : SMap DepEnt) (p : DepEnt → Bool) : Option (Nat × DepEnt) :=
  (deps.filter fun e => p e.2).foldl (fun b e => match b with
    | some x => if e.2.age < x.2.age then some e else b
    | none => some e) none

/-- Writes an entry of a tile's table. -/
def State.setDep (s : State) (tile e : Nat) (x : DepEnt) : State := s.modTile tile fun t => { t with deps := smPut t.deps e x }

/-- A stream entry joins its queue, at the clock its sequencer holds now or its predecessors gave it (R177, R229). -/
def State.depStream (s : State) (tile e : Nat) (l : Launch) (x : DepEnt) (c : Cmd) (p t : Nat) : State :=
  let c := { c with lclk := tsMax c.lclk (s.getTile tile).spr.lclk, dep := some e, owner := (s.owner? tile).getD 0, plane := if c.bound then c.plane else l.active? }
  (s.enqueue t p c).setDep tile e { x with state := .issued, rearmed := false }

/-- A signal entry releases at its scope and sends its command, whose WHW is not below what its predecessors handed it (R77, R226, R357): whether it
has issued or faulted, and the state then, or the state with what it waits for asked for. -/
def State.depSignal (s : State) (tile e : Nat) (l : Launch) (x : DepEnt) (va : Word) (scope : BitVec 2) : Bool × State :=
  let a := seqAgent tile
  let u := (s.owner? tile).getD 0
  match s.reach a l.vmid va.toNat 64 1 .rw syncType with
  | .fault c => (true, s.faultLaunch u c tile va.toNat)
  | .wait s => (false, s)
  | .ok t s =>
    let die := (syncPlace t.flat).1
    match s.release a u scope with
    | (false, s) => (false, s)
    | (true, s') =>
      if !s.room (tileDie tile) (tileLocal tile) die 3 then (false, s)
      else
        let whw := tsMax (s'.getTile tile).spr.whw x.before
        let c : SyncCmd := ⟨0x22, 0, scope, t.flat, whw ++ (0 : BitVec 32), 0, (s'.lclk tile).toNat, l.vmid, .dep tile e⟩
        (true, (s'.sendFrom a u die (.cmd c)).setDep tile e { x with state := .issued, hw := whw, rearmed := false })

/-- A run entry starts its run as CFG.RUN does (R65, R78). Its region reads no earlier than its predecessors' writes (R357; DEDUCED, log 141). -/
def State.depRun (s : State) (tile e : Nat) (l : Launch) (x : DepEnt) (idx : BitVec 8) : State :=
  let u := (s.owner? tile).getD 0
  if (s.config? l idx.toNat).isNone then s.faultLaunch u 0x64 tile 0
  else if l.activeCfg ≠ some idx.toNat then s.faultLaunch u 0x65 tile 0
  else
    let s := l.region.foldl (fun s t => s.raiseLclk t x.before) (s.startRun u)
    s.setDep tile e { x with state := .issued, run := s.runOf u, rearmed := false }

/-- An entry is armed with a count of 0. -/
def DepEnt.ready (e : DepEnt) : Bool := e.state == .armed && e.count == 0

/-- An entry that its table may issue now: its queue has room and nothing that a resume issues again stands before it, no run is active, or its
release is settled (R69, R78, R83, R226). -/
def State.depCan (s : State) (tile : Nat) (l : Launch) (again : Bool) (i : Nat) (e : DepEnt) : Bool :=
  e.ready && match e.step with
    | .none => false
    | .stream _ p t => (e.rearmed || !again) && decide (((s.getTile t).port p).entries.length < l.queueCap)
    | .run _ => !l.run && l.callStage == 0
    | .signal va scope => (s.depSignal tile i l e va scope).1

/-- Ready signal entries that cannot issue ask for what they wait for: a walk, or the host read of a SYSTEM release (R225). -/
def State.depAsk (s : State) (tile : Nat) (l : Launch) : State :=
  (s.getTile tile).deps.foldl (fun s e => match e.2.ready, e.2.step with
    | true, .signal va scope => (match s.depSignal tile e.1 l e.2 va scope with | (false, s) => s | (true, _) => s)
    | _, _ => s) s

/-- DEP_ISSUE (R77, R78): the oldest armed entry with a count of 0 that can issue does so; only now is what it captured checked. It is a step that
issues, so it counts as activity (R167; DEDUCED, log 141). -/
def execDepIssue (tile : Nat) (s : State) : Out :=
  match (s.owner? tile).bind s.launch? with
  | none => s.stutter
  | some l =>
    let u := (s.owner? tile).getD 0
    let deps := (s.getTile tile).deps
    let again := deps.any fun e => e.2.rearmed
    if !(l.issues && l.region.head? == some tile) then s.stutter
    else match oldestDep (deps.filter fun e => s.depCan tile l again e.1 e.2) (fun _ => true) with
    | none => .next (s.depAsk tile l)
    | some (e, x) =>
      (match x.step with
       | .stream c p t =>
         (match c.bad t with
          | some cause => .next (s.faultLaunch u cause tile 0)
          | none => .next ((s.depStream tile e l x c p t).touch u))
       | .run idx => .next ((s.depRun tile e l x idx).touch u)
       | .signal va scope => .next ((s.depSignal tile e l x va scope).2.touch u)
       | .none => s.stutter)

/-- A run of a launch has yet to end: it goes on, or it is frozen or parked with its plane (R65, R304). -/
def Launch.runLives (l : Launch) (run : Nat) : Bool :=
  (l.run && l.runId == run) || l.levels.any (fun v => v.run && v.runId == run) || l.planes.any fun p => p.2.run && p.2.runId == run

/-- Every write made for a run has performed: its T-cells' stores and messages, the blocks that commit, and the stream commands bound to it (R77). -/
def State.runSettled (s : State) (u : Nat) (l : Launch) (run : Nat) : Bool :=
  l.cells.all (fun c => match smFind s.cells c with
    | some x => x.sbuf.all (fun e => e.owner != u || e.run != run) &&
        (l.runId != run || match x.block with | some b => !b.committing | none => true)
    | none => true) &&
  s.msgs.all (fun m => m.owner != u || m.run != run) &&
  (s.cmdsOf u).all (fun c => !(c.bound && c.begun && c.has 3)) && s.flowsAcked l.region false

/-- A successor's count falls by 1, and it takes its predecessor's write high-water: a command reads no earlier than that (R77, R229, R357). -/
def DepEnt.met (e : DepEnt) (hw : BitVec 32) : DepEnt :=
  { e with count := e.count - 1, before := tsMax e.before hw,
           step := match e.step with | .stream c p t => .stream { c with lclk := tsMax c.lclk hw } p t | x => x }

/-- An issued entry is done. Its successors take the larger of its write high-water and of what its own predecessors handed it, for orders compose
(R358). -/
def Tile.depDoneAt (t : Tile) (i : Nat) (e : DepEnt) (hw : BitVec 32) : Tile :=
  let deps := smPut t.deps i { e with state := .done, hw := hw }
  { t with deps := e.succ.foldl (fun d j => match smFind d j with | some f => smPut d j (f.met (tsMax hw e.before)) | none => d) deps }

/-- DEP_PERFORMED (R77, R226): an issued entry has performed, and its writes have completed at package scope. -/
def execDepPerformed (tile e : Nat) (s : State) : Out :=
  match smFind (s.getTile tile).deps e, (s.owner? tile).bind s.launch? with
  | some x, some l =>
    let u := (s.owner? tile).getD 0
    if x.state ≠ .issued then s.stutter
    else match x.step with
    | .run _ =>
      if l.runLives x.run || !s.runSettled u l x.run then s.stutter
      else .next ((s.modTile tile fun t => t.depDoneAt e x (smGet 0 l.runHis x.run)).modLaunch u fun l => { l with runHis := smDel l.runHis x.run })
    | .stream .. => if x.performed && s.flowsAcked l.region false then .next (s.modTile tile fun t => t.depDoneAt e x x.hw) else s.stutter
    | _ => if x.performed then .next (s.modTile tile fun t => t.depDoneAt e x x.hw) else s.stutter
  | _, _ => s.stutter

/-! Replies (R48, R227) -/

/-- The timestamp of an answered atomic reaches its requester: its tile's LCLK, its store high-water, and the run it was made for (R77, R218). -/
def State.takeAtomic (s : State) (m : Msg) (time : BitVec 32) : State :=
  if s.owner? (agentTile m.agent) ≠ some m.owner then s
  else
    let s := (s.raiseLclk (agentTile m.agent) time).raiseHi m.agent time
    if agentIsSeq m.agent then s else s.raiseRun m.owner m.run time

/-- A reply reaches a sequencer: its step has it. An ATOM's reply raises LCLK and the store high-water with the atomic's timestamp. -/
def State.replySeq (s : State) (k : Nat) (m : Msg) (tile : Nat) (r : SeqReply) : Out :=
  let s := s.dropMsg k
  if !r.ok || (s.getTile tile).owner ≠ some m.owner then .next s
  else match (s.getTile tile).wait with
  | some (.reply p _) =>
    let s := s.modTile tile fun t => { t with wait := some (.poll p), reply := some r }
    .next ((if atomicCode r.code.toNat then s.takeAtomic m r.time else s).touch m.owner)
  | _ => .next s

/-- The token of a reply (R48). -/
def replyTok (dest : BitVec 18) (slot : BitVec 6) (field : BitVec 2) (g : Tag) (fmt : BitVec 3) (ok : Bool) (data : Word) (owner : Nat) : NetTok :=
  ⟨mkTok dest slot.toNat field.toNat g fmt (if ok then 0x40 else 0x41) data, [], destCell dest, destCell dest, owner, false, none, true, false⟩

/-- A reply reaches a cell as a token; it takes its place there, and its hand-off raises the tile's LCLK. An atomic's timestamp reaches its requester
even while the token waits for a place (DEDUCED, log 142). -/
def State.replyCell (s : State) (k : Nat) (m : Msg) (t : NetTok) (code : Nat) (time : BitVec 32) : Out :=
  let tile := cellTile t.pos
  let s := if atomicCode code && !m.held then { s.takeAtomic m time with msgs := listSet s.msgs k { m with held := true } } else s
  if s.owner? tile ≠ some m.owner then .next (s.dropMsg k)
  else if !s.placesFor [t] then .next s
  else
    let s := (s.dropMsg k).raiseLclk tile time
    .next (State.touchTok { s with net := s.net ++ [t] } m.owner)

/-- No earlier reply of the same class to the agent has arrived from the same source. -/
def State.replyFirst (s : State) (k : Nat) (m : Msg) (cls : Nat) : Bool :=
  s.noneBefore k fun e => e.agent == m.agent && e.kind.cls == cls && e.arrived && (e.flow.map FlowRef.flow) == (m.flow.map FlowRef.flow) &&
    match e.kind with | .rep .. => true | _ => false

/-- A unit is frozen by a service unit. -/
def State.isFrozen (s : State) (u : Nat) : Bool := match s.launch? u with | some l => l.frozen | none => false

/-- CONCORDANCE_REPLY (R48): a reply of the Concordance or the Granary reaches its sequencer, dependence entry or cell. A unit that a
service unit has frozen takes none meanwhile. An atomic that names no place for its reply is answered all the same (R218). -/
def execConcordanceReply (k : Nat) (s : State) : Out :=
  match s.msgs[k]?, (s.msgs[k]?.map Msg.kind : Option MsgKind) with
  | some m, some (.rep dst code fmt ok data time line) =>
    if !m.arrived || s.isFrozen m.owner || !s.replyFirst k m (replyCls code.toNat) then s.stutter
    else match dst with
    | .none => .next (if atomicCode code.toNat then (s.dropMsg k).takeAtomic m time else s.dropMsg k)
    | .seq tile => s.replySeq k m tile ⟨code, ok, data, time, line⟩
    | .dep tile e =>
      (match smFind (s.getTile tile).deps e with
       | some x => .next (((s.dropMsg k).setDep tile e { x with performed := ok }).touch m.owner)
       | none => .next (s.dropMsg k))
    | .cell dest slot field ctx iter lvl =>
      s.replyCell k m (replyTok dest slot field ⟨ctx, iter, lvl⟩ fmt ok data m.owner) code.toNat time
  | _, _ => s.stutter

/-! Packets between dies (R234, R235) -/

/-- A flow delivers a packet: in its turn, or early where delivery follows arrival. -/
def Flow.deliver (f : Flow) (seq : BitVec 16) : Flow :=
  if seq ≠ f.want then { f with early := seq :: f.early }
  else
    (List.range (f.early.length + 1)).foldl (fun f i =>
      if i = 0 || f.early.contains f.want then { f with early := f.early.filter (· != f.want), want := f.want + 1 } else f) f

/-- A packet may be delivered: classes 0, 2 and 3 keep their order, class 1 as its command or page says. -/
def State.mayArrive (s : State) (r : FlowRef) (inOrder : Bool) : Bool :=
  if r.flow % 4 = 1 && !inOrder then !(s.flow r.flow).early.contains r.seq else r.seq == (s.flow r.flow).want

/-- The flow of a packet has delivered it. -/
def State.delivered (s : State) (r : FlowRef) : State := { s with flows := smPut s.flows r.flow ((s.flow r.flow).deliver r.seq) }

/-- A message is delivered in order. -/
def MsgKind.inOrder : MsgKind → Bool
  | .streamWr _ _ _ _ _ _ _ _ o => o
  | .streamReq _ _ _ _ _ _ _ o => o
  | .streamRet _ _ _ _ o => o
  | _ => true

/-- Whose turn it is among the stream accesses at their targets: a flow in order performs in order (R235), and a migration queues those to its page
(R210). -/
def State.landTurn (s : State) (k : Nat) (m : Msg) (ty : BitVec 3) (flat : Nat) : Turn :=
  if m.held then (if s.migrating flat || s.heldPage (s.msgs.take k) flat then .wait else .go)
  else if m.kind.inOrder && !s.noneBefore k (fun e => e.arrived && !e.held && e.kind.inOrder && e.kind.cls == 1 && e.flow.isSome &&
      e.flow.map FlowRef.flow == m.flow.map FlowRef.flow) then .wait
  else if ty ≠ 0 then .go
  else if s.migrating flat then .queue
  else if s.heldPage s.msgs flat then .wait
  else .go

/-- A stream access that has reached its target performs there, or is queued by a migration (R210, R229). -/
def State.land (s : State) (k : Nat) (m : Msg) : Out :=
  match m.kind with
  | .streamWr pn mask ty _ flat _ d clk _ =>
    (match s.landTurn k m ty flat with
     | .wait => s.stutter
     | .queue => .next (s.queueMsg k)
     | .go => match s.streamLand (pn / 4) (pn % 4) m.agent m.owner m.run ty flat mask d clk with
       | some s => .next ((s.dropMsg k).modHead (pn / 4) (pn % 4) m.owner fun c => { c with waiting := c.waiting - 1 })
       | none => .next (s.askRebase (homeDie flat)))
  | .streamReq pn key bytes ty home flat lim o =>
    (match s.landTurn k m ty flat with
     | .wait => s.stutter
     | .queue => .next (s.queueMsg k)
     | .go => match s.serveRead pn key ⟨0, bytes⟩ ty home flat lim m.agent m.owner o with
       | .done s => .next (s.dropMsg k)
       | .wait s => .next s
       | .fault _ _ => s.stutter)
  | _ => s.stutter

/-- Marks a message as arrived, behind those that arrived before it. -/
def State.markMsg (s : State) (k : Nat) (m : Msg) : State := { s with msgs := removeAt s.msgs k ++ [{ m with arrived := true }] }

/-- A packet that carries a message reaches its die. -/
def State.msgArrive (s : State) (k : Nat) (m : Msg) (r : FlowRef) : Out :=
  if !s.mayArrive r m.kind.inOrder then s.stutter
  else
    let s := (s.delivered r).markMsg k m
    let j := s.msgs.length - 1
    match m.kind with
    | .streamWr .. => s.land j { m with arrived := true }
    | .streamReq .. => s.land j { m with arrived := true }
    | .accessRep flat _ w d => .next (if w then s.dropMsg j else (s.dropMsg j).giveBytes m.agent flat d.toNat)
    | _ => .next s

/-- A stream access that has arrived at a target of this package. -/
def MsgKind.lands : MsgKind → Bool
  | .streamWr _ _ ty .. => ty != 1 && ty != 2
  | .streamReq .. => true
  | _ => false

/-- FLOW_PACKET_ARRIVE (R234, R235). `k` counts the messages, then the tokens. A stream access that waits at its target, or that a migration has
queued, performs by this event too. A token enters the network of its die at its cell (DESIGN CHOICE, log 58). -/
def execFlowPacketArrive (k : Nat) (s : State) : Out :=
  match s.msgs[k]? with
  | some m =>
    if m.arrived then (if m.kind.lands then s.land k m else s.stutter)
    else
      (match m.flow with
       | some r => s.msgArrive k m r
       | none => s.stutter)
  | none =>
    let j := k - s.msgs.length
    match s.net[j]? with
    | some t =>
      (match t.flow with
       | some r =>
         if t.arrived || !s.mayArrive r true then s.stutter
         else
           let s := s.delivered r
           .next (State.touchTok { s with net := listSet s.net j { t with pos := destCell t.tok.dest, arrived := true } } t.owner)
       | none => s.stutter)
    | none => s.stutter

end Sys2Proof.Machine
end

