-- ==== Sys2Proof/Machine/Drains.lean ====
section
/-! DEFINITION. Drains (R170-R173), quiescence and its snapshots (R167-R169), and the watchdog (R175). A drain's two flags say where it stands:
not started; started, its pass in the static fabric; started and settling, the token fabric idle; settling alone, ready to complete. -/

namespace Sys2Proof.Machine

/-! Beats in the static fabric (R170, R171) -/

/-- A drain beat lies in a plane of a cell. -/
def CellPlane.hasBeat (p : CellPlane) : Bool :=
  p.links.any (fun e => e.2.any (·.beat)) || p.outq.any (fun e => e.2.any (·.beat)) || p.pend.any (fun e => e.2.any (·.1.beat)) ||
    p.delays.any fun e => e.2.any fun x => x.2 == 7

/-- A drain beat lies in a region. -/
def State.beatsIn (s : State) (l : Launch) : Bool :=
  l.cells.any fun c => match smFind s.cells c with | some x => (smGet CellPlane.reset x.planes l.activePlane).hasBeat | none => false

/-- A stream-port source of a region (R69, R170): a V-cell with a stage that takes from its stream port, or a B-cell whose input is its
stream port. -/
def CellPlane.portSource (p : CellPlane) (c : Nat) : Bool :=
  (isVCell c && (upFrom 1 6).any fun n => p.stage n != 0 && ((stageF (p.stage n)).srcA == 3 || (stageF (p.stage n)).srcB == 3)) ||
    (isBCell c && (bmMode p.mode.toNat == 2 || bmMode p.mode.toNat == 3) && routeSrc p.route.toNat 4 == 0)

/-- Changes the drain of a unit. -/
def State.modDrain (s : State) (u : Nat) (f : Drain → Drain) : State := s.modLaunch u fun l => { l with drain := l.drain.map f }

/-- Orphans of a unit's drain. -/
def State.orphan (s : State) (u n : Nat) : State := s.modDrain u fun d => { d with orphans := d.orphans + n }

/-- DRAIN_PASS_START (R170): the first pass begins, a beat behind the last data at every stream-port source. -/
def execDrainPassStart (u : Nat) (s : State) : Out :=
  match s.launch? u with
  | none => s.stutter
  | some l =>
    match l.drain with
    | none => s.stutter
    | some d =>
      if d.started || d.settling || !l.goes then s.stutter
      else
        let s := l.cells.foldl (fun s c => match smFind s.cells c with
          | some x =>
            if (smGet CellPlane.reset x.planes l.activePlane).portSource c then s.modCp c fun p => p.setLink lkSin (p.link lkSin ++ [beatFlit]) else s
          | none => s) s
        .next ((s.modDrain u fun d => { d with started := true }).touch u)

/-- The stream sources of a stage: which of srcA and srcB, and its code. -/
def StageF.streams (f : StageF) : List (Bool × Nat) :=
  [(false, f.srcA), (true, f.srcB)].filter fun x => x.2 == 1 || x.2 == 2 || x.2 == 3 || x.2 == 6

/-- What stands first at a stream source, a beat ahead of side flits that wait at the port. -/
def State.drainHead (s : State) (c n : Nat) (x : Bool × Nat) : Head :=
  match (s.cp c).source n x.2 ((s.cp c).stageFields n).k, smGet [] (s.cp c).conv (2 * n + if x.1 then 1 else 0) with
  | y :: _, [] => if y.beat && x.2 != 6 then .flit y else s.head c n x.1
  | _, _ => s.head c n x.1

/-- Takes what stands first at a stream port or at what the switch box sends a cell, whatever side flits wait there. -/
def State.popFirst (s : State) (c code : Nat) : State :=
  s.modCp c fun p => if code = 3 then p.setLink lkSin ((p.link lkSin).drop 1) else p.setBox 4 ((p.box 4).drop 1)

/-- Takes a beat from a stream source. -/
def State.popBeat (s : State) (c n : Nat) (x : Bool × Nat) : State :=
  if x.2 = 2 || x.2 = 3 then s.popFirst c x.2 else s.popRaw c n x.2 ((s.cp c).stageFields n).k

/-- A stage waits at a source for a side flit that no stream delivers any more, and a code flit stands there (R94, R178): the state without that flit.
It is an orphan, so that the beat behind it goes on (DEDUCED, log 60). -/
def State.starved (s : State) (c n : Nat) (x : Bool × Nat) : Option State :=
  let p := s.cp c
  let f := p.stageFields n
  let code := match p.source n x.2 f.k with | y :: _ => !y.beat && !y.isSide | [] => false
  if !code || !p.side.isEmpty then none
  else if s.sideNext c n x.2 then some (s.popFirst c x.2)
  else if n == 1 && (f.op == 0x24 || f.op == 0x28) && !x.1 && p.needsSide f && (x.2 == 3 || s.gathers c) then some (s.pop c n x.1)
  else none

/-- An earlier stage writes a delay line. -/
def CellPlane.delayFed (p : CellPlane) (l n : Nat) : Bool :=
  (upFrom 1 (n - 1)).any fun m => let f := p.stageFields m; f.dst == 6 && bitsOf f.k 13 8 == l

/-- A beat is waited for at a source: a delay line that only this stage or a later one writes gets none (DEDUCED, log 59). -/
def CellPlane.beatDue (p : CellPlane) (n : Nat) (x : Bool × Nat) : Bool := x.2 != 6 || p.delayFed (bitsOf (p.stageFields n).k 13 8) n

/-- The side flits left in a cell's stream port when a beat reaches the stage that takes them are orphans (R178). -/
def State.dropSide (s : State) (c n : Nat) (xs : List (Bool × Nat)) : Nat × State :=
  if n == 1 || (n == 2 && (s.cp c).stage 1 == 0) || xs.any (fun x => x.2 == 3) then ((s.cp c).side.length, s.modCp c fun p => { p with side := [] }) else (0, s)

/-- Clears the part of a row that a stage holds: one orphan if it holds one (R171), with the flits that go ahead of the beat. A MASKT row, the
group of a PASS, and values of QPACK that make no code flit are cleared without counting; the elements that a CVT has gathered for its next flit
count as one (DEDUCED, log 60). -/
def State.clearPart (s : State) (c n : Nat) : Nat × List (Flit × Nat) × State :=
  let p := s.cp c
  let f := p.stageFields n
  match f.op with
  | 0xE0 | 0xE1 | 0xE2 => (if p.rowBlk ≠ 0 then 1 else 0, [], s.modCp c fun p => { p with accs := smDel (smDel (smDel (smDel p.accs 300) 301) 304) 305, netx := [] })
  | 0xE4 => (if p.netx.isEmpty then 0 else 1, [], s.modCp c fun p => { p with netx := [] })
  | 0x64 | 0x65 =>
    let e := f.k % 256
    if (smGet ⟨0, 0⟩ p.accs e).count = 0 then (0, [], s)
    else (1, [], (s.setLocalLine c (0x1000 + 64 * e) 0).modCp c fun p => { p with accs := smDel p.accs e })
  | 0x22 | 0x23 | 0x24 | 0x28 =>
    (if p.row.code ≠ 0 || p.row.held.isSome || p.row.left ≠ 0 then 1 else 0, [], s.modCp c fun p => { p with row := RowSt.empty })
  | 0x21 => (if p.row.outs.isEmpty then 0 else 1, [], s.modCp c fun p => { p with row := RowSt.empty })
  | 0x20 | 0x27 => (0, [], s.modCp c fun p => { p with row := RowSt.empty })
  | 0xC4 => (0, if p.qcodes.isEmpty then [] else sendCodes p.qcodes 0, s.modCp c fun p => { p with qvals := [], qcodes := [] })
  | _ => (0, [], s)

/-- The outputs that a stopped stage has yet to send, and a NETX group in its layers, are dropped: one orphan if there are any (R107, log 60). -/
def State.clearOuts (s : State) (c n : Nat) : Nat × State :=
  let p := s.cp c
  let bank := n == 2 && p.bank.isSome
  (if bank || !(smGet [] p.pend n).isEmpty then 1 else 0,
   s.modCp c fun p => { p with pend := smDel p.pend n, bank := if n == 2 then none else p.bank })

/-- A beat at a stage (R171): at a join the flits of the other input are orphans until both heads are beats; then one beat goes on, behind the outputs
of the stage's firings. A stage that a stream's fault has stopped fires no more, so that the flits it holds are orphans too (R107, log 60). -/
def State.drainStage (s : State) (u c n : Nat) (halted : Bool) : Out :=
  let p := s.cp c
  let f := p.stageFields n
  let xs := f.streams
  let macroOp := (stageF (p.stage 2)).op ≥ 0xE0
  let beat := xs.any fun x => (s.drainHead c n x).beat
  if !isVCell c || n < 1 || n > 6 || (macroOp && (n == 3 || n == 4)) then s.stutter
  else match xs.findSome? (s.starved c n), xs.find? fun x => (s.drainHead c n x).data with
  | some s, _ => .next ((s.orphan u 1).touch u)
  | none, some x => if beat || halted then .next (((s.pop c n x.1).orphan u 1).touch u) else s.stutter
  | none, none =>
    if !beat || xs.any (fun x => !(s.drainHead c n x).beat && p.beatDue n x) || !p.dstFree n ||
        (!halted && (!(smGet [] p.pend n).isEmpty || (n == 2 && p.bank.isSome))) then s.stutter
    else
      let outs := s.clearOuts c n
      let took := xs.foldl (fun t x => if (s.drainHead c n x).beat then t.popBeat c n x else t) outs.2
      let side := took.dropSide c n xs
      let part := side.2.clearPart c n
      .next (((part.2.2.emitOuts c n (part.2.1 ++ [(beatFlit, 0)])).orphan u (outs.1 + side.1 + part.1)).touch u)

/-- A beat at a B-cell (R171): it leaves a FIFO behind its contents, and clears a LINEBUF's lines. -/
def State.drainStore (s : State) (u c : Nat) : Out :=
  let p := s.cp c
  let mode := bmMode p.mode.toNat
  match p.bIn with
  | x :: _ =>
    if !isBCell c || !x.beat || !(mode == 3 || (mode == 2 && p.fifoTags.isEmpty)) || (p.link lkOut).length ≥ 2 then s.stutter
    else
      .next ((s.modCp c fun p =>
        let p := p.bPop
        { (p.setLink lkOut (p.link lkOut ++ [x])) with fifoRd := if mode = 3 then 0 else p.fifoRd, lineTags := [] }).touch u)
  | [] => s.stutter

/-- An S2T absorbs a beat and is switched (R171). -/
def State.drainS2t (s : State) (u c : Nat) : Out :=
  match (s.cp (c - 1)).box 1 with
  | x :: r =>
    if !x.beat || !s.s2tOn c then s.stutter
    else .next (((s.modCp (c - 1) fun p => p.setBox 1 r).modCp c fun p => { p with s2t := { p.s2t with switched := true } }).touch u)
  | [] => s.stutter

/-- A beat at a cell output: a stream output, or an output that no box takes, absorbs it (R171). -/
def State.drainOut (s : State) (u c : Nat) : Out :=
  match (s.cp c).link lkOut with
  | x :: r =>
    if x.beat && ((s.cp c).named 5).isEmpty then .next ((s.modCp c fun p => p.setLink lkOut r).touch u) else s.boxMove c 4 false fun x => x.beat
  | [] => s.stutter

/-- DRAIN_BEAT (R171): a beat moves at a place of a cell: 1 to 6 a stage, 7 a B-cell, 8 an S2T, 10 to 13 a switch-box output, 14 the cell
output. -/
def execDrainBeat (cell place : Nat) (s : State) : Out :=
  let u := s.cellUnit cell
  match s.launch? u with
  | none => s.stutter
  | some l =>
    if l.drain.isNone || !s.cellGoes cell then s.stutter
    else if place ≤ 6 then s.drainStage u cell place l.halted
    else if place = 7 then s.drainStore u cell
    else if place = 8 then s.drainS2t u cell
    else if 10 ≤ place && place ≤ 13 then s.boxMove cell (place - 10) false fun x => x.beat
    else if place = 14 then s.drainOut u cell
    else s.stutter

/-! Settling (R172) -/

/-- A token in flight to a region, that no frozen level claims. -/
def State.settles (s : State) (l : Launch) (t : NetTok) : Bool := t.arrived && l.holds (destCell t.tok.dest) && !s.frozenLevel t

/-- Something of the token fabric remains in a region: a token, a block or a flit at a converter. -/
def State.tokensIn (s : State) (l : Launch) : Bool :=
  s.net.any (s.settles l) || l.cells.any fun c => match smFind s.cells c with
    | some x =>
      let p := smGet CellPlane.reset x.planes l.activePlane
      x.block.isSome || p.store.any (fun e => !e.sticky) || p.chans.any (fun e => !e.2.isEmpty) || p.s2t.flit.isSome || !p.t2s.toks.isEmpty || p.t2s.closed
    | none => false

/-- The tokens a cell is left with, cleared: how many are orphans (R122, R172). A block that has not begun its commit is abandoned (DEDUCED,
log 61). -/
def State.settleCell (s : State) (c : Nat) : Nat × State :=
  let s := match (s.getCell c).block with | some b => if b.committing then s else s.abandon c | none => s
  let p := s.cp c
  let store := (p.store.filter fun e => !e.sticky && e.tok.field != 3).length
  let chans := (p.chans.map fun e => e.2.length).sum
  let s2t := if p.s2t.flit.isSome then 8 - p.s2t.next else 0
  (store + chans + s2t, s.modCp c fun p =>
    { p with store := [], chans := [], s2t := { p.s2t with flit := none, next := 0, side := none, group := 0 } })

/-- A T2S at a settling: at its first it sends what it builds and its beat, later the tokens it holds are orphans. One whose way out has no room for
them sends them at the next settling (DEDUCED, log 61). -/
def State.settleT2s (s : State) (c : Nat) : Nat × Bool × State :=
  let q := (s.cp c).t2s
  if !s.t2sOn c then (0, false, s)
  else if q.beatSent then (q.toks.length, false, s.modCp c fun p => { p with t2s := { q with toks := [], closed := false, mark := 0 } })
  else
    let flits := if q.toks.isEmpty && !q.closed then [] else [{ q with mark := if q.closed then q.mark else 0 }.flitOf]
    let m := s.cp (c - 1)
    if (m.named 2).any fun o => decide ((m.box o).length + flits.length ≥ 2) then (0, true, s)
    else
    let s := s.modCp (c - 1) fun p => (flits ++ [beatFlit]).foldl (fun p x => p.intoBox (p.named 2) x) p
    (0, true, s.modCp c fun p => { p with t2s := { q with toks := [], closed := false, mark := 0, beatSent := true } })

/-- The token fabric of a region settles: the orphans, and whether a T2S sent a beat. -/
def State.settle (s : State) (l : Launch) : Nat × Bool × State :=
  let gone := s.net.filter (s.settles l)
  let n := (gone.filter fun t => t.tok.field != 3).length
  let s : State := { s with net := s.net.filter fun t => !s.settles l t }
  let cs := l.cells.filter fun c => isTCell c && (smFind s.cells c).isSome
  let a := cs.foldl (fun (acc : Nat × State) c => let r := acc.2.settleCell c; (acc.1 + r.1, r.2)) (n, s)
  cs.foldl (fun (acc : Nat × Bool × State) c => let r := acc.2.2.settleT2s c; (acc.1 + r.1, acc.2.1 || r.2.1, r.2.2)) (a.1, false, a.2)

/-- TOKEN_FABRIC_SETTLE (R170, R172): no beat of the pass remains, so the fabric begins to settle; at once when nothing remains in it, and after
256 idle clk otherwise, it settles. -/
def execTokenFabricSettle (u : Nat) (s : State) : Out :=
  match s.launch? u with
  | none => s.stutter
  | some l =>
    match l.drain with
    | none => s.stutter
    | some d =>
      if !d.started || !l.goes then s.stutter
      else if !d.settling then
        (if s.beatsIn l then s.stutter else .next (s.modLaunch u fun l => { l with still := 0, drain := some { d with settling := true } }))
      else if s.tokensIn l && l.still < 256 then s.stutter
      else
        let r := s.settle l
        .next (r.2.2.modDrain u fun d =>
          if r.2.1 then { d with orphans := d.orphans + r.1, settling := false } else { d with orphans := d.orphans + r.1, started := false })

/-! Completion (R170, R172, R173) -/

/-- What R173 leaves in a plane of a cell. -/
def CellPlane.emptied (p : CellPlane) : CellPlane :=
  { p with links := [], conv := [], outq := [], side := [], row := RowSt.empty, accs := [], qvals := [], qcodes := [], netx := [], bank := none, pend := [], egate := 0,
           delays := [], store := [], chans := [], fifoTags := [], fifoRd := if bmMode p.mode.toNat = 3 then 0 else p.fifoRd, lineTags := [],
           s2t := ⟨none, 0, none, 0, 0, false⟩, t2s := ⟨[], 0, 0, 0, false, 0, false⟩, hops := [] }

/-- The active plane of every cell of a region is left as R173 gives, and the accumulator entries of its V-cells are zero. -/
def State.emptyRegion (s : State) (l : Launch) : State :=
  l.cells.foldl (fun s c => match smFind s.cells c with
    | some x => (match smFind x.planes l.activePlane with
      | some p =>
        let s := s.setPlane c l.activePlane p.emptied
        if isVCell c then { s with mem := memClear s.mem (cellBase c + 0x1000) 0x4000 } else s
      | none => s)
    | none => s) s

/-- An UNBALANCED drain's Vault event (R172, R345). -/
def State.drainEvent (s : State) (u n : Nat) : State := if n = 0 then s else s.vaultUnit u 0x0E 0x4C (min n (2 ^ 32 - 1))

/-- The status that no CFG.DRAIN has returned is kept (R172). -/
def keepOrphans (k : Option Nat) (n : Nat) : Option Nat := some (min (k.getD 0 + n) (2 ^ 32 - 1))

/-- The region is drained: what a completed drain leaves of the launch, by its reason. -/
def Launch.drainedBy (l : Launch) (d : Drain) : Launch :=
  let l := { l with drain := none, drained := true }
  match d.why with
  | .step | .preempt => { l with kept := keepOrphans l.kept d.orphans }
  | .host => { l with kept := keepOrphans l.kept d.orphans, run := false }
  | .stop | .cancel => l

/-- DRAIN_COMPLETE (R170): no T2S sent a beat at the settling. -/
def execDrainComplete (u : Nat) (s : State) : Out :=
  match s.launch? u with
  | none => s.stutter
  | some l =>
    match l.drain with
    | none => s.stutter
    | some d =>
      if d.started || !d.settling then s.stutter
      else .next (((s.emptyRegion l).drainEvent u d.orphans).modLaunch u fun l => l.drainedBy d)

/-! Quiescence (R167-R169) -/

/-- A snapshot record (R168). -/
structure SnapRec where
  cell : Nat
  index : Nat
  kind : Nat
  count : Nat
  data : Word
  tag : Nat
  word : Nat
  deriving DecidableEq, Repr

/-- The 32 bytes of a record, as a number. -/
def SnapRec.bytes (r : SnapRec) : Nat :=
  (destCode r.cell).toNat + r.index % 64 * 2 ^ 18 + r.kind * 2 ^ 24 + r.count % 2 ^ 32 * 2 ^ 32 + r.data.toNat * 2 ^ 64 + r.tag * 2 ^ 128 +
    r.word % 2 ^ 32 * 2 ^ 160

/-- The tag word of a record. -/
def snapTag (iter : BitVec 10) (ctx : BitVec 8) (lvl : BitVec 3) (fmt : BitVec 3) (field : BitVec 2) : Nat :=
  iter.toNat + ctx.toNat * 2 ^ 10 + lvl.toNat * 2 ^ 18 + fmt.toNat * 2 ^ 21 + field.toNat * 2 ^ 24

/-- The tag word of a token. -/
def Token.snap (t : Token) : Nat := snapTag t.iter t.ctx t.lvl t.fmt t.field

/-- The record of a slot's waiting tokens, held sticky L included. -/
def snapSlot (c : Nat) (p : CellPlane) (i : Nat) : Option SnapRec :=
  match p.store.filter fun e => e.tok.slot.toNat == i && !e.busy with
  | e :: r => some ⟨c, i, 0, r.length + 1, e.tok.data, e.tok.snap, 0⟩
  | [] => none

/-- The record of a channel. -/
def snapChan (c : Nat) (p : CellPlane) (i : Nat) : Option SnapRec :=
  match p.chan i with
  | e :: r => some ⟨c, i, 1, r.length + 1, e.data, snapTag 0 e.ctx 0 e.fmt 0, 0⟩
  | [] => none

/-- The record of a held block. -/
def snapBlock (c : Nat) (b : Option Block) (i : Nat) : Option SnapRec :=
  match b with
  | some b =>
    if b.slot.toNat = i && (b.exiting.isSome || b.held) then
      some ⟨c, i, if b.exiting.isSome then 2 else 3, 1, b.l.data, snapTag b.iter b.ctx b.lvl b.l.fmt 0, if b.exiting.isSome then b.pc - 1 else b.pc⟩
    else none
  | none => none

/-- The record of the flits at a stage's input, the converter and the ports included (DEDUCED, log 62). -/
def snapLink (c : Nat) (p : CellPlane) (i : Nat) : Option SnapRec :=
  let conv := smGet [] p.conv (2 * i) ++ smGet [] p.conv (2 * i + 1)
  match conv ++ (if i = 1 then p.box 4 ++ p.link lkSin ++ p.side else p.link i) with
  | x :: r => if 1 ≤ i && i ≤ 6 then some ⟨c, i, 6, r.length + 1, x.data.setWidth 64, snapTag 0 0 0 x.fmt 0, 0⟩ else none
  | [] => none

/-- The record of an S2T. -/
def snapS2t (c : Nat) (p : CellPlane) (i : Nat) : Option SnapRec :=
  match p.s2t.flit with
  | some x => if i = 0 then some ⟨c, 0, 4, 8 - p.s2t.next, x.data.extractLsb' (64 * p.s2t.next) 64, snapTag 0 0 0 x.fmt 0, 0⟩ else none
  | none => none

/-- The record of a T2S; a zero flit that a marker closed is one occupant (DEDUCED, log 62). -/
def snapT2s (c : Nat) (p : CellPlane) (i : Nat) : Option SnapRec :=
  match p.t2s.toks with
  | w :: r => if i = 0 then some ⟨c, 0, 5, r.length + 1, w, snapTag p.t2s.iter p.t2s.ctx 0 p.t2s.fmt 0, 0⟩ else none
  | [] => if i = 0 && p.t2s.closed then some ⟨c, 0, 5, 1, 0, snapTag p.t2s.iter p.t2s.ctx 0 p.t2s.fmt 0, 0⟩ else none

/-- The record of a port's queue, at the first cell of its tile; its data is the head's pattern base or destination (DEDUCED, log 62). -/
def snapQueue (c : Nat) (t : Tile) (i : Nat) : Option SnapRec :=
  match (t.port i).entries with
  | e :: r =>
    if i < 4 && cellLocal c = 0 then
      some ⟨c, i, 7, r.length + 1, match e with | .cmd x => if x.op.toNat < 4 then BitVec.ofNat 64 x.pat.base else x.d | .fence _ => 0, 0, 0⟩
    else none
  | [] => none

/-- The record of a hold buffer; its index is the level's depth. -/
def snapHold (c : Nat) (x : Cell) (i : Nat) : Option SnapRec :=
  match (smGet [] x.hold (levelCtx i).toNat) with
  | t :: r => some ⟨c, i, 8, r.length + 1, t.tok.data, t.tok.snap, 0⟩
  | [] => none

/-- The records of a cell, by index and then by kind. -/
def State.snapCell (s : State) (l : Launch) (c : Nat) : List SnapRec :=
  let x := s.getCell c
  let p := smGet CellPlane.reset x.planes l.activePlane
  let t := s.getTile (cellTile c)
  (List.range 64).flatMap fun i =>
    [snapSlot c p i, snapChan c p i, snapBlock c x.block i, snapS2t c p i, snapT2s c p i, snapLink c p i, snapQueue c t i, snapHold c x i].filterMap id

/-- The cells of a region in the order of their numbers. -/
def Launch.cellsInOrder (l : Launch) : List Nat := l.cells.mergeSort fun a b => decide (a ≤ b)

/-- The records of a region. -/
def State.snapRecs (s : State) (l : Launch) : List SnapRec := l.cellsInOrder.flatMap (s.snapCell l)

/-- The status word of a snapshot window. -/
def State.snapStat (s : State) (die w : Nat) : Nat := memRead s.mem (snapBase die w) 8

/-- Writes the status word of a snapshot window. -/
def State.setSnap (s : State) (die w v : Nat) : State := { s with mem := memWrite s.mem (snapBase die w) 8 v }

/-- A free snapshot window: the lowest whose valid bit is 0 (log 25). -/
def State.freeWindow (s : State) (die : Nat) : Option Nat := (List.range 4).find? fun w => !bitOf (s.snapStat die w) 63

/-- Writes a snapshot window (R168). -/
def State.writeSnap (s : State) (die w : Nat) (l : Launch) (limit : Nat) (held : Bool) : State :=
  let rs := s.snapRecs l
  let m := memClear s.mem (snapBase die w) 65536
  let stat := 2 ^ 63 + (if held then 2 ^ 60 else 0) + (if rs.length > 2046 then 2 ^ 59 else 0) + die * 2 ^ 32 + l.id.toNat
  let m := memWrite m (snapBase die w) 8 stat
  let m := memWrite m (snapBase die w + 8) 8 l.firstIdle
  let m := memWrite m (snapBase die w + 16) 8 l.unitClk
  let m := memWrite m (snapBase die w + 24) 4 limit
  let m := memWrite m (snapBase die w + 28) 4 (min rs.length 2046)
  { s with mem := ((rs.take 2046).zipIdx).foldl (fun m r => memWrite m (snapBase die w + 64 + 32 * r.2) 32 r.1.bytes) m }

/-- The detector's cause at the lead tile of a unit. -/
def State.quiescent (s : State) (u : Nat) (l : Launch) : State := s.faultLaunch u 0xE1 (l.region.headD 0) 0

/-- QWC_DETECT (R167-R169): the idle counter has reached QWC_LIMIT. With no free window the snapshot is the Vault event alone and policy 1 acts
as policy 0. -/
def execQwcDetect (u : Nat) (s : State) : Out :=
  match s.launch? u with
  | none => s.stutter
  | some l =>
    let lead := l.region.headD 0
    let die := tileDie lead
    let limit := (s.getTile lead).spr.qwcLimit.toNat
    if !(l.st == .running || l.st == .pending) || l.held || l.frozen || l.idle < limit || (s.getTile lead).owner ≠ some u then s.stutter
    else
      let s := s.vaultUnit u 0x0D 0 0
      match s.freeWindow die with
      | some w =>
        let s := (s.writeSnap die w l limit l.qwcHold).interrupt (16 + die)
        .next (if l.qwcHold then s.modLaunch u fun l => { l with held := true, window := some (die, w), idle := 0 } else s.quiescent u l)
      | none => .next (s.quiescent u l)

/-- The held launch of a window. -/
def State.heldBy (s : State) (die w : Nat) : Option (Nat × Launch) := s.launches.find? fun e => e.2.held && e.2.window == some (die, w)

/-- An action is taken: the region is held no more, and the status word reads action 0 (R168, R169). -/
def State.unhold (s : State) (die w u : Nat) : State :=
  (s.setSnap die w (setBits (setBits (BitVec.ofNat 64 (s.snapStat die w)) 62 61 0) 60 60 0).toNat).modLaunch u fun l =>
    { l with held := false, window := none, idle := 0, still := 0 }

/-- A host's action on a held region: 1 resume, 2 drain, 3 fault (R169). -/
def State.snapAct (s : State) (die w action : Nat) : State :=
  match s.heldBy die w with
  | none => s
  | some (u, l) =>
    let s := s.unhold die w u
    match action with
    | 1 => s
    | 2 => if l.drain.isSome then s else s.modLaunch u fun l => { l with drain := some ⟨.host, false, false, 0⟩ }
    | _ => s.quiescent u l

/-- SNAPSHOT_RESUME (R169). -/
def execSnapshotResume (die w : Nat) (s : State) : Out := .next (s.snapAct die w 1)
/-- SNAPSHOT_DRAIN (R169). -/
def execSnapshotDrain (die w : Nat) (s : State) : Out := .next (s.snapAct die w 2)
/-- SNAPSHOT_FAULT (R169). -/
def execSnapshotFault (die w : Nat) (s : State) : Out := .next (s.snapAct die w 3)

/-- A window whose held bit is 0 is freed (R168): its status word reads as after a reset (DEDUCED, log 74). -/
def State.snapFree (s : State) (die w : Nat) : State :=
  let v := s.snapStat die w
  if bitOf v 63 && !bitOf v 60 then s.setSnap die w 0 else s

/-- SNAPSHOT_FREE (R168). -/
def execSnapshotFree (die w : Nat) (s : State) : Out := if die < 16 && w < 4 then .next (s.snapFree die w) else s.stutter

/-- WATCHDOG (R175): the step in progress is abandoned and the launch faults with 0xE0. -/
def execWatchdog (u : Nat) (s : State) : Out :=
  match s.launch? u with
  | none => s.stutter
  | some l =>
    let lead := l.region.headD 0
    if !(l.st == .running || l.st == .pending) || l.frozen || (s.getTile lead).owner ≠ some u || l.wdog < (s.getTile lead).spr.wdog.toNat then s.stutter
    else .next (s.faultLaunch u 0xE0 lead (s.getTile lead).spc.toNat)

end Sys2Proof.Machine
end

