-- ==== Sys2Proof/Machine/Placing.lean ====
section
/-! DEFINITION. Placement (R81, R256, R257, R328, R343, R344): what a launch's record needs, where a region may be placed, which waiting unit
comes next, and the start of a unit (R12, R81). -/

namespace Sys2Proof.Machine

/-! Bad cells and candidates (R343, R344) -/

/-- A valid entry of BADNODE. -/
def State.badEntry (s : State) (die i : Nat) : Option Nat :=
  let v := (s.reg die (0x800 + 8 * i)).toNat
  if bitOf v 63 then some v else none

/-- The valid entries of a die's BADNODE. -/
def State.badEntries (s : State) (die : Nat) : List Nat := (List.range 64).filterMap (s.badEntry die)

/-- An entry lists a cell. -/
def badLists (v c : Nat) : Bool :=
  let x := destCell (BitVec.ofNat 18 v)
  if bitOf v 62 then cellTile x == cellTile c else x == c

/-- An entry lists a whole tile. -/
def badListsTile (v t : Nat) : Bool := bitOf v 62 && cellTile (destCell (BitVec.ofNat 18 v)) == t

/-- The cells a folio uses, as it was built (R344). -/
def Folio.usedCells (f : Folio) : List Nat := (f.configs.flatMap ConfigImg.cells).eraseDups

/-- The folio enables a seam converter (R124, R344). -/
def Folio.converts (f : Folio) : Bool :=
  f.configs.any fun c => c.routeList.any fun e => cellCol e.1 == 47 && (routeSrc e.2 1 != 0 || (List.range 5).any fun o => routeSrc e.2 o == 2)

/-- A placement: the tiles of the region in order, how far the cells move within their tiles, and how far the tiles move. -/
structure Place where
  tiles : List Nat
  move : Int × Int
  tileMove : Int × Int
  deriving DecidableEq, Repr

/-- A run of integers. -/
def intsFrom (lo : Int) (n : Nat) : List Int := (List.range n).map fun (i : Nat) => lo + i

/-- Candidate 1: the folio's own positions on a die. -/
def Folio.ownPlace (f : Folio) (die : Nat) : Place := ⟨f.region.map fun t => tileNo die t.trow t.tcol, (0, 0), (0, 0)⟩

/-- A cell stays in its own tile when it moves. -/
def staysInTile (c : Nat) (m : Int × Int) : Bool :=
  let r := (cellRow c % 8 : Nat) + m.1
  let k := (cellCol c % 8 : Nat) + m.2
  decide (0 ≤ r) && decide (r < 8) && decide (0 ≤ k) && decide (k < 8)

/-- Candidates 2: the same tiles with every cell moved, in order of |Δr| + |Δc|, then Δr, then Δc. -/
def Folio.cellMoves (f : Folio) (die : Nat) : List Place :=
  if f.converts then []
  else
    let all := (upFrom 1 14).flatMap fun n => (intsFrom (-7) 15).flatMap fun r => (intsFrom (-7) 15).filterMap fun c =>
      if r.natAbs + c.natAbs == n && n % 2 == 0 then some (r, c) else none
    (all.filter fun m => f.usedCells.all fun c => staysInTile c m).map fun m => { f.ownPlace die with move := m }

/-- A tile moved by rows and columns, none where it leaves the die or turns from static to token or back. -/
def movedTile (t : TileImg) (m : Int × Int) : Option Nat :=
  let r := (t.trow : Int) + m.1
  let k := (t.tcol : Int) + m.2
  if decide (0 ≤ r) && decide (r < 10) && decide (0 ≤ k) && decide (k < 10) && (decide (t.tcol < 6) == decide (k < 6)) then some (10 * r + k).toNat
  else none

/-- Candidates 3: the whole region moved by tiles, in order of the lead tile's number. -/
def Folio.tileMoves (f : Folio) (die : Nat) : List Place :=
  match f.region with
  | [] => []
  | lead :: _ => (List.range 100).filterMap fun n =>
    let m : Int × Int := ((n / 10 : Nat) - (lead.trow : Int), (n % 10 : Nat) - (lead.tcol : Int))
    let ts := f.region.map fun t => movedTile t m
    if m == (0, 0) || (f.converts && m.2 != 0) || ts.any Option.isNone then none
    else some ⟨ts.map fun t => die * 100 + t.getD 0, (0, 0), m⟩

/-- The candidates on a die, in order. -/
def Folio.candidates (f : Folio) (die : Nat) : List Place := f.ownPlace die :: (f.cellMoves die ++ f.tileMoves die)

/-- Where a placement puts a cell of the folio. -/
def Place.cell (p : Place) (die c : Nat) : Nat := shiftCell c die (8 * p.tileMove.1 + p.move.1, 8 * p.tileMove.2 + p.move.2)

/-- No cell that the folio uses is listed in BADNODE where a placement puts it. -/
def State.clearOf (s : State) (f : Folio) (die : Nat) (p : Place) : Bool :=
  let bad := s.badEntries die
  bad.isEmpty || bad.all fun v => !p.tiles.any (badListsTile v) && !f.usedCells.any fun c => badLists v (p.cell die c)

/-- Where a folio is placed on a die (R344); an excluded die places nothing (R353). -/
def State.placeOn (s : State) (f : Folio) (die : Nat) : Option Place :=
  if (s.getDie die).excluded then none else (f.candidates die).find? (s.clearOf f die)

/-- The dies a launch may be placed on, in the order they are tried (R328). -/
def Launch.dies (l : Launch) : List Nat := if l.dieFixed then [l.die] else l.die :: (List.range 16).filter (· != l.die)

/-- Where a launch is placed (R328, R344). -/
def State.placement (s : State) (l : Launch) : Option (Nat × Place) :=
  l.dies.findSome? fun d => (s.placeOn (s.folio l) d).map fun p => (d, p)

/-! Which unit comes next (R328) -/

/-- The tiles that a unit waits for: a launch's placement, or a saved unit's own tiles. -/
def State.wantedTiles (s : State) (l : Launch) : Option (List Nat) :=
  if l.st == .saved then some l.region
  else if l.st == .waiting && !l.service then (s.placement l).map fun p => p.2.tiles
  else none

/-- One unit comes before another: the lower class, then the older. -/
def Launch.before (l m : Launch) : Bool := decide (l.cls.toNat < m.cls.toNat) || (l.cls == m.cls && decide (l.age ≤ m.age))

/-- The units that wait for tiles, in their order. -/
def State.queueOfUnits (s : State) : List (Nat × Launch × List Nat) :=
  (s.launches.filterMap fun e => (s.wantedTiles e.2).map fun t => (e.1, e.2, t)).mergeSort fun a b => a.2.1.before b.2.1

/-- The first unit on a die whose tiles are free and that no unit before it waits for (DEDUCED, log 64). -/
def firstPlaceable (s : State) (die : Nat) : List (Nat × Launch × List Nat) → List Nat → Option Nat
  | [], _ => none
  | (u, _, ts) :: r, claimed =>
    if ts.all (fun t => tileDie t == die && (s.owner? t).isNone && !claimed.contains t) then some u else firstPlaceable s die r (claimed ++ ts)

/-- The unit that a die's Maltster places next; a stopped die places nothing (R346). -/
def State.nextUnit (s : State) (die : Nat) : Option Nat := if (s.getDie die).stopped then none else firstPlaceable s die s.queueOfUnits []

/-! Taking records (R81, R256, R257) -/

/-- A home lies within the scope at which a record was released (R81, R257). -/
def homeInScope (r : QRec) (home : Nat) : Bool :=
  match r.scope.toNat with
  | 0 => false
  | 1 => tileDie (agentTile r.agent) == home
  | _ => true

/-- The scope to which a record is widened for a home. -/
def scopeFor (agent home : Nat) : BitVec 2 := if tileDie (agentTile agent) = home then 1 else 2

/-- The release of a queue's oldest record covers the home of the launch record it names, once widened (R81, R257). -/
def State.recReady (s : State) (die : Nat) (x : Queue) (r : QRec) : Bool :=
  match s.recordBytes die x.vmid (r.data.toNat % 2 ^ 64) with
  | none => true
  | some (_, home) => homeInScope r home || s.producerDone r.agent (scopeFor r.agent home) r.added

/-- The record with its release widened to a home (R257). -/
def State.widenFor (s : State) (die : Nat) (x : Queue) (r : QRec) : QRec :=
  match s.recordBytes die x.vmid (r.data.toNat % 2 ^ 64) with
  | none => r
  | some (_, home) => if homeInScope r home then r else { r with scope := scopeFor r.agent home }

/-! UNIT_PLACE and UNIT_START -/

/-- The data of a placed event (R345). -/
def placedData (die : Nat) (p : Place) : Nat :=
  die + wrapNat (10 * p.tileMove.1 + p.tileMove.2) 7 * 2 ^ 4 + wrapNat p.move.1 4 * 2 ^ 11 + wrapNat p.move.2 4 * 2 ^ 15

/-- A tile belongs to a unit, and nothing of an earlier unit is left in its sequencer. -/
def Tile.takenBy (t : Tile) (u : Nat) : Tile :=
  { t with owner := some u, wait := none, reply := none, phase := 0, ld := LoadSt.empty, deps := [], tags := [], ctxs := [], pre := ⟨none, [], 0⟩ }

/-- A waiting launch is placed (R328). -/
def State.placeUnit (s : State) (u : Nat) (l : Launch) (die : Nat) (p : Place) : State :=
  let s := p.tiles.foldl (fun s t => s.modTile t fun x => x.takenBy u) s
  let s := s.setLaunch u { l with st := .placed, die := die, region := p.tiles, move := p.move, since := s.clk }
  s.vaultUnit u 0x01 0 (placedData die p)

/-- A launch that no die can place (R328, R344), looked at by the Maltster of its die, or by any when that die is excluded. -/
def State.unplaceable (s : State) (die : Nat) : Option Nat :=
  (s.launches.find? fun e => e.2.st == .waiting && !e.2.service && (e.2.die == die || (s.getDie e.2.die).excluded) && (s.placement e.2).isNone).map (·.1)

/-- The scope that a launch's record needs for its tiles; none where it covers them already (R81, R257). -/
def Launch.startScope (l : Launch) : Option (BitVec 2) :=
  let from_ := agentTile l.producer
  let covered (t : Nat) : Bool :=
    match l.recScope.toNat with
    | 0 => t == from_ && decide (l.producer < 2 ^ 32)
    | 1 => tileDie t == tileDie from_
    | _ => true
  if l.region.all covered then none else if l.region.all fun t => tileDie t == tileDie from_ then some 1 else some 2

/-- A lead sequencer at the first step of a unit: a0 and a1 as R12 gives, every other register zero. -/
def Tile.started (t : Tile) (record : Nat) (args : Word) (entry : Nat) : Tile :=
  { t with a := ((Vector.replicate 16 0).set 0 (BitVec.ofNat 64 record)).set 1 args, m := Vector.replicate 8 ⟨0, 0, 0, 0⟩,
           n := Vector.replicate 4 ⟨0, 0⟩, spc := BitVec.ofNat 64 entry, wait := none, reply := none, phase := 0, ld := LoadSt.empty }

/-- The unit issues its entry step: its launch has a start time and its counters begin. -/
def Launch.started (l : Launch) (time : BitVec 64) : Launch :=
  { l with st := .running, start := some (l.start.getD time), idle := 0, firstIdle := 0, unitClk := 0, wdog := 0, still := 0, lastTs := 0 }

/-- UNIT_START (R12, R81, R227): the widening of the launch's record has ended; every region tile takes the record's WHW. -/
def execUnitStart (u : Nat) (s : State) : Out :=
  match s.launch? u with
  | none => s.stutter
  | some l =>
    let ready : Bool := match l.startScope with | some c => s.producerDone l.producer c l.added | none => true
    if l.st != .placed || !ready then s.stutter
    else
      let s := l.region.foldl (fun s t => s.raiseLclk t l.whw) s
      let s := s.modTile (l.region.headD 0) fun t => t.started l.record l.args l.entry
      .next (s.setLaunch u (l.started s.timeNs))

end Sys2Proof.Machine
end

