-- ==== Sys2Proof/Machine/Preempt.lean ====
section
/-! DEFINITION. Pre-emption (R83, R174, R329-R334) and the service plane (R336). -/

namespace Sys2Proof.Machine

/-! Victims (R329, R330) -/

/-- A waiting unit takes a tile from a running one: it needs one of its tiles, and is of a lower class, or of the same class once the victim has
held its region for 2^20 clk. -/
def Launch.yieldsTo (l : Launch) (clk : Nat) (w : Launch) (ts : List Nat) : Bool :=
  ts.any l.region.contains && (decide (w.cls.toNat < l.cls.toNat) || (w.cls == l.cls && decide (l.since + 2 ^ 20 ≤ clk)))

/-- VICTIM_CHOSEN (R329, R330): a running unit becomes PENDING. -/
def execVictimChosen (u : Nat) (s : State) : Out :=
  match s.launch? u with
  | none => s.stutter
  | some l =>
    if l.st == .running && !l.service && s.queueOfUnits.any (fun w => l.yieldsTo s.clk w.2.1 w.2.2) then
      .next (s.setLaunch u { l with st := .pending })
    else s.stutter

/-! Stopping (R330, R331) -/

/-- Nothing saved. -/
def Saved.blank : Saved :=
  { a := Vector.replicate 16 0, m := Vector.replicate 8 ⟨0, 0, 0, 0⟩, n := Vector.replicate 4 ⟨0, 0⟩, spc := 0, spr := Special.reset, tag := 0,
    deps := [], cmds := [], waits := [], signalled := false, planes := [], stamp := 0, tags := [], ctxs := [], reply := none, wait := none,
    phase := 0, ld := LoadSt.empty, pre := ⟨none, [], 0⟩, hold := [], codes := [], carves := [],
    lfsrs := [], local_ := false }

/-- An entry of a queue that a stop leaves in it: a command that has begun, or one of another unit. -/
def QEnt.stays (e : QEnt) (u : Nat) : Bool := match e with | .cmd c => c.owner != u || c.begun | .fence _ => false

/-- The dependence entry of a queued command. -/
def QEnt.dep? (e : QEnt) : Option Nat := match e with | .cmd c => c.dep | .fence _ => none

/-- The entries of a unit's queues that pass a test, with their region tile and port. -/
def State.queued (s : State) (l : Launch) (p : QEnt → Bool) : List (Nat × Nat × QEnt) :=
  l.region.zipIdx.flatMap fun t => (List.range 4).flatMap fun q => (((s.getTile t.1).port q).entries.filter p).map fun e => (t.2, q, e)

/-- Keeps the entries of a unit's queues that pass a test. -/
def State.keepQueued (s : State) (l : Launch) (p : QEnt → Bool) : State :=
  l.region.foldl (fun s t => s.modTile t fun x =>
    { x with ports := x.ports.map fun e => if e.1 < 4 then (e.1, { e.2 with entries := e.2.entries.filter p }) else e }) s

/-- Dependence entries whose command was still queued return to ARMED with count 0, to issue ahead of new commands (R83). -/
def Tile.rearm (t : Tile) (es : List Nat) : Tile :=
  { t with deps := t.deps.map fun e => if es.contains e.1 then (e.1, { e.2 with state := .armed, count := 0, rearmed := true }) else e }

/-- Commands that have not begun, and fence markers, are taken from a unit's queues; a command with a dependence entry goes back to it. -/
def State.takeQueued (s : State) (u : Nat) (l : Launch) : State :=
  let out := s.queued l fun e => !e.stays u
  let s := s.keepQueued l fun e => e.stays u
  let s := s.modTile (l.region.headD 0) fun t => t.rearm (out.filterMap fun x => x.2.2.dep?)
  s.modLaunch u fun l => { l with saved := some { Saved.blank with cmds := out.filter fun x => x.2.2.dep?.isNone } }

/-- A unit stops: a plane exchange not yet past its freeze runs again on resume, a refill that runs is due again, and a drain goes on for itself. -/
def Launch.stopping (l : Launch) : Launch :=
  let l := match l.refilling with
    | some (p, d) => { (l.setPlane p { l.plane p with busy := false }) with refilling := none, refillDue := some d }
    | none => l
  { l with st := .stopping, callStage := 0, drain := l.drain.map fun d => { d with why := .preempt } }

/-- A plane exchange of a unit is past its freeze: it runs to its end, but for a CFG.RET's wait for a refill (R174, R310, R311, R317). -/
def Launch.pastFreeze (l : Launch) : Bool := !(l.callStage ≤ 1 || l.callStage == 11 || l.callStage == 21)

/-- PREEMPT_STOP (R174, R330): a pending victim is at a progress point. -/
def execPreemptStop (u : Nat) (s : State) : Out :=
  match s.launch? u with
  | none => s.stutter
  | some l =>
    if l.st != .pending || l.frozen || l.held || l.pastFreeze || !(s.getTile (l.region.headD 0)).atProgress then s.stutter
    else .next ((s.takeQueued u l).modLaunch u Launch.stopping)

/-- A suspended command (R331, R332): what it has performed stays, and a piece that it has read and not yet moved on is read again. -/
def Cmd.suspend (c : Cmd) : Cmd :=
  if c.num 5 = 1 then { c with suspended := true }
  else { c with suspended := true, reading := false, done := 0, buf := c.buf.filter fun e => e.1 == 4 }

/-- Read data on its way to a port. -/
def Msg.returnsTo (m : Msg) (pn owner : Nat) : Bool := m.owner == owner && match m.kind with | .streamRet p .. => p == pn | _ => false

/-- STREAM_SUSPEND (R331): a begun command has made no transfer for 256 clk while its stopping region was idle. A command that holds a flit
of the region, or that waits for an answer from outside, goes on first. -/
def execStreamSuspend (tile port : Nat) (s : State) : Out :=
  match ((s.getTile tile).port port).cmd? with
  | none => s.stutter
  | some c =>
    match s.launch? c.owner with
    | none => s.stutter
    | some l =>
      let back := s.msgs.filter fun m => m.returnsTo (portNo tile port) c.owner
      if port ≥ 4 || l.st != .stopping || !c.begun || c.cut || c.suspended || c.waiting ≠ 0 || c.quiet < 256 || l.still < 256 ||
          (c.bound && c.has 3) || back.any (fun m => !m.arrived) || s.msgs.any (fun m => m.agent == portAgent tile port) then s.stutter
      else
        let s : State := { s with msgs := s.msgs.filter fun m => !m.returnsTo (portNo tile port) c.owner }
        .next ((s.modLd (portAgent tile port) fun _ => LoadSt.empty).modHead tile port c.owner Cmd.suspend)

/-! What SAVING writes (R332, R333) -/

/-- The cells a folio uses, each where it is placed and where it was built; a granted actor cell is built as its template. -/
def State.usedPairs (s : State) (l : Launch) : List (Nat × Nat) :=
  let f := s.folio l
  let own := f.usedCells.map fun c => (l.placed f c, c)
  match l.actor with
  | none => own
  | some a =>
    let local_ := bitsOf (a.record.headD 0).toNat 5 0
    let built := match a.tiles with | t :: _ => ((own.find? fun e => e.1 == cellOf t local_).map (·.2)).getD 0 | [] => 0
    own ++ (a.tiles.drop 1).map fun t => (cellOf t local_, built)

/-- The used cells in order of region tile and tile-local index, each with the cell it was built as. -/
def State.usedInOrder (s : State) (l : Launch) : List (Nat × Nat) :=
  let ps := s.usedPairs l
  l.cells.filterMap fun c => ps.find? fun e => e.1 == c

/-- A 1 KiB granule of a cell's local memory is kept (R333): it is not kept when every configuration that gives the cell a .cell line declares
it discardable, nor are the accumulator entries beyond STATEFUL. -/
def keptGranule (xs : List CellImg) (c i : Nat) : Bool :=
  let discard := !xs.isEmpty && xs.all fun x => bitOf (if i < 64 then x.discard else x.discardHi).toNat (i % 64)
  let n := (xs.map (·.stateful)).foldl max 0
  !discard && (!(isVCell c && 4 ≤ i && i < 20) || decide (i < 4 + (n + 15) / 16))

/-- The granules of a used cell that are kept. -/
def State.granules (s : State) (l : Launch) (e : Nat × Nat) : List Nat :=
  let xs := (s.folio l).configs.filterMap fun f => f.cell? e.2
  (List.range 96).filter (keptGranule xs e.1)

/-- A range of the save area and the bytes it keeps. -/
structure Kept where
  off : Nat
  flat : Nat
  n : Nat
  deriving DecidableEq, Repr

/-- The kept granules of every used cell (order 5). -/
def State.keptLocal (s : State) (l : Launch) : List Kept :=
  (s.usedInOrder l).zipIdx.flatMap fun e => (s.granules l e.1).map fun i => ⟨0x3000 + 0x18000 * e.2 + 1024 * i, cellBase e.1.1 + 1024 * i, 1024⟩

/-- The carved granules of every region tile by their CARVE values, in order of row, column and granule (order 6). -/
def State.keptWindows (s : State) (l : Launch) (carves : List (Nat × Word)) : List Kept :=
  let base := 0x3000 + 0x18000 * (s.usedInOrder l).length
  let all := carves.flatMap fun e => ((List.range 64).map (cellOf e.1)).flatMap fun c =>
    if isVCell c then
      (List.range (bitsOf e.2.toNat (3 * (cellRow c % 8) + 2) (3 * (cellRow c % 8)))).map fun g => windowBase c + 8192 * g
    else []
  all.zipIdx.map fun e => ⟨base + 8192 * e.2, e.1, 8192⟩

/-- Where the entries of a list stand in their queues. -/
def queueOffsets (xs : List (Nat × Nat × QEnt)) : List Nat :=
  xs.zipIdx.map fun e =>
    0xC00 + 16 * (32 * e.1.1 + 8 * e.1.2.1 + ((xs.take e.2).filter fun y => y.1 == e.1.1 && y.2.1 == e.1.2.1).length)

/-- A suspended command's entry. -/
def QEnt.isSuspended (e : QEnt) : Bool := match e with | .cmd c => c.suspended | .fence _ => false

/-- Where a command's progress lies. -/
def progressAt (x : Nat × Nat × QEnt) : Nat := 0x2C00 + 16 * (4 * x.1 + x.2.1)

/-- The elements or bytes that a suspended command has performed (R332): elements of a pattern, and bytes otherwise. -/
def Cmd.progress (c : Cmd) : Nat := if c.op = 6 then 64 * c.pos else c.pos

/-- The ranges of the save area whose layout is not given (log 12): header and sequencer, dependence entries, commands. -/
def Saved.hidden (v : Saved) : List (Nat × Nat) :=
  (0, 0x400) :: (v.deps.map fun e => (0x400 + 32 * e.1, 32)) ++ (queueOffsets v.cmds).map fun o => (o, 16)

/-- The ranges of the save area of a unit's header, sequencer, entries and commands. -/
def Saved.ranges (v : Saved) : List (Nat × Nat) :=
  v.hidden ++ (v.cmds.filter fun x => x.2.2.isSuspended).map fun x => (progressAt x, 16)

/-- The first fault of an access to some ranges of a unit's save area, and its address. -/
def State.saveFault (s : State) (l : Launch) (rs : List (Nat × Nat)) (need : Need) : Option Nat :=
  rs.findSome? fun r => (s.areaFault l.die l.vmid (l.saveArea + r.1) r.2 need).map fun _ => l.saveArea + r.1

/-- Copies a kept range to the save area or back, line by line. -/
def State.areaCopy (s : State) (l : Launch) (k : Kept) (out : Bool) : State :=
  (List.range (k.n / 64)).foldl (fun s i =>
    match s.areaPage l.die l.vmid (l.saveArea + k.off + 64 * i) (if out then .w else .r) with
    | .ok t => { s with mem := if out then memMove s.mem (k.flat + 64 * i) t.flat 64 else memMove s.mem t.flat (k.flat + 64 * i) 64 }
    | .error _ => s) s

/-- The words that stand in a range whose layout is not given. -/
def hiddenWords (stamp : Nat) (r : Nat × Nat) : List Word := (List.range (r.2 / 8)).map fun i => Config.imageWord stamp (r.1 / 8 + i)

/-- Writes a unit's header, sequencer, entries and commands, and each suspended command's progress (R332 orders 1 to 3). -/
def State.writeRanges (s : State) (l : Launch) (v : Saved) : State :=
  let s := v.hidden.foldl (fun s r => s.areaWrite l.die l.vmid (l.saveArea + r.1) (hiddenWords v.stamp r)) s
  v.cmds.foldl (fun s x => match x.2.2 with
    | .cmd c => if c.suspended then s.areaWrite l.die l.vmid (l.saveArea + progressAt x) [BitVec.ofNat 64 c.progress, 0] else s
    | .fence _ => s) s

/-! Waits (R53, R331) -/

/-- A command of a sequencer that is one of the waits SAVING withdraws and has reached its engine. -/
def Msg.seqWait (m : Msg) (lead : Nat) : Bool :=
  m.arrived && m.agent == seqAgent lead && match m.kind with
    | .cmd c => [0x23, 0x24, 0x30, 0x32].contains c.code.toNat && c.reply == .seq lead
    | _ => false

/-- A wait list's entries of a unit, with their phaser. -/
def State.waitsOf (s : State) (u : Nat) : List (Waiter × Nat × Nat) :=
  s.dies.flatMap fun d => d.2.phasers.flatMap fun p => (p.2.waiters.filter fun w => w.owner == u).map fun w => (w, d.1, p.1)

/-- The step at a lead sequencer is a PH.SW. -/
def State.atPhSw (s : State) (lead : Nat) : Bool :=
  match (State.stepWord { s with tile := lead }).map decodeSeq with
  | some (.ok (.phSw ..)) => true
  | _ => false

/-- The PH.SW at a lead sequencer has had its signal counted or held: only its wait is left (R331). -/
def State.signalled (s : State) (u lead : Nat) : Bool :=
  (s.getTile lead).phase == 3 || (s.atPhSw lead &&
    ((s.waitsOf u).any (fun w => w.1.reply == .seq lead) ||
     s.msgs.any fun m => m.seqWait lead && match m.kind with | .cmd c => c.code == 0x23 | _ => false))

/-- Takes a unit's waits from the Concordances and the Granaries. -/
def State.withdraw (s : State) (u lead : Nat) : State :=
  let s : State := { s with
    msgs := s.msgs.filter fun m => !m.seqWait lead,
    dies := s.dies.map fun d => (d.1, { d.2 with
      phasers := d.2.phasers.map fun p => (p.1, { p.2 with waiters := p.2.waiters.filter fun w => w.owner != u }),
      queues := d.2.queues.map fun q => (q.1, { q.2 with takers := q.2.takers.filter (fun w => w.owner != u),
                                                         rsvWait := q.2.rsvWait.filter fun w => w.owner != u }) }) }
  s.dies.foldl (fun s d => d.2.queues.foldl (fun s q => s.serveQueue d.1 q.1) s) s

/-! SAVING (R330-R332) -/

/-- An agent of a region has stores that have not performed. -/
def State.buffersEmpty (s : State) (l : Launch) : Bool :=
  (s.getTile (l.region.headD 0)).sbuf.isEmpty && l.cells.all fun c => match smFind s.cells c with | some x => x.sbuf.isEmpty | none => true

/-- STOPPING ends (R331). Every access of the unit that is in flight performs first, for the save reads the memory that it changes (DEDUCED,
log 63). -/
def State.stopped (s : State) (u : Nat) (l : Launch) : Bool :=
  l.drain.isNone && !s.rebasing && (s.queued l fun e => match e with | .cmd c => c.owner == u && !c.suspended | .fence _ => false).isEmpty && (s.regionQuiet l || decide (l.still ≥ 256)) && !s.committingIn l &&
    s.buffersEmpty l && s.msgs.all fun m => m.owner != u || m.seqWait (l.region.headD 0)

/-- What a unit keeps, once its waits are withdrawn. -/
def State.savedOf (s : State) (u : Nat) (l : Launch) (queued : List (Nat × Nat × QEnt)) (stamp : Nat) : Saved :=
  let lead := l.region.headD 0
  let t := s.getTile lead
  let sig := s.signalled u lead
  let got := t.reply.isSome
  { a := t.a, m := t.m, n := t.n, spc := t.spc, spr := t.spr, tag := s.rebases.setWidth 8, deps := t.deps,
    cmds := s.queued l QEnt.isSuspended ++ queued, waits := (s.waitsOf u).filter fun w => w.1.reply != .seq lead, signalled := sig,
    planes := [], stamp := stamp, tags := t.tags, ctxs := t.ctxs, reply := t.reply, wait := if got then t.wait else none,
    phase := if got then t.phase else if sig then 3 else 0, ld := LoadSt.empty, pre := ⟨none, [], 0⟩,
    hold := l.cells.filterMap fun c => match smFind s.cells c with | some x => if x.hold.isEmpty then none else some (c, x.hold) | none => none,
    codes := l.cells.filterMap fun c => match smFind s.cells c with | some x => x.codeCfg.map fun i => (c, x.codeFolio, some i, x.codeLen) | none => none,
    carves := l.region.map fun t => (t, (s.getTile t).spr.carve),
    lfsrs := match l.active? with
      | some p => l.cells.filterMap fun c => (smFind (s.getCell c).planes p).map fun x => (c, x.lfsr, x.cvst)
      | none => [],
    local_ := false }

/-- PREEMPT_SAVE (R331, R332): STOPPING ends, the unit's waits are withdrawn, and SAVING writes its header, its sequencer, its entries and its
commands. -/
def execPreemptSave (u : Nat) (s : State) : Out :=
  match s.launch? u with
  | none => s.stutter
  | some l =>
    if l.st != .stopping || !s.stopped u l then s.stutter
    else
      let lead := l.region.headD 0
      let n := s.nextStamp
      let s := n.2.abandonAll l
      let v := s.savedOf u l (match l.saved with | some v => v.cmds | none => []) n.1
      let s := (s.withdraw u lead).freezeToks l
      let s := l.region.foldl (fun s t => s.returnPrefetch t) s
      let s := (s.keepQueued l fun _ => false).modTile lead fun t => { t with wait := none, reply := none, phase := 0 }
      let s := s.modLaunch u fun l => { l with st := .saving, saved := some v }
      match s.saveFault l v.ranges .w with
      | some va => .next (s.faultLaunch u 0xE6 lead va)
      | none => .next (s.writeRanges l v)

/-- SAVING writes the kept local memory and the windows (R332 orders 5 and 6, R333). -/
def State.saveLocal (s : State) (u : Nat) (l : Launch) (v : Saved) : State :=
  let ks := s.keptLocal l ++ s.keptWindows l v.carves
  match s.saveFault l (ks.map fun k => (k.off, k.n)) .w with
  | some va => s.faultLaunch u 0xE6 (l.region.headD 0) va
  | none => (ks.foldl (fun s k => s.areaCopy l k true) s).modLaunch u fun l => { l with saved := some { v with local_ := true } }

/-- The active plane must be kept (R332 order 7). -/
def State.keepActive (s : State) (l : Launch) (v : Saved) : Bool :=
  (match l.actor with | some a => !a.tiles.isEmpty | none => false) || !v.waits.isEmpty || l.cells.any fun c => match smFind s.cells c with
    | some x => let p := smGet CellPlane.reset x.planes l.activePlane; !p.quiet || !p.store.isEmpty
    | none => false

/-- The frozen and parked planes, oldest first (R332 order 4): plane, depth, configuration. -/
def Launch.heldPlanes (l : Launch) : List (Nat × Nat × Nat) :=
  let ps := ([0, 1, 2].filter fun p => (l.plane p).st == .frozen || (l.plane p).st == .parked).mergeSort fun a b =>
    decide ((l.plane a).parked < (l.plane b).parked) || ((l.plane a).parked == (l.plane b).parked && decide ((l.plane a).depth ≤ (l.plane b).depth))
  ps.map fun p => (p, (l.plane p).depth, (l.plane p).cfg.getD 0)

/-- The active plane where it must be kept (R332 order 7). -/
def State.activeToSave (s : State) (l : Launch) (v : Saved) : List (Nat × Nat × Nat) :=
  match l.active? with
  | some p => if s.keepActive l v then [(p, l.depth, (l.plane p).cfg.getD 0)] else []
  | none => []

/-- A tile of a unit is free again. -/
def Tile.freed (t : Tile) (u : Nat) : Tile :=
  { t with owner := none, wait := none, reply := none, phase := 0, ld := LoadSt.empty, deps := [], tags := [], ctxs := [],
           ports := t.ports.map fun e => (e.1, { e.2 with entries := e.2.entries.filter fun x => match x with | .cmd c => c.owner != u | .fence _ => false,
                                                          ld := LoadSt.empty }) }

/-- A cell of a unit is free again: its user planes and hold buffers are empty. -/
def Cell.freed (c : Cell) : Cell := { c with planes := c.planes.filter fun e => e.1 == 3, hold := [], block := none, codeCfg := none, ld := LoadSt.empty }

/-- The tiles that a unit holds are free. -/
def State.freeTiles (s : State) (u : Nat) (l : Launch) : State :=
  (l.region.filter fun t => s.owner? t == some u).foldl (fun s t =>
    let s := s.returnPrefetch t
    let s := ((List.range 64).map (cellOf t)).foldl (fun s c => match smFind s.cells c with | some x => s.setCell c x.freed | none => s) s
    s.modTile t fun x => x.freed u) s

/-- PREEMPT_SAVED (R330, R332): the next frozen or parked plane goes to the plane spill stack; then the local memory is written, and then the active
plane; with nothing left the unit is SAVED and its tiles are free. -/
def execPreemptSaved (u : Nat) (s : State) : Out :=
  match s.launch? u with
  | none => s.stutter
  | some l =>
    match l.st == .saving, l.saved with
    | true, some v =>
      (match (l.heldPlanes ++ if v.local_ then s.activeToSave l v else []).find? fun p => !v.planes.any fun e => e.plane == p.1 with
       | some (p, depth, cfg) =>
         (match s.pushPlane u l p depth cfg with
          | .error _ => .next (s.faultLaunch u 0xE6 (l.region.headD 0) (l.spillArea + l.stackTop))
          | .ok none => s.stutter
          | .ok (some s) => .next (s.modLaunch u fun l => { l with saved := some { v with planes := v.planes ++ (l.stack.getLast?.toList) } }))
       | none =>
         if !v.local_ then .next (s.saveLocal u l v)
         else
         let s := s.vaultUnit u 0x04 0xE4 0
         let n := (s.freeTiles u l).nextStamp
         .next (n.2.modLaunch u fun l => { l with st := .saved, preempts := l.preempts + 1, age := n.1 }))
    | _, _ => s.stutter

/-! RESTORING (R334) -/

/-- Applies the rebases that a value has missed (R232). -/
def missed {α : Type} (n : Nat) (f : α → α) (x : α) : α := if n = 0 then x else if n = 1 then f x else f (f x)

/-- The rebases since a count was written down, modulo 256. -/
def State.rebasesSince (s : State) (tag : BitVec 8) : Nat := (s.rebases.setWidth 8 - tag).toNat

/-- A saved queue entry as it returns to its queue. -/
def QEnt.back (n : Nat) (e : QEnt) : QEnt := match e with | .cmd c => .cmd { missed n Cmd.rebase c with suspended := false, quiet := 0 } | .fence i => .fence i

/-- Saved entries return to the heads of their queues, in their order (R334). -/
def State.requeue (s : State) (l : Launch) (n : Nat) (xs : List (Nat × Nat × QEnt)) : State :=
  xs.foldr (fun x s => s.modTile (l.region.getD x.1 0) fun t =>
    t.setPort x.2.1 { t.port x.2.1 with entries := x.2.2.back n :: (t.port x.2.1).entries }) s

/-- A lead sequencer with what was saved of it; its CARVE stays for the restore of the windows. -/
def Tile.resumed (t : Tile) (v : Saved) (n : Nat) : Tile :=
  { t with a := v.a, m := v.m, n := v.n, spc := v.spc, tags := v.tags, ctxs := v.ctxs, reply := v.reply.map fun r => { r with time := missed n rb r.time },
           wait := v.wait, phase := v.phase, ld := v.ld, pre := v.pre, deps := v.deps.map fun e => (e.1, missed n DepEnt.rebase e.2),
           spr := { v.spr with lclk := tsMax t.spr.lclk (missed n rb v.spr.lclk), whw := missed n rb v.spr.whw, carve := t.spr.carve } }

/-- `n` free values (log 5). -/
def State.freeWords (s : State) (n : Nat) : List Word × State := ((List.range n).map fun i => Config.freeWord (s.tick + i), { s with tick := s.tick + n })

/-- A range whose layout is not given still holds what SAVING wrote there. -/
def State.intact (s : State) (l : Launch) (v : Saved) (r : Nat × Nat) : Bool :=
  s.areaRead l.die l.vmid (l.saveArea + r.1) (r.2 / 8) == hiddenWords v.stamp r

/-- A sequencer whose saved words have been changed: its registers take free values (log 77). -/
def Saved.freeSeq (v : Saved) (w : Nat → Word) : Saved :=
  { v with
    a := Vector.ofFn fun (i : Fin 16) => w i, m := Vector.ofFn fun (i : Fin 8) => ⟨w (16 + 4 * i), w (17 + 4 * i), w (18 + 4 * i), w (19 + 4 * i)⟩,
    n := Vector.ofFn fun (i : Fin 4) => ⟨(w (48 + i)).setWidth 32, (w (48 + i)).extractLsb' 32 32⟩, spc := w 52,
    spr := { v.spr with
      lclk := (w 53).setWidth 32, lease := (w 54).setWidth 12, whw := (w 55).setWidth 32, qwcLimit := (w 56).setWidth 32,
      drift := (w 57).setWidth 16, spinN := (w 58).setWidth 12, stalls := w 59, wdog := (w 60).setWidth 40 } }

/-- A command whose saved words have been changed: its operands take free values (log 77). -/
def Cmd.freeOps (c : Cmd) (w : Nat → Word) : Cmd := { c with pat := ⟨w 0, w 1, w 2, w 3⟩, d := w 4, s := w 5, t := w 6 }

/-- A dependence entry whose saved words have been changed: its count, its high-waters and its operands take free values (log 77). -/
def DepEnt.freeOps (e : DepEnt) (w : Nat → Word) : DepEnt :=
  { e with
    count := (w 7).toNat % 64, hw := (w 8).setWidth 32, before := (w 9).setWidth 32,
    step := match e.step with
      | .stream c p t => .stream (c.freeOps w) p t
      | .signal _ sc => .signal (w 0) sc
      | x => x }

/-- A command that returns from the save area: with the progress that stands there, and with free operands where its words have been changed. -/
def State.cmdBack (s : State) (l : Launch) (v : Saved) (x : Nat × Nat × QEnt) (off : Nat) : (Nat × Nat × QEnt) × State :=
  match x.2.2 with
  | .fence _ => (x, s)
  | .cmd c =>
    let r := if s.intact l v (off, 16) then (c, s) else let w := s.freeWords 7; (c.freeOps fun i => w.1.getD i 0, w.2)
    let done := ((s.areaRead l.die l.vmid (l.saveArea + progressAt x) 1).headD 0).toNat
    ((x.1, x.2.1, .cmd (if c.suspended then { r.1 with pos := if c.op = 6 then done / 64 else done } else r.1)), r.2)

/-- What the save area gives back of a unit: what SAVING wrote there, and free values in place of what has been changed (R334, log 77). -/
def State.readBack (s : State) (l : Launch) (v : Saved) : Saved × State :=
  let r : Saved × State := if s.intact l v (0, 0x400) then (v, s) else let w := s.freeWords 61; (v.freeSeq fun i => w.1.getD i 0, w.2)
  let d := v.deps.foldl (fun (acc : SMap DepEnt × State) e =>
    if acc.2.intact l v (0x400 + 32 * e.1, 32) then (acc.1 ++ [e], acc.2)
    else let w := acc.2.freeWords 10; (acc.1 ++ [(e.1, e.2.freeOps fun i => w.1.getD i 0)], w.2)) ([], r.2)
  let c := (v.cmds.zip (queueOffsets v.cmds)).foldl (fun (acc : List (Nat × Nat × QEnt) × State) x =>
    let y := acc.2.cmdBack l v x.1 x.2
    (acc.1 ++ [y.1], y.2)) ([], d.2)
  ({ r.1 with deps := d.1, cmds := c.1 }, c.2)

/-- The local memory of the used cells reads zero before what was kept of it returns (R333). -/
def State.zeroUsed (s : State) (l : Launch) : State :=
  { s with mem := (s.usedInOrder l).foldl (fun m e => memClear m (cellBase e.1) 0x18000) s.mem }

/-- PREEMPT_RESTORE (R330, R334): a saved unit whose tiles are free comes first, and its state is written back but for its planes. -/
def execPreemptRestore (u : Nat) (s : State) : Out :=
  match s.launch? u with
  | none => s.stutter
  | some l =>
    match l.st == .saved && s.nextUnit l.die == some u, l.saved with
    | true, some v =>
      let n := s.rebasesSince v.tag
      let lead := l.region.headD 0
      let back := s.readBack l v
      let v := back.1
      let s := l.region.foldl (fun s t => (s.modTile t fun x => x.takenBy u).raiseLclk t (missed n rb v.spr.lclk)) back.2
      let s := ((s.modTile lead fun t => t.resumed v n).requeue l n v.cmds).modLaunch u fun l => { l with st := .restoring }
      let s := v.carves.foldl (fun s c => s.setCarve c.1 c.2) s
      let ks := s.keptLocal l ++ s.keptWindows l v.carves
      (match s.saveFault l (v.ranges ++ ks.map fun k => (k.off, k.n)) .r with
       | some va => .next (s.faultLaunch u 0xE6 lead va)
       | none =>
         let s := ks.foldl (fun s k => s.areaCopy l k false) (s.zeroUsed l)
         let s := v.hold.foldl (fun s e => s.modCell e.1 fun c => { c with hold := e.2 }) s
         .next (v.codes.foldl (fun s e => s.modCell e.1 fun c => { c with codeFolio := e.2.1, codeCfg := e.2.2.1, codeLen := e.2.2.2 }) s))
    | _, _ => s.stutter

/-- The planes that were not saved are loaded from the folio again: the active one (R332), whose LFSRs and CVST go on (R189, R193; DESIGN CHOICE,
log 138), and preloaded ones (R318). -/
def State.reloadPlanes (s : State) (l : Launch) (v : Saved) : State :=
  [0, 1, 2].foldl (fun s p =>
    let x := l.plane p
    if (x.st == .active || x.st == .preloaded) && !v.planes.any (fun e => e.plane == p) then
      let s := match x.cfg.bind (s.config? l) with | some c => s.writePlane l c p | none => s
      if x.st == .active then
        v.lfsrs.foldl (fun s e => match smFind (s.getCell e.1).planes p with
          | some q => s.setPlane e.1 p { q with lfsr := e.2.1, cvst := e.2.2 }
          | none => s) s
      else s
    else s) s

/-- A withdrawn handler wait is sent again, as a wait alone. -/
def State.resend (s : State) (u : Nat) (vmid : BitVec 16) (w : Waiter × Nat × Nat) : State :=
  s.sendFrom w.1.agent u w.2.1 (.cmd ⟨0x23, 0, 0, syncBase w.2.1 + w.2.2, w.1.phase.setWidth 64, 0, 0, vmid, w.1.reply⟩)

/-- The next saved plane to return: the top of the spill stack, while it is one of them. -/
def Launch.nextPop (l : Launch) (v : Saved) : Option SpillEnt :=
  match l.stack.getLast? with
  | some e => if v.planes.any fun x => x.stamp == e.stamp then some e else none
  | none => none

/-- PREEMPT_RESUMED (R330, R334): the next saved plane returns from the spill stack; once all have, the unit runs, and its step runs again. -/
def execPreemptResumed (u : Nat) (s : State) : Out :=
  match s.launch? u with
  | none => s.stutter
  | some l =>
    match l.st == .restoring, l.saved with
    | true, some v =>
      (match l.nextPop v with
       | some e =>
         (match s.popPlane u l e e.plane with
          | .error c => .next (s.faultLaunch u (if c = 0x6C then 0x6C else 0xE6) (l.region.headD 0) (l.spillArea + e.off))
          | .ok s => .next (s.modLaunch u fun l => { l with stack := l.stack.dropLast }))
       | none =>
         let s := s.reloadPlanes l v
         let s := match l.active? with | some p => s.thawToks l p | none => s
         let s := v.waits.foldl (fun s w => s.resend u l.vmid w) s
         .next ((s.vaultUnit u 0x05 0xE5 0).modLaunch u fun l => { l with st := .running, saved := none, since := s.clk, wdog := 0 }))
    | _, _ => s.stutter

/-! The service plane (R336) -/

/-- Ends an SVC_CTL operation with a status, or marks it as running. -/
def State.svcEnd (s : State) (die status : Nat) : State := s.setReg die 0xB10 (setBits (setBits (s.reg die 0xB10) 63 63 0) 62 60 status)

/-- A service unit runs. -/
def State.serviceRuns (s : State) : Bool := s.launches.any fun e => e.2.service && e.2.st != .done

/-- What a frozen unit keeps of the sequencer of the tile that a service unit takes. -/
def Tile.keeps (t : Tile) (rebases : BitVec 32) : Saved :=
  { Saved.blank with a := t.a, m := t.m, n := t.n, spc := t.spc, spr := t.spr, tag := rebases.setWidth 8, deps := t.deps, tags := t.tags,
                     ctxs := t.ctxs, reply := t.reply, wait := t.wait, phase := t.phase, ld := t.ld, pre := t.pre }

/-- A tile's queues change between keys 0 to 3, in use, and 4 to 7, a frozen unit's; order clocks stay. -/
def Tile.swapPorts (t : Tile) (freeze : Bool) : Tile :=
  let orders (p : Nat) : BitVec 32 := (t.port p).order
  let from_ (p : Nat) : PortQ := t.port (if freeze then p else p + 4)
  { t with ports := (List.range 4).foldl (fun m p =>
      let x := { from_ p with order := orders p, ld := LoadSt.empty }
      if freeze then smPut (smPut m (p + 4) x) p { PortQ.reset with order := orders p } else smPut (smDel m (p + 4)) p x) t.ports }

/-- The unit that holds a tile is frozen whole; the tile's prefetch buffer gives its records back (R255; DEDUCED, log 76). -/
def State.freezeUnit (s : State) (v tile : Nat) : State :=
  let s := s.returnPrefetch tile
  let x := (s.getTile tile).keeps s.rebases
  (s.modTile tile fun t => t.swapPorts true).modLaunch v fun l => { l with frozen := true, saved := some x }

/-- The service unit on a tile: its launch takes values the spec does not give as free values (its VMID, and a0 and a1). -/
def State.startService (s : State) (die folio tile : Nat) (victim : Option Nat) : State :=
  let v := s.fresh
  let a := v.2.fresh
  let b := a.2.fresh
  let n := b.2.nextStamp
  let u := n.1
  let l : Launch := { Launch.blank with
    vmid := v.1.setWidth 16, folio := folio, die := die, st := .running, service := true, victim := victim, region := [tile], since := s.clk,
    age := u, start := some s.timeNs }
  let s := (n.2.setLaunch u l).modTile tile fun t => (t.takenBy u).started a.1.toNat b.1 0
  s

/-- A block that has begun its commit, or an access of an engine of the tile in flight: the freeze waits for it. -/
def State.freezeWaits (s : State) (v tile : Nat) : Bool :=
  (match s.launch? v with | some l => s.committingIn l | none => false) ||
    s.msgs.any fun m => (List.range 4).any fun p => m.agent == portAgent tile p

/-- SERVICE_START (R336): the unit that holds the named tile is frozen, and the service unit starts in plane 3. -/
def execServiceStart (die : Nat) (s : State) : Out :=
  let c := (s.reg die 0xB10).toNat
  let tile := bitsOf c 13 10 * 100 + bitsOf c 6 0
  if die ≥ 16 || !bitOf c 63 then s.stutter
  else if bitsOf c 59 14 ≠ 0 || bitsOf c 9 0 > 99 then .next (s.svcEnd die 5)
  else match findIdxFrom (fun f : Folio => f.service && f.va == (s.reg die 0xB08).toNat) s.folios 0 with
  | none => .next (s.svcEnd die 3)
  | some i =>
    let f := s.folios.getD i default
    if !f.verified then .next ((s.vault die ⟨0x11, 0xF8, 0, placeTile (die * 100), 0, 0, f.va⟩).svcEnd die 3)
    else if s.serviceRuns then .next (s.svcEnd die 4)
    else if f.region.length ≠ 1 then .next (s.svcEnd die 5)
    else match s.owner? tile with
    | none => .next ((s.startService (tileDie tile) i tile none).svcEnd die 1)
    | some v =>
      match s.launch? v with
      | none => s.stutter
      | some l =>
        if !(l.st == .running || l.st == .pending) || l.frozen || s.freezeWaits v tile then s.stutter
        else .next ((((s.abandonAll l).freezeUnit v tile).startService (tileDie tile) i tile (some v)).svcEnd die 1)

/-- The victim of a service unit thaws: its queues and its sequencer are as they were, its code is in the code stores again (R306, R317), and
the tokens held for it are delivered. -/
def State.thawVictim (s : State) (v tile : Nat) : State :=
  match s.launch? v with
  | none => s
  | some l =>
    let s := s.modTile tile fun t =>
      let t := { (t.swapPorts false) with owner := some v }
      match l.saved with
      | some x => { (t.resumed x (s.rebasesSince x.tag)) with spr :=
          { x.spr with lclk := t.spr.lclk, whw := missed (s.rebasesSince x.tag) rb x.spr.whw, carve := t.spr.carve } }
      | none => t
    let s := s.modLaunch v fun l => { l with frozen := false, saved := none }
    let s := match l.activeCfg.bind fun i => (s.config? l i).map fun c => (i, c) with | some (i, c) => s.writeCodes l c i | none => s
    let cells := (List.range 64).map (cellOf tile)
    let frozen (k : Nat) : Bool := l.levels.any fun x => (levelCtx x.depth).toNat == k
    cells.foldl (fun s c => match smFind s.cells c with
      | some x =>
        let out := (x.hold.filter fun e => !frozen e.1).flatMap (·.2)
        { (s.setCell c { x with hold := x.hold.filter fun e => frozen e.1 }) with net := out.map (fun t => { t with due := true }) ++ s.net }
      | none => s) s

/-- A service unit has ended (R336): its prefetched records return (R255), plane 3 is cleared, the victim thaws, and SVC_CTL reads done. -/
def State.endService (s : State) (u : Nat) (l : Launch) : State :=
  let tile := l.region.headD 0
  let s := (l.region.foldl (fun s x => (s.returnPrefetch x).modTile x fun t => t.freed u) s).setLaunch u { l with st := .done, actor := none }
  let s := l.cells.foldl (fun s c => match smFind s.cells c with
    | some x => s.setCell c { x with planes := smDel x.planes 3, block := none, ld := LoadSt.empty }
    | none => s) s
  let s := match l.victim with | some v => s.thawVictim v tile | none => s
  (List.range 16).foldl (fun s d => if bitsOf (s.reg d 0xB10).toNat 62 60 == 1 then s.svcEnd d 2 else s) s

end Sys2Proof.Machine
end

