-- ==== Sys2Proof/Machine/Ending.lean ====
section
/-! DEFINITION. How launches end (R67, R81, R82, R325, R337), the work table (R321-R323), cancels (R324, R325) and energy classes
(R326). -/

namespace Sys2Proof.Machine

/-! The colophon (R82) -/

/-- The status of an ending. -/
def Ending.code : Ending → Nat
  | .ok => 0 | .faulted => 1 | .cancelled => 2 | .watchdog => 3 | .lost => 2

/-- The 64 bytes of a colophon. -/
def Launch.colophonBytes (l : Launch) (start stop : BitVec 64) : BitVec 512 :=
  BitVec.ofNat 512 (l.ending.code + l.faults % 2 ^ 32 * 2 ^ 32 + (l.cause.toNat + l.causeDie % 16 * 2 ^ 8 + l.causeTile % 128 * 2 ^ 12) * 2 ^ 64 +
    l.id.toNat * 2 ^ 96 + start.toNat * 2 ^ 128 + stop.toNat * 2 ^ 192 + l.energyUsed % 2 ^ 64 * 2 ^ 256 + l.completed % 2 ^ 32 * 2 ^ 320 +
    l.discarded % 2 ^ 32 * 2 ^ 352 + (l.cls.toNat + l.preempts % 2 ^ 24 * 2 ^ 8) * 2 ^ 384 + l.lastTs.toNat * 2 ^ 416)

/-- The start and end times of a colophon: zero for a bad launch record (R81); a unit that never issued its entry step has no start time, and
a free value stands for it (log 65). -/
def State.times (s : State) (l : Launch) : BitVec 64 × BitVec 64 × State :=
  match l.start with
  | some t => (t, s.timeNs, s)
  | none => if l.cause = 0x6A then (0, 0, s) else let v := s.fresh; (v.1, s.timeNs, v.2)

/-- What writing the colophon comes to. -/
inductive ColRes where
  | done (s : State)
  | sent (s : State)
  | wait (s : State)

/-- A fault met while a launch's last words are written: the Vault alone records it. -/
def State.lateFault (s : State) (l : Launch) (cause va : Nat) : State :=
  let t := l.region.headD (l.die * 100)
  s.vault (tileDie t) ⟨0x03, cause, 0, placeTile t, l.id.toNat, l.vmid.toNat, va⟩

/-- The cause for which an engine's access fails. -/
def State.engineCause (s : State) (die : Nat) (vmid : BitVec 16) (va : Nat) (need : Need) : Except Nat Target := s.areaPage die vmid va need

/-- The WHW of a launch's lead sequencer covers the colophon's timestamp, which its completion signal carries (R67, R357). -/
def State.leadWhw (s : State) (u lead : Nat) (ts : BitVec 32) : State :=
  if s.owner? lead = some u then (s.raiseHi (seqAgent lead) ts).setWhw (seqAgent lead) else s

/-- Writes the colophon: as a store at a type-0 home, at once in local memory or registers, as a packet through a port (log 65). -/
def State.writeColophon (s : State) (u : Nat) (l : Launch) : ColRes :=
  let lead := l.region.headD (l.die * 100)
  let late (c : Nat) : ColRes := .done (s.lateFault l c l.colophon)
  match s.engineCause l.die l.vmid l.colophon .w with
  | .error c => late c
  | .ok t =>
    if t.ty = 6 then late 0x23
    else match s.boundFault t 64 true with
    | some c => late c
    | none =>
      let v := s.times l
      let d := l.colophonBytes v.1 v.2.1
      if t.ty = 0 then
        if !s.homeOpen t.flat then .wait s
        else
          let s := v.2.2.fillLine t.flat
          let ts := s.writeTs t.flat (s.lclk lead).toNat
          if ts ≥ 2 ^ 32 then .wait (s.askRebase t.home) else .done ((s.homeWrite t.flat 64 d.toNat (BitVec.ofNat 32 ts)).leadWhw u lead (BitVec.ofNat 32 ts))
      else if t.ty = 1 || t.ty = 2 then
        .sent (v.2.2.request (seqAgent lead) u (tileDie lead) (.access t.ty t.home t.flat 64 true d))
      else .done (v.2.2.targetWrite (seqAgent lead) t.ty t.flat 64 d.toNat)

/-! The completion signal (R67, R249) -/

/-- The agents of a launch: its lead sequencer and the T-cells of its region, on the tiles that it holds (R226, R325). -/
def State.agentsOf (s : State) (u : Nat) (l : Launch) : List Nat :=
  match l.region with
  | [] => []
  | t :: _ => (if s.owner? t = some u then [seqAgent t] else []) ++
      (l.cells.filter fun c => isTCell c && (smFind s.cells c).isSome && s.owner? (cellTile c) == some u).map cellAgent

/-- Every agent of a launch releases at its scope. -/
def State.releaseAll (s : State) (u : Nat) (l : Launch) : Bool × State :=
  (s.agentsOf u l).foldl (fun r a => if r.1 then r.2.release a u l.scope else r) (true, s)

/-- An agent's WHW. -/
def State.whwOf (s : State) (a : Nat) : BitVec 32 := if agentIsSeq a then (s.getTile (agentTile a)).spr.whw else (s.getCell (agentCell a)).whw

/-- The largest WHW of a launch's agents. -/
def State.launchWhw (s : State) (u : Nat) (l : Launch) : BitVec 32 := (s.agentsOf u l).foldl (fun x a => tsMax x (s.whwOf a)) 0

/-- A signal of an agent at a phaser, or the cause for which it is refused (R245, R247). -/
def State.signalAt (s : State) (flat agent : Nat) (whw : BitVec 32) : Except Nat State :=
  let pl := syncPlace flat
  match smFind (s.getDie pl.1).phasers pl.2 with
  | none => .error 0x89
  | some p =>
    match p.bind agent true false with
    | none => .error 0x86
    | some p => match p.member agent with
      | none => .error 0x86
      | some m => match p.signal m whw with
        | .counted p => .ok (s.putPhaser pl.1 pl.2 p)
        | .overrun => .error 0x87

/-- A phaser's address, as an engine of a die reaches it. -/
def State.phaserAt (s : State) (die : Nat) (vmid : BitVec 16) (va : Nat) : Except Nat Nat :=
  match s.areaPage die vmid va .w with
  | .error c => .error c
  | .ok t => if t.ty = 6 then .ok t.flat else .error 0x21

/-- The completion phaser is signalled by the lead sequencer (R244), or completes its phase in error with the launch's cause. -/
def State.signalLaunch (s : State) (l : Launch) (whw : BitVec 32) : State :=
  match s.phaserAt l.die l.vmid l.phaser with
  | .error c => s.lateFault l c l.phaser
  | .ok flat =>
    if l.ending = .ok then
      match s.signalAt flat (seqAgent (l.region.headD (l.die * 100))) whw with
      | .ok s => s
      | .error c => s.lateFault l c l.phaser
    else s.phaserError (syncPlace flat).1 (syncPlace flat).2 l.cause

/-- The completion signal of a launch waits until the lead sequencer's earlier ones have counted: a sequencer's signal meets no 0x87 (R247). -/
def State.signalWaits (s : State) (l : Launch) : Bool :=
  l.ending == .ok && match s.phaserAt l.die l.vmid l.phaser with
    | .ok flat => (match s.signalAt flat (seqAgent (l.region.headD (l.die * 100))) 0 with | .error c => c == 0x87 | .ok _ => false)
    | .error _ => false

/-- The graph of a launch counts one launch less, and keeps the largest WHW (R321, R323). -/
def State.graphDone (s : State) (l : Launch) (whw : BitVec 32) : State :=
  if l.graph = 0 then s
  else match s.workIdx l.vmid 1 l.graph with
  | some i => s.modWork i fun w => { w with count := w.count - 1, whw := tsMax w.whw whw }
  | none => s

/-- A launch is over: its phaser, its graph, its snapshot window, its tiles and its Vault event. -/
def State.closeLaunch (s : State) (u : Nat) (l : Launch) : State :=
  let whw := s.launchWhw u l
  let s := (s.signalLaunch l whw).graphDone l whw
  let s := match l.window with | some (d, w) => s.unhold d w u | none => s
  let s := (s.vaultUnit u 0x02 0 0).freeTiles u l
  s.setLaunch u { l with st := .done, writing := false, signalPending := false, actor := none, levels := [], planes := [], stack := [], held := false, window := none }

/-- The colophon is written: the launch is over, or its completion signal waits. -/
def State.completeLaunch (s : State) (u : Nat) (l : Launch) : State :=
  if s.signalWaits l then s.modLaunch u fun l => { l with writing := false, signalPending := true } else s.closeLaunch u l

/-- The unit of a launch has nothing left to do: its region is drained, no block commits, and its commands are over. -/
def State.unitOver (s : State) (u : Nat) (l : Launch) : Bool :=
  l.st == .ending && l.drain.isNone && !l.frozen && !s.committingIn l && (s.cmdsOf u).all (·.suspended)

/-- LAUNCH_COMPLETE (R67, R82, R325): the launch's writes have completed at its release scope, then the colophon is written, then the phaser is
signalled. A service unit ends as R336 gives. -/
def execLaunchComplete (u : Nat) (s : State) : Out :=
  match s.launch? u with
  | none => s.stutter
  | some l =>
    if !s.unitOver u l then s.stutter
    else if l.service then .next ((s.dropLevels u).endService u l)
    else if l.writing then (if s.accessOut (seqAgent (l.region.headD 0)) then s.stutter else .next (s.completeLaunch u l))
    else if l.signalPending then (if s.signalWaits l then s.stutter else .next (s.closeLaunch u l))
    else
      let r := (s.dropLevels u).releaseAll u l
      if !r.1 then .next r.2
      else
        let l := { l with levels := [] }
        match r.2.writeColophon u l with
        | .done s => .next (s.completeLaunch u l)
        | .sent s => .next (s.modLaunch u fun l => { l with writing := true })
        | .wait s => .next s

/-! Energy (R326) -/

/-- ENERGY_CLASS_DROP (R326): the charge has reached the budget, so the class number rises and the budget starts again from the refill. -/
def execEnergyClassDrop (u : Nat) (s : State) : Out :=
  match s.launch? u with
  | none => s.stutter
  | some l =>
    if l.service || l.st == .done || l.charge < l.budget then s.stutter
    else
      let l' := { l with charge := l.charge - l.budget, budget := l.refill, cls := if l.cls = 7 then 7 else l.cls + 1 }
      .next ((s.vaultUnit u 0x10 0xE2 0).setLaunch u l')

/-! The work table (R322, R323) -/

/-- Ends a WORK_CTL operation with a status. -/
def State.workEnd (s : State) (die status : Nat) : State := s.setReg die 0x718 (setBits (setBits (s.reg die 0x718) 63 63 0) 60 58 status)

/-- A WORK_CTL operation is asked for. -/
def State.workAsked (s : State) (die op : Nat) : Bool :=
  decide (die < 16) && bitOf (s.reg die 0x718).toNat 63 && bitsOf (s.reg die 0x718).toNat 62 61 == op

/-- What WORK_ID names: job, kind and id. -/
def State.workName (s : State) (die : Nat) : BitVec 16 × BitVec 2 × BitVec 32 :=
  let v := (s.reg die 0x700).toNat
  (BitVec.ofNat 16 (bitsOf v 63 48), BitVec.ofNat 2 (bitsOf v 33 32), BitVec.ofNat 32 v)

/-- A reserved value: kind 0, a graph's id of 0, a job's id or a parent that must be zero, or a reserved bit of WORK_CTL. -/
def State.workReserved (s : State) (die : Nat) : Bool :=
  let n := s.workName die
  let parent := (s.reg die 0x708).toNat
  bitsOf (s.reg die 0x718).toNat 57 0 != 0 || n.2.1 == 0 || (n.2.1 == 1 && n.2.2 == 0) || (n.2.1 == 3 && n.2.2 != 0) || (n.2.1 != 1 && parent != 0)

/-- The place of an entry's parent: a graph's phase, a phase's job. -/
def State.parentIdx (s : State) (vmid : BitVec 16) (kind : BitVec 2) (parent : BitVec 32) : Option Nat :=
  if kind = 1 then s.workIdx vmid 2 parent else if kind = 2 then s.workIdx vmid 3 0 else none

/-- The state of the entry at a place. -/
def State.workState (s : State) (i : Option Nat) : BitVec 3 := match i.bind fun i => s.work[i]? with | some w => w.state | none => 0

/-- WORK_CREATE (R322). An op of 3 is refused as a reserved value by whichever of the three events reads it. -/
def execWorkCreate (die : Nat) (s : State) : Out :=
  if s.workAsked die 3 then .next (s.workEnd die 5)
  else if !s.workAsked die 0 then s.stutter
  else
    let n := s.workName die
    let parent := BitVec.ofNat 32 (s.reg die 0x708).toNat
    let up := s.parentIdx n.1 n.2.1 parent
    if s.workReserved die then .next (s.workEnd die 5)
    else if (s.workIdx n.1 n.2.1 n.2.2).isSome then .next (s.workEnd die 2)
    else if n.2.1 ≠ 3 && up.isNone then .next (s.workEnd die 5)
    else if n.2.1 ≠ 3 && s.workState up != 1 then .next (s.workEnd die 3)
    else if s.work.length ≥ 8192 then .next (s.workEnd die 4)
    else
      let s := match up with | some i => s.modWork i fun w => { w with count := w.count + 1 } | none => s
      let w : WorkEnt := ⟨n.1, n.2.1, n.2.2, parent, (s.reg die 0x710).toNat, 1, 0, 0, 0, 0, 0, false⟩
      .next (State.workEnd { s with work := s.work ++ [w] } die 1)

/-- WORK_SEAL (R322). -/
def execWorkSeal (die : Nat) (s : State) : Out :=
  if !s.workAsked die 1 then s.stutter
  else
    let n := s.workName die
    match s.workReserved die, s.workIdx n.1 n.2.1 n.2.2 with
    | true, _ => .next (s.workEnd die 5)
    | false, none => .next (s.workEnd die 2)
    | false, some i => if s.workState (some i) = 1 then .next ((s.modWork i fun w => { w with state := 2 }).workEnd die 1) else .next (s.workEnd die 3)

/-- An entry is a child of another. -/
def WorkEnt.childOf (w p : WorkEnt) : Bool :=
  w.vmid == p.vmid && ((w.kind == 1 && p.kind == 2 && w.parent == p.id) || (w.kind == 2 && p.kind == 3))

/-- WORK_FREE (R322): an entry that is over, all of whose children are free. -/
def execWorkFree (die : Nat) (s : State) : Out :=
  if !s.workAsked die 2 then s.stutter
  else
    let n := s.workName die
    match s.workReserved die, s.workIdx n.1 n.2.1 n.2.2 with
    | true, _ => .next (s.workEnd die 5)
    | false, none => .next (s.workEnd die 2)
    | false, some i =>
      match s.work[i]? with
      | some w =>
        if w.state.toNat ≥ 3 && !s.work.any (·.childOf w) then .next (State.workEnd { s with work := removeAt s.work i } die 1)
        else .next (s.workEnd die 3)
      | none => s.stutter

/-- The member of a work table entry's signal: no agent of the fabric (R323). -/
def WorkEnt.signaller (w : WorkEnt) : Nat := 2 ^ 34 + ((w.vmid.toNat * 4 + w.kind.toNat) * 2 ^ 32 + w.id.toNat)

/-- An entry's completion phaser is signalled, or completes in error with a cause; its address is walked from die 0's JOBDIR (log 66). -/
def State.signalWork (s : State) (w : WorkEnt) : State :=
  if w.ph = 0 then s
  else
    let late (c : Nat) : State := s.vault 0 ⟨0x03, c, 0, placeTile 0, 0, w.vmid.toNat, w.ph⟩
    match s.phaserAt 0 w.vmid w.ph with
    | .error c => late c
    | .ok flat =>
      if w.cause ≠ 0 then s.phaserError (syncPlace flat).1 (syncPlace flat).2 w.cause
      else match s.signalAt flat w.signaller w.whw with
        | .ok s => s
        | .error c => late c

/-- WORK_COMPLETE (R323): an entry's counter is 0 and it is SEALED, FAULTED or CANCELLED. It signals, lowers its parent's counter, and writes a Vault
event; a phase records the cause of a graph that did not complete. -/
def execWorkComplete (k : Nat) (s : State) : Out :=
  match s.work[k]? with
  | none => s.stutter
  | some w =>
    if w.count ≠ 0 || w.signalled || !(w.state == 2 || w.state == 4 || w.state == 5) then s.stutter
    else
      let s := (s.signalWork w).modWork k fun w => { w with signalled := true, state := if w.state = 2 then 3 else w.state }
      let s := match s.parentIdx w.vmid w.kind w.parent with
        | some i => s.modWork i fun p =>
            { p with count := p.count - 1, whw := tsMax p.whw w.whw,
                     cause := if w.kind = 1 && p.cause == 0 then w.cause else p.cause,
                     causeDie := if w.kind = 1 && p.cause == 0 then w.causeDie else p.causeDie,
                     causeTile := if w.kind = 1 && p.cause == 0 then w.causeTile else p.causeTile }
        | none => s
      .next (s.vault 0 ⟨0x02, w.cause.toNat, 0, placeTile 0, 0, w.vmid.toNat, 0⟩)

/-! Cancels (R324, R325) -/

/-- Ends a CANCEL_CTL operation with a status. -/
def State.cancelEnd (s : State) (die status : Nat) : State :=
  (s.setReg die 0x748 (setBits (setBits (s.reg die 0x748) 63 63 0) 59 57 status)).modDie die fun d => { d with cancelling := none }

/-- A CANCEL_CTL operation is asked for. -/
def State.cancelAsked (s : State) (die op : Nat) : Bool :=
  decide (die < 16) && bitOf (s.reg die 0x748).toNat 63 && bitsOf (s.reg die 0x748).toNat 62 60 == op

/-- The op or a bit of CANCEL_CTL is reserved. -/
def State.cancelReserved (s : State) (die : Nat) : Bool :=
  let c := (s.reg die 0x748).toNat
  bitsOf c 62 60 == 0 || bitsOf c 62 60 > 4 || bitsOf c 56 0 != 0

/-- A launch that has not completed is cancelled (R324, R325): CANCELLED with 0xE3 at its lead tile. -/
def State.cancelLaunch (s : State) (u : Nat) : State :=
  match s.launch? u with
  | none => s
  | some l =>
    if l.colophonDone || (l.st == .ending && l.ending != .ok) then s
    else
      let t := l.region.headD (l.die * 100)
      let s := s.vaultUnit u 0x13 0xE3 0
      (s.setLaunch u { l with ending := .cancelled, cause := 0xE3, causeDie := tileDie t, causeTile := tileLocal t, causeClk := s.clk, faults := 0,
                              discarded := if l.st == .waiting then 0 else 1 }).beginEnding u

/-- An entry that is not over becomes CANCELLED. -/
def WorkEnt.cancelled (w : WorkEnt) : WorkEnt := if w.state == 1 || w.state == 2 then { w with state := 5, cause := 0xE3 } else w

/-- The launches of a graph end, and the graph is CANCELLED. -/
def State.cancelGraph (s : State) (vmid : BitVec 16) (g : BitVec 32) : State :=
  let s := (s.graphLaunches vmid g).foldl (fun s u => s.cancelLaunch u) s
  match s.workIdx vmid 1 g with | some i => s.modWork i WorkEnt.cancelled | none => s

/-- Every graph of a phase is cancelled, and the phase is CANCELLED. -/
def State.cancelPhase (s : State) (vmid : BitVec 16) (ph : BitVec 32) : State :=
  let gs := (s.work.filter fun w => w.vmid == vmid && w.kind == 1 && w.parent == ph).map (·.id)
  let s := gs.foldl (fun s g => s.cancelGraph vmid g) s
  match s.workIdx vmid 2 ph with | some i => s.modWork i WorkEnt.cancelled | none => s

/-- The live launches that pass a test. -/
def State.liveLaunches (s : State) (p : Launch → Bool) : List Nat := (s.launches.filter fun e => e.2.st != .done && !e.2.service && p e.2).map (·.1)

/-- The graphs of a phase. -/
def State.graphsOf (s : State) (vmid : BitVec 16) (ph : BitVec 32) : List (BitVec 32) :=
  (s.work.filter fun w => w.vmid == vmid && w.kind == 1 && w.parent == ph).map (·.id)

/-- The job and the id that CANCEL_ID names. -/
def State.cancelName (s : State) (die : Nat) : BitVec 16 × BitVec 32 :=
  let v := (s.reg die 0x740).toNat
  (BitVec.ofNat 16 (bitsOf v 63 48), BitVec.ofNat 32 v)

/-- A cancel: it is refused, or it begins on the launches that it names, and it is done once each of them has ended. -/
def State.cancel (s : State) (die op : Nat) (named : Bool) (concerned : List Nat) (go : State → State) : Out :=
  if decide (die < 16) && bitOf (s.reg die 0x748).toNat 63 && s.cancelReserved die then .next (s.cancelEnd die 3)
  else if !s.cancelAsked die op then s.stutter
  else match (s.getDie die).cancelling with
  | none => if named then .next ((go s).modDie die fun d => { d with cancelling := some concerned }) else .next (s.cancelEnd die 2)
  | some us =>
    if us.all fun u => match s.launch? u with | some l => l.st == .done | none => true then .next (s.cancelEnd die 1) else s.stutter

/-- CANCEL.LAUNCH (R324). -/
def execCancelLaunch (die : Nat) (s : State) : Out :=
  let n := s.cancelName die
  let us := s.liveLaunches fun l => l.vmid == n.1 && l.id == n.2
  s.cancel die 1 (!us.isEmpty) us fun s => us.foldl (fun s u => s.cancelLaunch u) s

/-- CANCEL.GRAPH (R324). -/
def execCancelGraph (die : Nat) (s : State) : Out :=
  let n := s.cancelName die
  s.cancel die 2 (s.workIdx n.1 1 n.2).isSome (s.graphLaunches n.1 n.2) fun s => s.cancelGraph n.1 n.2

/-- CANCEL.PHASE (R324). -/
def execCancelPhase (die : Nat) (s : State) : Out :=
  let n := s.cancelName die
  s.cancel die 3 (s.workIdx n.1 2 n.2).isSome ((s.graphsOf n.1 n.2).flatMap (s.graphLaunches n.1)) fun s => s.cancelPhase n.1 n.2

/-- CANCEL.JOB (R324). -/
def execCancelJob (die : Nat) (s : State) : Out :=
  let n := s.cancelName die
  let phases := (s.work.filter fun w => w.vmid == n.1 && w.kind == 2).map (·.id)
  let alone := s.liveLaunches fun l => l.vmid == n.1 && l.graph == 0
  let us := alone ++ (phases.flatMap (s.graphsOf n.1)).flatMap (s.graphLaunches n.1)
  s.cancel die 4 ((s.workIdx n.1 3 0).isSome || !us.isEmpty) us fun s =>
    alone.foldl (fun s u => s.cancelLaunch u) (phases.foldl (fun s p => s.cancelPhase n.1 p) s)

end Sys2Proof.Machine
end

