-- ==== Sys2Proof/Machine/Actors.lean ====
section
/-! DEFINITION. Rendering actors at the Maltster: registration, grants and headers (R265-R271), shrinking (R285), and the queues that
it serves: ACTOR queues (R286), and LAUNCH queues with the placement of units (R256, R328). -/

namespace Sys2Proof.Machine

/-! The record (R265) -/

/-- A word of an actor's record. -/
def Actor.word (a : Actor) (i : Nat) : Nat := (a.record.getD i 0).toNat
/-- The tile-local index of the actor cells. -/
def Actor.index (a : Actor) : Nat := bitsOf (a.word 0) 5 0
/-- The region tile of the template. -/
def Actor.home (a : Actor) : Nat := bitsOf (a.word 0) 9 6
/-- s0, the packet slot. -/
def Actor.slot0 (a : Actor) : Nat := bitsOf (a.word 0) 37 32
/-- s1, the second peer slot. -/
def Actor.slot1 (a : Actor) : Nat := bitsOf (a.word 0) 45 40
/-- b, the base of the peer entries. -/
def Actor.base (a : Actor) : Nat := bitsOf (a.word 0) 53 48
/-- M, the most tiles. -/
def Actor.most (a : Actor) : Nat := bitsOf (a.word 0) 59 56
/-- N0, the initial tiles. -/
def Actor.first (a : Actor) : Nat := bitsOf (a.word 0) 63 60
/-- GROW_AT. -/
def Actor.growAt (a : Actor) : Nat := bitsOf (a.word 1) 15 0
/-- SHRINK_AT. -/
def Actor.shrinkAt (a : Actor) : Nat := bitsOf (a.word 1) 31 16
/-- GROW_WIN. -/
def Actor.growWin (a : Actor) : Nat := bitsOf (a.word 1) 63 32
/-- SHRINK_WIN. -/
def Actor.shrinkWin (a : Actor) : Nat := bitsOf (a.word 2) 31 0
/-- The header's offset in local memory. -/
def Actor.header (a : Actor) : Nat := bitsOf (a.word 2) 63 32
/-- The actor cell of a tile. -/
def Actor.cell (a : Actor) (t : Nat) : Nat := cellOf t a.index
/-- The actor cells. -/
def Actor.cells (a : Actor) : List Nat := a.tiles.map a.cell
/-- An actor that holds no tile, with a status. -/
def Actor.refused (status : Nat) : Actor := ⟨[], [], [], 0, 0, 0, [], BitVec.ofNat 8 status⟩

/-- The bits of a record that R265 leaves, and its limits. -/
def Actor.limitsOk (a : Actor) : Bool :=
  bitsOf (a.word 0) 31 10 == 0 && bitsOf (a.word 0) 39 38 == 0 && bitsOf (a.word 0) 47 46 == 0 && bitsOf (a.word 0) 55 54 == 0 && a.word 7 == 0 &&
    decide (a.base + 2 * a.most ≤ 63) && decide (1 ≤ a.first) && decide (a.first ≤ a.most) && decide (a.most ≤ 8) && decide (1 ≤ a.growAt) &&
    decide (1 ≤ a.growWin) && a.header % 64 == 0 && decide (0x4000 ≤ a.header) && decide (a.header ≤ 0x17F40)

/-- A slot is a HANDLER of arity L. -/
def CellPlane.handlerL (p : CellPlane) (i : Nat) : Bool := (p.slot i).kind == 1 && (p.slot i).arity == 0

/-- The template is a T-cell of a token tile that holds code, its slots s0 and s1 take packets, and its peer entries are zero. -/
def State.templateOk (s : State) (l : Launch) (a : Actor) (t : Nat) : Bool :=
  let c := a.cell t
  let p := s.cp c
  let x := s.getCell c
  !tileStatic t && l.activeCfg.isSome && x.codeCfg == l.activeCfg && x.codeFolio == l.folio && decide (0 < x.codeLen) && p.handlerL a.slot0 && p.handlerL a.slot1 &&
    (upFrom a.base (2 * a.most)).all fun i => smGet 0 p.dests i == 0

/-- 64 bytes on a type-0 page with R, as the Maltster of a die reads them. -/
def State.actorBytes (s : State) (l : Launch) (va : Nat) : Option Nat :=
  if va % 64 ≠ 0 then none
  else match s.engineTarget l.die l.vmid va .r with
  | some t => if t.ty = 0 then some (memRead s.mem t.flat 64) else none
  | none => none

/-- The 64 bytes of a partition, at any address. -/
def State.partBytes (s : State) (l : Launch) (va : Nat) : Option (List Nat) :=
  (List.range 64).mapM fun i => match s.engineTarget l.die l.vmid (va + i) .r with
    | some t => if t.ty = 0 then some (memByte s.mem t.flat).toNat else none
    | none => none

/-- The actor that a record describes, with its first partition, when it keeps R265. -/
def State.readActor (s : State) (l : Launch) (va : Nat) : Option Actor :=
  match s.actorBytes l va with
  | none => none
  | some r =>
    let a : Actor := { Actor.refused 2 with record := (List.range 8).map fun i => BitVec.ofNat 64 (recField r (8 * i) 8) }
    match l.region[a.home]?, s.partBytes l (a.word 3) with
    | some t, some part =>
      if a.limitsOk && s.templateOk l a t && part.all (fun k => decide (k < a.first)) then some { a with tiles := [t], part := part } else none
    | _, _ => none

/-! Tiles (R267, R269, R270) -/

/-- The free token tiles of a die in order of 10 · tile row + tile column; a tile with the actor cell in BADNODE is passed over. -/
def State.freeTokenTiles (s : State) (die : Nat) (a : Actor) : List Nat :=
  let bad := s.badEntries die
  ((List.range 100).map (die * 100 + ·)).filter fun t =>
    !tileStatic t && (s.owner? t).isNone && !bad.any fun v => badLists v (a.cell t)

/-- A LOCAL destination entry names the cell that holds it. -/
def localFor (c : Nat) (w : BitVec 64) : BitVec 64 := if (destF w.toNat).valid && (destF w.toNat).net == 2 then setBits w 17 0 (destCode c).toNat else w

/-- Step 1 of a grant (R270): a tile joins the unit, and its actor cell is loaded as the template is; its frame base is the template's. -/
def State.loadActor (s : State) (u : Nat) (a : Actor) (t : Nat) : State :=
  let src := a.cell (a.tiles.headD 0)
  let dst := a.cell t
  let p := s.cp src
  let x := s.getCell src
  let seed := (slotF (smGet 0 p.slots 63).toNat)
  let s := s.modTile t fun y => y.takenBy u
  let s := s.modLaunch u fun l => { l with
    region := l.region ++ [t], frames := match smFind l.frames src with | some b => smPut l.frames dst b | none => l.frames }
  let s : State := { s with mem := memClear (memMove s.mem (cellBase src) (cellBase dst) 0x4000) (cellBase dst + 0x4000) 0x14000 }
  let s := s.modCell dst fun y => { y with codeFolio := x.codeFolio, codeCfg := x.codeCfg, codeLen := x.codeLen }
  s.setCp dst { CellPlane.reset with
    slots := p.slots, dests := p.dests.map fun e => (e.1, localFor dst e.2), lfsr := if seed.kind = 5 then [(63, BitVec.ofNat 32 seed.seed)] else [] }

/-- A peer entry: MESH, field L, tagop SAME (R268). -/
def peerEntry (slot c : Nat) : BitVec 64 := BitVec.ofNat 64 (2 ^ 31 + 2 ^ 28 + slot * 2 ^ 18 + (destCode c).toNat)

/-- The peer entries of actor tile i in the cell of another: they name a tile's slots s0 and s1, or are zero. -/
def CellPlane.setPeer (p : CellPlane) (a : Actor) (i : Nat) (t : Option Nat) : CellPlane :=
  match t with
  | some t => { p with dests := smPut (smPut p.dests (a.base + i) (peerEntry a.slot0 (a.cell t))) (a.base + a.most + i) (peerEntry a.slot1 (a.cell t)) }
  | none => { p with dests := smDel (smDel p.dests (a.base + i)) (a.base + a.most + i) }

/-- Every actor cell takes the peer entries of tile i. -/
def State.writePeers (s : State) (a : Actor) (i : Nat) (t : Option Nat) : State := a.cells.foldl (fun s c => s.modCp c fun p => p.setPeer a i t) s

/-- Writes the header of actor tile i, where the actor counts n tiles (R268). -/
def State.writeHeader (s : State) (a : Actor) (i n : Nat) : State :=
  let o := cellBase (a.cell (a.tiles.getD i 0)) + a.header
  let m := a.part.zipIdx.foldl (fun m e => memWrite m (o + e.2) 1 (a.base + e.1)) s.mem
  let m := memWrite m (o + 64) 8 (a.base + i + (a.base + n - 1) * 256)
  { s with mem := memWrite (memWrite (memWrite m (o + 72) 8 (a.word 4)) (o + 80) 8 (a.word 5)) (o + 88) 8 (a.word 6) }

/-- Changes the actor of a unit. -/
def State.modActor (s : State) (u : Nat) (f : Actor → Actor) : State := s.modLaunch u fun l => { l with actor := l.actor.map f }

/-- The Vault's event of an actor (R345). -/
def State.actorEvent (s : State) (u code n : Nat) : State := s.vaultUnit u 0x15 0 (code + n * 2 ^ 8)

/-- The initial tiles are granted, and every header is written (R267). -/
def State.grantFirst (s : State) (u : Nat) (a : Actor) (ts : List Nat) : State :=
  let s := ts.zipIdx.foldl (fun s t => (s.loadActor u a t.1).actorEvent u 1 (t.2 + 2)) s
  let a := { a with tiles := a.tiles ++ ts }
  let s := (List.range a.tiles.length).foldl (fun s i => s.writePeers a i a.tiles[i]?) s
  let s := (List.range a.tiles.length).foldl (fun s i => s.writeHeader a i a.tiles.length) s
  s.modLaunch u fun l => { l with actor := some a }

/-- A unit's actor holds tiles. -/
def Launch.acting (l : Launch) : Option Actor := match l.actor with | some a => if a.tiles.isEmpty then none else some a | none => none

/-- A registration ends with a status and grants nothing. -/
def Launch.refuseActor (l : Launch) (status : Nat) : Launch :=
  match l.acting with
  | some a => { l with actor := some { a with status := BitVec.ofNat 8 status } }
  | none => { l with actor := some (Actor.refused status) }

/-- What a registration comes to (R266, R267). -/
def State.register (s : State) (u : Nat) (l : Launch) (va : Nat) : State :=
  let no (status : Nat) : State := s.setLaunch u (l.refuseActor status)
  if l.acting.isSome then no 5
  else match s.readActor l va with
  | none => no 3
  | some a =>
    let ts := (s.freeTokenTiles l.die a).take (a.first - 1)
    if l.region.length + (a.first - 1) > 16 then no 6
    else if ts.length < a.first - 1 then no 4
    else s.grantFirst u a ts

/-- A unit's request can be answered: it runs, or has ended. -/
def State.answers (s : State) (u : Nat) : Bool :=
  match s.launch? u with
  | some l => l.issues || l.st == .ending || l.st == .done
  | none => true

/-- ACTOR_REGISTER (R266, R267): a write of MALT_ACT is answered; that of a unit that has ended is dropped. -/
def execActorRegister (die : Nat) (s : State) : Out :=
  let rs := (s.getDie die).actReq
  match findIdxFrom (fun r : Nat × Nat × Nat => s.answers r.2.1) rs 0 with
  | none => s.stutter
  | some i =>
    let r := rs.getD i (0, 0, 0)
    let s := s.modDie die fun d => { d with actReq := removeAt d.actReq i }
    match s.launch? r.2.1 with
    | some l => if l.issues then .next (s.register r.2.1 l r.2.2) else .next s
    | none => .next s

/-! Depth (R269) -/

/-- The depth of a tile: packets at slot s0 of its actor cell, and packets committed toward it that have not arrived. -/
def State.tileDepth (s : State) (a : Actor) (t : Nat) : Nat :=
  let c := a.cell t
  ((s.cp c).store.filter fun e => e.tok.slot.toNat == a.slot0 && !e.more.isEmpty).length +
    (s.net.filter fun n => destCell n.tok.dest == c && n.tok.slot.toNat == a.slot0 && !n.more.isEmpty && a.cells.contains n.src).length

/-- The depth of an actor. -/
def State.depth (s : State) (a : Actor) : Nat := (a.tiles.map (s.tileDepth a)).sum

/-- The least place at which a number is the largest. -/
def argMax (xs : List Nat) : Nat := (findIdxFrom (fun x => x == xs.foldl max 0) xs 0).getD 0

/-- The least place at which a number is the smallest. -/
def argMin (xs : List Nat) : Nat := (findIdxFrom (fun x => xs.all fun y => decide (x ≤ y)) xs 0).getD 0

/-- The buckets of a tile, in increasing order. -/
def Actor.buckets (a : Actor) (i : Nat) : List Nat := (List.range 64).filter fun k => a.part.getD k 0 == i

/-- Some buckets pass to a tile. -/
def Actor.pass (a : Actor) (ks : List Nat) (i : Nat) : Actor := { a with part := a.part.zipIdx.map fun e => if ks.contains e.2 then i else e.1 }

/-! Grants (R270) -/

/-- A grant begins (R269, R270 step 1), or no tile can be had and the count restarts. -/
def State.beginGrant (s : State) (u : Nat) (l : Launch) (a : Actor) : State :=
  let n := a.tiles.length
  let again (s : State) : State := s.modActor u fun a => { a with growClk := 0 }
  if l.region.length ≥ 16 then again (s.actorEvent u 4 n)
  else match s.freeTokenTiles l.die a with
  | [] => again (s.actorEvent u 3 n)
  | t :: _ => (s.loadActor u a t).modActor u fun a => { a with growClk := 0, tiles := a.tiles ++ [t], stage := 1 }

/-- Steps 2 and 3 of a grant: the new tile's peer entries, and its buckets from the hottest tile. -/
def State.splitGrant (s : State) (u : Nat) (a : Actor) : State :=
  let n := a.tiles.length - 1
  let s := s.writePeers a n a.tiles[n]?
  let ks := a.buckets (argMax (a.tiles.map (s.tileDepth a)))
  let a := a.pass (ks.drop (ks.length / 2)) n
  s.modActor u fun _ => { a with stage := 2, pend := n :: List.range n }

/-- The next header, once no block of its cell runs. -/
def State.nextHeader (s : State) (u : Nat) (a : Actor) (n : Nat) (last : Actor → Actor) : Option State :=
  match a.pend with
  | [] => none
  | i :: r =>
    if (s.getCell (a.cell (a.tiles.getD i 0))).block.isSome then none
    else some ((s.writeHeader a i n).modActor u fun a => (if r.isEmpty then last else id) { a with pend := r })

/-- The actor of a unit that the Maltster may act on. -/
def State.actor? (s : State) (u : Nat) : Option (Launch × Actor) :=
  match s.launch? u with
  | some l => if l.issues then l.acting.map fun a => (l, a) else none
  | none => none

/-- ACTOR_GRANT (R269, R270): a grant begins, or its next step runs. -/
def execActorGrant (u : Nat) (s : State) : Out :=
  match s.actor? u with
  | none => s.stutter
  | some (l, a) =>
    if a.stage = 1 then .next (s.splitGrant u a)
    else if a.stage = 2 then
      (match s.nextHeader u a a.tiles.length fun a => { a with stage := 0 } with
       | some t => .next (if a.pend.length = 1 then t.actorEvent u 1 a.tiles.length else t)
       | none => s.stutter)
    else if a.stage = 0 && decide (a.growWin ≤ a.growClk) && decide (a.tiles.length < a.most) then .next (s.beginGrant u l a)
    else s.stutter

/-! Shrinking (R285) -/

/-- Step 1 of a shrink: the leaving tile's buckets pass to the remaining tile of least depth. -/
def State.beginShrink (s : State) (u : Nat) (a : Actor) : State :=
  let n := a.tiles.length - 1
  let a := a.pass (a.buckets n) (argMin ((a.tiles.take n).map (s.tileDepth a)))
  s.modActor u fun _ => { a with stage := 3, pend := List.range (n + 1) }

/-- ACTOR_SHRINK (R285 steps 1 and 2): a shrink begins, or its next header is written, the leaving tile's last. -/
def execActorShrink (u : Nat) (s : State) : Out :=
  match s.actor? u with
  | none => s.stutter
  | some (_, a) =>
    if a.stage = 3 then
      (match s.nextHeader u a (a.tiles.length - 1) fun a => { a with stage := 4 } with
       | some t => .next t
       | none => s.stutter)
    else if a.stage = 0 && a.shrinkWin ≠ 0 && decide (2 ≤ a.tiles.length) && decide (a.shrinkWin ≤ a.shrinkClk) then .next (s.beginShrink u a)
    else s.stutter

/-- The leaving cell holds no token and none is committed toward it; it has nothing in flight, and no command names its tile. -/
def State.leaves (s : State) (a : Actor) (t : Nat) : Bool :=
  let c := a.cell t
  let x := s.getCell c
  x.block.isNone && (s.cp c).store.isEmpty && (s.cp c).chans.all (·.2.isEmpty) && x.hold.all (·.2.isEmpty) && x.sbuf.isEmpty &&
    s.net.all (fun n => destCell n.tok.dest != c) && s.msgs.all (fun m => m.agent != cellAgent c) &&
    (List.range 4).all fun p => ((s.getTile t).port p).entries.isEmpty

/-- SHRINK_RELEASE (R285 steps 3 and 4). -/
def execShrinkRelease (u : Nat) (s : State) : Out :=
  match s.actor? u with
  | none => s.stutter
  | some (l, a) =>
    let n := a.tiles.length - 1
    let t := a.tiles.getD n 0
    let a' := { a with tiles := a.tiles.take n, stage := 0, growClk := 0, shrinkClk := 0 }
    if a.stage ≠ 4 || !s.leaves a t || a'.cells.any (fun c => (s.getCell c).block.isSome) then s.stutter
    else
      let s := (s.writePeers a' n none).freeTiles u { l with region := [t] }
      let s := s.modLaunch u fun l => { l with region := l.region.filter (· != t), actor := some a' }
      .next (s.actorEvent u 2 n)

/-! The Maltster's queues (R256, R286) -/

/-- A write of MALT_QBIND that binds (1) or unbinds (0) is answered next. -/
def State.bindAsked (s : State) (die : Nat) (bind : Bool) : Option (Nat × Nat × Nat) :=
  match (s.getDie die).bindReq with
  | (agent, v, u) :: _ => if bitOf v.toNat 20 == bind then some (agent, u, bitsOf v.toNat 19 0) else none
  | [] => none

/-- A unit that has an active actor. -/
def State.actingUnit (s : State) (u : Nat) : Option Launch :=
  match s.launch? u with
  | some l => if l.acting.isSome && l.st != .ending && l.st != .done then some l else none
  | none => none

/-- Binds or unbinds a queue for the unit that wrote the register: it must be OPEN, of kind ACTOR, of the unit's VMID and on this die; otherwise the write is discarded. -/
def State.bindQueue (s : State) (die agent u id : Nat) (bind : Bool) : State :=
  let s := s.modDie die fun d => { d with bindReq := d.bindReq.drop 1 }
  let p := queuePlace id
  let x := s.queue die p.2
  match s.actingUnit u with
  | some l =>
    if p.1 = die && x.state = 1 && x.kind = 2 && x.vmid = l.vmid then
      s.setQueue die p.2 { x with boundTo := if bind then some u else if x.boundTo = some u then none else x.boundTo }
    else s.vault die ⟨0x11, 0x85, 0, placeTile (agentTile agent), l.id.toNat, l.vmid.toNat, 0⟩
  | none => s.vault die ⟨0x11, 0x85, 0, placeTile (die * 100), 0, 0, 0⟩

/-- QUEUE_BIND (R286). -/
def execQueueBind (die : Nat) (s : State) : Out :=
  match s.bindAsked die true with
  | some (agent, u, id) => .next (s.bindQueue die agent u id true)
  | none => s.stutter

/-- QUEUE_UNBIND (R286). -/
def execQueueUnbind (die : Nat) (s : State) : Out :=
  match s.bindAsked die false with
  | some (agent, u, id) => .next (s.bindQueue die agent u id false)
  | none => s.stutter

/-- The actor tiles that a record may go to: a tile whose first header is not yet written, or that leaves, is none. -/
def Actor.open_ (a : Actor) : List Nat :=
  let n := a.tiles.length - 1
  if a.stage = 1 || a.stage ≥ 3 || a.pend.contains n && a.stage == 2 then a.tiles.take n else a.tiles

/-- Beat k of a record. -/
def QRec.beat (r : QRec) (k : Nat) : Word := BitVec.ofNat 64 (recField r.data.toNat (8 * k) 8)

/-- The bucket of a packet's top entry, when beat 4 [50:48] is 1 to 6: bits [4:0] of the entry with its leaf bit as bit 5. -/
def QRec.bucket (r : QRec) : Option Nat :=
  let sp := bitsOf (r.beat 4).toNat 50 48
  if sp = 0 || sp > 6 then none
  else let e := recField r.data.toNat (36 + 4 * sp) 4; some (bitsOf e 4 0 + bitsOf e 31 31 * 32)

/-- The packet of a record for an actor cell: 8 beats of I64 with the unit's current context, to slot s0. -/
def recordPacket (u : Nat) (l : Launch) (a : Actor) (c : Nat) (r : QRec) : NetTok :=
  let g : Tag := ⟨levelCtx l.depth, 0, 0⟩
  let head := Token.seal { mkTok (destCode c) a.slot0 0 g 0 0 (r.beat 0) with beats := 7 }
  ⟨head, followers head ((upFrom 1 7).map r.beat) 1, c, c, u, false, none, true, false⟩

/-- The actor tile for a record: the owner of its bucket, or the tile of least depth. -/
def State.recordTile (s : State) (a : Actor) (r : QRec) : Nat :=
  match r.bucket with
  | some k => a.tiles.getD (a.part.getD k 0) 0
  | none => a.open_.getD (argMin (a.open_.map (s.tileDepth a))) 0

/-- A record that an ACTOR queue may give now: its unit, its actor's cell and packet, and the scope to which it is widened (R257, R286). -/
def State.recordMove (s : State) (x : Queue) : Option (Nat × NetTok × QRec) :=
  match x.recs, x.boundTo.bind fun u => (s.actor? u).map fun p => (u, p) with
  | r :: _, some (u, l, a) =>
    let t := s.recordTile a r
    let k := recordPacket u l a (a.cell t) r
    let scope := scopeFor r.agent (tileDie t)
    if x.kind != 2 || r.spilled || decide (8 * a.tiles.length ≤ s.depth a) || !s.placesFor [k] then none
    else if recInScope r t then some (u, k, r)
    else if s.producerDone r.agent scope r.added then some (u, k, { r with scope := scope }) else none
  | _, _ => none

/-- The actor that a queue's oldest record goes to has room for it (R286). -/
def State.recordFits (s : State) (x : Queue) : Bool :=
  match x.recs, x.boundTo.bind fun u => (s.actor? u).map fun p => (u, p) with
  | r :: _, some (u, l, a) => decide (s.depth a < 8 * a.tiles.length) && s.placesFor [recordPacket u l a (a.cell (s.recordTile a r)) r]
  | _, _ => false

/-- The Maltster would take a record of a queue: a LAUNCH queue that holds one, or an ACTOR queue whose actor has room. -/
def State.offers (s : State) (x : Queue) : Bool := if x.kind = 1 then !x.recs.isEmpty else x.kind == 2 && s.recordFits x

/-- The queue of a die that its Maltster serves next: the lowest class, and within a class in turn by queue index (R256). -/
def State.nextQueue (s : State) (die : Nat) : Option Nat :=
  let d := s.getDie die
  let qs := d.queues.filter fun e => s.offers e.2
  let best := (qs.map fun e => e.2.cls.toNat).foldl min 7
  let ids := (qs.filter fun e => e.2.cls.toNat == best).map (·.1)
  match ids.find? (fun q => match smFind d.lastQueue best with | some p => decide (p < q) | none => true) with
  | some q => some q
  | none => ids.head?

/-- The oldest record leaves a queue for the Maltster. -/
def State.serveNext (s : State) (die q : Nat) : State :=
  let x := s.queue die q
  (s.modDie die fun d => { d with lastQueue := smPut d.lastQueue x.cls.toNat q }).setQueue die q { x with recs := x.recs.drop 1 }

/-- The Maltster of a die takes a launch record where its turn has come (R256, R328); one in the overflow area, or whose release is being widened,
waits for its turn to end. -/
def State.takeNext (s : State) (die : Nat) : Option State :=
  match s.nextQueue die with
  | none => none
  | some q =>
    let x := s.queue die q
    match x.recs with
    | [] => none
    | r :: _ =>
      if x.kind ≠ 1 || r.spilled || !s.recReady die x r then none
      else some (((s.serveNext die q).takeRecord die x.vmid (s.widenFor die x r) false).serveQueue die q)

/-- UNIT_PLACE (R328): the Maltster of a die takes a record from a LAUNCH queue, refuses a launch that no die can place, or places the
next waiting unit. -/
def execUnitPlace (die : Nat) (s : State) : Out :=
  if die ≥ 16 || (s.getDie die).excluded || s.mod.warmBusy then s.stutter
  else match s.takeNext die with
  | some s => .next s
  | none =>
    match s.unplaceable die with
    | some u => .next (s.faultLaunch u 0xE7 (die * 100) 0)
    | none =>
      match s.nextUnit die with
      | none => s.stutter
      | some u =>
        match s.launch? u with
        | none => s.stutter
        | some l =>
          match l.st == .waiting, s.placement l with
          | true, some (d, p) => .next (s.placeUnit u l d p)
          | _, _ => s.stutter

/-- ACTOR_RECORD_MOVE (R286): the oldest record of a bound queue becomes a packet; its tile's LCLK takes the record's WHW first. -/
def execActorRecordMove (die : Nat) (s : State) : Out :=
  match if s.mod.warmBusy then none else s.nextQueue die with
  | none => s.stutter
  | some q =>
    let x := s.queue die q
    match s.recordMove x with
    | none => s.stutter
    | some (u, k, r) =>
      let s := (s.serveNext die q).raiseLclk (cellTile k.pos) r.whw
      .next ((State.touchTok { s with net := s.net ++ [k] } u).serveQueue die q)

end Sys2Proof.Machine
end

