-- ==== Sys2Proof/Machine/Hosts.lean ====
section
/-! DEFINITION. Host ports and peers: IRQ_RAISE and vectors (R348), the map of BAR0 (R347), the device memory window (R349, R350), type-1
accesses (R351), Kelmar Link-X (R352) and attestation (R354). -/

namespace Sys2Proof.Machine

/-! IRQ_RAISE (R348) -/

/-- The launch of an agent, 0 for none. -/
def State.agentUnit (s : State) (a : Nat) : Nat := (s.owner? (agentTile a)).getD 0

/-- The release at SYSTEM that a write of IRQ_RAISE is; a host port's writes have performed. -/
def State.irqRelease (s : State) (a : Nat) : Bool × State := if a ≥ 2 ^ 32 then (true, s) else s.release a (s.agentUnit a) 3

/-- Takes a request off a die's list. -/
def State.dropIrq (s : State) (die i : Nat) : State := s.modDie die fun d => { d with irq := removeAt d.irq i }

/-- IRQ_RAISE (R226, R348): a write whose release has ended raises its vector on both ports; until one has, the oldest goes on releasing. -/
def execIrqRaise (die : Nat) (s : State) : Out :=
  let rs := (s.getDie die).irq
  match findIdxFrom (fun r : Nat × Nat => (s.irqRelease r.1).1) rs 0 with
  | some i =>
    let r := rs.getD i (0, 0)
    .next (((s.irqRelease r.1).2.dropIrq die i).interrupt r.2)
  | none =>
    match rs with
    | r :: _ => .next (s.irqRelease r.1).2
    | [] => s.stutter

/-! BAR0 (R347) -/

/-- A register of the module block as the host reads it. -/
def State.moduleRead (s : State) (off : Nat) : Word :=
  if off ≥ 0x100 && off < 0x140 then smGet 0 s.mod.boot ((off - 0x100) / 8)
  else if off = 0x300 then (if s.mod.warmBusy then 2 else 0)
  else if off = 0x820 then 0
  else s.mreg off

/-- The writable bits of a register of the module block (R349, R352, R354). -/
def moduleMask (off : Nat) : Nat :=
  if off = 0 then ones 7 0
  else if off = 0x200 then ones 63 48 + ones 39 0
  else if off ≥ 0x800 && off < 0x820 then ones 63 0
  else if off ≥ 0x1000 && off < 0x1800 then ones 15 0
  else if off ≥ 0x1800 && off < 0x1820 then ones 63 0
  else 0

/-- Writes a register of the module block: `v` holds the written bytes in place, `m` their bits. WRESET's go starts a warm reset; a write of 1
to 0x820 asks for an attestation, and the result area reads zero until its result is ready. -/
def State.moduleWrite (s : State) (off v m : Nat) : State :=
  if off = 0x300 then (if bitOf (v &&& m) 0 then { s with mod := { s.mod with warmBusy := true } } else s)
  else if off = 0x820 then (if v &&& m = 1 then State.setMreg { s with mem := memClear s.mem (moduleBase 0 + 0x4000) 0x2000 } off 1 else s)
  else if moduleMask off = 0 then s
  else s.setMreg off (maskIn (s.mreg off).toNat v (m &&& moduleMask off))

/-! MSI-X (R348): the standard table of 16-byte entries, address in [63:0], data in [95:64] and the mask in [96], and the pending bits -/

/-- An offset of BAR0 lies in a port's MSI-X table. -/
def msixTable (off : Nat) : Bool := decide (0x80000 ≤ off) && decide (off < 0x88000)
/-- The pending-bit array. -/
def msixPending (off : Nat) : Bool := decide (0xA0000 ≤ off) && decide (off < 0xA0100)
/-- The bytes of an entry of the table that a register's place holds: 8 bytes from byte `half` · 8 on. -/
def msixHalf (e : BitVec 128) (half : Nat) : Nat := bitsOf e.toNat (64 * half + 63) (64 * half)

/-- A pending vector whose entry is not masked is sent. -/
def ModuleBlk.unmask (m : ModuleBlk) (k : Nat) : ModuleBlk :=
  if m.pending.contains k && !(m.entry k).getLsbD 96 then
    { m with pending := m.pending.filter (· != k), raised := m.raised ++ [(k / 2048, k % 2048)] }
  else m

/-- Writes 8 bytes of an entry of the table under a mask; bits [127:97] are reserved and read zero. -/
def ModuleBlk.setEntry (m : ModuleBlk) (k half v mask : Nat) : ModuleBlk :=
  let e := (m.entry k).toNat
  let w := (maskIn (msixHalf (m.entry k) half) v (mask &&& if half = 0 then ones 63 0 else ones 32 0)).toNat
  ModuleBlk.unmask { m with msix := smPut m.msix k (BitVec.ofNat 128 (e - msixHalf (m.entry k) half * 2 ^ (64 * half) + w * 2 ^ (64 * half))) } k

/-- One byte of a port's pending-bit array. -/
def ModuleBlk.pendingByte (m : ModuleBlk) (port i : Nat) : Nat :=
  ((List.range 8).map fun b => if m.pending.contains (2048 * port + 8 * i + b) then 2 ^ b else 0).sum

/-- The result area of ATTEST. -/
def attestArea (off : Nat) : Bool := decide (0x4000 ≤ off) && decide (off < 0x6000)

/-- One byte of BAR0 (R347). -/
def State.bar0Byte (s : State) (port off : Nat) : Nat :=
  if off < 0x1000000 then
    if attestArea off then (memByte s.mem (moduleBase 0 + off)).toNat
    else if msixTable off then bitsOf (s.mod.entry (2048 * port + (off - 0x80000) / 16)).toNat (8 * (off % 16) + 7) (8 * (off % 16))
    else if msixPending off then s.mod.pendingByte port (off - 0xA0000)
    else bitsOf (s.moduleRead (off / 8 * 8)).toNat (8 * (off % 8) + 7) (8 * (off % 8))
  else if off < 0x3000000 && !s.mod.moduleOnly then
    let d := (off - 0x1000000) / 0x200000
    let o := off % 0x200000
    if o < 0x1000 then s.regBytes (hostAgent port) (regBase d 6500 + o) 1
    else if 0x10000 ≤ o && o < 0x30000 then
      bitsOf (smGet 0 (s.getDie d).vault ((o - 0x10000) / 32)).toNat (8 * (o % 32) + 7) (8 * (o % 32))
    else if 0x40000 ≤ o && o < 0x80000 then (memByte s.mem (snapBase d ((o - 0x40000) / 0x10000) + o % 0x10000)).toNat
    else if 0x80000 ≤ o && o < 0x80000 + 0x1000 * 100 then s.regBytes (hostAgent port) (regBase d (6400 + (o - 0x80000) / 0x1000) + o % 0x1000) 1
    else 0
  else 0

/-- n bytes of BAR0, least significant first. -/
def State.bar0Read (s : State) (port off n : Nat) : Nat := ((List.range n).map fun i => s.bar0Byte port (off + i) * 2 ^ (8 * i)).sum

/-- A write of a snapshot window's status word (R168, R169): an action on a held region, or 0 in valid, which frees a window. -/
def State.snapWrite (s : State) (die w v : Nat) : State :=
  if bitsOf v 62 61 ≠ 0 then s.snapAct die w (bitsOf v 62 61) else if bitOf v 63 then s else s.snapFree die w

/-- Writes n bytes that lie within one 8-byte register of BAR0. -/
def State.bar0Put (s : State) (port off n v : Nat) : State :=
  let sh := 2 ^ (8 * (off % 8))
  let w := v % 2 ^ (8 * n) * sh
  let m := (2 ^ (8 * n) - 1) * sh
  if off < 0x1000000 then
    if msixTable off then { s with mod := s.mod.setEntry (2048 * port + (off - 0x80000) / 16) (off / 8 % 2) w m }
    else s.moduleWrite (off / 8 * 8) w m
  else if off < 0x3000000 && !s.mod.moduleOnly then
    let d := (off - 0x1000000) / 0x200000
    let o := off % 0x200000
    if o < 0x1000 then s.regWrite d 6500 o n v (hostAgent port)
    else if 0x40000 ≤ o && o < 0x80000 then (if o % 0x10000 = 0 && n = 8 then s.snapWrite d ((o - 0x40000) / 0x10000) v else s)
    else if 0x80000 ≤ o && o < 0x80000 + 0x1000 * 100 then s.regWrite d (6400 + (o - 0x80000) / 0x1000) (o % 0x1000) n v (hostAgent port)
    else s
  else s

/-- Writes n bytes of BAR0, one 8-byte register at a time. -/
def State.bar0Write (port : Nat) : Nat → Nat → Nat → Nat → State → State
  | 0, _, _, _, s => s
  | fuel + 1, off, n, v, s =>
    if n = 0 then s
    else
      let k := min n (8 - off % 8)
      State.bar0Write port fuel (off + k) (n - k) (v / 2 ^ (8 * k)) (s.bar0Put port off k v)

/-! The device memory window (R349, R350) -/

/-- A request of the window is refused with a cause: 0xF1, or 0xF7 where its home is an excluded die (R349, R353). -/
def State.windowFault (s : State) (cause : Nat) : State := s.vault 0 ⟨0x11, cause, 0, placeTile 0, 0, 0, 0⟩

/-- The VA of an offset of BAR4. -/
def State.hostVa (s : State) (off : Nat) : Nat := bitsOf (s.mreg 0x200).toNat 39 0 * 2 ^ 16 + off

/-- The leaf and target of a VA of a job on a type-0 page with a permission, as die 0's JOBDIR translates it, or the cause of the refusal. -/
def State.outsideTarget (s : State) (vmid : BitVec 16) (va : Nat) (need : Need) : Except Nat (Word × Target) :=
  if va ≥ 2 ^ 56 then .error 0xF1
  else match walkPage s.mem (s.jobdir 0) vmid (va / 2 ^ 16) with
  | .leaf pte size =>
    let t := leafTarget pte size va
    if !permOk need pte || t.ty != 0 then .error 0xF1 else if (s.getDie t.home).excluded then .error 0xF7 else .ok (pte, t)
  | .fail _ _ => .error 0xF1

/-- The leaf and target of an offset of BAR4 in HOSTWIN's job. -/
def State.hostTarget (s : State) (off : Nat) (need : Need) : Except Nat (Word × Target) :=
  s.outsideTarget ((s.mreg 0x200).extractLsb' 48 16) (s.hostVa off) need

/-- A host or peer access at a type-0 home in its turn (R210): where its page migrates it joins the queue, and it performs once the queue before
it has been replayed. -/
def State.hostAt (s : State) (port flat kind : Nat) (perform : State → Out) : Out :=
  match s.hostTurn port flat kind with
  | .wait => s.stutter
  | .queue => .next (s.sendFrom (hostAgent port) 0 (homeDie flat) (.host port flat kind)).heldLast
  | .go =>
    match findIdxFrom (fun m : Msg => m.kind == .host port flat kind) s.msgs 0 with
    | some k => perform (s.dropMsg k)
    | none => perform s

/-- A request of BAR4 of n bytes within one 64-byte line. -/
def bar4Shape (off n : Nat) : Bool := decide (1 ≤ n) && decide (off % 64 + n ≤ 64) && decide (off + n ≤ 2 ^ 40)

/-- HOST_READ (R347, R349): an 8-byte read of the launch window reserves (R258). -/
def execHostRead (port bar off n : Nat) (s : State) : Out :=
  if port ≥ 2 || n = 0 || n > 64 then s.stutter
  else if s.mod.warmBusy && !(bar == 0 && off / 8 == 0x300 / 8) then .next s.hostAbort
  else if bar = 0 then .next (s.hostAnswer (BitVec.ofNat 512 (s.bar0Read port off n)))
  else if s.mod.moduleOnly then .next s.hostUnclaimed
  else if bar = 2 then (if n = 8 then execLaunchWindowReserve port off s else .next ((s.windowRead off).hostAnswer 0))
  else if bar ≠ 4 || !bar4Shape off n then s.stutter
  else match s.hostTarget off .r with
  | .error cause => .next (s.windowFault cause).hostAbort
  | .ok (_, t) => s.hostAt port t.flat 0 fun s => .next ((s.fillLine (t.flat / 64 * 64)).hostAnswer (BitVec.ofNat 512 (memRead s.mem t.flat n)))

/-- A write of a port took a timestamp (R258). -/
def State.hostTime (s : State) (port : Nat) (ts : BitVec 32) : State :=
  { s with mod := { s.mod with hostTs := smPut s.mod.hostTs port (tsMax (smGet 0 s.mod.hostTs port) ts) } }

/-- A host or peer write performs at a type-0 home: it takes ts := H.rts + 1 (R224). -/
def State.hostStore (s : State) (port : Nat) (t : Target) (n v : Nat) : Out :=
  let line := t.flat / 64 * 64
  let s := s.fillLine line
  let ts := s.writeTs line 0
  if ts ≥ 2 ^ 32 then .next (s.askRebase t.home)
  else .next ((s.homeWrite t.flat n v (BitVec.ofNat 32 ts)).hostTime port (BitVec.ofNat 32 ts))

/-- HOST_WRITE (R224, R347, R349): a posted write; at a type-0 home it takes ts := H.rts + 1. -/
def execHostWrite (port bar off n : Nat) (data : BitVec 512) (s : State) : Out :=
  if port ≥ 2 || n = 0 || n > 64 then s.stutter
  else if s.mod.warmBusy && !(bar == 0 && off / 8 == 0x300 / 8) then s.stutter
  else if bar = 0 then .next (State.bar0Write port 9 off n data.toNat s)
  else if s.mod.moduleOnly then s.stutter
  else if bar = 2 then execLaunchWindowAdd port off n data s
  else if bar ≠ 4 || !bar4Shape off n then s.stutter
  else match s.hostTarget off .w with
  | .error cause => .next (s.windowFault cause)
  | .ok (_, t) => s.hostAt port t.flat 1 fun s => s.hostStore port t n data.toNat

/-- An AtomicOp performs at its home's Concordance with a code of R47. -/
def State.hostSync (s : State) (port : Nat) (t : Target) (n op : Nat) (a b : Word) : Out :=
  let line := t.flat / 64 * 64
  if (s.getDie t.home).heldOut.contains line then s.stutter
  else
    let s := s.fillLine line
    let ts := s.writeTs line 0
    let d := s.getDie t.home
    if ts ≥ 2 ^ 32 then .next (s.askRebase t.home)
    else match Die.take { d with held := if d.held.contains line then d.held else line :: d.held } (lineKey line) with
    | none => .next (s.vault t.home ⟨0x11, 0x88, 0, placeTile (t.home * 100), 0, 0, 0⟩).hostAbort
    | some d' =>
      let s := s.modDie t.home fun _ => d'
      let old := memRead s.mem t.flat n
      let new := atomicInt op (8 * n) old (a.toNat % 2 ^ (8 * n)) (b.toNat % 2 ^ (8 * n))
      let s := s.homeWrite t.flat n new (BitVec.ofNat 32 ts)
      .next ((s.hostTime port (BitVec.ofNat 32 ts)).hostAnswer (BitVec.ofNat 512 old))

/-- An AtomicOp of n bytes on a page with SYSATOM, bit 9 of the leaf, is performed by the home's Concordance (R201, R204, R224, R350). -/
def State.hostAtomic (s : State) (port off n op : Nat) (a b : Word) : Out :=
  if port ≥ 2 then s.stutter
  else if s.mod.warmBusy || !bar4Shape off n || off % n ≠ 0 then .next s.hostAbort
  else if s.mod.moduleOnly then .next s.hostUnclaimed
  else match s.hostTarget off .rw with
  | .error cause => .next (s.windowFault cause).hostAbort
  | .ok (pte, t) =>
    if !bitOf pte.toNat 9 then .next (s.windowFault 0xF1).hostAbort
    else s.hostAt port t.flat 2 fun s => s.hostSync port t n op a b

/-- A request that the module does not support; while a warm reset runs it ends with Completer Abort as any other (R350, R355). -/
def State.hostUnsupported (s : State) : Out := .next (if s.mod.warmBusy then s.hostAbort else s.hostUnclaimed)

/-- HOST_FETCHADD (R350): 32 or 64 bits, as ADD. -/
def execHostFetchadd (port off n : Nat) (v : BitVec 64) (s : State) : Out :=
  if n = 4 || n = 8 then s.hostAtomic port off n 0x01 v 0 else if port ≥ 2 then s.stutter else s.hostUnsupported

/-- HOST_SWAP (R350): 32 or 64 bits, as XCHG. -/
def execHostSwap (port off n : Nat) (v : BitVec 64) (s : State) : Out :=
  if n = 4 || n = 8 then s.hostAtomic port off n 0x0A v 0 else if port ≥ 2 then s.stutter else s.hostUnsupported

/-- HOST_CAS (R350): 64 bits, as CAS; 32 and 128 bits complete with Unsupported Request. -/
def execHostCas (port off n : Nat) (cmp v : BitVec 64) (s : State) : Out :=
  if n = 8 then s.hostAtomic port off n 0x0B cmp v else if port ≥ 2 then s.stutter else s.hostUnsupported

/-! Accesses that leave the module (R351, R352) -/

/-- An access through a host port or to a peer: type 1 or 2, the port or the peer, and its stream number. -/
def MsgKind.outward? : MsgKind → Option (Nat × Nat × Nat)
  | .access ty home _ _ _ _ => if ty = 1 || ty = 2 then some (ty.toNat, home, 0) else none
  | .streamWr _ _ ty home .. => if ty = 1 || ty = 2 then some (ty.toNat, home, 0) else none
  | .peer _ flow p _ _ => some (2, p, flow / 256 % 256)
  | _ => none

/-- It is the oldest of its agent on its flow, among those that a test accepts. -/
def State.outFirst (s : State) (k : Nat) (m : Msg) (p : Msg → Bool) : Bool :=
  s.noneBefore k fun e => p e && e.agent == m.agent && e.kind.outward?.isSome && e.kind.outward? == m.kind.outward?

/-- The flat address of an access that leaves the module. -/
def MsgKind.outVa : MsgKind → Nat
  | .access _ _ flat _ _ _ => flat
  | .streamWr _ _ _ _ flat .. => flat
  | .peer _ _ _ va _ => va
  | _ => 0

/-- The port of the stream command that a message belongs to. -/
def Msg.streamPort (m : Msg) : Option Nat :=
  match m.kind with
  | .streamWr pn .. => some pn
  | .peer pn .. => some pn
  | _ => if m.agent ≥ 2 ^ 33 then some (m.agent - 2 ^ 33) else none

/-- An access that leaves the module fails: its launch faults; while its colophon is written, the Vault alone records it (log 65). -/
def State.outFault (s : State) (k : Nat) (m : Msg) (cause : Nat) : State :=
  let va := m.kind.outVa
  let s := s.dropMsg k
  match s.launch? m.owner, m.streamPort with
  | some l, none =>
    if l.writing then s.lateFault l cause va
    else (s.modLd m.agent fun x => { x with waiting := false }).faultLaunch m.owner cause (agentTile m.agent) va
  | _, some pn =>
    (match s.headOf (pn / 4) (pn % 4) m.owner with
     | some c => s.streamFault (pn / 4) ((s.getTile (pn / 4)).portKey (pn % 4) m.owner) c cause va
     | none => s.faultLaunch m.owner cause (pn / 4) va)
  | none, none => s.faultLaunch m.owner cause (agentTile m.agent) va

/-- An access that leaves the module has completed: a read gets its bytes, a stream write leaves its command. -/
def State.outDone (s : State) (k : Nat) (m : Msg) (data : BitVec 512) : State :=
  match m.kind with
  | .access _ _ flat n false _ => (s.dropMsg k).giveBytes m.agent flat (data.toNat % 2 ^ (8 * n))
  | .streamWr pn .. => (s.dropMsg k).modHead (pn / 4) (pn % 4) m.owner fun c => { c with waiting := c.waiting - 1 }
  | .peer pn .. => (s.dropMsg k).modHead (pn / 4) (pn % 4) m.owner fun c => { c with waiting := c.waiting - 1 }
  | _ => s.dropMsg k

/-- A message of a type, in its turn. -/
def State.outMsg (s : State) (k ty : Nat) : Option Msg :=
  match s.msgs[k]? with
  | some m => (match m.kind.outward? with | some o => if o.1 = ty then some m else none | none => none)
  | none => none

/-- TYPE1_COMPLETION (R224, R351): the host completes the oldest access of an agent through a port, or ends it with an error. -/
def execType1Completion (k : Nat) (ok : Bool) (data : BitVec 512) (s : State) : Out :=
  match s.outMsg k 1 with
  | none => s.stutter
  | some m =>
    if !s.outFirst k m (fun _ => true) then s.stutter
    else if ok then .next (s.outDone k m data)
    else .next (s.outFault k m 0xF0)

/-- HOST_COMPLETION_TIMEOUT (R351): 50 µs have passed without a completion. -/
def execHostCompletionTimeout (k : Nat) (s : State) : Out :=
  match s.outMsg k 1 with
  | none => s.stutter
  | some m => if m.since + 400000 ≤ s.eighths then .next (s.outFault k m 0xF0) else s.stutter

/-- The peer of an access of type 2. -/
def Msg.peerOf (m : Msg) : Nat := match m.kind.outward? with | some o => o.2.1 | none => 0

/-- A line of free values. -/
def State.freshLine (s : State) : BitVec 512 × State :=
  (BitVec.ofNat 512 (((List.range 8).map fun i => (Config.freeWord (s.tick + i)).toNat * 2 ^ (64 * i)).sum), { s with tick := s.tick + 8 })

/-- XACCEPT admits writes from a module (R352). -/
def State.admits (s : State) (peer : Nat) : Bool := (s.mreg (0x1800 + 8 * (peer / 64 % 4))).getLsbD (peer % 64)

/-- A packet of a peer (R224, R352): where XACCEPT admits its module and its translation does not fail, it is a host-class write to type 0; else
it is refused, and the peer's own launch faults. -/
def State.peerIn (s : State) (p : PeerPacket) : Out :=
  if s.shut || !s.admits p.peer then .next s
  else match s.outsideTarget p.vmid (p.va / 64 * 64) .w with
  | .error _ => .next s
  | .ok (_, t) => s.hostAt (2 + p.peer % 256) t.flat 1 fun s => s.hostStore (2 + p.peer % 256) t 64 p.data.toNat

/-- PEER_WRITE (R352): the oldest packet of a flow that the peer has not seen reaches it. With no port up the launch faults with 0xF3; a
refusal faults it with 0xF4. With a k that names no message, a packet of a peer reaches this module (log 16). -/
def execPeerWrite (k : Nat) (granted : Bool) (s : State) : Out :=
  if k ≥ s.msgs.length then State.peerIn { s with tick := s.tick + 1 } (Config.peerPacket s.tick)
  else match s.outMsg k 2 with
  | none => s.stutter
  | some m =>
    if m.held || !s.outFirst k m (fun e => !e.held) then s.stutter
    else if !s.peerUp m.peerOf then .next (s.outFault k m 0xF3)
    else if !granted then .next (s.outFault k m 0xF4)
    else .next { s with msgs := listSet s.msgs k { m with held := true } }

/-- PEER_ACK (R352): the peer acknowledges the oldest packet of a flow; a read's bytes are the peer's, and so free values (log 16). -/
def execPeerAck (k : Nat) (s : State) : Out :=
  match s.outMsg k 2 with
  | none => s.stutter
  | some m =>
    if !m.held || !s.outFirst k m (fun _ => true) then s.stutter
    else
      let v := s.freshLine
      .next (v.2.outDone k m v.1)

/-- LINK_X_PORT_DOWN (R345, R352): a port leaves or joins the ports that are up; the Vault of die 0 has the event of a link that retrains (log 16). -/
def execLinkXPortDown (port : Nat) (up : Bool) (s : State) : Out :=
  let bit : BitVec 16 := 1 <<< (port % 16)
  if port ≥ 16 then s.stutter
  else .next ((State.vault { s with mod := { s.mod with peersUp := if up then s.mod.peersUp ||| bit else s.mod.peersUp &&& ~~~bit } } 0
    ⟨0x0B, 0, 0, placeTile 0, 0, 0, 0⟩))

/-! Attestation (R354) -/

/-- The nonce: 32 bytes at 0x0800. -/
def State.nonce (s : State) : Nat := ((List.range 4).map fun i => (s.mreg (0x800 + 8 * i)).toNat * 2 ^ (64 * i)).sum

/-- ATTEST (R354): measurements, nonce and signature stand in the result area; where the nonce stands, the measurements and the signature are
free values (log 15). -/
def execAttest (s : State) : Out :=
  if s.mreg 0x820 = 0 then s.stutter
  else
    let m := (List.range 128).foldl (fun m i => memWrite m (moduleBase 0 + 0x4000 + 64 * i) 64 (State.freshLine { s with tick := s.tick + 8 * i }).1.toNat) s.mem
    let m := memWrite m (moduleBase 0 + 0x4000 + Config.nonceAt % (0x2000 - 31)) 32 s.nonce
    .next (State.setMreg { s with mem := m, tick := s.tick + 1024 } 0x820 0)

end Sys2Proof.Machine
end

