-- ==== Sys2Proof/Machine/Resets.lean ====
section
/-! DEFINITION. Start and resets (R353, R355), power and cooling (R356), and the management controller's stop (R341). -/

namespace Sys2Proof.Machine

/-! Start (R353). What fails in a step is the hardware's; what a start does when a required step fails in it for the first time, and which die an
entry names where several fail, are the model's choices (log 15). -/

/-- A start excludes a die: it places nothing, its memory answers no access, and its Vault has the event. -/
def State.excludeDie (s : State) (die : Nat) : State :=
  (s.modDie die fun d => { d with excluded := true }).vault die ⟨0x11, 0xF7, 0, placeTile (die * 100), 0, 0, 0⟩

/-- A start excludes the dies of a set. -/
def State.excludeDies (s : State) (dies : BitVec 16) : State :=
  ((List.range 16).filter dies.getLsbD).foldl (fun s d => s.excludeDie d) s

/-- The excluded dies. -/
def State.outDies (s : State) : BitVec 16 :=
  BitVec.ofNat 16 (((List.range 16).filter fun d => (s.getDie d).excluded).map (2 ^ ·)).sum

/-- Status and failing die of an entry of the boot record. -/
def State.bootWas (s : State) (k : Nat) : Nat × Nat :=
  let w := (smGet 0 s.mod.boot k).toNat
  (w % 256, bitsOf w 11 8)

/-- The lowest bit set, 0 for none. -/
def lowestBit (v : BitVec 16) : Nat := ((List.range 16).find? v.getLsbD).getD 0

/-- A step of a start leaves its entry in the boot record and its event in the Vault of die 0 (R345, R353). -/
def State.bootStep (s : State) (k status die cause : Nat) : State :=
  State.vault { s with mod := { s.mod with boot := smPut s.mod.boot k (BitVec.ofNat 64 (status + die % 16 * 256)) } } 0
    ⟨0x14, cause, 0, placeTile 0, 0, 0, 0⟩

/-- A required step k of a start, 0 to 5: whether the start goes on. One that failed at the last start acts as the table's last column says: the
firmware is taken from the alternate slot, GDDR 7 is retrained at 32 Gb/s, the failing dies are excluded, or the step is tried again. A failed check
of the firmware raises 0xF8 and its image is not run (R354). -/
def State.requiredStep (s : State) (k : Nat) : Bool × State :=
  let was := s.bootWas k
  let again := was.1 == 2
  let bad := if 3 ≤ k then Config.startFails s.tick &&& ~~~s.outDies else Config.startFails s.tick
  let s := { s with tick := s.tick + 1 }
  let out := if again && 3 ≤ k then bad ||| (if 4 ≤ k then 1 <<< was.2 else 0) else 0
  if out ≠ 0 then (true, (s.excludeDies out).bootStep k 2 (lowestBit out) 0)
  else if bad = 0 then (true, s.bootStep k (if again && (k == 1 || k == 3) then 4 else 1) 0 0)
  else (false, s.bootStep k 2 (if k ≤ 1 then 0 else if k = 2 then lowestBit bad / 8 else lowestBit bad) (if k = 1 then 0xF8 else 0))

/-- A step of links of a start, 6 or 7: its ports with a partner train; a step 6 that failed at the last start is skipped, and so is a port of step
7. Kelmar Link-X ports 0 to 7 stand on I/O die 0 and 8 to 15 on I/O die 1, host port p on I/O die p (R2). -/
def State.linkStep (s : State) (k : Nat) : State :=
  let was := s.bootWas k
  let again := was.1 == 2
  let ports : BitVec 16 := if k = 6 then (if again then 0 else BitVec.allOnes 16) else if again then 3 &&& ~~~((1 : BitVec 16) <<< was.2) else 3
  let live := Config.partners s.tick &&& ports
  let bad := live &&& Config.startFails s.tick
  let s := { s with tick := s.tick + 1 }
  let s := if k = 6 then { s with mod := { s.mod with peersUp := live &&& ~~~bad } } else s
  if live = 0 then s.bootStep k 3 0 0
  else if bad = 0 then s.bootStep k 1 0 0
  else s.bootStep k 2 (if k = 6 then lowestBit bad / 8 else lowestBit bad) 0

/-- A start ends at a step: the steps after it are not run, the module block alone is presented, and no die places anything. -/
def State.serviceOnly (s : State) (rest : List Nat) : State :=
  let s := { s with mod := { s.mod with moduleOnly := true, boot := s.mod.boot.filter fun e => !rest.contains e.1 } }
  (List.range 16).foldl (fun s d => s.modDie d fun x => { x with stopped := true }) s

/-- The steps of a start, in order. -/
def State.startSteps : List Nat → State → State
  | [], s => s
  | k :: rest, s =>
    if k < 6 then (match s.requiredStep k with | (true, s) => State.startSteps rest s | (false, s) => s.serviceOnly rest)
    else State.startSteps rest (s.linkStep k)

/-! Resets (R355) -/

/-- The module at power-on: every field at its Reset value; the boot record lies in flash, and the model's own choice of agents goes on. -/
def State.cold (s : State) : State := { State.reset with now := s.now, tick := s.tick, mod := { ModuleBlk.reset with boot := s.mod.boot } }

/-- COLD_RESET (R355): every field takes its Reset value, and the start runs from step 0. -/
def execColdReset (s : State) : Out := .next (State.startSteps (List.range 8) s.cold)

/-- A byte that a warm reset keeps: GDDR 7. -/
def keptByte (a : Nat) : Bool := decide (a < cellBase 0)

/-- A control register that a warm reset keeps: BADNODE and VAULT_CTL. -/
def keptReg (off : Nat) : Bool := (decide (0x800 ≤ off) && decide (off < 0xA00)) || off == 0xB00

/-- What a warm reset leaves of a die. -/
def Die.warm (d : Die) : Die := { Die.reset with regs := d.regs.filter fun e => keptReg e.1, vault := d.vault, excluded := d.excluded }

/-- What a warm reset leaves of the module: kept fields, GDDR 7, the MSI-X tables, the links, the boot record and the images registered from
memory. -/
def State.warm (s : State) : State :=
  { State.reset with
    now := s.now, tick := s.tick, eighths := s.eighths, stamp := s.stamp, rebases := s.rebases, folios := s.folios,
    mem := s.mem.filter fun e => keptByte e.1,
    tiles := (s.tiles.filter fun e => e.2.energy != 0).map fun e => (e.1, { Tile.reset with energy := e.2.energy }),
    dies := s.dies.map fun e => (e.1, e.2.warm),
    mod := { ModuleBlk.reset with regs := s.mod.regs.filter fun e => e.1 == 0, raised := s.mod.raised, hostOut := s.mod.hostOut,
                                  peersUp := s.mod.peersUp, msix := s.mod.msix, pending := s.mod.pending, boot := s.mod.boot,
                                  moduleOnly := s.mod.moduleOnly } }

/-- The event of a launch that a warm reset ends. -/
def State.lostLaunch (s : State) (u : Nat) : State := s.vaultUnit u 0x03 0xF9 0

/-- The event of a launch whose record still waits in a LAUNCH queue. -/
def State.lostRecord (s : State) (die : Nat) (vmid : BitVec 16) (r : QRec) : State :=
  let id := match s.recordBytes die vmid (r.data.toNat % 2 ^ 64) with | some (v, _) => recField v 68 4 | none => 0
  s.vault die ⟨0x03, 0xF9, 0, placeTile (die * 100), id, vmid.toNat, 0⟩

/-- Every launch that has not completed ends (step 2). -/
def State.loseLaunches (s : State) : State :=
  let s := (s.launches.filter fun e => e.2.st != .done).foldl (fun s e => s.lostLaunch e.1) s
  s.dies.foldl (fun s d => d.2.queues.foldl (fun s q => if q.2.kind = 1 then q.2.recs.foldl (fun s r => s.lostRecord d.1 q.2.vmid r) s else s) s) s

/-- Steps 4 and 5 of a start run again; a module whose start never reached them goes on presenting the module block alone (log 15). -/
def State.warmSteps (s : State) : State :=
  if s.mod.moduleOnly && (s.bootWas 4).1 == 0 then s.serviceOnly []
  else State.startSteps [4, 5] { s with mod := { s.mod with moduleOnly := false } }

/-- WARM_RESET (R355): launches are lost, everything that is not kept returns to its cold value, and steps 4 and 5 of the start run. -/
def execWarmReset (s : State) : Out := .next s.loseLaunches.warm.warmSteps

/-- PORT_LINK_RESET (R355): a port's link resets, and nothing of the module with it. -/
def execPortLinkReset (port : Nat) (s : State) : Out := if port < 2 then .next s else s.stutter

/-! Power and cooling (R356) -/

/-- POWER_LIMIT (R348, R356): above the limit clk slows, with a Vault event and vector 32 + d; below it clk runs at its own rate. -/
def execPowerLimit (die : Nat) (above : Bool) (s : State) : Out :=
  if die ≥ 16 || (s.getDie die).throttled == above then s.stutter
  else
    let s := s.modDie die fun d => { d with throttled := above }
    .next (if above then (s.vault die ⟨0x11, 0xF6, 0, placeTile (die * 100), 0, 0, 0⟩).interrupt (32 + die) else s)

/-- THERMAL_STOP (R341, R348, R356): fatal cause 0xF5, with the thermal vector too. -/
def execThermalStop (die : Nat) (s : State) : Out := if die < 16 then .next ((s.fatal die 0xF5).interrupt (32 + die)) else s.stutter

/-- MANAGEMENT_STOP (R341): fatal cause 0xFA. -/
def execManagementStop (die : Nat) (s : State) : Out := if die < 16 then .next (s.fatal die 0xFA) else s.stutter

end Sys2Proof.Machine
end

