-- ==== Sys2Proof/Machine/Clock.lean ====
section
/-! DEFINITION. What each clk does by itself: time (R5, R356), the idle counters (R167, R172), the watchdog (R175), STALLS (R94, R179), energy
(R326), the windows of actors (R269, R285), and how long streams have made no transfer (R331). -/

namespace Sys2Proof.Machine

/-- The step at a lead sequencer is PH.WAIT, PH.SW, Q.TAKE or Q.RSV. -/
def State.atEngineStep (s : State) (lead : Nat) : Bool :=
  match (State.stepWord { s with tile := lead }).map decodeSeq with
  | some (.ok (.phWait ..)) => true
  | some (.ok (.phSw ..)) => true
  | some (.ok (.qTake ..)) => true
  | some (.ok (.qRsv ..)) => true
  | _ => false

/-- The lead sequencer waits at an engine as R167 names: at PH.WAIT, PH.SW, Q.TAKE or Q.RSV, or for an ATOM reply. -/
def State.atEngine (s : State) (lead : Nat) : Bool :=
  match (s.getTile lead).wait with
  | some (.reply _ true) => true
  | some _ => s.atEngineStep lead
  | none => false

/-- The idle counter of a unit counts in this clk, when there is no activity. -/
def State.idles (s : State) (l : Launch) : Bool :=
  (l.st == .running || l.st == .pending) && !l.held && !l.frozen && !s.rebasing && !s.atEngine (l.region.headD 0)

/-- The idle counter after a clk, and the clk in which the present idle time began. -/
def Launch.countIdle (l : Launch) (counts : Bool) : Launch :=
  if l.active then { l with idle := 0 }
  else if !counts then l
  else { l with idle := l.idle + 1, firstIdle := if l.idle = 0 then l.unitClk else l.firstIdle }

/-- The counter of R172 and R331: a commit, a slot firing or token movement ends it. -/
def Launch.countStill (l : Launch) : Launch := { l with still := if l.moved then 0 else l.still + 1, active := false, moved := false }

/-- The watchdog after a clk: it restarts while the lead sequencer is blocked at a waiting step. -/
def Launch.countWdog (l : Launch) (waits : Bool) : Launch :=
  if waits then { l with wdog := 0 } else if (l.st == .running || l.st == .pending) && !l.frozen then { l with wdog := l.wdog + 1 } else l

/-- The windows of an actor after a clk at a depth. -/
def Actor.count (a : Actor) (depth : Nat) : Actor :=
  { a with growClk := if a.growAt ≤ depth then a.growClk + 1 else 0, shrinkClk := if depth ≤ a.shrinkAt then a.shrinkClk + 1 else 0 }

/-- The windows of a unit's actor after a clk. -/
def State.countActor (s : State) (l : Launch) : Launch :=
  match l.acting with
  | some a => if l.issues then { l with actor := some (a.count (s.depth a)) } else l
  | none => l

/-- Energy that a launch is charged: what its tiles draw. -/
def Launch.charged (l : Launch) (uj : Nat) : Launch := { l with charge := l.charge + uj, energyUsed := l.energyUsed + uj }

/-- What the tiles of a unit draw in this clk. -/
def State.draws (s : State) (u : Nat) (l : Launch) : Nat :=
  ((l.region.filter fun t => s.owner? t == some u).map fun t => Config.energyDraw (s.tick + t)).sum

/-- A launch after a clk. A unit's own clk count goes on while it is pre-empted. -/
def State.tickLaunch (s : State) (u : Nat) (l : Launch) : Launch :=
  if l.st == .done || l.st == .waiting then l
  else
    let l' := (s.countActor l).countIdle (s.idles l)
    let l' := (l'.countWdog (s.getTile (l.region.headD 0)).atProgress).countStill
    { l'.charged (s.draws u l) with unitClk := l'.unitClk + if l.start.isSome then 1 else 0 }

/-- A cell waits on a side flit: S1 or MMAQ needs one that is not there, and the code that it must convert next is in S1 or at its input (R94,
R179). -/
def State.sideWait (s : State) (c : Nat) : Bool :=
  let p := s.cp c
  let f := p.stageFields 1
  let code (n k : Nat) : Bool := match p.source n k 0 with | x :: _ => !x.beat && !x.isSide | [] => false
  isVCell c && p.side.isEmpty &&
    (((f.op == 0x24 || f.op == 0x28) && p.needsSide f &&
        (decide (codeWidth f.op ≤ p.row.left) || match s.head c 1 false with | .flit x => !x.beat && !x.isSide | _ => false)) ||
      (upFrom 1 2).any fun n => (p.stageFields n).streams.any fun x => s.sideNext c n x.2 && code n x.2)

/-- A V-cell of a unit's region waits on a side flit. -/
def State.stalls (s : State) (l : Launch) : Bool := l.goes && l.cells.any fun c => (smFind s.cells c).isSome && s.sideWait c

/-- STALLS of the lead sequencers after a clk. -/
def State.countStalls (s : State) : State :=
  (s.launches.filter fun e => s.stalls e.2).foldl (fun s e =>
    s.modTile (e.2.region.headD 0) fun t => { t with spr := { t.spr with stalls := t.spr.stalls + 1 } }) s

/-- A begun command has made no transfer in this clk. -/
def QEnt.still (e : QEnt) : QEnt := match e with | .cmd c => if c.begun then .cmd { c with quiet := c.quiet + 1 } else e | .fence _ => e

/-- A tile after a clk: its energy meter, and its queues. -/
def State.tickTile (s : State) (t : Nat) (x : Tile) : Tile :=
  { x with energy := if x.owner.isSome then x.energy + BitVec.ofNat 64 (Config.energyDraw (s.tick + t)) else x.energy,
           ports := x.ports.map fun q => (q.1, { q.2 with entries := q.2.entries.map QEnt.still }) }

/-- Eighths of a ns that a clk lasts: 5, or more while the module is throttled (R5, R356). -/
def State.clkEighths (s : State) : Nat := if s.dies.any (·.2.throttled) then 5 + Config.slowClk s.tick else 5

/-! Protected structures (R340, R341, R343): the errors of each clk come from `Config.upsets` (log 129); the events of the meshes raise 0xC1-0xC3 -/

/-- Structures whose state belongs to the unit that holds the tile. -/
def upsetOfTile (code : Nat) : Bool :=
  code == 0xC0 || (decide (0xC5 ≤ code) && decide (code ≤ 0xCA)) || code == 0xCC || (decide (0xD6 ≤ code) && decide (code ≤ 0xD8)) ||
    code == 0xDA || code == 0xDB
/-- Structures that serve more than one launch. -/
def upsetFatal (code : Nat) : Bool := code == 0xCE || code == 0xCF || code == 0xD0 || code == 0xD9 || code == 0xDF
/-- Structures whose error lists the cell as bad: local memory, plane state and the matching store (R343). -/
def upsetBad (code : Nat) : Bool := decide (0xC5 ≤ code) && decide (code ≤ 0xC8)

/-- An uncorrectable error (R341): fatal to the die, or a fault of the launch whose access or state meets it. -/
def State.meetError (s : State) (e : Upset) : State :=
  let code := e.code.toNat
  if upsetFatal code then s.fatal e.die code
  else
    let c := cellNo e.die (e.cell / 80 % 80) (e.cell % 80)
    let s := if upsetBad code then s.addBad c code else s
    match if upsetOfTile code then s.owner? (cellTile c) else e.unit with
    | some u => s.faultLaunch u code (cellTile c) 0
    | none => s.vault e.die ⟨0x03, code, 0, (destCode c).toNat, 0, 0, 0⟩

/-- The uncorrectable errors of a die in one clk: in more than one structure they are the one cause 0xDF. -/
def State.meetErrors (s : State) (die : Nat) (es : List Upset) : State :=
  match es.filter fun e => !e.fixed && e.die == die with
  | [] => s
  | e :: rest => if rest.any (·.code != e.code) then s.fatal die 0xDF else (e :: rest).foldl State.meetError s

/-- A corrected error writes an event of its structure's cause and faults nothing. -/
def State.meetFixed (s : State) (e : Upset) : State :=
  if e.fixed && decide (e.die < 16) then
    s.vault e.die ⟨0x11, e.code.toNat, 0, (destCode (cellNo e.die (e.cell / 80 % 80) (e.cell % 80))).toNat, 0, 0, 0⟩
  else s

/-- The errors of protected structures in this clk. -/
def State.meetUpsets (s : State) : State :=
  let es := (Config.upsets s.tick).filter fun e => decide (0xC0 ≤ e.code.toNat) && decide (e.code.toNat ≤ 0xDF) && !(decide (0xC1 ≤ e.code.toNat) && decide (e.code.toNat ≤ 0xC3))
  (List.range 16).foldl (fun s d => s.meetErrors d es) (es.foldl State.meetFixed { s with tick := s.tick + 1 })

/-- One clk. -/
def State.tickClk (s : State) : State :=
  let s := s.meetUpsets.countStalls
  { s with
    clk := s.clk + 1, eighths := s.eighths + s.clkEighths, tick := s.tick + 1600,
    launches := s.launches.map fun e => (e.1, s.tickLaunch e.1 e.2),
    tiles := s.tiles.map fun e => (e.1, s.tickTile e.1 e.2) }

end Sys2Proof.Machine
end

