-- ==== Sys2Proof/Machine/Dispatch.lean ====
section
/-! DEFINITION. The dispatch: one arm per instruction, each a direct call of its meaning. -/

namespace Sys2Proof.Machine

/-- The meaning of every instruction of the opcode table. -/
def exec (i : Instr) (s : State) : Host.Outcome State Fault Refusal :=
  match i with
  | .add d src t => Sys2Proof.Machine.execAdd d src t s
  | .sub d src t => Sys2Proof.Machine.execSub d src t s
  | .mul d src t => Sys2Proof.Machine.execMul d src t s
  | .and d src t => Sys2Proof.Machine.execAnd d src t s
  | .or d src t => Sys2Proof.Machine.execOr d src t s
  | .xor d src t => Sys2Proof.Machine.execXor d src t s
  | .shl d src t => Sys2Proof.Machine.execShl d src t s
  | .shr d src t => Sys2Proof.Machine.execShr d src t s
  | .sra d src t => Sys2Proof.Machine.execSra d src t s
  | .min d src t => Sys2Proof.Machine.execMin d src t s
  | .max d src t => Sys2Proof.Machine.execMax d src t s
  | .addi d src imm => Sys2Proof.Machine.execAddi d src imm s
  | .andi d src imm => Sys2Proof.Machine.execAndi d src imm s
  | .ori d src imm => Sys2Proof.Machine.execOri d src imm s
  | .xori d src imm => Sys2Proof.Machine.execXori d src imm s
  | .shli d src sh => Sys2Proof.Machine.execShli d src sh s
  | .shri d src sh => Sys2Proof.Machine.execShri d src sh s
  | .srai d src sh => Sys2Proof.Machine.execSrai d src sh s
  | .li d imm => Sys2Proof.Machine.execLi d imm s
  | .lui d src imm => Sys2Proof.Machine.execLui d src imm s
  | .ceq d src t => Sys2Proof.Machine.execCeq d src t s
  | .cne d src t => Sys2Proof.Machine.execCne d src t s
  | .clt d src t => Sys2Proof.Machine.execClt d src t s
  | .cltu d src t => Sys2Proof.Machine.execCltu d src t s
  | .ceqi d src imm => Sys2Proof.Machine.execCeqi d src imm s
  | .clti d src imm => Sys2Proof.Machine.execClti d src imm s
  | .cltui d src imm => Sys2Proof.Machine.execCltui d src imm s
  | .ld8 d src imm => Sys2Proof.Machine.execLd8 d src imm s
  | .ld16 d src imm => Sys2Proof.Machine.execLd16 d src imm s
  | .ld32 d src imm => Sys2Proof.Machine.execLd32 d src imm s
  | .ld64 d src imm => Sys2Proof.Machine.execLd64 d src imm s
  | .lds8 d src imm => Sys2Proof.Machine.execLds8 d src imm s
  | .lds16 d src imm => Sys2Proof.Machine.execLds16 d src imm s
  | .lds32 d src imm => Sys2Proof.Machine.execLds32 d src imm s
  | .st8 d src imm => Sys2Proof.Machine.execSt8 d src imm s
  | .st16 d src imm => Sys2Proof.Machine.execSt16 d src imm s
  | .st32 d src imm => Sys2Proof.Machine.execSt32 d src imm s
  | .st64 d src imm => Sys2Proof.Machine.execSt64 d src imm s
  | .nset n src => Sys2Proof.Machine.execNset n src s
  | .nget d n => Sys2Proof.Machine.execNget d n s
  | .patLd m src imm => Sys2Proof.Machine.execPatLd m src imm s
  | .patSt m src imm => Sys2Proof.Machine.execPatSt m src imm s
  | .patBase m src => Sys2Proof.Machine.execPatBase m src s
  | .beq src t imm => Sys2Proof.Machine.execBeq src t imm s
  | .bne src t imm => Sys2Proof.Machine.execBne src t imm s
  | .blt src t imm => Sys2Proof.Machine.execBlt src t imm s
  | .bge src t imm => Sys2Proof.Machine.execBge src t imm s
  | .bltu src t imm => Sys2Proof.Machine.execBltu src t imm s
  | .bgeu src t imm => Sys2Proof.Machine.execBgeu src t imm s
  | .jal d imm => Sys2Proof.Machine.execJal d imm s
  | .jalr d src imm => Sys2Proof.Machine.execJalr d src imm s
  | .cfgLoad idx => Sys2Proof.Machine.execCfgLoad idx s
  | .cfgRun idx => Sys2Proof.Machine.execCfgRun idx s
  | .cfgWait => Sys2Proof.Machine.execCfgWait s
  | .cfgCall idx src => Sys2Proof.Machine.execCfgCall idx src s
  | .cfgRet src => Sys2Proof.Machine.execCfgRet src s
  | .cfgPreload idx plane => Sys2Proof.Machine.execCfgPreload idx plane s
  | .pswap plane => Sys2Proof.Machine.execPswap plane s
  | .cfgDrain d => Sys2Proof.Machine.execCfgDrain d s
  | .cfgStop => Sys2Proof.Machine.execCfgStop s
  | .strmIn port m rt cell dlv => Sys2Proof.Machine.execStrmIn port m rt cell dlv s
  | .strmOut port m rt cell dlv => Sys2Proof.Machine.execStrmOut port m rt cell dlv s
  | .strmGath port m t rt cell dlv => Sys2Proof.Machine.execStrmGath port m t rt cell dlv s
  | .strmScat port m t rt cell dlv => Sys2Proof.Machine.execStrmScat port m t rt cell dlv s
  | .strmFill port d src t dlv => Sys2Proof.Machine.execStrmFill port d src t dlv s
  | .strmCopy port d src t dlv => Sys2Proof.Machine.execStrmCopy port d src t dlv s
  | .strmKvc port d src t mask => Sys2Proof.Machine.execStrmKvc port d src t mask s
  | .strmXch port d src t flow => Sys2Proof.Machine.execStrmXch port d src t flow s
  | .sbar src t => Sys2Proof.Machine.execSbar src t s
  | .qfence set => Sys2Proof.Machine.execQfence set s
  | .qfenceR src => Sys2Proof.Machine.execQfenceR src s
  | .fenceSl => Sys2Proof.Machine.execFenceSl s
  | .fenceRel scope => Sys2Proof.Machine.execFenceRel scope s
  | .fenceAcq scope => Sys2Proof.Machine.execFenceAcq scope s
  | .lclkRd d => Sys2Proof.Machine.execLclkRd d s
  | .lclkAdv src => Sys2Proof.Machine.execLclkAdv src s
  | .depNew d kind => Sys2Proof.Machine.execDepNew d kind s
  | .depEdge src t => Sys2Proof.Machine.execDepEdge src t s
  | .depArm src => Sys2Proof.Machine.execDepArm src s
  | .depWait src => Sys2Proof.Machine.execDepWait src s
  | .qRsv d src => Sys2Proof.Machine.execQRsv d src s
  | .qAdd src scope => Sys2Proof.Machine.execQAdd src scope s
  | .qTake d src t => Sys2Proof.Machine.execQTake d src t s
  | .phReg src mode => Sys2Proof.Machine.execPhReg src mode s
  | .phDrop src => Sys2Proof.Machine.execPhDrop src s
  | .phSig src scope => Sys2Proof.Machine.execPhSig src scope s
  | .phWait d src t => Sys2Proof.Machine.execPhWait d src t s
  | .phSw d src t scope => Sys2Proof.Machine.execPhSw d src t scope s
  | .phErr src t => Sys2Proof.Machine.execPhErr src t s
  | .phRead src t => Sys2Proof.Machine.execPhRead src t s
  | .atom cmd d src t x scope => Sys2Proof.Machine.execAtom cmd d src t x scope s
  | .nop => Sys2Proof.Machine.execNop s
  | .yield => Sys2Proof.Machine.execYield s
  | .trap code => Sys2Proof.Machine.execTrap code s
  | .evt line => Sys2Proof.Machine.execEvt line s
  | .srr d num => Sys2Proof.Machine.execSrr d num s
  | .srw src num => Sys2Proof.Machine.execSrw src num s
  | .hAdd d a b f g e => Sys2Proof.Machine.execHAdd d a b f g e s
  | .hSub d a b f g e => Sys2Proof.Machine.execHSub d a b f g e s
  | .hMul d a b f g e => Sys2Proof.Machine.execHMul d a b f g e s
  | .hMulh d a b f g => Sys2Proof.Machine.execHMulh d a b f g s
  | .hMulhu d a b f g => Sys2Proof.Machine.execHMulhu d a b f g s
  | .hMin d a b f g => Sys2Proof.Machine.execHMin d a b f g s
  | .hMax d a b f g => Sys2Proof.Machine.execHMax d a b f g s
  | .hMinu d a b f g => Sys2Proof.Machine.execHMinu d a b f g s
  | .hMaxu d a b f g => Sys2Proof.Machine.execHMaxu d a b f g s
  | .hAbs d a f g e => Sys2Proof.Machine.execHAbs d a f g e s
  | .hNeg d a f g e => Sys2Proof.Machine.execHNeg d a f g e s
  | .hPopc d a f g => Sys2Proof.Machine.execHPopc d a f g s
  | .hClz d a f g => Sys2Proof.Machine.execHClz d a f g s
  | .hCtz d a f g => Sys2Proof.Machine.execHCtz d a f g s
  | .hAnd d a b f g => Sys2Proof.Machine.execHAnd d a b f g s
  | .hOr d a b f g => Sys2Proof.Machine.execHOr d a b f g s
  | .hXor d a b f g => Sys2Proof.Machine.execHXor d a b f g s
  | .hAndn d a b f g => Sys2Proof.Machine.execHAndn d a b f g s
  | .hShl d a b f g => Sys2Proof.Machine.execHShl d a b f g s
  | .hShr d a b f g => Sys2Proof.Machine.execHShr d a b f g s
  | .hSra d a b f g => Sys2Proof.Machine.execHSra d a b f g s
  | .hCeq d a b f g => Sys2Proof.Machine.execHCeq d a b f g s
  | .hCne d a b f g => Sys2Proof.Machine.execHCne d a b f g s
  | .hClt d a b f g => Sys2Proof.Machine.execHClt d a b f g s
  | .hCltu d a b f g => Sys2Proof.Machine.execHCltu d a b f g s
  | .hCle d a b f g => Sys2Proof.Machine.execHCle d a b f g s
  | .hCleu d a b f g => Sys2Proof.Machine.execHCleu d a b f g s
  | .hAddi d a imm g => Sys2Proof.Machine.execHAddi d a imm g s
  | .hAndi d a imm g => Sys2Proof.Machine.execHAndi d a imm g s
  | .hOri d a imm g => Sys2Proof.Machine.execHOri d a imm g s
  | .hXori d a imm g => Sys2Proof.Machine.execHXori d a imm g s
  | .hShli d a sh g => Sys2Proof.Machine.execHShli d a sh g s
  | .hShri d a sh g => Sys2Proof.Machine.execHShri d a sh g s
  | .hSrai d a sh g => Sys2Proof.Machine.execHSrai d a sh g s
  | .hCeqi d a imm g => Sys2Proof.Machine.execHCeqi d a imm g s
  | .hClti d a imm g => Sys2Proof.Machine.execHClti d a imm g s
  | .hCltui d a imm g => Sys2Proof.Machine.execHCltui d a imm g s
  | .hBfx d a pos len g => Sys2Proof.Machine.execHBfx d a pos len g s
  | .hBfxu d a pos len g => Sys2Proof.Machine.execHBfxu d a pos len g s
  | .hBfi d a pos len g => Sys2Proof.Machine.execHBfi d a pos len g s
  | .hLit d g lit => Sys2Proof.Machine.execHLit d g lit s
  | .hLith d g lit => Sys2Proof.Machine.execHLith d g lit s
  | .hAddl d a g lit => Sys2Proof.Machine.execHAddl d a g lit s
  | .hSync d a b g reply f scope cmd => Sys2Proof.Machine.execHSync d a b g reply f scope cmd s
  | .hFadd d a b f g e => Sys2Proof.Machine.execHFadd d a b f g e s
  | .hFsub d a b f g e => Sys2Proof.Machine.execHFsub d a b f g e s
  | .hFmul d a b f g e => Sys2Proof.Machine.execHFmul d a b f g e s
  | .hFma d a b f g e => Sys2Proof.Machine.execHFma d a b f g e s
  | .hFmin d a b f g e => Sys2Proof.Machine.execHFmin d a b f g e s
  | .hFmax d a b f g e => Sys2Proof.Machine.execHFmax d a b f g e s
  | .hFabs d a f g => Sys2Proof.Machine.execHFabs d a f g s
  | .hFneg d a f g => Sys2Proof.Machine.execHFneg d a f g s
  | .hFceq d a b f g => Sys2Proof.Machine.execHFceq d a b f g s
  | .hFclt d a b f g => Sys2Proof.Machine.execHFclt d a b f g s
  | .hFcle d a b f g => Sys2Proof.Machine.execHFcle d a b f g s
  | .hFcvt d a dst f g e => Sys2Proof.Machine.execHFcvt d a dst f g e s
  | .hFrcp d a f g e => Sys2Proof.Machine.execHFrcp d a f g e s
  | .hFsqrt d a f g e => Sys2Proof.Machine.execHFsqrt d a f g e s
  | .hFexp2 d a f g e => Sys2Proof.Machine.execHFexp2 d a f g e s
  | .hIcvtf d a f g e => Sys2Proof.Machine.execHIcvtf d a f g e s
  | .hFcvti d a f g e => Sys2Proof.Machine.execHFcvti d a f g e s
  | .hFdot d a b f g e => Sys2Proof.Machine.execHFdot d a b f g e s
  | .hLdl8 d a off g => Sys2Proof.Machine.execHLdl8 d a off g s
  | .hLdl16 d a off g => Sys2Proof.Machine.execHLdl16 d a off g s
  | .hLdl32 d a off g => Sys2Proof.Machine.execHLdl32 d a off g s
  | .hLdl64 d a off g => Sys2Proof.Machine.execHLdl64 d a off g s
  | .hStl8 d a off g => Sys2Proof.Machine.execHStl8 d a off g s
  | .hStl16 d a off g => Sys2Proof.Machine.execHStl16 d a off g s
  | .hStl32 d a off g => Sys2Proof.Machine.execHStl32 d a off g s
  | .hStl64 d a off g => Sys2Proof.Machine.execHStl64 d a off g s
  | .hLdg8 d a off g => Sys2Proof.Machine.execHLdg8 d a off g s
  | .hLdg16 d a off g => Sys2Proof.Machine.execHLdg16 d a off g s
  | .hLdg32 d a off g => Sys2Proof.Machine.execHLdg32 d a off g s
  | .hLdg64 d a off g => Sys2Proof.Machine.execHLdg64 d a off g s
  | .hStg8 d a off g => Sys2Proof.Machine.execHStg8 d a off g s
  | .hStg16 d a off g => Sys2Proof.Machine.execHStg16 d a off g s
  | .hStg32 d a off g => Sys2Proof.Machine.execHStg32 d a off g s
  | .hStg64 d a off g => Sys2Proof.Machine.execHStg64 d a off g s
  | .hEmit a d0 d1 tagop g => Sys2Proof.Machine.execHEmit a d0 d1 tagop g s
  | .hEmitp a d0 d1 tagop g => Sys2Proof.Machine.execHEmitp a d0 d1 tagop g s
  | .hSend a b g => Sys2Proof.Machine.execHSend a b g s
  | .hExitDone keep g => Sys2Proof.Machine.execHExitDone keep g s
  | .hExitDefer g => Sys2Proof.Machine.execHExitDefer g s
  | .hExitFail g => Sys2Proof.Machine.execHExitFail g s
  | .hTagLvl d g => Sys2Proof.Machine.execHTagLvl d g s
  | .hTagFree g => Sys2Proof.Machine.execHTagFree g s
  | .hTagFreectx g => Sys2Proof.Machine.execHTagFreectx g s
  | .hTagPool d a g => Sys2Proof.Machine.execHTagPool d a g s
  | .hTagParent d g => Sys2Proof.Machine.execHTagParent d g s
  | .hFenceSl g => Sys2Proof.Machine.execHFenceSl g s
  | .hFenceRel scope g => Sys2Proof.Machine.execHFenceRel scope g s
  | .hFenceAcq scope g => Sys2Proof.Machine.execHFenceAcq scope g s
  | .hLclk d g => Sys2Proof.Machine.execHLclk d g s
  | .hLclkadv a g => Sys2Proof.Machine.execHLclkadv a g s
  | .hBoxt8Any d a b g => Sys2Proof.Machine.execHBoxt8Any d a b g s
  | .hBoxt8Closest d a b g => Sys2Proof.Machine.execHBoxt8Closest d a b g s
  | .hTritAny d a b g => Sys2Proof.Machine.execHTritAny d a b g s
  | .hTritClosest d a b g => Sys2Proof.Machine.execHTritClosest d a b g s
  | .hTritBary d a b g => Sys2Proof.Machine.execHTritBary d a b g s
  | .hDicer d a b g => Sys2Proof.Machine.execHDicer d a b g s
  | .hSamptTu d a b g => Sys2Proof.Machine.execHSamptTu d a b g s
  | .hSamptV d a b g => Sys2Proof.Machine.execHSamptV d a b g s
  | .hMptest d a b g => Sys2Proof.Machine.execHMptest d a b g s
  | .hSeqw d a b g => Sys2Proof.Machine.execHSeqw d a b g s
  | .cmdAdd die k => Sys2Proof.Machine.execCmdAdd die k s
  | .cmdSub die k => Sys2Proof.Machine.execCmdSub die k s
  | .cmdAnd die k => Sys2Proof.Machine.execCmdAnd die k s
  | .cmdOr die k => Sys2Proof.Machine.execCmdOr die k s
  | .cmdXor die k => Sys2Proof.Machine.execCmdXor die k s
  | .cmdMin die k => Sys2Proof.Machine.execCmdMin die k s
  | .cmdMax die k => Sys2Proof.Machine.execCmdMax die k s
  | .cmdMinu die k => Sys2Proof.Machine.execCmdMinu die k s
  | .cmdMaxu die k => Sys2Proof.Machine.execCmdMaxu die k s
  | .cmdXchg die k => Sys2Proof.Machine.execCmdXchg die k s
  | .cmdCas die k => Sys2Proof.Machine.execCmdCas die k s
  | .cmdFadd die k => Sys2Proof.Machine.execCmdFadd die k s
  | .cmdH2addSr die k => Sys2Proof.Machine.execCmdH2addSr die k s
  | .cmdRedAdd die k => Sys2Proof.Machine.execCmdRedAdd die k s
  | .cmdRedSub die k => Sys2Proof.Machine.execCmdRedSub die k s
  | .cmdRedAnd die k => Sys2Proof.Machine.execCmdRedAnd die k s
  | .cmdRedOr die k => Sys2Proof.Machine.execCmdRedOr die k s
  | .cmdRedXor die k => Sys2Proof.Machine.execCmdRedXor die k s
  | .cmdRedMin die k => Sys2Proof.Machine.execCmdRedMin die k s
  | .cmdRedMax die k => Sys2Proof.Machine.execCmdRedMax die k s
  | .cmdRedMinu die k => Sys2Proof.Machine.execCmdRedMinu die k s
  | .cmdRedMaxu die k => Sys2Proof.Machine.execCmdRedMaxu die k s
  | .cmdRedFadd die k => Sys2Proof.Machine.execCmdRedFadd die k s
  | .cmdRedH2addSr die k => Sys2Proof.Machine.execCmdRedH2addSr die k s
  | .cmdPhReg die k => Sys2Proof.Machine.execCmdPhReg die k s
  | .cmdPhDrop die k => Sys2Proof.Machine.execCmdPhDrop die k s
  | .cmdPhSig die k => Sys2Proof.Machine.execCmdPhSig die k s
  | .cmdPhWait die k => Sys2Proof.Machine.execCmdPhWait die k s
  | .cmdPhSw die k => Sys2Proof.Machine.execCmdPhSw die k s
  | .cmdPhErr die k => Sys2Proof.Machine.execCmdPhErr die k s
  | .cmdPhRead die k => Sys2Proof.Machine.execCmdPhRead die k s
  | .cmdQRsv die k => Sys2Proof.Machine.execCmdQRsv die k s
  | .cmdQAdd die k => Sys2Proof.Machine.execCmdQAdd die k s
  | .cmdQTake die k => Sys2Proof.Machine.execCmdQTake die k s
  | .concordanceReply k => Sys2Proof.Machine.execConcordanceReply k s
  | .overflowReturn die gran => Sys2Proof.Machine.execOverflowReturn die gran s
  | .releaseWiden die q wide => Sys2Proof.Machine.execReleaseWiden die q wide s
  | .prefetchFill die q tile => Sys2Proof.Machine.execPrefetchFill die q tile s
  | .prefetchReturn tile => Sys2Proof.Machine.execPrefetchReturn tile s
  | .stageEmpty cell n => Sys2Proof.Machine.execStageEmpty cell n s
  | .stagePass cell => Sys2Proof.Machine.execStagePass cell s
  | .stageCvt cell => Sys2Proof.Machine.execStageCvt cell s
  | .stageUnpk3 cell => Sys2Proof.Machine.execStageUnpk3 cell s
  | .stageUnpk4 cell => Sys2Proof.Machine.execStageUnpk4 cell s
  | .stageLut8 cell => Sys2Proof.Machine.execStageLut8 cell s
  | .stageShuf cell => Sys2Proof.Machine.execStageShuf cell s
  | .stageBcast cell => Sys2Proof.Machine.execStageBcast cell s
  | .stageMaskt cell => Sys2Proof.Machine.execStageMaskt cell s
  | .stageUnpkq cell => Sys2Proof.Machine.execStageUnpkq cell s
  | .stageMul cell => Sys2Proof.Machine.execStageMul cell s
  | .stageMulk cell => Sys2Proof.Machine.execStageMulk cell s
  | .stageFmul cell => Sys2Proof.Machine.execStageFmul cell s
  | .stageFmulk cell => Sys2Proof.Machine.execStageFmulk cell s
  | .stageAdd cell => Sys2Proof.Machine.execStageAdd cell s
  | .stageAddk cell => Sys2Proof.Machine.execStageAddk cell s
  | .stageFadd cell => Sys2Proof.Machine.execStageFadd cell s
  | .stageFaddk cell => Sys2Proof.Machine.execStageFaddk cell s
  | .stageAcc cell => Sys2Proof.Machine.execStageAcc cell s
  | .stageFacc cell => Sys2Proof.Machine.execStageFacc cell s
  | .stageRsum cell => Sys2Proof.Machine.execStageRsum cell s
  | .stageRmax cell => Sys2Proof.Machine.execStageRmax cell s
  | .stageFrsum cell => Sys2Proof.Machine.execStageFrsum cell s
  | .stageFrmax cell => Sys2Proof.Machine.execStageFrmax cell s
  | .stageShl cell => Sys2Proof.Machine.execStageShl cell s
  | .stageShr cell => Sys2Proof.Machine.execStageShr cell s
  | .stageSra cell => Sys2Proof.Machine.execStageSra cell s
  | .stageRshr cell => Sys2Proof.Machine.execStageRshr cell s
  | .stageCmpeq cell => Sys2Proof.Machine.execStageCmpeq cell s
  | .stageCmplt cell => Sys2Proof.Machine.execStageCmplt cell s
  | .stageFcmplt cell => Sys2Proof.Machine.execStageFcmplt cell s
  | .stageClamp cell => Sys2Proof.Machine.execStageClamp cell s
  | .stageFclamp cell => Sys2Proof.Machine.execStageFclamp cell s
  | .stageRelu cell => Sys2Proof.Machine.execStageRelu cell s
  | .stageLrelu cell => Sys2Proof.Machine.execStageLrelu cell s
  | .stageSel cell => Sys2Proof.Machine.execStageSel cell s
  | .stageExp2 cell => Sys2Proof.Machine.execStageExp2 cell s
  | .stageRcp cell => Sys2Proof.Machine.execStageRcp cell s
  | .stageRsqrt cell => Sys2Proof.Machine.execStageRsqrt cell s
  | .stageSigm cell => Sys2Proof.Machine.execStageSigm cell s
  | .stageSat cell => Sys2Proof.Machine.execStageSat cell s
  | .stagePack cell => Sys2Proof.Machine.execStagePack cell s
  | .stageRoute cell => Sys2Proof.Machine.execStageRoute cell s
  | .stageStore cell => Sys2Proof.Machine.execStageStore cell s
  | .stageQpack cell => Sys2Proof.Machine.execStageQpack cell s
  | .stageMma cell => Sys2Proof.Machine.execStageMma cell s
  | .stageMmai cell => Sys2Proof.Machine.execStageMmai cell s
  | .stageMmaq cell => Sys2Proof.Machine.execStageMmaq cell s
  | .stageVfma cell => Sys2Proof.Machine.execStageVfma cell s
  | .stageNetx cell => Sys2Proof.Machine.execStageNetx cell s
  | .s1Convert cell stage srcB => Sys2Proof.Machine.execS1Convert cell stage srcB s
  | .flitHop cell out upset => Sys2Proof.Machine.execFlitHop cell out upset s
  | .eventPulse cell out => Sys2Proof.Machine.execEventPulse cell out s
  | .fifoAppend cell => Sys2Proof.Machine.execFifoAppend cell s
  | .fifoLeave cell => Sys2Proof.Machine.execFifoLeave cell s
  | .linebufAppend cell => Sys2Proof.Machine.execLinebufAppend cell s
  | .directAccess k => Sys2Proof.Machine.execDirectAccess k s
  | .cvstWrite cell value => Sys2Proof.Machine.execCvstWrite cell value s
  | .streamBegin tile port => Sys2Proof.Machine.execStreamBegin tile port s
  | .streamLineAccess tile port => Sys2Proof.Machine.execStreamLineAccess tile port s
  | .streamPerformed tile port => Sys2Proof.Machine.execStreamPerformed tile port s
  | .qfenceRelease tile id => Sys2Proof.Machine.execQfenceRelease tile id s
  | .kvcLengthWrite tile port => Sys2Proof.Machine.execKvcLengthWrite tile port s
  | .depIssue tile => Sys2Proof.Machine.execDepIssue tile s
  | .depPerformed tile e => Sys2Proof.Machine.execDepPerformed tile e s
  | .runEnd u => Sys2Proof.Machine.execRunEnd u s
  | .storeBufferSend agent => Sys2Proof.Machine.execStoreBufferSend agent s
  | .homeLoadRequest k upset => Sys2Proof.Machine.execHomeLoadRequest k upset s
  | .loadReply k => Sys2Proof.Machine.execLoadReply k s
  | .homeStore k => Sys2Proof.Machine.execHomeStore k s
  | .storeReply k => Sys2Proof.Machine.execStoreReply k s
  | .redAck k => Sys2Proof.Machine.execRedAck k s
  | .driftTick tile => Sys2Proof.Machine.execDriftTick tile s
  | .spinRepetition agent => Sys2Proof.Machine.execSpinRepetition agent s
  | .rebaseStart die => Sys2Proof.Machine.execRebaseStart die s
  | .rebaseComplete => Sys2Proof.Machine.execRebaseComplete s
  | .flowPacketArrive k => Sys2Proof.Machine.execFlowPacketArrive k s
  | .flowAck k => Sys2Proof.Machine.execFlowAck k s
  | .walkStart die k => Sys2Proof.Machine.execWalkStart die k s
  | .walkComplete die slot => Sys2Proof.Machine.execWalkComplete die slot s
  | .xinvPage die => Sys2Proof.Machine.execXinvPage die s
  | .xinvVmid die => Sys2Proof.Machine.execXinvVmid die s
  | .xinvAll die => Sys2Proof.Machine.execXinvAll die s
  | .xinvDone die => Sys2Proof.Machine.execXinvDone die s
  | .migrationStart die => Sys2Proof.Machine.execMigrationStart die s
  | .migrationSwitch die => Sys2Proof.Machine.execMigrationSwitch die s
  | .migrationAbort die => Sys2Proof.Machine.execMigrationAbort die s
  | .tokenHop k upset => Sys2Proof.Machine.execTokenHop k upset s
  | .tokenArrive k => Sys2Proof.Machine.execTokenArrive k s
  | .predicateFlitArrive k upset => Sys2Proof.Machine.execPredicateFlitArrive k upset s
  | .firingStart cell => Sys2Proof.Machine.execFiringStart cell s
  | .blockCommit cell => Sys2Proof.Machine.execBlockCommit cell s
  | .falsePAbsorb cell slot => Sys2Proof.Machine.execFalsePAbsorb cell slot s
  | .steerFire cell slot => Sys2Proof.Machine.execSteerFire cell slot s
  | .mergeFire cell slot => Sys2Proof.Machine.execMergeFire cell slot s
  | .queueAppend k => Sys2Proof.Machine.execQueueAppend k s
  | .convertFire k => Sys2Proof.Machine.execConvertFire k s
  | .controlTokenAbsorb cell slot => Sys2Proof.Machine.execControlTokenAbsorb cell slot s
  | .controlTokenTurn cell slot => Sys2Proof.Machine.execControlTokenTurn cell slot s
  | .tagGrant cell => Sys2Proof.Machine.execTagGrant cell s
  | .s2tTake cell => Sys2Proof.Machine.execS2tTake cell s
  | .s2tSend cell => Sys2Proof.Machine.execS2tSend cell s
  | .t2sTake k => Sys2Proof.Machine.execT2sTake k s
  | .t2sSend cell => Sys2Proof.Machine.execT2sSend cell s
  | .drainPassStart u => Sys2Proof.Machine.execDrainPassStart u s
  | .drainBeat cell place => Sys2Proof.Machine.execDrainBeat cell place s
  | .tokenFabricSettle u => Sys2Proof.Machine.execTokenFabricSettle u s
  | .drainComplete u => Sys2Proof.Machine.execDrainComplete u s
  | .qwcDetect u => Sys2Proof.Machine.execQwcDetect u s
  | .snapshotResume die w => Sys2Proof.Machine.execSnapshotResume die w s
  | .snapshotDrain die w => Sys2Proof.Machine.execSnapshotDrain die w s
  | .snapshotFault die w => Sys2Proof.Machine.execSnapshotFault die w s
  | .snapshotFree die w => Sys2Proof.Machine.execSnapshotFree die w s
  | .watchdog u => Sys2Proof.Machine.execWatchdog u s
  | .unitPlace die => Sys2Proof.Machine.execUnitPlace die s
  | .unitStart u => Sys2Proof.Machine.execUnitStart u s
  | .launchComplete u => Sys2Proof.Machine.execLaunchComplete u s
  | .actorRegister die => Sys2Proof.Machine.execActorRegister die s
  | .actorGrant u => Sys2Proof.Machine.execActorGrant u s
  | .actorShrink u => Sys2Proof.Machine.execActorShrink u s
  | .shrinkRelease u => Sys2Proof.Machine.execShrinkRelease u s
  | .queueBind die => Sys2Proof.Machine.execQueueBind die s
  | .queueUnbind die => Sys2Proof.Machine.execQueueUnbind die s
  | .actorRecordMove die => Sys2Proof.Machine.execActorRecordMove die s
  | .freezePoint u => Sys2Proof.Machine.execFreezePoint u s
  | .planeSpillEnd u => Sys2Proof.Machine.execPlaneSpillEnd u s
  | .refillStart u => Sys2Proof.Machine.execRefillStart u s
  | .refillEnd u => Sys2Proof.Machine.execRefillEnd u s
  | .preloadEnd u => Sys2Proof.Machine.execPreloadEnd u s
  | .phCreate die => Sys2Proof.Machine.execPhCreate die s
  | .phDestroy die => Sys2Proof.Machine.execPhDestroy die s
  | .queueCreate die => Sys2Proof.Machine.execQueueCreate die s
  | .queueClose die => Sys2Proof.Machine.execQueueClose die s
  | .queueFree die => Sys2Proof.Machine.execQueueFree die s
  | .launchWindowReserve port off => Sys2Proof.Machine.execLaunchWindowReserve port off s
  | .launchWindowAdd port off bytes data => Sys2Proof.Machine.execLaunchWindowAdd port off bytes data s
  | .workCreate die => Sys2Proof.Machine.execWorkCreate die s
  | .workSeal die => Sys2Proof.Machine.execWorkSeal die s
  | .workFree die => Sys2Proof.Machine.execWorkFree die s
  | .workComplete k => Sys2Proof.Machine.execWorkComplete k s
  | .cancelLaunch die => Sys2Proof.Machine.execCancelLaunch die s
  | .cancelGraph die => Sys2Proof.Machine.execCancelGraph die s
  | .cancelPhase die => Sys2Proof.Machine.execCancelPhase die s
  | .cancelJob die => Sys2Proof.Machine.execCancelJob die s
  | .energyClassDrop u => Sys2Proof.Machine.execEnergyClassDrop u s
  | .victimChosen u => Sys2Proof.Machine.execVictimChosen u s
  | .preemptStop u => Sys2Proof.Machine.execPreemptStop u s
  | .streamSuspend tile port => Sys2Proof.Machine.execStreamSuspend tile port s
  | .preemptSave u => Sys2Proof.Machine.execPreemptSave u s
  | .preemptSaved u => Sys2Proof.Machine.execPreemptSaved u s
  | .preemptRestore u => Sys2Proof.Machine.execPreemptRestore u s
  | .preemptResumed u => Sys2Proof.Machine.execPreemptResumed u s
  | .serviceStart die => Sys2Proof.Machine.execServiceStart die s
  | .vaultThaw die => Sys2Proof.Machine.execVaultThaw die s
  | .plogWrite die off value => Sys2Proof.Machine.execPlogWrite die off value s
  | .irqRaise die => Sys2Proof.Machine.execIrqRaise die s
  | .hostRead port bar off n => Sys2Proof.Machine.execHostRead port bar off n s
  | .hostWrite port bar off n data => Sys2Proof.Machine.execHostWrite port bar off n data s
  | .hostFetchadd port off n v => Sys2Proof.Machine.execHostFetchadd port off n v s
  | .hostSwap port off n v => Sys2Proof.Machine.execHostSwap port off n v s
  | .hostCas port off n cmp v => Sys2Proof.Machine.execHostCas port off n cmp v s
  | .type1Completion k ok data => Sys2Proof.Machine.execType1Completion k ok data s
  | .hostCompletionTimeout k => Sys2Proof.Machine.execHostCompletionTimeout k s
  | .peerWrite k granted => Sys2Proof.Machine.execPeerWrite k granted s
  | .peerAck k => Sys2Proof.Machine.execPeerAck k s
  | .attest => Sys2Proof.Machine.execAttest s
  | .coldReset => Sys2Proof.Machine.execColdReset s
  | .warmReset => Sys2Proof.Machine.execWarmReset s
  | .portLinkReset port => Sys2Proof.Machine.execPortLinkReset port s
  | .powerLimit die above => Sys2Proof.Machine.execPowerLimit die above s
  | .thermalStop die => Sys2Proof.Machine.execThermalStop die s
  | .regWrite die block off value => Sys2Proof.Machine.execRegWrite die block off value s
  | .streamReadReturn k => Sys2Proof.Machine.execStreamReadReturn k s
  | .stagingWriteback die => Sys2Proof.Machine.execStagingWriteback die s
  | .linkXPortDown port up => Sys2Proof.Machine.execLinkXPortDown port up s
  | .managementStop die => Sys2Proof.Machine.execManagementStop die s

end Sys2Proof.Machine
end

