-- ==== Sys2Proof/Machine/Step.lean ====
section
/-! DEFINITION. One step of the module: the agent `now` names acts, then the next agent is chosen. -/

namespace Sys2Proof.Machine

/-- A step of the lead sequencer of a tile (R53). -/
def stepSeq (s : State) (t : Nat) : Host.Outcome State Fault Refusal :=
  if s.seqReady t then
    let s := { s with tile := t }
    match s.stepWord with
    | none => s.trap 0x01
    | some w =>
      match s.fetchStep with
      | .fault c => s.trapWith c s.stepVa
      | .wait s => .next s
      | .ok _ s =>
        match decodeSeq w with
        | .ok i => exec i s
        | .error e => s.trap (errCause e)
  else .next s

/-- A word of the block of a cell (R139). -/
def stepHandler (s : State) (c : Nat) : Host.Outcome State Fault Refusal :=
  match s.handlerReady c, (s.getCell c).block with
  | true, some b =>
    let s := { s with cell := c }
    match s.handlerWord c b with
    | none => s.trapBlock 0x06 0
    | some w =>
      match decodeHandler w.1 w.2 with
      | .ok i => if s.literalOk c b i then exec i s else s.trapBlock 0x06 0
      | .error e => s.trapBlock (errCause e) 0
  | _, _ => .next s

/-- An event of the opcode table, chosen by `Config.event`. -/
def stepEvent (s : State) : Host.Outcome State Fault Refusal :=
  let i := Config.event s.tick
  if isProgram i then .next s else exec i s

/-- The model's one step. -/
def step (s : State) : Host.Outcome State Fault Refusal :=
  match s.now with
  | .idle => advance (.next s)
  | .clk => advance (.next s.tickClk)
  | .seq t => advance (stepSeq s t)
  | .handler c => advance (stepHandler s c)
  | .event => advance (stepEvent s)
  | .image => advance (.next (s.loadImage (Config.image s.tick)))

/-- The instruction of a table word placed where the next step fetches it: a step word at tile 0's lead sequencer, a handler
word in T-cell (0, 48) of die 0. -/
def State.withFetchWord (s : State) (nbits w : Nat) : State :=
  if nbits ≤ 32 then s.placeWord (BitVec.ofNat 64 (w % 2 ^ 32)) else s.placeStep (BitVec.ofNat 64 w)

end Sys2Proof.Machine
end

