-- ==== Sys2Proof/Safety.lean ====
section
/-! DEFINITION. What the claims mean by a safe state: the one byte memory is in its canonical form. -/

namespace Sys2Proof

/-- The memory keeps its canonical form. -/
def Inv (s : Machine.State) : Prop := Machine.Memory.wf s.mem = true

end Sys2Proof
end

