-- ==== Sys2Proof/Certificates/Slice0/Obligations.lean ====
section
/-! DEFINITION. The statements of this row: what every instruction does where it completes, what it leaves alone, what it traps on,
the encodings, what a step runs, the reset values and the invariant of the memory. -/

namespace Sys2Proof.Claims

open Sys2Proof.Machine

/-! Shapes shared by several statements -/

/-- `i` completes at `s` with `t`. -/
def Runs (i : Instr) (s t : State) : Prop := exec i s = .next t

/-- Nothing outside the acting tile and the activity mark of its launch has changed (R167). -/
def OnlySeq (s t : State) : Prop :=
  t.tile = s.tile ∧ t.clk = s.clk ∧ t.eighths = s.eighths ∧ (∀ a, memByte t.mem a = memByte s.mem a) ∧ t.cells = s.cells ∧
  t.dies = s.dies ∧ t.homeTs = s.homeTs ∧ t.msgs = s.msgs ∧ t.net = s.net ∧ t.flows = s.flows ∧ t.folios = s.folios ∧
  t.work = s.work ∧ t.rebasing = s.rebasing ∧ t.rebases = s.rebases ∧ t.mod = s.mod ∧ t.tick = s.tick ∧
  (∀ k, k ≠ s.tile → t.getTile k = s.getTile k) ∧
  (∀ u, t.launch? u = (s.launch? u).map fun l => if u = s.unitNo then { l with active := true } else l)

/-- A tile whose step has issued and gone on, with what else the step changed already in it (R53). -/
def passed (x : Tile) : Tile := { x with spc := x.spc + 8, wait := none, reply := none, phase := 0, ld := LoadSt.empty }

/-- The step has issued: only its registers and its SPC may differ from before, and it owes nothing. -/
def Issued (s t : State) (spc : Word) : Prop :=
  OnlySeq s t ∧ t.cur = { s.cur with a := t.cur.a, spc := spc, wait := none, reply := none, phase := 0, ld := LoadSt.empty }

/-- The step writes one register and goes on to the next step (R53). -/
def Writes (s t : State) (d : BitVec 4) (v : Word) : Prop :=
  Issued s t (s.cur.spc + 8) ∧ t.ra d = v ∧ ∀ r, r ≠ d → t.ra r = s.ra r

/-- The instruction writes one register with a value and does nothing else. -/
def Computes (i : Instr) (d : BitVec 4) (v : State → Word) : Prop := ∀ s, ∃ t, Runs i s t ∧ Writes s t d (v s)

/-- The register-register form of an operation. -/
def Rrr (mk : BitVec 4 → BitVec 4 → BitVec 4 → Instr) (f : Word → Word → Word) : Prop :=
  ∀ d a b, Computes (mk d a b) d fun s => f (s.ra a) (s.ra b)

/-- The register-immediate form. -/
def Rri (mk : BitVec 4 → BitVec 4 → BitVec 40 → Instr) (f : Word → BitVec 40 → Word) : Prop :=
  ∀ d a i, Computes (mk d a i) d fun s => f (s.ra a) i

/-- The shift-immediate form. -/
def Rrs (mk : BitVec 4 → BitVec 4 → BitVec 6 → Instr) (f : Word → BitVec 6 → Word) : Prop :=
  ∀ d a i, Computes (mk d a i) d fun s => f (s.ra a) i

/-- 1 or 0. -/
def one? (p : Prop) [Decidable p] : Word := if p then 1 else 0

end Sys2Proof.Claims

section

open Sys2Proof Sys2Proof.Machine Sys2Proof.Claims

/-- R55: what every scalar operation of the sequencer writes, and that it changes no other register and nothing else; and the words of LI, LUI and the
immediate shifts whose fields trap with reserved-field. -/
def Obligations.ScalarResults : Prop :=
  Rrr .add (fun x y => BitVec.ofNat 64 (x.toNat + y.toNat)) ∧ Rrr .sub (fun x y => BitVec.ofInt 64 ((x.toNat : Int) - y.toNat)) ∧
  Rrr .mul (fun x y => BitVec.ofNat 64 (x.toNat * y.toNat)) ∧
  Rrr .and (fun x y => x &&& y) ∧ Rrr .or (fun x y => x ||| y) ∧ Rrr .xor (fun x y => x ^^^ y) ∧
  Rrr .shl (fun x y => BitVec.ofNat 64 (x.toNat * 2 ^ (y.toNat % 64))) ∧
  Rrr .shr (fun x y => BitVec.ofNat 64 (x.toNat / 2 ^ (y.toNat % 64))) ∧
  Rrr .sra (fun x y => BitVec.ofInt 64 (x.toInt / 2 ^ (y.toNat % 64))) ∧
  Rrr .min (fun x y => BitVec.ofInt 64 (min x.toInt y.toInt)) ∧ Rrr .max (fun x y => BitVec.ofInt 64 (max x.toInt y.toInt)) ∧
  Rrr .ceq (fun x y => one? (x = y)) ∧ Rrr .cne (fun x y => one? (x ≠ y)) ∧ Rrr .clt (fun x y => one? (x.toInt < y.toInt)) ∧
  Rrr .cltu (fun x y => one? (x.toNat < y.toNat)) ∧
  Rri .addi (fun x i => BitVec.ofInt 64 (x.toNat + i.toInt)) ∧ Rri .andi (fun x i => x &&& BitVec.ofNat 64 i.toNat) ∧
  Rri .ori (fun x i => x ||| BitVec.ofNat 64 i.toNat) ∧ Rri .xori (fun x i => x ^^^ BitVec.ofNat 64 i.toNat) ∧
  Rri .ceqi (fun x i => one? (x = BitVec.ofInt 64 i.toInt)) ∧ Rri .clti (fun x i => one? (x.toInt < i.toInt)) ∧
  Rri .cltui (fun x i => one? (x.toNat < i.toNat)) ∧
  Rrs .shli (fun x i => BitVec.ofNat 64 (x.toNat * 2 ^ i.toNat)) ∧ Rrs .shri (fun x i => BitVec.ofNat 64 (x.toNat / 2 ^ i.toNat)) ∧
  Rrs .srai (fun x i => BitVec.ofInt 64 (x.toInt / 2 ^ i.toNat)) ∧
  (∀ d i, Computes (.li d i) d fun _ => BitVec.ofInt 64 i.toInt) ∧
  (∀ d a i, Computes (.lui d a i) d fun s => BitVec.ofNat 64 (i.toNat * 2 ^ 40 + (s.ra a).toNat % 2 ^ 40)) ∧
  (∀ d a i, a ≠ 0 → decodeSeq (seqWord 0x1E d a 0 0 i) = .error .reservedField) ∧
  (∀ d a (i : BitVec 40), 2 ^ 24 ≤ i.toNat → decodeSeq (seqWord 0x1F d a 0 0 i) = .error .reservedField) ∧
  (∀ d a (i : BitVec 40), 64 ≤ i.toNat → decodeSeq (seqWord 0x17 d a 0 0 i) = .error .reservedField ∧
    decodeSeq (seqWord 0x18 d a 0 0 i) = .error .reservedField ∧ decodeSeq (seqWord 0x19 d a 0 0 i) = .error .reservedField)

/-- The next step, with no register written. -/
def Sys2Proof.Claims.GoesOn (s t : State) : Prop := Issued s t (s.cur.spc + 8) ∧ ∀ r, t.ra r = s.ra r

/-- A conditional branch: taken to a step of the program, not taken, or taken to an address that is no step (R29, R54, R56). -/
def Sys2Proof.Claims.Branches (mk : BitVec 4 → BitVec 4 → BitVec 40 → Instr) (taken : Word → Word → Prop) : Prop :=
  ∀ a b i s,
    (¬ taken (s.ra a) (s.ra b) → ∃ t, Runs (mk a b i) s t ∧ GoesOn s t) ∧
    (taken (s.ra a) (s.ra b) → s.isStep (s.cur.spc + BitVec.ofInt 64 (8 * i.toInt)) = true →
      ∃ t, Runs (mk a b i) s t ∧ Issued s t (s.cur.spc + BitVec.ofInt 64 (8 * i.toInt)) ∧ ∀ r, t.ra r = s.ra r) ∧
    (taken (s.ra a) (s.ra b) → s.isStep (s.cur.spc + BitVec.ofInt 64 (8 * i.toInt)) = false →
      Runs (mk a b i) s (s.faultLaunch s.unitNo 0x01 s.tile s.cur.spc.toNat))

/-- R56: the branches and the two jumps that link. A target that is no step of the program traps with 0x01 at the branch (R29). -/
def Obligations.BranchesAndJumps : Prop :=
  Branches .beq (fun x y => x = y) ∧ Branches .bne (fun x y => x ≠ y) ∧ Branches .blt (fun x y => x.toInt < y.toInt) ∧
  Branches .bge (fun x y => y.toInt ≤ x.toInt) ∧ Branches .bltu (fun x y => x.toNat < y.toNat) ∧ Branches .bgeu (fun x y => y.toNat ≤ x.toNat) ∧
  (∀ d i s, s.isStep (s.cur.spc + BitVec.ofInt 64 (8 * i.toInt)) = true →
    ∃ t, Runs (.jal d i) s t ∧ Issued s t (s.cur.spc + BitVec.ofInt 64 (8 * i.toInt)) ∧ t.ra d = s.cur.spc + 8 ∧ ∀ r, r ≠ d → t.ra r = s.ra r) ∧
  (∀ d a i s, s.isStep (s.ra a + BitVec.ofInt 64 (8 * i.toInt)) = true →
    ∃ t, Runs (.jalr d a i) s t ∧ Issued s t (s.ra a + BitVec.ofInt 64 (8 * i.toInt)) ∧ t.ra d = s.cur.spc + 8 ∧ ∀ r, r ≠ d → t.ra r = s.ra r) ∧
  (∀ d i s, s.isStep (s.cur.spc + BitVec.ofInt 64 (8 * i.toInt)) = false → Runs (.jal d i) s (s.faultLaunch s.unitNo 0x01 s.tile s.cur.spc.toNat)) ∧
  (∀ d a i s, s.isStep (s.ra a + BitVec.ofInt 64 (8 * i.toInt)) = false → Runs (.jalr d a i) s (s.faultLaunch s.unitNo 0x01 s.tile s.cur.spc.toNat))

/-- A load that the tile cache answers at once (R58, R205, R208, R215): the page's leaf is in the translation cache, gives R and targets
memory of type 0 that is not excluded; the line is held, its lease covers the clock, and no store to its sectors is on its way. -/
def Sys2Proof.Claims.LoadHit (s : State) (va n : Nat) (e : TlbEnt) (l : CLine) : Prop :=
  let t := leafTarget e.pte e.size va
  s.tile < 1600 ∧ va < 2 ^ 56 ∧ va % n = 0 ∧ s.cur.ld = LoadSt.empty ∧ tlbFind s.cur s.vmid va = some e ∧ bitOf e.pte.toNat 6 = true ∧
  t.ty = 0 ∧ (s.getDie t.home).excluded = false ∧ s.rebasing = false ∧ s.dirty s.tile t.flat n = false ∧
  smFind s.cur.lines (t.flat / 64 * 64) = some l ∧ l.wts.toNat ≤ s.cur.spr.lclk.toNat ∧ s.cur.spr.lclk.toNat ≤ l.rts.toNat

/-- The bytes such a load returns: the line, with the sequencer's own buffered stores laid over it (R59, R222). -/
def Sys2Proof.Claims.hitValue (s : State) (va n : Nat) (e : TlbEnt) (l : CLine) : Nat :=
  let f := (leafTarget e.pte e.size va).flat
  lineBytes (overlay s.cur.sbuf (f / 64 * 64) l.data) (f % 64) n

/-- What a load leaves alone: all but its destination, the SPC, the translation cache's order and the repetition count (R205, R230). -/
def Sys2Proof.Claims.LoadKeeps (s t : State) : Prop :=
  (∀ a, memByte t.mem a = memByte s.mem a) ∧ t.cells = s.cells ∧ t.dies = s.dies ∧ t.msgs = s.msgs ∧ t.homeTs = s.homeTs ∧
  t.net = s.net ∧ t.mod = s.mod ∧ (∀ k, k ≠ s.tile → t.getTile k = s.getTile k) ∧
  t.cur = passed { s.cur with a := t.cur.a, m := t.cur.m, tlb := t.cur.tlb, spin := t.cur.spin }

/-- A load form: its width in bytes and how its value is extended (R57). -/
def Sys2Proof.Claims.Loads (mk : BitVec 4 → BitVec 4 → BitVec 40 → Instr) (n : Nat) (ext : Nat → Word) : Prop :=
  ∀ d a i s e l, LoadHit s (s.ra a + BitVec.ofInt 64 i.toInt).toNat n e l →
    ∃ t, Runs (mk d a i) s t ∧ LoadKeeps s t ∧ t.cur.m = s.cur.m ∧
      t.ra d = ext (hitValue s (s.ra a + BitVec.ofInt 64 i.toInt).toNat n e l) ∧ ∀ r, r ≠ d → t.ra r = s.ra r

/-- R57, R63: each load from a held line writes its value, zero or sign extended, into its register, PAT.LD a checked record into its
pattern register (R14), and nothing else changes; a misaligned address traps with 0x22. -/
def Sys2Proof.Claims.LoadResults : Prop :=
  Loads .ld8 1 (fun v => BitVec.ofNat 64 v) ∧ Loads .ld16 2 (fun v => BitVec.ofNat 64 v) ∧ Loads .ld32 4 (fun v => BitVec.ofNat 64 v) ∧
  Loads .ld64 8 (fun v => BitVec.ofNat 64 v) ∧ Loads .lds8 1 (fun v => (BitVec.ofNat 8 v).signExtend 64) ∧
  Loads .lds16 2 (fun v => (BitVec.ofNat 16 v).signExtend 64) ∧ Loads .lds32 4 (fun v => (BitVec.ofNat 32 v).signExtend 64) ∧
  (∀ m a i s e l, LoadHit s (s.ra a + BitVec.ofInt 64 i.toInt).toNat 32 e l →
    (Pattern.ofNat (hitValue s (s.ra a + BitVec.ofInt 64 i.toInt).toNat 32 e l)).ok = true →
    ∃ t, Runs (.patLd m a i) s t ∧ LoadKeeps s t ∧ (∀ r, t.ra r = s.ra r) ∧
      t.cur.m = s.cur.m.set m.toNat (Pattern.ofNat (hitValue s (s.ra a + BitVec.ofInt 64 i.toInt).toNat 32 e l))) ∧
  (∀ d a i s, (s.ra a + BitVec.ofInt 64 i.toInt).toNat < 2 ^ 56 → (s.ra a + BitVec.ofInt 64 i.toInt).toNat % 8 ≠ 0 →
    Runs (.ld64 d a i) s (s.faultLaunch s.unitNo 0x22 s.tile (s.ra a + BitVec.ofInt 64 i.toInt).toNat))

/-- A store that the store buffer takes at once (R57, R58): the page's leaf is in the translation cache and gives W, its target is in
bounds and not sync space, and the buffer has room. -/
def Sys2Proof.Claims.StoreReady (s : State) (va n : Nat) (e : TlbEnt) : Prop :=
  let t := leafTarget e.pte e.size va
  s.tile < 1600 ∧ va < 2 ^ 56 ∧ va % n = 0 ∧ s.cur.ld = LoadSt.empty ∧ tlbFind s.cur s.vmid va = some e ∧ bitOf e.pte.toNat 7 = true ∧
  s.boundFault t n true = none ∧ t.ty ≠ 6 ∧ s.cur.sbuf.length < 8

/-- A store form: the bytes it writes enter the store buffer at the address its operands give, for the target its leaf names; no byte of
memory, no register and nothing else changes. -/
def Sys2Proof.Claims.Stores (i : Instr) (va : State → Nat) (n : Nat) (v : State → Nat) : Prop :=
  ∀ s e, StoreReady s (va s) n e →
    ∃ t, Runs i s t ∧ (∀ a, memByte t.mem a = memByte s.mem a) ∧ t.cells = s.cells ∧ t.dies = s.dies ∧ t.msgs = s.msgs ∧ t.homeTs = s.homeTs ∧
      (∀ k, k ≠ s.tile → t.getTile k = s.getTile k) ∧
      let x := leafTarget e.pte e.size (va s)
      t.cur = passed { s.cur with tlb := t.cur.tlb, sbuf := s.cur.sbuf ++ [⟨va s, x.flat, x.ty, x.home, n, BitVec.ofNat 512 (v s), s.unitNo, 0, false⟩] }

/-- R57, R63: the stores put the low bits of their register, and PAT.ST its 32-byte record, into the store buffer. -/
def Sys2Proof.Claims.StoresEnterBuffer : Prop :=
  (∀ d a i, Stores (.st8 d a i) (fun s => (s.ra a + BitVec.ofInt 64 i.toInt).toNat) 1 fun s => (s.ra d).toNat % 2 ^ 8) ∧
  (∀ d a i, Stores (.st16 d a i) (fun s => (s.ra a + BitVec.ofInt 64 i.toInt).toNat) 2 fun s => (s.ra d).toNat % 2 ^ 16) ∧
  (∀ d a i, Stores (.st32 d a i) (fun s => (s.ra a + BitVec.ofInt 64 i.toInt).toNat) 4 fun s => (s.ra d).toNat % 2 ^ 32) ∧
  (∀ d a i, Stores (.st64 d a i) (fun s => (s.ra a + BitVec.ofInt 64 i.toInt).toNat) 8 fun s => (s.ra d).toNat) ∧
  (∀ m a i, Stores (.patSt m a i) (fun s => (s.ra a + BitVec.ofInt 64 i.toInt).toNat) 32 fun s => s.cur.m[m.toNat].toNat)

/-- R14, R57 to R59, R63: loads that the tile cache answers, and stores that the store buffer takes, with what each leaves alone. -/
def Obligations.LoadsAndStores : Prop := Claims.LoadResults ∧ Claims.StoresEnterBuffer

/-- R61, R63: NSET, NGET and PAT.BASE, the operand limits of NSET and PAT.BASE, and the wait of NSET for the run. -/
def Obligations.IterationAndPatternRegisters : Prop :=
  (∀ n a s, (s.ra a).toNat < 2 ^ 32 → s.runActive = false →
    ∃ t, Runs (.nset n a) s t ∧ OnlySeq s t ∧ 
      t.cur = passed { s.cur with n := s.cur.n.set n.toNat ⟨(s.ra a).setWidth 32, 0⟩ }) ∧
  (∀ n a s, 2 ^ 32 ≤ (s.ra a).toNat → Runs (.nset n a) s (s.faultLaunch s.unitNo 0x04 s.tile s.cur.spc.toNat)) ∧
  (∀ n a s, (s.ra a).toNat < 2 ^ 32 → s.runActive = true →
    ∃ t, Runs (.nset n a) s t ∧ t.cur = { s.cur with wait := some (.poll false) }) ∧
  (∀ d n, Computes (.nget d n) d fun s => BitVec.ofNat 64 (s.cur.n[n.toNat].index.toNat * 2 ^ 32 + s.cur.n[n.toNat].count.toNat)) ∧
  (∀ m a s, (s.ra a).toNat < 2 ^ 56 →
    ∃ t, Runs (.patBase m a) s t ∧ OnlySeq s t ∧ (∀ k, k ≠ m.toNat → t.cur.m[k]? = s.cur.m[k]?) ∧
      t.cur.m[m.toNat].base = (s.ra a).toNat ∧ t.cur.m[m.toNat].dims = s.cur.m[m.toNat].dims ∧ t.cur.m[m.toNat].fmt = s.cur.m[m.toNat].fmt ∧
      t.cur.m[m.toNat].w1 = s.cur.m[m.toNat].w1 ∧ t.cur.m[m.toNat].w2 = s.cur.m[m.toNat].w2 ∧ t.cur.m[m.toNat].w3 = s.cur.m[m.toNat].w3 ∧
      t.cur = passed { s.cur with m := t.cur.m }) ∧
  (∀ m a s, 2 ^ 56 ≤ (s.ra a).toNat → Runs (.patBase m a) s (s.faultLaunch s.unitNo 0x04 s.tile s.cur.spc.toNat))

/-- R64 to R68, R299, R300, R309 to R311, R316, R317: what the configuration steps do where they complete, stage by stage for a call, a
return and a plane exchange, and where they trap. -/
def Obligations.ConfigurationSteps : Prop :=
  (∀ idx s s' l cfg p x, s.unit? = some l → s.config? l idx.toNat = some cfg → l.run = false → cfg.bad = none → l.loadPlane = some p →
    s.loaderReach l = .ok x s' →
    (∀ q, l.active? = some q →
      Runs (.cfgLoad idx) s ((((((s'.writePlane l cfg p).writeCodes l cfg idx.toNat).zeroLocal l cfg).raiseCarves l).modLaunch s'.unitNo
        fun l => l.setPlane p ⟨.active, some idx.toNat, l.depth, false, 0, false, 0⟩).nextStep)) ∧
    (l.active? = none →
      Runs (.cfgLoad idx) s (((((((s'.writePlane l cfg p).writeCodes l cfg idx.toNat).zeroLocal l cfg).raiseCarves l).bindCmds l s'.unitNo l.depth none
        (some p)).modLaunch s'.unitNo fun l => l.setPlane p ⟨.active, some idx.toNat, l.depth, false, 0, false, 0⟩).nextStep))) ∧
  (∀ idx s l cfg p c, s.unit? = some l → s.config? l idx.toNat = some cfg → l.run = false → cfg.bad = none → l.loadPlane = some p →
    s.loaderReach l = .fault c → Runs (.cfgLoad idx) s (s.faultLaunch s.unitNo c s.tile s.cur.spc.toNat)) ∧
  (∀ idx s l, s.unit? = some l → s.config? l idx.toNat = none → Runs (.cfgLoad idx) s (s.faultLaunch s.unitNo 0x64 s.tile s.cur.spc.toNat)) ∧
  (∀ idx s l cfg, s.captured 1 (.run idx) = none → s.unit? = some l → s.config? l idx.toNat = some cfg → l.activeCfg = some idx.toNat →
    l.run = false → Runs (.cfgRun idx) s (s.startRun s.unitNo).nextStep) ∧
  (∀ idx s l cfg, s.captured 1 (.run idx) = none → s.unit? = some l → s.config? l idx.toNat = some cfg → l.activeCfg ≠ some idx.toNat →
    Runs (.cfgRun idx) s (s.faultLaunch s.unitNo 0x65 s.tile s.cur.spc.toNat)) ∧
  (∀ s, s.runActive = false → ∃ t, Runs .cfgWait s t ∧ GoesOn s t) ∧
  (∀ s, s.runActive = true → ∃ t, Runs .cfgWait s t ∧ t.cur = { s.cur with wait := some (.poll true) }) ∧
  (∀ d s l, s.unit? = some l → l.run = false → l.drain = none → s.cur.phase ≠ 0 →
    ∃ t, Runs (.cfgDrain d) s t ∧ t.cur.spc = s.cur.spc + 8 ∧ (∀ r, r ≠ d → t.ra r = s.ra r) ∧
      t.ra d = BitVec.ofNat 64 (min (l.kept.getD 0) (2 ^ 32 - 1) * 2 ^ 32 + if l.kept.getD 0 = 0 then 0 else 1)) ∧
  (∀ s l, s.unit? = some l → l.run = false → l.drain = none → s.cur.depsOut = false → s.cmdsOf s.unitNo = [] → l.drained = true →
    Runs .cfgStop s (s.stopUnit s.unitNo l)) ∧
  (∀ (s : State) u l, s.launch? u = some l → ∃ m, (s.stopUnit u l).launch? u = some m ∧ m.st = .ending ∧ m.completed = 1) ∧
  (∀ idx r s l cfg e, s.unit? = some l → l.service = false → s.config? l idx.toNat = some cfg → cfg.entry = some e →
    (l.callStage = 0 → l.depth ≠ 64 → s.frameOver l cfg = false → l.allParked = false →
      Runs (.cfgCall idx r) s (((s.abandonAll l).atStage 1).modCur fun t => { t with wait := some (.poll true) })) ∧
    (l.callStage = 0 → l.depth = 64 → Runs (.cfgCall idx r) s (s.faultLaunch s.unitNo 0x67 s.tile s.cur.spc.toNat)) ∧
    (l.callStage = 4 → s.writesDone = true → exec (.cfgCall idx r) s = s.enterCallee l (s.ra r)) ∧
    (100 ≤ l.callStage → (s.talkers l l.activeCfg 61)[l.callStage - 100]? = none →
      ∃ t, Runs (.cfgCall idx r) s t ∧ t.cur.spc = BitVec.ofNat 64 e ∧ t.cur.a = s.cur.a ∧
        t.launch? s.unitNo = some { l with callStage := 0, active := true })) ∧
  (∀ r s l, s.unit? = some l →
    (l.callStage < 100 → l.levels = [] → Runs (.cfgRet r) s (s.faultLaunch s.unitNo 0x66 s.tile s.cur.spc.toNat)) ∧
    (∀ v, l.callStage = 0 → l.levels.getLast? = some v → l.run = false →
      Runs (.cfgRet r) s ((s.leaveCallee l v).modCur fun t => { t with wait := some (.poll (l.awaitsRefill v)) })) ∧
    (∀ v, l.callStage = 21 → l.levels.getLast? = some v → v.spilled = false → (∀ p, v.plane = some p → (l.plane p).busy = false) →
      s.writesDone = true → Runs (.cfgRet r) s (((s.shareHi l).thaw l v (s.ra r)).modCur fun t => { t with wait := some (.poll false) })) ∧
    (100 ≤ l.callStage → (s.talkers l l.activeCfg 60)[l.callStage - 100]? = none →
      ∃ t, Runs (.cfgRet r) s t ∧ t.cur.spc = l.resume ∧ t.cur.a = s.cur.a ∧
        t.launch? s.unitNo = some { l.refillBelow with callStage := 0, active := true })) ∧
  (∀ idx p s l cfg, s.unit? = some l → l.service = false → (l.plane p.toNat).busy = false →
    s.config? l idx.toNat = some cfg →
    ((l.plane p.toNat).st = .free ∨ (l.plane p.toNat).st = .loading →
      ∃ t m, Runs (.cfgPreload idx p) s t ∧ t.cur.spc = s.cur.spc + 8 ∧ t.launch? s.unitNo = some m ∧
        m.plane p.toNat = ⟨.loading, some idx.toNat, 0, false, 0, false, 0⟩) ∧
    (∀ x, (l.plane p.toNat).st = .preloaded → cfg.bad = none → s.areaPage l.die l.vmid (s.folio l).va .x = .ok x →
      ∃ t m, Runs (.cfgPreload idx p) s t ∧ t.cur.spc = s.cur.spc + 8 ∧ t.launch? s.unitNo = some m ∧
        m.plane p.toNat = ⟨.preloaded, some idx.toNat, 0, false, 0, false, 0⟩)) ∧
  (∀ idx p s l, s.unit? = some l →
    ((l.plane p.toNat).st = .active ∨ (l.plane p.toNat).st = .frozen ∨ (l.plane p.toNat).st = .parked) →
    Runs (.cfgPreload idx p) s (s.faultLaunch s.unitNo 0x68 s.tile s.cur.spc.toNat)) ∧
  (∀ p s l, s.unit? = some l → l.service = false →
    (l.callStage = 0 → (l.plane p.toNat).st = .active → ∃ t, Runs (.pswap p) s t ∧ GoesOn s t) ∧
    (l.callStage = 0 → ((l.plane p.toNat).st = .preloaded ∨ (l.plane p.toNat).st = .parked) →
      Runs (.pswap p) s (((s.abandonAll l).atStage 11).modCur fun t => { t with wait := some (.poll true) })) ∧
    (l.callStage = 12 → Runs (.pswap p) s (s.swapIn l p.toNat).nextStep) ∧
    (l.callStage = 0 → (l.plane p.toNat).st = .loading → Runs (.pswap p) s (s.modCur fun t => { t with wait := some (.poll true) })) ∧
    (l.callStage = 0 → (l.plane p.toNat).st = .frozen → Runs (.pswap p) s (s.faultLaunch s.unitNo 0x68 s.tile s.cur.spc.toNat)) ∧
    (l.callStage = 0 → (l.plane p.toNat).st = .free → (l.plane p.toNat).busy = false →
      Runs (.pswap p) s (s.faultLaunch s.unitNo 0x69 s.tile s.cur.spc.toNat)))

/-- What a stream step leaves where it completes: its command, with the order of its issue, is the last of its port's queue; no register and no
byte of memory changes. -/
def Sys2Proof.Claims.Queues (s t : State) (tile p : Nat) (c : Cmd) : Prop :=
  (t.getTile tile).port p = { (s.getTile tile).port p with entries := ((s.getTile tile).port p).entries ++ [.cmd { c with issue := s.stamp }] } ∧
  (∀ r, t.ra r = s.ra r) ∧ t.cur.spc = s.cur.spc + 8 ∧ t.cur.m = s.cur.m ∧ t.cur.n = s.cur.n ∧ t.cur.spr = s.cur.spr ∧
  (∀ a, memByte t.mem a = memByte s.mem a) ∧ t.cells = s.cells ∧ t.dies = s.dies ∧ t.msgs = s.msgs ∧
  (∀ k q, (k ≠ tile ∨ q ≠ p) → (t.getTile k).port q = (s.getTile k).port q)

/-- A stream form that names a cell queues its command at its region tile (R69): the cell is static, `s` lies in the region, no dependence
entry is open to take it, its operands are aligned, nothing issues again after a resume, and the queue has room. -/
def Sys2Proof.Claims.StreamsCell (i : BitVec 4 → BitVec 6 → Instr) (p : BitVec 2) (mk : State → Launch → Nat → Cmd) : Prop :=
  ∀ rt n s l tile, s.unit? = some l → l.region[rt.toNat]? = some tile → tile ≠ noTile →
    s.captured 0 (.stream (mk s l (shiftCell (cellOf tile n.toNat) (cellDie (cellOf tile n.toNat)) l.move)) p.toNat tile) = none →
    isTCell (mk s l (shiftCell (cellOf tile n.toNat) (cellDie (cellOf tile n.toNat)) l.move)).cell = false →
    (mk s l (shiftCell (cellOf tile n.toNat) (cellDie (cellOf tile n.toNat)) l.move)).bad tile = none →
    s.reissues = false → ((s.getTile tile).port p.toNat).entries.length < l.queueCap →
    ∃ t, Runs (i rt n) s t ∧ Queues s t tile p.toNat (mk s l (shiftCell (cellOf tile n.toNat) (cellDie (cellOf tile n.toNat)) l.move))

/-- A stream form of the lead tile's own ports. -/
def Sys2Proof.Claims.StreamsLead (i : Instr) (p : BitVec 2) (mk : State → Launch → Cmd) : Prop :=
  ∀ s l, s.unit? = some l → s.captured 0 (.stream (mk s l) p.toNat s.tile) = none → (mk s l).bad s.tile = none →
    s.reissues = false → ((s.getTile s.tile).port p.toNat).entries.length < l.queueCap → ∃ t, Runs i s t ∧ Queues s t s.tile p.toNat (mk s l)

/-- A stream form of the lead tile's own ports traps with 0x22 where an operand is no multiple of n bytes (R70, R71). -/
def Sys2Proof.Claims.LeadTraps (i : Instr) (n : Nat) (ops : State → List Word) : Prop :=
  ∀ s l, s.unit? = some l → s.cur.openDep = none → (∃ w ∈ ops s, w.toNat % n ≠ 0) → Runs i s (s.faultLaunch s.unitNo 0x22 s.tile s.cur.spc.toNat)

/-- A stream form that names a cell traps with 0x04 where the region has no such tile or the cell there is a T-cell, and its table's base is
aligned (R69). -/
def Sys2Proof.Claims.CellTraps (i : BitVec 4 → BitVec 6 → Instr) (base : State → Word) : Prop :=
  ∀ rt n s l, s.unit? = some l → s.cur.openDep = none → (base s).toNat % 64 = 0 →
    (l.region.length ≤ rt.toNat ∨
      ∃ tile, l.region[rt.toNat]? = some tile ∧ isTCell (shiftCell (cellOf tile n.toNat) (cellDie (cellOf tile n.toNat)) l.move) = true) →
    Runs (i rt n) s (s.faultLaunch s.unitNo 0x04 s.tile s.cur.spc.toNat)

/-- R69, R70, R71, R178: each stream step captures its registers, the call level, the plane and the clock in a command, queues it and goes
on; a length or address that is no multiple traps with 0x22, a cell or region tile that is not there with 0x04. -/
def Obligations.StreamStepsQueue : Prop :=
  (∀ p m dlv, StreamsCell (fun rt n => .strmIn p m rt n dlv) p fun s l c =>
    Cmd.new 0 s.cur.m[m.toNat] 0 0 0 c dlv false 0 s.unitNo l.depth l.active? s.cur.spr.lclk) ∧
  (∀ p m dlv, StreamsCell (fun rt n => .strmOut p m rt n dlv) p fun s l c =>
    Cmd.new 1 s.cur.m[m.toNat] 0 0 0 c dlv false 0 s.unitNo l.depth l.active? s.cur.spr.lclk) ∧
  (∀ p m x dlv, StreamsCell (fun rt n => .strmGath p m x rt n dlv) p fun s l c =>
    Cmd.new 2 s.cur.m[m.toNat] 0 0 (s.ra x) c dlv false 0 s.unitNo l.depth l.active? s.cur.spr.lclk) ∧
  (∀ p m x dlv, StreamsCell (fun rt n => .strmScat p m x rt n dlv) p fun s l c =>
    Cmd.new 3 s.cur.m[m.toNat] 0 0 (s.ra x) c dlv false 0 s.unitNo l.depth l.active? s.cur.spr.lclk) ∧
  (∀ p d a b dlv, StreamsLead (.strmFill p d a b dlv) p fun s l =>
    Cmd.new 4 Pattern.none (s.ra d) (s.ra a) (s.ra b) 0 dlv false 0 s.unitNo l.depth l.active? s.cur.spr.lclk) ∧
  (∀ p d a b dlv, StreamsLead (.strmCopy p d a b dlv) p fun s l =>
    Cmd.new 5 Pattern.none (s.ra d) (s.ra a) (s.ra b) 0 dlv false 0 s.unitNo l.depth l.active? s.cur.spr.lclk) ∧
  (∀ p d a b mk, StreamsLead (.strmKvc p d a b mk) p fun s l =>
    Cmd.new 6 Pattern.none (s.ra d) (s.ra a) (s.ra b) 0 0 mk 0 s.unitNo l.depth l.active? s.cur.spr.lclk) ∧
  (∀ p d a b fl, StreamsLead (.strmXch p d a b fl) p fun s l =>
    Cmd.new 7 Pattern.none (s.ra d) (s.ra a) (s.ra b) 0 0 false fl s.unitNo l.depth l.active? s.cur.spr.lclk) ∧
  (∀ p d a b dlv, LeadTraps (.strmFill p d a b dlv) 8 fun s => [s.ra d, s.ra b]) ∧
  (∀ p d a b dlv, LeadTraps (.strmCopy p d a b dlv) 16 fun s => [s.ra d, s.ra a, s.ra b]) ∧
  (∀ p d a b mk, LeadTraps (.strmKvc p d a b mk) 64 fun s => [s.ra d]) ∧
  (∀ p d a b fl, LeadTraps (.strmXch p d a b fl) 64 fun s => [s.ra d, s.ra a, s.ra b]) ∧
  (∀ p m x rt n dlv, LeadTraps (.strmGath p m x rt n dlv) 64 fun s => [s.ra x]) ∧
  (∀ p m x rt n dlv, LeadTraps (.strmScat p m x rt n dlv) 64 fun s => [s.ra x]) ∧
  (∀ p m dlv, CellTraps (fun rt n => .strmIn p m rt n dlv) fun _ => 0) ∧ (∀ p m dlv, CellTraps (fun rt n => .strmOut p m rt n dlv) fun _ => 0) ∧
  (∀ p m x dlv, CellTraps (fun rt n => .strmGath p m x rt n dlv) fun s => s.ra x) ∧
  (∀ p m x dlv, CellTraps (fun rt n => .strmScat p m x rt n dlv) fun s => s.ra x)

/-- The step holds the SPC and runs again (R53): nothing of the machine changes but the mark of what it waits for. -/
def Sys2Proof.Claims.Holds (i : Instr) (s : State) (progress : Bool) : Prop :=
  Runs i s (s.modCur fun t => { t with wait := some (.poll progress) })

/-- R73, R74, R75, R226, R228: the barriers and fences, each where it lets the program go on and where it holds it. -/
def Obligations.FencesAndBarriers : Prop :=
  (∀ s, s.cur.sbuf = [] → ∃ t, Runs .fenceSl s t ∧ GoesOn s t) ∧ (∀ s, s.cur.sbuf ≠ [] → Holds .fenceSl s false) ∧
  (∀ sc s, s.tile < 1600 → s.cur.sbuf = [] → s.atomsOut s.me = false → (∀ c ∈ s.cmdsOf s.unitNo, c.writes = true → c.issuedAll = true) →
    s.writesOut s.me sc false = false → (2 ≤ sc.toNat → s.flowsAcked (s.writeTiles s.me s.unitNo false) false = true) → (sc = 3 → s.cur.hostLast = []) →
    ∃ t, Runs (.fenceRel sc) s t ∧ OnlySeq s t ∧ 
      t.cur = passed { s.cur with spr := { s.cur.spr with whw := s.cur.hiWater } }) ∧
  (∀ sc s, s.tile < 1600 → s.cur.sbuf ≠ [] → Holds (.fenceRel sc) s false) ∧
  (∀ sc s, s.atomsOut s.me = false → ∃ t, Runs (.fenceAcq sc) s t ∧ GoesOn s t) ∧
  (∀ sc s, s.atomsOut s.me = true → Holds (.fenceAcq sc) s false) ∧
  (∀ a b s l, s.unit? = some l → s.ra b = 0 → ∃ t, Runs (.sbar a b) s t ∧ GoesOn s t) ∧
  (∀ a b s l, s.unit? = some l → bufTouches s.cur.sbuf (s.ra a).toNat ((s.ra a).toNat + (s.ra b).toNat) = false →
    s.directOut s.me = false →
    (∀ c ∈ l.cells, isTCell c = true → ∀ x, smFind s.cells c = some x →
      bufTouches x.sbuf (s.ra a).toNat ((s.ra a).toNat + (s.ra b).toNat) = false ∧ s.directOut (cellAgent c) = false) →
    (∀ c ∈ s.cmdsOf s.unitNo, s.cmdTouches l c (s.ra a).toNat ((s.ra a).toNat + (s.ra b).toNat) = false) →
    ∃ t, Runs (.sbar a b) s t ∧ GoesOn s t) ∧
  (∀ a b s l c, s.unit? = some l → s.ra b ≠ 0 → c ∈ s.cmdsOf s.unitNo →
    s.cmdTouches l c (s.ra a).toNat ((s.ra a).toNat + (s.ra b).toNat) = true → Holds (.sbar a b) s false) ∧
  (∀ a b s l, s.unit? = some l → s.ra b ≠ 0 → bufTouches s.cur.sbuf (s.ra a).toNat ((s.ra a).toNat + (s.ra b).toNat) = true →
    Holds (.sbar a b) s false) ∧
  (∀ (set : BitVec 40) s l q tile, s.unit? = some l → s.reissues = false → queueSet set.toNat = [q] → l.region[q.1]? = some tile →
    ((s.getTile tile).port q.2).entries.length < l.queueCap →
    ∃ t, Runs (.qfence set) s t ∧ t.cur.spc = s.cur.spc + 8 ∧ (∀ r, t.ra r = s.ra r) ∧
      ((t.getTile tile).port q.2).entries = ((s.getTile tile).port q.2).entries ++ [.fence s.stamp]) ∧
  (∀ a s l q tile, s.unit? = some l → s.reissues = false → queueSet (s.ra a).toNat = [q] → l.region[q.1]? = some tile →
    ((s.getTile tile).port q.2).entries.length < l.queueCap →
    ∃ t, Runs (.qfenceR a) s t ∧ t.cur.spc = s.cur.spc + 8 ∧ (∀ r, t.ra r = s.ra r) ∧
      ((t.getTile tile).port q.2).entries = ((s.getTile tile).port q.2).entries ++ [.fence s.stamp]) ∧
  (∀ a s l, s.unit? = some l → s.ra a = 0 → ∃ t, Runs (.qfenceR a) s t ∧ GoesOn s t) ∧
  (∀ a s l q, s.unit? = some l → q ∈ queueSet (s.ra a).toNat → l.region.length ≤ q.1 →
    Runs (.qfenceR a) s (s.faultLaunch s.unitNo 0x04 s.tile s.cur.spc.toNat))

/-- What SRR reads from each register number (R32, R80). -/
def Sys2Proof.Claims.sprValue (s : State) (n : Nat) : Word :=
  if n = 0 then s.cur.spc else if n = 1 then s.cur.spr.lclk.setWidth 64 else if n = 2 then s.cur.spr.lease.setWidth 64
  else if n = 3 then s.cur.spr.whw.setWidth 64 else if n = 4 then s.cur.spr.carve else if n = 5 then s.cur.spr.qwcLimit.setWidth 64
  else if n = 6 then s.cur.spr.drift.setWidth 64 else if n = 7 then s.cur.spr.spinN.setWidth 64 else if n = 8 then s.cur.spr.stalls
  else if n = 9 then s.cur.spr.wdog.setWidth 64 else s.rebases.setWidth 64

/-- A register write of SRW: one register takes the value, the rest of the tile stays. -/
def Sys2Proof.Claims.SrwPuts (num : BitVec 12) (ok : Word → Prop) (put : Special → Word → Special) : Prop :=
  ∀ a s, ok (s.ra a) → ∃ t, Runs (.srw a num) s t ∧ (∀ b, memByte t.mem b = memByte s.mem b) ∧ t.cells = s.cells ∧ t.dies = s.dies ∧
    t.cur = passed { s.cur with spr := put s.cur.spr (s.ra a) }

/-- R32, R75, R80, R233: clocks, special registers, NOP, YIELD, TRAP and EVT, which pulses the event box of a cell of the lead tile. SRR of an unassigned number and SRW of SPC, WHW, REBASES or an
unassigned number trap with 0x02; SRW of a value out of range with 0x04; LCLK never falls. That a new DRIFT counts at most one of its intervals as
passed is the model's choice (log 128). -/
def Obligations.ClockAndSystemSteps : Prop :=
  (∀ d, Computes (.lclkRd d) d fun s => BitVec.ofNat 64 s.cur.spr.lclk.toNat) ∧
  (∀ a s, (s.ra a).toNat < 2 ^ 31 → s.cur.spr.lclk.toNat + (s.ra a).toNat < 2 ^ 32 →
    ∃ t, Runs (.lclkAdv a) s t ∧ OnlySeq s t ∧ 
      t.cur = passed { s.cur with spr := { s.cur.spr with lclk := BitVec.ofNat 32 (s.cur.spr.lclk.toNat + (s.ra a).toNat) } }) ∧
  (∀ a s, 2 ^ 31 ≤ (s.ra a).toNat → Runs (.lclkAdv a) s (s.faultLaunch s.unitNo 0x04 s.tile s.cur.spc.toNat)) ∧
  (∀ s, ∃ t, Runs .nop s t ∧ GoesOn s t) ∧
  (∀ s l, s.unit? = some l → l.st = .running → s.cur.spr.lclk.toNat + s.cur.spr.lease.toNat < 2 ^ 32 →
    ∃ t, Runs .yield s t ∧ 
      t.cur = passed { s.cur with spr := { s.cur.spr with lclk := BitVec.ofNat 32 (s.cur.spr.lclk.toNat + s.cur.spr.lease.toNat) } } ∧
      t.launch? s.unitNo = some { l with active := true, wdog := 0 }) ∧
  (∀ line s, Runs (.evt line) s (s.nextStep.pulse (cellOf s.tile line.toNat) 5)) ∧
  (∀ (s : State) c o, o < 5 →
    smGet 0 ((s.pulse c 5).cp c).events o = smGet 0 (s.cp c).events o + if routeSrc (s.cp c).evroute.toNat o = 5 then 1 else 0) ∧
  (∀ code s, Runs (.trap code) s (s.faultLaunch s.unitNo 0x1F s.tile code.toNat)) ∧
  (∀ d (num : BitVec 12), num.toNat ≤ 0x00A → Computes (.srr d num) d fun s => sprValue s num.toNat) ∧
  (∀ d (num : BitVec 12) s, 0x00A < num.toNat → Runs (.srr d num) s (s.faultLaunch s.unitNo 0x02 s.tile s.cur.spc.toNat)) ∧
  SrwPuts 0x001 (fun v => v.toNat < 2 ^ 32) (fun x v => { x with lclk := BitVec.ofNat 32 (max x.lclk.toNat v.toNat) }) ∧
  SrwPuts 0x002 (fun v => 1 ≤ v.toNat ∧ v.toNat ≤ 4095) (fun x v => { x with lease := v.setWidth 12 }) ∧
  SrwPuts 0x005 (fun v => 1 ≤ v.toNat ∧ v.toNat < 2 ^ 32) (fun x v => { x with qwcLimit := v.setWidth 32 }) ∧
  (∀ a s, 1 ≤ (s.ra a).toNat → (s.ra a).toNat ≤ 65535 →
    ∃ t, Runs (.srw a 0x006) s t ∧ (∀ b, memByte t.mem b = memByte s.mem b) ∧ t.cells = s.cells ∧ t.dies = s.dies ∧
      t.cur = passed { s.cur with spr := { s.cur.spr with drift := (s.ra a).setWidth 16 },
                                  drifted := max s.cur.drifted (s.clk - (s.ra a).toNat) }) ∧
  SrwPuts 0x007 (fun v => 1 ≤ v.toNat ∧ v.toNat ≤ 4095) (fun x v => { x with spinN := v.setWidth 12 }) ∧
  SrwPuts 0x008 (fun _ => True) (fun x v => { x with stalls := v }) ∧
  SrwPuts 0x009 (fun v => 2 ^ 16 ≤ v.toNat ∧ v.toNat < 2 ^ 40) (fun x v => { x with wdog := v.setWidth 40 }) ∧
  (∀ a s, sprRange 0x004 (s.ra a).toNat = true → s.runActive = false → s.cmdsOf s.unitNo = [] →
    ∃ t, Runs (.srw a 0x004) s t ∧ t.cur.spr.carve = s.ra a ∧ t.cur.spc = s.cur.spc + 8 ∧ ∀ r, t.ra r = s.ra r) ∧
  (∀ a (num : BitVec 12) s, num = 0x000 ∨ num = 0x003 ∨ 0x009 < num.toNat →
    Runs (.srw a num) s (s.faultLaunch s.unitNo 0x02 s.tile s.cur.spc.toNat)) ∧
  (∀ a s, (s.ra a).toNat = 0 → Runs (.srw a 0x002) s (s.faultLaunch s.unitNo 0x04 s.tile s.cur.spc.toNat))

/-- R76 to R78: the dependence commands: opening the lowest free entry, joining two entries, arming with the next age, and the wait that frees
a DONE entry and takes its high-water into LCLK; and the states they refuse with 0x82 and 0x83. -/
def Obligations.DependenceSteps : Prop :=
  (∀ d k s i, s.cur.freeDep = some i → s.cur.openDep = none →
    ∃ t, Runs (.depNew d k) s t ∧ t.ra d = BitVec.ofNat 64 i ∧ (∀ r, r ≠ d → t.ra r = s.ra r) ∧ t.cur.spc = s.cur.spc + 8 ∧
      t.cur.deps = smPut s.cur.deps i (DepEnt.fresh k)) ∧
  (∀ d k s, s.cur.freeDep = none → Runs (.depNew d k) s (s.faultLaunch s.unitNo 0x82 s.tile s.cur.spc.toNat)) ∧
  (∀ a b s e f, (s.ra a).toNat < 64 → (s.ra b).toNat < 64 → smFind s.cur.deps (s.ra a).toNat = some e →
    smFind s.cur.deps (s.ra b).toNat = some f → e.state ≠ .done → f.takesEdge = true → e.succ.length < 8 → s.ra a ≠ s.ra b →
    ∃ t, Runs (.depEdge a b) s t ∧ (∀ r, t.ra r = s.ra r) ∧ t.cur.spc = s.cur.spc + 8 ∧
      smFind t.cur.deps (s.ra a).toNat = some { e with succ := e.succ ++ [(s.ra b).toNat] } ∧
      smFind t.cur.deps (s.ra b).toNat = some { f with count := f.count + 1 }) ∧
  (∀ a b s e f, (s.ra a).toNat < 64 → (s.ra b).toNat < 64 → smFind s.cur.deps (s.ra a).toNat = some e →
    smFind s.cur.deps (s.ra b).toNat = some f → e.state ≠ .done → f.takesEdge = false →
    Runs (.depEdge a b) s (s.faultLaunch s.unitNo 0x83 s.tile s.cur.spc.toNat)) ∧
  (∀ a s e, (s.ra a).toNat < 64 → smFind s.cur.deps (s.ra a).toNat = some e → e.state = .held →
    ∃ t, Runs (.depArm a) s t ∧ (∀ r, t.ra r = s.ra r) ∧ t.cur.spc = s.cur.spc + 8 ∧ t.stamp = s.stamp + 1 ∧
      smFind t.cur.deps (s.ra a).toNat = some { e with state := .armed, age := s.stamp }) ∧
  (∀ a s e, (s.ra a).toNat < 64 → smFind s.cur.deps (s.ra a).toNat = some e → e.state ≠ .held →
    Runs (.depArm a) s (s.faultLaunch s.unitNo 0x83 s.tile s.cur.spc.toNat)) ∧
  (∀ a s e, (s.ra a).toNat < 64 → smFind s.cur.deps (s.ra a).toNat = some e → e.state = .done →
    ∃ t, Runs (.depWait a) s t ∧ (∀ r, t.ra r = s.ra r) ∧ t.cur.spc = s.cur.spc + 8 ∧ t.cur.deps = smDel s.cur.deps (s.ra a).toNat ∧
      t.cur.spr.lclk = tsMax s.cur.spr.lclk e.hw) ∧
  (∀ a s e, (s.ra a).toNat < 64 → smFind s.cur.deps (s.ra a).toNat = some e → e.state = .armed → Holds (.depWait a) s true) ∧
  (∀ a s, 64 ≤ (s.ra a).toNat → Runs (.depWait a) s (s.faultLaunch s.unitNo 0x04 s.tile s.cur.spc.toNat))

/-- A step's command leaves for an engine of a die, with the sequencer as its reply cell, from a state in which its flow has room and, for an
atomic, no rebase runs; the step waits for the reply (R46, R53, R176, R231). -/
def Sys2Proof.Claims.Leaves (i : Instr) (s v : State) (die : Nat) (code : BitVec 8) (fmt : BitVec 3) (sc : BitVec 2) (addr : Nat) (a b : Word)
    (progress engine : Bool) : Prop :=
  v.room (tileDie v.tile) (tileLocal v.tile) die (replyCls code.toNat) = true → (atomicCode code.toNat = true → v.rebasing = false) →
  ∃ t m, Runs i s t ∧ t.msgs = v.msgs ++ [m] ∧ m.agent = v.me ∧ m.owner = v.unitNo ∧ m.die = die ∧
    m.kind = .cmd ⟨code, fmt, sc, addr, a, b, v.cur.spr.lclk.toNat, v.vmid, .seq v.tile⟩ ∧
    t.cur = { v.cur with wait := some (.reply progress engine), phase := 1, tracked := t.cur.tracked }

/-- A phaser step that only drains the store buffer: its command leaves once its page is reached, with R and W, and the buffer is empty. -/
def Sys2Proof.Claims.LeavesPlain (i : Instr) (s u : State) (va : Nat) (code : BitVec 8) (a : Word) (progress engine : Bool) : Prop :=
  ∀ w v, u.reach u.me u.vmid va 64 1 .rw syncType = .ok w v → v.cur.sbuf = [] → Leaves i s v (syncPlace w.flat).1 code 0 0 w.flat a 0 progress engine

/-- R79, R176, R246 to R254: the Granary, phaser and atomic steps: the command that leaves when the store buffer has drained or the release has
ended, and what the step writes once its reply has come; a RED form completes as its message leaves. A wait's hand-off raises LCLK (R227). -/
def Obligations.EngineSteps : Prop :=
  (∀ d a s r, s.replied = some r → ∃ t, Runs (.qRsv d a) s t ∧ Writes s t d r.data) ∧
  (∀ d a s, s.replied = none → queueIdOk (s.ra a) = true → s.cur.sbuf = [] →
    Leaves (.qRsv d a) s s (queuePlace (s.ra a).toNat).1 0x30 0 0 (s.ra a).toNat 0 0 true true) ∧
  (∀ a sc s u v w flat, s.replied = none → s.reach s.me s.vmid (s.ra a).toNat 64 1 .rw syncType = .ok w u →
    u.reservation (u.ra a).toNat = some flat → (u.ra a).toNat = (s.ra a).toNat → u.release u.me u.unitNo sc = (true, v) →
    Leaves (.qAdd a sc) s v (syncPlace flat).1 0x31 0 sc flat 0 (v.cur.spr.whw.setWidth 64) false false) ∧
  (∀ d a b s u w, s.recordReply = none → queueIdOk (s.ra a) = true → s.reach s.me s.vmid (s.ra b).toNat 64 64 .w plainType = .ok w u →
    (u.ra a).toNat = (s.ra a).toNat → u.cur.sbuf = [] → u.cur.pre.queue = some (s.ra a).toNat →
    (u.cur.pre.recs = [] → Leaves (.qTake d a b) s u (queuePlace (s.ra a).toNat).1 0x32 0 0 (s.ra a).toNat 0 0 true true) ∧
    (∀ r more, u.cur.pre.recs = r :: more → ∃ t, Runs (.qTake d a b) s t ∧
      t.cur = { u.cur with pre := ⟨some (s.ra a).toNat, more, u.clk⟩, phase := 1, reply := some ⟨0x32, true, 0, r.whw, some r.data⟩,
                           wait := some (.poll false) })) ∧
  (∀ a (m : BitVec 2) s, s.replied = none → LeavesPlain (.phReg a m) s s (s.ra a).toNat 0x20 (m.setWidth 64) false false) ∧
  (∀ a s, s.replied = none → LeavesPlain (.phDrop a) s s (s.ra a).toNat 0x21 0 false false) ∧
  (∀ d a b s, s.replied = none → LeavesPlain (.phWait d a b) s s (s.ra a).toNat 0x23 (((s.ra b).setWidth 32).setWidth 64) true true) ∧
  (∀ a b s, s.replied = none → 1 ≤ (s.ra b).toNat → (s.ra b).toNat < 256 →
    LeavesPlain (.phErr a b) s s (s.ra a).toNat 0x25 (s.ra b) false false) ∧
  (∀ a b s u w, s.recordReply = none → s.reach s.me s.vmid (s.ra b).toNat 64 64 .w plainType = .ok w u →
    LeavesPlain (.phRead a b) s u (u.ra a).toNat 0x26 0 false false) ∧
  (∀ a sc s u v w, s.replied = none → (∀ i e, s.cur.openDep = some (i, e) → e.kind ≠ 2) →
    s.reach s.me s.vmid (s.ra a).toNat 64 1 .rw syncType = .ok w u → u.release u.me u.unitNo sc = (true, v) →
    Leaves (.phSig a sc) s v (syncPlace w.flat).1 0x22 0 sc w.flat (v.cur.spr.whw ++ (0 : BitVec 32)) 0 false false) ∧
  (∀ d a b sc s u v w, s.replied = none → s.cur.phase ≠ 3 → s.reach s.me s.vmid (s.ra a).toNat 64 1 .rw syncType = .ok w u →
    u.release u.me u.unitNo sc = (true, v) →
    Leaves (.phSw d a b sc) s v (syncPlace w.flat).1 0x24 0 sc w.flat (v.cur.spr.whw ++ (s.ra b).setWidth 32) 0 true true) ∧
  (∀ cmd d a b x sc s u v w, s.replied = none → let n := if cmd.toNat % 0x80 ≤ 0x0B then 8 else 4
    (n = 4 → (s.ra b).toNat < 2 ^ 32) → s.reach s.me s.vmid (s.ra a).toNat n n .rw atomType = .ok w u → u.cur.sbuf = [] →
    u.settled u.me u.unitNo sc true = (true, v) →
    let fmt : BitVec 3 := if n = 8 then 0 else if cmd.toNat % 0x80 = 0x0C then 2 else 3
    let second : Word := if cmd = 0x0B then v.ra x else 0
    (cmd.toNat < 0x80 → Leaves (.atom cmd d a b x sc) s v w.home cmd fmt sc w.flat (v.ra b) second false true) ∧
    (0x80 ≤ cmd.toNat → v.room (tileDie v.tile) (tileLocal v.tile) w.home 0 = true → v.rebasing = false →
      ∃ t m, Runs (.atom cmd d a b x sc) s t ∧ t.msgs = v.msgs ++ [m] ∧ m.agent = v.me ∧ m.owner = v.unitNo ∧ m.die = w.home ∧
        m.kind = .cmd ⟨cmd, fmt, sc, w.flat, v.ra b, second, v.cur.spr.lclk.toNat, v.vmid, .none⟩ ∧
        t.ra d = 0 ∧ (∀ r, r ≠ d → t.ra r = v.ra r) ∧ t.cur.spc = v.cur.spc + 8)) ∧
  (∀ d a s, s.replied = none → queueIdOk (s.ra a) = false → Runs (.qRsv d a) s (s.faultLaunch s.unitNo 0x04 s.tile s.cur.spc.toNat)) ∧
  (∀ a sc s r, s.replied = some r → ∃ t, Runs (.qAdd a sc) s t ∧ GoesOn s t) ∧
  (∀ d a b s r, s.recordReply = some r → r.line = none → ∃ t, Runs (.qTake d a b) s t ∧ Writes s t d r.data) ∧
  (∀ d a b s r l, s.recordReply = some r → r.line = some l → s.cur.phase = 2 → s.cur.sbuf = [] → s.accessOut s.me = false →
    ∃ t, Runs (.qTake d a b) s t ∧ t.ra d = 0 ∧ (∀ q, q ≠ d → t.ra q = s.ra q) ∧ t.cur.spc = s.cur.spc + 8 ∧
      t.cur.spr = { s.cur.spr with lclk := tsMax s.cur.spr.lclk r.time }) ∧
  (∀ a m s r, s.replied = some r → ∃ t, Runs (.phReg a m) s t ∧ GoesOn s t) ∧
  (∀ a s r, s.replied = some r → ∃ t, Runs (.phDrop a) s t ∧ GoesOn s t) ∧
  (∀ a sc s r, s.replied = some r → ∃ t, Runs (.phSig a sc) s t ∧ GoesOn s t) ∧
  (∀ a b s r, s.replied = some r → ∃ t, Runs (.phErr a b) s t ∧ GoesOn s t) ∧
  (∀ d a b s r, s.replied = some r → ∃ t, Runs (.phWait d a b) s t ∧ t.ra d = (r.data.extractLsb' 32 8).setWidth 64 ∧
    (∀ q, q ≠ d → t.ra q = s.ra q) ∧ t.cur.spc = s.cur.spc + 8 ∧ t.cur.spr = { s.cur.spr with lclk := tsMax s.cur.spr.lclk r.time }) ∧
  (∀ d a b sc s r, s.replied = some r → ∃ t, Runs (.phSw d a b sc) s t ∧ t.ra d = (r.data.extractLsb' 32 8).setWidth 64 ∧
    (∀ q, q ≠ d → t.ra q = s.ra q) ∧ t.cur.spc = s.cur.spc + 8 ∧ t.cur.spr = { s.cur.spr with lclk := tsMax s.cur.spr.lclk r.time }) ∧
  (∀ a b s r, s.recordReply = some r → s.cur.phase = 2 → s.cur.sbuf = [] → s.accessOut s.me = false →
    ∃ t, Runs (.phRead a b) s t ∧ GoesOn s t) ∧
  (∀ cmd d a b x sc s r, s.replied = some r → ∃ t, Runs (.atom cmd d a b x sc) s t ∧ Writes s t d r.data) ∧
  (∀ a b s, s.replied = none → (s.ra b = 0 ∨ 256 ≤ (s.ra b).toNat) →
    Runs (.phErr a b) s (s.faultLaunch s.unitNo 0x04 s.tile s.cur.spc.toNat)) ∧
  (∀ a sc s i e, s.replied = none → s.cur.openDep = some (i, e) → e.kind = 2 →
    ∃ t, Runs (.phSig a sc) s t ∧ (∀ r, t.ra r = s.ra r) ∧ t.cur.spc = s.cur.spc + 8 ∧
      smFind t.cur.deps i = some { e with state := .held, step := .signal (s.ra a) sc } ∧ t.msgs = s.msgs) ∧
  (∀ cmd d a b x sc s, s.replied = none → (cmd.toNat % 0x80 ≤ 0x0B) → (s.ra a).toNat < 2 ^ 56 → (s.ra a).toNat % 8 ≠ 0 →
    Runs (.atom cmd d a b x sc) s (s.faultLaunch s.unitNo 0x22 s.tile (s.ra a).toNat)) ∧
  (∀ line s, Runs (.evt line) s (s.nextStep.pulse (cellOf s.tile line.toNat) 5))

/-- A handler word has issued (R139, R143): of the whole machine only the acting cell's block and load state, and the activity mark of its
launch, may differ. -/
def Sys2Proof.Claims.BlockGoesOn (s t : State) (n : Nat) (b : Block) : Prop :=
  t.cell = s.cell ∧ (∀ a, memByte t.mem a = memByte s.mem a) ∧ t.tiles = s.tiles ∧ t.dies = s.dies ∧ t.msgs = s.msgs ∧ t.net = s.net ∧
  t.homeTs = s.homeTs ∧ t.flows = s.flows ∧ t.mod = s.mod ∧ (∀ c, c ≠ s.cell → t.getCell c = s.getCell c) ∧
  t.getCell s.cell = { s.getCell s.cell with block := some { b with pc := b.pc + n, issued := b.issued + n, held := false }, ld := LoadSt.empty } ∧
  (∀ u, t.launch? u = (s.launch? u).map fun l => if s.owner? (cellTile s.cell) = some u then { l with active := true } else l)

/-- The temporary `d` of a block takes a value. -/
def Sys2Proof.Claims.withT (b : Block) (d : BitVec 3) (v : TVal) : Block := { b with t := b.t.set d.toNat v }

/-- A word whose guard is false has no effect but that it is passed (R34). -/
def Sys2Proof.Claims.Guarded (i : Instr) (g : BitVec 4) (n : Nat) : Prop :=
  ∀ s, guardTrue s.blk g = false → ∃ t, Runs i s t ∧ BlockGoesOn s t n s.blk

/-- A word of two operands: it writes `d` from them, a read before b (R140, R141), when its guard holds and its channels have entries; with
an empty channel the block holds at the word. -/
def Sys2Proof.Claims.Word2 (mk : BitVec 3 → Opnd → Opnd → BitVec 4 → Instr) (f : Block → BitVec 3 → TVal → TVal → TVal) : Prop :=
  ∀ d a b g, Guarded (mk d a b g) g 1 ∧ ∀ s, guardTrue s.blk g = true →
    (∀ x y k j, s.opnd s.blk a = some (x, k) → s.opnd k b = some (y, j) →
      ∃ t, Runs (mk d a b g) s t ∧ BlockGoesOn s t 1 (withT j d (f j d x y))) ∧
    (s.opnd s.blk a = none → Runs (mk d a b g) s (s.setBlk { s.blk with held := true }))

/-- A word of one operand. -/
def Sys2Proof.Claims.Word1 (mk : BitVec 3 → Opnd → BitVec 4 → Instr) (n : Nat) (f : Block → BitVec 3 → TVal → TVal) : Prop :=
  ∀ d a g, Guarded (mk d a g) g n ∧ ∀ s, guardTrue s.blk g = true →
    (∀ x k, s.opnd s.blk a = some (x, k) → ∃ t, Runs (mk d a g) s t ∧ BlockGoesOn s t n (withT k d (f k d x))) ∧
    (s.opnd s.blk a = none → Runs (mk d a g) s (s.setBlk { s.blk with held := true }))

/-- An integer of `w` bits as its format reads it: signed but under .SATU (R145). -/
def Sys2Proof.Claims.asInt (e : IExt) (w v : Nat) : Int :=
  match e with | .satu => (v : Int) | _ => if v < 2 ^ (w - 1) then (v : Int) else (v : Int) - 2 ^ w

/-- An exact integer brought back to `w` bits: modulo 2^w, clamped to the signed range, or to the unsigned range (R145). -/
def Sys2Proof.Claims.narrow (e : IExt) (w : Nat) (x : Int) : Nat :=
  match e with
  | .wrap => (x % 2 ^ w).toNat
  | .sat => ((max (-(2 ^ (w - 1) : Int)) (min x (2 ^ (w - 1) - 1))) % 2 ^ w).toNat
  | .satu => (max 0 (min x (2 ^ w - 1))).toNat

/-- Two values joined lane by lane: lane i of the result is `f` of lanes i (R85, R145). -/
def Sys2Proof.Claims.Lanes (f : IFmt) (op : Nat → Nat → Nat → Nat) (x y r : TVal) : Prop :=
  r.fmt = BitVec.ofNat 3 (iTag f) ∧ ∀ i, i < 64 / iWidth f →
    bitsOf r.data.toNat (iWidth f * i + iWidth f - 1) (iWidth f * i) =
      op (iWidth f) (bitsOf x.data.toNat (iWidth f * i + iWidth f - 1) (iWidth f * i)) (bitsOf y.data.toNat (iWidth f * i + iWidth f - 1) (iWidth f * i))

/-- An integer word of two operands whose result's lanes are given by `op`. -/
def Sys2Proof.Claims.IWord2 (mk : BitVec 3 → Opnd → Opnd → IFmt → BitVec 4 → Instr) (op : Nat → Nat → Nat → Nat) : Prop :=
  ∀ f, ∃ v : TVal → TVal → TVal, (∀ x y, Lanes f op x y (v x y)) ∧ Word2 (fun d a b g => mk d a b f g) fun _ _ x y => v x y

/-- An integer word of one operand whose result's lanes are given by `op`. -/
def Sys2Proof.Claims.IWord1 (mk : BitVec 3 → Opnd → IFmt → BitVec 4 → Instr) (op : Nat → Nat → Nat) : Prop :=
  ∀ f, ∃ v : TVal → TVal, (∀ x, Lanes f (fun w a _ => op w a) x x (v x)) ∧ Word1 (fun d a g => mk d a f g) 1 fun _ _ x => v x

/-- The signed reading of a lane. -/
def Sys2Proof.Claims.sgn (w v : Nat) : Int := if v < 2 ^ (w - 1) then (v : Int) else (v : Int) - 2 ^ w

/-- R145, R146: the integer, logic and compare words of handlers, lane by lane, with their guard, their channel wait and their frame. -/
def Sys2Proof.Claims.HandlerIntegerResults : Prop :=
  (∀ e, IWord2 (fun d a b f g => .hAdd d a b f g e) fun w x y => narrow e w (asInt e w x + asInt e w y)) ∧
  (∀ e, IWord2 (fun d a b f g => .hSub d a b f g e) fun w x y => narrow e w (asInt e w x - asInt e w y)) ∧
  (∀ e, IWord2 (fun d a b f g => .hMul d a b f g e) fun w x y => narrow e w (asInt e w x * asInt e w y)) ∧
  IWord2 .hMulh (fun w x y => narrow .wrap w (sgn w x * sgn w y / 2 ^ w)) ∧ IWord2 .hMulhu (fun w x y => x * y / 2 ^ w) ∧
  IWord2 .hMin (fun w x y => narrow .wrap w (min (sgn w x) (sgn w y))) ∧ IWord2 .hMax (fun w x y => narrow .wrap w (max (sgn w x) (sgn w y))) ∧
  IWord2 .hMinu (fun _ x y => min x y) ∧ IWord2 .hMaxu (fun _ x y => max x y) ∧
  (∀ e, IWord1 (fun d a f g => .hAbs d a f g e) fun w x => narrow e w ((sgn w x).natAbs : Int)) ∧
  (∀ e, IWord1 (fun d a f g => .hNeg d a f g e) fun w x => narrow e w (- asInt e w x)) ∧
  IWord1 .hPopc (fun w x => ((List.range w).filter fun i => x.testBit i).length) ∧
  IWord1 .hClz (fun w x => ((List.range w).find? fun i => x.testBit (w - 1 - i)).getD w) ∧
  IWord1 .hCtz (fun w x => ((List.range w).find? fun i => x.testBit i).getD w) ∧
  IWord2 .hAnd (fun _ x y => x &&& y) ∧ IWord2 .hOr (fun _ x y => x ||| y) ∧ IWord2 .hXor (fun _ x y => x ^^^ y) ∧
  IWord2 .hAndn (fun w x y => x &&& (2 ^ w - 1 - y)) ∧
  IWord2 .hShl (fun w x y => x * 2 ^ (y % 64) % 2 ^ w) ∧ IWord2 .hShr (fun _ x y => x / 2 ^ (y % 64)) ∧
  IWord2 .hSra (fun w x y => narrow .wrap w (sgn w x / 2 ^ (y % 64))) ∧
  IWord2 .hCeq (fun _ x y => if x = y then 1 else 0) ∧ IWord2 .hCne (fun _ x y => if x = y then 0 else 1) ∧
  IWord2 .hClt (fun w x y => if sgn w x < sgn w y then 1 else 0) ∧ IWord2 .hCltu (fun _ x y => if x < y then 1 else 0) ∧
  IWord2 .hCle (fun w x y => if sgn w x ≤ sgn w y then 1 else 0) ∧ IWord2 .hCleu (fun _ x y => if x ≤ y then 1 else 0)

/-- A 64-bit value with tag I64. -/
def Sys2Proof.Claims.w64 (v : Word) : TVal := ⟨v, 0⟩

/-- R147 to R149: the immediate, bit-field and literal words of handlers. The results carry tag I64. -/
def Sys2Proof.Claims.HandlerImmediateResults : Prop :=
  (∀ i, Word1 (fun d a g => .hAddi d a i g) 1 fun _ _ x => w64 (BitVec.ofInt 64 (x.data.toNat + i.toInt))) ∧
  (∀ i, Word1 (fun d a g => .hAndi d a i g) 1 fun _ _ x => w64 (x.data &&& BitVec.ofNat 64 i.toNat)) ∧
  (∀ i, Word1 (fun d a g => .hOri d a i g) 1 fun _ _ x => w64 (x.data ||| BitVec.ofNat 64 i.toNat)) ∧
  (∀ i, Word1 (fun d a g => .hXori d a i g) 1 fun _ _ x => w64 (x.data ^^^ BitVec.ofNat 64 i.toNat)) ∧
  (∀ n, Word1 (fun d a g => .hShli d a n g) 1 fun _ _ x => w64 (BitVec.ofNat 64 (x.data.toNat * 2 ^ n.toNat))) ∧
  (∀ n, Word1 (fun d a g => .hShri d a n g) 1 fun _ _ x => w64 (BitVec.ofNat 64 (x.data.toNat / 2 ^ n.toNat))) ∧
  (∀ n, Word1 (fun d a g => .hSrai d a n g) 1 fun _ _ x => w64 (BitVec.ofInt 64 (x.data.toInt / 2 ^ n.toNat))) ∧
  (∀ i, Word1 (fun d a g => .hCeqi d a i g) 1 fun _ _ x => w64 (one? (x.data = BitVec.ofInt 64 i.toInt))) ∧
  (∀ i, Word1 (fun d a g => .hClti d a i g) 1 fun _ _ x => w64 (one? (x.data.toInt < i.toInt))) ∧
  (∀ i : BitVec 11, Word1 (fun d a g => .hCltui d a i g) 1 fun _ _ x => w64 (one? (x.data.toNat < i.toNat))) ∧
  (∀ p l, p.toNat + l.toNat ≤ 63 → Word1 (fun d a g => .hBfx d a p l g) 1 fun _ _ x =>
    w64 (BitVec.ofInt 64 (sgn (l.toNat + 1) (bitsOf x.data.toNat (p.toNat + l.toNat) p.toNat)))) ∧
  (∀ p l, p.toNat + l.toNat ≤ 63 → Word1 (fun d a g => .hBfxu d a p l g) 1 fun _ _ x =>
    w64 (BitVec.ofNat 64 (bitsOf x.data.toNat (p.toNat + l.toNat) p.toNat))) ∧
  (∀ p l, p.toNat + l.toNat ≤ 63 → ∃ v : Word → Word → Word,
    (∀ o x i, i < 64 → (v o x).getLsbD i = if p.toNat ≤ i ∧ i ≤ p.toNat + l.toNat then x.getLsbD (i - p.toNat) else o.getLsbD i) ∧
    Word1 (fun d a g => .hBfi d a p l g) 1 fun k d x => w64 (v k.t[d.toNat].data x.data)) ∧
  (∀ d g (lit : BitVec 32), Guarded (.hLit d g lit) g 2 ∧ ∀ s, guardTrue s.blk g = true →
    ∃ t, Runs (.hLit d g lit) s t ∧ BlockGoesOn s t 2 (withT s.blk d (w64 (BitVec.ofInt 64 lit.toInt)))) ∧
  (∀ d g (lit : BitVec 32), Guarded (.hLith d g lit) g 2 ∧ ∀ s, guardTrue s.blk g = true →
    ∃ t, Runs (.hLith d g lit) s t ∧
      BlockGoesOn s t 2 (withT s.blk d (w64 (BitVec.ofNat 64 (lit.toNat * 2 ^ 32 + s.blk.t[d.toNat].data.toNat % 2 ^ 32))))) ∧
  (∀ lit : BitVec 32, Word1 (fun d a g => .hAddl d a g lit) 2 fun _ _ x => w64 (BitVec.ofInt 64 (x.data.toNat + lit.toInt)))

/-- R145 to R149: what every integer instruction of a handler writes, in its register and its immediate forms. -/
def Obligations.HandlerScalarResults : Prop := Claims.HandlerIntegerResults ∧ Claims.HandlerImmediateResults

/-- R150 to R152: the floating words of handlers: each lane is the exact result of its lanes rounded once by the word's rounding; min, max,
sign and compare rules; conversions; and the dot product. Nothing raises a flag or traps on a value. -/
def Obligations.HandlerFloatResults : Prop :=
  (∀ f e, Word2 (fun d a b g => .hFadd d a b f g e) fun _ _ x y => fVal f (zipParts (fWidth f)
    (fun u v => hRound f e (((fForm f).decode u).add (e == .rdn) ((fForm f).decode v))) x.data y.data)) ∧
  (∀ f e, Word2 (fun d a b g => .hFsub d a b f g e) fun _ _ x y => fVal f (zipParts (fWidth f)
    (fun u v => hRound f e (((fForm f).decode u).add (e == .rdn) ((fForm f).decode v).neg)) x.data y.data)) ∧
  (∀ f e, Word2 (fun d a b g => .hFmul d a b f g e) fun _ _ x y => fVal f (zipParts (fWidth f)
    (fun u v => hRound f e (((fForm f).decode u).mul ((fForm f).decode v))) x.data y.data)) ∧
  (∀ f e, Word2 (fun d a b g => .hFma d a b f g e) fun k d x y => fMulAdd f e x.data y.data k.t[d.toNat].data) ∧
  (∀ f e, Word2 (fun d a b g => .hFmin d a b f g e) fun _ _ x y => fPick2 f true x y) ∧
  (∀ f e, Word2 (fun d a b g => .hFmax d a b f g e) fun _ _ x y => fPick2 f false x y) ∧
  (∀ f, Word1 (fun d a g => .hFabs d a f g) 1 fun _ _ x => fVal f (mapParts (fWidth f) (fun v => v % 2 ^ (fWidth f - 1)) x.data)) ∧
  (∀ f, Word1 (fun d a g => .hFneg d a f g) 1 fun _ _ x => fVal f (mapParts (fWidth f) (fun v => v ^^^ 2 ^ (fWidth f - 1)) x.data)) ∧
  (∀ f, Word2 (fun d a b g => .hFceq d a b f g) fun _ _ x y => fCmp f FVal.eqv x y) ∧
  (∀ f, Word2 (fun d a b g => .hFclt d a b f g) fun _ _ x y => fCmp f FVal.lt x y) ∧
  (∀ f, Word2 (fun d a b g => .hFcle d a b f g) fun _ _ x y => fCmp f FVal.le x y) ∧
  (∀ f e, Word1 (fun d a g => .hFrcp d a f g e) 1 fun _ _ x => fVal f (mapParts (fWidth f)
    (fun u => hRound f e (FVal.div (.fin false 1 0 false) ((fForm f).decode u))) x.data)) ∧
  (∀ f e, Word1 (fun d a g => .hFsqrt d a f g e) 1 fun _ _ x => fVal f (mapParts (fWidth f) (fun u => hRound f e ((fForm f).decode u).sqrt) x.data)) ∧
  (∀ f e, Word1 (fun d a g => .hFexp2 d a f g e) 1 fun _ _ x => fVal f (mapParts (fWidth f) (fun u => hRound f e ((fForm f).decode u).exp2) x.data)) ∧
  (∀ u f e, Word1 (fun d a g => .hFcvt d a u f g e) 1 fun _ _ x => ⟨joinParts (tagWidth (cTag u))
    (((parts (tagWidth (cTag f)) x.data).take (64 / tagWidth (cTag u))).map fun v => (convElem (hRnd e) false (cTag f) (cTag u) 0 v).code),
    BitVec.ofNat 3 (cTag u)⟩) ∧
  (∀ f e, Word1 (fun d a g => .hIcvtf d a f g e) 1 fun _ _ x => ⟨mapParts (tagWidth (cTag f))
    (fun v => (roundFp (fmtOfTag (cTag f)) (hRnd e) false 0 (ofInt (sextNat v (tagWidth (cTag f))))).code) x.data, BitVec.ofNat 3 (cTag f)⟩) ∧
  (∀ f e, Word1 (fun d a g => .hFcvti d a f g e) 1 fun _ _ x => ⟨mapParts (tagWidth (cTag f))
    (fun v => (convToInt (hRnd e) true false (tagWidth (cTag f)) 0 ((fmtOfTag (cTag f)).decode v)).code) x.data,
    if f = .f32x2 then 1 else 0⟩) ∧
  (∀ f e, Word2 (fun d a b g => .hFdot d a b f g e) fun _ _ x y => dotVal f e x.data y.data)

/-- A local load: its value is the block's own bytes over local memory (R118, R153); misaligned it traps with 0x22, out of bounds with 0x26. -/
def Sys2Proof.Claims.LoadsLocal (mk : BitVec 3 → Opnd → BitVec 11 → BitVec 4 → Instr) (n : Nat) : Prop :=
  ∀ d a off g, Guarded (mk d a off g) g 1 ∧ ∀ s x k, guardTrue s.blk g = true → s.opnd s.blk a = some (x, k) →
    let p := (x.data + BitVec.ofInt 64 (n * off.toInt)).toNat
    (p % n = 0 → 0x4000 ≤ p → p + n ≤ 0x18000 →
      ∃ t, Runs (mk d a off g) s t ∧ BlockGoesOn s t 1 (withT k d (w64 (BitVec.ofNat 64 (s.localRead k p n))))) ∧
    (p % n ≠ 0 → exec (mk d a off g) s = s.trapBlock 0x22 p) ∧ (p % n = 0 → p < 0x4000 → exec (mk d a off g) s = s.trapBlock 0x26 p)

/-- A local store: its bytes join the block's own, for the commit (R142, R153). -/
def Sys2Proof.Claims.StoresLocal (mk : BitVec 3 → Opnd → BitVec 11 → BitVec 4 → Instr) (n : Nat) : Prop :=
  ∀ d a off g, Guarded (mk d a off g) g 1 ∧ ∀ s x k, guardTrue s.blk g = true → s.opnd s.blk a = some (x, k) →
    let p := (x.data + BitVec.ofInt 64 (n * off.toInt)).toNat
    (p % n = 0 → 0x4000 ≤ p → p + n ≤ 0x17FC0 →
      ∃ t m, Runs (mk d a off g) s t ∧ BlockGoesOn s t 1 { k with lstores := m } ∧
        ∀ b, smFind m b = if p ≤ b ∧ b < p + n then some (BitVec.ofNat 8 (k.t[d.toNat].data.toNat / 256 ^ (b - p))) else smFind k.lstores b) ∧
    (p % n ≠ 0 → exec (mk d a off g) s = s.trapBlock 0x22 p) ∧ (p % n = 0 → 0x17FC0 ≤ p → exec (mk d a off g) s = s.trapBlock 0x26 p)

/-- R118, R153: the local loads and stores of handlers, of every width. -/
def Sys2Proof.Claims.HandlerLocalMemory : Prop :=
  LoadsLocal .hLdl8 1 ∧ LoadsLocal .hLdl16 2 ∧ LoadsLocal .hLdl32 4 ∧ LoadsLocal .hLdl64 8 ∧
  StoresLocal .hStl8 1 ∧ StoresLocal .hStl16 2 ∧ StoresLocal .hStl32 4 ∧ StoresLocal .hStl64 8

/-- A global load that its cell's load state answers: the value as loaded, with the block's own stores over it (R154). -/
def Sys2Proof.Claims.LoadsGlobal (mk : BitVec 3 → Opnd → BitVec 11 → BitVec 4 → Instr) (n : Nat) : Prop :=
  ∀ d a off g, Guarded (mk d a off g) g 1 ∧ ∀ s x k, guardTrue s.blk g = true → s.opnd s.blk a = some (x, k) →
    let p := (x.data + BitVec.ofInt 64 (n * off.toInt)).toNat
    (∀ v u, s.hLoad k p n = .val v u → ∃ t, Runs (mk d a off g) s t ∧ BlockGoesOn u t 1 (withT k d (w64 (BitVec.ofNat 64 v)))) ∧
    (p < 2 ^ 56 → p % n ≠ 0 → exec (mk d a off g) s = s.trapBlock 0x22 p)

/-- A global store: translated and checked now, it joins the block's stores for the commit (R142, R154). -/
def Sys2Proof.Claims.StoresGlobal (mk : BitVec 3 → Opnd → BitVec 11 → BitVec 4 → Instr) (n : Nat) : Prop :=
  ∀ d a off g, Guarded (mk d a off g) g 1 ∧ ∀ s x k, guardTrue s.blk g = true → s.opnd s.blk a = some (x, k) →
    let p := (x.data + BitVec.ofInt 64 (n * off.toInt)).toNat
    (∀ w u, s.reach (cellAgent s.cell) (s.cellVmid s.cell) p n n .w plainType = .ok w u →
      ∃ t, Runs (mk d a off g) s t ∧ BlockGoesOn u t 1 { k with gstores := k.gstores ++
        [⟨p, w.flat, w.ty, w.home, n, BitVec.ofNat 512 (k.t[d.toNat].data.toNat % 2 ^ (8 * n)), s.cellUnit s.cell, 0, false⟩] }) ∧
    (p < 2 ^ 56 → p % n ≠ 0 → exec (mk d a off g) s = s.trapBlock 0x22 p)

/-- R154: the global loads and stores of handlers, of every width. -/
def Sys2Proof.Claims.HandlerGlobalMemory : Prop :=
  LoadsGlobal .hLdg8 1 ∧ LoadsGlobal .hLdg16 2 ∧ LoadsGlobal .hLdg32 4 ∧ LoadsGlobal .hLdg64 8 ∧
  StoresGlobal .hStg8 1 ∧ StoresGlobal .hStg16 2 ∧ StoresGlobal .hStg32 4 ∧ StoresGlobal .hStg64 8

/-- R153, R154: the local and the global memory accesses of a handler. -/
def Obligations.HandlerMemory : Prop := Claims.HandlerLocalMemory ∧ Claims.HandlerGlobalMemory

/-- R128, R136, R155 to R157: EMIT, EMITP and SEND add their tokens to the block, data with the aux byte that R128 gives it; of a Q4X16 value that is
no matched input the aux byte is a free value (log 137). EXIT DONE holds it for its commit, EXIT DEFER abandons it, EXIT
FAIL traps it with 0x07; an entry that cannot serve, for SEND one of another field than L too, traps with 0x05. -/
def Obligations.HandlerEmitAndExit : Prop :=
  (∀ a d0 d1 op g, Guarded (.hEmit a d0 d1 op g) g 1 ∧ ∀ s x k, guardTrue s.blk g = true → s.opnd s.blk a = some (x, k) →
    ((∀ d ∈ dests d0 d1, (s.entry s.cell d).takesData = true) → ∀ u aux j, s.emitAux k a x.fmt = (aux, u) →
      u.emitAll k op.toNat x.fmt aux [x.data] none (dests d0 d1) = .ok j → ∃ t, Runs (.hEmit a d0 d1 op g) s t ∧ BlockGoesOn u t 1 j) ∧
    (∀ d ∈ dests d0 d1, (s.entry s.cell d).takesData = false → exec (.hEmit a d0 d1 op g) s = s.trapBlock 0x05 0)) ∧
  (∀ a d0 d1 op g, Guarded (.hEmitp a d0 d1 op g) g 1 ∧ ∀ s x k, guardTrue s.blk g = true → s.opnd s.blk a = some (x, k) →
    (∀ d ∈ dests d0 d1, (s.entry s.cell d).valid = true ∧ (s.entry s.cell d).field = 2) → ∀ j,
      s.emitAll k op.toNat 0 0 [if bitOf x.data.toNat 0 then 1 else 0] none (dests d0 d1) = .ok j →
      ∃ t, Runs (.hEmitp a d0 d1 op g) s t ∧ BlockGoesOn s t 1 j) ∧
  (∀ a b g, Guarded (.hSend a b g) g 1 ∧ ∀ s x y k j, guardTrue s.blk g = true → s.opnd s.blk a = some (x, k) → s.opnd k b = some (y, j) →
    x.data.toNat % 8 = 0 → y.data.toNat < 2 ^ 15 → bitsOf y.data.toNat 5 0 ≠ 63 → bitsOf y.data.toNat 14 12 ≠ 7 →
    ((s.entry s.cell (bitsOf y.data.toNat 5 0)).takesPacket = true → 0x4000 ≤ x.data.toNat →
      x.data.toNat + 8 * (bitsOf y.data.toNat 8 6 + 1) ≤ 0x18000 → ∀ u aux m,
      s.emitAux j (.reg 13) (BitVec.ofNat 3 (bitsOf y.data.toNat 11 9)) = (aux, u) →
      u.emitAll j (bitsOf y.data.toNat 14 12) (BitVec.ofNat 3 (bitsOf y.data.toNat 11 9)) aux (List.replicate (bitsOf y.data.toNat 8 6 + 1) 0)
        (some x.data.toNat) [bitsOf y.data.toNat 5 0] = .ok m → ∃ t, Runs (.hSend a b g) s t ∧ BlockGoesOn u t 1 m) ∧
    ((s.entry s.cell (bitsOf y.data.toNat 5 0)).takesPacket = false → exec (.hSend a b g) s = s.trapBlock 0x05 0)) ∧
  (∀ (e : DestF), e.takesPacket = true ↔ e.valid = true ∧ e.net ≠ 1 ∧ e.field = 0) ∧
  (∀ (s : State) b a f, (f ≠ 7 → s.emitAux b a f = (0, s)) ∧ s.emitAux b (.reg 8) 7 = (b.laux, s) ∧ s.emitAux b (.reg 9) 7 = (b.raux, s)) ∧
  (∀ keep g, Guarded (.hExitDone keep g) g 1 ∧ ∀ s, guardTrue s.blk g = true →
    ∃ t, Runs (.hExitDone keep g) s t ∧ BlockGoesOn s t 1 { s.blk with exiting := some keep }) ∧
  (∀ g, Guarded (.hExitDefer g) g 1 ∧ ∀ s, guardTrue s.blk g = true → Runs (.hExitDefer g) s ((s.abandon s.cell).touchCell s.cell)) ∧
  (∀ (s : State) c, ((s.abandon c).getCell c).block = none) ∧
  (∀ g, Guarded (.hExitFail g) g 1 ∧ ∀ s, guardTrue s.blk g = true → exec (.hExitFail g) s = s.trapBlock 0x07 0)

/-- R158 to R161: the tag operations, SYNC with its reply entry and PH.ERR's code, the fences and the clock words of handlers. TAG PARENT of a tag that is not live writes a free
value, for the spec states none (log 5). -/
def Obligations.HandlerTagsSyncAndClock : Prop :=
  (∀ d g, Guarded (.hTagLvl d g) g 1 ∧ ∀ s, guardTrue s.blk g = true →
    ∃ t, Runs (.hTagLvl d g) s t ∧ BlockGoesOn s t 1 (withT s.blk d (w64 (s.blk.lvl.setWidth 64)))) ∧
  (∀ g, Guarded (.hTagFree g) g 1 ∧ ∀ s, guardTrue s.blk g = true →
    ∃ t, Runs (.hTagFree g) s t ∧ BlockGoesOn s t 1 { s.blk with freeTag := true }) ∧
  (∀ g, Guarded (.hTagFreectx g) g 1 ∧ ∀ s, guardTrue s.blk g = true →
    (s.pool.ctxs.contains s.blk.ctx = true → ∃ t, Runs (.hTagFreectx g) s t ∧ BlockGoesOn s t 1 { s.blk with freeCtx := true }) ∧
    (s.pool.ctxs.contains s.blk.ctx = false → exec (.hTagFreectx g) s = s.trapBlock 0x45 0)) ∧
  (∀ d a g, Guarded (.hTagPool d a g) g 1 ∧ ∀ s x k, guardTrue s.blk g = true → s.opnd s.blk a = some (x, k) →
    (x.data.toNat < 8 → ∃ t, Runs (.hTagPool d a g) s t ∧ BlockGoesOn s t 1 (withT k d (w64
      (if x.data = 0 then 0 else BitVec.ofNat 64 (credit s.pool.tags k.ctx x.data.toNat).toNat)))) ∧
    (8 ≤ x.data.toNat → exec (.hTagPool d a g) s = s.trapBlock 0x04 0)) ∧
  (∀ d g, Guarded (.hTagParent d g) g 1 ∧ ∀ s, guardTrue s.blk g = true →
    (s.blk.lvl = 0 → ∃ t, Runs (.hTagParent d g) s t ∧ BlockGoesOn s t 1 (withT s.blk d (w64 0))) ∧
    (∀ e, s.blk.lvl ≠ 0 → findTag s.pool.tags s.blk.tag = some e →
      ∃ t, Runs (.hTagParent d g) s t ∧ BlockGoesOn s t 1 (withT s.blk d (w64 (e.parent.setWidth 64)))) ∧
    (s.blk.lvl ≠ 0 → findTag s.pool.tags s.blk.tag = none →
      ∃ t, Runs (.hTagParent d g) s t ∧ BlockGoesOn s.fresh.2 t 1 (withT s.blk d (w64 s.fresh.1)))) ∧
  (∀ d a b g reply f sc cmd, Guarded (.hSync d a b g reply f sc cmd) g 2 ∧ ∀ s x y k j, guardTrue s.blk g = true →
    s.opnd s.blk a = some (x, k) → s.opnd k b = some (y, j) →
    (∀ w u, s.reach (cellAgent s.cell) (s.cellVmid s.cell) x.data.toNat (if f = 0 then 8 else 4) (if f = 0 then 8 else 4) .rw (syncNeeds cmd) = .ok w u →
      u.replyOk reply = true → cmd ≠ 0x25 →
      ∃ t, Runs (.hSync d a b g reply f sc cmd) s t ∧ BlockGoesOn u t 2 { j with syncs := j.syncs ++ [⟨cmd, f, sc, w.flat, syncData f y.data,
        if cmd = 0x0B then syncData f j.t[d.toNat].data else 0, 0, u.cellVmid u.cell, u.replyTo j reply⟩] }) ∧
    (∀ w u, cmd = 0x25 → s.reach (cellAgent s.cell) (s.cellVmid s.cell) x.data.toNat (if f = 0 then 8 else 4) (if f = 0 then 8 else 4) .rw (syncNeeds cmd) = .ok w u →
      u.replyOk reply = true →
      (y.data.toNat % 256 ≠ 0 → ∃ t, Runs (.hSync d a b g reply f sc cmd) s t ∧ BlockGoesOn u t 2 { j with syncs := j.syncs ++
        [⟨cmd, f, sc, w.flat, BitVec.ofNat 64 (y.data.toNat % 256), 0, 0, u.cellVmid u.cell, u.replyTo j reply⟩] }) ∧
      (y.data.toNat % 256 = 0 → exec (.hSync d a b g reply f sc cmd) s = u.trapBlock 0x04 0)) ∧
    (∀ w u, s.reach (cellAgent s.cell) (s.cellVmid s.cell) x.data.toNat (if f = 0 then 8 else 4) (if f = 0 then 8 else 4) .rw (syncNeeds cmd) = .ok w u →
      u.replyOk reply = false → exec (.hSync d a b g reply f sc cmd) s = u.trapBlock 0x05 0) ∧
    (x.data.toNat < 2 ^ 56 → x.data.toNat % (if f = 0 then 8 else 4) ≠ 0 →
      exec (.hSync d a b g reply f sc cmd) s = s.trapBlock 0x22 x.data.toNat)) ∧
  (∀ g, Guarded (.hFenceSl g) g 1 ∧ ∀ s, guardTrue s.blk g = true →
    ∃ t, Runs (.hFenceSl g) s t ∧ BlockGoesOn s t 1 { s.blk with fenceSl := true }) ∧
  (∀ sc g, Guarded (.hFenceRel sc g) g 1 ∧ ∀ s, guardTrue s.blk g = true →
    ∃ t m, Runs (.hFenceRel sc g) s t ∧ BlockGoesOn s t 1 { s.blk with fenceRel := some m } ∧ sc.toNat ≤ m.toNat ∧
      (m = sc ∨ s.blk.fenceRel = some m) ∧ ∀ x, s.blk.fenceRel = some x → x.toNat ≤ m.toNat) ∧
  (∀ sc g, Guarded (.hFenceAcq sc g) g 1 ∧ ∀ s, guardTrue s.blk g = true →
    ∃ t, Runs (.hFenceAcq sc g) s t ∧ BlockGoesOn s t 1 { s.blk with fenceAcq := s.blk.fenceAcq || sc != 0 }) ∧
  (∀ d g, Guarded (.hLclk d g) g 1 ∧ ∀ s, guardTrue s.blk g = true →
    ∃ t, Runs (.hLclk d g) s t ∧ BlockGoesOn s t 1 (withT s.blk d (w64 (BitVec.ofNat 64 (s.getTile (cellTile s.cell)).spr.lclk.toNat)))) ∧
  (∀ a g, Guarded (.hLclkadv a g) g 1 ∧ ∀ s x k, guardTrue s.blk g = true → s.opnd s.blk a = some (x, k) →
    (x.data.toNat < 2 ^ 31 → ∃ t, Runs (.hLclkadv a g) s t ∧ BlockGoesOn s t 1 { k with lclkAdv := k.lclkAdv + x.data.toNat }) ∧
    (2 ^ 31 ≤ x.data.toNat → exec (.hLclkadv a g) s = s.trapBlock 0x04 0))

/-- A rendering word whose guard is false passes; with its operands at hand it does what `p` says. -/
def Sys2Proof.Claims.Word2Does (i : Instr) (a b : Opnd) (g : BitVec 4) (p : State → TVal → TVal → Block → Prop) : Prop :=
  Guarded i g 1 ∧ ∀ s x y k j, guardTrue s.blk g = true → s.opnd s.blk a = some (x, k) → s.opnd k b = some (y, j) → p s x y j

/-- A test word ends with its stack fitted into the ray window's image, which is a local store of the block, and `d` written (R263). -/
def Sys2Proof.Claims.Traces (i : Instr) (s u : State) (k : Block) (d : BitVec 3) (r : Ray) (w b : Nat) (best : Option (Nat × Nat)) (stack : List Nat)
    (v : Nat) : Prop :=
  ∀ stk j f, u.fit k r (if best.isSome then 4 else 6) stack = .ok stk j f →
    ∃ t, Runs i s t ∧ BlockGoesOn f t 1 (withT { j with lstores := putLocal j.lstores b 64 (imageOf w stk best) } d (w64 (BitVec.ofNat 64 v)))

/-- R263, R278 to R281, R287 to R289, R292: the rendering words: box and triangle tests on the ray window, barycentrics, dice rates, samples,
micropolygon tests and the ordered wait. -/
def Obligations.HandlerRendering : Prop :=
  (∀ c d a b g, Word2Does (if c then .hBoxt8Closest d a b g else .hBoxt8Any d a b g) a b g fun s x y k =>
    let r := rayOf s.rayWindow
    let va := (x.data.toNat + 128 * bitsOf r.top 26 0) % 2 ^ 64
    (∀ n u, r.check false c x.data.toNat y.data.toNat 128 = none → s.hPieces k va 8 = .val n u → nodeBad n = false →
      Traces (if c then .hBoxt8Closest d a b g else .hBoxt8Any d a b g) s u k d r r.win y.data.toNat
        (if c then some (r.entry 4, r.entry 5) else none) (r.below ++ (boxOrder n r).reverse.map (childEntry n)) (boxResult (boxOrder n r))) ∧
    (∀ n u, r.check false c x.data.toNat y.data.toNat 128 = none → s.hPieces k va 8 = .val n u → nodeBad n = true →
      exec (if c then .hBoxt8Closest d a b g else .hBoxt8Any d a b g) s = u.trapBlock 0x08 va)) ∧
  (∀ d a b g, Word2Does (.hTritAny d a b g) a b g fun s x y k =>
    let r := rayOf s.rayWindow
    ∀ v u, r.check true false x.data.toNat y.data.toNat 16 = none →
      s.hPieces k ((x.data.toNat + 48 * bitsOf r.top 26 0) % 2 ^ 64) 3 = .val v u → triBad v = false →
      Traces (.hTritAny d a b g) s u k d r r.win y.data.toNat none r.rest (hitResult (triHit r v))) ∧
  (∀ d a b g, Word2Does (.hTritClosest d a b g) a b g fun s x y k =>
    let r := rayOf s.rayWindow
    ∀ v u, r.check true true x.data.toNat y.data.toNat 16 = none →
      s.hPieces k ((x.data.toNat + 48 * bitsOf r.top 26 0) % 2 ^ 64) 3 = .val v u → triBad v = false → r.accepts v (triHit r v) = none →
      Traces (.hTritClosest d a b g) s u k d r r.win y.data.toNat (some (r.entry 4, r.entry 5)) r.rest (hitResult none)) ∧
  (∀ d a b g, Word2Does (.hTritBary d a b g) a b g fun s x y k =>
    let r := rayOf s.rayWindow
    r.sp ≤ 4 → x.data.toNat % 16 = 0 → y.data.toNat % 64 = 0 → 0x4000 ≤ y.data.toNat → y.data.toNat ≤ 0x17F80 → r.entry 5 = 0 →
      ∃ t, Runs (.hTritBary d a b g) s t ∧
        BlockGoesOn s t 1 (withT { k with lstores := putLocal k.lstores y.data.toNat 64 r.win } d (w64 0))) ∧
  (∀ d a b g, Word2Does (.hDicer d a b g) a b g fun s x y k =>
    x.data.toNat % 16 = 0 → 0x4000 ≤ x.data.toNat → x.data.toNat + 32 ≤ 0x18000 → y.data.toNat < 2 ^ 32 →
    (fp32.decode y.data.toNat).finite = true → (fp32.decode y.data.toNat).above0 = true →
      ∃ t, Runs (.hDicer d a b g) s t ∧ BlockGoesOn s t 1 (withT k d (w64 (BitVec.ofNat 64
        (dicerOf (s.localRead k x.data.toNat 32) (fp32.decode y.data.toNat)))))) ∧
  (∀ d a b g, Word2Does (.hSamptTu d a b g) a b g fun s x y k =>
    (x.data.toNat < 2 ^ 38 → y.data.toNat < 2 ^ 32 → ∃ t, Runs (.hSamptTu d a b g) s t ∧ BlockGoesOn s t 1 (withT k d
      ⟨BitVec.ofNat 64 (sampleVal x.data.toNat y.data.toNat 1 3 15 * 2 ^ 32 + sampleVal x.data.toNat y.data.toNat 0 2 24), 2⟩)) ∧
    (2 ^ 38 ≤ x.data.toNat → exec (.hSamptTu d a b g) s = s.trapBlock 0x04 0)) ∧
  (∀ d a b g, Word2Does (.hSamptV d a b g) a b g fun s x y k =>
    x.data.toNat < 2 ^ 38 → y.data.toNat < 2 ^ 32 → ∃ t, Runs (.hSamptV d a b g) s t ∧ BlockGoesOn s t 1 (withT k d
      ⟨BitVec.ofNat 64 (sampleVal x.data.toNat y.data.toNat 2 5 10), 2⟩)) ∧
  (∀ d a b g, Word2Does (.hMptest d a b g) a b g fun s x y k =>
    x.data.toNat % 16 = 0 → 0x4000 ≤ x.data.toNat → x.data.toNat + 96 ≤ 0x18000 →
    y.data.toNat % 16 = 0 → 0x4000 ≤ y.data.toNat → y.data.toNat + 16 ≤ 0x18000 →
      ∃ t, Runs (.hMptest d a b g) s t ∧ BlockGoesOn s t 1 (withT k d (w64 (BitVec.ofNat 64
        (mpTest (s.localRead k x.data.toNat 96) (s.localRead k y.data.toNat 16)))))) ∧
  (∀ d a b g, Word2Does (.hSeqw d a b g) a b g fun s x y k =>
    x.data.toNat % 4 = 0 → 0x4000 ≤ x.data.toNat → x.data.toNat + 4 ≤ 0x18000 →
    let ahead := (y.data.toNat % 2 ^ 32 + 2 ^ 32 - s.localRead k x.data.toNat 4) % 2 ^ 32
    (ahead = 0 → ∃ t, Runs (.hSeqw d a b g) s t ∧ BlockGoesOn s t 1 (withT k d (w64 1))) ∧
    (0 < ahead → ahead < 2 ^ 31 → Runs (.hSeqw d a b g) s ((s.abandon s.cell).touchCell s.cell)) ∧
    (2 ^ 31 ≤ ahead → exec (.hSeqw d a b g) s = s.trapBlock 0x0A 0))

/-- An atomic of a code is the next its home performs (R46, R218, R238): its turn has come, its format is the code's, the reply has room, its
line is in the Concordance or finds room there, and no rebase stands in the way. -/
def Sys2Proof.Claims.AtomicDue (s : State) (k code : Nat) (m : Msg) (c : SyncCmd) (d : Die) : Prop :=
  let die := homeDie c.addr
  let line := c.addr / 64 * 64
  let u := s.fillLine line
  s.msgs[k]? = some m ∧ m.kind = .cmd c ∧ m.die = die ∧ c.code.toNat = code ∧ s.homeTurn k m c.addr = .go ∧ s.roomBack die m.agent 0 = true ∧
  atomicFmtOk (code % 0x80) c.fmt = true ∧ (c.fmt ≠ 0 → c.a.toNat < 2 ^ 32 ∧ c.b.toNat < 2 ^ 32) ∧ (s.getDie die).heldOut.contains line = false ∧
  u.writeTs line c.aux < 2 ^ 32 ∧
  Die.take { u.getDie die with held := if (u.getDie die).held.contains line then (u.getDie die).held else line :: (u.getDie die).held } (lineKey line) = some d ∧
  Memory.wf s.mem = true

/-- What an atomic does: its bytes take the new value and no other byte changes; the line's timestamps take the write's; the message is gone and
its answer is on its way: the old value, to whatever reply the command names (a command with none still brings its timestamp back), or a bare
acknowledgement for a RED form, which needs no reply (R46, R218, R238). -/
def Sys2Proof.Claims.Atomic (mk : Nat → Nat → Instr) (code : Nat) (f : Nat → Nat → Nat → Nat → Nat → Nat → Nat) : Prop :=
  ∀ s k m c d, AtomicDue s k code m c d →
    let n := if c.fmt = 0 then 8 else 4
    let u := s.fillLine (c.addr / 64 * 64)
    let ts := BitVec.ofNat 32 (u.writeTs (c.addr / 64 * 64) c.aux)
    let old := memRead s.mem c.addr n
    let new := f n c.addr (s.reg (homeDie c.addr) 0x520).toNat old (c.a.toNat % 2 ^ (8 * n)) (c.b.toNat % 2 ^ (8 * n))
    ∃ t a, Runs (mk (homeDie c.addr) k) s t ∧ (∀ b, (b < c.addr ∨ c.addr + n ≤ b) → memByte t.mem b = memByte s.mem b) ∧
      (∀ i, i < n → memByte t.mem (c.addr + i) = BitVec.ofNat 8 (new / 256 ^ i)) ∧ t.lineTs (c.addr / 64 * 64) = (ts, ts) ∧
      t.tiles = s.tiles ∧ t.cells = s.cells ∧ t.launches = s.launches ∧ t.msgs = removeAt s.msgs k ++ [a] ∧ a.agent = m.agent ∧ a.run = m.run ∧
      a.kind = if 0x80 ≤ code then .redAck ts else .rep c.reply c.code c.fmt true (BitVec.ofNat 64 old) ts none

/-- The signed reading of `n` bytes. -/
def Sys2Proof.Claims.sgnB (n v : Nat) : Int := sgn (8 * n) v

/-- R218, R238 to R241: every atomic and its RED form at the Concordance: the new value of its word, which bytes change, and the answer. -/
def Obligations.ConcordanceAtomics : Prop :=
  Atomic .cmdAdd 0x01 (fun n _ _ o a _ => (o + a) % 2 ^ (8 * n)) ∧ Atomic .cmdRedAdd 0x81 (fun n _ _ o a _ => (o + a) % 2 ^ (8 * n)) ∧
  Atomic .cmdSub 0x02 (fun n _ _ o a _ => (o + 2 ^ (8 * n) - a) % 2 ^ (8 * n)) ∧
  Atomic .cmdRedSub 0x82 (fun n _ _ o a _ => (o + 2 ^ (8 * n) - a) % 2 ^ (8 * n)) ∧
  Atomic .cmdAnd 0x03 (fun _ _ _ o a _ => o &&& a) ∧ Atomic .cmdRedAnd 0x83 (fun _ _ _ o a _ => o &&& a) ∧
  Atomic .cmdOr 0x04 (fun _ _ _ o a _ => o ||| a) ∧ Atomic .cmdRedOr 0x84 (fun _ _ _ o a _ => o ||| a) ∧
  Atomic .cmdXor 0x05 (fun _ _ _ o a _ => o ^^^ a) ∧ Atomic .cmdRedXor 0x85 (fun _ _ _ o a _ => o ^^^ a) ∧
  Atomic .cmdMin 0x06 (fun n _ _ o a _ => if sgnB n o ≤ sgnB n a then o else a) ∧
  Atomic .cmdRedMin 0x86 (fun n _ _ o a _ => if sgnB n o ≤ sgnB n a then o else a) ∧
  Atomic .cmdMax 0x07 (fun n _ _ o a _ => if sgnB n o ≤ sgnB n a then a else o) ∧
  Atomic .cmdRedMax 0x87 (fun n _ _ o a _ => if sgnB n o ≤ sgnB n a then a else o) ∧
  Atomic .cmdMinu 0x08 (fun _ _ _ o a _ => min o a) ∧ Atomic .cmdRedMinu 0x88 (fun _ _ _ o a _ => min o a) ∧
  Atomic .cmdMaxu 0x09 (fun _ _ _ o a _ => max o a) ∧ Atomic .cmdRedMaxu 0x89 (fun _ _ _ o a _ => max o a) ∧
  Atomic .cmdXchg 0x0A (fun _ _ _ _ a _ => a) ∧ Atomic .cmdCas 0x0B (fun _ _ _ o a b => if o = a then b else o) ∧
  Atomic .cmdFadd 0x0C (fun _ _ _ o a _ => atomicFadd o a) ∧ Atomic .cmdRedFadd 0x8C (fun _ _ _ o a _ => atomicFadd o a) ∧
  Atomic .cmdH2addSr 0x0D (fun _ p cnt o a _ => atomicH2add p cnt o a) ∧
  Atomic .cmdRedH2addSr 0x8D (fun _ p cnt o a _ => atomicH2add p cnt o a)

/-- A command of a code at a die whose turn among its agent's commands has come. -/
def Sys2Proof.Claims.CmdDue (s : State) (die k code : Nat) (m : Msg) (c : SyncCmd) : Prop :=
  s.msgs[k]? = some m ∧ m.kind = .cmd c ∧ m.die = die ∧ c.code.toNat = code ∧ m.arrived = true ∧
  s.noneBefore k (fun e => e.arrived && e.agent == m.agent && e.die == m.die && e.kind.cmd?.isSome) = true ∧ s.roomBack die m.agent 3 = true ∧ c.fmt = 0

/-- A phaser command whose record is in the Concordance. -/
def Sys2Proof.Claims.PhDue (s : State) (die k code : Nat) (m : Msg) (c : SyncCmd) (p : Phaser) : Prop :=
  CmdDue s die k code m c ∧ (syncPlace c.addr).2 < 0x80000000 ∧ smFind (s.getDie die).phasers (syncPlace c.addr).2 = some p ∧ p.spilled = false

/-- The command is answered with its phaser written as `q` (which completes what phases it makes complete, R247). -/
def Sys2Proof.Claims.PhAnswers (i : Instr) (s : State) (die k : Nat) (m : Msg) (c : SyncCmd) (q : Phaser) : Prop :=
  ∀ d, ((s.modDie die fun d => { d with phasers := smPut d.phasers (syncPlace c.addr).2 q }).getDie die).take (phKey (syncPlace c.addr).2) = some d →
    Runs i s ((((s.dropMsg k).modDie die fun _ => d).putPhaser die (syncPlace c.addr).2 q).reply m c true 0 0 none)

/-- The command joins the wait list of its phaser, and every waiter that is due is answered (R247, R248). -/
def Sys2Proof.Claims.PhJoins (i : Instr) (s : State) (die k : Nat) (m : Msg) (c : SyncCmd) (q : Phaser) : Prop :=
  ∀ d, ((s.modDie die fun d => { d with phasers := smPut d.phasers (syncPlace c.addr).2 (q.join m c) }).getDie die).take
      (phKey (syncPlace c.addr).2) = some d →
    Runs i s ((((s.dropMsg k).modDie die fun _ => d).putPhaser die (syncPlace c.addr).2 (q.join m c)).answerWaiters die (syncPlace c.addr).2)

/-- R245 to R250: what each phaser command does to its record, and that a command on a missing record faults with 0x89, one without membership
with 0x86. -/
def Sys2Proof.Claims.PhaserCommands : Prop :=
  (∀ s die k m c p, PhDue s die k 0x20 m c p → p.member m.agent = none → c.a.toNat = 1 → p.nsig.toNat + p.nsw.toNat ≠ 0 →
    PhAnswers (.cmdPhReg die k) s die k m c
      { p with members := p.members ++ [⟨m.agent, 1, p.phase + 1, none, none⟩], nsig1 := p.nsig1 + 1 }) ∧
  (∀ s die k m c p, PhDue s die k 0x20 m c p → (p.member m.agent).isSome = true → Runs (.cmdPhReg die k) s (s.cmdFault k m c 0x86)) ∧
  (∀ s die k m c p e, PhDue s die k 0x21 m c p → p.member m.agent = some e → e.dropAt = none → e.mode = 2 →
    PhAnswers (.cmdPhDrop die k) s die k m c (p.modMember m.agent fun x => { x with dropAt := some p.phase })) ∧
  (∀ s die k m c p, PhDue s die k 0x21 m c p → p.member m.agent = none → Runs (.cmdPhDrop die k) s (s.cmdFault k m c 0x86)) ∧
  (∀ s die k m c p q e, PhDue s die k 0x22 m c p → p.bind m.agent true false = some q → q.member m.agent = some e → e.next = q.phase →
    PhAnswers (.cmdPhSig die k) s die k m c (({ q with arr0 := q.arr0 + 1, whw0 := tsMax q.whw0 (c.a.extractLsb' 32 32) } : Phaser).modMember
      m.agent fun x => { x with next := x.next + 1 })) ∧
  (∀ s die k m c p, PhDue s die k 0x22 m c p → p.bind m.agent true false = none → Runs (.cmdPhSig die k) s (s.cmdFault k m c 0x86)) ∧
  (∀ s die k m c p q, PhDue s die k 0x23 m c p → p.bind m.agent false true = some q → PhJoins (.cmdPhWait die k) s die k m c q) ∧
  (∀ s die k m c p, PhDue s die k 0x23 m c p → p.bind m.agent false true = none → Runs (.cmdPhWait die k) s (s.cmdFault k m c 0x86)) ∧
  (∀ s die k m c p q e, PhDue s die k 0x24 m c p → p.bind m.agent true true = some q → q.member m.agent = some e → e.next = q.phase →
    PhJoins (.cmdPhSw die k) s die k m c (({ q with arr0 := q.arr0 + 1, whw0 := tsMax q.whw0 (c.a.extractLsb' 32 32) } : Phaser).modMember
      m.agent fun x => { x with next := x.next + 1 })) ∧
  (∀ s die k m c p q e, PhDue s die k 0x24 m c p → p.bind m.agent true true = none → p.bind m.agent true false = some q →
    q.member m.agent = some e → e.next = q.phase → Runs (.cmdPhSw die k) s ((s.putPhaser die (syncPlace c.addr).2
      (({ q with arr0 := q.arr0 + 1, whw0 := tsMax q.whw0 (c.a.extractLsb' 32 32) } : Phaser).modMember
        m.agent fun x => { x with next := x.next + 1 })).cmdFault k m c 0x86)) ∧
  (∀ s die k m c p, PhDue s die k 0x25 m c p → Runs (.cmdPhErr die k) s
    ((((s.dropMsg k).modDie die fun d => ({ d with phasers := smPut d.phasers (syncPlace c.addr).2 p } : Die).use (phKey (syncPlace c.addr).2)).phaserError
      die (syncPlace c.addr).2 (c.a.setWidth 8)).reply m c true 0 0 none)) ∧
  (∀ s die k m c p, PhDue s die k 0x26 m c p → c.reply ≠ .none →
    ∃ t a, Runs (.cmdPhRead die k) s t ∧ t.msgs = removeAt s.msgs k ++ [a] ∧ a.kind = .rep c.reply c.code c.fmt true 0 0 (some p.record) ∧
      (∀ b, memByte t.mem b = memByte s.mem b) ∧ t.launches = s.launches ∧ (t.getDie die).phasers = (s.getDie die).phasers) ∧
  (∀ s die k m c, CmdDue s die k 0x22 m c → (syncPlace c.addr).2 < 0x80000000 → smFind (s.getDie die).phasers (syncPlace c.addr).2 = none →
    Runs (.cmdPhSig die k) s (s.cmdFault k m c 0x89))

/-- R247, R249: a completion moves the phase on by one, takes the counts of the next phase, and keeps the largest WHW; PH.ERR sets the error
code it carries and, once, the first error. -/
def Sys2Proof.Claims.PhaseCompletes : Prop :=
  ∀ (p : Phaser) (time : BitVec 64) (err : BitVec 8), (∀ m ∈ p.members, m.dropAt ≠ some p.phase ∧ m.held = none) →
    let q := p.complete time err
    q.phase = p.phase + 1 ∧ q.nsig = p.nsig1 ∧ q.nwait = p.nwait1 ∧ q.nsw = p.nsw1 ∧ q.arr0 = p.arr1 ∧ q.arr1 = 0 ∧ q.whw0 = p.whw1 ∧
    q.whw1 = 0 ∧ q.lerr = err ∧ q.ferr = (if p.ferr = 0 then err else p.ferr) ∧ q.whw = tsMax p.whw p.whw0 ∧ q.ctime = time ∧
    q.members.length = p.members.length ∧ q.waiters = p.waiters

/-- R245 to R250: what every phaser command does, and what completing a phase leaves. -/
def Obligations.Phasers : Prop := Claims.PhaserCommands ∧ Claims.PhaseCompletes

/-- R237, R252 to R257: the queue commands at the Granary, the return of an overflowed content, widening, the prefetch buffer, and the reply
that completes a waiting agent. -/
def Obligations.GranaryCommands : Prop :=
  (∀ s die k m c, CmdDue s die k 0x30 m c → (s.queue die (queuePlace c.addr).2).state = 1 → (s.queue die (queuePlace c.addr).2).kind.toNat ≤ 1 →
    (s.queue die (queuePlace c.addr).2).vmid = c.vmid →
    Runs (.cmdQRsv die k) s (((s.nextStamp.2.dropMsg k).setQueue die (queuePlace c.addr).2
      { s.queue die (queuePlace c.addr).2 with rsvWait := (s.queue die (queuePlace c.addr).2).rsvWait ++ [⟨m.agent, m.owner, agentTile m.agent, s.stamp⟩] }).serveQueue
      die (queuePlace c.addr).2)) ∧
  (∀ s die k m c, CmdDue s die k 0x30 m c → (s.queue die (queuePlace c.addr).2).state ≠ 1 → Runs (.cmdQRsv die k) s (s.cmdFault k m c 0x85)) ∧
  (∀ s die k m c q, CmdDue s die k 0x31 m c → (s.getDie die).rsvOf ((c.addr - stageFlat die 0) / 64) = some q →
    let slot := (c.addr - stageFlat die 0) / 64
    let u := (s.dropMsg k).setQueue die q { s.queue die q with rsvs := smDel (s.queue die q).rsvs slot }
    Runs (.cmdQAdd die k) s (((u.nextStamp.2.placeRec die q ⟨BitVec.ofNat 512 (memRead s.mem (stageFlat die slot) 64), c.b.setWidth 32, c.scope,
      m.agent, m.since, s.rebases.setWidth 8, slot, s.stamp, false⟩).serveQueue die q).reply m c true 0 0 none)) ∧
  (∀ s die k m c, CmdDue s die k 0x31 m c → (s.getDie die).rsvOf ((c.addr - stageFlat die 0) / 64) = none →
    Runs (.cmdQAdd die k) s (s.cmdFault k m c 0x84)) ∧
  (∀ s die k m c, CmdDue s die k 0x32 m c → (s.queue die (queuePlace c.addr).2).state ≠ 0 → (s.queue die (queuePlace c.addr).2).kind = 0 →
    (s.queue die (queuePlace c.addr).2).vmid = c.vmid →
    Runs (.cmdQTake die k) s (((s.nextStamp.2.dropMsg k).setQueue die (queuePlace c.addr).2
      { s.queue die (queuePlace c.addr).2 with takers := (s.queue die (queuePlace c.addr).2).takers ++ [⟨m.agent, m.owner, agentTile m.agent, s.stamp⟩] }).serveQueue
      die (queuePlace c.addr).2)) ∧
  (∀ (s : State) die q, (s.queue die q).kind ≠ 1 → ∀ r, s.placeRec die q r = s.setQueue die q { s.queue die q with recs := (s.queue die q).recs ++ [r] }) ∧
  (∀ s die k key d, s.concWant die = some (k, key) → ((s.getDie die).unspill key).take key = some d →
    Runs (.overflowReturn die false) s (s.modDie die fun _ => d)) ∧
  (∀ s die q r more slot d, (s.getDie die).granWant = some q → (s.queue die q).recs = r :: more →
    (s.fresh.2.getDie die).takeSlot s.fresh.1.toNat = .slot slot d → d.queue q = s.queue die q →
    Runs (.overflowReturn die true) s (((s.fresh.2.modDie die fun _ => d).nextStamp.2.setQueue die q
      { s.queue die q with recs := { r with spilled := false, slot := slot, stamp := s.stamp } :: more }).serveQueue die q)) ∧
  (∀ s die q r more wide, (s.queue die q).recs = r :: more → r.scope.toNat < (if wide then 2 else 1) →
    s.producerDone r.agent (if wide then 2 else 1) r.added = true →
    Runs (.releaseWiden die q wide) s ((s.setQueue die q
      { s.queue die q with recs := { r with scope := if wide then 2 else 1 } :: more }).serveQueue die q)) ∧
  (∀ s die q tile r more, (s.queue die q).recs = r :: more → (s.getTile tile).pre.queue = some (die * 2 ^ 16 + q) →
    (s.getTile tile).owner.isSome = true → (s.getTile tile).pre.recs.length < 2 → (s.queue die q).takers = [] → r.spilled = false →
    recInScope r tile = true →
    Runs (.prefetchFill die q tile) s (((s.setQueue die q { s.queue die q with recs := more }).modTile tile fun t =>
      { t with pre := { t.pre with recs := t.pre.recs ++ [{ r with slot := slotCount }] } }).serveQueue die q)) ∧
  (∀ s tile, (s.getTile tile).pre.recs ≠ [] → 4096 ≤ s.clk - (s.getTile tile).pre.age →
    ∃ t, Runs (.prefetchReturn tile) s t ∧ (t.getTile tile).pre = ⟨(s.getTile tile).pre.queue, [], s.clk⟩)

/-- The lead tile of a unit that may issue from its table, and the oldest entry that can issue there (R77, R78). -/
def Sys2Proof.Claims.DepDue (s : State) (tile u : Nat) (l : Launch) (e : Nat) (x : DepEnt) : Prop :=
  s.owner? tile = some u ∧ s.launch? u = some l ∧ l.issues = true ∧ l.region.head? = some tile ∧
  oldestDep ((s.getTile tile).deps.filter fun f => s.depCan tile l ((s.getTile tile).deps.any fun f => f.2.rearmed) f.1 f.2) (fun _ => true) =
    some (e, x)

/-- R77, R78, R229, R357: the table issues its oldest ready entry that can issue, checking only now what it captured; an entry that has performed is
DONE, each of its successors is owed one less, takes its write high-water, and a stream among them reads no earlier than its predecessor's writes.
That a run raises its region's clocks by what its predecessors wrote, and that an issue counts as activity, is the model's choice (log 141). -/
def Obligations.DependenceEvents : Prop :=
  (∀ tile s u l e x c p t, DepDue s tile u l e x → x.step = .stream c p t →
    (c.bad t = none → ∃ n, Runs (.depIssue tile) s n ∧ smFind (n.getTile tile).deps e = some { x with state := .issued, rearmed := false } ∧
      ((n.getTile t).port p).entries.length = ((s.getTile t).port p).entries.length + 1 ∧ (∀ a, memByte n.mem a = memByte s.mem a)) ∧
    (∀ cause, c.bad t = some cause → Runs (.depIssue tile) s (s.faultLaunch u cause tile 0))) ∧
  (∀ tile s u l e x idx cfg, DepDue s tile u l e x → x.step = .run idx → s.config? l idx.toNat = some cfg →
    (l.activeCfg = some idx.toNat →
      let r := l.region.foldl (fun s t => s.raiseLclk t x.before) (s.startRun u)
      Runs (.depIssue tile) s ((r.setDep tile e { x with state := .issued, run := r.runOf u, rearmed := false }).touch u)) ∧
    (l.activeCfg ≠ some idx.toNat → Runs (.depIssue tile) s ((s.faultLaunch u 0x65 tile 0).touch u))) ∧
  (∀ tile s u l e x va sc, DepDue s tile u l e x → x.step = .signal va sc →
    Runs (.depIssue tile) s ((s.depSignal tile e l x va sc).2.touch u)) ∧
  (∀ tile s u l, s.owner? tile = some u → s.launch? u = some l → l.issues = true → l.region.head? = some tile →
    (∀ f ∈ (s.getTile tile).deps, s.depCan tile l ((s.getTile tile).deps.any fun f => f.2.rearmed) f.1 f.2 = false) →
    Runs (.depIssue tile) s (s.depAsk tile l)) ∧
  (∀ tile e s u l x, smFind (s.getTile tile).deps e = some x → s.owner? tile = some u → s.launch? u = some l → x.state = .issued →
    (∀ c p t, x.step = .stream c p t → x.performed = true → s.flowsAcked l.region false = true →
      Runs (.depPerformed tile e) s (s.modTile tile fun y => y.depDoneAt e x x.hw)) ∧
    (∀ va sc, x.step = .signal va sc → x.performed = true →
      Runs (.depPerformed tile e) s (s.modTile tile fun y => y.depDoneAt e x x.hw)) ∧
    (∀ idx, x.step = .run idx → l.runLives x.run = false → s.runSettled u l x.run = true →
      Runs (.depPerformed tile e) s ((s.modTile tile fun y => y.depDoneAt e x (smGet 0 l.runHis x.run)).modLaunch u fun l =>
        { l with runHis := smDel l.runHis x.run }))) ∧
  (∀ (t : Tile) i e hw j f, e.succ = [j] → i ≠ j → smFind t.deps j = some f →
    smFind (t.depDoneAt i e hw).deps i = some { e with state := .done, hw := hw } ∧
    ∃ g, smFind (t.depDoneAt i e hw).deps j = some g ∧ g.count = f.count - 1 ∧ g.state = f.state ∧
      g.before = tsMax f.before (tsMax hw e.before) ∧
      ∀ c p k, f.step = .stream c p k → g.step = .stream { c with lclk := tsMax c.lclk (tsMax hw e.before) } p k)

/-- A reply at its agent's die whose turn has come. -/
def Sys2Proof.Claims.ReplyDue (s : State) (k : Nat) (m : Msg) (dst : ReplyTo) (code : BitVec 8) (fmt : BitVec 3) (ok : Bool) (data : Word)
    (time : BitVec 32) (line : Option (BitVec 512)) : Prop :=
  s.msgs[k]? = some m ∧ m.kind = .rep dst code fmt ok data time line ∧ m.arrived = true ∧ s.isFrozen m.owner = false ∧
  s.replyFirst k m (replyCls code.toNat) = true

/-- R48, R227: a reply completes the waiting step of its sequencer, with an atomic's timestamp taken into LCLK and the store high-water; at a
cell it is a token of the requester's tag in the slot and field its reply entry names, and the tile's LCLK takes its hand-off time. An atomic's
timestamp reaches its requester even where the command named no reply (R218). -/
def Obligations.EngineReplies : Prop :=
  (∀ k s m tile code fmt data time line p e, ReplyDue s k m (.seq tile) code fmt true data time line →
    (s.getTile tile).owner = some m.owner → (s.getTile tile).wait = some (.reply p e) → agentTile m.agent = tile → agentIsSeq m.agent = true →
    ∃ t, Runs (.concordanceReply k) s t ∧ t.msgs = removeAt s.msgs k ∧ (t.getTile tile).reply = some ⟨code, true, data, time, line⟩ ∧
      (t.getTile tile).wait = some (.poll p) ∧ (t.getTile tile).a = (s.getTile tile).a ∧ (∀ a, memByte t.mem a = memByte s.mem a) ∧
      (t.getTile tile).spr.lclk = (if atomicCode code.toNat then tsMax (s.getTile tile).spr.lclk time else (s.getTile tile).spr.lclk) ∧
      (t.getTile tile).hiWater = if atomicCode code.toNat then tsMax (s.getTile tile).hiWater time else (s.getTile tile).hiWater) ∧
  (∀ k s m dest slot field ctx iter lvl code fmt ok data time line,
    ReplyDue s k m (.cell dest slot field ctx iter lvl) code fmt ok data time line → s.owner? (cellTile (destCell dest)) = some m.owner →
    s.placesFor [replyTok dest slot field ⟨ctx, iter, lvl⟩ fmt ok data m.owner] = true →
    ∃ t x, Runs (.concordanceReply k) s t ∧ t.msgs = removeAt s.msgs k ∧ t.net = s.net ++ [x] ∧
      (t.getTile (cellTile (destCell dest))).spr.lclk = tsMax (s.getTile (cellTile (destCell dest))).spr.lclk time ∧
      (atomicCode code.toNat = true → m.held = false → s.owner? (agentTile m.agent) = some m.owner → agentIsSeq m.agent = false →
        (t.getTile (agentTile m.agent)).spr.lclk = tsMax (s.getTile (agentTile m.agent)).spr.lclk time ∧
        t.hiOf m.agent = tsMax (s.hiOf m.agent) time) ∧
      x.pos = destCell dest ∧ x.tok.slot = slot ∧ x.tok.field = field ∧ x.tok.ctx = ctx ∧ x.tok.iter = iter ∧ x.tok.lvl = lvl ∧
      x.tok.fmt = fmt ∧ x.tok.data = data ∧ x.tok.aux = (if ok then 0x40 else 0x41) ∧ (∀ a, memByte t.mem a = memByte s.mem a)) ∧
  (∀ k s m code fmt ok data time line, ReplyDue s k m .none code fmt ok data time line → atomicCode code.toNat = true →
    s.owner? (agentTile m.agent) = some m.owner →
    ∃ t, Runs (.concordanceReply k) s t ∧ t.msgs = removeAt s.msgs k ∧ t.hiOf m.agent = tsMax (s.hiOf m.agent) time ∧
      t.lclk (agentTile m.agent) = tsMax (s.lclk (agentTile m.agent)) time ∧ ∀ a, memByte t.mem a = memByte s.mem a) ∧
  (∀ k s m tile e x code fmt ok data time line, ReplyDue s k m (.dep tile e) code fmt ok data time line →
    smFind (s.getTile tile).deps e = some x →
    ∃ t, Runs (.concordanceReply k) s t ∧ t.msgs = removeAt s.msgs k ∧ (t.getTile tile).deps = smPut (s.getTile tile).deps e { x with performed := ok })

/-- R234, R235: a packet between dies is delivered once, in its turn (a class-1 packet that is not in order when it arrives), behind the messages
that arrived before it, or, a stream access, where its target then lets it perform; its flow then wants the next number that has not arrived; an acknowledgement covers all that was delivered in order. -/
def Obligations.FlowsBetweenDies : Prop :=
  (∀ k s m r, s.msgs[k]? = some m → m.flow = some r → m.arrived = false → s.mayArrive r m.kind.inOrder = true →
    (∀ pn mk ty h f n d c o, m.kind ≠ .streamWr pn mk ty h f n d c o) → (∀ pn key b ty h f n o, m.kind ≠ .streamReq pn key b ty h f n o) →
    (∀ f n w d, m.kind ≠ .accessRep f n w d) →
    ∃ t, Runs (.flowPacketArrive k) s t ∧ t.msgs = removeAt s.msgs k ++ [{ m with arrived := true }] ∧ t.flow r.flow = (s.flow r.flow).deliver r.seq ∧
      t.tiles = s.tiles ∧ t.cells = s.cells ∧ t.mem = s.mem ∧ t.net = s.net) ∧
  (∀ k s m pn key bytes ty home flat lim o u, s.msgs[k]? = some m → m.kind = .streamReq pn key bytes ty home flat lim o → m.arrived = true →
    (s.landTurn k m ty flat = .go → s.serveRead pn key ⟨0, bytes⟩ ty home flat lim m.agent m.owner o = .done u →
      Runs (.flowPacketArrive k) s (u.dropMsg k)) ∧
    (s.landTurn k m ty flat = .queue → Runs (.flowPacketArrive k) s (s.queueMsg k))) ∧
  (∀ k s m pn mask ty home flat n d clk o u, s.msgs[k]? = some m → m.kind = .streamWr pn mask ty home flat n d clk o → m.arrived = true →
    ty ≠ 1 → ty ≠ 2 →
    (s.landTurn k m ty flat = .go → s.streamLand (pn / 4) (pn % 4) m.agent m.owner m.run ty flat mask d clk = some u →
      Runs (.flowPacketArrive k) s ((u.dropMsg k).modHead (pn / 4) (pn % 4) m.owner fun c => { c with waiting := c.waiting - 1 })) ∧
    (s.landTurn k m ty flat = .queue → Runs (.flowPacketArrive k) s (s.queueMsg k))) ∧
  (∀ k s j x r, s.msgs.length + j = k → s.net[j]? = some x → x.flow = some r → x.arrived = false → r.seq = (s.flow r.flow).want → 
    ∃ t, Runs (.flowPacketArrive k) s t ∧ t.net = listSet s.net j { x with pos := destCell x.tok.dest, arrived := true } ∧
      t.flow r.flow = (s.flow r.flow).deliver r.seq ∧ t.mem = s.mem) ∧
  (∀ k s, (s.flow k).acked ≠ (s.flow k).want →
    ∃ t, Runs (.flowAck k) s t ∧ (t.flow k).acked = (s.flow k).want ∧ (t.flow k).next = (s.flow k).next ∧ (t.flow k).want = (s.flow k).want ∧
      t.msgs = s.msgs ∧ t.mem = s.mem) ∧
  (∀ (f : Flow) (q : BitVec 16), f.early = [] → q = f.want → (f.deliver q).want = f.want + 1 ∧ (f.deliver q).early = []) ∧
  (∀ (f : Flow) (q : BitVec 16), q ≠ f.want → (f.deliver q).want = f.want ∧ q ∈ (f.deliver q).early)

/-- A home's answer: the message is gone and `a` is on its way to its agent; no tile, cell, launch or byte of memory changes but those named. -/
def Sys2Proof.Claims.HomeAnswers (s t : State) (k : Nat) (m : Msg) (kind : MsgKind) : Prop :=
  t.tiles = s.tiles ∧ t.cells = s.cells ∧ t.launches = s.launches ∧ t.net = s.net ∧
  ∃ a, t.msgs = removeAt s.msgs k ++ [a] ∧ a.kind = kind ∧ a.agent = m.agent ∧ a.owner = m.owner

/-- R216, R217, R219, R222: a home answers a miss or renewal with the line's timestamps, rts raised to t + LEASE, and its bytes unless the
requester holds the same version; a store performs with ts = max(t, rts + 1), writes its bytes and no others, and the line's wts and rts become
ts; an update past 0xFFFF_FFFF asks for a rebase. -/
def Obligations.HomeAccesses : Prop :=
  (∀ k s m line wts lim, s.msgs[k]? = some m → m.kind = .loadReq line wts lim → s.homeTurn k m line = .go →
    s.roomBack (homeDie line) m.agent 0 = true →
    (lim < 2 ^ 32 →
      let h := (s.fillLine line).lineTs line
      let rts := tsMax h.2 (BitVec.ofNat 32 lim)
      ∃ t, Runs (.homeLoadRequest k false) s t ∧ t.lineTs line = (h.1, rts) ∧ (∀ a, memByte t.mem a = memByte s.mem a) ∧
        HomeAnswers s t k m (.loadRep line h.1 rts (if wts = some h.1 then none else some (s.lineData line)))) ∧
    (2 ^ 32 ≤ lim → Runs (.homeLoadRequest k false) s (s.askRebase (homeDie line)))) ∧
  (∀ k s m line wts lim, s.msgs[k]? = some m → m.kind = .loadReq line wts lim → s.homeTurn k m line = .go →
    s.roomBack (homeDie line) m.agent 0 = true → (s.getDie (homeDie line)).held.contains line = false →
    Runs (.homeLoadRequest k true) s (((s.dropMsg k).dropAgent m.agent).faultLaunch m.owner 0xD1 (agentTile m.agent) line)) ∧
  (∀ k s m e t0, s.msgs[k]? = some m → m.kind = .storeReq e t0 → s.homeTurn k m e.flat = .go →
    s.roomBack (homeDie (e.flat / 64 * 64)) m.agent 0 = true → Memory.wf s.mem = true →
    let line := e.flat / 64 * 64
    let h := (s.fillLine line).lineTs line
    let ts := max t0.toNat (h.2.toNat + 1)
    (ts < 2 ^ 32 →
      ∃ t, Runs (.homeStore k) s t ∧ t.lineTs line = (BitVec.ofNat 32 ts, BitVec.ofNat 32 ts) ∧
        (∀ i, i < e.n → memByte t.mem (e.flat + i) = BitVec.ofNat 8 (e.data.toNat / 256 ^ i)) ∧
        (∀ a, (a < e.flat ∨ e.flat + e.n ≤ a) → memByte t.mem a = memByte s.mem a) ∧
        HomeAnswers s t k m (.storeRep line (BitVec.ofNat 32 ts) h.1 (t.lineData line))) ∧
    (2 ^ 32 ≤ ts → ∃ t, Runs (.homeStore k) s t ∧ t.msgs = s.msgs ∧ t.mem = s.mem ∧ (t.getDie (homeDie line)).wantRebase = true)) ∧
  (∀ (s : State) line h, smFind s.homeTs line = some h → (s.evictLine line).memts (homeDie line) =
    (tsMax (s.memts (homeDie line)).1 h.1, tsMax (s.memts (homeDie line)).2 h.2))

/-- R215, R217, R218, R222: a reply brings the line to its tile and the timestamp to LCLK; a store's reply also raises the high-water, makes the
tile's line the written one (the home's bytes where its version was another), takes the store out of its buffer, and a load of the agent that has the
line already keeps the store in it; an acknowledgement of a RED form raises the high-water only. A store buffer
sends its head, once. -/
def Obligations.TileReplies : Prop :=
  (∀ k s m line wts rts d, s.msgs[k]? = some m → m.kind = .loadRep line wts rts (some d) → s.replyTurn k m line = true →
    ∃ t, Runs (.loadReply k) s t ∧ t.msgs = removeAt s.msgs k ∧ smFind (t.getTile (agentTile m.agent)).lines line = some ⟨wts, rts, d⟩ ∧
      t.lclk (agentTile m.agent) = tsMax (s.lclk (agentTile m.agent)) wts ∧ smFind (t.ldOf m.agent).lines line = some d ∧
      (t.ldOf m.agent).waiting = false ∧ (∀ a, memByte t.mem a = memByte s.mem a) ∧
      ∀ j, j ≠ agentTile m.agent → t.getTile j = s.getTile j) ∧
  (∀ k s m line wts rts l, s.msgs[k]? = some m → m.kind = .loadRep line wts rts none → s.replyTurn k m line = true →
    smFind (s.getTile (agentTile m.agent)).lines line = some l →
    ∃ t, Runs (.loadReply k) s t ∧ t.msgs = removeAt s.msgs k ∧ smFind (t.getTile (agentTile m.agent)).lines line = some ⟨wts, rts, l.data⟩ ∧
      t.lclk (agentTile m.agent) = tsMax (s.lclk (agentTile m.agent)) wts) ∧
  (∀ k s m line ts prev d e r l, s.msgs[k]? = some m → m.kind = .storeRep line ts prev d → s.replyTurn k m line = true → s.sbufOf m.agent = e :: r →
    smFind (s.getTile (agentTile m.agent)).lines line = some l →
    ∃ t, Runs (.storeReply k) s t ∧ t.msgs = removeAt s.msgs k ∧ t.sbufOf m.agent = r ∧ t.hiOf m.agent = tsMax (s.hiOf m.agent) ts ∧
      t.lclk (agentTile m.agent) = tsMax (s.lclk (agentTile m.agent)) ts ∧
      smFind (t.getTile (agentTile m.agent)).lines line =
        some ⟨ts, ts, if l.wts = prev then lineMerge l.data (e.flat - line) e.n e.data.toNat else d⟩ ∧
      (∀ x, smFind (s.ldOf m.agent).lines line = some x →
        smFind (t.ldOf m.agent).lines line = some (lineMerge x (e.flat - line) e.n e.data.toNat))) ∧
  (∀ k s m ts, s.msgs[k]? = some m → m.kind = .redAck ts → m.arrived = true →
    ∃ t, Runs (.redAck k) s t ∧ t.msgs = removeAt s.msgs k ∧ t.hiOf m.agent = tsMax (s.hiOf m.agent) ts ∧
      (∀ j, t.lclk j = s.lclk j) ∧ ∀ a, memByte t.mem a = memByte s.mem a) ∧
  (∀ agent s e r, s.sbufOf agent = e :: r → e.sent = false → e.ty = 0 → s.rebasing = false →
    s.room (tileDie (agentTile agent)) (tileLocal (agentTile agent)) (homeDie e.flat) 0 = true →
    ∃ t x, Runs (.storeBufferSend agent) s t ∧ t.sbufOf agent = { e with sent := true } :: r ∧ t.msgs = s.msgs ++ [x] ∧ x.agent = agent ∧
      x.kind = .storeReq { e with sent := true } (s.lclk (agentTile agent)) ∧ ∀ a, memByte t.mem a = memByte s.mem a) ∧
  (∀ agent s e r, s.sbufOf agent = e :: r → e.sent = false → e.ty.toNat ∈ [3, 4, 5, 7] →
    s.room (tileDie (agentTile agent)) (tileLocal (agentTile agent)) e.home 0 = true →
    ∃ t x, Runs (.storeBufferSend agent) s t ∧ t.sbufOf agent = r ∧ t.msgs = s.msgs ++ [x] ∧ x.agent = agent ∧
      x.kind = .access e.ty e.home e.flat e.n true e.data)

/-- R230 to R233: drift and repetition raise LCLK; a rebase starts when a clock has passed 0xC000_0000 or an update waits for it, completes when
no type-0 access is in flight, and then lowers every timestamp by 0x8000_0000 (to 0 from below), drops cache lines whose rts is lower, counts one
more in REBASES and writes an event to every die's Vault. -/
def Obligations.DriftAndRebases : Prop :=
  (∀ tile s, tile < 1600 → (s.getTile tile).spr.drift.toNat ≤ s.clk - (s.getTile tile).drifted → (s.getTile tile).spr.lclk.toNat + 1 < 2 ^ 32 →
    ∃ t, Runs (.driftTick tile) s t ∧ t.getTile tile = { s.getTile tile with
        drifted := (s.getTile tile).drifted + (s.getTile tile).spr.drift.toNat,
        spr := { (s.getTile tile).spr with lclk := (s.getTile tile).spr.lclk + 1 } } ∧
      (∀ j, j ≠ tile → t.getTile j = s.getTile j) ∧ t.mem = s.mem ∧ t.msgs = s.msgs) ∧
  (∀ agent s v, (s.spinOf agent).due = some v →
    (v < 2 ^ 32 → ∃ t, Runs (.spinRepetition agent) s t ∧ (t.spinOf agent).due = none ∧
      t.lclk (agentTile agent) = tsMax (s.lclk (agentTile agent)) (BitVec.ofNat 32 v) ∧ t.mem = s.mem) ∧
    (2 ^ 32 ≤ v → Runs (.spinRepetition agent) s (s.askRebase (tileDie (agentTile agent))))) ∧
  (∀ die s, die < 16 → s.rebasing = false → s.rebaseDue die = true → Runs (.rebaseStart die) s { s with rebasing := true }) ∧
  (∀ s tile, s.rebasing = true → (∀ m ∈ s.msgs, m.kind.timed = false ∨ s.tsWaits m = true) →
    ∃ t, Runs .rebaseComplete s t ∧ t.rebasing = false ∧ t.rebases = s.rebases + 1 ∧ t.mem = s.mem ∧
      (∀ x, smFind s.tiles tile = some x → smFind t.tiles tile = some x.rebase)) ∧
  (∀ v : BitVec 32, (rb v).toNat = v.toNat - 2 ^ 31) ∧
  (∀ (t : Tile) line l, smFind t.rebase.lines line = some l → ∃ k : CLine, k.data = l.data ∧ 2 ^ 31 ≤ k.rts.toNat ∧
    l.rts = rb k.rts ∧ l.wts = rb k.wts)

/-- A stage may fire: its region goes on, its destinations are free, no output of an earlier firing has yet to leave it, and its gate is open
(R87, R113). -/
def Sys2Proof.Claims.StageReady (s : State) (c n op : Nat) : Prop :=
  s.stageRuns c n op = true ∧ (s.cp c).dstFree n = true ∧ smGet [] (s.cp c).pend n = [] ∧ (s.cp c).gateOpen n = true

/-- The operands of a stage that may fire are there (R86, R87): no stream source is empty, and the head of each is a flit of data that the stage
takes as it is. -/
def Sys2Proof.Claims.StageDue (s : State) (c n op : Nat) : Prop :=
  StageReady s c n op ∧
  ∀ b, s.head c n b ≠ .wait ∧ ∀ x, s.head c n b = .flit x → x.beat = false ∧ x.isSide = false ∧ (s.cp c).needsConv n b x = false

/-- An operand: the flit that waits, or for an operand that the stage word does not connect a free value (log 5). -/
def Sys2Proof.Claims.operand (s : State) (c n : Nat) (b : Bool) : Flit × State :=
  match s.head c n b with
  | .flit x => (x, s)
  | _ => s.freeFlit ((s.cp c).stageFields n).fmt

/-- srcA's operand. -/
def Sys2Proof.Claims.opA (s : State) (c n : Nat) : Flit := (operand s c n false).1
/-- srcB's operand. -/
def Sys2Proof.Claims.opB (s : State) (c n : Nat) : Flit := (operand (operand s c n false).2 c n true).1
/-- srcB's mark: an operand that is not connected has none. -/
def Sys2Proof.Claims.markB (s : State) (c n : Nat) : BitVec 3 := match s.head c n true with | .flit x => x.mark | _ => 0

/-- The state in which a stage has taken its operands (R87, R113). -/
def Sys2Proof.Claims.stageTook (s : State) (c n : Nat) : State :=
  ((((operand (operand s c n false).2 c n true).2.pop c n false).pop c n true).gateTook c n
    (if (opA s c n).marked then opA s c n else opB s c n)).touchCell c

/-- The draw of an element: each takes one step of the stage's LFSR under SR (R91, R189). -/
def Sys2Proof.Claims.drawAt (f : StageF) (l : BitVec 32) (i : Nat) : Nat := if f.rnd = 5 then (lfsrNext^[i + 1] l).toNat else l.toNat

/-- The state after `k` draws. -/
def Sys2Proof.Claims.drew (s : State) (c n k : Nat) (f : StageF) : State :=
  if f.rnd = 5 then s.modCp c fun p => { p with lfsr := smPut p.lfsr n (lfsrNext^[k] (p.lfsrOf n)) } else s

/-- An element of a flit's data. -/
def Sys2Proof.Claims.elemAt (t : Nat) (d : BitVec 512) (i : Nat) : Nat := d.toNat / 2 ^ (tagWidth t * i) % 2 ^ tagWidth t

/-- A stage op that works element by element (R16, R96 to R98): one flit of results leaves, with the higher of the two marks. -/
def Sys2Proof.Claims.ElemStage (i : Nat → Instr) (n op : Nat) (e : StageF → Nat → Nat → Nat → Nat) : Prop :=
  ∀ c s, StageDue s c n op →
    let f := (s.cp c).stageFields n
    Runs (i c) s ((drew (stageTook s c n) c n (tagElems f.fmt) f).emit c n [mkFlit (ofElems f.fmt ((List.range (tagElems f.fmt)).map fun k =>
      e f (drawAt f ((s.cp c).lfsrOf n) k) (elemAt f.fmt (opA s c n).data k) (elemAt f.fmt (opB s c n).data k))) f.fmt
      (markMax (opA s c n).mark (markB s c n))])

/-- The integer an element stands for: unsigned under flag 0 where the op has it. -/
def Sys2Proof.Claims.stageInt (uns : Bool) (w v : Nat) : Int := if uns then (v : Int) else sgn w v

/-- An exact integer held in an element under SAT or WRAP (R96). -/
def Sys2Proof.Claims.stageHold (f : StageF) (uns : Bool) (x : Int) : Nat :=
  let w := tagWidth f.fmt
  let lo : Int := if uns then 0 else -2 ^ (w - 1)
  let hi : Int := if uns then 2 ^ w - 1 else 2 ^ (w - 1) - 1
  ((if f.sat = 3 then (if x < lo then lo else if hi < x then hi else x) else x) % 2 ^ w).toNat

/-- A shift amount: k[5:0] where no srcB is connected, else the low six bits of B (R97). -/
def Sys2Proof.Claims.stageShift (f : StageF) (b : Nat) : Nat := (if f.srcB = 0 then f.k else b) % 64

/-- An exact value rounded to the stage's tag (R96, R188, R191). -/
def Sys2Proof.Claims.stageRound (f : StageF) (u : Nat) (v : FVal) : Nat := (roundFp (fmtOfTag f.fmt) f.mode (f.sat == 1) u v).code

/-- R16, R96, R97: the integer ops of S2 to S4 and the saturation of S6 on every element: products, sums, shifts, comparisons and clamps. -/
def Obligations.IntegerStages : Prop :=
  let w (f : StageF) := tagWidth f.fmt
  ElemStage .stageMul 2 0x40 (fun f _ a b => stageHold f f.uns (stageInt f.uns (w f) a * stageInt f.uns (w f) b)) ∧
  ElemStage .stageMulk 2 0x41 (fun f _ a _ => stageHold f false (sgn (w f) a * sgn 32 f.k)) ∧
  ElemStage .stageAdd 3 0x60 (fun f _ a b => stageHold f f.uns (stageInt f.uns (w f) a + stageInt f.uns (w f) b)) ∧
  ElemStage .stageAddk 3 0x61 (fun f _ a _ => stageHold f false (sgn (w f) a + sgn 32 f.k)) ∧
  ElemStage .stageShl 4 0x80 (fun f _ a b => stageHold f false (sgn (w f) a * 2 ^ stageShift f b)) ∧
  ElemStage .stageShr 4 0x81 (fun f _ a b => a >>> stageShift f b) ∧
  ElemStage .stageSra 4 0x82 (fun f _ a b => (sgn (w f) a / 2 ^ stageShift f b % 2 ^ w f).toNat) ∧
  ElemStage .stageRshr 4 0x83 (fun f u a _ => stageHold f false (if a = 0 then 0 else
    roundInt f.mode u (.fin (decide (sgn (w f) a < 0)) (sgn (w f) a).natAbs (-((f.k % 64 : Nat) : Int)) false))) ∧
  ElemStage .stageCmpeq 4 0x84 (fun f _ a b => if a = b then 2 ^ w f - 1 else 0) ∧
  ElemStage .stageCmplt 4 0x85 (fun f _ a b => if stageInt f.uns (w f) a < stageInt f.uns (w f) b then 2 ^ w f - 1 else 0) ∧
  ElemStage .stageClamp 4 0x87 (fun f _ a _ =>
    stageHold f false (min (max (sgn (w f) a) (sgn 16 (f.k % 2 ^ 16))) (sgn 16 (f.k / 2 ^ 16)))) ∧
  ElemStage .stageSat 6 0xC0 (fun f _ a _ =>
    let n := f.k % 64 + 1
    let x := stageInt f.uns (w f) a
    let lo : Int := if f.uns then 0 else -2 ^ (n - 1)
    let hi : Int := if f.uns then 2 ^ n - 1 else 2 ^ (n - 1) - 1
    ((if x < lo then lo else if hi < x then hi else x) % 2 ^ w f).toNat)

/-- R16, R96, R97, R191: the floating ops of S2 to S5 on every element: each is the exact value, rounded once; a comparison with a NaN is
false, FCLAMP and RELU keep a NaN, LRELU scales what is below zero. -/
def Obligations.FloatingStages : Prop :=
  ElemStage .stageFmul 2 0x42 (fun f u a b => stageRound f u ((f.val a).mul (f.val b))) ∧
  ElemStage .stageFmulk 2 0x43 (fun f u a _ => stageRound f u ((f.val a).mul f.kval)) ∧
  ElemStage .stageFadd 3 0x62 (fun f u a b => stageRound f u (FVal.add (f.rnd == 2) (f.val a) (f.val b))) ∧
  ElemStage .stageFaddk 3 0x63 (fun f u a _ => stageRound f u (FVal.add (f.rnd == 2) (f.val a) f.kval)) ∧
  ElemStage .stageFcmplt 4 0x86 (fun f _ a b => if (f.val a).lt (f.val b) then 2 ^ tagWidth f.fmt - 1 else 0) ∧
  ElemStage .stageFclamp 4 0x88 (fun f u a _ =>
    let lo := bf16.decode (f.k % 2 ^ 16)
    let hi := bf16.decode (f.k / 2 ^ 16)
    stageRound f u (if (f.val a).isNan then .nan else if (f.val a).lt lo then lo else if hi.lt (f.val a) then hi else f.val a)) ∧
  ElemStage .stageRelu 5 0xA1 (fun f _ a _ => if (f.val a).isNan then a else if 2 ^ (tagWidth f.fmt - 1) ≤ a then 0 else a) ∧
  ElemStage .stageLrelu 5 0xA2 (fun f u a _ =>
    if (f.val a).isNan ∨ (f.val a).lt (.zero false) then stageRound f u ((f.val a).mul f.kval) else a) ∧
  ElemStage .stageExp2 5 0xA4 (fun f u a _ => stageRound f u (f.val a).exp2) ∧
  ElemStage .stageRcp 5 0xA5 (fun f u a _ => stageRound f u (FVal.div (.fin false 1 0 false) (f.val a))) ∧
  ElemStage .stageRsqrt 5 0xA6 (fun f u a _ => stageRound f u (f.val a).rsqrt) ∧
  ElemStage .stageSigm 5 0xA7 (fun f u a _ => stageRound f u (f.val a).sigm)

/-- A stage sends `xs` after it took its operands and made `k` draws. -/
def Sys2Proof.Claims.Sends (i : Instr) (s : State) (c n k : Nat) (xs : List Flit) : Prop :=
  Runs i s ((drew (stageTook s c n) c n k ((s.cp c).stageFields n)).emit c n xs)

/-- A reduction leaves one element, and zeros beyond (R96). -/
def Sys2Proof.Claims.Reduces (i : Nat → Instr) (op : Nat) (e : StageF → Nat → List Nat → Nat) : Prop :=
  ∀ c s, StageDue s c 3 op →
    let f := (s.cp c).stageFields 3
    Sends (i c) s c 3 1 [mkFlit (ofElems f.fmt [e f (drawAt f ((s.cp c).lfsrOf 3) 0) (elems f.fmt (opA s c 3).data)]) f.fmt
      (markMax (opA s c 3).mark (markB s c 3))]

/-- ACC and FACC: entry k[7:0] takes the flit; after k[23:8] firings, or on a marker, it is sent and cleared (R96, R166). -/
def Sys2Proof.Claims.Accumulates (i : Nat → Instr) (op : Nat) (e : StageF → Nat → Nat → Nat → Nat) : Prop :=
  ∀ c s, StageDue s c 3 op →
    let f := (s.cp c).stageFields 3
    let u := drew (stageTook s c 3) c 3 (tagElems f.fmt) f
    let entry := f.k % 256
    let off := 0x1000 + 64 * entry
    let sum := ofElems f.fmt ((List.range (tagElems f.fmt)).map fun k =>
      e f (drawAt f ((s.cp c).lfsrOf 3) k) (elemAt f.fmt (opA s c 3).data k) (elemAt f.fmt ((stageTook s c 3).localLine c off) k))
    let mark := markMax (opA s c 3).mark (markB s c 3)
    let n := (smGet ⟨0, 0⟩ ((stageTook s c 3).cp c).accs entry).count + 1
    (n < f.k / 256 % 2 ^ 16 → mark = 0 → Runs (i c) s ((u.setLocalLine c off sum).modCp c fun p => { p with accs := smPut p.accs entry ⟨n, 0⟩ })) ∧
    (f.k / 256 % 2 ^ 16 ≤ n ∨ mark ≠ 0 →
      Runs (i c) s (((u.setLocalLine c off 0).modCp c fun p => { p with accs := smDel p.accs entry }).emit c 3 [mkFlit sum f.fmt mark]))

/-- The output flits of a row's elements, each with its flags: full flits, the last with a mark and zeros beyond its elements (R180). -/
def Sys2Proof.Claims.rowFlits (t : Nat) (xs : List (Nat × Nat)) (mark : BitVec 3) : List (Flit × Nat) :=
  let e := tagElems t
  let k := (xs.length + e - 1) / e
  (List.range k).map fun i => (mkFlit (ofElems t (((xs.drop (i * e)).take e).map (·.1))) t (if i + 1 = k then mark else 0),
    ((xs.drop (i * e)).take e).foldl (fun v x => v ||| x.2) 0)

/-- R16, R19, R87, R88, R93, R96 to R98, R180: the stages that move, convert, accumulate, reduce, select, pack and store whole flits, the outputs of a
firing that leave one by one, and side flits that a stage does not take. That CVT packs the elements of a row one after the other and a mark ends the
row is deduced from R180 (log 132). -/
def Obligations.WholeFlitStages : Prop :=
  (∀ c n s, 2 ≤ n → n ≤ 6 → ¬ ((n = 3 ∨ n = 4) ∧ 0xE0 ≤ (stageF ((s.cp c).stage 2)).op) → StageDue s c n 0 →
    Runs (.stageEmpty c n) s ((stageTook s c n).emit c n [opA s c n])) ∧
  (∀ c s, StageDue s c 1 0x20 → ((s.cp c).stageFields 1).srcB = 0 → Runs (.stagePass c) s ((stageTook s c 1).emit c 1 [opA s c 1])) ∧
  (∀ c s x, StageReady s c 1 0x20 → ((s.cp c).stageFields 1).srcB ≠ 0 → (s.cp c).row.group = 0 →
    s.head c 1 true = .flit x → (s.head c 1 false).beat = false → x.beat = false → x.isSide = false → (s.cp c).needsConv 1 true x = false →
    ∃ u, Runs (.stagePass c) s ((u.emit c 1 [x]).touchCell c) ∧ u = ((s.pop c 1 true).gateTook c 1 x).modCp c fun p =>
      { p with row := { p.row with group := ((s.cp c).stageFields 1).k % 256 } }) ∧
  (∀ c s, StageDue s c 1 0x21 → (opA s c 1).tag ≠ 7 →
    let f := (s.cp c).stageFields 1
    let a := opA s c 1
    let rs := (List.range (tagElems a.tag)).map fun k =>
      convElem f.mode (if f.fmt ≤ 1 then f.sat == 3 else f.sat == 1) a.tag f.fmt (drawAt f ((s.cp c).lfsrOf 1) k) (elemAt a.tag a.data k)
    let xs := ((s.cp c).row.outs.map fun v => (v.toNat, (s.cp c).row.flags)) ++ rs.map fun r => (r.code, r.flags)
    let n := if a.marked then xs.length else xs.length / tagElems f.fmt * tagElems f.fmt
    Runs (.stageCvt c) s (((drew (stageTook s c 1) c 1 (tagElems a.tag) f).modCp c fun p => { p with row := { RowSt.empty with
      outs := (xs.drop n).map fun x => BitVec.ofNat 64 x.1, flags := (xs.drop n).foldl (fun v x => v ||| x.2) 0 } }).emitOuts c 1
        (rowFlits f.fmt (xs.take n) a.mark))) ∧
  (∀ c n op i s x r, (i, n, op) ∈ [(Instr.stageCvt c, 1, 0x21), (.stagePass c, 1, 0x20), (.stagePack c, 6, 0xC1), (.stageQpack c, 6, 0xC4)] →
    s.stageRuns c n op = true → (s.cp c).dstFree n = true → smGet [] (s.cp c).pend n = x :: r →
    Runs i s (((s.modCp c fun p => { p with pend := if r.isEmpty then smDel p.pend n else smPut p.pend n r }).sendOut c n x).touchCell c)) ∧
  (∀ (s : State) c n xs x r, xs = x :: r →
    s.emitOuts c n xs = if r.isEmpty then s.sendOut c n x else (s.sendOut c n x).modCp c fun p => { p with pend := smPut p.pend n r }) ∧
  (∀ c s, StageDue s c 1 0x21 → (opA s c 1).tag = 7 → Runs (.stageCvt c) s ((stageTook s c 1).flitFault c 0xA4)) ∧
  (∀ c s, StageDue s c 1 0x25 → Runs (.stageShuf c) s ((stageTook s c 1).emit c 1 [mkFlit (ofElems 1 ((List.range 16).map fun i =>
    elemAt 1 (opA s c 1).data (((i ^^^ ((s.cp c).stageFields 1).k % 16) + ((s.cp c).stageFields 1).k / 16) % 16)))
    (opA s c 1).tag (markMax (opA s c 1).mark (markB s c 1))])) ∧
  (∀ c s, StageDue s c 1 0x26 → Runs (.stageBcast c) s ((stageTook s c 1).emit c 1 [mkFlit (ofElems 1 (List.replicate 16
    (elemAt 1 (opA s c 1).data (((s.cp c).stageFields 1).k % 16)))) (opA s c 1).tag (markMax (opA s c 1).mark (markB s c 1))])) ∧
  Accumulates .stageAcc 0x64 (fun f _ a b => stageHold f false (sgn (tagWidth f.fmt) a + sgn (tagWidth f.fmt) b)) ∧
  Accumulates .stageFacc 0x65 (fun f u a b => stageRound f u (FVal.add (f.rnd == 2) (f.val b) (f.val a))) ∧
  Reduces .stageRsum 0x66 (fun f _ xs => stageHold f false ((xs.map (sgn (tagWidth f.fmt))).sum)) ∧
  Reduces .stageRmax 0x67 (fun f _ xs => ((xs.map (stageInt f.uns (tagWidth f.fmt))).foldl max (stageInt f.uns (tagWidth f.fmt) (xs.headD 0)) %
    2 ^ tagWidth f.fmt).toNat) ∧
  Reduces .stageFrsum 0x68 (fun f u xs => stageRound f u (exactSum (f.rnd == 2) (xs.map f.val))) ∧
  Reduces .stageFrmax 0x69 (fun f u xs => stageRound f u (if (xs.map f.val).any FVal.isNan then .nan
    else (xs.map f.val).foldl fmaxVal ((xs.map f.val).headD .nan))) ∧
  (∀ c s, StageDue s c 5 0xA3 →
    let g := (opA s c 5).tag
    Runs (.stageSel c) s ((stageTook s c 5).emit c 5 [mkFlit (ofElems g ((List.range (tagElems g)).map fun i =>
      if elemAt g (opB s c 5).data i ≠ 0 then elemAt g (opA s c 5).data i
      else if bitOf ((s.cp c).stageFields 5).flags 0 then negInf g else 0)) g (markMax (opA s c 5).mark (markB s c 5))])) ∧
  (∀ c s, StageDue s c 6 0xC2 → ∃ x, Runs (.stageRoute c) s ((stageTook s c 6).emit c 6 [x]) ∧ x.data = (opA s c 6).data ∧
    x.fmt = (opA s c 6).fmt ∧ x.mark = markMax (opA s c 6).mark (markB s c 6)) ∧
  (∀ c s, StageDue s c 6 0xC3 →
    let k := ((s.cp c).stageFields 6).k
    Runs (.stageStore c) s ((((stageTook s c 6).setLocalLine c (0x16000 + 64 * ((k % 128 + (s.cp c).storeN) % (k / 256 % 128 + 1)))
      (opA s c 6).data).modCp c fun p => { p with storeN := p.storeN + 1 }).emit c 6
      [mkFlit (opA s c 6).data (opA s c 6).tag (markMax (opA s c 6).mark (markB s c 6))])) ∧
  (∀ c s, StageDue s c 6 0xC1 →
    let f := (s.cp c).stageFields 6
    let rs := (List.range 16).map fun k => convElem f.mode (f.sat == 1) 2 f.fmt (drawAt f ((s.cp c).lfsrOf 6) k) (elemAt 2 (opA s c 6).data k)
    Runs (.stagePack c) s ((drew (stageTook s c 6) c 6 16 f).emitOuts c 6 ((List.range f.k).map fun i =>
      (mkFlit (if i = 0 then ofElems f.fmt (rs.map Rounded.code) else 0) f.fmt
        (if i + 1 = f.k then markMax (opA s c 6).mark (markB s c 6) else 0), if i = 0 then cvstOf rs else 0)))) ∧
  (∀ c s, StageDue s c 6 0xC4 →
    let mark := markMax (opA s c 6).mark (markB s c 6)
    let vals := (s.cp c).qvals ++ (elems 2 (opA s c 6).data).map (BitVec.ofNat 32)
    let q := packCode (((s.cp c).stageFields 6).k % 4) ((vals.map fun v => fp32.decode v.toNat) ++ List.replicate (128 - vals.length) (.zero false))
    Runs (.stageQpack c) s (
      if vals.length < 128 ∧ mark = 0 then (stageTook s c 6).modCp c fun p => { p with qvals := vals }
      else if (s.cp c).qcodes.length < 15 ∧ mark = 0 then
        (stageTook s c 6).modCp c fun p => { p with qvals := [], qcodes := (s.cp c).qcodes ++ [q] }
      else ((stageTook s c 6).modCp c fun p => { p with qvals := [], qcodes := [] }).emitOuts c 6 (sendCodes ((s.cp c).qcodes ++ [q]) mark))) ∧
  (∀ c s x, StageReady s c 2 0x40 → s.head c 2 false = .flit x → x.isSide = true →
    Runs (.stageMul c) s (((s.pop c 2 false).emit c 2 [x]).touchCell c))

/-- R88, R94, R95, R178, R185: the bit-stream ops take their side flit where they need one, then code flits, and send an output flit when one is
full or the row ends; MASKT replaces what its bitmap excludes; the converter gives a stage the tag it accepts, S1 before the later stages, and Q4X16
has none (0xA4). That LUT8's table lies at 0x1_5000, and that S1's draws are for every conversion, are the model's choices (log 131). -/
def Obligations.BitStreamStages : Prop :=
  (∀ c s x i op, (i, op) ∈ [(Instr.stageUnpk3 c, 0x22), (.stageUnpk4 c, 0x23), (.stageLut8 c, 0x24), (.stageUnpkq c, 0x28)] →
    StageReady s c 1 op → (s.cp c).needsSide ((s.cp c).stageFields 1) = false →
    (codeWidth op ≤ (s.cp c).row.left → Runs i s ((State.runBits c ((s.cp c).stageFields 1) 130 s).touchCell c)) ∧
    ((s.cp c).row.left < codeWidth op → s.head c 1 false = .flit x → x.beat = false → (s.cp c).needsConv 1 false x = false →
      (x.isSide = false → Runs i s ((((s.pop c 1 false).gateTook c 1 x).modCp c fun p =>
        { p with row := { p.row with held := some x, bit := 0, group := (p.row.group + 1) % 16 } }).touchCell c)) ∧
      (x.isSide = true → Runs i s (if op = 0x24 ∨ op = 0x28 then (s.pop c 1 false).flitFault c 0xA5
        else ((s.pop c 1 false).emit c 1 [x]).touchCell c)))) ∧
  (∀ (f : StageF) r table u code k, f.op = 0x24 → code < tagElems f.fmt → (codeOut f r table u code k).1 = elemAt f.fmt table code) ∧
  (∀ c s x r, (s.cp c).needsSide ((s.cp c).stageFields 1) = true → (s.cp c).side = x :: r →
    let u := s.modCp c fun p => { p with side := p.side.drop 1 }
    (StageReady s c 1 0x24 → ((s.cp c).stageFields 1).op = 0x24 → Runs (.stageLut8 c) s (((u.setLocalLine c 0x15000 x.data).modCp c fun p =>
      { p with row := { p.row with side := none, width := p.row.width % 16 + 16 * (p.row.code + 1) } }).touchCell c)) ∧
    (StageReady s c 1 0x28 → ((s.cp c).stageFields 1).op = 0x28 → Runs (.stageUnpkq c) s ((u.modCp c fun p =>
      { p with row := { p.row with side := some x, width := p.row.width % 16 + 16 * (p.row.code + 1) } }).touchCell c))) ∧
  (∀ c s x, StageReady s c 1 0x24 → (s.cp c).needsSide ((s.cp c).stageFields 1) = true → (s.cp c).side = [] →
    s.head c 1 false = .flit x → x.beat = false → ((s.cp c).stageFields 1).op = 0x24 →
    (x.isSide = true → Runs (.stageLut8 c) s ((((s.pop c 1 false).setLocalLine c 0x15000 x.data).modCp c fun p =>
      { p with row := { p.row with side := none, width := p.row.width % 16 + 16 * (p.row.code + 1) } }).touchCell c)) ∧
    (x.isSide = false → ((s.cp c).stageFields 1).srcA ≠ 3 → s.gathers c = false → Runs (.stageLut8 c) s ((s.pop c 1 false).flitFault c 0xA5))) ∧
  (∀ c s x b, StageReady s c 1 0x27 → s.head c 1 false = .flit x → s.head c 1 true = .flit b →
    x.beat = false → x.isSide = false → (s.cp c).needsConv 1 false x = false → b.beat = false → b.isSide = false → (s.cp c).row.code = 0 →
    (s.cp c).row.group = 0 →
    let f := (s.cp c).stageFields 1
    let keys := f.k % 128
    ∃ u g, Runs (.stageMaskt c) s ((u.emit c 1 [mkFlit (ofElems f.fmt ((List.range (tagElems f.fmt)).map fun i =>
        if i < keys ∧ bitOf b.data.toNat i = false then negInf f.fmt else elemAt f.fmt x.data i)) f.fmt (markMax x.mark b.mark)]).touchCell c) ∧
      u = (((s.pop c 1 true).pop c 1 false).gateTook c 1 x).modCp c (fun p =>
        { p with row := { p.row with side := some b, code := if keys ≤ tagElems f.fmt then 0 else 1, group := g } }) ∧ g = if keys ≤ tagElems f.fmt then 1 else 0) ∧
  (∀ c n b s x, isVCell c = true → s.cellFires c = true → s.convBefore c n b = false → 1 ≤ n → n ≤ 6 → smGet [] (s.cp c).conv (2 * n + if b then 1 else 0) = [] →
    let f := (s.cp c).stageFields n
    let code := if b then f.srcB else f.srcA
    code ≠ 5 → s.rawHead c n code f.k f.fmt = .flit x → (s.cp c).needsConv n b x = true →
    let t := (acceptTag f b).getD 0
    let u := s.popRaw c n code f.k
    (x.tag = 7 ∨ t = 7 → Runs (.s1Convert c n b) s (u.flitFault c 0xA4)) ∧
    (x.tag ≠ 7 → t ≠ 7 →
      let f1 := stageF ((s.cp c).stage 1)
      let r := convFlit x t (rndOf (BitVec.ofNat 3 f1.rnd)) (convSat f1.sat t) ((s.cp c).lfsrOf 1)
      Runs (.s1Convert c n b) s (((u.modCp c fun p => { p with
        conv := smPut p.conv (2 * n + if b then 1 else 0) r.1, lfsr := if f1.rnd = 5 then smPut p.lfsr 1 r.2.2 else p.lfsr }).setCvst c r.2.1).touchCell c)))

/-- The columns of a row after a row-block (R17, R100): the row's 16 words are in accumulator entry 0; the last row-block, or a marked one,
sends them and ends the row. -/
def Sys2Proof.Claims.rowAfter (s : State) (c kb tag : Nat) (row : List Nat) (stuck : BitVec 16) (mark : BitVec 3) : State :=
  let blk := (smGet ⟨0, 0⟩ (s.cp c).accs 300).count + 1
  let u := s.setLocalLine c 0x1000 (ofElems tag row)
  if kb ≤ blk ∨ mark ≠ 0 then
    (u.modCp c fun p => { p with accs := smDel (smDel p.accs 300) 301, netx := [] }).emit c 2 [mkFlit (ofElems tag row) tag mark]
  else u.modCp c fun p => { p with accs := smDel (smPut p.accs 300 ⟨blk, stuck⟩) 301, netx := if blk % 16 = 0 then [] else p.netx }

/-- One FP32 column: the accumulator and the exact sum of some products, added and rounded once (R101). -/
def Sys2Proof.Claims.fpColumn (f : StageF) (u acc : Nat) (terms : List FVal) : Nat :=
  (roundFp fp32 f.mode (f.sat == 1) u (FVal.add (f.rnd == 2) (fp32.decode acc) (exactSum (f.rnd == 2) terms))).code

/-- R17, R18, R99 to R105: the matrix macro-ops: MMA's columns are rounded sums of exact products over a row-block, MMAI's are exact integers
under WRAP or SAT, MMAQ's use the codes and scales of a side flit and the window; a side flit out of place faults with 0xA5; VFMA is fused, with a
lane register. -/
def Sys2Proof.Claims.MatrixStages : Prop :=
  (∀ c s, StageDue s c 2 0xE0 → (s.cp c).isPartial ((s.cp c).stageFields 2) (opA s c 2) = true →
    Runs (.stageMma c) s (((stageTook s c 2).setLocalLine c 0x1000 (opA s c 2).data).modCp c fun p => { p with accs := smPut p.accs 301 ⟨1, 0⟩ })) ∧
  (∀ c s, StageDue s c 2 0xE0 → (s.cp c).isPartial ((s.cp c).stageFields 2) (opA s c 2) = false →
    let f := (s.cp c).stageFields 2
    let a := (opA s c 2).data
    let w := (stageTook s c 2).window c (1024 * (f.first + (s.cp c).rowBlk)) 1024
    let acc := (stageTook s c 2).rowAcc c f
    let term (j i : Nat) : FVal := (f.val (elemAt f.fmt a i)).mul (f.val (blockElem w (tagWidth f.fmt) i j))
    let draw := drawAt f ((s.cp c).lfsrOf 2)
    (f.fmt ≠ 2 → Runs (.stageMma c) s (rowAfter (drew (stageTook s c 2) c 2 16 f) c f.kb 2 ((List.range 16).map fun j =>
      fpColumn f (draw j) (acc.getD j 0) ((List.range (tagElems f.fmt)).map (term j))) 0 (opA s c 2).mark)) ∧
    (f.fmt = 2 → Runs (.stageMma c) s (rowAfter (drew (stageTook s c 2) c 2 32 f) c f.kb 2 ((List.range 16).map fun j =>
      fpColumn f (draw (16 + j)) (fpColumn f (draw j) (acc.getD j 0) ((List.range 8).map (term j)))
        ((List.range 8).map fun i => term j (8 + i))) 0 (opA s c 2).mark))) ∧
  (∀ c s, StageDue s c 2 0xE1 →
    let f := (s.cp c).stageFields 2
    let a := (opA s c 2).data
    let w := (stageTook s c 2).window c (1024 * (f.first + (s.cp c).rowBlk)) 1024
    let acc := (stageTook s c 2).rowAcc c f
    let stuck := if (s.cp c).rowFresh then 0 else (smGet ⟨0, 0⟩ (s.cp c).accs 300).stuck
    let sum (j : Nat) : Int := sgn 32 (acc.getD j 0) + ((List.range 64).map fun i =>
      stageInt (bitOf f.flags 1) 8 (a.toNat / 256 ^ i % 256) * stageInt (bitOf f.flags 2) 8 (blockElem w 8 i j)).sum
    let col (j : Nat) : Nat :=
      if f.sat = 2 then (sum j % 2 ^ 32).toNat
      else if stuck.getLsbD j then acc.getD j 0
      else if 2 ^ 31 ≤ sum j then 2 ^ 31 - 1 else if sum j < -2 ^ 31 then 2 ^ 31 else (sum j % 2 ^ 32).toNat
    ∃ st, Runs (.stageMmai c) s (rowAfter (stageTook s c 2) c f.kb 1 ((List.range 16).map col) st (opA s c 2).mark) ∧
      ∀ j, j < 16 → st.getLsbD j = (f.sat != 2 && (stuck.getLsbD j || decide (2 ^ 31 ≤ sum j) || decide (sum j < -2 ^ 31)))) ∧
  (∀ c s x, StageReady s c 2 0xE2 → s.head c 2 false = .flit x → x.beat = false →
    (s.cp c).needsConv 2 false x = false →
    (x.isSide = true → (s.cp c).netx = [] →
      Runs (.stageMmaq c) s (((s.pop c 2 false).modCp c fun p => { p with netx := [x] }).touchCell c)) ∧
    ((x.isSide = true ↔ (s.cp c).netx ≠ []) → Runs (.stageMmaq c) s ((s.pop c 2 false).flitFault c 0xA5)) ∧
    (∀ side r, x.isSide = false → (s.cp c).netx = side :: r →
      let f := (s.cp c).stageFields 2
      let u := (s.pop c 2 false).touchCell c
      let blk := (s.cp c).rowBlk
      let w := u.window c (1024 * (f.first + blk)) 1024
      let row := u.window c (64 * (f.biasOff + 1 + blk)) 64
      let term (j i : Nat) : FVal :=
        (codeVal (lineBytes side.data (4 * (blk % 16) + i / 32) 1) (x.data.toNat / 16 ^ i % 16)).mul
          (codeVal (row / 256 ^ (16 * (i / 32) + j) % 256) (blockElem w 4 i j))
      Runs (.stageMmaq c) s (rowAfter (drew u c 2 16 f) c f.kb 2 ((List.range 16).map fun j =>
        fpColumn f (drawAt f ((s.cp c).lfsrOf 2) j) ((u.rowAcc c f).getD j 0) ((List.range 128).map (term j))) 0 x.mark))) ∧
  (∀ c s, StageDue s c 2 0xE3 →
    let f := (s.cp c).stageFields 2
    let reg := f.k % 64
    let out := ofElems f.fmt ((List.range (tagElems f.fmt)).map fun i => stageRound f (drawAt f ((s.cp c).lfsrOf 2) i)
      (FVal.add (f.rnd == 2) ((f.val (elemAt f.fmt (opA s c 2).data i)).mul (f.val (elemAt f.fmt (opB s c 2).data i)))
        (f.val (elemAt f.fmt ((stageTook s c 2).laneReg c reg) i))))
    let u := drew (stageTook s c 2) c 2 (tagElems f.fmt) f
    Runs (.stageVfma c) s ((if bitOf f.flags 0 then u.setLaneReg c reg out else u).emit c 2
      [mkFlit out f.fmt (markMax (opA s c 2).mark (markB s c 2))]))

/-- R106, R195, R294, R295: NETX gathers a lane group's features, runs the network of its shape record for each lane, a layer at a time, and sends the
rounded outputs, the last with the mark; a bad record discards the group and faults with 0xA6, a trapped NaN or overflow faults with 0xA0. That a
group advances by whole layers is the model's choice (log 133). -/
def Sys2Proof.Claims.NetworkStage : Prop :=
  (∀ c s, StageDue s c 2 0xE4 → (s.cp c).bank = none →
    let f := (s.cp c).stageFields 2
    let u := stageTook s c 2
    let h := s.shape c (64 * (f.k % 512))
    let epl := if f.fmt = 2 then 1 else 2
    let xs := (s.cp c).netx ++ [opA s c 2]
    let need := (h.widths.getD 0 0 + epl - 1) / epl
    let lane (i : Nat) : List Nat := laneFeatures f.fmt epl (h.widths.getD 0 0) xs i
    (h.ok = false → Runs (.stageNetx c) s ((u.modCp c fun p => { p with netx := [] }).faultCell c 0xA6 0)) ∧
    (h.ok = true → xs.length < need → (opA s c 2).marked = false → Runs (.stageNetx c) s (u.modCp c fun p => { p with netx := xs })) ∧
    (h.ok = true → (need ≤ xs.length ∨ (opA s c 2).marked = true) →
      ∃ b : NetBank, Runs (.stageNetx c) s (u.modCp c fun p => { p with netx := [], bank := some b }) ∧ b.layer = 0 ∧ b.ovf = false ∧ b.nan = 0 ∧
        b.mark = (opA s c 2).mark ∧ b.lanes = (List.range 16).map (fun i => (lane i).map (BitVec.ofNat 32)) ∧
        ∀ i, i < 16 → b.clean.getLsbD i = !(lane i).any fun v => (fp32.decode v).isNan)) ∧
  (∀ c s b, StageReady s c 2 0xE4 → (s.cp c).bank = some b →
    let f := (s.cp c).stageFields 2
    let h := s.shape c (64 * (f.k % 512))
    let u := s.touchCell c
    let b' := u.netLayer c h b
    let epl := if f.fmt = 2 then 1 else 2
    let w := h.widths.getD h.layers 0
    let out := netRound f (bitOf h.policy 0 && f.fmt != 2) epl w (b'.lanes.map fun l => ⟨l.map BitVec.toNat, false, false⟩) ((s.cp c).lfsrOf 2)
    let v := u.modCp c fun p => { p with bank := none, lfsr := if f.rnd = 5 then smPut p.lfsr 2 out.2 else p.lfsr }
    let nan := b'.nan &&& b'.clean != 0
    let ovf := b'.ovf || out.1.any fun rs => rs.any Rounded.ovf
    let flags := (if nan || out.1.any (fun rs => rs.any Rounded.inv) then 1 else 0) + if ovf then 2 else 0
    (h.ok = false → Runs (.stageNetx c) s ((u.modCp c fun p => { p with bank := none }).faultCell c 0xA6 0)) ∧
    (h.ok = true → b.layer + 1 < h.layers → Runs (.stageNetx c) s (u.modCp c fun p => { p with bank := some b' })) ∧
    (h.ok = true → h.layers ≤ b.layer + 1 →
      Runs (.stageNetx c) s (if bitOf h.policy 2 && (nan || ovf) then (v.setCvst c flags).faultCell c 0xA0 0
        else v.emitOuts c 2 (out.1.zipIdx.map fun g =>
          (netFlit f epl w g.2 g.1 (if g.2 + 1 = out.1.length then b.mark else 0), if g.2 = 0 then flags else 0))))) ∧
  (∀ (s : State) c h b l i, b.lanes[i]? = some l → i < 16 →
    let o := s.layer c h b.layer ⟨l.map BitVec.toNat, false, false⟩
    (s.netLayer c h b).layer = b.layer + 1 ∧ (s.netLayer c h b).lanes[i]? = some (o.vals.map (BitVec.ofNat 32)) ∧
    (s.netLayer c h b).nan.getLsbD i = (b.nan.getLsbD i || o.nan) ∧ (o.ovf = true → (s.netLayer c h b).ovf = true) ∧
    (s.netLayer c h b).clean = b.clean ∧ (s.netLayer c h b).mark = b.mark) ∧
  (∀ (s : State) c h j x o, o < h.widths.getD (j + 1) 0 →
    let z := (roundFp fp32 .rne false 0 (exactSum false
      ((if h.boff.getD j 0 = 0xFFFF then .zero false else fp32.decode (s.window c (64 * h.boff.getD j 0 + 4 * o) 4)) ::
        (List.range (h.widths.getD j 0)).map fun i => (fp32.decode (x.vals.getD i 0)).mul
          (s.weight c h j (h.widths.getD j 0 * h.widths.getD (j + 1) 0) (i * h.widths.getD (j + 1) 0 + o)))))
    let y := activate (h.acts.getD j 0) h.slope z.code
    (s.layer c h j x).vals[o]? = some (if bitOf h.policy 1 && (fp32.decode y.code).isNan then 0 else y.code) ∧
    (z.ovf || y.ovf → (s.layer c h j x).ovf = true) ∧ ((fp32.decode y.code).isNan = true → (s.layer c h j x).nan = true))

/-- R17, R18, R99 to R106, R195, R294, R295: the matrix, the vector and the network stages. -/
def Obligations.MatrixAndNetworkStages : Prop := Claims.MatrixStages ∧ Claims.NetworkStage

/-- R20, R44, R69, R111 to R114, R342: a flit hops when every output that names its input has room; a parity failure drops it, logs it and faults
with 0xC1; a pulse moves on, or is a credit of an EGATE cell; the FIFO keeps order and pulses at its level; the line buffer sends a column of its
held lines, which leave one at a time. -/
def Obligations.StaticMesh : Prop :=
  (∀ c out s x r m, s.cellGoes c = true → out < 4 → (s.cp c).box out = x :: r → neighbour c out = some m → x.beat = false →
    (s.cp m).named (facing out + 1) ≠ [] → (s.cp m).boxRoom ((s.cp m).named (facing out + 1)) = true → cellCol m < 48 →
    (x.parityOk = true → Runs (.flitHop c out false) s
      (((s.modCp c fun p => p.setBox out r).modCp m fun p => p.intoBox ((s.cp m).named (facing out + 1)) x).touchCell c)) ∧
    Runs (.flitHop c out true) s ((((s.modCp c fun p => p.setBox out r).plog m (facing out) 0xC1).faultCell m 0xC1 0).touchCell m)) ∧
  (∀ c s x r, s.cellGoes c = true → (s.cp c).link lkOut = x :: r → x.beat = false → x.parityOk = true → (s.cp c).named 5 ≠ [] →
    (s.cp c).boxRoom ((s.cp c).named 5) = true → isBCell c = false →
    Runs (.flitHop c 4 false) s (((s.modCp c fun p => p.setLink lkOut r).modCp c fun p => p.intoBox ((s.cp c).named 5) x).touchCell c)) ∧
  (∀ c out s n m, smFind (s.cp c).events out = some n → out < 4 → neighbour c out = some m → 2 ≤ n →
    Runs (.eventPulse c out) s ((s.modCp c fun p => { p with events := smPut p.events out (n - 1) }).pulse m (facing out + 1))) ∧
  (∀ c s, smFind (s.cp c).events 4 = some 1 → isVCell c = true → bitOf ((s.cp c).stageFields 1).flags 3 = true →
    (stageF ((s.cp c).stage 1)).op / 32 = 1 →
    ∃ u, u = (s.modCp c fun p => { p with events := smDel p.events 4 }) ∧
      Runs (.eventPulse c 4) s (u.modCp c fun p => { p with egate := BitVec.ofNat 16 (min 65535 (p.egate.toNat + 1)) })) ∧
  (∀ c s x r, s.bRuns c 2 = true → (s.cp c).bIn = x :: r → x.beat = false → (s.cp c).fifoTags.length < (s.cp c).mode.toNat % 2 ^ 12 →
    let p := s.cp c
    let n := p.fifoTags.length
    let u := (s.modCp c fun q => { q.bPop with fifoTags := p.fifoTags ++ [(x.fmt, x.mark)] }).setLocalLine c
      (bmBase p.mode.toNat + 64 * ((p.fifoRd + n) % (p.mode.toNat % 2 ^ 12))) x.data
    Runs (.fifoAppend c) s ((if n + 1 = p.mode.toNat / 2 ^ 24 % 2 ^ 12 then u.pulse c 5 else u).touchCell c)) ∧
  (∀ c s f k r, s.bRuns c 2 = true → (s.cp c).fifoTags = (f, k) :: r → ((s.cp c).link lkOut).length < 2 →
    let p := s.cp c
    Runs (.fifoLeave c) s ((s.modCp c fun q => { (q.setLink lkOut (q.link lkOut ++
      [mkFlit (s.localLine c (bmBase p.mode.toNat + 64 * p.fifoRd)) f.toNat k])) with
        fifoTags := r, fifoRd := (p.fifoRd + 1) % (p.mode.toNat % 2 ^ 12) }).touchCell c)) ∧
  (∀ c s x r, s.bRuns c 3 = true → smGet [] (s.cp c).pend 7 = x :: r → ((s.cp c).link lkOut).length < 2 →
    Runs (.linebufAppend c) s ((s.modCp c fun q =>
      { (q.setLink lkOut (q.link lkOut ++ [x.1])) with pend := if r.isEmpty then smDel q.pend 7 else smPut q.pend 7 r }).touchCell c)) ∧
  (∀ c s x r, s.bRuns c 3 = true → smGet [] (s.cp c).pend 7 = [] → (s.cp c).bIn = x :: r → x.beat = false → ((s.cp c).link lkOut).length < 2 →
    let p := s.cp c
    let per := bitsOf p.mode.toNat 47 36 / 16
    let lines := bitsOf p.mode.toNat 35 24
    let place (l : Nat) : Nat := bmBase p.mode.toNat + 64 * (l % lines * per + p.fifoRd % per)
    let line := p.fifoRd / per
    let group := if line < lines then [] else (List.range lines).map fun i =>
      mkFlit (s.localLine c (place (line - lines + i))) x.tag (if i + 1 = lines then x.mark else 0)
    Runs (.linebufAppend c) s (((s.modCp c fun q => { (q.bPop.setLink lkOut (q.link lkOut ++ group.take 1)) with
      fifoRd := p.fifoRd + 1, pend := if (group.drop 1).isEmpty then q.pend else smPut q.pend 7 ((group.drop 1).map fun x => (x, 0)) }).setLocalLine
      c (place line) x.data).touchCell c))

/-- A begun command at the head of a port's queue may make its next transfer. -/
def Sys2Proof.Claims.EngineDue (s : State) (tile p : Nat) (c : Cmd) (l : Launch) : Prop :=
  ((s.getTile tile).port p).cmd? = some c ∧ s.launch? c.owner = some l ∧ p < 4 ∧ c.begun = true ∧ c.cut = false ∧ c.suspended = false ∧
  c.reading = false ∧ c.runsOn l = true ∧ (c.bound && l.emptied && !c.has 3) = false

/-- R21, R62, R69 to R73, R107, R165, R177, R178, R229, R235: the stream engines. A command begins with its read clock fixed; a read at a home takes a
lease there and its bytes return to the engine, which puts whole flits into the cell's port; a read at another die leaves as a request on a flow; a write takes ts = max(read clock, rts + 1); an access that
R208 refuses stops the command with that fault, and with it every stage of a region that it fed; a command that has nothing outstanding leaves its queue and raises the queue's order clock; a marker
leaves when it heads every queue that holds it. -/
def Obligations.StreamEngines : Prop :=
  (∀ tile p s c l, ((s.getTile tile).port p).cmd? = some c → s.launch? c.owner = some l → p < 4 → c.begun = false → c.runsOn l = true →
    l.st ≠ .stopping → l.st ≠ .ending → (s.getTile (l.region.headD tile)).sbuf = [] → s.sideBusy c = false →
    (s.portOk c = true → c.empty = false → ∃ t, Runs (.streamBegin tile p) s t ∧
      (t.getTile tile).port p = ((s.getTile tile).port p).setCmd { c with
        begun := true, readClk := tsMax c.lclk ((s.getTile tile).port p).order, suspended := false, quiet := 0 } ∧
      t.mem = s.mem ∧ t.cells = s.cells ∧ t.msgs = s.msgs ∧ t.launches = s.launches) ∧
    (s.portOk c = false → Runs (.streamBegin tile p) s (s.streamFault tile p c 0x04 0))) ∧
  (∀ tile p s c l x t u, EngineDue s tile p c l → c.op = 0 → nextPart (c.pat.bytes c.pos (c.pat.flitElems c.pos)) c.done = some x →
    s.partTarget tile p l x .r plainType = .ok t u → t.ty = 0 → t.home = tileDie tile → u.homeOpen t.flat = true →
    let lim := c.readClk.toNat + (u.getTile (l.region.headD tile)).spr.lease.toNat
    let h := (u.fillLine t.flat).lineTs t.flat
    lim < 2 ^ 32 → Runs (.streamLineAccess tile p) s
      (((((u.fillLine t.flat).setLineTs t.flat h.1 (tsMax h.2 (BitVec.ofNat 32 lim))).send t.home 100 (tileDie tile)
        (seqAgent (l.region.headD tile)) c.owner (.streamRet (portNo tile p) x.places 0 (x.gather fun o => memRead s.mem (t.flat + o) 1)
          (c.ordered t))).asked tile p c.owner x).touch c.owner)) ∧
  (∀ tile p s c l x t u, EngineDue s tile p c l → c.op = 0 → nextPart (c.pat.bytes c.pos (c.pat.flitElems c.pos)) c.done = some x →
    s.partTarget tile p l x .r plainType = .ok t u → t.ty = 0 → t.home ≠ tileDie tile → u.rebasing = false →
    u.room (tileDie tile) (tileLocal tile) t.home 1 = true →
    let lim := c.readClk.toNat + (u.getTile (l.region.headD tile)).spr.lease.toNat
    Runs (.streamLineAccess tile p) s (((u.send (tileDie tile) (tileLocal tile) t.home (seqAgent (l.region.headD tile)) c.owner
      (.streamReq (portNo tile p) 0 x.bytes 0 t.home t.flat lim (c.ordered t))).asked tile p c.owner x).touch c.owner)) ∧
  (∀ tile p s c l x f, EngineDue s tile p c l → c.op = 0 → nextPart (c.pat.bytes c.pos (c.pat.flitElems c.pos)) c.done = some x →
    s.partTarget tile p l x .r plainType = .fault f → Runs (.streamLineAccess tile p) s (s.streamFault tile p c f (x.va + x.span.1))) ∧
  (∀ (s : State) tile k c cause va l, c.op = 0 ∨ c.op = 2 → s.launch? c.owner = some l → l.run = true →
    ∃ l', (s.streamFault tile k c cause va).launch? c.owner = some l' ∧ l'.halted = true) ∧
  (∀ (s : State) c u l, s.owner? (cellTile c) = some u → s.launch? u = some l → l.halted = true → s.cellFires c = false) ∧
  (∀ tile p s c l x t u v, EngineDue s tile p c l → c.op = 4 → nextPart (run64 (c.d.toNat + c.pos) c.piece.2) c.done = some x →
    s.partTarget tile p l x .w plainType = .ok t u → t.ty = 0 → t.home = tileDie tile → u.rebasing = false → u.homeOpen t.flat = true →
    u.streamLand tile p (seqAgent (l.region.headD tile)) c.owner (u.runOf c.owner) 0 t.flat x.lineMask
      (x.scatter (BitVec.ofNat 512 (packBits 64 (List.replicate 8 c.s.toNat)))) c.readClk = some v →
    Runs (.streamLineAccess tile p) s ((v.wrote tile p c.owner x 0).touch c.owner)) ∧
  (∀ tile p s c l, EngineDue s tile p c l → c.op = 4 → nextPart (run64 (c.d.toNat + c.pos) c.piece.2) c.done = none →
    Runs (.streamLineAccess tile p) s (s.modHead tile p c.owner fun c =>
      if c.t.toNat ≤ c.pos + c.piece.2 then c.finished else c.nextPiece (c.pos + c.piece.2))) ∧
  (∀ tile p s c l x r, EngineDue s tile p c l → c.op = 1 → c.has 3 = false → (s.cp c.cell).link lkSout = x :: r → x.beat = false →
    s.cellFeeds c.cell = true → x.marked = false →
    Runs (.streamLineAccess tile p) s (((s.modCp c.cell fun q => q.setLink lkSout r).modHead tile p c.owner fun c =>
      { (c.keep 0 x.data).keep 3 ((if x.isSide then (0 : BitVec 3) else x.mark).setWidth 512 + 1) with quiet := 0, done := 0 }).touch c.owner)) ∧
  (∀ (s : State) tile p agent owner run flat mask d clk, Memory.wf s.mem = true →
    max clk.toNat (((s.fillLine flat).lineTs flat).2.toNat + 1) < 2 ^ 32 →
    ∃ t, s.streamLand tile p agent owner run 0 flat mask d clk = some t ∧
      (∀ o, o < 64 → memByte t.mem (flat + o) = if mask.testBit o then lineByte d o else memByte s.mem (flat + o)) ∧
      (∀ a, (a < flat ∨ flat + 64 ≤ a) → memByte t.mem a = memByte s.mem a) ∧
      (t.lineTs flat).1.toNat = max clk.toNat (((s.fillLine flat).lineTs flat).2.toNat + 1) ∧ (t.lineTs flat).2 = (t.lineTs flat).1) ∧
  (∀ k s m pn mask d o c l, s.msgs[k]? = some m → m.kind = .streamRet pn mask 0 d o → m.arrived = true → s.headOf (pn / 4) (pn % 4) m.owner = some c →
    s.launch? m.owner = some l → l.frozen = false → (c.bound && l.emptied && !c.has 3) = false →
    let v := mergePlaces (smGet 0 c.buf 0) d mask
    (c.op = 0 → nextPart (c.pat.bytes c.pos (c.pat.flitElems c.pos)) c.done = none → l.run = true → l.drain = none →
      s.cellFeeds c.cell = true → c.awake l = true → s.portFree c = true →
      Runs (.streamReadReturn k) s (((s.dropMsg k).feed (pn / 4) (pn % 4) c v).touch m.owner)) ∧
    (c.op = 5 → Runs (.streamReadReturn k) s (((s.dropMsg k).modHead (pn / 4) (pn % 4) m.owner fun c =>
      { c.keep 0 v with reading := false, done := c.done, quiet := 0 }).touch m.owner))) ∧
  (∀ tile p s c l, ((s.getTile tile).port p).cmd? = some c → s.launch? c.owner = some l → p < 4 → c.begun = true → c.cut = true →
    c.reading = false → c.waiting = 0 → l.frozen = false → c.dep = none →
    ∃ t, Runs (.streamPerformed tile p) s t ∧ (t.getTile tile).port p = { (s.getTile tile).port p with
        entries := ((s.getTile tile).port p).entries.drop 1, order := tsMax ((s.getTile tile).port p).order c.maxTs, ld := LoadSt.empty } ∧
      t.mem = s.mem ∧ t.cells = s.cells ∧ t.msgs = s.msgs) ∧
  (∀ tile id s u l p r, s.owner? tile = some u → s.launch? u = some l → l.region = [tile] → p < 4 →
    ((s.getTile tile).port p).entries = .fence id :: r →
    (∀ q, q < 4 → q ≠ p → ∀ e ∈ ((s.getTile tile).port q).entries, e.isFence id = false) →
    ∃ t, Runs (.qfenceRelease tile id) s t ∧ ((t.getTile tile).port p).entries = r ∧
      ((t.getTile tile).port p).order = tsMax 0 ((s.getTile tile).port p).order ∧
      (∀ q, q ≠ p → (t.getTile tile).port q = (s.getTile tile).port q) ∧ t.mem = s.mem) ∧
  (∀ tile p s c l x u, EngineDue s tile p c l → c.op = 6 → c.has 4 = true → c.kvOk = true → c.kvPieces ≤ c.pos → c.waiting = 0 →
    s.flowsAcked [tile] false = true → nextPart (run64 (c.d.toNat + 24) 4) 0 = some x →
    s.streamWrite tile p l c x (BitVec.ofNat 512 (c.kv 24 4 + c.kvList.length)) = .done u →
    Runs (.kvcLengthWrite tile p) s ((u.modHead tile p c.owner Cmd.finished).touch c.owner))

/-- R60, R90, R116, R193, R223: a direct access performs at its target in its agent's order there: a write changes the bytes it names and no others, a
read returns them; lane registers of a V-cell are plane-private and stand apart from memory; a write of 1 to CVST clears a flag that was not set in
the same clk. -/
def Obligations.DirectAccesses : Prop :=
  (∀ k s m ty home flat n d, s.msgs[k]? = some m → m.kind = .access ty home flat n true d → (ty = 4 ∨ ty = 5) → s.directTurn k m = true →
    Memory.wf s.mem = true →
    ∃ t, Runs (.directAccess k) s t ∧ t.msgs = removeAt s.msgs k ∧
      (∀ i, i < n → t.directByte ty (flat + i) = BitVec.ofNat 8 (d.toNat / 256 ^ i)) ∧
      (∀ a, (a < flat ∨ flat + n ≤ a) → t.directByte ty a = s.directByte ty a ∧ memByte t.mem a = memByte s.mem a) ∧ t.tiles = s.tiles ∧
      t.dies = s.dies ∧ ((∀ i, i < n → laneAt ty (flat + i) = none) → t.cells = s.cells)) ∧
  (∀ k s m ty home flat n d, s.msgs[k]? = some m → m.kind = .access ty home flat n false d → (ty = 4 ∨ ty = 5) → s.directTurn k m = true →
    replyDie m.die m.agent = m.die →
    ∃ t, Runs (.directAccess k) s t ∧ t.msgs = removeAt s.msgs k ∧ (∀ a, memByte t.mem a = memByte s.mem a) ∧
      smFind (t.ldOf m.agent).lines flat = some (BitVec.ofNat 512 (s.directRead ty flat n)) ∧ (t.ldOf m.agent).waiting = false) ∧
  (∀ (s : State) ty flat n i, i < n → s.directRead ty flat n / 256 ^ i % 256 = (s.directByte ty (flat + i)).toNat) ∧
  (∀ (s : State) ty a, ty ≠ 3 → laneAt ty a = none → s.directByte ty a = memByte s.mem a) ∧
  (∀ (s : State) a c r i, laneAt 4 a = some (c, r, i) → s.directByte 4 a = lineByte (smGet 0 (s.cp c).lregs r) i ∧ isVCell c = true ∧
    48 ≤ r ∧ r < 64 ∧ a = cellBase c + 64 * r + i ∧ i < 64) ∧
  (∀ cell (v : BitVec 32) s, ∃ t, Runs (.cvstWrite cell v) s t ∧
    (t.cp cell).cvst = (s.cp cell).cvst &&& ~~~(v &&& 7 &&& ~~~(s.cp cell).cvstSet s.clk) ∧ t.mem = s.mem ∧ t.tiles = s.tiles)

/-- A token stands at its cell with its turn come, and nothing holds it (R119, R131, R308, R315). -/
def Sys2Proof.Claims.AtSlot (s : State) (k : Nat) (t : NetTok) (c : Nat) : Prop :=
  s.net[k]? = some t ∧ t.arrived = true ∧ c = destCell t.tok.dest ∧ (t.pred = false → t.pos = c) ∧ (t.pred = true → t.tok.predOk = true) ∧
  s.tokFirst k t = true ∧ s.dueFirst k t = true ∧
  s.frozenLevel t = false ∧ s.deadCtx c t.tok.ctx = false ∧ (s.t2sOn c = true → t.tok.slot ≠ 62) ∧
  ((s.owner? (cellTile c)).isSome = true → s.cellGoes c = true)

/-- R129 to R131, R134, R135, R315, R342: a token hops along its row first, then its column; it enters the matching store of its slot in
order, a second sticky L of a context in place of the first; a token that its slot refuses is dropped with the fault that names why; one that a
frozen level claims goes to the hold buffer; a QUEUE slot appends to its channel; a parity failure drops, logs and faults. -/
def Obligations.TokensMoveAndArrive : Prop :=
  (∀ k s t, s.net[k]? = some t → t.pred = false → t.arrived = true → t.pos ≠ destCell t.tok.dest → s.tokGoes t = true →
    (∀ x ∈ s.net.take k, x.pos ≠ t.pos) →
    ((t.tok :: t.more).all Token.parityOk = true → ∃ n, Runs (.tokenHop k false) s n ∧
      n.net = listSet s.net k { t with pos := nextHop t.pos (destCell t.tok.dest) } ∧ n.mem = s.mem ∧ n.cells = s.cells) ∧
    (let n := nextHop t.pos (destCell t.tok.dest)
     Runs (.tokenHop k true) s ((((s.plog n (portFrom t.pos n) 0xC2).dropTok k).faultLaunch t.owner 0xC2 (cellTile n) 0).touchTok t.owner))) ∧
  (∀ k s t c w, AtSlot s k t c → (s.cp c).filter t = .pass [w] t.tok.fmt 0 (smGet 0 (s.cp c).lfsr 63) → w = t.tok.data →
    ((s.cp c).slot t.tok.slot.toNat).kind ∈ [1, 2, 3] → (s.cp c).entries + 1 + t.more.length ≤ 128 →
    let f := (s.cp c).slot t.tok.slot.toNat
    let sticky := f.kind == 1 && f.sticky && t.tok.field == 0
    ∃ n, Runs (if t.pred then .predicateFlitArrive k false else .tokenArrive k) s n ∧ n.net = removeAt s.net k ∧ n.mem = s.mem ∧
      (n.cp c).store = (if sticky then (s.cp c).store.filter fun e => !(e.sticky && e.tok.slot == t.tok.slot && e.tok.ctx == t.tok.ctx)
        else (s.cp c).store) ++ [⟨Token.seal t.tok, t.more, sticky, s.stamp, s.stamp, false⟩]) ∧
  (∀ k s t c cause, AtSlot s k t c → (s.cp c).filter t = .drop cause →
    Runs (if t.pred then .predicateFlitArrive k false else .tokenArrive k) s (s.tokFault k t c cause)) ∧
  (∀ k s t, s.net[k]? = some t → t.pred = true → t.arrived = true →
    let c := destCell t.tok.dest
    (t.tok.predOk = false → Runs (.predicateFlitArrive k false) s
      ((((s.plog c 4 0xC3).dropTok k).faultLaunch t.owner 0xC3 (cellTile c) 0).touchTok t.owner)) ∧
    Runs (.predicateFlitArrive k true) s ((((s.plog c 4 0xC3).dropTok k).faultLaunch t.owner 0xC3 (cellTile c) 0).touchTok t.owner)) ∧
  (∀ k s t c, s.net[k]? = some t → t.pred = false → t.arrived = true → c = destCell t.tok.dest → t.pos = c → s.tokFirst k t = true →
    s.dueFirst k t = true → s.frozenLevel t = true → (smGet [] (s.getCell c).hold t.tok.ctx.toNat).length < 32 →
    ∃ n, Runs (.tokenArrive k) s n ∧ n.net = removeAt s.net k ∧ n.mem = s.mem ∧
      smGet [] (n.getCell c).hold t.tok.ctx.toNat = smGet [] (s.getCell c).hold t.tok.ctx.toNat ++ [t]) ∧
  (∀ (p : CellPlane) t, (p.slot t.tok.slot.toNat).kind = 0 → p.filter t = .drop 0x41) ∧
  (∀ k s t c, AtSlot s k t c → t.pred = false → ((s.cp c).slot t.tok.slot.toNat).kind = 4 → t.tok.field ≠ 3 →
    (s.cp c).filter t = .pass [t.tok.data] t.tok.fmt 0 (smGet 0 (s.cp c).lfsr 63) →
    let q := ((s.cp c).slot t.tok.slot.toNat).chan
    ((s.cp c).chan q).length < 16 →
    ∃ n, Runs (.queueAppend k) s n ∧ n.net = removeAt s.net k ∧ n.mem = s.mem ∧
      (n.cp c).chan q = (s.cp c).chan q ++ [⟨t.tok.data, t.tok.fmt, t.tok.ctx, s.stamp⟩])

/-- R121, R129, R132 to R134, R164: the slots that act without the issue slot. A false predicate consumes its firing; STEER forwards L to the entry
its predicate names, MERGE the input it names, the earliest ready of several (the model's choice, log 136); an entry of net PRED sends the value alone; CONVERT sends what it converts; a control token is absorbed, or turned through the entries. -/
def Obligations.SlotsThatForward : Prop :=
  (∀ c i s f, isTCell c = true → s.cellFeeds c = true → ((s.cp c).slot i).kind = 1 → ((s.cp c).ready i).find? (fun f => !f.pred) = some f →
    Runs (.falsePAbsorb c i) s ((s.modCp c fun p => p.consume (f.inputs.map (·.seq))).touchTok (s.cellUnit c))) ∧
  (∀ c i s x e u, isTCell c = true → s.cellFeeds c = true → ((s.cp c).slot i).kind = 2 → earliest ((s.cp c).ready i) = some x → x.l = some e →
    (s.modCp c fun p => p.consume (x.inputs.map (·.seq))).forward c
      (s.entry c (if x.pred then ((s.cp c).slot i).tdest else ((s.cp c).slot i).fdest)) e.tok.tag e.tok.fmt e.tok.aux [e.tok.data] = some u →
    Runs (.steerFire c i) s (u.touchTok (s.cellUnit c))) ∧
  (∀ c i s q e u, isTCell c = true → s.cellFeeds c = true → ((s.cp c).slot i).kind = 3 →
    earliestPair (((s.cp c).waitingAt i 2).filterMap fun q =>
      (firstWith ((s.cp c).waitingAt i (if bitOf q.tok.data.toNat 0 then 0 else 1)) q.tok).map fun e => (q, e)) = some (q, e) →
    (s.modCp c fun p => p.consume [q.seq, e.seq]).forward c (s.entry c ((s.cp c).slot i).tdest) e.tok.tag e.tok.fmt e.tok.aux [e.tok.data] = some u →
    Runs (.mergeFire c i) s (u.touchTok (s.cellUnit c))) ∧
  (∀ xs x, earliestPair xs = some x → x ∈ xs ∧ ∀ y ∈ xs, max x.1.ord x.2.ord ≤ max y.1.ord y.2.ord) ∧
  (∀ (s u : State) c e (g : Tag) fmt aux d, e.valid = true → e.net = 1 → e.tagop = 1 → tileDie (cellTile c) = cellDie (destCell e.cell) →
    s.forward c e g fmt aux [d] = some u →
    ∃ x, u.net = s.net ++ [x] ∧ x.pred = true ∧ x.tok.predOk = true ∧ x.tok.dest = e.cell ∧ x.tok.ctx = g.ctx ∧ x.tok.iter = g.iter ∧
      x.tok.lvl = g.lvl ∧ x.tok.field = 2 ∧ x.tok.slot = BitVec.ofNat 6 e.slot ∧ x.tok.data = d &&& 1) ∧
  (∀ (s u : State) c e (g : Tag) fmt aux d, e.valid = true → e.net ≠ 1 → e.tagop = 1 → tileDie (cellTile c) = cellDie (destCell e.cell) →
    s.forward c e g fmt aux [d] = some u →
    ∃ x, u.net = s.net ++ [x] ∧ x.tok.dest = e.cell ∧ x.tok.ctx = g.ctx ∧ x.tok.iter = g.iter ∧ x.tok.lvl = g.lvl ∧ x.tok.fmt = fmt ∧
      x.tok.aux = aux ∧ x.tok.data = d ∧ x.tok.slot = BitVec.ofNat 6 e.slot ∧ x.tok.field = BitVec.ofNat 2 e.field ∧ x.pos = c) ∧
  (∀ k s t c w l u, AtSlot s k t c → t.pred = false → ((s.cp c).slot t.tok.slot.toNat).kind = 5 → t.tok.field ≠ 3 →
    (s.cp c).filter t = .pass [w] t.tok.fmt 0 l → t.tok.fmt ≠ 7 → ((s.cp c).slot t.tok.slot.toNat).cfmt ≠ 7 →
    ((s.owner? (cellTile c)).isSome = true → s.cellFeeds c = true) →
    let f := (s.cp c).slot t.tok.slot.toNat
    let r := convTok f t.tok.fmt.toNat w l
    ((s.dropTok k).tokConverted c r.2.1 r.2.2).forward c (s.entry c f.tdest) t.tok.tag (BitVec.ofNat 3 f.cfmt) t.tok.aux r.1 = some u →
    Runs (.convertFire k) s (u.touchTok (s.cellUnit c))) ∧
  (∀ c i s e, isTCell c = true → s.cellGoes c = true → (((s.cp c).slot i).kind = 1 ∨ ((s.cp c).slot i).kind = 4) →
    (s.cp c).store.find? (fun e => e.tok.slot.toNat == i && e.tok.field == 3 && (s.cp c).turn i e) = some e →
    Runs (.controlTokenAbsorb c i) s ((s.modCp c fun p => p.consume [e.seq]).touchTok (s.cellUnit c))) ∧
  (∀ c i s e, isTCell c = true → s.cellFeeds c = true → (((s.cp c).slot i).kind = 3 ∨ ((s.cp c).slot i).kind = 5) →
    (s.cp c).store.find? (fun e => e.tok.slot.toNat == i && e.tok.field == 3 && (s.cp c).turn i e) = some e →
    let d := s.entry c ((s.cp c).slot i).tdest
    let x := s.throughEntry c d e.tok.tag e.tok.fmt e.tok.aux true [e.tok.data]
    let u := s.modCp c fun p => p.consume [e.seq]
    d.valid = true → d.net ≠ 1 → u.placesFor [x] = true → u.tokRoom [x] = true →
    Runs (.controlTokenTurn c i) s ((u.sendToks [x]).touchTok (s.cellUnit c)))

/-- R119, R136 to R142, R157: a firing starts with the operands, tag and predicate of the inputs that matched first; tags are granted in the order
the block named them; a commit makes the local stores visible, sends the tokens, hands the global stores to the store buffer, adds the block's
LCLKADV and ends the block. -/
def Obligations.FiringsAndCommits : Prop :=
  (∀ c s f g, s.mayStart c = true → earliest (s.cp c).firings = some f → f.inputs ≠ [] → (∀ e ∈ f.inputs, e.tok.tag = g) →
    ∃ t b, Runs (.firingStart c) s t ∧ (t.getCell c).block = some b ∧ b.slot = BitVec.ofNat 6 f.slot ∧ b.pc = ((s.cp c).slot f.slot).entry ∧
      b.tag = g ∧ b.l = inputVal f.l ∧ b.r = inputVal f.r ∧ b.issued = 0 ∧ b.emits = [] ∧ b.lstores = [] ∧ b.gstores = [] ∧
      b.inputs = f.inputs.map (·.seq) ∧ b.p = (match f.p with | some e => bitOf e.tok.data.toNat 0 | none => false) ∧
      (t.cp c).store.length = (s.cp c).store.length) ∧
  (∀ c s b e g tags ctxs, (s.getCell c).block = some b → s.cellFeeds c = true → b.exiting.isSome = true → b.committing = false →
    b.emits.find? (fun e => e.grant.isNone) = some e → s.tagOpAt c e.tagop.toNat b.tag = .ok g tags ctxs →
    Runs (.tagGrant c) s (((s.setPools c tags ctxs).modCell c fun x => { x with
      block := some { b with emits := b.emits.map fun y => if y.group = e.group then { y with grant := some (g.ctx, g.iter, g.lvl) } else y } }).touchCell c)) ∧
  (∀ c s b keep, (s.getCell c).block = some b → b.committing = false → b.exiting = some keep → s.cellFeeds c = true →
    b.emits.all (·.grant.isSome) = true → b.fenceRel = none → b.syncs = [] → (s.sbufOf (cellAgent c)).length + b.gstores.length ≤ 4 →
    (s.lclk (cellTile c)).toNat + b.lclkAdv < 2 ^ 32 →
    let toks := (s.localCommit c b).blockToks c b
    s.placesFor toks = true → s.tokRoom toks = true → (∀ x ∈ toks, cellDie (destCell x.tok.dest) = cellDie c) →
    ∃ t, Runs (.blockCommit c) s t ∧ (t.getCell c).block = none ∧ t.net = s.net ++ toks ∧ t.mem = (s.localCommit c b).mem ∧
      (t.getCell c).sbuf = (s.getCell c).sbuf ++ (b.gstores.map fun e => { e with run := s.runOf e.owner }) ∧ t.lclk (cellTile c) = BitVec.ofNat 32 ((s.lclk (cellTile c)).toNat + b.lclkAdv) ∧
      ∀ e ∈ (t.cp c).store, b.inputs.contains e.seq = true → e.sticky = false → bitOf keep.toNat e.tok.field.toNat = true ∧ e.busy = false) ∧
  (∀ (s : State) c b a, (∀ x ∈ b.lstores, cellBase c + x.1 ≠ a) →
    memByte (s.localCommit c b).mem a = memByte s.mem a) ∧
  (∀ (tags : List TagEnt) ctxs ctx lvl parent first, credit tags ctx lvl < 1 → allocTag tags ctxs ctx lvl parent first = .wait) ∧
  (∀ tags ctxs g, g.lvl = 7 → tagOp tags ctxs 4 g = .fault 0x44) ∧ (∀ tags ctxs g, g.lvl = 0 → tagOp tags ctxs 5 g = .fault 0x44)

/-- R124, R125, R162, R163, R186: the seam converters: an S2T takes a flit and sends its eight tokens, stamped with the call level's context and n0,
and a control token after a mark; a T2S gathers tokens of one format and tag into a flit and closes it at eight or at a control token. -/
def Obligations.SeamConverters : Prop :=
  (∀ c s x r, s.s2tOn c = true → s.cellGoes c = true → (s.cp c).s2t.flit = none → (s.cp (c - 1)).box 1 = x :: r → x.beat = false →
    x.isSide = false → x.tag ≠ 7 →
    Runs (.s2tTake c) s (((s.modCp (c - 1) fun p => p.setBox 1 r).touchTok (s.cellUnit c)).modCp c fun p =>
      { p with s2t := { (s.cp c).s2t with flit := some x, next := 0 } })) ∧
  (∀ c s x r, s.s2tOn c = true → s.cellGoes c = true → (s.cp c).s2t.flit = none → (s.cp (c - 1)).box 1 = x :: r → x.beat = false →
    x.isSide = false → x.tag = 7 → (s.cp c).s2t.side = none →
    Runs (.s2tTake c) s (((s.modCp (c - 1) fun p => p.setBox 1 r).touchTok (s.cellUnit c)).faultCell c 0xA5 0)) ∧
  (∀ c s x u, s.s2tOn c = true → s.cellFeeds c = true → (s.cp c).s2t.flit = some x → (s.cp c).s2t.next < 7 → x.tag ≠ 7 →
    s.forward c (s.entry c 62) (s.stampTag c) x.fmt 0 [x.data.extractLsb' (64 * (s.cp c).s2t.next) 64] = some u →
    Runs (.s2tSend c) s ((u.modCp c fun p => { p with s2t := { (s.cp c).s2t with next := (s.cp c).s2t.next + 1 } }).touchTok (u.cellUnit c))) ∧
  (∀ (s : State) c u l, s.owner? (cellTile c) = some u → s.launch? u = some l →
    s.stampTag c = ⟨if l.depth = 0 then 0 else BitVec.ofNat 8 (256 - l.depth), (s.getTile (l.region.headD 0)).n[0].index.setWidth 10, 0⟩) ∧
  (∀ k s t c, s.net[k]? = some t → t.pred = false → t.arrived = true → c = destCell t.tok.dest → t.pos = c → s.t2sOn c = true →
    t.tok.slot = 62 → (s.cp c).t2s.closed = false → s.tokFirst k t = true → s.dueFirst k t = true → s.frozenLevel t = false → s.deadCtx c t.tok.ctx = false →
    t.more = [] →
    let q := (s.cp c).t2s
    let took (x : T2S) : State := ((s.dropTok k).modCp c fun p => { p with t2s := x }).touchTok (s.cellUnit c)
    (t.tok.field = 0 → t.tok.fmt ≠ 7 → q.toks = [] ∨ (q.fmt = t.tok.fmt ∧ q.ctx = t.tok.ctx ∧ q.iter = t.tok.iter) →
      Runs (.t2sTake k) s (took { q with
        toks := q.toks ++ [t.tok.data], fmt := t.tok.fmt, ctx := t.tok.ctx, iter := t.tok.iter, closed := decide (q.toks.length = 7), mark := 0 })) ∧
    (t.tok.field = 3 → Runs (.t2sTake k) s (took { q with
      closed := true, mark := t.tok.aux.setWidth 3, fmt := if q.toks.isEmpty then t.tok.fmt else q.fmt }))) ∧
  (∀ c s, s.t2sOn c = true → s.cellGoes c = true → (s.cp c).t2s.closed = true →
    (s.cp (c - 1)).boxRoom ((s.cp (c - 1)).named 2) = true →
    Runs (.t2sSend c) s (((s.modCp (c - 1) fun p => p.intoBox ((s.cp (c - 1)).named 2) (s.cp c).t2s.flitOf).modCp c fun p =>
      { p with t2s := { (s.cp c).t2s with toks := [], closed := false, mark := 0 } }).touchTok (s.cellUnit c)))

/-- A drain beat goes in behind the last data at a cell's stream port, if that port is a source (R170). -/
def Sys2Proof.Claims.beatAtSource (l : Launch) (s : State) (c : Nat) : State :=
  match smFind s.cells c with
  | some x =>
    if (smGet CellPlane.reset x.planes l.activePlane).portSource c then s.modCp c fun p => p.setLink lkSin (p.link lkSin ++ [beatFlit]) else s
  | none => s

/-- R65, R170 to R173: a run ends once its commands have performed and its region is empty; a drain's first pass begins at the stream-port
sources; a beat at a stage of one source goes on behind the flits ahead of it, and at a join the flit beside it is an orphan; so is a code flit whose
side flit no stream delivers any more, and a flit that a stopped stage holds (the model's choices, log 60); settling counts what remains; the drain completes after a settling at which no T2S sends a beat, and keeps its count for the unit. -/
def Obligations.DrainsComplete : Prop :=
  (∀ u s l, s.launch? u = some l → l.run = true → l.goes = true → l.callStage = 0 → (∀ c ∈ s.cmdsOf u, (c.bound && c.awake l) = false) →
    s.regionQuiet l = true → Runs (.runEnd u) s (s.modLaunch u fun l => { l with run := false })) ∧
  (∀ u s l why n, s.launch? u = some l → l.drain = some ⟨why, false, false, n⟩ → l.goes = true →
    Runs (.drainPassStart u) s (((l.cells.foldl (beatAtSource l) s).modDrain u fun d => { d with started := true }).touch u)) ∧
  (∀ (s : State) l c, (smFind s.cells c = none → beatAtSource l s c = s) ∧
    ∀ x, smFind s.cells c = some x → beatAtSource l s c =
      if (smGet CellPlane.reset x.planes l.activePlane).portSource c then s.modCp c fun p => p.setLink lkSin (p.link lkSin ++ [beatFlit]) else s) ∧
  (∀ c s u l n k, s.cellUnit c = u → s.launch? u = some l → l.drain.isSome = true → s.cellGoes c = true → isVCell c = true → 1 ≤ n → n ≤ 6 →
    (stageF ((s.cp c).stage 2)).op < 0xE0 → ((s.cp c).stageFields n).streams = [(false, k)] → k = 1 →
    s.drainHead c n (false, 1) = .flit beatFlit → s.starved c n (false, 1) = none → (s.cp c).dstFree n = true →
    smGet [] (s.cp c).pend n = [] → (n = 2 → (s.cp c).bank = none) →
    let side := ((s.clearOuts c n).2.popRaw c n 1 ((s.cp c).stageFields n).k).dropSide c n [(false, 1)]
    let part := side.2.clearPart c n
    Runs (.drainBeat c n) s (((part.2.2.emitOuts c n (part.2.1 ++ [(beatFlit, 0)])).orphan u (side.1 + part.1)).touch u)) ∧
  (∀ c s u l n k t, s.cellUnit c = u → s.launch? u = some l → l.drain.isSome = true → s.cellGoes c = true → isVCell c = true → 1 ≤ n → n ≤ 6 →
    (stageF ((s.cp c).stage 2)).op < 0xE0 → ((s.cp c).stageFields n).streams = [(false, k)] → s.starved c n (false, k) = some t →
    Runs (.drainBeat c n) s ((t.orphan u 1).touch u)) ∧
  (∀ c s u l n k x, s.cellUnit c = u → s.launch? u = some l → l.drain.isSome = true → s.cellGoes c = true → isVCell c = true → 1 ≤ n → n ≤ 6 →
    (stageF ((s.cp c).stage 2)).op < 0xE0 → ((s.cp c).stageFields n).streams = [(false, k)] → s.starved c n (false, k) = none →
    l.halted = true → s.drainHead c n (false, k) = .flit x → x.beat = false →
    Runs (.drainBeat c n) s (((s.pop c n false).orphan u 1).touch u)) ∧
  (∀ c s u l n a b x, s.cellUnit c = u → s.launch? u = some l → l.drain.isSome = true → s.cellGoes c = true → isVCell c = true → 1 ≤ n → n ≤ 6 →
    (stageF ((s.cp c).stage 2)).op < 0xE0 → ((s.cp c).stageFields n).streams = [(false, a), (true, b)] →
    (s.drainHead c n (false, a)).beat = true → s.drainHead c n (true, b) = .flit x → x.beat = false →
    s.starved c n (false, a) = none → s.starved c n (true, b) = none →
    Runs (.drainBeat c n) s (((s.pop c n true).orphan u 1).touch u)) ∧
  (∀ u s l why n, s.launch? u = some l → l.drain = some ⟨why, true, false, n⟩ → l.goes = true → s.beatsIn l = false →
    Runs (.tokenFabricSettle u) s (s.modLaunch u fun l => { l with still := 0, drain := some ⟨why, true, true, n⟩ })) ∧
  (∀ u s l why n, s.launch? u = some l → l.drain = some ⟨why, true, true, n⟩ → l.goes = true → (s.tokensIn l = false ∨ 256 ≤ l.still) →
    Runs (.tokenFabricSettle u) s ((s.settle l).2.2.modDrain u fun d =>
      if (s.settle l).2.1 then { d with orphans := d.orphans + (s.settle l).1, settling := false }
      else { d with orphans := d.orphans + (s.settle l).1, started := false })) ∧
  (∀ u s l why n, s.launch? u = some l → l.drain = some ⟨why, false, true, n⟩ →
    ∃ t m, Runs (.drainComplete u) s t ∧ t.launch? u = some m ∧ m.drain = none ∧ m.drained = true ∧
      (why = .step ∨ why = .host ∨ why = .preempt → m.kept = some (min (l.kept.getD 0 + n) (2 ^ 32 - 1))) ∧
      (why = .stop ∨ why = .cancel → m.kept = l.kept) ∧ (why = .host → m.run = false) ∧
      (∀ d k, d ≠ tileDie (l.region.headD (l.die * 100)) ∨ n = 0 → smFind (t.getDie d).vault k = smFind (s.getDie d).vault k) ∧
      t.homeTs = s.homeTs ∧ t.msgs = s.msgs ∧ t.net = s.net) ∧
  (∀ p : CellPlane, let q := p.emptied
    q.links = [] ∧ q.delays = [] ∧ q.outq = [] ∧ q.store = [] ∧ q.chans = [] ∧ q.fifoTags = [] ∧ q.lineTags = [] ∧ q.accs = [] ∧ q.row = RowSt.empty ∧
    q.pend = [] ∧ q.bank = none ∧
    q.egate = 0 ∧ q.s2t.flit = none ∧ q.t2s.toks = [] ∧ q.stages = p.stages ∧ q.lregs = p.lregs ∧ q.mode = p.mode ∧ q.slots = p.slots ∧ q.dests = p.dests)

/-- R167 to R169, R175: the detector writes the Vault event and a snapshot window if one is free; under policy 0, and with no free window, the launch
faults with 0xE1; under policy 1 its region is held. The host's actions release it; a window that is not held is freed. The watchdog abandons the
step and faults with 0xE0. -/
def Obligations.QuiescenceAndWatchdog : Prop :=
  (∀ u s l, s.launch? u = some l → (l.st = .running ∨ l.st = .pending) → l.held = false → l.frozen = false →
    (s.getTile (l.region.headD 0)).spr.qwcLimit.toNat ≤ l.idle → (s.getTile (l.region.headD 0)).owner = some u →
    let die := tileDie (l.region.headD 0)
    let limit := (s.getTile (l.region.headD 0)).spr.qwcLimit.toNat
    let v := s.vaultUnit u 0x0D 0 0
    (∀ w, v.freeWindow die = some w → l.qwcHold = true →
      Runs (.qwcDetect u) s (((v.writeSnap die w l limit true).interrupt (16 + die)).modLaunch u fun l =>
        { l with held := true, window := some (die, w), idle := 0 })) ∧
    (∀ w, v.freeWindow die = some w → l.qwcHold = false →
      Runs (.qwcDetect u) s (((v.writeSnap die w l limit false).interrupt (16 + die)).faultLaunch u 0xE1 (l.region.headD 0) 0)) ∧
    (v.freeWindow die = none → Runs (.qwcDetect u) s (v.faultLaunch u 0xE1 (l.region.headD 0) 0))) ∧
  (∀ (s : State) die w l limit held, let m := (s.writeSnap die w l limit held).mem
    (die < 16 → Memory.wf s.mem = true → memRead m (snapBase die w) 8 =
      2 ^ 63 + (if held then 2 ^ 60 else 0) + (if (s.snapRecs l).length > 2046 then 2 ^ 59 else 0) + die * 2 ^ 32 + l.id.toNat) ∧
    (∀ a, a < snapBase die w ∨ snapBase die w + 65536 ≤ a → memByte m a = memByte s.mem a)) ∧
  (∀ die w s u l, s.heldBy die w = some (u, l) →
    Runs (.snapshotResume die w) s (s.unhold die w u) ∧
    (l.drain = none → Runs (.snapshotDrain die w) s ((s.unhold die w u).modLaunch u fun l => { l with drain := some ⟨.host, false, false, 0⟩ })) ∧
    Runs (.snapshotFault die w) s ((s.unhold die w u).quiescent u l)) ∧
  (∀ die w s, die < 16 → w < 4 → bitOf (s.snapStat die w) 63 = true → bitOf (s.snapStat die w) 60 = false →
    Runs (.snapshotFree die w) s { s with mem := memWrite s.mem (snapBase die w) 8 0 }) ∧
  (∀ die w s, die < 16 → w < 4 → bitOf (s.snapStat die w) 60 = true → Runs (.snapshotFree die w) s s) ∧
  (∀ u s l, s.launch? u = some l → (l.st = .running ∨ l.st = .pending) → l.frozen = false → (s.getTile (l.region.headD 0)).owner = some u →
    (s.getTile (l.region.headD 0)).spr.wdog.toNat ≤ l.wdog →
    Runs (.watchdog u) s (s.faultLaunch u 0xE0 (l.region.headD 0) (s.getTile (l.region.headD 0)).spc.toNat))

/-- A walk of a die and what it finds (R206). -/
def Sys2Proof.Claims.walkOf (s : State) (die : Nat) (w : Walk) : XRes := walkPage s.mem (s.reg die 0x000).toNat w.vmid w.page

/-- R205 to R207: a waiting walk takes a free slot; a walk that ends fills the translation cache of a tile that waits for it, unless MB is set in the
leaf, and leaves memory alone; an invalidation drops what it names in every tile, waits for stores that have left a buffer where lines are dropped
too, and then its go bit reads 0. -/
def Obligations.WalksAndInvalidations : Prop :=
  (∀ die k s w, (s.getDie die).walks[k]? = some w → w.active = false → (∀ x ∈ (s.getDie die).walks.take k, x.active = true) →
    ((s.getDie die).walks.filter (·.active)).length < 32 →
    Runs (.walkStart die k) s (s.modDie die fun d => { d with walks := listSet d.walks k { w with active := true } })) ∧
  (∀ die slot s w a, (s.getDie die).walks[slot]? = some w → w.active = true → w.waiters = [a] → a < 2 ^ 33 →
    ∃ t, Runs (.walkComplete die slot) s t ∧ (t.getDie die).walks = removeAt (s.getDie die).walks slot ∧ t.mem = s.mem ∧ t.msgs = s.msgs ∧
      t.launches = s.launches ∧ smFind (t.ldOf a).walks (walkKey w.vmid w.page) = some (walkOf s die w) ∧
      (t.getTile (agentTile a)).tlb = ((s.getTile (agentTile a)).fillTlb w.vmid w.page (walkOf s die w)).tlb) ∧
  (∀ (t : Tile) vmid page pte size, bitOf pte.toNat 11 = true → t.fillTlb vmid page (.leaf pte size) = t) ∧
  (∀ die s, s.xinvReady die 0 = true → bitOf (s.reg die 0x110).toNat 63 = false →
    ∃ t, Runs (.xinvPage die) s t ∧ t.mem = s.mem ∧ (t.getDie die).xinvBusy = true ∧ (∀ k, smFind t.tiles k = none ↔ smFind s.tiles k = none) ∧
      ∀ k x, smFind s.tiles k = some x → ∃ y, smFind t.tiles k = some y ∧ y.lines = x.lines ∧ y.a = x.a ∧ y.tlb = x.tlb.filter fun e =>
        !tlbCovers (BitVec.ofNat 16 (s.xinvCtl die)) (bitsOf (s.reg die 0x100).toNat 55 0) (BitVec.ofNat 2 (bitsOf (s.xinvCtl die) 60 59)) e) ∧
  (∀ die s, s.xinvReady die 0 = true → bitOf (s.reg die 0x110).toNat 63 = true →
    let size := BitVec.ofNat 2 (bitsOf (s.xinvCtl die) 60 59)
    let frame := bitsOf (s.reg die 0x110).toNat 51 16 * 2 ^ 16
    (s.storeOut frame (pageBytes size) = true → Runs (.xinvPage die) s s) ∧
    (s.storeOut frame (pageBytes size) = false →
      ∃ t, Runs (.xinvPage die) s t ∧ t.mem = s.mem ∧ (t.getDie die).xinvBusy = true ∧
        ∀ k x, smFind s.tiles k = some x → ∃ y, smFind t.tiles k = some y ∧
          y.lines = x.lines.filter fun e => !(decide (frame ≤ e.1) && decide (e.1 < frame + pageBytes size)))) ∧
  (∀ die s, s.xinvReady die 1 = true →
    ∃ t, Runs (.xinvVmid die) s t ∧ t.mem = s.mem ∧ (t.getDie die).xinvBusy = true ∧ ∀ k x, smFind s.tiles k = some x → ∃ y,
      smFind t.tiles k = some y ∧ y.lines = x.lines ∧ y.tlb = x.tlb.filter fun e => e.vmid != BitVec.ofNat 16 (s.xinvCtl die)) ∧
  (∀ die s, s.xinvReady die 2 = true →
    ∃ t, Runs (.xinvAll die) s t ∧ t.mem = s.mem ∧ (t.getDie die).xinvBusy = true ∧ ∀ k x, smFind s.tiles k = some x → ∃ y,
      smFind t.tiles k = some y ∧ y.lines = x.lines ∧ y.tlb = []) ∧
  (∀ die s, (s.getDie die).xinvBusy = true →
    ∃ t, Runs (.xinvDone die) s t ∧ bitOf (t.reg die 0x108).toNat 63 = false ∧ bitOf (t.reg die 0x110).toNat 63 = false ∧
      (t.getDie die).xinvBusy = false ∧ t.tiles = s.tiles ∧ t.mem = s.mem ∧ ∀ k, k ≠ 0x108 → k ≠ 0x110 → t.reg die k = s.reg die k)

/-- R209 to R211: a migration starts by writing MB into the leaf and queueing accesses; the switch copies the page, lets the leaf name the new frame and
die, and replays; an abort restores the leaf, and replays at the old home. The statuses are those MIG_CTL lists. -/
def Obligations.MigrationMovesPages : Prop :=
  (∀ die s vmid page pte size, die < 16 → bitOf (s.reg die 0x210).toNat 63 = true → (s.getDie die).migration = none →
    vmid = BitVec.ofNat 16 (s.reg die 0x210).toNat → page = bitsOf (s.reg die 0x200).toNat 55 16 →
    walkPage s.mem (s.reg die 0x000).toNat vmid page = .leaf pte size →
    let f := leafTarget pte size (page * 2 ^ 16 / pageBytes size * pageBytes size)
    let dst := bitsOf (s.reg die 0x208).toNat 51 16 * 2 ^ 16
    let la := leafAddr s.mem (s.reg die 0x000).toNat vmid page
    (f.ty = 0 → size ≠ 2 → dst % pageBytes size = 0 → dst < 2 ^ 39 → f.home = die →
      ∃ t, Runs (.migrationStart die) s t ∧ t.mem = memWrite s.mem la 8 (pte.toNat ||| 2 ^ 11) ∧ bitsOf (t.reg die 0x210).toNat 62 60 = 1 ∧
        (t.getDie die).migration = some ⟨la, size, f.flat, dst, homeDie dst, vmid, page, false, false⟩ ∧ t.msgs = s.msgs) ∧
    (f.ty ≠ 0 → Runs (.migrationStart die) s (s.migEnd die 3)) ∧
    (f.ty = 0 → size ≠ 2 → dst % pageBytes size = 0 → dst < 2 ^ 39 → f.home ≠ die → Runs (.migrationStart die) s (s.migEnd die 7)) ∧
    (f.ty = 0 → (size = 2 ∨ dst % pageBytes size ≠ 0 ∨ 2 ^ 39 ≤ dst) → Runs (.migrationStart die) s (s.migEnd die 4))) ∧
  (∀ die s g, die < 16 → bitOf (s.reg die 0x210).toNat 63 = true → (s.getDie die).migration = some g →
    Runs (.migrationStart die) s (s.migEnd die 5)) ∧
  (∀ die s g, (s.getDie die).migration = some g → g.switched = false →
    (∀ m ∈ s.msgs, m.held = false → g.about m = false) →
    ∃ t, Runs (.migrationSwitch die) s t ∧ (t.getDie die).migration = some { g with switched := true } ∧
      t.mem = memWrite (s.copyPage die g).mem g.leafAddr 8
        (setBits (setBits (setBits (BitVec.ofNat 64 (memRead (s.copyPage die g).mem g.leafAddr 8)) 51 16 (g.newFrame / 2 ^ 16)) 59 56 g.newDie) 11 11 0).toNat ∧
      t.msgs = s.msgs.map g.moveMsg ∧ t.homeTs = (s.copyPage die g).homeTs) ∧
  (∀ (s : State) die g a, Memory.wf s.mem = true → a < pageBytes g.size →
    memByte (s.copyPage die g).mem (g.newFrame + a) = memByte s.mem (g.oldFrame + a)) ∧
  (∀ die s g, (s.getDie die).migration = some g → g.switched = true → s.heldPage s.msgs g.newFrame = false →
    (g.aborted = false → Runs (.migrationSwitch die) s ((s.modDie die fun d => { d with migration := none }).migEnd die 2)) ∧
    (g.aborted = true → Runs (.migrationSwitch die) s (s.modDie die fun d => { d with migration := none }))) ∧
  (∀ die s g, (s.getDie die).migration = some g → g.switched = false →
    ∃ t, Runs (.migrationAbort die) s t ∧
      (t.getDie die).migration = some { g with newFrame := g.oldFrame, newDie := die, switched := true, aborted := true } ∧
      t.mem = memWrite s.mem g.leafAddr 8 (setBits (BitVec.ofNat 64 (memRead s.mem g.leafAddr 8)) 11 11 0).toNat ∧
      bitsOf (t.reg die 0x210).toNat 62 60 = 6 ∧ bitOf (t.reg die 0x210).toNat 63 = false ∧ t.msgs = s.msgs) ∧
  (∀ (s : State) die n, n < 8 → bitsOf ((s.migEnd die n).reg die 0x210).toNat 62 60 = n ∧ bitOf ((s.migEnd die n).reg die 0x210).toNat 63 = false)

/-- R81, R227, R256, R328, R343, R344: the Maltster takes a record, refuses a launch that nowhere can be placed with 0xE7, or places the first unit
whose tiles are free; a started unit has a0 and a1 as R12 gives, every other register zero, its SPC at the entry step, and LCLK raised with the
record's WHW. -/
def Obligations.UnitsArePlacedAndStart : Prop :=
  (∀ die s t, die < 16 → (s.getDie die).excluded = false → s.mod.warmBusy = false → s.takeNext die = some t → Runs (.unitPlace die) s t) ∧
  (∀ die s u, die < 16 → (s.getDie die).excluded = false → s.mod.warmBusy = false → s.takeNext die = none → s.unplaceable die = some u →
    Runs (.unitPlace die) s (s.faultLaunch u 0xE7 (die * 100) 0)) ∧
  (∀ die s u l d p, die < 16 → (s.getDie die).excluded = false → s.mod.warmBusy = false → s.takeNext die = none → s.unplaceable die = none →
    s.nextUnit die = some u → s.launch? u = some l → l.st = .waiting → s.placement l = some (d, p) →
    ∃ t m, Runs (.unitPlace die) s t ∧ t.launch? u = some m ∧ m.st = .placed ∧ m.die = d ∧ m.region = p.tiles ∧ m.move = p.move ∧
      (∀ x ∈ p.tiles, (t.getTile x).owner = some u ∧ (t.getTile x).deps = [] ∧ (t.getTile x).spr = (s.getTile x).spr) ∧
      (∀ x, x ∉ p.tiles → t.getTile x = s.getTile x) ∧ t.mem = s.mem ∧ t.cells = s.cells) ∧
  (∀ (s : State) die u, s.nextUnit die = some u → ∃ l ts, (u, l, ts) ∈ s.queueOfUnits ∧ ∀ x ∈ ts, tileDie x = die ∧ s.owner? x = none) ∧
  (∀ (s : State) f die, (s.getDie die).excluded = false → s.badEntries die = [] → s.placeOn f die = some (f.ownPlace die)) ∧
  (∀ u s l lead rest, s.launch? u = some l → l.st = .placed → l.region = lead :: rest →
    (l.startScope = none ∨ ∃ c, l.startScope = some c ∧ s.producerDone l.producer c l.added = true) →
    ∃ t m, Runs (.unitStart u) s t ∧ t.launch? u = some m ∧ m.st = .running ∧ m.start = some (l.start.getD s.timeNs) ∧ m.unitClk = 0 ∧
      (t.getTile lead).spc = BitVec.ofNat 64 l.entry ∧ (t.getTile lead).reg 0 = BitVec.ofNat 64 l.record ∧ (t.getTile lead).reg 1 = l.args ∧
      (∀ r : BitVec 4, r ≠ 0 → r ≠ 1 → (t.getTile lead).reg r = 0) ∧ (∀ i : Fin 4, (t.getTile lead).n[i] = ⟨0, 0⟩) ∧
      (∀ i : Fin 8, (t.getTile lead).m[i] = ⟨0, 0, 0, 0⟩) ∧ (∀ x ∈ l.region, t.lclk x = tsMax (s.lclk x) l.whw) ∧
      (∀ x, x ∉ l.region → t.getTile x = s.getTile x) ∧ t.mem = s.mem)

/-- R67, R82, R226, R249, R323 to R326: a launch is complete once its writes have completed at its release scope and its colophon is written, and then
its phaser is signalled; an energy budget that is reached drops the class by one; the work table's operations answer with the statuses of WORK_CTL and
a cancel ends what it names. -/
def Obligations.LaunchesEndAndCancels : Prop :=
  (∀ u s l, s.launch? u = some l → s.unitOver u l = true → l.service = false →
    (l.writing = true → s.accessOut (seqAgent (l.region.headD 0)) = false → Runs (.launchComplete u) s (s.completeLaunch u l)) ∧
    (l.writing = false → l.signalPending = true → s.signalWaits l = false → Runs (.launchComplete u) s (s.closeLaunch u l)) ∧
    (∀ v w, l.writing = false → l.signalPending = false → (s.dropLevels u).releaseAll u l = (true, v) →
      v.writeColophon u { l with levels := [] } = .done w → Runs (.launchComplete u) s (w.completeLaunch u { l with levels := [] })) ∧
    (∀ v w, l.writing = false → l.signalPending = false → (s.dropLevels u).releaseAll u l = (true, v) → v.writeColophon u { l with levels := [] } = .sent w →
      Runs (.launchComplete u) s (w.modLaunch u fun l => { l with writing := true }))) ∧
  (∀ (s : State) u l, s.signalWaits l = false → s.completeLaunch u l = s.closeLaunch u l) ∧
  (∀ (s : State) u l, ∃ m, (s.closeLaunch u l).launch? u = some m ∧ m.st = .done ∧ m.held = false ∧ m.levels = [] ∧ m.signalPending = false ∧ m.ending = l.ending) ∧
  (∀ u s l, s.launch? u = some l → l.service = false → l.st ≠ .done → l.budget ≤ l.charge →
    Runs (.energyClassDrop u) s ((s.vaultUnit u 0x10 0xE2 0).setLaunch u
      { l with charge := l.charge - l.budget, budget := l.refill, cls := if l.cls = 7 then 7 else l.cls + 1 })) ∧
  (∀ die s, s.workAsked die 0 = true → s.workReserved die = false →
    let n := s.workName die
    let parent := BitVec.ofNat 32 (s.reg die 0x708).toNat
    s.workIdx n.1 n.2.1 n.2.2 = none → s.work.length < 8192 →
    (n.2.1 = 3 ∨ ∃ i w, s.parentIdx n.1 n.2.1 parent = some i ∧ s.work[i]? = some w ∧ w.state = 1) →
    ∃ t, Runs (.workCreate die) s t ∧ t.work.length = s.work.length + 1 ∧ bitsOf (t.reg die 0x718).toNat 60 58 = 1 ∧
      bitOf (t.reg die 0x718).toNat 63 = false ∧
      t.work.getLast? = some ⟨n.1, n.2.1, n.2.2, parent, (s.reg die 0x710).toNat, 1, 0, 0, 0, 0, 0, false⟩ ∧ t.mem = s.mem) ∧
  (∀ die s i w, s.workAsked die 1 = true → s.workReserved die = false →
    s.workIdx (s.workName die).1 (s.workName die).2.1 (s.workName die).2.2 = some i → s.work[i]? = some w → w.state = 1 →
    Runs (.workSeal die) s ((s.modWork i fun w => { w with state := 2 }).workEnd die 1)) ∧
  (∀ die s i w, s.workAsked die 2 = true → s.workReserved die = false →
    s.workIdx (s.workName die).1 (s.workName die).2.1 (s.workName die).2.2 = some i → s.work[i]? = some w → 3 ≤ w.state.toNat →
    (∀ x ∈ s.work, x.childOf w = false) → Runs (.workFree die) s (State.workEnd { s with work := removeAt s.work i } die 1)) ∧
  (∀ k s w, s.work[k]? = some w → w.count = 0 → w.signalled = false → (w.state = 2 ∨ w.state = 4 ∨ w.state = 5) → w.ph = 0 → w.kind = 3 →
    ∃ t, Runs (.workComplete k) s t ∧ t.work[k]? = some { w with signalled := true, state := if w.state = 2 then 3 else w.state } ∧ t.mem = s.mem ∧
      t.launches = s.launches) ∧
  (∀ die s, die < 16 → bitOf (s.reg die 0x748).toNat 63 = true → s.cancelReserved die = false → (s.getDie die).cancelling = none →
    let n := s.cancelName die
    (bitsOf (s.reg die 0x748).toNat 62 60 = 1 → ∀ u, s.liveLaunches (fun l => l.vmid == n.1 && l.id == n.2) = [u] →
      Runs (.cancelLaunch die) s ((s.cancelLaunch u).modDie die fun d => { d with cancelling := some [u] })) ∧
    (bitsOf (s.reg die 0x748).toNat 62 60 = 2 → (s.workIdx n.1 1 n.2).isSome = true →
      Runs (.cancelGraph die) s ((s.cancelGraph n.1 n.2).modDie die fun d => { d with cancelling := some (s.graphLaunches n.1 n.2) })) ∧
    (bitsOf (s.reg die 0x748).toNat 62 60 = 3 → (s.workIdx n.1 2 n.2).isSome = true →
      Runs (.cancelPhase die) s ((s.cancelPhase n.1 n.2).modDie die fun d =>
        { d with cancelling := some ((s.graphsOf n.1 n.2).flatMap (s.graphLaunches n.1)) })) ∧
    (bitsOf (s.reg die 0x748).toNat 62 60 = 4 → (s.workIdx n.1 3 0).isSome = true →
      ∃ t us, Runs (.cancelJob die) s t ∧ (t.getDie die).cancelling = some us ∧
        (∀ u ∈ s.liveLaunches (fun l => l.vmid == n.1 && l.graph == 0), u ∈ us)) ∧
    (bitsOf (s.reg die 0x748).toNat 62 60 = 1 → s.liveLaunches (fun l => l.vmid == n.1 && l.id == n.2) = [] →
      Runs (.cancelLaunch die) s (s.cancelEnd die 2))) ∧
  (∀ (s : State) u l, s.launch? u = some l → l.colophonDone = false → (l.st ≠ .ending ∨ l.ending = .ok) →
    ∃ m, (s.cancelLaunch u).launch? u = some m ∧ m.st = .ending ∧ m.ending = .cancelled ∧ m.cause = 0xE3 ∧ m.faults = 0 ∧ m.run = false)

/-- R265 to R270, R285: a registration answers its status and grants the first tiles; a grant takes a free token tile, gives it half the buckets of the
hottest tile and then writes every header; a shrink passes the last tile's buckets on, writes the headers and releases the tile once it is empty. -/
def Obligations.ActorsGrowAndShrink : Prop :=
  (∀ die s agent u va l rest, (s.getDie die).actReq = (agent, u, va) :: rest → s.launch? u = some l → l.issues = true →
    Runs (.actorRegister die) s ((s.modDie die fun d => { d with actReq := rest }).register u l va)) ∧
  (∀ (s : State) u l va, s.launch? u = some l →
    (l.acting.isSome = true → ∃ m a, (s.register u l va).launch? u = some m ∧ m.actor = some a ∧ a.status = 5 ∧ m.region = l.region) ∧
    (l.acting = none → s.readActor l va = none →
      ∃ m a, (s.register u l va).launch? u = some m ∧ m.actor = some a ∧ a.status = 3 ∧ a.tiles = [] ∧ m.region = l.region) ∧
    (∀ a, l.acting = none → s.readActor l va = some a → 16 < l.region.length + (a.first - 1) →
      ∃ m b, (s.register u l va).launch? u = some m ∧ m.actor = some b ∧ b.status = 6 ∧ b.tiles = []) ∧
    (∀ a, l.acting = none → s.readActor l va = some a → l.region.length + (a.first - 1) ≤ 16 →
      (s.freeTokenTiles l.die a).length < a.first - 1 →
      ∃ m b, (s.register u l va).launch? u = some m ∧ m.actor = some b ∧ b.status = 4 ∧ b.tiles = []) ∧
    (∀ a, l.acting = none → s.readActor l va = some a → l.region.length + (a.first - 1) ≤ 16 →
      a.first - 1 ≤ (s.freeTokenTiles l.die a).length →
      ∃ m b, (s.register u l va).launch? u = some m ∧ m.actor = some b ∧ b.status = 2 ∧
        b.tiles = a.tiles ++ (s.freeTokenTiles l.die a).take (a.first - 1) ∧ b.part = a.part ∧
        m.region = l.region ++ (s.freeTokenTiles l.die a).take (a.first - 1))) ∧
  (∀ u s l a, s.actor? u = some (l, a) → s.launch? u = some l → a.stage = 0 → a.growWin ≤ a.growClk → a.tiles.length < a.most →
    (∀ x r, l.region.length < 16 → s.freeTokenTiles l.die a = x :: r → ∃ t m b, Runs (.actorGrant u) s t ∧ t.launch? u = some m ∧
      m.actor = some b ∧ m.region = l.region ++ [x] ∧ b.tiles = a.tiles ++ [x] ∧ b.stage = 1 ∧ b.growClk = 0 ∧ (t.getTile x).owner = some u) ∧
    (l.region.length < 16 → s.freeTokenTiles l.die a = [] →
      Runs (.actorGrant u) s ((s.actorEvent u 3 a.tiles.length).modActor u fun a => { a with growClk := 0 })) ∧
    (16 ≤ l.region.length → Runs (.actorGrant u) s ((s.actorEvent u 4 a.tiles.length).modActor u fun a => { a with growClk := 0 }))) ∧
  (∀ u s l a, s.actor? u = some (l, a) → s.launch? u = some l → a.stage = 1 →
    ∃ t m b, Runs (.actorGrant u) s t ∧ t.launch? u = some m ∧ m.actor = some b ∧ b.stage = 2 ∧ b.tiles = a.tiles ∧ m.region = l.region ∧
      b.pend = (a.tiles.length - 1) :: List.range (a.tiles.length - 1) ∧ t.mem = s.mem) ∧
  (∀ u s l a i r, s.actor? u = some (l, a) → s.launch? u = some l → a.stage = 2 → a.pend = i :: r →
    (s.getCell (a.cell (a.tiles.getD i 0))).block = none →
    ∃ t m b, Runs (.actorGrant u) s t ∧ t.launch? u = some m ∧ m.actor = some b ∧ b.pend = r ∧ b.stage = (if r = [] then 0 else 2) ∧
      t.mem = (s.writeHeader a i a.tiles.length).mem) ∧
  (∀ u s l a, s.actor? u = some (l, a) → a.stage = 0 → a.shrinkWin ≠ 0 → 2 ≤ a.tiles.length → a.shrinkWin ≤ a.shrinkClk →
    Runs (.actorShrink u) s (s.beginShrink u a)) ∧
  (∀ (a : Actor) n i k, k < a.part.length → (a.pass (a.buckets n) i).part.getD k 0 = if k < 64 ∧ a.part.getD k 0 = n then i else a.part.getD k 0) ∧
  (∀ u s l a, s.actor? u = some (l, a) → s.launch? u = some l → a.stage = 4 → 1 ≤ a.tiles.length →
    let t := a.tiles.getD (a.tiles.length - 1) 0
    let a' := { a with tiles := a.tiles.take (a.tiles.length - 1), stage := 0, growClk := 0, shrinkClk := 0 }
    s.leaves a t = true → (∀ c ∈ a'.cells, (s.getCell c).block = none) → s.owner? t = some u →
    ∃ n m, Runs (.shrinkRelease u) s n ∧ n.launch? u = some m ∧ m.actor = some a' ∧ m.region = l.region.filter (· != t) ∧ n.owner? t = none)

/-- R257, R286: a queue is bound to a unit's actor only if it is OPEN, of kind ACTOR, of the unit's job and on the die; the oldest record of a bound
queue becomes a packet of eight beats at slot s0 of the actor's tile, whose LCLK takes the record's WHW first. The queue that a Maltster serves next
has the lowest class of those that offer it a record. -/
def Obligations.ActorQueues : Prop :=
  (∀ die s agent id u l, s.bindAsked die true = some (agent, u, id) → s.actingUnit u = some l →
    let x := s.queue die (queuePlace id).2
    let o := s.modDie die fun d => { d with bindReq := d.bindReq.drop 1 }
    ((queuePlace id).1 = die → x.state = 1 → x.kind = 2 → x.vmid = l.vmid →
      Runs (.queueBind die) s (o.setQueue die (queuePlace id).2 { x with boundTo := some u })) ∧
    ((queuePlace id).1 ≠ die ∨ x.state ≠ 1 ∨ x.kind ≠ 2 ∨ x.vmid ≠ l.vmid →
      Runs (.queueBind die) s (o.vault die ⟨0x11, 0x85, 0, placeTile (agentTile agent), l.id.toNat, l.vmid.toNat, 0⟩))) ∧
  (∀ die s agent id u l, s.bindAsked die false = some (agent, u, id) → s.actingUnit u = some l →
    let x := s.queue die (queuePlace id).2
    let o := s.modDie die fun d => { d with bindReq := d.bindReq.drop 1 }
    (queuePlace id).1 = die → x.state = 1 → x.kind = 2 → x.vmid = l.vmid →
    Runs (.queueUnbind die) s (o.setQueue die (queuePlace id).2 { x with boundTo := if x.boundTo = some u then none else x.boundTo })) ∧
  (∀ die s agent id u b, s.bindAsked die b = some (agent, u, id) → s.actingUnit u = none →
    Runs (if b then .queueBind die else .queueUnbind die) s
      ((s.modDie die fun d => { d with bindReq := d.bindReq.drop 1 }).vault die ⟨0x11, 0x85, 0, placeTile (die * 100), 0, 0, 0⟩)) ∧
  (∀ die s q u k r, s.mod.warmBusy = false → s.nextQueue die = some q → s.recordMove (s.queue die q) = some (u, k, r) →
    let m := (s.modDie die fun d => { d with lastQueue := smPut d.lastQueue (s.queue die q).cls.toNat q }).setQueue die q { s.queue die q with recs := (s.queue die q).recs.drop 1 }
    let w := m.raiseLclk (cellTile k.pos) r.whw
    Runs (.actorRecordMove die) s ((State.touchTok { w with net := w.net ++ [k] } u).serveQueue die q)) ∧
  (∀ (s : State) x u k r, s.recordMove x = some (u, k, r) →
    x.kind = 2 ∧ x.boundTo = some u ∧ (∃ o rest, x.recs = o :: rest ∧ r.data = o.data ∧ k.tok.data = o.beat 0) ∧ k.more.length = 7 ∧
      k.tok.field = 0 ∧ k.tok.fmt = 0 ∧ k.owner = u ∧ k.pred = false) ∧
  (∀ (s : State) die q, s.nextQueue die = some q → ∃ x, (q, x) ∈ (s.getDie die).queues ∧ s.offers x = true ∧
    ∀ e ∈ (s.getDie die).queues, s.offers e.2 = true → min 7 x.cls.toNat ≤ e.2.cls.toNat)

/-- R301, R304, R309 to R313, R316 to R318: at its freeze point a region's plane freezes for a call, or parks for an exchange; a spilled plane goes to
staging and is free; a spilled level's refill runs into the plane that a return has cleared, or the lowest free one, and makes it the level's frozen
plane again, faulting where a tile's CRC-32 does not hold; a preload ends PRELOADED; staging is written back oldest first, with the header and the
CRCs that R312 gives an entry. The polynomial is PRESUMED (log 13). -/
def Obligations.PlanesFreezeSpillAndRefill : Prop :=
  (∀ u s l p, s.launch? u = some l → l.callStage = 1 → l.goes = true → s.committingIn l = false → l.active? = some p →
    ∃ t m, Runs (.freezePoint u) s t ∧ t.launch? u = some m ∧ m.callStage = 2 ∧ m.run = false ∧ m.depth = l.depth ∧
      m.levels = l.levels ++ [l.levelNow (s.getTile (l.region.headD 0))] ∧ (m.plane p).st = .frozen ∧ (m.plane p).depth = l.depth ∧
      (t.getTile (l.region.headD 0)).wait = some (.poll false) ∧ m.frames = s.deeper l ∧ t.mem = s.mem ∧ (∀ x ∈ t.net, l.routes x = false)) ∧
  (∀ u s l p, s.launch? u = some l → l.callStage = 11 → l.goes = true → s.committingIn l = false → l.active? = some p →
    ∃ t m, Runs (.freezePoint u) s t ∧ t.launch? u = some m ∧ m.callStage = 12 ∧ m.run = false ∧ (m.plane p).st = .parked ∧ (m.plane p).run = l.run ∧
      (m.plane p).runId = l.runId ∧ (t.getTile (l.region.headD 0)).wait = some (.poll false) ∧ m.levels = l.levels ∧ t.mem = s.mem ∧ (∀ x ∈ t.net, l.routes x = false)) ∧
  (∀ u s l v p w, s.launch? u = some l → l.callStage = 3 →
    l.levels.find? (fun v => match v.plane with | some p => (l.plane p).busy && (l.plane p).st == .frozen | none => false) = some v → v.plane = some p →
    (s.pushPlane u l p v.depth (v.cfg.getD 0) = .ok (some w) → ∃ t m, Runs (.planeSpillEnd u) s t ∧ t.launch? u = some m ∧ m.callStage = 2 ∧
      (m.plane p).st = .free ∧ (m.plane p).busy = false ∧ m.stack.length = l.stack.length + 1 ∧ t.mem = s.mem ∧
      ∀ x ∈ m.levels, x.depth = v.depth → x.spilled = true ∧ x.plane = none) ∧
    (∀ c, s.pushPlane u l p v.depth (v.cfg.getD 0) = .error c →
      Runs (.planeSpillEnd u) s (s.faultLaunch u c (l.region.headD 0) (l.spillArea + l.stackTop)))) ∧
  (∀ u s l p d, s.launch? u = some l → l.refilling = none → l.callStage = 0 → (l.st = .running ∨ l.st = .pending) → l.refillDue = some d →
    l.onTop d = true → l.lowestFree = some p → Runs (.refillStart u) s (s.modLaunch u fun l => l.refillInto p d)) ∧
  (∀ (l : Launch) v p, v.spilled = true → l.refilling = none → l.onTop v.depth = true → l.cleared = some p →
    l.refillCaller v = l.refillInto p v.depth ∧ (l.levels.getLast? = some v → l.refillBelow = l.refillInto p v.depth)) ∧
  (∀ (l : Launch) v, v.spilled = true → l.refilling.isSome = true ∨ l.cleared = none → l.levels.getLast? = some v →
    l.refillBelow = { l with refillDue := some v.depth, cleared := none }) ∧
  (∀ u s l p d e, s.launch? u = some l → l.refilling = some (p, d) → l.stack.getLast? = some e → e.depth = d →
    (∀ w, s.popPlane u l e p = .ok w → ∃ t m, Runs (.refillEnd u) s t ∧ t.launch? u = some m ∧ m.refilling = none ∧ m.stack = l.stack.dropLast ∧
      (m.plane p).st = .frozen ∧ (m.plane p).depth = d ∧ (m.plane p).cfg = some e.cfg ∧
      m.levels = l.levels.map fun v => if v.depth = d then { v with plane := some p, spilled := false } else v) ∧
    (∀ c, s.popPlane u l e p = .error c → Runs (.refillEnd u) s (s.faultLaunch u c (l.region.headD 0) (l.spillArea + e.off)))) ∧
  (∀ (s : State) u l e p, s.areaFault l.die l.vmid (l.spillArea + e.off) e.len .r = none →
    (s.isStaged u l e = false → s.crcsHold l e = false → s.popPlane u l e p = .error 0x6C) ∧
    (s.isStaged u l e = true ∨ s.crcsHold l e = true → ∃ w, s.popPlane u l e p = .ok w ∧ w.mem = s.mem ∧ w.isStaged u l e = false)) ∧
  (∀ u s l p cfg idx, s.launch? u = some l → [0, 1, 2].find? (fun p => (l.plane p).st == .loading) = some p → (l.st = .running ∨ l.st = .pending ∨ l.st = .stopping) →
    (l.plane p).cfg = some idx → s.config? l idx = some cfg →
    (cfg.bad = none → (l.service = true ∨ ∃ x, s.areaPage l.die l.vmid (s.folio l).va .x = .ok x) → ∃ t m, Runs (.preloadEnd u) s t ∧ t.launch? u = some m ∧ (m.plane p).st = .preloaded ∧ (m.plane p).cfg = some idx ∧
      t.mem = s.mem ∧ t.tiles = s.tiles) ∧
    (∀ c, cfg.bad = some c → Runs (.preloadEnd u) s (s.faultLaunch u c (l.region.headD 0) 0)) ∧
    (∀ c, cfg.bad = none → l.service = false → s.areaPage l.die l.vmid (s.folio l).va .x = .error c →
      Runs (.preloadEnd u) s (s.faultLaunch u c (l.region.headD 0) 0))) ∧
  (∀ die s g r l e, (s.getDie die).staging = g :: r → s.launch? g.owner = some l → l.stack.find? (fun e => l.spillArea + e.off == g.addr) = some e →
    let off := s.modDie die fun d => { d with staging := r }
    (s.areaFault l.die l.vmid g.addr e.len .w = none →
      Runs (.stagingWriteback die) s (off.areaWrite l.die l.vmid g.addr (off.entryWords l e))) ∧
    (∀ c, s.areaFault l.die l.vmid g.addr e.len .w = some c →
      Runs (.stagingWriteback die) s (off.faultLaunch g.owner c (l.region.headD (die * 100)) g.addr))) ∧
  (∀ (s : State) (l : Launch) (e : SpillEnt), 1 ≤ l.region.length → l.region.length ≤ 16 → e.depth < 64 → e.plane < 4 → e.cfg < 256 → e.len / 64 < 2 ^ 32 →
    let w k := ((s.entryWords l e).getD k 0).toNat
    bitsOf (w 0) 7 0 = e.depth ∧ bitsOf (w 0) 9 8 = e.plane ∧ bitsOf (w 0) 13 10 = l.region.length - 1 ∧ bitsOf (w 0) 63 32 = e.len / 64 ∧
      w 1 = e.cfg ∧ (∀ k, 2 ≤ k → k < 8 → w k = 0) ∧
      ∀ i t, l.region[i]? = some t → bitsOf (w (8 + i / 2)) (32 * (i % 2) + 31) (32 * (i % 2)) =
        (crc32 (tileImage e.image (s.folioDests l e.cfg) e.stamp t)).toNat)

/-- R83, R174, R329 to R334: a running unit becomes pending when a waiting unit may take its tiles, stops at a progress point, suspends its commands,
saves its frozen and parked planes oldest first, its local memory and its active plane, and gives its tiles back; restored, it has the registers
that were saved, and runs. -/
def Obligations.PreemptionSavesAndRestores : Prop :=
  (∀ u s l, s.launch? u = some l → l.st = .running → l.service = false → (∃ w ∈ s.queueOfUnits, l.yieldsTo s.clk w.2.1 w.2.2 = true) →
    Runs (.victimChosen u) s (s.setLaunch u { l with st := .pending })) ∧
  (∀ (l w : Launch) clk ts, l.yieldsTo clk w ts = true → (∃ t ∈ ts, t ∈ l.region) ∧
    (w.cls.toNat < l.cls.toNat ∨ (w.cls = l.cls ∧ l.since + 2 ^ 20 ≤ clk))) ∧
  (∀ u s l, s.launch? u = some l → l.st = .pending → l.frozen = false → l.held = false → l.pastFreeze = false →
    (s.getTile (l.region.headD 0)).atProgress = true →
    ∃ t m v, Runs (.preemptStop u) s t ∧ t.launch? u = some m ∧ m.st = .stopping ∧ m.callStage = 0 ∧ m.refilling = none ∧ m.saved = some v ∧
      (∀ p d, l.refilling = some (p, d) → m.refillDue = some d) ∧
      (∀ x ∈ v.cmds, x.2.2.dep? = none) ∧ t.mem = s.mem ∧ t.cells = s.cells) ∧
  (∀ tile port s c l, ((s.getTile tile).port port).cmd? = some c → s.launch? c.owner = some l → port < 4 → l.st = .stopping → c.begun = true →
    c.cut = false → c.suspended = false → c.waiting = 0 → 256 ≤ c.quiet → 256 ≤ l.still → (c.bound && c.has 3) = false →
    (∀ m ∈ s.msgs, (m.returnsTo (portNo tile port) c.owner && !m.arrived) = false ∧ m.agent ≠ portAgent tile port) →
    ∃ t, Runs (.streamSuspend tile port) s t ∧ t.mem = s.mem ∧ t.launches = s.launches ∧
      t.msgs = s.msgs.filter fun m => !m.returnsTo (portNo tile port) c.owner) ∧
  (∀ u s l, s.launch? u = some l → l.st = .stopping → l.ending = .ok → s.stopped u l = true →
    ∃ t m, Runs (.preemptSave u) s t ∧ t.launch? u = some m ∧ (m.st = .saving ∨ (m.st = .ending ∧ m.cause = 0xE6))) ∧
  (∀ u s l v, s.launch? u = some l → l.st = .saving → l.saved = some v →
    (l.heldPlanes ++ if v.local_ then s.activeToSave l v else []).find? (fun p => !v.planes.any fun e => e.plane == p.1) = none → v.local_ = true →
    ∃ t m, Runs (.preemptSaved u) s t ∧ t.launch? u = some m ∧ m.st = .saved ∧ m.preempts = l.preempts + 1 ∧ m.saved = some v ∧
      (∀ x ∈ l.region, s.owner? x = some u → t.owner? x = none) ∧ (∀ x, s.owner? x ≠ some u → t.owner? x = s.owner? x)) ∧
  (∀ u s l v, s.launch? u = some l → l.st = .saving → l.saved = some v → v.local_ = false →
    l.heldPlanes.find? (fun p => !v.planes.any fun e => e.plane == p.1) = none →
    Runs (.preemptSaved u) s (s.saveLocal u l v) ∧
      (s.saveFault l ((s.keptLocal l ++ s.keptWindows l v.carves).map fun k => (k.off, k.n)) .w = none →
        ∃ m, (s.saveLocal u l v).launch? u = some m ∧ m.st = .saving ∧ m.saved = some { v with local_ := true })) ∧
  (∀ (l : Launch), l.heldPlanes.Pairwise fun a b => (l.plane a.1).parked ≤ (l.plane b.1).parked) ∧
  (∀ u s l v p depth cfg w, s.launch? u = some l → l.st = .saving → l.saved = some v →
    (l.heldPlanes ++ if v.local_ then s.activeToSave l v else []).find? (fun p => !v.planes.any fun e => e.plane == p.1) = some (p, depth, cfg) →
    s.pushPlane u l p depth cfg = .ok (some w) →
    ∃ t m x, Runs (.preemptSaved u) s t ∧ t.launch? u = some m ∧ m.st = .saving ∧ m.stack = l.stack ++ [x] ∧ x.plane = p ∧ x.depth = depth ∧
      m.saved = some { v with planes := v.planes ++ [x] } ∧ t.mem = s.mem) ∧
  (∀ u s l v lead rest, s.launch? u = some l → l.st = .saved → s.nextUnit l.die = some u → l.saved = some v → l.region = lead :: rest → l.ending = .ok →
    ∃ t m, Runs (.preemptRestore u) s t ∧ t.launch? u = some m ∧ (m.st = .restoring ∨ (m.st = .ending ∧ m.cause = 0xE6)) ∧
      ∀ x ∈ l.region, t.owner? x = some u) ∧
  (∀ (s : State) l v, s.intact l v (0, 0x400) = true → (∀ e ∈ v.deps, s.intact l v (0x400 + 32 * e.1, 32) = true) → v.cmds = [] →
    s.readBack l v = (v, s)) ∧
  (∀ (t : Tile) v n, let x := t.resumed v n
    x.a = v.a ∧ x.m = v.m ∧ x.n = v.n ∧ x.spc = v.spc ∧ x.spr.wdog = v.spr.wdog ∧ x.spr.stalls = v.spr.stalls ∧
      (n = 0 → x.deps = v.deps ∧ x.spr.whw = v.spr.whw ∧ x.spr.lclk = tsMax t.spr.lclk v.spr.lclk)) ∧
  (∀ u s l v, s.launch? u = some l → l.st = .restoring → l.saved = some v → l.nextPop v = none →
    ∃ t m, Runs (.preemptResumed u) s t ∧ t.launch? u = some m ∧ m.st = .running ∧ m.saved = none ∧ m.wdog = 0 ∧ m.since = s.clk ∧ t.mem = s.mem ∧
      t.tiles = s.tiles) ∧
  (∀ u s l v e, s.launch? u = some l → l.st = .restoring → l.saved = some v → l.nextPop v = some e →
    (∀ w, s.popPlane u l e e.plane = .ok w → Runs (.preemptResumed u) s (w.modLaunch u fun l => { l with stack := l.stack.dropLast })) ∧
    (∀ c, s.popPlane u l e e.plane = .error c →
      Runs (.preemptResumed u) s (s.faultLaunch u (if c = 0x6C then 0x6C else 0xE6) (l.region.headD 0) (l.spillArea + e.off))))

/-- R336: SVC_CTL starts a service unit on a tile in plane 3, at step 0 of a verified service folio; the unit that holds the tile is frozen whole; what the
spec refuses ends with its status. -/
def Obligations.ServiceUnits : Prop :=
  (∀ die s i, die < 16 → bitOf (s.reg die 0xB10).toNat 63 = true → bitsOf (s.reg die 0xB10).toNat 59 14 = 0 → bitsOf (s.reg die 0xB10).toNat 9 0 ≤ 99 →
    findIdxFrom (fun f : Folio => f.service && f.va == (s.reg die 0xB08).toNat) s.folios 0 = some i →
    let f := s.folios.getD i default
    let tile := bitsOf (s.reg die 0xB10).toNat 13 10 * 100 + bitsOf (s.reg die 0xB10).toNat 6 0
    (f.verified = true → s.serviceRuns = false → f.region.length = 1 → s.owner? tile = none →
      ∃ t l, Runs (.serviceStart die) s t ∧ t.launch? s.stamp = some l ∧ l.st = .running ∧ l.service = true ∧ l.region = [tile] ∧ l.folio = i ∧
        (t.getTile tile).owner = some s.stamp ∧ (t.getTile tile).spc = 0 ∧ (∀ r : BitVec 4, r ≠ 0 → r ≠ 1 → (t.getTile tile).reg r = 0) ∧
        l.activePlane = 3 ∧ bitsOf (t.reg die 0xB10).toNat 62 60 = 1 ∧ bitOf (t.reg die 0xB10).toNat 63 = false ∧ t.mem = s.mem) ∧
    (∀ v l, f.verified = true → s.serviceRuns = false → f.region.length = 1 → s.owner? tile = some v → s.launch? v = some l →
      (l.st = .running ∨ l.st = .pending) → l.frozen = false → s.freezeWaits v tile = false → v ≠ (s.abandonAll l).stamp →
      ∃ t m n, Runs (.serviceStart die) s t ∧ t.launch? v = some m ∧ m.frozen = true ∧ t.launch? (s.abandonAll l).stamp = some n ∧ n.service = true ∧
        n.victim = some v ∧ (t.getTile tile).owner = some (s.abandonAll l).stamp ∧ (∃ x, m.saved = some x ∧ x.a = (s.getTile tile).a ∧ x.spc = (s.getTile tile).spc)) ∧
    (f.verified = true → s.serviceRuns = true → Runs (.serviceStart die) s (s.svcEnd die 4)) ∧
    (f.verified = false → Runs (.serviceStart die) s ((s.vault die ⟨0x11, 0xF8, 0, placeTile (die * 100), 0, 0, f.va⟩).svcEnd die 3)) ∧
    (f.verified = true → s.serviceRuns = false → f.region.length ≠ 1 → Runs (.serviceStart die) s (s.svcEnd die 5))) ∧
  (∀ die s, die < 16 → bitOf (s.reg die 0xB10).toNat 63 = true → bitsOf (s.reg die 0xB10).toNat 59 14 = 0 → bitsOf (s.reg die 0xB10).toNat 9 0 ≤ 99 →
    findIdxFrom (fun f : Folio => f.service && f.va == (s.reg die 0xB08).toNat) s.folios 0 = none → Runs (.serviceStart die) s (s.svcEnd die 3)) ∧
  (∀ die s, die < 16 → bitOf (s.reg die 0xB10).toNat 63 = true → (bitsOf (s.reg die 0xB10).toNat 59 14 ≠ 0 ∨ 99 < bitsOf (s.reg die 0xB10).toNat 9 0) →
    Runs (.serviceStart die) s (s.svcEnd die 5))

/-- R245, R251, R258: the control registers of the engines create and destroy phasers and create, close and free queues, answering with the statuses of
PH_CTL and QCTL; the host launch window reserves without waiting and adds a record of 64 bytes at SYSTEM scope. -/
def Obligations.EngineControl : Prop :=
  (∀ die s, s.phAsked die 0 = true → bitsOf (s.reg die 0x508).toNat 57 48 = 0 →
    let c := (s.reg die 0x508).toNat
    let off := bitsOf (s.reg die 0x500).toNat 30 6 * 64
    let p := Phaser.create (bitsOf c 47 32) (bitsOf c 31 16) (bitsOf c 15 0) (s.rebases.setWidth 8)
    (∀ d, smFind (s.getDie die).phasers off = none →
      Die.take { s.getDie die with phasers := smPut (s.getDie die).phasers off p } (phKey off) = some d →
      Runs (.phCreate die) s ((s.modDie die fun _ => d).phEnd die 1)) ∧
    (∀ q, smFind (s.getDie die).phasers off = some q → Runs (.phCreate die) s (s.phEnd die 2))) ∧
  (∀ sig wait sw tag, let p := Phaser.create sig wait sw tag
    p.phase = 0 ∧ p.lerr = 0 ∧ p.ferr = 0 ∧ p.whw = 0 ∧ p.members = [] ∧ p.waiters = [] ∧ p.arr0 = 0 ∧ p.arr1 = 0 ∧ p.tag = tag) ∧
  (∀ die s p, s.phAsked die 1 = true → bitsOf (s.reg die 0x508).toNat 57 48 = 0 →
    let off := bitsOf (s.reg die 0x500).toNat 30 6 * 64
    smFind (s.getDie die).phasers off = some p →
    (p.waiters = [] → Runs (.phDestroy die) s ((s.modDie die fun d =>
      { d with phasers := smDel d.phasers off, recent := d.recent.filter (· != phKey off) }).phEnd die 1)) ∧
    (p.waiters ≠ [] → Runs (.phDestroy die) s (s.phEnd die 2))) ∧
  (∀ die s, s.qAsked die 0 = true →
    let c := (s.reg die 0x408).toNat
    let q := s.qSel die
    s.qReserved die = false → bitsOf c 53 52 ≠ 3 → 1 ≤ bitsOf c 49 32 → bitsOf c 49 32 ≤ 131072 →
    ((s.queue die q).state = 0 → ∃ t, Runs (.queueCreate die) s t ∧ bitsOf (t.reg die 0x408).toNat 59 57 = 1 ∧ bitOf (t.reg die 0x408).toNat 63 = false ∧
      (t.queue die q).state = 1 ∧ (t.queue die q).cap = bitsOf c 49 32 ∧ (t.queue die q).kind = BitVec.ofNat 2 (bitsOf c 53 52) ∧
      (t.queue die q).cls = BitVec.ofNat 3 (bitsOf c 56 54) ∧ (t.queue die q).vmid = BitVec.ofNat 16 (bitsOf c 31 16) ∧
      (t.queue die q).hostwin = bitOf c 51 ∧ (t.queue die q).stage = s.reg die 0x410 ∧ (t.queue die q).recs = [] ∧ (t.queue die q).rsvs = [] ∧
      (∀ j, j ≠ q → t.queue die j = s.queue die j) ∧ t.mem = s.mem) ∧
    ((s.queue die q).state ≠ 0 → Runs (.queueCreate die) s (s.qEnd die 2))) ∧
  (∀ die s, s.qAsked die 1 = true → s.qReserved die = false →
    let q := s.qSel die
    ((s.queue die q).state = 1 → (s.queue die q).rsvWait = [] →
      Runs (.queueClose die) s (((s.setQueue die q { s.queue die q with state := 2, rsvWait := [] }).serveQueue die q).qEnd die 1)) ∧
    ((s.queue die q).state ≠ 1 → Runs (.queueClose die) s (s.qEnd die 2))) ∧
  (∀ die s, s.qAsked die 2 = true → s.qReserved die = false →
    let q := s.qSel die
    ((s.queue die q).state = 2 → (s.queue die q).recs = [] → (s.queue die q).rsvs = [] → (s.queue die q).takers = [] →
      Runs (.queueFree die) s ((s.modDie die fun d => { d with queues := smDel d.queues q }).qEnd die 1)) ∧
    ((s.queue die q).state ≠ 2 ∨ (s.queue die q).recs ≠ [] ∨ (s.queue die q).rsvs ≠ [] ∨ (s.queue die q).takers ≠ [] →
      Runs (.queueFree die) s (s.qEnd die 2))) ∧
  (∀ port off s die q, port < 2 → s.shut = false → windowQueue off = some (die, q) → (s.queue die q).state = 1 →
    (s.queue die q).hostwin = true →
    ((s.queue die q).cap ≤ (s.queue die q).recs.length + (s.queue die q).rsvs.length → Runs (.launchWindowReserve port off) s (s.hostAnswer 0)) ∧
    (∀ k d, (s.queue die q).recs.length + (s.queue die q).rsvs.length < (s.queue die q).cap →
      (s.getDie die).takeSlot (Config.freeWord s.tick).toNat = .slot k d →
      ∃ t, Runs (.launchWindowReserve port off) s t ∧ t.mod.hostOut = s.mod.hostOut ++ [.data 1] ∧
        smFind (t.queue die q).rsvs k = some (hostAgent port) ∧ t.mem = memClear s.mem (stageFlat die k) 64)) ∧
  (∀ port off s die q, port < 2 → s.shut = false → windowQueue off = some (die, q) →
    ((s.queue die q).state ≠ 1 ∨ (s.queue die q).hostwin = false) →
    Runs (.launchWindowReserve port off) s ((s.windowRefused die).hostAnswer 0) ∧
    ∀ n, 1 ≤ n → n ≤ 64 → n ≠ 8 → Runs (.hostRead port 2 off n) s ((s.windowRefused die).hostAnswer 0)) ∧
  (∀ port off s die q n, port < 2 → s.shut = false → windowQueue off = some (die, q) → (s.queue die q).state = 1 → (s.queue die q).hostwin = true →
    1 ≤ n → n ≤ 64 → n ≠ 8 → Runs (.hostRead port 2 off n) s (s.hostAnswer 0)) ∧
  (∀ port off s die q data slot g, port < 2 → s.shut = false → windowQueue off = some (die, q) → (s.queue die q).state = 1 →
    (s.queue die q).hostwin = true → (s.queue die q).rsvs.find? (fun r => r.2 == hostAgent port) = some (slot, g) →
    let u := (s.setQueue die q { s.queue die q with rsvs := smDel (s.queue die q).rsvs slot }).nextStamp
    Runs (.launchWindowAdd port off 64 data) s ((u.2.placeRec die q
      ⟨data, smGet 0 s.mod.hostTs port, 3, hostAgent port, s.eighths, s.rebases.setWidth 8, slot, u.1, false⟩).serveQueue die q)) ∧
  (∀ port off s die q data n, port < 2 → s.shut = false → windowQueue off = some (die, q) →
    (s.queue die q).rsvs.find? (fun r => r.2 == hostAgent port) = none →
    Runs (.launchWindowAdd port off n data) s (s.windowRefused die))

/-- The state in which a host or peer access performs: its entry in a migration's queue, if it has one, is taken off. -/
def Sys2Proof.Claims.hostBase (s : State) (port flat kind : Nat) : State :=
  match findIdxFrom (fun m : Msg => m.kind == .host port flat kind) s.msgs 0 with
  | some k => s.dropMsg k
  | none => s

/-- A host or peer write of n bytes performs at a type-0 home: it takes a timestamp beyond the home's reads, or waits for a rebase. -/
def Sys2Proof.Claims.HostStores (o : Out) (v : State) (port : Nat) (t : Target) (n x : Nat) : Prop :=
  let u := (hostBase v port t.flat 1).fillLine (t.flat / 64 * 64)
  let ts := u.writeTs (t.flat / 64 * 64) 0
  (ts < 2 ^ 32 → o = .next ((u.homeWrite t.flat n x (BitVec.ofNat 32 ts)).hostTime port (BitVec.ofNat 32 ts))) ∧
    (2 ^ 32 ≤ ts → o = .next (u.askRebase t.home))

/-- An AtomicOp of the host is performed at a SYSATOM page's home with a code of R47, and answers the old value (R204, R350). -/
def Sys2Proof.Claims.HostAtomic (mk : Nat → Nat → Nat → Word → Word → Instr) (op : Nat) (sizes : List Nat) (two : Bool) : Prop :=
  ∀ port off n a b (s : State) pte t, n ∈ sizes → port < 2 → s.shut = false → bar4Shape off n = true → off % n = 0 →
    s.hostTarget off .rw = .ok (pte, t) →
    (bitOf pte.toNat 9 = false → Runs (mk port off n a b) s (s.windowFault 0xF1).hostAbort) ∧
    (∀ d', bitOf pte.toNat 9 = true → s.hostTurn port t.flat 2 = .go → (s.getDie t.home).heldOut.contains (t.flat / 64 * 64) = false →
      let line := t.flat / 64 * 64
      let u := (hostBase s port t.flat 2).fillLine line
      let ts := u.writeTs line 0
      let d := u.getDie t.home
      let old := memRead u.mem t.flat n
      let new := atomicInt op (8 * n) old (a.toNat % 2 ^ (8 * n)) (if two then b.toNat % 2 ^ (8 * n) else 0)
      ts < 2 ^ 32 → Die.take { d with held := if d.held.contains line then d.held else line :: d.held } (lineKey line) = some d' →
      Runs (mk port off n a b) s ((((u.modDie t.home fun _ => d').homeWrite t.flat n new (BitVec.ofNat 32 ts)).hostTime port
        (BitVec.ofNat 32 ts)).hostAnswer (BitVec.ofNat 512 old)))

/-- R224, R348 to R350: what the host does at a port: it reads and writes the registers of BAR0 and type-0 pages through the window, a refused request
ending with its Vault event and, for a read, Completer Abort; an access to a page that migrates joins its queue; its atomics are performed on SYSATOM
pages and answer the old value; a write of IRQ_RAISE raises its vector once its release has ended, and a masked vector is pending until it is unmasked.
While a warm reset runs the windows abort. -/
def Obligations.HostRequests : Prop :=
  (∀ port off n s, port < 2 → 1 ≤ n → n ≤ 64 → s.mod.warmBusy = false →
    Runs (.hostRead port 0 off n) s (s.hostAnswer (BitVec.ofNat 512 (s.bar0Read port off n)))) ∧
  (∀ port off n s pte t, port < 2 → 1 ≤ n → n ≤ 64 → s.shut = false → bar4Shape off n = true →
    s.hostTarget off .r = .ok (pte, t) →
    (s.hostTurn port t.flat 0 = .go →
      let v := hostBase s port t.flat 0
      Runs (.hostRead port 4 off n) s ((v.fillLine (t.flat / 64 * 64)).hostAnswer (BitVec.ofNat 512 (memRead s.mem t.flat n)))) ∧
    (s.hostTurn port t.flat 0 = .queue →
      Runs (.hostRead port 4 off n) s (s.sendFrom (hostAgent port) 0 (homeDie t.flat) (.host port t.flat 0)).heldLast)) ∧
  (∀ port off n s c, port < 2 → 1 ≤ n → n ≤ 64 → s.shut = false → bar4Shape off n = true → s.hostTarget off .r = .error c →
    Runs (.hostRead port 4 off n) s (s.windowFault c).hostAbort) ∧
  (∀ port bar off n s, port < 2 → 1 ≤ n → n ≤ 64 → s.mod.warmBusy = true → (bar ≠ 0 ∨ off / 8 ≠ 0x60) → Runs (.hostRead port bar off n) s s.hostAbort) ∧
  (∀ port bar off n s, port < 2 → 1 ≤ n → n ≤ 64 → s.mod.warmBusy = false → s.mod.moduleOnly = true → bar ≠ 0 →
    Runs (.hostRead port bar off n) s s.hostUnclaimed) ∧
  (∀ (s : State) vmid va need, 2 ^ 56 ≤ va → s.outsideTarget vmid va need = .error 0xF1) ∧
  (∀ (s : State) vmid va need pte t, s.outsideTarget vmid va need = .ok (pte, t) →
    t.ty = 0 ∧ permOk need pte = true ∧ (s.getDie t.home).excluded = false) ∧
  (∀ port off n data s, port < 2 → 1 ≤ n → n ≤ 64 → s.mod.warmBusy = false →
    Runs (.hostWrite port 0 off n data) s (State.bar0Write port 9 off n data.toNat s)) ∧
  (∀ port off n data s pte t, port < 2 → 1 ≤ n → n ≤ 64 → s.shut = false → bar4Shape off n = true → s.hostTarget off .w = .ok (pte, t) →
    (s.hostTurn port t.flat 1 = .go → HostStores (exec (.hostWrite port 4 off n data) s) s port t n data.toNat) ∧
    (s.hostTurn port t.flat 1 = .queue →
      Runs (.hostWrite port 4 off n data) s (s.sendFrom (hostAgent port) 0 (homeDie t.flat) (.host port t.flat 1)).heldLast)) ∧
  (∀ port off n data s c, port < 2 → 1 ≤ n → n ≤ 64 → s.shut = false → bar4Shape off n = true → s.hostTarget off .w = .error c →
    Runs (.hostWrite port 4 off n data) s (s.windowFault c)) ∧
  HostAtomic (fun port off n a _ => .hostFetchadd port off n a) 0x01 [4, 8] false ∧
  HostAtomic (fun port off n a _ => .hostSwap port off n a) 0x0A [4, 8] false ∧
  HostAtomic (fun port off n a b => .hostCas port off n a b) 0x0B [8] true ∧
  (∀ port off n v w s, port < 2 → (n = 4 ∨ n = 16) →
    Runs (.hostCas port off n v w) s (if s.mod.warmBusy then s.hostAbort else s.hostUnclaimed)) ∧
  (∀ die s a v r, (s.getDie die).irq = (a, v) :: r → a ≥ 2 ^ 32 →
    Runs (.irqRaise die) s ((s.dropIrq die 0).interrupt v)) ∧
  (∀ die s a v r t, (s.getDie die).irq = (a, v) :: r → s.irqRelease a = (true, t) → Runs (.irqRaise die) s ((t.dropIrq die 0).interrupt v)) ∧
  (∀ (s : State) v, (s.interrupt v).mod = (s.mod.message 0 v).message 1 v ∧ (s.interrupt v).mem = s.mem) ∧
  (∀ (m : ModuleBlk) port v,
    ((m.entry (2048 * port + v)).getLsbD 96 = false → m.message port v = { m with raised := m.raised ++ [(port, v)] }) ∧
    ((m.entry (2048 * port + v)).getLsbD 96 = true → (m.message port v).raised = m.raised ∧ 2048 * port + v ∈ (m.message port v).pending)) ∧
  (∀ (m : ModuleBlk) k, k ∈ m.pending → (m.entry k).getLsbD 96 = false →
    (m.unmask k).raised = m.raised ++ [(k / 2048, k % 2048)] ∧ k ∉ (m.unmask k).pending)

/-- R224, R351, R352, R354: accesses that leave the module complete in their order; one that the host ends in error, or that waits 50 µs, faults with 0xF0,
one to a peer that is not up with 0xF3, a refused one with 0xF4; a peer's packet (whose contents are free, log 16) is a host-class write where XACCEPT
admits its module; a port that goes down is no longer up; ATTEST clears its request and the written nonce stands in its result area. -/
def Obligations.AccessesThatLeave : Prop :=
  (∀ k s m data, s.outMsg k 1 = some m → s.outFirst k m (fun _ => true) = true →
    Runs (.type1Completion k true data) s (s.outDone k m data) ∧ Runs (.type1Completion k false data) s (s.outFault k m 0xF0)) ∧
  (∀ k s m flat n w data a o, m.kind = .access 1 o flat n false w → m.agent = a → a < 2 ^ 33 →
    ((s : State).outDone k m data).msgs = removeAt s.msgs k ∧
      smFind ((s.outDone k m data).ldOf a).lines flat = some (BitVec.ofNat 512 (data.toNat % 2 ^ (8 * n))) ∧
      ((s.outDone k m data).ldOf a).waiting = false ∧ (s.outDone k m data).mem = s.mem) ∧
  (∀ k s m, s.outMsg k 1 = some m → m.since + 400000 ≤ s.eighths → Runs (.hostCompletionTimeout k) s (s.outFault k m 0xF0)) ∧
  (∀ k s m, s.outMsg k 2 = some m → m.held = false → s.outFirst k m (fun e => !e.held) = true →
    (s.peerUp m.peerOf = false → ∀ g, Runs (.peerWrite k g) s (s.outFault k m 0xF3)) ∧
    (s.peerUp m.peerOf = true → Runs (.peerWrite k false) s (s.outFault k m 0xF4) ∧
      Runs (.peerWrite k true) s { s with msgs := listSet s.msgs k { m with held := true } })) ∧
  (∀ k s m, s.outMsg k 2 = some m → m.held = true → s.outFirst k m (fun _ => true) = true →
    Runs (.peerAck k) s (s.freshLine.2.outDone k m s.freshLine.1)) ∧
  (∀ k g s, s.msgs.length ≤ k → exec (.peerWrite k g) s = State.peerIn { s with tick := s.tick + 1 } (Config.peerPacket s.tick)) ∧
  (∀ (v : State) p, (v.shut = true ∨ v.admits p.peer = false ∨ (∃ c, v.outsideTarget p.vmid (p.va / 64 * 64) .w = .error c) →
      v.peerIn p = .next v) ∧
    (∀ pte t, v.shut = false → v.admits p.peer = true → v.outsideTarget p.vmid (p.va / 64 * 64) .w = .ok (pte, t) →
      v.hostTurn (2 + p.peer % 256) t.flat 1 = .go → HostStores (v.peerIn p) v (2 + p.peer % 256) t 64 p.data.toNat)) ∧
  (∀ port s, port < 16 → ∃ t u, Runs (.linkXPortDown port true) s t ∧ t.mod.peersUp.getLsbD port = true ∧
    Runs (.linkXPortDown port false) s u ∧ u.mod.peersUp.getLsbD port = false ∧ t.mem = s.mem ∧ u.mem = s.mem ∧
    ∀ j, j ≠ port → j < 16 → t.mod.peersUp.getLsbD j = s.mod.peersUp.getLsbD j ∧ u.mod.peersUp.getLsbD j = s.mod.peersUp.getLsbD j) ∧
  (∀ s : State, s.mreg 0x820 ≠ 0 → ∃ t, Runs .attest s t ∧ t.mreg 0x820 = 0 ∧
    memRead t.mem (moduleBase 0 + 0x4000 + Config.nonceAt % (0x2000 - 31)) 32 = s.nonce ∧
    (∀ a, a < moduleBase 0 + 0x4000 ∨ moduleBase 0 + 0x6000 ≤ a → memByte t.mem a = memByte s.mem a) ∧ t.tiles = s.tiles ∧ t.cells = s.cells)

/-- R6, R7, R193, R342, R346: writes of registers: a reserved bit is discarded and reads zero, a bit that 1 clears is cleared, MALT_REG and QBIND name the writing unit, VAULT_CTL's thaw clears frozen, and an entry
of the parity log is freed. -/
def Obligations.RegisterWrites : Prop :=
  (∀ die block off v s, die < 16 → 6400 ≤ block → off % 8 = 0 → s.shut = false →
    Runs (.regWrite die block off v) s (s.regWrite die block off 8 v.toNat (hostAgent 0))) ∧
  (∀ (s : State) die v a, (s.reg die 0x000).toNat < 2 ^ 52 → ((s.regWrite die 6500 0x000 8 v a).reg die 0x000).toNat = v % 2 ^ 52) ∧
  (∀ (s : State) die v a, (s.reg die 0x400).toNat < 2 ^ 12 → ((s.regWrite die 6500 0x400 8 v a).reg die 0x400).toNat = v % 2 ^ 12) ∧
  (∀ (s : State) die a, ∀ off ∈ [0x408, 0x508, 0x718, 0x748, 0xB10], s.ctlRead die off a &&& BitVec.ofNat 64 (goReserved off) = 0) ∧
  (∀ (s : State) die v a,
    ((s.regWrite die 6500 0x600 8 v a).getDie die).actReq = (s.getDie die).actReq ++ [(a, (s.owner? (agentTile a)).getD 0, v % 2 ^ 56)] ∧
    ((s.regWrite die 6500 0x610 8 v a).getDie die).bindReq = (s.getDie die).bindReq ++ [(a, BitVec.ofNat 64 v, (s.owner? (agentTile a)).getD 0)]) ∧
  (∀ (s : State) die t v a, t < 100 → (s.getTile (die * 100 + t)).rayslab.toNat &&& ones 55 8 = (s.getTile (die * 100 + t)).rayslab.toNat →
    ((s.regWrite die (6400 + t) 0x40 8 v a).getTile (die * 100 + t)).rayslab.toNat = v &&& ones 55 8) ∧
  (∀ cell v s, Runs (.cvstWrite cell v) s (s.cvstClear cell v.toNat)) ∧
  (∀ (s : State) c v, ((s.cvstClear c v).cp c).cvst = (s.cp c).cvst &&& ~~~(BitVec.ofNat 32 (v % 8))) ∧
  (∀ die s, s.shut = false → ∃ t, Runs (.vaultThaw die) s t ∧ bitOf (t.reg die 0xB00).toNat 63 = false ∧ (∀ k, k ≠ 0xB00 → t.reg die k = s.reg die k) ∧
    (t.getDie die).vault = (s.getDie die).vault ∧ t.mem = s.mem) ∧
  (∀ die s v, s.shut = false → bitOf (BitVec.toNat v) 63 = true →
    (∃ t, Runs (.plogWrite die 0xA00 v) s t ∧ bitOf (t.reg die 0xA00).toNat 63 = false) ∧
    (∀ i, i < 16 → ∃ t, Runs (.plogWrite die (0xA08 + 8 * i) v) s t ∧ t.reg die (0xA08 + 8 * i) = 0 ∧
      ∀ k, k ≠ 0xA08 + 8 * i → t.reg die k = s.reg die k)) ∧
  (∀ die s off v, s.shut = false → bitOf (BitVec.toNat v) 63 = false → Runs (.plogWrite die off v) s s)

/-- R6, R341, R348, R353, R355, R356: a cold reset gives every field its reset value; a warm reset loses the launches and keeps GDDR 7, BADNODE, the Vault,
the time and the energy meters; a start that stops leaves the module block alone and no die that places anything; a port's link reset changes nothing of the module; a die above its power limit is throttled with vector 32 + d; the
fatal stops stop their die. -/
def Obligations.ResetsAndStops : Prop :=
  (∀ s, ∃ t, Runs .coldReset s t ∧ t.mem = [] ∧ t.tiles = [] ∧ t.cells = [] ∧ t.launches = [] ∧ t.msgs = [] ∧ t.net = [] ∧ t.flows = [] ∧ t.homeTs = [] ∧
    t.folios = [] ∧ t.work = [] ∧ t.rebases = 0 ∧ t.clk = 0 ∧ t.mod.regs = [] ∧ t.mod.warmBusy = false ∧
    ((t.bootWas 0).1 = 1 ∨ (t.bootWas 0).1 = 2 ∧ t.mod.moduleOnly = true) ∧ (∀ d off, off ≠ 0xB00 → t.reg d off = 0) ∧ ∀ d, (t.getDie d).phasers = [] ∧ (t.getDie d).queues = [] ∧
      (t.mod.moduleOnly = false → (t.getDie d).stopped = false)) ∧
  (∀ (s : State) rest d, d < 16 → ((s.serviceOnly rest).getDie d).stopped = true ∧ (s.serviceOnly rest).mod.moduleOnly = true) ∧
  (∀ (s : State) d, ((s.excludeDie d).getDie d).excluded = true) ∧
  (∀ s, ∃ t, Runs .warmReset s t ∧ t.tiles.all (fun e => e.2 == { Tile.reset with energy := e.2.energy }) = true ∧
    t.cells = [] ∧ t.launches = [] ∧ t.msgs = [] ∧ t.net = [] ∧ t.homeTs = [] ∧ t.work = [] ∧ t.clk = s.clk ∧ t.rebases = s.rebases ∧
    (∀ a, a < cellBase 0 → memByte t.mem a = memByte s.mem a) ∧
    (∀ a, cellBase 0 ≤ a → a < moduleBase 0 → memByte t.mem a = 0)) ∧
  (∀ (s : State) d off, (s.warm.reg d off = if keptReg off then s.reg d off else 0) ∧ (s.warm.getDie d).vault = (s.getDie d).vault) ∧
  (∀ port s, Runs (.portLinkReset port) s s) ∧
  (∀ die s, die < 16 → (s.getDie die).throttled = false → ∃ t, Runs (.powerLimit die true) s t ∧ (t.getDie die).throttled = true ∧
    t.mod = (s.interrupt (32 + die)).mod ∧ t.mem = s.mem ∧ t.tiles = s.tiles ∧ t.launches = s.launches) ∧
  (∀ die s, die < 16 → (s.getDie die).throttled = true → ∃ t, Runs (.powerLimit die false) s t ∧ (t.getDie die).throttled = false ∧
    t.mod = s.mod ∧ t.mem = s.mem ∧ t.tiles = s.tiles) ∧
  (∀ die s, die < 16 → Runs (.thermalStop die) s ((s.fatal die 0xF5).interrupt (32 + die)) ∧ Runs (.managementStop die) s (s.fatal die 0xFA)) ∧
  (∀ (s : State) die c, ((s.fatal die c).getDie die).stopped = true)

/-- R12, R80, R355: what reset leaves, where the spec gives a value: the special registers of R80, no unit and no work anywhere, every control register
zero, the phasers and queues gone. -/
def Obligations.ResetValues : Prop :=
  (∀ t, let x := (State.reset.getTile t).spr
    x.lease = 16 ∧ x.qwcLimit = 65536 ∧ x.drift = 4096 ∧ x.spinN = 64 ∧ x.wdog = 67108864 ∧ x.lclk = 0 ∧ x.whw = 0 ∧ x.carve = 0 ∧ x.stalls = 0 ∧
    State.reset.owner? t = none) ∧
  (∀ d off, State.reset.reg d off = 0) ∧ (∀ off, State.reset.mreg off = 0) ∧ State.reset.rebases = 0 ∧ State.reset.launches = [] ∧
  (∀ d, (State.reset.getDie d).phasers = [] ∧ (State.reset.getDie d).queues = []) ∧ Sys2Proof.Inv State.reset

/-- R50, R54, R82, R337, R338, R345: a trap of a step is precise: the step changes no register, no memory and no cell, its SPC stays, its launch faults with
the cause at the tile and ends; a later fault only counts; TRAP's cause is 0x1F and its event carries the code. -/
def Obligations.TrapsEndTheLaunch : Prop :=
  (∀ (s : State) u c tile d l, s.launch? u = some l → l.st ≠ .done → l.st ≠ .ending → l.ending = .ok → ∃ m, (s.faultLaunch u c tile d).launch? u = some m ∧
    m.st = .ending ∧ m.ending = (if c % 256 = 0xE0 then .watchdog else .faulted) ∧ m.cause = BitVec.ofNat 8 c ∧ m.causeDie = tileDie tile ∧
    m.causeTile = tileLocal tile ∧ m.faults = min (l.faults + 1) (2 ^ 32 - 1) ∧ m.completed = 0 ∧ m.run = false ∧ m.region = l.region) ∧
  (∀ (s : State) u c tile d, (s.faultLaunch u c tile d).mem = s.mem ∧ (s.faultLaunch u c tile d).cells = s.cells ∧
    (s.faultLaunch u c tile d).net = s.net ∧ (s.faultLaunch u c tile d).msgs = s.msgs ∧ (s.faultLaunch u c tile d).homeTs = s.homeTs ∧
    ∀ t, ((s.faultLaunch u c tile d).getTile t).a = (s.getTile t).a ∧ ((s.faultLaunch u c tile d).getTile t).spc = (s.getTile t).spc ∧
      ((s.faultLaunch u c tile d).getTile t).spr = (s.getTile t).spr ∧ ((s.faultLaunch u c tile d).getTile t).owner = (s.getTile t).owner) ∧
  (∀ (s : State) u c tile d l, s.launch? u = some l → l.st = .ending → l.ending = .faulted → l.causeClk ≠ s.clk →
    ∃ m, (s.faultLaunch u c tile d).launch? u = some m ∧ m.cause = l.cause ∧ m.ending = .faulted ∧ m.faults = min (l.faults + 1) (2 ^ 32 - 1)) ∧
  (∀ code s, Runs (.trap code) s (s.faultLaunch s.unitNo 0x1F s.tile code.toNat)) ∧
  (∀ (s : State) c, s.trap c = .next (s.faultLaunch s.unitNo c s.tile s.cur.spc.toNat))

/-- R50, R52, R53, R139, R204: one step runs the agent that `now` names: the lead sequencer's decoded step word or the block's decoded handler word through exec,
with the acting tile or cell set first, a step's page giving X; a word that is no instruction traps with R50's cause; an event runs through exec; the choice of the next agent
(log 2) is all that a step adds. -/
def Obligations.StepRunsDecoded : Prop :=
  (∀ s t w i x v, s.now = .seq t → s.seqReady t = true → State.stepWord { s with tile := t } = some w → State.fetchStep { s with tile := t } = .ok x v →
    decodeSeq w = .ok i → step s = advance (exec i v)) ∧
  (∀ s t w e x v, s.now = .seq t → s.seqReady t = true → State.stepWord { s with tile := t } = some w → State.fetchStep { s with tile := t } = .ok x v →
    decodeSeq w = .error e →
    step s = advance (v.trap (match e with | .illegal => 0x01 | .reservedField => 0x02 | .badDest => 0x03))) ∧
  (∀ s t w, s.now = .seq t → s.seqReady t = true → State.stepWord { s with tile := t } = some w →
    (∀ c, State.fetchStep { s with tile := t } = .fault c → step s = advance (State.trapWith { s with tile := t } c (State.stepVa { s with tile := t }))) ∧
    ∀ v, State.fetchStep { s with tile := t } = .wait v → step s = advance (.next v)) ∧
  (∀ s t, s.now = .seq t → s.seqReady t = true → State.stepWord { s with tile := t } = none → step s = advance (State.trap { s with tile := t } 0x01)) ∧
  (∀ s c b w l i, s.now = .handler c → s.handlerReady c = true → (s.getCell c).block = some b → s.handlerWord c b = some (w, l) →
    decodeHandler w l = .ok i → s.literalOk c b i = true → step s = advance (exec i { s with cell := c })) ∧
  (∀ s c b w l i, s.now = .handler c → s.handlerReady c = true → (s.getCell c).block = some b → s.handlerWord c b = some (w, l) →
    decodeHandler w l = .ok i → s.literalOk c b i = false → step s = advance (State.trapBlock { s with cell := c } 0x06 0)) ∧
  (∀ s c b w l e, s.now = .handler c → s.handlerReady c = true → (s.getCell c).block = some b → s.handlerWord c b = some (w, l) →
    decodeHandler w l = .error e →
    step s = advance (State.trapBlock { s with cell := c } (match e with | .illegal => 0x01 | .reservedField => 0x02 | .badDest => 0x03) 0)) ∧
  (∀ s c b, s.now = .handler c → s.handlerReady c = true → (s.getCell c).block = some b → s.handlerWord c b = none →
    step s = advance (State.trapBlock { s with cell := c } 0x06 0)) ∧
  (∀ s, s.now = .event →
    step s = advance (if isProgram (Config.event s.tick) then .next s else exec (Config.event s.tick) s)) ∧
  (∀ s, s.now = .image → step s = advance (.next (s.loadImage (Config.image s.tick)))) ∧
  (∀ t : State, advance (.next t) = .next { t with now := Config.nextNow t.tick, tick := t.tick + 1 })

/-- R27 to R38: words of the spec's listings, and words that are no instruction, decode to what they stand for. -/
def Obligations.WordsDecode : Prop :=
  (decodeSeq 0x3321000000000060 = .ok (.ld64 2 1 96) ∧ decodeSeq 0x0098900000000000 = .ok (.add 9 8 9) ∧
    decodeSeq 0x108800FFFFFFFFFF = .ok (.addi 8 8 (-1)) ∧ decodeSeq 0x510890FFFFFFFFFF = .ok (.bne 8 9 (-1)) ∧
    decodeSeq 0x8662400000000000 = .ok (.qTake 6 2 4) ∧ decodeSeq 0x7202920000000000 = .ok (.strmGath 2 2 9 0 0 0) ∧
    decodeSeq 0x7101010000000000 = .ok (.strmOut 1 1 0 0 0) ∧ decodeSeq 0x8507010000000000 = .ok (.qAdd 7 1) ∧
    decodeSeq 0xF4A0000000000008 = .ok (.srr 10 8) ∧ decodeSeq 0x67B0000000000000 = .ok (.cfgDrain 11) ∧
    decodeSeq 0x7900000000000005 = .ok (.qfence 5) ∧ decodeSeq 0xF200000000000001 = .ok (.trap 1) ∧
    decodeSeq 0x8802030000000000 = .ok (.phReg 2 3) ∧ decodeSeq 0x8B62300000000000 = .ok (.phWait 6 2 3)) ∧
  (decodeSeq 0xFF00000000000000 = .error .illegal ∧ decodeSeq 0x0000000000000001 = .error .reservedField) ∧
  (decodeHandler 0x02040C40 0 = .ok (.hAdd 0 (.reg 8) (.reg 6) .i32x2 0 .wrap) ∧ decodeHandler 0x02044040 0 = .ok (.hAdd 0 (.reg 8) (.chan false 0) .i32x2 0 .wrap) ∧
    decodeHandler 0x60E68000 0x17FC0 = .ok (.hLit 7 0 0x17FC0) ∧ decodeHandler 0x5640E020 0 = .ok (.hBfxu 2 (.reg 1) 48 2 0) ∧
    decodeHandler 0xD4038C34 0 = .ok (.hSend (.reg 7) (.reg 6) 13) ∧ decodeHandler 0xD600000D 0 = .ok (.hExitDone 0 13) ∧
    decodeHandler 0xF0A19E28 0 = .ok (.hBoxt8Any 5 (.reg 3) (.reg 15) 10) ∧ decodeHandler 0x70028C80 0 = .ok (.hFadd 0 (.reg 5) (.reg 6) .f32x2 0 .rne) ∧
    decodeHandler 0xD0181F86 0 = .ok (.hEmit (.reg 3) 0 63 0 6) ∧ decodeHandler 0xBE230005 0 = .ok (.hStg64 1 (.reg 6) 0 5) ∧
    decodeHandler 0x66009A00 0x7E122 = .ok (.hSync 0 (.reg 1) (.reg 13) 0 63 0 1 0x22)) ∧
  (decodeHandler 0xFE000000 0 = .error .illegal ∧ decodeHandler 0x41068010 0 = .error .badDest)

/-- R27 to R32: the encoding of every well-formed step instruction decodes to it, and a step word decodes only to the instruction that it encodes. -/
def Obligations.StepEncodings : Prop :=
  (∀ i w, encodeSeq i = some w → i.wf = true → decodeSeq w = .ok i) ∧ (∀ w i, decodeSeq w = .ok i → encodeSeq i = some w ∧ i.wf = true)

/-- R33 to R38: the words of every well-formed handler instruction decode to it, and a handler word decodes only to the instruction that it
encodes, its literal read where there is one. -/
def Obligations.HandlerEncodings : Prop :=
  (∀ i w l, encodeHandler i = some (w, l) → i.wf = true → decodeHandler w l = .ok i) ∧
  (∀ w l i, decodeHandler w l = .ok i → i.wf = true ∧ encodeHandler i = some (w, if hasLiteral i then l else 0))

/-- Every step goes on to a next state, and keeps the memory's canonical form (the model's own invariant, notes/assumptions/3.md). -/
def Obligations.StepKeepsMemoryForm : Prop := ∀ s, ∃ t, step s = .next t ∧ (Sys2Proof.Inv s → Sys2Proof.Inv t)

end
end

