-- ==== Sys2Proof/Laws/Maps.lean ====
section
/-! SUPPORT. Laws of the sparse tables and of the byte memory: what a write changes and leaves, and the canonical form. -/

namespace Sys2Proof.Machine

variable {α : Type}

@[simp] theorem smFind_smPut_same (m : SMap α) (k : Nat) (v : α) : smFind (smPut m k v) k = some v := by
  induction m with
  | nil => simp [smPut, smFind]
  | cons e r ih =>
    obtain ⟨j, w⟩ := e
    by_cases h1 : k < j
    · simp [smPut, h1, smFind]
    · by_cases h2 : k = j
      · simp [smPut, h2, smFind]
      · have h3 : j ≠ k := fun h => h2 h.symm
        simp [smPut, h1, h2, smFind, h3, ih]

theorem smFind_smPut_of_ne (m : SMap α) {k j : Nat} (v : α) (h : j ≠ k) : smFind (smPut m k v) j = smFind m j := by
  induction m with
  | nil => simp [smPut, smFind, h.symm]
  | cons e r ih =>
    obtain ⟨i, w⟩ := e
    by_cases h1 : k < i
    · simp [smPut, h1, smFind, h.symm]
    · by_cases h2 : k = i
      · subst h2; simp [smPut, smFind, h.symm]
      · simp [smPut, h1, h2, smFind, ih]

@[simp] theorem smGet_smPut_same (d : α) (m : SMap α) (k : Nat) (v : α) : smGet d (smPut m k v) k = v := by
  simp [smGet]

theorem smGet_smPut_of_ne (d : α) (m : SMap α) {k j : Nat} (v : α) (h : j ≠ k) :
    smGet d (smPut m k v) j = smGet d m j := by simp [smGet, smFind_smPut_of_ne m v h]

theorem smGet_smPut (d : α) (m : SMap α) (k j : Nat) (v : α) :
    smGet d (smPut m k v) j = if j = k then v else smGet d m j := by
  by_cases h : j = k
  · subst h; simp
  · simp [h, smGet_smPut_of_ne d m v h]

@[simp] theorem smPut_smPut (m : SMap α) (k : Nat) (v w : α) : smPut (smPut m k v) k w = smPut m k w := by
  induction m with
  | nil => simp [smPut]
  | cons e r ih =>
    obtain ⟨i, x⟩ := e
    by_cases h1 : k < i
    · simp [smPut, h1]
    · by_cases h2 : k = i
      · subst h2; simp [smPut]
      · simp [smPut, h1, h2, ih]

/-- A write of a byte leaves every other address alone. -/
theorem memByte_memPut_of_ne (m : List Host.Cell) {k a : Nat} (v : Byte) (h : a ≠ k) :
    memByte (memPut m k v) a = memByte m a := by
  unfold memByte smGet
  congr 1
  induction m with
  | nil => by_cases hv : v = memDefault <;> simp [memPut, hv, smFind, h.symm]
  | cons e r ih =>
    obtain ⟨i, w⟩ := e
    by_cases h1 : k < i
    · by_cases hv : v = memDefault <;> simp [memPut, h1, hv, smFind, h.symm]
    · by_cases h2 : k = i
      · subst h2; by_cases hv : v = memDefault <;> simp [memPut, hv, smFind, h.symm]
      · simp [memPut, h1, h2, smFind, ih]

/-- A memory whose keys start at a bound lists nothing below it. -/
theorem smFind_of_lt {m : List Host.Cell} {lo a : Nat} (h : memWfFrom lo m = true) (ha : a < lo) : smFind m a = none := by
  induction m generalizing lo with
  | nil => rfl
  | cons e r ih =>
    obtain ⟨j, w⟩ := e
    simp only [memWfFrom, Bool.and_eq_true, decide_eq_true_eq] at h
    have hj : j ≠ a := by omega
    simp only [smFind, hj, if_false]
    exact ih h.2 (by omega)

/-- In canonical form, a byte reads as what was written there. -/
theorem memByte_memPut_same {m : List Host.Cell} {lo : Nat} (h : memWfFrom lo m = true) (k : Nat) (v : Byte) :
    memByte (memPut m k v) k = v := by
  induction m generalizing lo with
  | nil =>
    by_cases hv : v = memDefault
    · simp [memPut, hv, memByte, smGet, smFind]
    · simp [memPut, hv, memByte, smGet, smFind]
  | cons e r ih =>
    obtain ⟨j, w⟩ := e
    simp only [memWfFrom, Bool.and_eq_true, decide_eq_true_eq] at h
    by_cases h1 : k < j
    · by_cases hv : v = memDefault
      · have hj : j ≠ k := by omega
        have hr := smFind_of_lt (a := k) h.2 (by omega)
        simp [memPut, h1, hv, memByte, smGet, smFind, hj, hr]
      · simp [memPut, h1, hv, memByte, smGet, smFind]
    · by_cases h2 : k = j
      · subst h2
        by_cases hv : v = memDefault
        · have hr := smFind_of_lt (a := k) h.2 (by omega)
          simp [memPut, hv, memByte, smGet, hr]
        · simp [memPut, hv, memByte, smGet, smFind]
      · have hj : j ≠ k := fun x => h2 x.symm
        have hi := ih h.2
        simp only [memByte, smGet] at hi
        simp [memPut, h1, h2, memByte, smGet, smFind, hj, hi]

theorem memByte_memPut {m : List Host.Cell} (h : Memory.wf m = true) (k a : Nat) (v : Byte) :
    memByte (memPut m k v) a = if a = k then v else memByte m a := by
  by_cases e : a = k
  · subst e; simpa using memByte_memPut_same h a v
  · simp [e, memByte_memPut_of_ne m v e]

/-- The canonical form with a lower bound. -/
theorem memWfFrom_mono {m : List Host.Cell} {lo lo' : Nat} (h : memWfFrom lo m = true) (hl : lo' ≤ lo) : memWfFrom lo' m = true := by
  cases m with
  | nil => rfl
  | cons e r =>
    obtain ⟨j, w⟩ := e
    simp only [memWfFrom, Bool.and_eq_true, decide_eq_true_eq] at h ⊢
    exact ⟨⟨by omega, h.1.2⟩, h.2⟩

theorem memWfFrom_memPut {m : List Host.Cell} {lo : Nat} (h : memWfFrom lo m = true) {k : Nat} (hk : lo ≤ k) (v : Byte) :
    memWfFrom lo (memPut m k v) = true := by
  induction m generalizing lo with
  | nil => by_cases hv : v = memDefault <;> simp [memPut, hv, memWfFrom, hk]
  | cons e r ih =>
    obtain ⟨j, w⟩ := e
    have h' := h
    simp only [memWfFrom, Bool.and_eq_true, decide_eq_true_eq] at h
    by_cases h1 : k < j
    · by_cases hv : v = memDefault
      · simp [memPut, h1, hv, h']
      · simp [memPut, h1, hv, memWfFrom, hk, h.2, h.1.2]
    · by_cases h2 : k = j
      · subst h2
        by_cases hv : v = memDefault
        · simp only [memPut, hv, lt_irrefl, if_false, if_true]; exact memWfFrom_mono h.2 (by omega)
        · simp [memPut, hv, memWfFrom, hk, h.2]
      · simp only [memPut, h1, h2, if_false, memWfFrom, Bool.and_eq_true, decide_eq_true_eq]
        exact ⟨h.1, ih h.2 (by omega)⟩

/-- A write of a byte keeps the canonical form. -/
theorem memPut_wf {m : List Host.Cell} (h : Memory.wf m = true) (k : Nat) (v : Byte) : Memory.wf (memPut m k v) = true :=
  memWfFrom_memPut h (Nat.zero_le k) v

/-- A write of several bytes keeps it. -/
theorem memWrite_wf {m : List Host.Cell} (h : Memory.wf m = true) (a n v : Nat) : Memory.wf (memWrite m a n v) = true := by
  induction n generalizing m a v with
  | zero => exact h
  | succ n ih => exact ih (memPut_wf h a _) (a + 1) (v / 256)

theorem memWfFrom_filter {m : List Host.Cell} {lo : Nat} (h : memWfFrom lo m = true) (p : Host.Cell → Bool) :
    memWfFrom lo (m.filter p) = true := by
  induction m generalizing lo with
  | nil => rfl
  | cons e r ih =>
    obtain ⟨j, w⟩ := e
    simp only [memWfFrom, Bool.and_eq_true, decide_eq_true_eq] at h
    by_cases hp : p (j, w) = true
    · simp only [List.filter_cons, hp, if_true, memWfFrom, Bool.and_eq_true, decide_eq_true_eq]
      exact ⟨h.1, ih h.2⟩
    · simp only [List.filter_cons, hp]
      exact memWfFrom_mono (ih h.2) (by omega)

/-- Taking bytes out keeps it. -/
theorem memFilter_wf {m : List Host.Cell} (h : Memory.wf m = true) (p : Host.Cell → Bool) : Memory.wf (m.filter p) = true :=
  memWfFrom_filter h p

theorem memClear_wf {m : List Host.Cell} (h : Memory.wf m = true) (a n : Nat) : Memory.wf (memClear m a n) = true :=
  memFilter_wf h _

/-- Any run of writes that each keep the form keeps it. -/
theorem memFold_wf {β : Type} {m : List Host.Cell} (h : Memory.wf m = true) (l : List β)
    (f : List Host.Cell → β → List Host.Cell) (hf : ∀ m x, Memory.wf m = true → Memory.wf (f m x) = true) :
    Memory.wf (l.foldl f m) = true := by
  induction l generalizing m with
  | nil => exact h
  | cons x r ih => exact ih (hf m x h)

/-- A move of bytes keeps it. -/
theorem memMove_wf {m : List Host.Cell} (h : Memory.wf m = true) (src dst n : Nat) : Memory.wf (memMove m src dst n) = true :=
  memFold_wf (memClear_wf h dst n) _ _ fun _ x hm => memPut_wf hm _ x.2

/-- A write of several bytes leaves the addresses outside them alone. -/
theorem memByte_memWrite_of_out (m : List Host.Cell) (a n v : Nat) {b : Nat} (h : b < a ∨ a + n ≤ b) :
    memByte (memWrite m a n v) b = memByte m b := by
  induction n generalizing m a v with
  | zero => rfl
  | succ n ih =>
    rw [memWrite, ih _ _ _ (by omega), memByte_memPut_of_ne _ _ (by omega)]

/-- In canonical form, the bytes written read back in order. -/
theorem memByte_memWrite {m : List Host.Cell} (h : Memory.wf m = true) (a n v i : Nat) (hi : i < n) :
    memByte (memWrite m a n v) (a + i) = BitVec.ofNat 8 (v / 256 ^ i) := by
  induction n generalizing m a v i with
  | zero => omega
  | succ n ih =>
    rw [memWrite]
    cases i with
    | zero =>
      rw [Nat.add_zero, memByte_memWrite_of_out _ _ _ _ (by omega), memByte_memPut h]
      simp
    | succ i =>
      have := ih (memPut_wf h a (BitVec.ofNat 8 v)) (a + 1) (v / 256) i (by omega)
      rw [show a + (i + 1) = a + 1 + i by omega, this, Nat.div_div_eq_div_mul, pow_succ']

end Sys2Proof.Machine
end

