-- ==== Sys2Proof/Laws/State.lean ====
section
/-! SUPPORT. Each named operation of the state, field by field, and each part read back after it is written. -/

namespace Sys2Proof.Machine

/-! setTile -/

@[simp] theorem State.setTile_now (s : State) (t : Nat) (x : Tile) : (s.setTile t x).now = s.now := rfl
@[simp] theorem State.setTile_tile (s : State) (t : Nat) (x : Tile) : (s.setTile t x).tile = s.tile := rfl
@[simp] theorem State.setTile_cell (s : State) (t : Nat) (x : Tile) : (s.setTile t x).cell = s.cell := rfl
@[simp] theorem State.setTile_tick (s : State) (t : Nat) (x : Tile) : (s.setTile t x).tick = s.tick := rfl
@[simp] theorem State.setTile_clk (s : State) (t : Nat) (x : Tile) : (s.setTile t x).clk = s.clk := rfl
@[simp] theorem State.setTile_eighths (s : State) (t : Nat) (x : Tile) : (s.setTile t x).eighths = s.eighths := rfl
@[simp] theorem State.setTile_stamp (s : State) (t : Nat) (x : Tile) : (s.setTile t x).stamp = s.stamp := rfl
@[simp] theorem State.setTile_mem (s : State) (t : Nat) (x : Tile) : (s.setTile t x).mem = s.mem := rfl
@[simp] theorem State.setTile_cells (s : State) (t : Nat) (x : Tile) : (s.setTile t x).cells = s.cells := rfl
@[simp] theorem State.setTile_dies (s : State) (t : Nat) (x : Tile) : (s.setTile t x).dies = s.dies := rfl
@[simp] theorem State.setTile_homeTs (s : State) (t : Nat) (x : Tile) : (s.setTile t x).homeTs = s.homeTs := rfl
@[simp] theorem State.setTile_msgs (s : State) (t : Nat) (x : Tile) : (s.setTile t x).msgs = s.msgs := rfl
@[simp] theorem State.setTile_net (s : State) (t : Nat) (x : Tile) : (s.setTile t x).net = s.net := rfl
@[simp] theorem State.setTile_flows (s : State) (t : Nat) (x : Tile) : (s.setTile t x).flows = s.flows := rfl
@[simp] theorem State.setTile_launches (s : State) (t : Nat) (x : Tile) : (s.setTile t x).launches = s.launches := rfl
@[simp] theorem State.setTile_folios (s : State) (t : Nat) (x : Tile) : (s.setTile t x).folios = s.folios := rfl
@[simp] theorem State.setTile_work (s : State) (t : Nat) (x : Tile) : (s.setTile t x).work = s.work := rfl
@[simp] theorem State.setTile_rebasing (s : State) (t : Nat) (x : Tile) : (s.setTile t x).rebasing = s.rebasing := rfl
@[simp] theorem State.setTile_rebases (s : State) (t : Nat) (x : Tile) : (s.setTile t x).rebases = s.rebases := rfl
@[simp] theorem State.setTile_mod (s : State) (t : Nat) (x : Tile) : (s.setTile t x).mod = s.mod := rfl

/-! modTile -/

@[simp] theorem State.modTile_now (s : State) (t : Nat) (f : Tile → Tile) : (s.modTile t f).now = s.now := rfl
@[simp] theorem State.modTile_tile (s : State) (t : Nat) (f : Tile → Tile) : (s.modTile t f).tile = s.tile := rfl
@[simp] theorem State.modTile_cell (s : State) (t : Nat) (f : Tile → Tile) : (s.modTile t f).cell = s.cell := rfl
@[simp] theorem State.modTile_tick (s : State) (t : Nat) (f : Tile → Tile) : (s.modTile t f).tick = s.tick := rfl
@[simp] theorem State.modTile_clk (s : State) (t : Nat) (f : Tile → Tile) : (s.modTile t f).clk = s.clk := rfl
@[simp] theorem State.modTile_eighths (s : State) (t : Nat) (f : Tile → Tile) : (s.modTile t f).eighths = s.eighths := rfl
@[simp] theorem State.modTile_stamp (s : State) (t : Nat) (f : Tile → Tile) : (s.modTile t f).stamp = s.stamp := rfl
@[simp] theorem State.modTile_mem (s : State) (t : Nat) (f : Tile → Tile) : (s.modTile t f).mem = s.mem := rfl
@[simp] theorem State.modTile_cells (s : State) (t : Nat) (f : Tile → Tile) : (s.modTile t f).cells = s.cells := rfl
@[simp] theorem State.modTile_dies (s : State) (t : Nat) (f : Tile → Tile) : (s.modTile t f).dies = s.dies := rfl
@[simp] theorem State.modTile_homeTs (s : State) (t : Nat) (f : Tile → Tile) : (s.modTile t f).homeTs = s.homeTs := rfl
@[simp] theorem State.modTile_msgs (s : State) (t : Nat) (f : Tile → Tile) : (s.modTile t f).msgs = s.msgs := rfl
@[simp] theorem State.modTile_net (s : State) (t : Nat) (f : Tile → Tile) : (s.modTile t f).net = s.net := rfl
@[simp] theorem State.modTile_flows (s : State) (t : Nat) (f : Tile → Tile) : (s.modTile t f).flows = s.flows := rfl
@[simp] theorem State.modTile_launches (s : State) (t : Nat) (f : Tile → Tile) : (s.modTile t f).launches = s.launches := rfl
@[simp] theorem State.modTile_folios (s : State) (t : Nat) (f : Tile → Tile) : (s.modTile t f).folios = s.folios := rfl
@[simp] theorem State.modTile_work (s : State) (t : Nat) (f : Tile → Tile) : (s.modTile t f).work = s.work := rfl
@[simp] theorem State.modTile_rebasing (s : State) (t : Nat) (f : Tile → Tile) : (s.modTile t f).rebasing = s.rebasing := rfl
@[simp] theorem State.modTile_rebases (s : State) (t : Nat) (f : Tile → Tile) : (s.modTile t f).rebases = s.rebases := rfl
@[simp] theorem State.modTile_mod (s : State) (t : Nat) (f : Tile → Tile) : (s.modTile t f).mod = s.mod := rfl

/-! modCur -/

@[simp] theorem State.modCur_now (s : State) (f : Tile → Tile) : (s.modCur f).now = s.now := rfl
@[simp] theorem State.modCur_tile (s : State) (f : Tile → Tile) : (s.modCur f).tile = s.tile := rfl
@[simp] theorem State.modCur_cell (s : State) (f : Tile → Tile) : (s.modCur f).cell = s.cell := rfl
@[simp] theorem State.modCur_tick (s : State) (f : Tile → Tile) : (s.modCur f).tick = s.tick := rfl
@[simp] theorem State.modCur_clk (s : State) (f : Tile → Tile) : (s.modCur f).clk = s.clk := rfl
@[simp] theorem State.modCur_eighths (s : State) (f : Tile → Tile) : (s.modCur f).eighths = s.eighths := rfl
@[simp] theorem State.modCur_stamp (s : State) (f : Tile → Tile) : (s.modCur f).stamp = s.stamp := rfl
@[simp] theorem State.modCur_mem (s : State) (f : Tile → Tile) : (s.modCur f).mem = s.mem := rfl
@[simp] theorem State.modCur_cells (s : State) (f : Tile → Tile) : (s.modCur f).cells = s.cells := rfl
@[simp] theorem State.modCur_dies (s : State) (f : Tile → Tile) : (s.modCur f).dies = s.dies := rfl
@[simp] theorem State.modCur_homeTs (s : State) (f : Tile → Tile) : (s.modCur f).homeTs = s.homeTs := rfl
@[simp] theorem State.modCur_msgs (s : State) (f : Tile → Tile) : (s.modCur f).msgs = s.msgs := rfl
@[simp] theorem State.modCur_net (s : State) (f : Tile → Tile) : (s.modCur f).net = s.net := rfl
@[simp] theorem State.modCur_flows (s : State) (f : Tile → Tile) : (s.modCur f).flows = s.flows := rfl
@[simp] theorem State.modCur_launches (s : State) (f : Tile → Tile) : (s.modCur f).launches = s.launches := rfl
@[simp] theorem State.modCur_folios (s : State) (f : Tile → Tile) : (s.modCur f).folios = s.folios := rfl
@[simp] theorem State.modCur_work (s : State) (f : Tile → Tile) : (s.modCur f).work = s.work := rfl
@[simp] theorem State.modCur_rebasing (s : State) (f : Tile → Tile) : (s.modCur f).rebasing = s.rebasing := rfl
@[simp] theorem State.modCur_rebases (s : State) (f : Tile → Tile) : (s.modCur f).rebases = s.rebases := rfl
@[simp] theorem State.modCur_mod (s : State) (f : Tile → Tile) : (s.modCur f).mod = s.mod := rfl

/-! setCell -/

@[simp] theorem State.setCell_now (s : State) (c : Nat) (x : Cell) : (s.setCell c x).now = s.now := rfl
@[simp] theorem State.setCell_tile (s : State) (c : Nat) (x : Cell) : (s.setCell c x).tile = s.tile := rfl
@[simp] theorem State.setCell_cell (s : State) (c : Nat) (x : Cell) : (s.setCell c x).cell = s.cell := rfl
@[simp] theorem State.setCell_tick (s : State) (c : Nat) (x : Cell) : (s.setCell c x).tick = s.tick := rfl
@[simp] theorem State.setCell_clk (s : State) (c : Nat) (x : Cell) : (s.setCell c x).clk = s.clk := rfl
@[simp] theorem State.setCell_eighths (s : State) (c : Nat) (x : Cell) : (s.setCell c x).eighths = s.eighths := rfl
@[simp] theorem State.setCell_stamp (s : State) (c : Nat) (x : Cell) : (s.setCell c x).stamp = s.stamp := rfl
@[simp] theorem State.setCell_mem (s : State) (c : Nat) (x : Cell) : (s.setCell c x).mem = s.mem := rfl
@[simp] theorem State.setCell_tiles (s : State) (c : Nat) (x : Cell) : (s.setCell c x).tiles = s.tiles := rfl
@[simp] theorem State.setCell_dies (s : State) (c : Nat) (x : Cell) : (s.setCell c x).dies = s.dies := rfl
@[simp] theorem State.setCell_homeTs (s : State) (c : Nat) (x : Cell) : (s.setCell c x).homeTs = s.homeTs := rfl
@[simp] theorem State.setCell_msgs (s : State) (c : Nat) (x : Cell) : (s.setCell c x).msgs = s.msgs := rfl
@[simp] theorem State.setCell_net (s : State) (c : Nat) (x : Cell) : (s.setCell c x).net = s.net := rfl
@[simp] theorem State.setCell_flows (s : State) (c : Nat) (x : Cell) : (s.setCell c x).flows = s.flows := rfl
@[simp] theorem State.setCell_launches (s : State) (c : Nat) (x : Cell) : (s.setCell c x).launches = s.launches := rfl
@[simp] theorem State.setCell_folios (s : State) (c : Nat) (x : Cell) : (s.setCell c x).folios = s.folios := rfl
@[simp] theorem State.setCell_work (s : State) (c : Nat) (x : Cell) : (s.setCell c x).work = s.work := rfl
@[simp] theorem State.setCell_rebasing (s : State) (c : Nat) (x : Cell) : (s.setCell c x).rebasing = s.rebasing := rfl
@[simp] theorem State.setCell_rebases (s : State) (c : Nat) (x : Cell) : (s.setCell c x).rebases = s.rebases := rfl
@[simp] theorem State.setCell_mod (s : State) (c : Nat) (x : Cell) : (s.setCell c x).mod = s.mod := rfl

/-! modCell -/

@[simp] theorem State.modCell_now (s : State) (c : Nat) (f : Cell → Cell) : (s.modCell c f).now = s.now := rfl
@[simp] theorem State.modCell_tile (s : State) (c : Nat) (f : Cell → Cell) : (s.modCell c f).tile = s.tile := rfl
@[simp] theorem State.modCell_cell (s : State) (c : Nat) (f : Cell → Cell) : (s.modCell c f).cell = s.cell := rfl
@[simp] theorem State.modCell_tick (s : State) (c : Nat) (f : Cell → Cell) : (s.modCell c f).tick = s.tick := rfl
@[simp] theorem State.modCell_clk (s : State) (c : Nat) (f : Cell → Cell) : (s.modCell c f).clk = s.clk := rfl
@[simp] theorem State.modCell_eighths (s : State) (c : Nat) (f : Cell → Cell) : (s.modCell c f).eighths = s.eighths := rfl
@[simp] theorem State.modCell_stamp (s : State) (c : Nat) (f : Cell → Cell) : (s.modCell c f).stamp = s.stamp := rfl
@[simp] theorem State.modCell_mem (s : State) (c : Nat) (f : Cell → Cell) : (s.modCell c f).mem = s.mem := rfl
@[simp] theorem State.modCell_tiles (s : State) (c : Nat) (f : Cell → Cell) : (s.modCell c f).tiles = s.tiles := rfl
@[simp] theorem State.modCell_dies (s : State) (c : Nat) (f : Cell → Cell) : (s.modCell c f).dies = s.dies := rfl
@[simp] theorem State.modCell_homeTs (s : State) (c : Nat) (f : Cell → Cell) : (s.modCell c f).homeTs = s.homeTs := rfl
@[simp] theorem State.modCell_msgs (s : State) (c : Nat) (f : Cell → Cell) : (s.modCell c f).msgs = s.msgs := rfl
@[simp] theorem State.modCell_net (s : State) (c : Nat) (f : Cell → Cell) : (s.modCell c f).net = s.net := rfl
@[simp] theorem State.modCell_flows (s : State) (c : Nat) (f : Cell → Cell) : (s.modCell c f).flows = s.flows := rfl
@[simp] theorem State.modCell_launches (s : State) (c : Nat) (f : Cell → Cell) : (s.modCell c f).launches = s.launches := rfl
@[simp] theorem State.modCell_folios (s : State) (c : Nat) (f : Cell → Cell) : (s.modCell c f).folios = s.folios := rfl
@[simp] theorem State.modCell_work (s : State) (c : Nat) (f : Cell → Cell) : (s.modCell c f).work = s.work := rfl
@[simp] theorem State.modCell_rebasing (s : State) (c : Nat) (f : Cell → Cell) : (s.modCell c f).rebasing = s.rebasing := rfl
@[simp] theorem State.modCell_rebases (s : State) (c : Nat) (f : Cell → Cell) : (s.modCell c f).rebases = s.rebases := rfl
@[simp] theorem State.modCell_mod (s : State) (c : Nat) (f : Cell → Cell) : (s.modCell c f).mod = s.mod := rfl

/-! modCp -/

@[simp] theorem State.modCp_now (s : State) (c : Nat) (f : CellPlane → CellPlane) : (s.modCp c f).now = s.now := rfl
@[simp] theorem State.modCp_tile (s : State) (c : Nat) (f : CellPlane → CellPlane) : (s.modCp c f).tile = s.tile := rfl
@[simp] theorem State.modCp_cell (s : State) (c : Nat) (f : CellPlane → CellPlane) : (s.modCp c f).cell = s.cell := rfl
@[simp] theorem State.modCp_tick (s : State) (c : Nat) (f : CellPlane → CellPlane) : (s.modCp c f).tick = s.tick := rfl
@[simp] theorem State.modCp_clk (s : State) (c : Nat) (f : CellPlane → CellPlane) : (s.modCp c f).clk = s.clk := rfl
@[simp] theorem State.modCp_eighths (s : State) (c : Nat) (f : CellPlane → CellPlane) : (s.modCp c f).eighths = s.eighths := rfl
@[simp] theorem State.modCp_stamp (s : State) (c : Nat) (f : CellPlane → CellPlane) : (s.modCp c f).stamp = s.stamp := rfl
@[simp] theorem State.modCp_mem (s : State) (c : Nat) (f : CellPlane → CellPlane) : (s.modCp c f).mem = s.mem := rfl
@[simp] theorem State.modCp_tiles (s : State) (c : Nat) (f : CellPlane → CellPlane) : (s.modCp c f).tiles = s.tiles := rfl
@[simp] theorem State.modCp_dies (s : State) (c : Nat) (f : CellPlane → CellPlane) : (s.modCp c f).dies = s.dies := rfl
@[simp] theorem State.modCp_homeTs (s : State) (c : Nat) (f : CellPlane → CellPlane) : (s.modCp c f).homeTs = s.homeTs := rfl
@[simp] theorem State.modCp_msgs (s : State) (c : Nat) (f : CellPlane → CellPlane) : (s.modCp c f).msgs = s.msgs := rfl
@[simp] theorem State.modCp_net (s : State) (c : Nat) (f : CellPlane → CellPlane) : (s.modCp c f).net = s.net := rfl
@[simp] theorem State.modCp_flows (s : State) (c : Nat) (f : CellPlane → CellPlane) : (s.modCp c f).flows = s.flows := rfl
@[simp] theorem State.modCp_launches (s : State) (c : Nat) (f : CellPlane → CellPlane) : (s.modCp c f).launches = s.launches := rfl
@[simp] theorem State.modCp_folios (s : State) (c : Nat) (f : CellPlane → CellPlane) : (s.modCp c f).folios = s.folios := rfl
@[simp] theorem State.modCp_work (s : State) (c : Nat) (f : CellPlane → CellPlane) : (s.modCp c f).work = s.work := rfl
@[simp] theorem State.modCp_rebasing (s : State) (c : Nat) (f : CellPlane → CellPlane) : (s.modCp c f).rebasing = s.rebasing := rfl
@[simp] theorem State.modCp_rebases (s : State) (c : Nat) (f : CellPlane → CellPlane) : (s.modCp c f).rebases = s.rebases := rfl
@[simp] theorem State.modCp_mod (s : State) (c : Nat) (f : CellPlane → CellPlane) : (s.modCp c f).mod = s.mod := rfl

/-! modDie -/

@[simp] theorem State.modDie_now (s : State) (d : Nat) (f : Die → Die) : (s.modDie d f).now = s.now := rfl
@[simp] theorem State.modDie_tile (s : State) (d : Nat) (f : Die → Die) : (s.modDie d f).tile = s.tile := rfl
@[simp] theorem State.modDie_cell (s : State) (d : Nat) (f : Die → Die) : (s.modDie d f).cell = s.cell := rfl
@[simp] theorem State.modDie_tick (s : State) (d : Nat) (f : Die → Die) : (s.modDie d f).tick = s.tick := rfl
@[simp] theorem State.modDie_clk (s : State) (d : Nat) (f : Die → Die) : (s.modDie d f).clk = s.clk := rfl
@[simp] theorem State.modDie_eighths (s : State) (d : Nat) (f : Die → Die) : (s.modDie d f).eighths = s.eighths := rfl
@[simp] theorem State.modDie_stamp (s : State) (d : Nat) (f : Die → Die) : (s.modDie d f).stamp = s.stamp := rfl
@[simp] theorem State.modDie_mem (s : State) (d : Nat) (f : Die → Die) : (s.modDie d f).mem = s.mem := rfl
@[simp] theorem State.modDie_tiles (s : State) (d : Nat) (f : Die → Die) : (s.modDie d f).tiles = s.tiles := rfl
@[simp] theorem State.modDie_cells (s : State) (d : Nat) (f : Die → Die) : (s.modDie d f).cells = s.cells := rfl
@[simp] theorem State.modDie_homeTs (s : State) (d : Nat) (f : Die → Die) : (s.modDie d f).homeTs = s.homeTs := rfl
@[simp] theorem State.modDie_msgs (s : State) (d : Nat) (f : Die → Die) : (s.modDie d f).msgs = s.msgs := rfl
@[simp] theorem State.modDie_net (s : State) (d : Nat) (f : Die → Die) : (s.modDie d f).net = s.net := rfl
@[simp] theorem State.modDie_flows (s : State) (d : Nat) (f : Die → Die) : (s.modDie d f).flows = s.flows := rfl
@[simp] theorem State.modDie_launches (s : State) (d : Nat) (f : Die → Die) : (s.modDie d f).launches = s.launches := rfl
@[simp] theorem State.modDie_folios (s : State) (d : Nat) (f : Die → Die) : (s.modDie d f).folios = s.folios := rfl
@[simp] theorem State.modDie_work (s : State) (d : Nat) (f : Die → Die) : (s.modDie d f).work = s.work := rfl
@[simp] theorem State.modDie_rebasing (s : State) (d : Nat) (f : Die → Die) : (s.modDie d f).rebasing = s.rebasing := rfl
@[simp] theorem State.modDie_rebases (s : State) (d : Nat) (f : Die → Die) : (s.modDie d f).rebases = s.rebases := rfl
@[simp] theorem State.modDie_mod (s : State) (d : Nat) (f : Die → Die) : (s.modDie d f).mod = s.mod := rfl

/-! setReg -/

@[simp] theorem State.setReg_now (s : State) (d off : Nat) (v : Word) : (s.setReg d off v).now = s.now := rfl
@[simp] theorem State.setReg_tile (s : State) (d off : Nat) (v : Word) : (s.setReg d off v).tile = s.tile := rfl
@[simp] theorem State.setReg_cell (s : State) (d off : Nat) (v : Word) : (s.setReg d off v).cell = s.cell := rfl
@[simp] theorem State.setReg_tick (s : State) (d off : Nat) (v : Word) : (s.setReg d off v).tick = s.tick := rfl
@[simp] theorem State.setReg_clk (s : State) (d off : Nat) (v : Word) : (s.setReg d off v).clk = s.clk := rfl
@[simp] theorem State.setReg_eighths (s : State) (d off : Nat) (v : Word) : (s.setReg d off v).eighths = s.eighths := rfl
@[simp] theorem State.setReg_stamp (s : State) (d off : Nat) (v : Word) : (s.setReg d off v).stamp = s.stamp := rfl
@[simp] theorem State.setReg_mem (s : State) (d off : Nat) (v : Word) : (s.setReg d off v).mem = s.mem := rfl
@[simp] theorem State.setReg_tiles (s : State) (d off : Nat) (v : Word) : (s.setReg d off v).tiles = s.tiles := rfl
@[simp] theorem State.setReg_cells (s : State) (d off : Nat) (v : Word) : (s.setReg d off v).cells = s.cells := rfl
@[simp] theorem State.setReg_homeTs (s : State) (d off : Nat) (v : Word) : (s.setReg d off v).homeTs = s.homeTs := rfl
@[simp] theorem State.setReg_msgs (s : State) (d off : Nat) (v : Word) : (s.setReg d off v).msgs = s.msgs := rfl
@[simp] theorem State.setReg_net (s : State) (d off : Nat) (v : Word) : (s.setReg d off v).net = s.net := rfl
@[simp] theorem State.setReg_flows (s : State) (d off : Nat) (v : Word) : (s.setReg d off v).flows = s.flows := rfl
@[simp] theorem State.setReg_launches (s : State) (d off : Nat) (v : Word) : (s.setReg d off v).launches = s.launches := rfl
@[simp] theorem State.setReg_folios (s : State) (d off : Nat) (v : Word) : (s.setReg d off v).folios = s.folios := rfl
@[simp] theorem State.setReg_work (s : State) (d off : Nat) (v : Word) : (s.setReg d off v).work = s.work := rfl
@[simp] theorem State.setReg_rebasing (s : State) (d off : Nat) (v : Word) : (s.setReg d off v).rebasing = s.rebasing := rfl
@[simp] theorem State.setReg_rebases (s : State) (d off : Nat) (v : Word) : (s.setReg d off v).rebases = s.rebases := rfl
@[simp] theorem State.setReg_mod (s : State) (d off : Nat) (v : Word) : (s.setReg d off v).mod = s.mod := rfl

/-! setLaunch -/

@[simp] theorem State.setLaunch_now (s : State) (u : Nat) (l : Launch) : (s.setLaunch u l).now = s.now := rfl
@[simp] theorem State.setLaunch_tile (s : State) (u : Nat) (l : Launch) : (s.setLaunch u l).tile = s.tile := rfl
@[simp] theorem State.setLaunch_cell (s : State) (u : Nat) (l : Launch) : (s.setLaunch u l).cell = s.cell := rfl
@[simp] theorem State.setLaunch_tick (s : State) (u : Nat) (l : Launch) : (s.setLaunch u l).tick = s.tick := rfl
@[simp] theorem State.setLaunch_clk (s : State) (u : Nat) (l : Launch) : (s.setLaunch u l).clk = s.clk := rfl
@[simp] theorem State.setLaunch_eighths (s : State) (u : Nat) (l : Launch) : (s.setLaunch u l).eighths = s.eighths := rfl
@[simp] theorem State.setLaunch_stamp (s : State) (u : Nat) (l : Launch) : (s.setLaunch u l).stamp = s.stamp := rfl
@[simp] theorem State.setLaunch_mem (s : State) (u : Nat) (l : Launch) : (s.setLaunch u l).mem = s.mem := rfl
@[simp] theorem State.setLaunch_tiles (s : State) (u : Nat) (l : Launch) : (s.setLaunch u l).tiles = s.tiles := rfl
@[simp] theorem State.setLaunch_cells (s : State) (u : Nat) (l : Launch) : (s.setLaunch u l).cells = s.cells := rfl
@[simp] theorem State.setLaunch_dies (s : State) (u : Nat) (l : Launch) : (s.setLaunch u l).dies = s.dies := rfl
@[simp] theorem State.setLaunch_homeTs (s : State) (u : Nat) (l : Launch) : (s.setLaunch u l).homeTs = s.homeTs := rfl
@[simp] theorem State.setLaunch_msgs (s : State) (u : Nat) (l : Launch) : (s.setLaunch u l).msgs = s.msgs := rfl
@[simp] theorem State.setLaunch_net (s : State) (u : Nat) (l : Launch) : (s.setLaunch u l).net = s.net := rfl
@[simp] theorem State.setLaunch_flows (s : State) (u : Nat) (l : Launch) : (s.setLaunch u l).flows = s.flows := rfl
@[simp] theorem State.setLaunch_folios (s : State) (u : Nat) (l : Launch) : (s.setLaunch u l).folios = s.folios := rfl
@[simp] theorem State.setLaunch_work (s : State) (u : Nat) (l : Launch) : (s.setLaunch u l).work = s.work := rfl
@[simp] theorem State.setLaunch_rebasing (s : State) (u : Nat) (l : Launch) : (s.setLaunch u l).rebasing = s.rebasing := rfl
@[simp] theorem State.setLaunch_rebases (s : State) (u : Nat) (l : Launch) : (s.setLaunch u l).rebases = s.rebases := rfl
@[simp] theorem State.setLaunch_mod (s : State) (u : Nat) (l : Launch) : (s.setLaunch u l).mod = s.mod := rfl

/-! modLaunch -/

@[simp] theorem State.modLaunch_now (s : State) (u : Nat) (f : Launch → Launch) : (s.modLaunch u f).now = s.now := by unfold State.modLaunch; split <;> rfl
@[simp] theorem State.modLaunch_tile (s : State) (u : Nat) (f : Launch → Launch) : (s.modLaunch u f).tile = s.tile := by unfold State.modLaunch; split <;> rfl
@[simp] theorem State.modLaunch_cell (s : State) (u : Nat) (f : Launch → Launch) : (s.modLaunch u f).cell = s.cell := by unfold State.modLaunch; split <;> rfl
@[simp] theorem State.modLaunch_tick (s : State) (u : Nat) (f : Launch → Launch) : (s.modLaunch u f).tick = s.tick := by unfold State.modLaunch; split <;> rfl
@[simp] theorem State.modLaunch_clk (s : State) (u : Nat) (f : Launch → Launch) : (s.modLaunch u f).clk = s.clk := by unfold State.modLaunch; split <;> rfl
@[simp] theorem State.modLaunch_eighths (s : State) (u : Nat) (f : Launch → Launch) : (s.modLaunch u f).eighths = s.eighths := by unfold State.modLaunch; split <;> rfl
@[simp] theorem State.modLaunch_stamp (s : State) (u : Nat) (f : Launch → Launch) : (s.modLaunch u f).stamp = s.stamp := by unfold State.modLaunch; split <;> rfl
@[simp] theorem State.modLaunch_mem (s : State) (u : Nat) (f : Launch → Launch) : (s.modLaunch u f).mem = s.mem := by unfold State.modLaunch; split <;> rfl
@[simp] theorem State.modLaunch_tiles (s : State) (u : Nat) (f : Launch → Launch) : (s.modLaunch u f).tiles = s.tiles := by unfold State.modLaunch; split <;> rfl
@[simp] theorem State.modLaunch_cells (s : State) (u : Nat) (f : Launch → Launch) : (s.modLaunch u f).cells = s.cells := by unfold State.modLaunch; split <;> rfl
@[simp] theorem State.modLaunch_dies (s : State) (u : Nat) (f : Launch → Launch) : (s.modLaunch u f).dies = s.dies := by unfold State.modLaunch; split <;> rfl
@[simp] theorem State.modLaunch_homeTs (s : State) (u : Nat) (f : Launch → Launch) : (s.modLaunch u f).homeTs = s.homeTs := by unfold State.modLaunch; split <;> rfl
@[simp] theorem State.modLaunch_msgs (s : State) (u : Nat) (f : Launch → Launch) : (s.modLaunch u f).msgs = s.msgs := by unfold State.modLaunch; split <;> rfl
@[simp] theorem State.modLaunch_net (s : State) (u : Nat) (f : Launch → Launch) : (s.modLaunch u f).net = s.net := by unfold State.modLaunch; split <;> rfl
@[simp] theorem State.modLaunch_flows (s : State) (u : Nat) (f : Launch → Launch) : (s.modLaunch u f).flows = s.flows := by unfold State.modLaunch; split <;> rfl
@[simp] theorem State.modLaunch_folios (s : State) (u : Nat) (f : Launch → Launch) : (s.modLaunch u f).folios = s.folios := by unfold State.modLaunch; split <;> rfl
@[simp] theorem State.modLaunch_work (s : State) (u : Nat) (f : Launch → Launch) : (s.modLaunch u f).work = s.work := by unfold State.modLaunch; split <;> rfl
@[simp] theorem State.modLaunch_rebasing (s : State) (u : Nat) (f : Launch → Launch) : (s.modLaunch u f).rebasing = s.rebasing := by unfold State.modLaunch; split <;> rfl
@[simp] theorem State.modLaunch_rebases (s : State) (u : Nat) (f : Launch → Launch) : (s.modLaunch u f).rebases = s.rebases := by unfold State.modLaunch; split <;> rfl
@[simp] theorem State.modLaunch_mod (s : State) (u : Nat) (f : Launch → Launch) : (s.modLaunch u f).mod = s.mod := by unfold State.modLaunch; split <;> rfl

/-! setMreg -/

@[simp] theorem State.setMreg_now (s : State) (off : Nat) (v : Word) : (s.setMreg off v).now = s.now := rfl
@[simp] theorem State.setMreg_tile (s : State) (off : Nat) (v : Word) : (s.setMreg off v).tile = s.tile := rfl
@[simp] theorem State.setMreg_cell (s : State) (off : Nat) (v : Word) : (s.setMreg off v).cell = s.cell := rfl
@[simp] theorem State.setMreg_tick (s : State) (off : Nat) (v : Word) : (s.setMreg off v).tick = s.tick := rfl
@[simp] theorem State.setMreg_clk (s : State) (off : Nat) (v : Word) : (s.setMreg off v).clk = s.clk := rfl
@[simp] theorem State.setMreg_eighths (s : State) (off : Nat) (v : Word) : (s.setMreg off v).eighths = s.eighths := rfl
@[simp] theorem State.setMreg_stamp (s : State) (off : Nat) (v : Word) : (s.setMreg off v).stamp = s.stamp := rfl
@[simp] theorem State.setMreg_mem (s : State) (off : Nat) (v : Word) : (s.setMreg off v).mem = s.mem := rfl
@[simp] theorem State.setMreg_tiles (s : State) (off : Nat) (v : Word) : (s.setMreg off v).tiles = s.tiles := rfl
@[simp] theorem State.setMreg_cells (s : State) (off : Nat) (v : Word) : (s.setMreg off v).cells = s.cells := rfl
@[simp] theorem State.setMreg_dies (s : State) (off : Nat) (v : Word) : (s.setMreg off v).dies = s.dies := rfl
@[simp] theorem State.setMreg_homeTs (s : State) (off : Nat) (v : Word) : (s.setMreg off v).homeTs = s.homeTs := rfl
@[simp] theorem State.setMreg_msgs (s : State) (off : Nat) (v : Word) : (s.setMreg off v).msgs = s.msgs := rfl
@[simp] theorem State.setMreg_net (s : State) (off : Nat) (v : Word) : (s.setMreg off v).net = s.net := rfl
@[simp] theorem State.setMreg_flows (s : State) (off : Nat) (v : Word) : (s.setMreg off v).flows = s.flows := rfl
@[simp] theorem State.setMreg_launches (s : State) (off : Nat) (v : Word) : (s.setMreg off v).launches = s.launches := rfl
@[simp] theorem State.setMreg_folios (s : State) (off : Nat) (v : Word) : (s.setMreg off v).folios = s.folios := rfl
@[simp] theorem State.setMreg_work (s : State) (off : Nat) (v : Word) : (s.setMreg off v).work = s.work := rfl
@[simp] theorem State.setMreg_rebasing (s : State) (off : Nat) (v : Word) : (s.setMreg off v).rebasing = s.rebasing := rfl
@[simp] theorem State.setMreg_rebases (s : State) (off : Nat) (v : Word) : (s.setMreg off v).rebases = s.rebases := rfl

/-! dropMsg -/

@[simp] theorem State.dropMsg_now (s : State) (k : Nat) : (s.dropMsg k).now = s.now := rfl
@[simp] theorem State.dropMsg_tile (s : State) (k : Nat) : (s.dropMsg k).tile = s.tile := rfl
@[simp] theorem State.dropMsg_cell (s : State) (k : Nat) : (s.dropMsg k).cell = s.cell := rfl
@[simp] theorem State.dropMsg_tick (s : State) (k : Nat) : (s.dropMsg k).tick = s.tick := rfl
@[simp] theorem State.dropMsg_clk (s : State) (k : Nat) : (s.dropMsg k).clk = s.clk := rfl
@[simp] theorem State.dropMsg_eighths (s : State) (k : Nat) : (s.dropMsg k).eighths = s.eighths := rfl
@[simp] theorem State.dropMsg_stamp (s : State) (k : Nat) : (s.dropMsg k).stamp = s.stamp := rfl
@[simp] theorem State.dropMsg_mem (s : State) (k : Nat) : (s.dropMsg k).mem = s.mem := rfl
@[simp] theorem State.dropMsg_tiles (s : State) (k : Nat) : (s.dropMsg k).tiles = s.tiles := rfl
@[simp] theorem State.dropMsg_cells (s : State) (k : Nat) : (s.dropMsg k).cells = s.cells := rfl
@[simp] theorem State.dropMsg_dies (s : State) (k : Nat) : (s.dropMsg k).dies = s.dies := rfl
@[simp] theorem State.dropMsg_homeTs (s : State) (k : Nat) : (s.dropMsg k).homeTs = s.homeTs := rfl
@[simp] theorem State.dropMsg_net (s : State) (k : Nat) : (s.dropMsg k).net = s.net := rfl
@[simp] theorem State.dropMsg_flows (s : State) (k : Nat) : (s.dropMsg k).flows = s.flows := rfl
@[simp] theorem State.dropMsg_launches (s : State) (k : Nat) : (s.dropMsg k).launches = s.launches := rfl
@[simp] theorem State.dropMsg_folios (s : State) (k : Nat) : (s.dropMsg k).folios = s.folios := rfl
@[simp] theorem State.dropMsg_work (s : State) (k : Nat) : (s.dropMsg k).work = s.work := rfl
@[simp] theorem State.dropMsg_rebasing (s : State) (k : Nat) : (s.dropMsg k).rebasing = s.rebasing := rfl
@[simp] theorem State.dropMsg_rebases (s : State) (k : Nat) : (s.dropMsg k).rebases = s.rebases := rfl
@[simp] theorem State.dropMsg_mod (s : State) (k : Nat) : (s.dropMsg k).mod = s.mod := rfl

/-! touch -/

@[simp] theorem State.touch_now (s : State) (u : Nat) : (s.touch u).now = s.now := State.modLaunch_now s u _
@[simp] theorem State.touch_tile (s : State) (u : Nat) : (s.touch u).tile = s.tile := State.modLaunch_tile s u _
@[simp] theorem State.touch_cell (s : State) (u : Nat) : (s.touch u).cell = s.cell := State.modLaunch_cell s u _
@[simp] theorem State.touch_tick (s : State) (u : Nat) : (s.touch u).tick = s.tick := State.modLaunch_tick s u _
@[simp] theorem State.touch_clk (s : State) (u : Nat) : (s.touch u).clk = s.clk := State.modLaunch_clk s u _
@[simp] theorem State.touch_eighths (s : State) (u : Nat) : (s.touch u).eighths = s.eighths := State.modLaunch_eighths s u _
@[simp] theorem State.touch_stamp (s : State) (u : Nat) : (s.touch u).stamp = s.stamp := State.modLaunch_stamp s u _
@[simp] theorem State.touch_mem (s : State) (u : Nat) : (s.touch u).mem = s.mem := State.modLaunch_mem s u _
@[simp] theorem State.touch_tiles (s : State) (u : Nat) : (s.touch u).tiles = s.tiles := State.modLaunch_tiles s u _
@[simp] theorem State.touch_cells (s : State) (u : Nat) : (s.touch u).cells = s.cells := State.modLaunch_cells s u _
@[simp] theorem State.touch_dies (s : State) (u : Nat) : (s.touch u).dies = s.dies := State.modLaunch_dies s u _
@[simp] theorem State.touch_homeTs (s : State) (u : Nat) : (s.touch u).homeTs = s.homeTs := State.modLaunch_homeTs s u _
@[simp] theorem State.touch_msgs (s : State) (u : Nat) : (s.touch u).msgs = s.msgs := State.modLaunch_msgs s u _
@[simp] theorem State.touch_net (s : State) (u : Nat) : (s.touch u).net = s.net := State.modLaunch_net s u _
@[simp] theorem State.touch_flows (s : State) (u : Nat) : (s.touch u).flows = s.flows := State.modLaunch_flows s u _
@[simp] theorem State.touch_folios (s : State) (u : Nat) : (s.touch u).folios = s.folios := State.modLaunch_folios s u _
@[simp] theorem State.touch_work (s : State) (u : Nat) : (s.touch u).work = s.work := State.modLaunch_work s u _
@[simp] theorem State.touch_rebasing (s : State) (u : Nat) : (s.touch u).rebasing = s.rebasing := State.modLaunch_rebasing s u _
@[simp] theorem State.touch_rebases (s : State) (u : Nat) : (s.touch u).rebases = s.rebases := State.modLaunch_rebases s u _
@[simp] theorem State.touch_mod (s : State) (u : Nat) : (s.touch u).mod = s.mod := State.modLaunch_mod s u _

/-! issued -/

@[simp] theorem State.issued_now (s : State)  : (s.issued).now = s.now := by simp [State.issued]
@[simp] theorem State.issued_tile (s : State)  : (s.issued).tile = s.tile := by simp [State.issued]
@[simp] theorem State.issued_cell (s : State)  : (s.issued).cell = s.cell := by simp [State.issued]
@[simp] theorem State.issued_tick (s : State)  : (s.issued).tick = s.tick := by simp [State.issued]
@[simp] theorem State.issued_clk (s : State)  : (s.issued).clk = s.clk := by simp [State.issued]
@[simp] theorem State.issued_eighths (s : State)  : (s.issued).eighths = s.eighths := by simp [State.issued]
@[simp] theorem State.issued_stamp (s : State)  : (s.issued).stamp = s.stamp := by simp [State.issued]
@[simp] theorem State.issued_mem (s : State)  : (s.issued).mem = s.mem := by simp [State.issued]
@[simp] theorem State.issued_cells (s : State)  : (s.issued).cells = s.cells := by simp [State.issued]
@[simp] theorem State.issued_dies (s : State)  : (s.issued).dies = s.dies := by simp [State.issued]
@[simp] theorem State.issued_homeTs (s : State)  : (s.issued).homeTs = s.homeTs := by simp [State.issued]
@[simp] theorem State.issued_msgs (s : State)  : (s.issued).msgs = s.msgs := by simp [State.issued]
@[simp] theorem State.issued_net (s : State)  : (s.issued).net = s.net := by simp [State.issued]
@[simp] theorem State.issued_flows (s : State)  : (s.issued).flows = s.flows := by simp [State.issued]
@[simp] theorem State.issued_folios (s : State)  : (s.issued).folios = s.folios := by simp [State.issued]
@[simp] theorem State.issued_work (s : State)  : (s.issued).work = s.work := by simp [State.issued]
@[simp] theorem State.issued_rebasing (s : State)  : (s.issued).rebasing = s.rebasing := by simp [State.issued]
@[simp] theorem State.issued_rebases (s : State)  : (s.issued).rebases = s.rebases := by simp [State.issued]
@[simp] theorem State.issued_mod (s : State)  : (s.issued).mod = s.mod := by simp [State.issued]

/-! nextStep -/

@[simp] theorem State.nextStep_now (s : State)  : (s.nextStep).now = s.now := by simp [State.nextStep]
@[simp] theorem State.nextStep_tile (s : State)  : (s.nextStep).tile = s.tile := by simp [State.nextStep]
@[simp] theorem State.nextStep_cell (s : State)  : (s.nextStep).cell = s.cell := by simp [State.nextStep]
@[simp] theorem State.nextStep_tick (s : State)  : (s.nextStep).tick = s.tick := by simp [State.nextStep]
@[simp] theorem State.nextStep_clk (s : State)  : (s.nextStep).clk = s.clk := by simp [State.nextStep]
@[simp] theorem State.nextStep_eighths (s : State)  : (s.nextStep).eighths = s.eighths := by simp [State.nextStep]
@[simp] theorem State.nextStep_stamp (s : State)  : (s.nextStep).stamp = s.stamp := by simp [State.nextStep]
@[simp] theorem State.nextStep_mem (s : State)  : (s.nextStep).mem = s.mem := by simp [State.nextStep]
@[simp] theorem State.nextStep_cells (s : State)  : (s.nextStep).cells = s.cells := by simp [State.nextStep]
@[simp] theorem State.nextStep_dies (s : State)  : (s.nextStep).dies = s.dies := by simp [State.nextStep]
@[simp] theorem State.nextStep_homeTs (s : State)  : (s.nextStep).homeTs = s.homeTs := by simp [State.nextStep]
@[simp] theorem State.nextStep_msgs (s : State)  : (s.nextStep).msgs = s.msgs := by simp [State.nextStep]
@[simp] theorem State.nextStep_net (s : State)  : (s.nextStep).net = s.net := by simp [State.nextStep]
@[simp] theorem State.nextStep_flows (s : State)  : (s.nextStep).flows = s.flows := by simp [State.nextStep]
@[simp] theorem State.nextStep_folios (s : State)  : (s.nextStep).folios = s.folios := by simp [State.nextStep]
@[simp] theorem State.nextStep_work (s : State)  : (s.nextStep).work = s.work := by simp [State.nextStep]
@[simp] theorem State.nextStep_rebasing (s : State)  : (s.nextStep).rebasing = s.rebasing := by simp [State.nextStep]
@[simp] theorem State.nextStep_rebases (s : State)  : (s.nextStep).rebases = s.rebases := by simp [State.nextStep]
@[simp] theorem State.nextStep_mod (s : State)  : (s.nextStep).mod = s.mod := by simp [State.nextStep]

/-! vault -/

@[simp] theorem State.vault_now (s : State) (d : Nat) (e : VEvent) : (s.vault d e).now = s.now := by unfold State.vault; dsimp only; split <;> rfl
@[simp] theorem State.vault_tile (s : State) (d : Nat) (e : VEvent) : (s.vault d e).tile = s.tile := by unfold State.vault; dsimp only; split <;> rfl
@[simp] theorem State.vault_cell (s : State) (d : Nat) (e : VEvent) : (s.vault d e).cell = s.cell := by unfold State.vault; dsimp only; split <;> rfl
@[simp] theorem State.vault_tick (s : State) (d : Nat) (e : VEvent) : (s.vault d e).tick = s.tick := by unfold State.vault; dsimp only; split <;> rfl
@[simp] theorem State.vault_clk (s : State) (d : Nat) (e : VEvent) : (s.vault d e).clk = s.clk := by unfold State.vault; dsimp only; split <;> rfl
@[simp] theorem State.vault_eighths (s : State) (d : Nat) (e : VEvent) : (s.vault d e).eighths = s.eighths := by unfold State.vault; dsimp only; split <;> rfl
@[simp] theorem State.vault_stamp (s : State) (d : Nat) (e : VEvent) : (s.vault d e).stamp = s.stamp := by unfold State.vault; dsimp only; split <;> rfl
@[simp] theorem State.vault_mem (s : State) (d : Nat) (e : VEvent) : (s.vault d e).mem = s.mem := by unfold State.vault; dsimp only; split <;> rfl
@[simp] theorem State.vault_tiles (s : State) (d : Nat) (e : VEvent) : (s.vault d e).tiles = s.tiles := by unfold State.vault; dsimp only; split <;> rfl
@[simp] theorem State.vault_cells (s : State) (d : Nat) (e : VEvent) : (s.vault d e).cells = s.cells := by unfold State.vault; dsimp only; split <;> rfl
@[simp] theorem State.vault_homeTs (s : State) (d : Nat) (e : VEvent) : (s.vault d e).homeTs = s.homeTs := by unfold State.vault; dsimp only; split <;> rfl
@[simp] theorem State.vault_msgs (s : State) (d : Nat) (e : VEvent) : (s.vault d e).msgs = s.msgs := by unfold State.vault; dsimp only; split <;> rfl
@[simp] theorem State.vault_net (s : State) (d : Nat) (e : VEvent) : (s.vault d e).net = s.net := by unfold State.vault; dsimp only; split <;> rfl
@[simp] theorem State.vault_flows (s : State) (d : Nat) (e : VEvent) : (s.vault d e).flows = s.flows := by unfold State.vault; dsimp only; split <;> rfl
@[simp] theorem State.vault_launches (s : State) (d : Nat) (e : VEvent) : (s.vault d e).launches = s.launches := by unfold State.vault; dsimp only; split <;> rfl
@[simp] theorem State.vault_folios (s : State) (d : Nat) (e : VEvent) : (s.vault d e).folios = s.folios := by unfold State.vault; dsimp only; split <;> rfl
@[simp] theorem State.vault_work (s : State) (d : Nat) (e : VEvent) : (s.vault d e).work = s.work := by unfold State.vault; dsimp only; split <;> rfl
@[simp] theorem State.vault_rebasing (s : State) (d : Nat) (e : VEvent) : (s.vault d e).rebasing = s.rebasing := by unfold State.vault; dsimp only; split <;> rfl
@[simp] theorem State.vault_rebases (s : State) (d : Nat) (e : VEvent) : (s.vault d e).rebases = s.rebases := by unfold State.vault; dsimp only; split <;> rfl
@[simp] theorem State.vault_mod (s : State) (d : Nat) (e : VEvent) : (s.vault d e).mod = s.mod := by unfold State.vault; dsimp only; split <;> rfl

/-! Reading back -/

@[simp] theorem State.getTile_setTile (s : State) (t : Nat) (x : Tile) (u : Nat) :
    (s.setTile t x).getTile u = if u = t then x else s.getTile u := smGet_smPut _ _ _ _ _
@[simp] theorem State.getTile_modTile (s : State) (t : Nat) (f : Tile → Tile) (u : Nat) :
    (s.modTile t f).getTile u = if u = t then f (s.getTile t) else s.getTile u := smGet_smPut _ _ _ _ _
@[simp] theorem State.cur_modCur (s : State) (f : Tile → Tile) : (s.modCur f).cur = f s.cur := by
  simp [State.cur, State.modCur]
@[simp] theorem State.getTile_modCur (s : State) (f : Tile → Tile) (u : Nat) :
    (s.modCur f).getTile u = if u = s.tile then f s.cur else s.getTile u := by simp [State.modCur, State.cur]
@[simp] theorem State.getCell_setCell (s : State) (c : Nat) (x : Cell) (d : Nat) :
    (s.setCell c x).getCell d = if d = c then x else s.getCell d := smGet_smPut _ _ _ _ _
@[simp] theorem State.getCell_modCell (s : State) (c : Nat) (f : Cell → Cell) (d : Nat) :
    (s.modCell c f).getCell d = if d = c then f (s.getCell c) else s.getCell d := smGet_smPut _ _ _ _ _
@[simp] theorem State.getDie_modDie (s : State) (d : Nat) (f : Die → Die) (e : Nat) :
    (s.modDie d f).getDie e = if e = d then f (s.getDie d) else s.getDie e := smGet_smPut _ _ _ _ _
@[simp] theorem State.reg_setReg_same (s : State) (d off : Nat) (v : Word) : (s.setReg d off v).reg d off = v := by
  simp [State.setReg, State.reg]
@[simp] theorem State.mreg_setMreg_same (s : State) (off : Nat) (v : Word) : (s.setMreg off v).mreg off = v := by
  simp [State.setMreg, State.mreg]
@[simp] theorem State.launch?_setLaunch_same (s : State) (u : Nat) (l : Launch) : (s.setLaunch u l).launch? u = some l := by
  simp [State.setLaunch, State.launch?]

theorem State.launch?_setLaunch_of_ne (s : State) {u v : Nat} (l : Launch) (h : v ≠ u) :
    (s.setLaunch u l).launch? v = s.launch? v := smFind_smPut_of_ne _ _ h

/-- Everything a change of a launch can do: the launch is there and changed, or nothing happens. -/
theorem State.modLaunch_cases (s : State) (u : Nat) (f : Launch → Launch) :
    (∃ l, s.launch? u = some l ∧ s.modLaunch u f = s.setLaunch u (f l)) ∨ (s.launch? u = none ∧ s.modLaunch u f = s) := by
  unfold State.modLaunch; cases h : s.launch? u <;> simp

@[simp] theorem State.launch?_modLaunch_same (s : State) (u : Nat) (f : Launch → Launch) :
    (s.modLaunch u f).launch? u = (s.launch? u).map f := by
  rcases s.modLaunch_cases u f with ⟨l, h, e⟩ | ⟨h, e⟩ <;> simp [h, e]

theorem State.launch?_modLaunch_of_ne (s : State) {u v : Nat} (f : Launch → Launch) (h : v ≠ u) :
    (s.modLaunch u f).launch? v = s.launch? v := by
  rcases s.modLaunch_cases u f with ⟨l, _, e⟩ | ⟨_, e⟩
  · rw [e, State.launch?_setLaunch_of_ne s _ h]
  · rw [e]

/-- A change of a launch leaves what the tiles, cells and dies read as alone. -/
@[simp] theorem State.getTile_modLaunch (s : State) (u : Nat) (f : Launch → Launch) (t : Nat) :
    (s.modLaunch u f).getTile t = s.getTile t := by simp [State.getTile]
@[simp] theorem State.cur_modLaunch (s : State) (u : Nat) (f : Launch → Launch) : (s.modLaunch u f).cur = s.cur := by
  simp [State.cur]
@[simp] theorem State.getCell_modLaunch (s : State) (u : Nat) (f : Launch → Launch) (c : Nat) :
    (s.modLaunch u f).getCell c = s.getCell c := by simp [State.getCell]
@[simp] theorem State.getTile_touch (s : State) (u t : Nat) : (s.touch u).getTile t = s.getTile t := by simp [State.getTile]
@[simp] theorem State.cur_touch (s : State) (u : Nat) : (s.touch u).cur = s.cur := by simp [State.cur]
@[simp] theorem State.getCell_touch (s : State) (u c : Nat) : (s.touch u).getCell c = s.getCell c := by simp [State.getCell]

/-! Registers -/

@[simp] theorem Tile.reg_setReg (t : Tile) (r q : BitVec 4) (v : Word) : (t.setReg r v).reg q = if q = r then v else t.reg q := by
  simp only [Tile.reg, Tile.setReg, Vector.getElem_set, BitVec.toNat_eq]
  split <;> split <;> simp_all
@[simp] theorem Tile.setReg_m (t : Tile) (r : BitVec 4) (v : Word) : (t.setReg r v).m = t.m := rfl
@[simp] theorem Tile.setReg_n (t : Tile) (r : BitVec 4) (v : Word) : (t.setReg r v).n = t.n := rfl
@[simp] theorem Tile.setReg_spc (t : Tile) (r : BitVec 4) (v : Word) : (t.setReg r v).spc = t.spc := rfl
@[simp] theorem Tile.setReg_spr (t : Tile) (r : BitVec 4) (v : Word) : (t.setReg r v).spr = t.spr := rfl
@[simp] theorem Tile.setReg_owner (t : Tile) (r : BitVec 4) (v : Word) : (t.setReg r v).owner = t.owner := rfl

@[simp] theorem State.cur_wa (s : State) (r : BitVec 4) (v : Word) : (s.wa r v).cur = s.cur.setReg r v := by simp [State.wa]
@[simp] theorem State.wa_mem (s : State) (r : BitVec 4) (v : Word) : (s.wa r v).mem = s.mem := rfl
@[simp] theorem State.wa_cells (s : State) (r : BitVec 4) (v : Word) : (s.wa r v).cells = s.cells := rfl
@[simp] theorem State.wa_tile (s : State) (r : BitVec 4) (v : Word) : (s.wa r v).tile = s.tile := rfl

/-- What an issued step leaves of its tile. -/
@[simp] theorem State.cur_issued (s : State) :
    s.issued.cur = { s.cur with wait := none, reply := none, phase := 0, ld := LoadSt.empty } := by simp [State.issued]
/-- What a step that goes on leaves of its tile. -/
@[simp] theorem State.cur_nextStep (s : State) :
    s.nextStep.cur = { s.cur with wait := none, reply := none, phase := 0, ld := LoadSt.empty, spc := s.cur.spc + 8 } := by
  simp [State.nextStep]
theorem State.getTile_nextStep_of_ne (s : State) {t : Nat} (h : t ≠ s.tile) : s.nextStep.getTile t = s.getTile t := by
  simp [State.nextStep, State.issued, h]
theorem State.getTile_wa_of_ne (s : State) (r : BitVec 4) (v : Word) {t : Nat} (h : t ≠ s.tile) : (s.wa r v).getTile t = s.getTile t := by
  simp [State.wa, h]

end Sys2Proof.Machine
end

