-- ==== Sys2Proof/Laws/Ops.lean ====
section
/-! SUPPORT. What the shared operations leave alone, field by field. -/

namespace Sys2Proof.Machine

/-! Operations that change one part -/

@[simp] theorem State.interrupt_now (s : State) (v : Nat) : (s.interrupt v).now = s.now := rfl
@[simp] theorem State.interrupt_tile (s : State) (v : Nat) : (s.interrupt v).tile = s.tile := rfl
@[simp] theorem State.interrupt_cell (s : State) (v : Nat) : (s.interrupt v).cell = s.cell := rfl
@[simp] theorem State.interrupt_tick (s : State) (v : Nat) : (s.interrupt v).tick = s.tick := rfl
@[simp] theorem State.interrupt_clk (s : State) (v : Nat) : (s.interrupt v).clk = s.clk := rfl
@[simp] theorem State.interrupt_eighths (s : State) (v : Nat) : (s.interrupt v).eighths = s.eighths := rfl
@[simp] theorem State.interrupt_stamp (s : State) (v : Nat) : (s.interrupt v).stamp = s.stamp := rfl
@[simp] theorem State.interrupt_mem (s : State) (v : Nat) : (s.interrupt v).mem = s.mem := rfl
@[simp] theorem State.interrupt_tiles (s : State) (v : Nat) : (s.interrupt v).tiles = s.tiles := rfl
@[simp] theorem State.interrupt_cells (s : State) (v : Nat) : (s.interrupt v).cells = s.cells := rfl
@[simp] theorem State.interrupt_dies (s : State) (v : Nat) : (s.interrupt v).dies = s.dies := rfl
@[simp] theorem State.interrupt_homeTs (s : State) (v : Nat) : (s.interrupt v).homeTs = s.homeTs := rfl
@[simp] theorem State.interrupt_msgs (s : State) (v : Nat) : (s.interrupt v).msgs = s.msgs := rfl
@[simp] theorem State.interrupt_net (s : State) (v : Nat) : (s.interrupt v).net = s.net := rfl
@[simp] theorem State.interrupt_flows (s : State) (v : Nat) : (s.interrupt v).flows = s.flows := rfl
@[simp] theorem State.interrupt_launches (s : State) (v : Nat) : (s.interrupt v).launches = s.launches := rfl
@[simp] theorem State.interrupt_folios (s : State) (v : Nat) : (s.interrupt v).folios = s.folios := rfl
@[simp] theorem State.interrupt_work (s : State) (v : Nat) : (s.interrupt v).work = s.work := rfl
@[simp] theorem State.interrupt_rebasing (s : State) (v : Nat) : (s.interrupt v).rebasing = s.rebasing := rfl
@[simp] theorem State.interrupt_rebases (s : State) (v : Nat) : (s.interrupt v).rebases = s.rebases := rfl

@[simp] theorem State.vaultUnit_now (s : State) (u k c d : Nat) : (s.vaultUnit u k c d).now = s.now := by unfold State.vaultUnit; split <;> simp
@[simp] theorem State.vaultUnit_tile (s : State) (u k c d : Nat) : (s.vaultUnit u k c d).tile = s.tile := by unfold State.vaultUnit; split <;> simp
@[simp] theorem State.vaultUnit_cell (s : State) (u k c d : Nat) : (s.vaultUnit u k c d).cell = s.cell := by unfold State.vaultUnit; split <;> simp
@[simp] theorem State.vaultUnit_tick (s : State) (u k c d : Nat) : (s.vaultUnit u k c d).tick = s.tick := by unfold State.vaultUnit; split <;> simp
@[simp] theorem State.vaultUnit_clk (s : State) (u k c d : Nat) : (s.vaultUnit u k c d).clk = s.clk := by unfold State.vaultUnit; split <;> simp
@[simp] theorem State.vaultUnit_eighths (s : State) (u k c d : Nat) : (s.vaultUnit u k c d).eighths = s.eighths := by unfold State.vaultUnit; split <;> simp
@[simp] theorem State.vaultUnit_stamp (s : State) (u k c d : Nat) : (s.vaultUnit u k c d).stamp = s.stamp := by unfold State.vaultUnit; split <;> simp
@[simp] theorem State.vaultUnit_mem (s : State) (u k c d : Nat) : (s.vaultUnit u k c d).mem = s.mem := by unfold State.vaultUnit; split <;> simp
@[simp] theorem State.vaultUnit_tiles (s : State) (u k c d : Nat) : (s.vaultUnit u k c d).tiles = s.tiles := by unfold State.vaultUnit; split <;> simp
@[simp] theorem State.vaultUnit_cells (s : State) (u k c d : Nat) : (s.vaultUnit u k c d).cells = s.cells := by unfold State.vaultUnit; split <;> simp
@[simp] theorem State.vaultUnit_homeTs (s : State) (u k c d : Nat) : (s.vaultUnit u k c d).homeTs = s.homeTs := by unfold State.vaultUnit; split <;> simp
@[simp] theorem State.vaultUnit_msgs (s : State) (u k c d : Nat) : (s.vaultUnit u k c d).msgs = s.msgs := by unfold State.vaultUnit; split <;> simp
@[simp] theorem State.vaultUnit_net (s : State) (u k c d : Nat) : (s.vaultUnit u k c d).net = s.net := by unfold State.vaultUnit; split <;> simp
@[simp] theorem State.vaultUnit_flows (s : State) (u k c d : Nat) : (s.vaultUnit u k c d).flows = s.flows := by unfold State.vaultUnit; split <;> simp
@[simp] theorem State.vaultUnit_launches (s : State) (u k c d : Nat) : (s.vaultUnit u k c d).launches = s.launches := by unfold State.vaultUnit; split <;> simp
@[simp] theorem State.vaultUnit_folios (s : State) (u k c d : Nat) : (s.vaultUnit u k c d).folios = s.folios := by unfold State.vaultUnit; split <;> simp
@[simp] theorem State.vaultUnit_work (s : State) (u k c d : Nat) : (s.vaultUnit u k c d).work = s.work := by unfold State.vaultUnit; split <;> simp
@[simp] theorem State.vaultUnit_rebasing (s : State) (u k c d : Nat) : (s.vaultUnit u k c d).rebasing = s.rebasing := by unfold State.vaultUnit; split <;> simp
@[simp] theorem State.vaultUnit_rebases (s : State) (u k c d : Nat) : (s.vaultUnit u k c d).rebases = s.rebases := by unfold State.vaultUnit; split <;> simp
@[simp] theorem State.vaultUnit_mod (s : State) (u k c d : Nat) : (s.vaultUnit u k c d).mod = s.mod := by unfold State.vaultUnit; split <;> simp

@[simp] theorem State.touchTok_now (s : State) (u : Nat) : (s.touchTok u).now = s.now := by simp [State.touchTok]
@[simp] theorem State.touchTok_tile (s : State) (u : Nat) : (s.touchTok u).tile = s.tile := by simp [State.touchTok]
@[simp] theorem State.touchTok_cell (s : State) (u : Nat) : (s.touchTok u).cell = s.cell := by simp [State.touchTok]
@[simp] theorem State.touchTok_tick (s : State) (u : Nat) : (s.touchTok u).tick = s.tick := by simp [State.touchTok]
@[simp] theorem State.touchTok_clk (s : State) (u : Nat) : (s.touchTok u).clk = s.clk := by simp [State.touchTok]
@[simp] theorem State.touchTok_eighths (s : State) (u : Nat) : (s.touchTok u).eighths = s.eighths := by simp [State.touchTok]
@[simp] theorem State.touchTok_stamp (s : State) (u : Nat) : (s.touchTok u).stamp = s.stamp := by simp [State.touchTok]
@[simp] theorem State.touchTok_mem (s : State) (u : Nat) : (s.touchTok u).mem = s.mem := by simp [State.touchTok]
@[simp] theorem State.touchTok_tiles (s : State) (u : Nat) : (s.touchTok u).tiles = s.tiles := by simp [State.touchTok]
@[simp] theorem State.touchTok_cells (s : State) (u : Nat) : (s.touchTok u).cells = s.cells := by simp [State.touchTok]
@[simp] theorem State.touchTok_dies (s : State) (u : Nat) : (s.touchTok u).dies = s.dies := by simp [State.touchTok]
@[simp] theorem State.touchTok_homeTs (s : State) (u : Nat) : (s.touchTok u).homeTs = s.homeTs := by simp [State.touchTok]
@[simp] theorem State.touchTok_msgs (s : State) (u : Nat) : (s.touchTok u).msgs = s.msgs := by simp [State.touchTok]
@[simp] theorem State.touchTok_net (s : State) (u : Nat) : (s.touchTok u).net = s.net := by simp [State.touchTok]
@[simp] theorem State.touchTok_flows (s : State) (u : Nat) : (s.touchTok u).flows = s.flows := by simp [State.touchTok]
@[simp] theorem State.touchTok_folios (s : State) (u : Nat) : (s.touchTok u).folios = s.folios := by simp [State.touchTok]
@[simp] theorem State.touchTok_work (s : State) (u : Nat) : (s.touchTok u).work = s.work := by simp [State.touchTok]
@[simp] theorem State.touchTok_rebasing (s : State) (u : Nat) : (s.touchTok u).rebasing = s.rebasing := by simp [State.touchTok]
@[simp] theorem State.touchTok_rebases (s : State) (u : Nat) : (s.touchTok u).rebases = s.rebases := by simp [State.touchTok]
@[simp] theorem State.touchTok_mod (s : State) (u : Nat) : (s.touchTok u).mod = s.mod := by simp [State.touchTok]

@[simp] theorem State.touchCell_now (s : State) (c : Nat) : (s.touchCell c).now = s.now := by unfold State.touchCell; split <;> simp
@[simp] theorem State.touchCell_tile (s : State) (c : Nat) : (s.touchCell c).tile = s.tile := by unfold State.touchCell; split <;> simp
@[simp] theorem State.touchCell_cell (s : State) (c : Nat) : (s.touchCell c).cell = s.cell := by unfold State.touchCell; split <;> simp
@[simp] theorem State.touchCell_tick (s : State) (c : Nat) : (s.touchCell c).tick = s.tick := by unfold State.touchCell; split <;> simp
@[simp] theorem State.touchCell_clk (s : State) (c : Nat) : (s.touchCell c).clk = s.clk := by unfold State.touchCell; split <;> simp
@[simp] theorem State.touchCell_eighths (s : State) (c : Nat) : (s.touchCell c).eighths = s.eighths := by unfold State.touchCell; split <;> simp
@[simp] theorem State.touchCell_stamp (s : State) (c : Nat) : (s.touchCell c).stamp = s.stamp := by unfold State.touchCell; split <;> simp
@[simp] theorem State.touchCell_mem (s : State) (c : Nat) : (s.touchCell c).mem = s.mem := by unfold State.touchCell; split <;> simp
@[simp] theorem State.touchCell_tiles (s : State) (c : Nat) : (s.touchCell c).tiles = s.tiles := by unfold State.touchCell; split <;> simp
@[simp] theorem State.touchCell_cells (s : State) (c : Nat) : (s.touchCell c).cells = s.cells := by unfold State.touchCell; split <;> simp
@[simp] theorem State.touchCell_dies (s : State) (c : Nat) : (s.touchCell c).dies = s.dies := by unfold State.touchCell; split <;> simp
@[simp] theorem State.touchCell_homeTs (s : State) (c : Nat) : (s.touchCell c).homeTs = s.homeTs := by unfold State.touchCell; split <;> simp
@[simp] theorem State.touchCell_msgs (s : State) (c : Nat) : (s.touchCell c).msgs = s.msgs := by unfold State.touchCell; split <;> simp
@[simp] theorem State.touchCell_net (s : State) (c : Nat) : (s.touchCell c).net = s.net := by unfold State.touchCell; split <;> simp
@[simp] theorem State.touchCell_flows (s : State) (c : Nat) : (s.touchCell c).flows = s.flows := by unfold State.touchCell; split <;> simp
@[simp] theorem State.touchCell_folios (s : State) (c : Nat) : (s.touchCell c).folios = s.folios := by unfold State.touchCell; split <;> simp
@[simp] theorem State.touchCell_work (s : State) (c : Nat) : (s.touchCell c).work = s.work := by unfold State.touchCell; split <;> simp
@[simp] theorem State.touchCell_rebasing (s : State) (c : Nat) : (s.touchCell c).rebasing = s.rebasing := by unfold State.touchCell; split <;> simp
@[simp] theorem State.touchCell_rebases (s : State) (c : Nat) : (s.touchCell c).rebases = s.rebases := by unfold State.touchCell; split <;> simp
@[simp] theorem State.touchCell_mod (s : State) (c : Nat) : (s.touchCell c).mod = s.mod := by unfold State.touchCell; split <;> simp

@[simp] theorem State.raiseLclk_now (s : State) (t : Nat) (x : BitVec 32) : (s.raiseLclk t x).now = s.now := rfl
@[simp] theorem State.raiseLclk_tile (s : State) (t : Nat) (x : BitVec 32) : (s.raiseLclk t x).tile = s.tile := rfl
@[simp] theorem State.raiseLclk_cell (s : State) (t : Nat) (x : BitVec 32) : (s.raiseLclk t x).cell = s.cell := rfl
@[simp] theorem State.raiseLclk_tick (s : State) (t : Nat) (x : BitVec 32) : (s.raiseLclk t x).tick = s.tick := rfl
@[simp] theorem State.raiseLclk_clk (s : State) (t : Nat) (x : BitVec 32) : (s.raiseLclk t x).clk = s.clk := rfl
@[simp] theorem State.raiseLclk_eighths (s : State) (t : Nat) (x : BitVec 32) : (s.raiseLclk t x).eighths = s.eighths := rfl
@[simp] theorem State.raiseLclk_stamp (s : State) (t : Nat) (x : BitVec 32) : (s.raiseLclk t x).stamp = s.stamp := rfl
@[simp] theorem State.raiseLclk_mem (s : State) (t : Nat) (x : BitVec 32) : (s.raiseLclk t x).mem = s.mem := rfl
@[simp] theorem State.raiseLclk_cells (s : State) (t : Nat) (x : BitVec 32) : (s.raiseLclk t x).cells = s.cells := rfl
@[simp] theorem State.raiseLclk_dies (s : State) (t : Nat) (x : BitVec 32) : (s.raiseLclk t x).dies = s.dies := rfl
@[simp] theorem State.raiseLclk_homeTs (s : State) (t : Nat) (x : BitVec 32) : (s.raiseLclk t x).homeTs = s.homeTs := rfl
@[simp] theorem State.raiseLclk_msgs (s : State) (t : Nat) (x : BitVec 32) : (s.raiseLclk t x).msgs = s.msgs := rfl
@[simp] theorem State.raiseLclk_net (s : State) (t : Nat) (x : BitVec 32) : (s.raiseLclk t x).net = s.net := rfl
@[simp] theorem State.raiseLclk_flows (s : State) (t : Nat) (x : BitVec 32) : (s.raiseLclk t x).flows = s.flows := rfl
@[simp] theorem State.raiseLclk_launches (s : State) (t : Nat) (x : BitVec 32) : (s.raiseLclk t x).launches = s.launches := rfl
@[simp] theorem State.raiseLclk_folios (s : State) (t : Nat) (x : BitVec 32) : (s.raiseLclk t x).folios = s.folios := rfl
@[simp] theorem State.raiseLclk_work (s : State) (t : Nat) (x : BitVec 32) : (s.raiseLclk t x).work = s.work := rfl
@[simp] theorem State.raiseLclk_rebasing (s : State) (t : Nat) (x : BitVec 32) : (s.raiseLclk t x).rebasing = s.rebasing := rfl
@[simp] theorem State.raiseLclk_rebases (s : State) (t : Nat) (x : BitVec 32) : (s.raiseLclk t x).rebases = s.rebases := rfl
@[simp] theorem State.raiseLclk_mod (s : State) (t : Nat) (x : BitVec 32) : (s.raiseLclk t x).mod = s.mod := rfl

@[simp] theorem State.setPlane_now (s : State) (c p : Nat) (x : CellPlane) : (s.setPlane c p x).now = s.now := rfl
@[simp] theorem State.setPlane_tile (s : State) (c p : Nat) (x : CellPlane) : (s.setPlane c p x).tile = s.tile := rfl
@[simp] theorem State.setPlane_cell (s : State) (c p : Nat) (x : CellPlane) : (s.setPlane c p x).cell = s.cell := rfl
@[simp] theorem State.setPlane_tick (s : State) (c p : Nat) (x : CellPlane) : (s.setPlane c p x).tick = s.tick := rfl
@[simp] theorem State.setPlane_clk (s : State) (c p : Nat) (x : CellPlane) : (s.setPlane c p x).clk = s.clk := rfl
@[simp] theorem State.setPlane_eighths (s : State) (c p : Nat) (x : CellPlane) : (s.setPlane c p x).eighths = s.eighths := rfl
@[simp] theorem State.setPlane_stamp (s : State) (c p : Nat) (x : CellPlane) : (s.setPlane c p x).stamp = s.stamp := rfl
@[simp] theorem State.setPlane_mem (s : State) (c p : Nat) (x : CellPlane) : (s.setPlane c p x).mem = s.mem := rfl
@[simp] theorem State.setPlane_tiles (s : State) (c p : Nat) (x : CellPlane) : (s.setPlane c p x).tiles = s.tiles := rfl
@[simp] theorem State.setPlane_dies (s : State) (c p : Nat) (x : CellPlane) : (s.setPlane c p x).dies = s.dies := rfl
@[simp] theorem State.setPlane_homeTs (s : State) (c p : Nat) (x : CellPlane) : (s.setPlane c p x).homeTs = s.homeTs := rfl
@[simp] theorem State.setPlane_msgs (s : State) (c p : Nat) (x : CellPlane) : (s.setPlane c p x).msgs = s.msgs := rfl
@[simp] theorem State.setPlane_net (s : State) (c p : Nat) (x : CellPlane) : (s.setPlane c p x).net = s.net := rfl
@[simp] theorem State.setPlane_flows (s : State) (c p : Nat) (x : CellPlane) : (s.setPlane c p x).flows = s.flows := rfl
@[simp] theorem State.setPlane_launches (s : State) (c p : Nat) (x : CellPlane) : (s.setPlane c p x).launches = s.launches := rfl
@[simp] theorem State.setPlane_folios (s : State) (c p : Nat) (x : CellPlane) : (s.setPlane c p x).folios = s.folios := rfl
@[simp] theorem State.setPlane_work (s : State) (c p : Nat) (x : CellPlane) : (s.setPlane c p x).work = s.work := rfl
@[simp] theorem State.setPlane_rebasing (s : State) (c p : Nat) (x : CellPlane) : (s.setPlane c p x).rebasing = s.rebasing := rfl
@[simp] theorem State.setPlane_rebases (s : State) (c p : Nat) (x : CellPlane) : (s.setPlane c p x).rebases = s.rebases := rfl
@[simp] theorem State.setPlane_mod (s : State) (c p : Nat) (x : CellPlane) : (s.setPlane c p x).mod = s.mod := rfl

@[simp] theorem State.setSpin_now (s : State) (a : Nat) (x : Spin) : (s.setSpin a x).now = s.now := by unfold State.setSpin; split <;> rfl
@[simp] theorem State.setSpin_tile (s : State) (a : Nat) (x : Spin) : (s.setSpin a x).tile = s.tile := by unfold State.setSpin; split <;> rfl
@[simp] theorem State.setSpin_cell (s : State) (a : Nat) (x : Spin) : (s.setSpin a x).cell = s.cell := by unfold State.setSpin; split <;> rfl
@[simp] theorem State.setSpin_tick (s : State) (a : Nat) (x : Spin) : (s.setSpin a x).tick = s.tick := by unfold State.setSpin; split <;> rfl
@[simp] theorem State.setSpin_clk (s : State) (a : Nat) (x : Spin) : (s.setSpin a x).clk = s.clk := by unfold State.setSpin; split <;> rfl
@[simp] theorem State.setSpin_eighths (s : State) (a : Nat) (x : Spin) : (s.setSpin a x).eighths = s.eighths := by unfold State.setSpin; split <;> rfl
@[simp] theorem State.setSpin_stamp (s : State) (a : Nat) (x : Spin) : (s.setSpin a x).stamp = s.stamp := by unfold State.setSpin; split <;> rfl
@[simp] theorem State.setSpin_mem (s : State) (a : Nat) (x : Spin) : (s.setSpin a x).mem = s.mem := by unfold State.setSpin; split <;> rfl
@[simp] theorem State.setSpin_dies (s : State) (a : Nat) (x : Spin) : (s.setSpin a x).dies = s.dies := by unfold State.setSpin; split <;> rfl
@[simp] theorem State.setSpin_homeTs (s : State) (a : Nat) (x : Spin) : (s.setSpin a x).homeTs = s.homeTs := by unfold State.setSpin; split <;> rfl
@[simp] theorem State.setSpin_msgs (s : State) (a : Nat) (x : Spin) : (s.setSpin a x).msgs = s.msgs := by unfold State.setSpin; split <;> rfl
@[simp] theorem State.setSpin_net (s : State) (a : Nat) (x : Spin) : (s.setSpin a x).net = s.net := by unfold State.setSpin; split <;> rfl
@[simp] theorem State.setSpin_flows (s : State) (a : Nat) (x : Spin) : (s.setSpin a x).flows = s.flows := by unfold State.setSpin; split <;> rfl
@[simp] theorem State.setSpin_launches (s : State) (a : Nat) (x : Spin) : (s.setSpin a x).launches = s.launches := by unfold State.setSpin; split <;> rfl
@[simp] theorem State.setSpin_folios (s : State) (a : Nat) (x : Spin) : (s.setSpin a x).folios = s.folios := by unfold State.setSpin; split <;> rfl
@[simp] theorem State.setSpin_work (s : State) (a : Nat) (x : Spin) : (s.setSpin a x).work = s.work := by unfold State.setSpin; split <;> rfl
@[simp] theorem State.setSpin_rebasing (s : State) (a : Nat) (x : Spin) : (s.setSpin a x).rebasing = s.rebasing := by unfold State.setSpin; split <;> rfl
@[simp] theorem State.setSpin_rebases (s : State) (a : Nat) (x : Spin) : (s.setSpin a x).rebases = s.rebases := by unfold State.setSpin; split <;> rfl
@[simp] theorem State.setSpin_mod (s : State) (a : Nat) (x : Spin) : (s.setSpin a x).mod = s.mod := by unfold State.setSpin; split <;> rfl

@[simp] theorem State.setWhw_now (s : State) (a : Nat) : (s.setWhw a).now = s.now := by unfold State.setWhw; split <;> rfl
@[simp] theorem State.setWhw_tile (s : State) (a : Nat) : (s.setWhw a).tile = s.tile := by unfold State.setWhw; split <;> rfl
@[simp] theorem State.setWhw_cell (s : State) (a : Nat) : (s.setWhw a).cell = s.cell := by unfold State.setWhw; split <;> rfl
@[simp] theorem State.setWhw_tick (s : State) (a : Nat) : (s.setWhw a).tick = s.tick := by unfold State.setWhw; split <;> rfl
@[simp] theorem State.setWhw_clk (s : State) (a : Nat) : (s.setWhw a).clk = s.clk := by unfold State.setWhw; split <;> rfl
@[simp] theorem State.setWhw_eighths (s : State) (a : Nat) : (s.setWhw a).eighths = s.eighths := by unfold State.setWhw; split <;> rfl
@[simp] theorem State.setWhw_stamp (s : State) (a : Nat) : (s.setWhw a).stamp = s.stamp := by unfold State.setWhw; split <;> rfl
@[simp] theorem State.setWhw_mem (s : State) (a : Nat) : (s.setWhw a).mem = s.mem := by unfold State.setWhw; split <;> rfl
@[simp] theorem State.setWhw_dies (s : State) (a : Nat) : (s.setWhw a).dies = s.dies := by unfold State.setWhw; split <;> rfl
@[simp] theorem State.setWhw_homeTs (s : State) (a : Nat) : (s.setWhw a).homeTs = s.homeTs := by unfold State.setWhw; split <;> rfl
@[simp] theorem State.setWhw_msgs (s : State) (a : Nat) : (s.setWhw a).msgs = s.msgs := by unfold State.setWhw; split <;> rfl
@[simp] theorem State.setWhw_net (s : State) (a : Nat) : (s.setWhw a).net = s.net := by unfold State.setWhw; split <;> rfl
@[simp] theorem State.setWhw_flows (s : State) (a : Nat) : (s.setWhw a).flows = s.flows := by unfold State.setWhw; split <;> rfl
@[simp] theorem State.setWhw_launches (s : State) (a : Nat) : (s.setWhw a).launches = s.launches := by unfold State.setWhw; split <;> rfl
@[simp] theorem State.setWhw_folios (s : State) (a : Nat) : (s.setWhw a).folios = s.folios := by unfold State.setWhw; split <;> rfl
@[simp] theorem State.setWhw_work (s : State) (a : Nat) : (s.setWhw a).work = s.work := by unfold State.setWhw; split <;> rfl
@[simp] theorem State.setWhw_rebasing (s : State) (a : Nat) : (s.setWhw a).rebasing = s.rebasing := by unfold State.setWhw; split <;> rfl
@[simp] theorem State.setWhw_rebases (s : State) (a : Nat) : (s.setWhw a).rebases = s.rebases := by unfold State.setWhw; split <;> rfl
@[simp] theorem State.setWhw_mod (s : State) (a : Nat) : (s.setWhw a).mod = s.mod := by unfold State.setWhw; split <;> rfl

@[simp] theorem State.setSbuf_now (s : State) (a : Nat) (b : List StoreEnt) : (s.setSbuf a b).now = s.now := by unfold State.setSbuf; split <;> rfl
@[simp] theorem State.setSbuf_tile (s : State) (a : Nat) (b : List StoreEnt) : (s.setSbuf a b).tile = s.tile := by unfold State.setSbuf; split <;> rfl
@[simp] theorem State.setSbuf_cell (s : State) (a : Nat) (b : List StoreEnt) : (s.setSbuf a b).cell = s.cell := by unfold State.setSbuf; split <;> rfl
@[simp] theorem State.setSbuf_tick (s : State) (a : Nat) (b : List StoreEnt) : (s.setSbuf a b).tick = s.tick := by unfold State.setSbuf; split <;> rfl
@[simp] theorem State.setSbuf_clk (s : State) (a : Nat) (b : List StoreEnt) : (s.setSbuf a b).clk = s.clk := by unfold State.setSbuf; split <;> rfl
@[simp] theorem State.setSbuf_eighths (s : State) (a : Nat) (b : List StoreEnt) : (s.setSbuf a b).eighths = s.eighths := by unfold State.setSbuf; split <;> rfl
@[simp] theorem State.setSbuf_stamp (s : State) (a : Nat) (b : List StoreEnt) : (s.setSbuf a b).stamp = s.stamp := by unfold State.setSbuf; split <;> rfl
@[simp] theorem State.setSbuf_mem (s : State) (a : Nat) (b : List StoreEnt) : (s.setSbuf a b).mem = s.mem := by unfold State.setSbuf; split <;> rfl
@[simp] theorem State.setSbuf_dies (s : State) (a : Nat) (b : List StoreEnt) : (s.setSbuf a b).dies = s.dies := by unfold State.setSbuf; split <;> rfl
@[simp] theorem State.setSbuf_homeTs (s : State) (a : Nat) (b : List StoreEnt) : (s.setSbuf a b).homeTs = s.homeTs := by unfold State.setSbuf; split <;> rfl
@[simp] theorem State.setSbuf_msgs (s : State) (a : Nat) (b : List StoreEnt) : (s.setSbuf a b).msgs = s.msgs := by unfold State.setSbuf; split <;> rfl
@[simp] theorem State.setSbuf_net (s : State) (a : Nat) (b : List StoreEnt) : (s.setSbuf a b).net = s.net := by unfold State.setSbuf; split <;> rfl
@[simp] theorem State.setSbuf_flows (s : State) (a : Nat) (b : List StoreEnt) : (s.setSbuf a b).flows = s.flows := by unfold State.setSbuf; split <;> rfl
@[simp] theorem State.setSbuf_launches (s : State) (a : Nat) (b : List StoreEnt) : (s.setSbuf a b).launches = s.launches := by unfold State.setSbuf; split <;> rfl
@[simp] theorem State.setSbuf_folios (s : State) (a : Nat) (b : List StoreEnt) : (s.setSbuf a b).folios = s.folios := by unfold State.setSbuf; split <;> rfl
@[simp] theorem State.setSbuf_work (s : State) (a : Nat) (b : List StoreEnt) : (s.setSbuf a b).work = s.work := by unfold State.setSbuf; split <;> rfl
@[simp] theorem State.setSbuf_rebasing (s : State) (a : Nat) (b : List StoreEnt) : (s.setSbuf a b).rebasing = s.rebasing := by unfold State.setSbuf; split <;> rfl
@[simp] theorem State.setSbuf_rebases (s : State) (a : Nat) (b : List StoreEnt) : (s.setSbuf a b).rebases = s.rebases := by unfold State.setSbuf; split <;> rfl
@[simp] theorem State.setSbuf_mod (s : State) (a : Nat) (b : List StoreEnt) : (s.setSbuf a b).mod = s.mod := by unfold State.setSbuf; split <;> rfl

@[simp] theorem State.modLd_now (s : State) (a : Nat) (g : LoadSt → LoadSt) : (s.modLd a g).now = s.now := by unfold State.modLd; split <;> (try split) <;> rfl
@[simp] theorem State.modLd_tile (s : State) (a : Nat) (g : LoadSt → LoadSt) : (s.modLd a g).tile = s.tile := by unfold State.modLd; split <;> (try split) <;> rfl
@[simp] theorem State.modLd_cell (s : State) (a : Nat) (g : LoadSt → LoadSt) : (s.modLd a g).cell = s.cell := by unfold State.modLd; split <;> (try split) <;> rfl
@[simp] theorem State.modLd_tick (s : State) (a : Nat) (g : LoadSt → LoadSt) : (s.modLd a g).tick = s.tick := by unfold State.modLd; split <;> (try split) <;> rfl
@[simp] theorem State.modLd_clk (s : State) (a : Nat) (g : LoadSt → LoadSt) : (s.modLd a g).clk = s.clk := by unfold State.modLd; split <;> (try split) <;> rfl
@[simp] theorem State.modLd_eighths (s : State) (a : Nat) (g : LoadSt → LoadSt) : (s.modLd a g).eighths = s.eighths := by unfold State.modLd; split <;> (try split) <;> rfl
@[simp] theorem State.modLd_stamp (s : State) (a : Nat) (g : LoadSt → LoadSt) : (s.modLd a g).stamp = s.stamp := by unfold State.modLd; split <;> (try split) <;> rfl
@[simp] theorem State.modLd_mem (s : State) (a : Nat) (g : LoadSt → LoadSt) : (s.modLd a g).mem = s.mem := by unfold State.modLd; split <;> (try split) <;> rfl
@[simp] theorem State.modLd_dies (s : State) (a : Nat) (g : LoadSt → LoadSt) : (s.modLd a g).dies = s.dies := by unfold State.modLd; split <;> (try split) <;> rfl
@[simp] theorem State.modLd_homeTs (s : State) (a : Nat) (g : LoadSt → LoadSt) : (s.modLd a g).homeTs = s.homeTs := by unfold State.modLd; split <;> (try split) <;> rfl
@[simp] theorem State.modLd_msgs (s : State) (a : Nat) (g : LoadSt → LoadSt) : (s.modLd a g).msgs = s.msgs := by unfold State.modLd; split <;> (try split) <;> rfl
@[simp] theorem State.modLd_net (s : State) (a : Nat) (g : LoadSt → LoadSt) : (s.modLd a g).net = s.net := by unfold State.modLd; split <;> (try split) <;> rfl
@[simp] theorem State.modLd_flows (s : State) (a : Nat) (g : LoadSt → LoadSt) : (s.modLd a g).flows = s.flows := by unfold State.modLd; split <;> (try split) <;> rfl
@[simp] theorem State.modLd_launches (s : State) (a : Nat) (g : LoadSt → LoadSt) : (s.modLd a g).launches = s.launches := by unfold State.modLd; split <;> (try split) <;> rfl
@[simp] theorem State.modLd_folios (s : State) (a : Nat) (g : LoadSt → LoadSt) : (s.modLd a g).folios = s.folios := by unfold State.modLd; split <;> (try split) <;> rfl
@[simp] theorem State.modLd_work (s : State) (a : Nat) (g : LoadSt → LoadSt) : (s.modLd a g).work = s.work := by unfold State.modLd; split <;> (try split) <;> rfl
@[simp] theorem State.modLd_rebasing (s : State) (a : Nat) (g : LoadSt → LoadSt) : (s.modLd a g).rebasing = s.rebasing := by unfold State.modLd; split <;> (try split) <;> rfl
@[simp] theorem State.modLd_rebases (s : State) (a : Nat) (g : LoadSt → LoadSt) : (s.modLd a g).rebases = s.rebases := by unfold State.modLd; split <;> (try split) <;> rfl
@[simp] theorem State.modLd_mod (s : State) (a : Nat) (g : LoadSt → LoadSt) : (s.modLd a g).mod = s.mod := by unfold State.modLd; split <;> (try split) <;> rfl

@[simp] theorem State.modWork_now (s : State) (i : Nat) (g : WorkEnt → WorkEnt) : (s.modWork i g).now = s.now := by unfold State.modWork; split <;> rfl
@[simp] theorem State.modWork_tile (s : State) (i : Nat) (g : WorkEnt → WorkEnt) : (s.modWork i g).tile = s.tile := by unfold State.modWork; split <;> rfl
@[simp] theorem State.modWork_cell (s : State) (i : Nat) (g : WorkEnt → WorkEnt) : (s.modWork i g).cell = s.cell := by unfold State.modWork; split <;> rfl
@[simp] theorem State.modWork_tick (s : State) (i : Nat) (g : WorkEnt → WorkEnt) : (s.modWork i g).tick = s.tick := by unfold State.modWork; split <;> rfl
@[simp] theorem State.modWork_clk (s : State) (i : Nat) (g : WorkEnt → WorkEnt) : (s.modWork i g).clk = s.clk := by unfold State.modWork; split <;> rfl
@[simp] theorem State.modWork_eighths (s : State) (i : Nat) (g : WorkEnt → WorkEnt) : (s.modWork i g).eighths = s.eighths := by unfold State.modWork; split <;> rfl
@[simp] theorem State.modWork_stamp (s : State) (i : Nat) (g : WorkEnt → WorkEnt) : (s.modWork i g).stamp = s.stamp := by unfold State.modWork; split <;> rfl
@[simp] theorem State.modWork_mem (s : State) (i : Nat) (g : WorkEnt → WorkEnt) : (s.modWork i g).mem = s.mem := by unfold State.modWork; split <;> rfl
@[simp] theorem State.modWork_tiles (s : State) (i : Nat) (g : WorkEnt → WorkEnt) : (s.modWork i g).tiles = s.tiles := by unfold State.modWork; split <;> rfl
@[simp] theorem State.modWork_cells (s : State) (i : Nat) (g : WorkEnt → WorkEnt) : (s.modWork i g).cells = s.cells := by unfold State.modWork; split <;> rfl
@[simp] theorem State.modWork_dies (s : State) (i : Nat) (g : WorkEnt → WorkEnt) : (s.modWork i g).dies = s.dies := by unfold State.modWork; split <;> rfl
@[simp] theorem State.modWork_homeTs (s : State) (i : Nat) (g : WorkEnt → WorkEnt) : (s.modWork i g).homeTs = s.homeTs := by unfold State.modWork; split <;> rfl
@[simp] theorem State.modWork_msgs (s : State) (i : Nat) (g : WorkEnt → WorkEnt) : (s.modWork i g).msgs = s.msgs := by unfold State.modWork; split <;> rfl
@[simp] theorem State.modWork_net (s : State) (i : Nat) (g : WorkEnt → WorkEnt) : (s.modWork i g).net = s.net := by unfold State.modWork; split <;> rfl
@[simp] theorem State.modWork_flows (s : State) (i : Nat) (g : WorkEnt → WorkEnt) : (s.modWork i g).flows = s.flows := by unfold State.modWork; split <;> rfl
@[simp] theorem State.modWork_launches (s : State) (i : Nat) (g : WorkEnt → WorkEnt) : (s.modWork i g).launches = s.launches := by unfold State.modWork; split <;> rfl
@[simp] theorem State.modWork_folios (s : State) (i : Nat) (g : WorkEnt → WorkEnt) : (s.modWork i g).folios = s.folios := by unfold State.modWork; split <;> rfl
@[simp] theorem State.modWork_rebasing (s : State) (i : Nat) (g : WorkEnt → WorkEnt) : (s.modWork i g).rebasing = s.rebasing := by unfold State.modWork; split <;> rfl
@[simp] theorem State.modWork_rebases (s : State) (i : Nat) (g : WorkEnt → WorkEnt) : (s.modWork i g).rebases = s.rebases := by unfold State.modWork; split <;> rfl
@[simp] theorem State.modWork_mod (s : State) (i : Nat) (g : WorkEnt → WorkEnt) : (s.modWork i g).mod = s.mod := by unfold State.modWork; split <;> rfl

/-! Folds -/

/-- A fold whose every step leaves a part alone leaves it alone. -/
theorem foldl_frame {α β : Type} (g : State → β) (f : State → α → State) (h : ∀ s x, g (f s x) = g s) (l : List α) (s : State) :
    g (l.foldl f s) = g s := by
  induction l generalizing s with
  | nil => rfl
  | cons x r ih => simp only [List.foldl_cons, ih, h]

@[simp] theorem State.clearPlane_now (s : State) (l : Launch) (p : Nat) : (s.clearPlane l p).now = s.now := foldl_frame State.now _ (fun s c => by split <;> simp) _ _
@[simp] theorem State.clearPlane_tile (s : State) (l : Launch) (p : Nat) : (s.clearPlane l p).tile = s.tile := foldl_frame State.tile _ (fun s c => by split <;> simp) _ _
@[simp] theorem State.clearPlane_cell (s : State) (l : Launch) (p : Nat) : (s.clearPlane l p).cell = s.cell := foldl_frame State.cell _ (fun s c => by split <;> simp) _ _
@[simp] theorem State.clearPlane_tick (s : State) (l : Launch) (p : Nat) : (s.clearPlane l p).tick = s.tick := foldl_frame State.tick _ (fun s c => by split <;> simp) _ _
@[simp] theorem State.clearPlane_clk (s : State) (l : Launch) (p : Nat) : (s.clearPlane l p).clk = s.clk := foldl_frame State.clk _ (fun s c => by split <;> simp) _ _
@[simp] theorem State.clearPlane_eighths (s : State) (l : Launch) (p : Nat) : (s.clearPlane l p).eighths = s.eighths := foldl_frame State.eighths _ (fun s c => by split <;> simp) _ _
@[simp] theorem State.clearPlane_stamp (s : State) (l : Launch) (p : Nat) : (s.clearPlane l p).stamp = s.stamp := foldl_frame State.stamp _ (fun s c => by split <;> simp) _ _
@[simp] theorem State.clearPlane_mem (s : State) (l : Launch) (p : Nat) : (s.clearPlane l p).mem = s.mem := foldl_frame State.mem _ (fun s c => by split <;> simp) _ _
@[simp] theorem State.clearPlane_tiles (s : State) (l : Launch) (p : Nat) : (s.clearPlane l p).tiles = s.tiles := foldl_frame State.tiles _ (fun s c => by split <;> simp) _ _
@[simp] theorem State.clearPlane_dies (s : State) (l : Launch) (p : Nat) : (s.clearPlane l p).dies = s.dies := foldl_frame State.dies _ (fun s c => by split <;> simp) _ _
@[simp] theorem State.clearPlane_homeTs (s : State) (l : Launch) (p : Nat) : (s.clearPlane l p).homeTs = s.homeTs := foldl_frame State.homeTs _ (fun s c => by split <;> simp) _ _
@[simp] theorem State.clearPlane_msgs (s : State) (l : Launch) (p : Nat) : (s.clearPlane l p).msgs = s.msgs := foldl_frame State.msgs _ (fun s c => by split <;> simp) _ _
@[simp] theorem State.clearPlane_net (s : State) (l : Launch) (p : Nat) : (s.clearPlane l p).net = s.net := foldl_frame State.net _ (fun s c => by split <;> simp) _ _
@[simp] theorem State.clearPlane_flows (s : State) (l : Launch) (p : Nat) : (s.clearPlane l p).flows = s.flows := foldl_frame State.flows _ (fun s c => by split <;> simp) _ _
@[simp] theorem State.clearPlane_launches (s : State) (l : Launch) (p : Nat) : (s.clearPlane l p).launches = s.launches := foldl_frame State.launches _ (fun s c => by split <;> simp) _ _
@[simp] theorem State.clearPlane_folios (s : State) (l : Launch) (p : Nat) : (s.clearPlane l p).folios = s.folios := foldl_frame State.folios _ (fun s c => by split <;> simp) _ _
@[simp] theorem State.clearPlane_work (s : State) (l : Launch) (p : Nat) : (s.clearPlane l p).work = s.work := foldl_frame State.work _ (fun s c => by split <;> simp) _ _
@[simp] theorem State.clearPlane_rebasing (s : State) (l : Launch) (p : Nat) : (s.clearPlane l p).rebasing = s.rebasing := foldl_frame State.rebasing _ (fun s c => by split <;> simp) _ _
@[simp] theorem State.clearPlane_rebases (s : State) (l : Launch) (p : Nat) : (s.clearPlane l p).rebases = s.rebases := foldl_frame State.rebases _ (fun s c => by split <;> simp) _ _
@[simp] theorem State.clearPlane_mod (s : State) (l : Launch) (p : Nat) : (s.clearPlane l p).mod = s.mod := foldl_frame State.mod _ (fun s c => by split <;> simp) _ _

@[simp] theorem State.writePlane_now (s : State) (l : Launch) (cfg : ConfigImg) (p : Nat) : (s.writePlane l cfg p).now = s.now := by
  unfold State.writePlane
  exact (foldl_frame State.now _ (fun s c => by simp) _ _).trans (by simp)
@[simp] theorem State.writePlane_tile (s : State) (l : Launch) (cfg : ConfigImg) (p : Nat) : (s.writePlane l cfg p).tile = s.tile := by
  unfold State.writePlane
  exact (foldl_frame State.tile _ (fun s c => by simp) _ _).trans (by simp)
@[simp] theorem State.writePlane_cell (s : State) (l : Launch) (cfg : ConfigImg) (p : Nat) : (s.writePlane l cfg p).cell = s.cell := by
  unfold State.writePlane
  exact (foldl_frame State.cell _ (fun s c => by simp) _ _).trans (by simp)
@[simp] theorem State.writePlane_tick (s : State) (l : Launch) (cfg : ConfigImg) (p : Nat) : (s.writePlane l cfg p).tick = s.tick := by
  unfold State.writePlane
  exact (foldl_frame State.tick _ (fun s c => by simp) _ _).trans (by simp)
@[simp] theorem State.writePlane_clk (s : State) (l : Launch) (cfg : ConfigImg) (p : Nat) : (s.writePlane l cfg p).clk = s.clk := by
  unfold State.writePlane
  exact (foldl_frame State.clk _ (fun s c => by simp) _ _).trans (by simp)
@[simp] theorem State.writePlane_eighths (s : State) (l : Launch) (cfg : ConfigImg) (p : Nat) : (s.writePlane l cfg p).eighths = s.eighths := by
  unfold State.writePlane
  exact (foldl_frame State.eighths _ (fun s c => by simp) _ _).trans (by simp)
@[simp] theorem State.writePlane_stamp (s : State) (l : Launch) (cfg : ConfigImg) (p : Nat) : (s.writePlane l cfg p).stamp = s.stamp := by
  unfold State.writePlane
  exact (foldl_frame State.stamp _ (fun s c => by simp) _ _).trans (by simp)
@[simp] theorem State.writePlane_mem (s : State) (l : Launch) (cfg : ConfigImg) (p : Nat) : (s.writePlane l cfg p).mem = s.mem := by
  unfold State.writePlane
  exact (foldl_frame State.mem _ (fun s c => by simp) _ _).trans (by simp)
@[simp] theorem State.writePlane_tiles (s : State) (l : Launch) (cfg : ConfigImg) (p : Nat) : (s.writePlane l cfg p).tiles = s.tiles := by
  unfold State.writePlane
  exact (foldl_frame State.tiles _ (fun s c => by simp) _ _).trans (by simp)
@[simp] theorem State.writePlane_dies (s : State) (l : Launch) (cfg : ConfigImg) (p : Nat) : (s.writePlane l cfg p).dies = s.dies := by
  unfold State.writePlane
  exact (foldl_frame State.dies _ (fun s c => by simp) _ _).trans (by simp)
@[simp] theorem State.writePlane_homeTs (s : State) (l : Launch) (cfg : ConfigImg) (p : Nat) : (s.writePlane l cfg p).homeTs = s.homeTs := by
  unfold State.writePlane
  exact (foldl_frame State.homeTs _ (fun s c => by simp) _ _).trans (by simp)
@[simp] theorem State.writePlane_msgs (s : State) (l : Launch) (cfg : ConfigImg) (p : Nat) : (s.writePlane l cfg p).msgs = s.msgs := by
  unfold State.writePlane
  exact (foldl_frame State.msgs _ (fun s c => by simp) _ _).trans (by simp)
@[simp] theorem State.writePlane_net (s : State) (l : Launch) (cfg : ConfigImg) (p : Nat) : (s.writePlane l cfg p).net = s.net := by
  unfold State.writePlane
  exact (foldl_frame State.net _ (fun s c => by simp) _ _).trans (by simp)
@[simp] theorem State.writePlane_flows (s : State) (l : Launch) (cfg : ConfigImg) (p : Nat) : (s.writePlane l cfg p).flows = s.flows := by
  unfold State.writePlane
  exact (foldl_frame State.flows _ (fun s c => by simp) _ _).trans (by simp)
@[simp] theorem State.writePlane_launches (s : State) (l : Launch) (cfg : ConfigImg) (p : Nat) : (s.writePlane l cfg p).launches = s.launches := by
  unfold State.writePlane
  exact (foldl_frame State.launches _ (fun s c => by simp) _ _).trans (by simp)
@[simp] theorem State.writePlane_folios (s : State) (l : Launch) (cfg : ConfigImg) (p : Nat) : (s.writePlane l cfg p).folios = s.folios := by
  unfold State.writePlane
  exact (foldl_frame State.folios _ (fun s c => by simp) _ _).trans (by simp)
@[simp] theorem State.writePlane_work (s : State) (l : Launch) (cfg : ConfigImg) (p : Nat) : (s.writePlane l cfg p).work = s.work := by
  unfold State.writePlane
  exact (foldl_frame State.work _ (fun s c => by simp) _ _).trans (by simp)
@[simp] theorem State.writePlane_rebasing (s : State) (l : Launch) (cfg : ConfigImg) (p : Nat) : (s.writePlane l cfg p).rebasing = s.rebasing := by
  unfold State.writePlane
  exact (foldl_frame State.rebasing _ (fun s c => by simp) _ _).trans (by simp)
@[simp] theorem State.writePlane_rebases (s : State) (l : Launch) (cfg : ConfigImg) (p : Nat) : (s.writePlane l cfg p).rebases = s.rebases := by
  unfold State.writePlane
  exact (foldl_frame State.rebases _ (fun s c => by simp) _ _).trans (by simp)
@[simp] theorem State.writePlane_mod (s : State) (l : Launch) (cfg : ConfigImg) (p : Nat) : (s.writePlane l cfg p).mod = s.mod := by
  unfold State.writePlane
  exact (foldl_frame State.mod _ (fun s c => by simp) _ _).trans (by simp)

/-! Messages -/

@[simp] theorem State.send_now (s : State) (d e f a o : Nat) (k : MsgKind) : (s.send d e f a o k).now = s.now := by unfold State.send; split <;> rfl
@[simp] theorem State.send_tile (s : State) (d e f a o : Nat) (k : MsgKind) : (s.send d e f a o k).tile = s.tile := by unfold State.send; split <;> rfl
@[simp] theorem State.send_cell (s : State) (d e f a o : Nat) (k : MsgKind) : (s.send d e f a o k).cell = s.cell := by unfold State.send; split <;> rfl
@[simp] theorem State.send_tick (s : State) (d e f a o : Nat) (k : MsgKind) : (s.send d e f a o k).tick = s.tick := by unfold State.send; split <;> rfl
@[simp] theorem State.send_clk (s : State) (d e f a o : Nat) (k : MsgKind) : (s.send d e f a o k).clk = s.clk := by unfold State.send; split <;> rfl
@[simp] theorem State.send_eighths (s : State) (d e f a o : Nat) (k : MsgKind) : (s.send d e f a o k).eighths = s.eighths := by unfold State.send; split <;> rfl
@[simp] theorem State.send_stamp (s : State) (d e f a o : Nat) (k : MsgKind) : (s.send d e f a o k).stamp = s.stamp := by unfold State.send; split <;> rfl
@[simp] theorem State.send_mem (s : State) (d e f a o : Nat) (k : MsgKind) : (s.send d e f a o k).mem = s.mem := by unfold State.send; split <;> rfl
@[simp] theorem State.send_tiles (s : State) (d e f a o : Nat) (k : MsgKind) : (s.send d e f a o k).tiles = s.tiles := by unfold State.send; split <;> rfl
@[simp] theorem State.send_cells (s : State) (d e f a o : Nat) (k : MsgKind) : (s.send d e f a o k).cells = s.cells := by unfold State.send; split <;> rfl
@[simp] theorem State.send_dies (s : State) (d e f a o : Nat) (k : MsgKind) : (s.send d e f a o k).dies = s.dies := by unfold State.send; split <;> rfl
@[simp] theorem State.send_homeTs (s : State) (d e f a o : Nat) (k : MsgKind) : (s.send d e f a o k).homeTs = s.homeTs := by unfold State.send; split <;> rfl
@[simp] theorem State.send_net (s : State) (d e f a o : Nat) (k : MsgKind) : (s.send d e f a o k).net = s.net := by unfold State.send; split <;> rfl
@[simp] theorem State.send_launches (s : State) (d e f a o : Nat) (k : MsgKind) : (s.send d e f a o k).launches = s.launches := by unfold State.send; split <;> rfl
@[simp] theorem State.send_folios (s : State) (d e f a o : Nat) (k : MsgKind) : (s.send d e f a o k).folios = s.folios := by unfold State.send; split <;> rfl
@[simp] theorem State.send_work (s : State) (d e f a o : Nat) (k : MsgKind) : (s.send d e f a o k).work = s.work := by unfold State.send; split <;> rfl
@[simp] theorem State.send_rebasing (s : State) (d e f a o : Nat) (k : MsgKind) : (s.send d e f a o k).rebasing = s.rebasing := by unfold State.send; split <;> rfl
@[simp] theorem State.send_rebases (s : State) (d e f a o : Nat) (k : MsgKind) : (s.send d e f a o k).rebases = s.rebases := by unfold State.send; split <;> rfl
@[simp] theorem State.send_mod (s : State) (d e f a o : Nat) (k : MsgKind) : (s.send d e f a o k).mod = s.mod := by unfold State.send; split <;> rfl

@[simp] theorem State.sendFrom_now (s : State) (a o d : Nat) (k : MsgKind) : (s.sendFrom a o d k).now = s.now := by simp [State.sendFrom]
@[simp] theorem State.sendFrom_tile (s : State) (a o d : Nat) (k : MsgKind) : (s.sendFrom a o d k).tile = s.tile := by simp [State.sendFrom]
@[simp] theorem State.sendFrom_cell (s : State) (a o d : Nat) (k : MsgKind) : (s.sendFrom a o d k).cell = s.cell := by simp [State.sendFrom]
@[simp] theorem State.sendFrom_tick (s : State) (a o d : Nat) (k : MsgKind) : (s.sendFrom a o d k).tick = s.tick := by simp [State.sendFrom]
@[simp] theorem State.sendFrom_clk (s : State) (a o d : Nat) (k : MsgKind) : (s.sendFrom a o d k).clk = s.clk := by simp [State.sendFrom]
@[simp] theorem State.sendFrom_eighths (s : State) (a o d : Nat) (k : MsgKind) : (s.sendFrom a o d k).eighths = s.eighths := by simp [State.sendFrom]
@[simp] theorem State.sendFrom_stamp (s : State) (a o d : Nat) (k : MsgKind) : (s.sendFrom a o d k).stamp = s.stamp := by simp [State.sendFrom]
@[simp] theorem State.sendFrom_mem (s : State) (a o d : Nat) (k : MsgKind) : (s.sendFrom a o d k).mem = s.mem := by simp [State.sendFrom]
@[simp] theorem State.sendFrom_tiles (s : State) (a o d : Nat) (k : MsgKind) : (s.sendFrom a o d k).tiles = s.tiles := by simp [State.sendFrom]
@[simp] theorem State.sendFrom_cells (s : State) (a o d : Nat) (k : MsgKind) : (s.sendFrom a o d k).cells = s.cells := by simp [State.sendFrom]
@[simp] theorem State.sendFrom_dies (s : State) (a o d : Nat) (k : MsgKind) : (s.sendFrom a o d k).dies = s.dies := by simp [State.sendFrom]
@[simp] theorem State.sendFrom_homeTs (s : State) (a o d : Nat) (k : MsgKind) : (s.sendFrom a o d k).homeTs = s.homeTs := by simp [State.sendFrom]
@[simp] theorem State.sendFrom_net (s : State) (a o d : Nat) (k : MsgKind) : (s.sendFrom a o d k).net = s.net := by simp [State.sendFrom]
@[simp] theorem State.sendFrom_launches (s : State) (a o d : Nat) (k : MsgKind) : (s.sendFrom a o d k).launches = s.launches := by simp [State.sendFrom]
@[simp] theorem State.sendFrom_folios (s : State) (a o d : Nat) (k : MsgKind) : (s.sendFrom a o d k).folios = s.folios := by simp [State.sendFrom]
@[simp] theorem State.sendFrom_work (s : State) (a o d : Nat) (k : MsgKind) : (s.sendFrom a o d k).work = s.work := by simp [State.sendFrom]
@[simp] theorem State.sendFrom_rebasing (s : State) (a o d : Nat) (k : MsgKind) : (s.sendFrom a o d k).rebasing = s.rebasing := by simp [State.sendFrom]
@[simp] theorem State.sendFrom_rebases (s : State) (a o d : Nat) (k : MsgKind) : (s.sendFrom a o d k).rebases = s.rebases := by simp [State.sendFrom]
@[simp] theorem State.sendFrom_mod (s : State) (a o d : Nat) (k : MsgKind) : (s.sendFrom a o d k).mod = s.mod := by simp [State.sendFrom]

@[simp] theorem State.sendBack_now (s : State) (d a o : Nat) (k : MsgKind) : (s.sendBack d a o k).now = s.now := by simp [State.sendBack]
@[simp] theorem State.sendBack_tile (s : State) (d a o : Nat) (k : MsgKind) : (s.sendBack d a o k).tile = s.tile := by simp [State.sendBack]
@[simp] theorem State.sendBack_cell (s : State) (d a o : Nat) (k : MsgKind) : (s.sendBack d a o k).cell = s.cell := by simp [State.sendBack]
@[simp] theorem State.sendBack_tick (s : State) (d a o : Nat) (k : MsgKind) : (s.sendBack d a o k).tick = s.tick := by simp [State.sendBack]
@[simp] theorem State.sendBack_clk (s : State) (d a o : Nat) (k : MsgKind) : (s.sendBack d a o k).clk = s.clk := by simp [State.sendBack]
@[simp] theorem State.sendBack_eighths (s : State) (d a o : Nat) (k : MsgKind) : (s.sendBack d a o k).eighths = s.eighths := by simp [State.sendBack]
@[simp] theorem State.sendBack_stamp (s : State) (d a o : Nat) (k : MsgKind) : (s.sendBack d a o k).stamp = s.stamp := by simp [State.sendBack]
@[simp] theorem State.sendBack_mem (s : State) (d a o : Nat) (k : MsgKind) : (s.sendBack d a o k).mem = s.mem := by simp [State.sendBack]
@[simp] theorem State.sendBack_tiles (s : State) (d a o : Nat) (k : MsgKind) : (s.sendBack d a o k).tiles = s.tiles := by simp [State.sendBack]
@[simp] theorem State.sendBack_cells (s : State) (d a o : Nat) (k : MsgKind) : (s.sendBack d a o k).cells = s.cells := by simp [State.sendBack]
@[simp] theorem State.sendBack_dies (s : State) (d a o : Nat) (k : MsgKind) : (s.sendBack d a o k).dies = s.dies := by simp [State.sendBack]
@[simp] theorem State.sendBack_homeTs (s : State) (d a o : Nat) (k : MsgKind) : (s.sendBack d a o k).homeTs = s.homeTs := by simp [State.sendBack]
@[simp] theorem State.sendBack_net (s : State) (d a o : Nat) (k : MsgKind) : (s.sendBack d a o k).net = s.net := by simp [State.sendBack]
@[simp] theorem State.sendBack_launches (s : State) (d a o : Nat) (k : MsgKind) : (s.sendBack d a o k).launches = s.launches := by simp [State.sendBack]
@[simp] theorem State.sendBack_folios (s : State) (d a o : Nat) (k : MsgKind) : (s.sendBack d a o k).folios = s.folios := by simp [State.sendBack]
@[simp] theorem State.sendBack_work (s : State) (d a o : Nat) (k : MsgKind) : (s.sendBack d a o k).work = s.work := by simp [State.sendBack]
@[simp] theorem State.sendBack_rebasing (s : State) (d a o : Nat) (k : MsgKind) : (s.sendBack d a o k).rebasing = s.rebasing := by simp [State.sendBack]
@[simp] theorem State.sendBack_rebases (s : State) (d a o : Nat) (k : MsgKind) : (s.sendBack d a o k).rebases = s.rebases := by simp [State.sendBack]
@[simp] theorem State.sendBack_mod (s : State) (d a o : Nat) (k : MsgKind) : (s.sendBack d a o k).mod = s.mod := by simp [State.sendBack]

/-! Taking a fault (R337, R338): registers, memory, cells, tokens and messages stay -/

/-- A change of tiles, launches, control registers and Vault, and the work table alone. -/
def State.Bookkept (s t : State) : Prop := ∃ ti la di wo, t = { s with tiles := ti, launches := la, dies := di, work := wo }

theorem State.Bookkept.refl (s : State) : s.Bookkept s := ⟨s.tiles, s.launches, s.dies, s.work, rfl⟩

theorem State.Bookkept.trans {s t u : State} (h : s.Bookkept t) (k : t.Bookkept u) : s.Bookkept u := by
  obtain ⟨a, b, c, d, rfl⟩ := h
  obtain ⟨a', b', c', d', rfl⟩ := k
  exact ⟨a', b', c', d', rfl⟩

theorem State.Bookkept.fold {α : Type} {f : State → α → State} (h : ∀ (s : State) x, s.Bookkept (f s x)) (l : List α) (s : State) : s.Bookkept (l.foldl f s) := by
  induction l generalizing s with
  | nil => exact .refl s
  | cons x r ih => exact (h s x).trans (ih _)

theorem State.Bookkept.setLaunch (s : State) (u : Nat) (l : Launch) : s.Bookkept (s.setLaunch u l) := ⟨_, _, _, _, rfl⟩

theorem State.Bookkept.modLaunch (s : State) (u : Nat) (f : Launch → Launch) : s.Bookkept (s.modLaunch u f) := by
  unfold State.modLaunch
  split
  · exact .setLaunch s u _
  · exact .refl s

theorem State.Bookkept.vault (s : State) (d : Nat) (e : VEvent) : s.Bookkept (s.vault d e) := by
  unfold State.vault
  dsimp only
  split
  · exact .refl s
  · exact ⟨_, _, _, _, rfl⟩

theorem State.Bookkept.modWork (s : State) (i : Nat) (f : WorkEnt → WorkEnt) : s.Bookkept (s.modWork i f) := by
  unfold State.modWork
  split
  · exact ⟨_, _, _, _, rfl⟩
  · exact .refl s

theorem State.Bookkept.beginEnding (s : State) (u : Nat) : s.Bookkept (s.beginEnding u) := by
  unfold State.beginEnding
  split
  · exact .refl s
  · exact .trans (.fold (fun _ _ => ⟨_, _, _, _, rfl⟩) _ s) (.modLaunch _ u _)

theorem State.Bookkept.discard (s : State) (d t u : Nat) : s.Bookkept (s.discard d t u) := by
  unfold State.discard
  split
  · exact .refl s
  · split
    · exact .refl s
    · exact .trans (.setLaunch s u _) (.beginEnding _ u)

/-- Taking a fault only keeps books: it changes tiles, launches, the Vault and the work table. -/
theorem State.faultLaunch_bookkept (s : State) (u c t d : Nat) : s.Bookkept (s.faultLaunch u c t d) := by
  unfold State.faultLaunch
  cases s.launch? u with
  | none => exact .vault s _ _
  | some l =>
    dsimp only
    have h := State.Bookkept.vault s (tileDie t) ⟨0x03, c % 256, 0, placeTile t, l.id.toNat, l.vmid.toNat, d + c / 256 * 2 ^ 56⟩
    generalize s.vault (tileDie t) ⟨0x03, c % 256, 0, placeTile t, l.id.toNat, l.vmid.toNat, d + c / 256 * 2 ^ 56⟩ = x at h ⊢
    have e (l' : Launch) : x.Bookkept (if l.st == .ending then x.setLaunch u l' else (x.setLaunch u l').beginEnding u) := by
      split
      · exact .setLaunch x u l'
      · exact .trans (.setLaunch x u l') (.beginEnding _ u)
    split
    · exact h
    · split
      · exact h.trans (e _)
      · refine State.Bookkept.trans ?_ (.fold (fun x v => .trans (.modLaunch x v _) (.discard _ _ _ v)) _ _)
        split
        · exact (h.trans (e _)).trans (.modWork _ _ _)
        · exact h.trans (e _)

@[simp] theorem State.beginEnding_now (s : State) (u : Nat) : (s.beginEnding u).now = s.now := by obtain ⟨_, _, _, _, h⟩ := State.Bookkept.beginEnding s u; rw [h]
@[simp] theorem State.beginEnding_tile (s : State) (u : Nat) : (s.beginEnding u).tile = s.tile := by obtain ⟨_, _, _, _, h⟩ := State.Bookkept.beginEnding s u; rw [h]
@[simp] theorem State.beginEnding_cell (s : State) (u : Nat) : (s.beginEnding u).cell = s.cell := by obtain ⟨_, _, _, _, h⟩ := State.Bookkept.beginEnding s u; rw [h]
@[simp] theorem State.beginEnding_tick (s : State) (u : Nat) : (s.beginEnding u).tick = s.tick := by obtain ⟨_, _, _, _, h⟩ := State.Bookkept.beginEnding s u; rw [h]
@[simp] theorem State.beginEnding_clk (s : State) (u : Nat) : (s.beginEnding u).clk = s.clk := by obtain ⟨_, _, _, _, h⟩ := State.Bookkept.beginEnding s u; rw [h]
@[simp] theorem State.beginEnding_eighths (s : State) (u : Nat) : (s.beginEnding u).eighths = s.eighths := by obtain ⟨_, _, _, _, h⟩ := State.Bookkept.beginEnding s u; rw [h]
@[simp] theorem State.beginEnding_stamp (s : State) (u : Nat) : (s.beginEnding u).stamp = s.stamp := by obtain ⟨_, _, _, _, h⟩ := State.Bookkept.beginEnding s u; rw [h]
@[simp] theorem State.beginEnding_mem (s : State) (u : Nat) : (s.beginEnding u).mem = s.mem := by obtain ⟨_, _, _, _, h⟩ := State.Bookkept.beginEnding s u; rw [h]
@[simp] theorem State.beginEnding_cells (s : State) (u : Nat) : (s.beginEnding u).cells = s.cells := by obtain ⟨_, _, _, _, h⟩ := State.Bookkept.beginEnding s u; rw [h]
@[simp] theorem State.beginEnding_homeTs (s : State) (u : Nat) : (s.beginEnding u).homeTs = s.homeTs := by obtain ⟨_, _, _, _, h⟩ := State.Bookkept.beginEnding s u; rw [h]
@[simp] theorem State.beginEnding_msgs (s : State) (u : Nat) : (s.beginEnding u).msgs = s.msgs := by obtain ⟨_, _, _, _, h⟩ := State.Bookkept.beginEnding s u; rw [h]
@[simp] theorem State.beginEnding_net (s : State) (u : Nat) : (s.beginEnding u).net = s.net := by obtain ⟨_, _, _, _, h⟩ := State.Bookkept.beginEnding s u; rw [h]
@[simp] theorem State.beginEnding_flows (s : State) (u : Nat) : (s.beginEnding u).flows = s.flows := by obtain ⟨_, _, _, _, h⟩ := State.Bookkept.beginEnding s u; rw [h]
@[simp] theorem State.beginEnding_folios (s : State) (u : Nat) : (s.beginEnding u).folios = s.folios := by obtain ⟨_, _, _, _, h⟩ := State.Bookkept.beginEnding s u; rw [h]
@[simp] theorem State.beginEnding_rebasing (s : State) (u : Nat) : (s.beginEnding u).rebasing = s.rebasing := by obtain ⟨_, _, _, _, h⟩ := State.Bookkept.beginEnding s u; rw [h]
@[simp] theorem State.beginEnding_rebases (s : State) (u : Nat) : (s.beginEnding u).rebases = s.rebases := by obtain ⟨_, _, _, _, h⟩ := State.Bookkept.beginEnding s u; rw [h]
@[simp] theorem State.beginEnding_mod (s : State) (u : Nat) : (s.beginEnding u).mod = s.mod := by obtain ⟨_, _, _, _, h⟩ := State.Bookkept.beginEnding s u; rw [h]

@[simp] theorem State.discard_now (s : State) (d t u : Nat) : (s.discard d t u).now = s.now := by obtain ⟨_, _, _, _, h⟩ := State.Bookkept.discard s d t u; rw [h]
@[simp] theorem State.discard_tile (s : State) (d t u : Nat) : (s.discard d t u).tile = s.tile := by obtain ⟨_, _, _, _, h⟩ := State.Bookkept.discard s d t u; rw [h]
@[simp] theorem State.discard_cell (s : State) (d t u : Nat) : (s.discard d t u).cell = s.cell := by obtain ⟨_, _, _, _, h⟩ := State.Bookkept.discard s d t u; rw [h]
@[simp] theorem State.discard_tick (s : State) (d t u : Nat) : (s.discard d t u).tick = s.tick := by obtain ⟨_, _, _, _, h⟩ := State.Bookkept.discard s d t u; rw [h]
@[simp] theorem State.discard_clk (s : State) (d t u : Nat) : (s.discard d t u).clk = s.clk := by obtain ⟨_, _, _, _, h⟩ := State.Bookkept.discard s d t u; rw [h]
@[simp] theorem State.discard_eighths (s : State) (d t u : Nat) : (s.discard d t u).eighths = s.eighths := by obtain ⟨_, _, _, _, h⟩ := State.Bookkept.discard s d t u; rw [h]
@[simp] theorem State.discard_stamp (s : State) (d t u : Nat) : (s.discard d t u).stamp = s.stamp := by obtain ⟨_, _, _, _, h⟩ := State.Bookkept.discard s d t u; rw [h]
@[simp] theorem State.discard_mem (s : State) (d t u : Nat) : (s.discard d t u).mem = s.mem := by obtain ⟨_, _, _, _, h⟩ := State.Bookkept.discard s d t u; rw [h]
@[simp] theorem State.discard_cells (s : State) (d t u : Nat) : (s.discard d t u).cells = s.cells := by obtain ⟨_, _, _, _, h⟩ := State.Bookkept.discard s d t u; rw [h]
@[simp] theorem State.discard_homeTs (s : State) (d t u : Nat) : (s.discard d t u).homeTs = s.homeTs := by obtain ⟨_, _, _, _, h⟩ := State.Bookkept.discard s d t u; rw [h]
@[simp] theorem State.discard_msgs (s : State) (d t u : Nat) : (s.discard d t u).msgs = s.msgs := by obtain ⟨_, _, _, _, h⟩ := State.Bookkept.discard s d t u; rw [h]
@[simp] theorem State.discard_net (s : State) (d t u : Nat) : (s.discard d t u).net = s.net := by obtain ⟨_, _, _, _, h⟩ := State.Bookkept.discard s d t u; rw [h]
@[simp] theorem State.discard_flows (s : State) (d t u : Nat) : (s.discard d t u).flows = s.flows := by obtain ⟨_, _, _, _, h⟩ := State.Bookkept.discard s d t u; rw [h]
@[simp] theorem State.discard_folios (s : State) (d t u : Nat) : (s.discard d t u).folios = s.folios := by obtain ⟨_, _, _, _, h⟩ := State.Bookkept.discard s d t u; rw [h]
@[simp] theorem State.discard_rebasing (s : State) (d t u : Nat) : (s.discard d t u).rebasing = s.rebasing := by obtain ⟨_, _, _, _, h⟩ := State.Bookkept.discard s d t u; rw [h]
@[simp] theorem State.discard_rebases (s : State) (d t u : Nat) : (s.discard d t u).rebases = s.rebases := by obtain ⟨_, _, _, _, h⟩ := State.Bookkept.discard s d t u; rw [h]
@[simp] theorem State.discard_mod (s : State) (d t u : Nat) : (s.discard d t u).mod = s.mod := by obtain ⟨_, _, _, _, h⟩ := State.Bookkept.discard s d t u; rw [h]

@[simp] theorem State.faultLaunch_now (s : State) (u c t d : Nat) : (s.faultLaunch u c t d).now = s.now := by obtain ⟨_, _, _, _, h⟩ := s.faultLaunch_bookkept u c t d; rw [h]
@[simp] theorem State.faultLaunch_tile (s : State) (u c t d : Nat) : (s.faultLaunch u c t d).tile = s.tile := by obtain ⟨_, _, _, _, h⟩ := s.faultLaunch_bookkept u c t d; rw [h]
@[simp] theorem State.faultLaunch_cell (s : State) (u c t d : Nat) : (s.faultLaunch u c t d).cell = s.cell := by obtain ⟨_, _, _, _, h⟩ := s.faultLaunch_bookkept u c t d; rw [h]
@[simp] theorem State.faultLaunch_tick (s : State) (u c t d : Nat) : (s.faultLaunch u c t d).tick = s.tick := by obtain ⟨_, _, _, _, h⟩ := s.faultLaunch_bookkept u c t d; rw [h]
@[simp] theorem State.faultLaunch_clk (s : State) (u c t d : Nat) : (s.faultLaunch u c t d).clk = s.clk := by obtain ⟨_, _, _, _, h⟩ := s.faultLaunch_bookkept u c t d; rw [h]
@[simp] theorem State.faultLaunch_eighths (s : State) (u c t d : Nat) : (s.faultLaunch u c t d).eighths = s.eighths := by obtain ⟨_, _, _, _, h⟩ := s.faultLaunch_bookkept u c t d; rw [h]
@[simp] theorem State.faultLaunch_stamp (s : State) (u c t d : Nat) : (s.faultLaunch u c t d).stamp = s.stamp := by obtain ⟨_, _, _, _, h⟩ := s.faultLaunch_bookkept u c t d; rw [h]
@[simp] theorem State.faultLaunch_mem (s : State) (u c t d : Nat) : (s.faultLaunch u c t d).mem = s.mem := by obtain ⟨_, _, _, _, h⟩ := s.faultLaunch_bookkept u c t d; rw [h]
@[simp] theorem State.faultLaunch_cells (s : State) (u c t d : Nat) : (s.faultLaunch u c t d).cells = s.cells := by obtain ⟨_, _, _, _, h⟩ := s.faultLaunch_bookkept u c t d; rw [h]
@[simp] theorem State.faultLaunch_homeTs (s : State) (u c t d : Nat) : (s.faultLaunch u c t d).homeTs = s.homeTs := by obtain ⟨_, _, _, _, h⟩ := s.faultLaunch_bookkept u c t d; rw [h]
@[simp] theorem State.faultLaunch_msgs (s : State) (u c t d : Nat) : (s.faultLaunch u c t d).msgs = s.msgs := by obtain ⟨_, _, _, _, h⟩ := s.faultLaunch_bookkept u c t d; rw [h]
@[simp] theorem State.faultLaunch_net (s : State) (u c t d : Nat) : (s.faultLaunch u c t d).net = s.net := by obtain ⟨_, _, _, _, h⟩ := s.faultLaunch_bookkept u c t d; rw [h]
@[simp] theorem State.faultLaunch_flows (s : State) (u c t d : Nat) : (s.faultLaunch u c t d).flows = s.flows := by obtain ⟨_, _, _, _, h⟩ := s.faultLaunch_bookkept u c t d; rw [h]
@[simp] theorem State.faultLaunch_folios (s : State) (u c t d : Nat) : (s.faultLaunch u c t d).folios = s.folios := by obtain ⟨_, _, _, _, h⟩ := s.faultLaunch_bookkept u c t d; rw [h]
@[simp] theorem State.faultLaunch_rebasing (s : State) (u c t d : Nat) : (s.faultLaunch u c t d).rebasing = s.rebasing := by obtain ⟨_, _, _, _, h⟩ := s.faultLaunch_bookkept u c t d; rw [h]
@[simp] theorem State.faultLaunch_rebases (s : State) (u c t d : Nat) : (s.faultLaunch u c t d).rebases = s.rebases := by obtain ⟨_, _, _, _, h⟩ := s.faultLaunch_bookkept u c t d; rw [h]
@[simp] theorem State.faultLaunch_mod (s : State) (u c t d : Nat) : (s.faultLaunch u c t d).mod = s.mod := by obtain ⟨_, _, _, _, h⟩ := s.faultLaunch_bookkept u c t d; rw [h]

end Sys2Proof.Machine
end

