-- ==== Sys2Proof/Tests/Slice0.lean ====
section
/-! SUPPORT. The tests of the model, and for every statement with hypotheses a state and operands that meet them. -/

namespace Sys2Proof.Tests

set_option Elab.async false

open Sys2Proof Sys2Proof.Machine Sys2Proof.Claims

/-- A configuration with nothing in it. -/
def cfg0 : ConfigImg := { entry := none, tiles := [] }
/-- A configuration with a callee at step 1. -/
def cfg1 : ConfigImg := { entry := some 8, tiles := [] }
/-- A folio of three steps and two empty configurations, its region one tile. -/
def fol0 : Folio :=
  { va := 0x10000, vmid := 0, region := [{ index := 0, die := 0, trow := 0, tcol := 0, routes := [], evroutes := [], cells := [] }],
    steps := [0, 0, 0], configs := [cfg0, cfg1], service := false, verified := true, phasers := [], stepsAt := 0 }
/-- A running unit on tile 0. -/
def u0 : Launch := { Launch.blank with st := .running, region := [0] }
/-- A module whose tile 0 runs unit 1. -/
def w0 : State :=
  { State.reset with launches := [(1, u0)], folios := [fol0], stamp := 2, now := .seq 0,
                     tiles := [(0, { Tile.reset with owner := some 1 })] }
/-- `w0` with tile 0 changed. -/
def wt (f : Tile → Tile) : State := w0.modCur f
/-- `w0` with its unit changed. -/
def wu (f : Launch → Launch) : State := w0.modLaunch 1 f
/-- `w0` with another unit. -/
def wl (l : Launch) : State := { w0 with launches := [(1, l)] }
/-- `w0` with another unit and tile 0 changed. -/
def wlt (l : Launch) (f : Tile → Tile) : State := (wl l).modCur f
/-- The unit with plane 0 in a state, holding configuration 0. -/
def uP (st : PlaneState) : Launch := { u0 with planes := [(0, ⟨st, some 0, 0, false, 0, false, 0⟩)] }
/-- The unit with a frozen level in plane 1. -/
def uC : Launch := { u0 with levels := [⟨0, some 1, false, some 0, 0, Vector.replicate 4 ⟨0, 0⟩, false, 0, true, []⟩], depth := 1,
                             planes := [(0, ⟨.active, some 1, 1, false, 0, false, 0⟩), (1, ⟨.frozen, some 0, 0, false, 0, false, 0⟩)] }
/-- A leaf of 64 KiB at flat address 0x20000 of die 0, with every permission. -/
def e0 : TlbEnt := { vmid := 0, page := 1, size := 0, pte := 0x200C1 }
/-- Registers a1 to a3 set. -/
def regs (x y z : Word) (t : Tile) : Tile := { t with a := ((t.a.set 1 x).set 2 y).set 3 z }
/-- A tile whose caches hold that leaf and the line at the start of its page, a1 at the page. -/
def hit0 (t : Tile) : Tile := regs 0x10000 0x8000 7 { t with tlb := [e0], lines := [(gddrBase + 0x20000, ⟨0, 100, 0x80⟩)] }

/-- A tile whose sequencer has its reply. -/
def told (ok : Bool) (v : Word) (t : Tile) : Tile := { t with reply := some ⟨1, ok, v, 9, none⟩, phase := 1 }
/-- A dependence entry in a state. -/
def dep (k : BitVec 2) (st : DepState) : DepEnt := { DepEnt.fresh k with state := st }
/-- A tile whose dependence table holds entries 0 and 1. -/
def deps (x y : DepEnt) (t : Tile) : Tile := regs 0 1 0 { t with deps := [(0, x), (1, y)] }

/-- The unit on tile 6, whose cell 48 runs a block. -/
def wb (f : Block → Block) : State :=
  { w0 with cell := 48, launches := [(1, { u0 with region := [6] })], tiles := [(6, { Tile.reset with owner := some 1 })],
            cells := [(48, { Cell.reset with block := some (f Block.blank) })] }
/-- Temporaries 1 to 3 of a block. -/
def tmp (x y z : Word) (b : Block) : Block := { b with t := ((b.t.set 1 ⟨x, 0⟩).set 2 ⟨y, 0⟩).set 3 ⟨z, 0⟩ }
/-- What a load leaves. -/
def lres : LRes → State
  | .val _ s | .wait s => s
  | .fault _ => w0
/-- What reaching a target leaves. -/
def tres : TRes → State
  | .ok _ s | .wait s => s
  | .fault _ => w0
/-- The target that was reached. -/
def tgt : TRes → Target
  | .ok t _ => t
  | _ => ⟨0, 0, 0, 0, false, false⟩
/-- Page tables of job 0 whose leaf for page 1 is given, and JOBDIR. -/
def wPT (s : State) (leaf : Nat) : State :=
  { s.modDie 0 (fun d => { d with regs := (0x000, 0x100000) :: d.regs }) with
    mem := [(0x100000, 0x110001), (0x110000, 0x120001), (0x120000, 0x130001), (0x130000, 0x140001), (0x140008, leaf)].foldl
      (fun m e => memWrite m (gddrBase + e.1) 8 e.2) s.mem }
/-- Leaves of pages 1 and 2: the sync space of die 0, and memory. -/
def e6 : TlbEnt := { vmid := 0, page := 1, size := 0, pte := 0xF1 }
def e2 : TlbEnt := { vmid := 0, page := 2, size := 0, pte := 0x200C1 }
/-- `wb` with a tile that holds a leaf and two lines, an entry 1 to slot 1 field L and an entry 2 to slot 1's predicate, and a ray window. -/
def wm (win l0 l1 : Nat) (f : Block → Block) : State :=
  let s := wb f
  { s with tiles := [(6, { hit0 { Tile.reset with owner := some 1 } with lines := [(0x20000, ⟨0, 100, BitVec.ofNat 512 l0⟩), (0x20040, ⟨0, 100, BitVec.ofNat 512 l1⟩)] })],
           cells := [(48, { s.getCell 48 with planes := [(0, { CellPlane.reset with dests := [(1, 0x80040030), (2, 0x82040030)] })] })],
           mem := memWrite [] (packetWindow 48) 64 win }
/-- An engine command of tile 0's sequencer that has arrived at die 0. -/
def cmdOf (code : BitVec 8) (fmt : BitVec 3) (addr : Nat) (a b : Word) (aux : Nat) : SyncCmd := ⟨code, fmt, 3, addr, a, b, aux, 0, .seq 0⟩
/-- The message that carries a command. -/
def msgOf (c : SyncCmd) : Msg := ⟨.cmd c, w0.me, 1, 0, 0, none, true, false, 0⟩
/-- `w0` with a command at die 0. -/
def wc (c : SyncCmd) : State := { w0 with msgs := [msgOf c] }
/-- `wc` with die 0 changed. -/
def wcd (c : SyncCmd) (f : Die → Die) : State := (wc c).modDie 0 f
/-- A phaser of one signaller, one waiter and one of both. -/
def ph0 : Phaser := Phaser.create 1 1 1 0
/-- `wc` with a phaser at 0x40 of die 0. -/
def wp (c : SyncCmd) (p : Phaser) : State := wcd c fun d => { d with phasers := [(0x40, p)] }
/-- A phaser command. -/
def phc (code : BitVec 8) (a : Word) : SyncCmd := cmdOf code 0 (syncBase 0 + 0x40) a 0 0
/-- A member of tile 0's sequencer. -/
def mem0 (mode : BitVec 2) : PMember := ⟨w0.me, mode, 0, none, none⟩
/-- A stage word (R16): op, fmt, rnd, sat, srcA, srcB, dst, flags, k. -/
def stw (op fmt rnd sat srcA srcB dst flags k : Nat) : Word :=
  BitVec.ofNat 64 (op * 2 ^ 56 + fmt * 2 ^ 53 + rnd * 2 ^ 50 + sat * 2 ^ 48 + srcA * 2 ^ 44 + srcB * 2 ^ 40 + dst * 2 ^ 36 + flags * 2 ^ 32 + k)
/-- A flit. -/
def fl (fmt : Nat) (mark : BitVec 3) (v : Nat) : Flit := mkFlit (BitVec.ofNat 512 v) fmt mark
/-- A running unit on tile 0 whose cell 0 has stage n; its first operand waits on its link and in the box, its second at the stream input. -/
def wv (n : Nat) (w : Word) (a b : Flit) : State :=
  { wl { uP .active with run := true } with
    cells := [(0, { Cell.reset with planes := [(0, { CellPlane.reset with stages := [(n, w)], links := [(n, [a]), (9, [b])], outq := [(4, [a])], lfsr := [(n, 0x12345)] })] })] }


/-- The operands of a stage are there, as a test. -/
def dueB (s : State) (c n op : Nat) : Bool :=
  s.stageRuns c n op && (s.cp c).dstFree n && (smGet [] (s.cp c).pend n).isEmpty && (s.cp c).gateOpen n && [false, true].all fun b =>
    match s.head c n b with
    | .flit x => !x.beat && !x.isSide && !(s.cp c).needsConv n b x
    | .wait => false
    | _ => true

theorem due_of (s : State) (c n op : Nat) (h : dueB s c n op = true) : StageDue s c n op := by
  simp only [dueB, Bool.and_eq_true, List.all_cons, List.all_nil] at h
  obtain ⟨⟨⟨⟨h1, h2⟩, h3⟩, h4⟩, hf, ht, -⟩ := h
  refine ⟨⟨h1, h2, List.isEmpty_iff.1 h3, h4⟩, fun b => ?_⟩
  have hb : (match s.head c n b with
      | .flit x => !x.beat && !x.isSide && !(s.cp c).needsConv n b x
      | .wait => false
      | _ => true) = true := by cases b <;> assumption
  cases hh : s.head c n b with
  | flit x =>
    rw [hh] at hb
    refine ⟨by simp, fun y hy => ?_⟩
    cases hy
    simp only [Bool.and_eq_true, Bool.not_eq_true'] at hb
    exact ⟨hb.1.1, hb.1.2, hb.2⟩
  | wait => rw [hh] at hb; cases hb
  | none => exact ⟨by simp, fun y hy => by cases hy⟩

/-- A load gave a value. -/
def isVal (r : LRes) (v : Nat) (s : State) : Bool := match r with | .val a b => a == v && decide (b = s) | _ => false

theorem lres_of (r : LRes) (v : Nat) (s : State) (h : isVal r v s = true) : r = .val v s := by
  cases r <;> simp_all [isVal]

/-- A target was reached. -/
def isOk (r : TRes) (t : Target) (s : State) : Bool := match r with | .ok a b => decide (a = t) && decide (b = s) | _ => false

theorem tres_of (r : TRes) (t : Target) (s : State) (h : isOk r t s = true) : r = .ok t s := by
  cases r <;> simp_all [isOk]

/-- A target was refused. -/
def isFault (r : TRes) (c : Nat) : Bool := match r with | .fault a => a == c | _ => false

theorem tfault_of (r : TRes) (c : Nat) (h : isFault r c = true) : r = .fault c := by
  cases r <;> simp_all [isFault]

/-- A ray stack fits. -/
def isFit (r : FitRes) (l : List Nat) (b : Block) (s : State) : Bool :=
  match r with | .ok a x y => a == l && decide (x = b) && decide (y = s) | _ => false

theorem fit_of (r : FitRes) (l : List Nat) (b : Block) (s : State) (h : isFit r l b s = true) : r = .ok l b s := by
  cases r <;> simp_all [isFit]

/-- A write was performed. -/
def isDone (r : SRes) (s : State) : Bool := match r with | .done t => decide (t = s) | _ => false

theorem done_of (r : SRes) (s : State) (h : isDone r s = true) : r = .done s := by
  cases r <;> simp_all [isDone]

/-- A target waits. -/
def isWait (r : TRes) (s : State) : Bool := match r with | .wait t => decide (t = s) | _ => false

theorem twait_of (r : TRes) (s : State) (h : isWait r s = true) : r = .wait s := by
  cases r <;> simp_all [isWait]

namespace Steps

/-- A leaf of page 1 that gives X, and one that does not. -/
def exec1 (b : Bool) (t : Tile) : Tile := { t with tlb := [{ e0 with pte := if b then 0x201C1 else 0x200C1 }] }
def wX : State := wt (exec1 true)
def wXA : State := wlt (uP .active) (exec1 true)
def okTgt (x : Except Nat Target) : Target := match x with | .ok t => t | .error _ => ⟨0, 0, 0, 0, false, false⟩
def wPre : State := wPT (wl (uP .preloaded)) 0x201C5

/-! BranchesAndJumps -/

theorem test_wit_branch_falls :
    ¬(wt (regs 1#64 2#64 0#64)).ra 1#4 = (wt (regs 1#64 2#64 0#64)).ra 2#4 := by decide +kernel

theorem test_wit_branch_taken :
    (wt (regs 1#64 2#64 0#64)).ra 1#4 ≠ (wt (regs 1#64 2#64 0#64)).ra 2#4 ∧
  (wt (regs 1#64 2#64 0#64)).isStep ((wt (regs 1#64 2#64 0#64)).cur.spc + BitVec.ofInt 64 (8 * (2#40).toInt)) = true := by decide +kernel

theorem test_wit_branch_bad :
    BitVec.toInt ((wt (regs 1#64 2#64 0#64)).ra 1#4) < BitVec.toInt ((wt (regs 1#64 2#64 0#64)).ra 2#4) ∧
  (wt (regs 1#64 2#64 0#64)).isStep ((wt (regs 1#64 2#64 0#64)).cur.spc + BitVec.ofInt 64 (8 * (3#40).toInt)) = false := by decide +kernel

theorem test_wit_bge :
    BitVec.toInt ((wt (regs 5#64 5#64 0#64)).ra 2#4) ≤ BitVec.toInt ((wt (regs 5#64 5#64 0#64)).ra 1#4) ∧
  (wt (regs 5#64 5#64 0#64)).isStep ((wt (regs 5#64 5#64 0#64)).cur.spc + BitVec.ofInt 64 (8 * (2#40).toInt)) = true := by decide +kernel

theorem test_wit_bltu :
    BitVec.toNat ((wt (regs (5#64) (-1#64) 0#64)).ra 1#4) < BitVec.toNat ((wt (regs (5#64) (-1#64) 0#64)).ra 2#4) ∧
  (wt (regs (5#64) (-1#64) 0#64)).isStep ((wt (regs (5#64) (-1#64) 0#64)).cur.spc + BitVec.ofInt 64 (8 * (2#40).toInt)) = true := by decide +kernel

theorem test_wit_bgeu :
    BitVec.toNat ((wt (regs 5#64 5#64 0#64)).ra 2#4) ≤ BitVec.toNat ((wt (regs 5#64 5#64 0#64)).ra 1#4) ∧
  (wt (regs 5#64 5#64 0#64)).isStep ((wt (regs 5#64 5#64 0#64)).cur.spc + BitVec.ofInt 64 (8 * (-1#40).toInt)) = false := by decide +kernel

theorem test_wit_jal :
    w0.isStep (w0.cur.spc + BitVec.ofInt 64 (8 * (2#40).toInt)) = true := by decide +kernel

theorem test_wit_jalr :
    (wt (regs 0#64 8#64 0#64)).isStep ((wt (regs 0#64 8#64 0#64)).ra 2#4 + BitVec.ofInt 64 (8 * (1#40).toInt)) = true := by decide +kernel

theorem test_wit_jal_bad :
    w0.isStep (w0.cur.spc + BitVec.ofInt 64 (8 * (3#40).toInt)) = false := by decide +kernel

theorem test_wit_jalr_bad :
    (wt (regs 0#64 4#64 0#64)).isStep ((wt (regs 0#64 4#64 0#64)).ra 2#4 + BitVec.ofInt 64 (8 * (0#40).toInt)) = false := by decide +kernel

def arg_load : CLine :=
  ⟨0, 100, 0x80⟩

/-! LoadResults -/

theorem test_wit_load :
    LoadHit (wt hit0) (BitVec.toNat ((wt hit0).ra 1#4 + BitVec.ofInt 64 (0#40).toInt)) 1 e0 arg_load := by unfold LoadHit; decide +kernel

theorem test_wit_load16 :
    LoadHit (wt hit0) (BitVec.toNat ((wt hit0).ra 1#4 + BitVec.ofInt 64 (62#40).toInt)) 2 e0 arg_load := by unfold LoadHit; decide +kernel

theorem test_wit_load64 :
    LoadHit (wt hit0) (BitVec.toNat ((wt hit0).ra 1#4 + BitVec.ofInt 64 (56#40).toInt)) 8 e0 arg_load := by unfold LoadHit; decide +kernel

theorem test_wit_loads8 :
    LoadHit (wt hit0) (BitVec.toNat ((wt hit0).ra 1#4 + BitVec.ofInt 64 (0#40).toInt)) 1 e0 arg_load := by unfold LoadHit; decide +kernel

theorem test_wit_loads16 :
    LoadHit (wt hit0) (BitVec.toNat ((wt hit0).ra 1#4 + BitVec.ofInt 64 (0#40).toInt)) 2 e0 arg_load := by unfold LoadHit; decide +kernel

theorem test_wit_loads32 :
    LoadHit (wt hit0) (BitVec.toNat ((wt hit0).ra 1#4 + BitVec.ofInt 64 (0#40).toInt)) 4 e0 arg_load := by unfold LoadHit; decide +kernel

theorem test_wit_load32 :
    LoadHit (wt hit0) (BitVec.toNat ((wt hit0).ra 1#4 + BitVec.ofInt 64 (60#40).toInt)) 4 e0 arg_load := by unfold LoadHit; decide +kernel

def at_patld : State :=
  wt (hit0 · |> fun t => { t with lines := [(gddrBase + 0x20000, ⟨0, 100, 2 ^ 64⟩)] })

def arg_patld : CLine :=
  ⟨0, 100, 2 ^ 64⟩

theorem test_wit_patld :
    LoadHit at_patld (BitVec.toNat (at_patld.ra 1#4 + BitVec.ofInt 64 (0#40).toInt)) 32 e0 arg_patld ∧
  (Pattern.ofNat (hitValue at_patld (BitVec.toNat (at_patld.ra 1#4 + BitVec.ofInt 64 (0#40).toInt)) 32 e0 arg_patld)).ok = true := ⟨by unfold LoadHit; decide +kernel, by decide +kernel⟩

theorem test_wit_load_misaligned :
    ((wt hit0).ra 1#4 + BitVec.ofInt 64 (4#40).toInt).toNat < 2 ^ 56 ∧ ((wt hit0).ra 1#4 + BitVec.ofInt 64 (4#40).toInt).toNat % 8 ≠ 0 := by decide +kernel

/-! StoresEnterBuffer -/

theorem test_wit_st8 :
    StoreReady (wt hit0) (BitVec.toNat ((wt hit0).ra 1#4 + BitVec.ofInt 64 (65535#40).toInt)) 1 e0 := by unfold StoreReady; decide +kernel

theorem test_wit_st16 :
    StoreReady (wt hit0) (BitVec.toNat ((wt hit0).ra 1#4 + BitVec.ofInt 64 (0#40).toInt)) 2 e0 := by unfold StoreReady; decide +kernel

theorem test_wit_st32 :
    StoreReady (wt hit0) (BitVec.toNat ((wt hit0).ra 1#4 + BitVec.ofInt 64 (4#40).toInt)) 4 e0 := by unfold StoreReady; decide +kernel

theorem test_wit_st64 :
    StoreReady (wt hit0) (BitVec.toNat ((wt hit0).ra 1#4 + BitVec.ofInt 64 (65528#40).toInt)) 8 e0 := by unfold StoreReady; decide +kernel

theorem test_wit_patst :
    StoreReady (wt hit0) (BitVec.toNat ((wt hit0).ra 1#4 + BitVec.ofInt 64 (32#40).toInt)) 32 e0 := by unfold StoreReady; decide +kernel

/-! IterationAndPatternRegisters -/

theorem test_wit_nset :
    BitVec.toNat ((wt (regs 4294967295#64 0#64 0#64)).ra 1#4) < 2 ^ 32 ∧ (wt (regs 4294967295#64 0#64 0#64)).runActive = false := by decide +kernel

theorem test_wit_nset_over :
    2 ^ 32 ≤ BitVec.toNat ((wt (regs 4294967296#64 0#64 0#64)).ra 1#4) := by decide +kernel

def at_nset_waits : State :=
  wlt { u0 with run := true } (regs 5 0 0)

theorem test_wit_nset_waits :
    BitVec.toNat (at_nset_waits.ra 1#4) < 2 ^ 32 ∧ at_nset_waits.runActive = true := by decide +kernel

theorem test_wit_patbase :
    BitVec.toNat ((wt (regs 72057594037927935#64 0#64 0#64)).ra 1#4) < 2 ^ 56 := by decide +kernel

theorem test_wit_patbase_over :
    2 ^ 56 ≤ BitVec.toNat ((wt (regs 72057594037927936#64 0#64 0#64)).ra 1#4) := by decide +kernel

/-! ConfigurationSteps -/

theorem test_wit_cfgload :
    wX.unit? = some u0 ∧
  wX.config? u0 (1#8).toNat = some cfg1 ∧
    u0.run = false ∧
      cfg1.bad = none ∧ u0.loadPlane = some 0 ∧ wX.loaderReach u0 = TRes.ok (tgt (wX.loaderReach u0)) (tres (wX.loaderReach u0)) ∧ u0.active? = none := ⟨by decide +kernel, by decide +kernel, by decide +kernel, by decide +kernel, by decide +kernel, tres_of _ _ _ (by decide +kernel), by decide +kernel⟩

theorem test_wit_cfgload_bad :
    w0.unit? = some u0 ∧ w0.config? u0 (2#8).toNat = none := by decide +kernel

theorem test_wit_cfgrun :
    (wl (uP PlaneState.active)).captured (1#2) (DepStep.run 0#8) = none ∧
  (wl (uP PlaneState.active)).unit? = some (uP PlaneState.active) ∧
    (wl (uP PlaneState.active)).config? (uP PlaneState.active) (0#8).toNat = some cfg0 ∧
      (uP PlaneState.active).activeCfg = some (0#8).toNat ∧ (uP PlaneState.active).run = false := by decide +kernel

theorem test_wit_cfgrun_bad :
    (wl (uP PlaneState.active)).captured (1#2) (DepStep.run 1#8) = none ∧
  (wl (uP PlaneState.active)).unit? = some (uP PlaneState.active) ∧
    (wl (uP PlaneState.active)).config? (uP PlaneState.active) (1#8).toNat = some cfg1 ∧ (uP PlaneState.active).activeCfg ≠ some (1#8).toNat := by decide +kernel

theorem test_wit_cfgwait :
    w0.runActive = false := by decide +kernel

def at_cfgwait_waits : State :=
  wl { u0 with run := true }

theorem test_wit_cfgwait_waits :
    at_cfgwait_waits.runActive = true := by decide +kernel

def at_cfgdrain : State :=
  wlt { u0 with kept := some 3 } fun t => { t with phase := 1 }

def arg_cfgdrain : Launch :=
  { u0 with kept := some 3 }

theorem test_wit_cfgdrain :
    at_cfgdrain.unit? = some arg_cfgdrain ∧ arg_cfgdrain.run = false ∧ arg_cfgdrain.drain = none ∧ at_cfgdrain.cur.phase ≠ 0 := by decide +kernel

theorem test_wit_cfgstop :
    w0.unit? = some u0 ∧ u0.run = false ∧ u0.drain = none ∧ w0.cur.depsOut = false ∧ w0.cmdsOf w0.unitNo = [] ∧ u0.drained = true := by decide +kernel

theorem test_wit_call_begins :
    (wl (uP PlaneState.active)).unit? = some (uP PlaneState.active) ∧
  (uP PlaneState.active).service = false ∧
    (wl (uP PlaneState.active)).config? (uP PlaneState.active) (1#8).toNat = some cfg1 ∧
      cfg1.entry = some 8 ∧
        (uP PlaneState.active).callStage = 0 ∧
          (uP PlaneState.active).depth ≠ 64 ∧
            (wl (uP PlaneState.active)).frameOver (uP PlaneState.active) cfg1 = false ∧ (uP PlaneState.active).allParked = false := by decide +kernel

def at_call_deep : State :=
  wl { u0 with depth := 64 }

def arg_call_deep : Launch :=
  { u0 with depth := 64 }

theorem test_wit_call_deep :
    at_call_deep.unit? = some arg_call_deep ∧
  arg_call_deep.service = false ∧
    at_call_deep.config? arg_call_deep (1#8).toNat = some cfg1 ∧ cfg1.entry = some 8 ∧ arg_call_deep.callStage = 0 ∧ arg_call_deep.depth = 64 := by decide +kernel

def at_call_enters : State :=
  wl { uP .active with callStage := 4 }

def arg_call_enters : Launch :=
  { uP .active with callStage := 4 }

theorem test_wit_call_enters :
    at_call_enters.unit? = some arg_call_enters ∧
  arg_call_enters.service = false ∧
    at_call_enters.config? arg_call_enters (1#8).toNat = some cfg1 ∧
      cfg1.entry = some 8 ∧ arg_call_enters.callStage = 4 ∧ at_call_enters.writesDone = true := by decide +kernel

def at_call_ends : State :=
  wl { uP .active with callStage := 100 }

def arg_call_ends : Launch :=
  { uP .active with callStage := 100 }

theorem test_wit_call_ends :
    at_call_ends.unit? = some arg_call_ends ∧
  arg_call_ends.service = false ∧
    at_call_ends.config? arg_call_ends (1#8).toNat = some cfg1 ∧
      cfg1.entry = some 8 ∧
        100 ≤ arg_call_ends.callStage ∧ (at_call_ends.talkers arg_call_ends arg_call_ends.activeCfg 61)[arg_call_ends.callStage - 100]? = none := by decide +kernel

theorem test_wit_ret_none :
    w0.unit? = some u0 ∧ u0.callStage < 100 ∧ u0.levels = [] := by decide +kernel

theorem test_wit_ret_begins :
    (wl uC).unit? = some uC := by decide +kernel

def at_ret_thaws : State :=
  wl { uC with callStage := 21 }

def arg_ret_thaws : Launch :=
  { uC with callStage := 21 }

def arg_ret_thaws_15 : Level :=
  ⟨0, some 1, false, some 0, 0, Vector.replicate 4 ⟨0, 0⟩, false, 0, true, []⟩

theorem test_wit_ret_thaws :
    at_ret_thaws.unit? = some arg_ret_thaws ∧
  arg_ret_thaws.callStage = 21 ∧
    arg_ret_thaws.levels.getLast? = some arg_ret_thaws_15 ∧
      arg_ret_thaws_15.spilled = false ∧
        (∀ (p : ℕ), arg_ret_thaws_15.plane = some p → (arg_ret_thaws.plane p).busy = false) ∧ at_ret_thaws.writesDone = true := by decide +kernel

def at_ret_ends : State :=
  wl { uC with callStage := 100 }

def arg_ret_ends : Launch :=
  { uC with callStage := 100 }

theorem test_wit_ret_ends :
    at_ret_ends.unit? = some arg_ret_ends ∧
  100 ≤ arg_ret_ends.callStage ∧ (at_ret_ends.talkers arg_ret_ends arg_ret_ends.activeCfg 60)[arg_ret_ends.callStage - 100]? = none := by decide +kernel

theorem test_wit_preload_bad :
    (wl (uP PlaneState.parked)).unit? = some (uP PlaneState.parked) ∧
  (((uP PlaneState.parked).plane (0#2).toNat).st = PlaneState.active ∨
    ((uP PlaneState.parked).plane (0#2).toNat).st = PlaneState.frozen ∨ ((uP PlaneState.parked).plane (0#2).toNat).st = PlaneState.parked) := by decide +kernel

theorem test_wit_pswap_active :
    (wl (uP PlaneState.active)).unit? = some (uP PlaneState.active) ∧
  (uP PlaneState.active).service = false ∧ (uP PlaneState.active).callStage = 0 ∧ ((uP PlaneState.active).plane (0#2).toNat).st = PlaneState.active := by decide +kernel

theorem test_wit_pswap_begins :
    (wl (uP PlaneState.parked)).unit? = some (uP PlaneState.parked) ∧
  (uP PlaneState.parked).service = false ∧
    (uP PlaneState.parked).callStage = 0 ∧
      (((uP PlaneState.parked).plane (0#2).toNat).st = PlaneState.preloaded ∨ ((uP PlaneState.parked).plane (0#2).toNat).st = PlaneState.parked) := by decide +kernel

def at_pswap_ends : State :=
  wl { uP .parked with callStage := 12 }

def arg_pswap_ends : Launch :=
  { uP .parked with callStage := 12 }

theorem test_wit_pswap_ends :
    at_pswap_ends.unit? = some arg_pswap_ends ∧ arg_pswap_ends.service = false ∧ arg_pswap_ends.callStage = 12 := by decide +kernel

theorem test_wit_pswap_frozen :
    (wl (uP PlaneState.frozen)).unit? = some (uP PlaneState.frozen) ∧
  (uP PlaneState.frozen).service = false ∧ (uP PlaneState.frozen).callStage = 0 ∧ ((uP PlaneState.frozen).plane (0#2).toNat).st = PlaneState.frozen := by decide +kernel

theorem test_wit_pswap_free :
    (wl (uP PlaneState.active)).unit? = some (uP PlaneState.active) ∧
  (uP PlaneState.active).service = false ∧
    (uP PlaneState.active).callStage = 0 ∧
      ((uP PlaneState.active).plane (2#2).toNat).st = PlaneState.free ∧ ((uP PlaneState.active).plane (2#2).toNat).busy = false := by decide +kernel

theorem test_wit_cfgload_active :
    wXA.unit? = some (uP PlaneState.active) ∧
  wXA.config? (uP PlaneState.active) (1#8).toNat = some cfg1 ∧
    (uP PlaneState.active).run = false ∧
      cfg1.bad = none ∧
        (uP PlaneState.active).loadPlane = some 0 ∧
          wXA.loaderReach (uP PlaneState.active) =
              TRes.ok (tgt (wXA.loaderReach (uP PlaneState.active))) (tres (wXA.loaderReach (uP PlaneState.active))) ∧
            (uP PlaneState.active).active? = some 0 := ⟨by decide +kernel, by decide +kernel, by decide +kernel, by decide +kernel, by decide +kernel, tres_of _ _ _ (by decide +kernel), by decide +kernel⟩

theorem test_wit_cfgload_page :
    (wt (exec1 false)).unit? = some u0 ∧
  (wt (exec1 false)).config? u0 (1#8).toNat = some cfg1 ∧
    u0.run = false ∧ cfg1.bad = none ∧ u0.loadPlane = some 0 ∧ (wt (exec1 false)).loaderReach u0 = TRes.fault 33 := ⟨by decide +kernel, by decide +kernel, by decide +kernel, by decide +kernel, by decide +kernel, tfault_of _ _ (by decide +kernel)⟩

theorem test_wit_preload :
    (wl (uP PlaneState.active)).unit? = some (uP PlaneState.active) ∧
  (uP PlaneState.active).service = false ∧
    ((uP PlaneState.active).plane (2#2).toNat).busy = false ∧
      (wl (uP PlaneState.active)).config? (uP PlaneState.active) (1#8).toNat = some cfg1 ∧
        (((uP PlaneState.active).plane (2#2).toNat).st = PlaneState.free ∨ ((uP PlaneState.active).plane (2#2).toNat).st = PlaneState.loading) := by decide +kernel

theorem test_wit_preload_again :
    wPre.unit? = some (uP PlaneState.preloaded) ∧
  (uP PlaneState.preloaded).service = false ∧
    ((uP PlaneState.preloaded).plane (0#2).toNat).busy = false ∧
      wPre.config? (uP PlaneState.preloaded) (1#8).toNat = some cfg1 ∧
        ((uP PlaneState.preloaded).plane (0#2).toNat).st = PlaneState.preloaded ∧
          cfg1.bad = none ∧
            wPre.areaPage (uP PlaneState.preloaded).die (uP PlaneState.preloaded).vmid (wPre.folio (uP PlaneState.preloaded)).va Need.x =
              Except.ok (okTgt (wPre.areaPage 0 (0#16) 65536 Need.x)) := by decide +kernel

theorem test_wit_pswap_loading :
    (wl (uP PlaneState.loading)).unit? = some (uP PlaneState.loading) ∧
  (uP PlaneState.loading).service = false ∧
    (uP PlaneState.loading).callStage = 0 ∧ ((uP PlaneState.loading).plane (0#2).toNat).st = PlaneState.loading := by decide +kernel

end Steps

namespace EngineRequests


/-! StreamStepsQueue -/

theorem test_wit_strmin :
    w0.unit? = some u0 ∧
  u0.region[(0#4).toNat]? = some 0 ∧
    0 ≠ noTile ∧
      w0.captured (0#2)
            (DepStep.stream
              (Cmd.new (0#3) w0.cur.m[(1#3).toNat] (0#64) (0#64) (0#64) (shiftCell (cellOf 0 (4#6).toNat) (cellDie (cellOf 0 (4#6).toNat)) u0.move)
                (0#2) false (0#16) w0.unitNo u0.depth u0.active? w0.cur.spr.lclk)
              (2#2).toNat 0) =
          none ∧
        isTCell
              (Cmd.new (0#3) w0.cur.m[(1#3).toNat] (0#64) (0#64) (0#64) (shiftCell (cellOf 0 (4#6).toNat) (cellDie (cellOf 0 (4#6).toNat)) u0.move)
                  (0#2) false (0#16) w0.unitNo u0.depth u0.active? w0.cur.spr.lclk).cell =
            false ∧
          (Cmd.new (0#3) w0.cur.m[(1#3).toNat] (0#64) (0#64) (0#64) (shiftCell (cellOf 0 (4#6).toNat) (cellDie (cellOf 0 (4#6).toNat)) u0.move) (0#2)
                    false (0#16) w0.unitNo u0.depth u0.active? w0.cur.spr.lclk).bad
                0 =
              none ∧
            w0.reissues = false ∧ ((w0.getTile 0).port (2#2).toNat).entries.length < u0.queueCap := by decide +kernel

theorem test_wit_strmout :
    w0.unit? = some u0 ∧
  u0.region[(0#4).toNat]? = some 0 ∧
    0 ≠ noTile ∧
      w0.captured (0#2)
            (DepStep.stream
              (Cmd.new (1#3) w0.cur.m[(1#3).toNat] (0#64) (0#64) (0#64) (shiftCell (cellOf 0 (4#6).toNat) (cellDie (cellOf 0 (4#6).toNat)) u0.move)
                (0#2) false (0#16) w0.unitNo u0.depth u0.active? w0.cur.spr.lclk)
              (2#2).toNat 0) =
          none ∧
        isTCell
              (Cmd.new (1#3) w0.cur.m[(1#3).toNat] (0#64) (0#64) (0#64) (shiftCell (cellOf 0 (4#6).toNat) (cellDie (cellOf 0 (4#6).toNat)) u0.move)
                  (0#2) false (0#16) w0.unitNo u0.depth u0.active? w0.cur.spr.lclk).cell =
            false ∧
          (Cmd.new (1#3) w0.cur.m[(1#3).toNat] (0#64) (0#64) (0#64) (shiftCell (cellOf 0 (4#6).toNat) (cellDie (cellOf 0 (4#6).toNat)) u0.move) (0#2)
                    false (0#16) w0.unitNo u0.depth u0.active? w0.cur.spr.lclk).bad
                0 =
              none ∧
            w0.reissues = false ∧ ((w0.getTile 0).port (2#2).toNat).entries.length < u0.queueCap := by decide +kernel

theorem test_wit_strmgath :
    w0.unit? = some u0 ∧
  u0.region[(0#4).toNat]? = some 0 ∧
    0 ≠ noTile ∧
      w0.captured (0#2)
            (DepStep.stream
              (Cmd.new (2#3) w0.cur.m[(1#3).toNat] (0#64) (0#64) (w0.ra 3#4)
                (shiftCell (cellOf 0 (4#6).toNat) (cellDie (cellOf 0 (4#6).toNat)) u0.move) (0#2) false (0#16) w0.unitNo u0.depth u0.active?
                w0.cur.spr.lclk)
              (2#2).toNat 0) =
          none ∧
        isTCell
              (Cmd.new (2#3) w0.cur.m[(1#3).toNat] (0#64) (0#64) (w0.ra 3#4)
                  (shiftCell (cellOf 0 (4#6).toNat) (cellDie (cellOf 0 (4#6).toNat)) u0.move) (0#2) false (0#16) w0.unitNo u0.depth u0.active?
                  w0.cur.spr.lclk).cell =
            false ∧
          (Cmd.new (2#3) w0.cur.m[(1#3).toNat] (0#64) (0#64) (w0.ra 3#4) (shiftCell (cellOf 0 (4#6).toNat) (cellDie (cellOf 0 (4#6).toNat)) u0.move)
                    (0#2) false (0#16) w0.unitNo u0.depth u0.active? w0.cur.spr.lclk).bad
                0 =
              none ∧
            w0.reissues = false ∧ ((w0.getTile 0).port (2#2).toNat).entries.length < u0.queueCap := by decide +kernel

theorem test_wit_strmscat :
    w0.unit? = some u0 ∧
  u0.region[(0#4).toNat]? = some 0 ∧
    0 ≠ noTile ∧
      w0.captured (0#2)
            (DepStep.stream
              (Cmd.new (3#3) w0.cur.m[(1#3).toNat] (0#64) (0#64) (w0.ra 3#4)
                (shiftCell (cellOf 0 (4#6).toNat) (cellDie (cellOf 0 (4#6).toNat)) u0.move) (0#2) false (0#16) w0.unitNo u0.depth u0.active?
                w0.cur.spr.lclk)
              (2#2).toNat 0) =
          none ∧
        isTCell
              (Cmd.new (3#3) w0.cur.m[(1#3).toNat] (0#64) (0#64) (w0.ra 3#4)
                  (shiftCell (cellOf 0 (4#6).toNat) (cellDie (cellOf 0 (4#6).toNat)) u0.move) (0#2) false (0#16) w0.unitNo u0.depth u0.active?
                  w0.cur.spr.lclk).cell =
            false ∧
          (Cmd.new (3#3) w0.cur.m[(1#3).toNat] (0#64) (0#64) (w0.ra 3#4) (shiftCell (cellOf 0 (4#6).toNat) (cellDie (cellOf 0 (4#6).toNat)) u0.move)
                    (0#2) false (0#16) w0.unitNo u0.depth u0.active? w0.cur.spr.lclk).bad
                0 =
              none ∧
            w0.reissues = false ∧ ((w0.getTile 0).port (2#2).toNat).entries.length < u0.queueCap := by decide +kernel

theorem test_wit_strmfill :
    (wt (regs 8#64 16#64 8#64)).unit? = some u0 ∧
  (wt (regs 8#64 16#64 8#64)).captured (0#2)
        (DepStep.stream
          (Cmd.new (4#3) Pattern.none ((wt (regs 8#64 16#64 8#64)).ra 1#4) ((wt (regs 8#64 16#64 8#64)).ra 2#4) ((wt (regs 8#64 16#64 8#64)).ra 3#4) 0
            (0#2) false (0#16) (wt (regs 8#64 16#64 8#64)).unitNo u0.depth u0.active? (wt (regs 8#64 16#64 8#64)).cur.spr.lclk)
          (2#2).toNat (wt (regs 8#64 16#64 8#64)).tile) =
      none ∧
    (Cmd.new (4#3) Pattern.none ((wt (regs 8#64 16#64 8#64)).ra 1#4) ((wt (regs 8#64 16#64 8#64)).ra 2#4) ((wt (regs 8#64 16#64 8#64)).ra 3#4) 0 (0#2)
              false (0#16) (wt (regs 8#64 16#64 8#64)).unitNo u0.depth u0.active? (wt (regs 8#64 16#64 8#64)).cur.spr.lclk).bad
          (wt (regs 8#64 16#64 8#64)).tile =
        none ∧
      (wt (regs 8#64 16#64 8#64)).reissues = false ∧
        (((wt (regs 8#64 16#64 8#64)).getTile (wt (regs 8#64 16#64 8#64)).tile).port (2#2).toNat).entries.length < u0.queueCap := by decide +kernel

theorem test_wit_strmcopy :
    (wt (regs 32#64 16#64 16#64)).unit? = some u0 ∧
  (wt (regs 32#64 16#64 16#64)).captured (0#2)
        (DepStep.stream
          (Cmd.new (5#3) Pattern.none ((wt (regs 32#64 16#64 16#64)).ra 1#4) ((wt (regs 32#64 16#64 16#64)).ra 2#4)
            ((wt (regs 32#64 16#64 16#64)).ra 3#4) 0 (0#2) false (0#16) (wt (regs 32#64 16#64 16#64)).unitNo u0.depth u0.active?
            (wt (regs 32#64 16#64 16#64)).cur.spr.lclk)
          (2#2).toNat (wt (regs 32#64 16#64 16#64)).tile) =
      none ∧
    (Cmd.new (5#3) Pattern.none ((wt (regs 32#64 16#64 16#64)).ra 1#4) ((wt (regs 32#64 16#64 16#64)).ra 2#4) ((wt (regs 32#64 16#64 16#64)).ra 3#4) 0
              (0#2) false (0#16) (wt (regs 32#64 16#64 16#64)).unitNo u0.depth u0.active? (wt (regs 32#64 16#64 16#64)).cur.spr.lclk).bad
          (wt (regs 32#64 16#64 16#64)).tile =
        none ∧
      (wt (regs 32#64 16#64 16#64)).reissues = false ∧
        (((wt (regs 32#64 16#64 16#64)).getTile (wt (regs 32#64 16#64 16#64)).tile).port (2#2).toNat).entries.length < u0.queueCap := by decide +kernel

theorem test_wit_strmkvc :
    (wt (regs 64#64 64#64 64#64)).unit? = some u0 ∧
  (wt (regs 64#64 64#64 64#64)).captured (0#2)
        (DepStep.stream
          (Cmd.new (6#3) Pattern.none ((wt (regs 64#64 64#64 64#64)).ra 1#4) ((wt (regs 64#64 64#64 64#64)).ra 2#4)
            ((wt (regs 64#64 64#64 64#64)).ra 3#4) 0 (0#2) true (0#16) (wt (regs 64#64 64#64 64#64)).unitNo u0.depth u0.active?
            (wt (regs 64#64 64#64 64#64)).cur.spr.lclk)
          (2#2).toNat (wt (regs 64#64 64#64 64#64)).tile) =
      none ∧
    (Cmd.new (6#3) Pattern.none ((wt (regs 64#64 64#64 64#64)).ra 1#4) ((wt (regs 64#64 64#64 64#64)).ra 2#4) ((wt (regs 64#64 64#64 64#64)).ra 3#4) 0
              (0#2) true (0#16) (wt (regs 64#64 64#64 64#64)).unitNo u0.depth u0.active? (wt (regs 64#64 64#64 64#64)).cur.spr.lclk).bad
          (wt (regs 64#64 64#64 64#64)).tile =
        none ∧
      (wt (regs 64#64 64#64 64#64)).reissues = false ∧
        (((wt (regs 64#64 64#64 64#64)).getTile (wt (regs 64#64 64#64 64#64)).tile).port (2#2).toNat).entries.length < u0.queueCap := by decide +kernel

theorem test_wit_strmxch :
    (wt (regs 128#64 128#64 128#64)).unit? = some u0 ∧
  (wt (regs 128#64 128#64 128#64)).captured (0#2)
        (DepStep.stream
          (Cmd.new (7#3) Pattern.none ((wt (regs 128#64 128#64 128#64)).ra 1#4) ((wt (regs 128#64 128#64 128#64)).ra 2#4)
            ((wt (regs 128#64 128#64 128#64)).ra 3#4) 0 (0#2) false (5#16) (wt (regs 128#64 128#64 128#64)).unitNo u0.depth u0.active?
            (wt (regs 128#64 128#64 128#64)).cur.spr.lclk)
          (2#2).toNat (wt (regs 128#64 128#64 128#64)).tile) =
      none ∧
    (Cmd.new (7#3) Pattern.none ((wt (regs 128#64 128#64 128#64)).ra 1#4) ((wt (regs 128#64 128#64 128#64)).ra 2#4)
              ((wt (regs 128#64 128#64 128#64)).ra 3#4) 0 (0#2) false (5#16) (wt (regs 128#64 128#64 128#64)).unitNo u0.depth u0.active?
              (wt (regs 128#64 128#64 128#64)).cur.spr.lclk).bad
          (wt (regs 128#64 128#64 128#64)).tile =
        none ∧
      (wt (regs 128#64 128#64 128#64)).reissues = false ∧
        (((wt (regs 128#64 128#64 128#64)).getTile (wt (regs 128#64 128#64 128#64)).tile).port (2#2).toNat).entries.length < u0.queueCap := by decide +kernel

/-! FencesAndBarriers -/

theorem test_wit_fencesl :
    w0.cur.sbuf = [] := by decide +kernel

def at_fencesl_waits : State :=
  wt fun t => { t with sbuf := [⟨0, 0, 0, 0, 1, 0, 1, 0, false⟩] }

theorem test_wit_fencesl_waits :
    at_fencesl_waits.cur.sbuf ≠ [] := by decide +kernel

theorem test_wit_fencerel :
    w0.tile < 1600 ∧
  w0.cur.sbuf = [] ∧
    w0.atomsOut w0.me = false ∧
      (∀ c ∈ w0.cmdsOf w0.unitNo, c.writes = true → c.issuedAll = true) ∧
        w0.writesOut w0.me (3#2) false = false ∧
          (2 ≤ (3#2).toNat → w0.flowsAcked (w0.writeTiles w0.me w0.unitNo false) false = true) ∧ (3#2 = 3#2 → w0.cur.hostLast = []) := by decide +kernel

theorem test_wit_fencerel_waits :
    at_fencesl_waits.tile < 1600 ∧ at_fencesl_waits.cur.sbuf ≠ [] := by decide +kernel

theorem test_wit_fenceacq :
    w0.atomsOut w0.me = false := by decide +kernel

def at_fenceacq_waits : State :=
  { w0 with msgs := [⟨.cmd ⟨0x81, 0, 0, 0, 0, 0, 0, 0, .none⟩, w0.me, 1, 0, 0, none, false, false, 0⟩] }

theorem test_wit_fenceacq_waits :
    at_fenceacq_waits.atomsOut at_fenceacq_waits.me = true := by decide +kernel

theorem test_wit_sbar_none :
    w0.unit? = some u0 ∧ w0.ra 2#4 = 0#64 := by decide +kernel

theorem test_wit_sbar :
    (wt (regs 65536#64 64#64 0#64)).unit? = some u0 ∧
  bufTouches (wt (regs 65536#64 64#64 0#64)).cur.sbuf (BitVec.toNat ((wt (regs 65536#64 64#64 0#64)).ra 1#4))
        (BitVec.toNat ((wt (regs 65536#64 64#64 0#64)).ra 1#4) + BitVec.toNat ((wt (regs 65536#64 64#64 0#64)).ra 2#4)) =
      false ∧
    (wt (regs 65536#64 64#64 0#64)).directOut (wt (regs 65536#64 64#64 0#64)).me = false ∧
      (∀ c ∈ u0.cells,
          isTCell c = true →
            ∀ (x : Cell),
              smFind (wt (regs 65536#64 64#64 0#64)).cells c = some x →
                bufTouches x.sbuf (BitVec.toNat ((wt (regs 65536#64 64#64 0#64)).ra 1#4))
                      (BitVec.toNat ((wt (regs 65536#64 64#64 0#64)).ra 1#4) + BitVec.toNat ((wt (regs 65536#64 64#64 0#64)).ra 2#4)) =
                    false ∧
                  (wt (regs 65536#64 64#64 0#64)).directOut (cellAgent c) = false) ∧
        ∀ c ∈ (wt (regs 65536#64 64#64 0#64)).cmdsOf (wt (regs 65536#64 64#64 0#64)).unitNo,
          (wt (regs 65536#64 64#64 0#64)).cmdTouches u0 c (BitVec.toNat ((wt (regs 65536#64 64#64 0#64)).ra 1#4))
              (BitVec.toNat ((wt (regs 65536#64 64#64 0#64)).ra 1#4) + BitVec.toNat ((wt (regs 65536#64 64#64 0#64)).ra 2#4)) =
            false := by decide +kernel

def at_sbar_waits : State :=
  wt fun t => regs 0x10000 64 0 { t with sbuf := [⟨0x1003F, 0, 3, 0, 1, 0, 1, 0, false⟩] }

theorem test_wit_sbar_waits :
    at_sbar_waits.unit? = some u0 ∧
  at_sbar_waits.ra 2#4 ≠ 0#64 ∧
    bufTouches at_sbar_waits.cur.sbuf (BitVec.toNat (at_sbar_waits.ra 1#4))
        (BitVec.toNat (at_sbar_waits.ra 1#4) + BitVec.toNat (at_sbar_waits.ra 2#4)) =
      true := by decide +kernel

theorem test_wit_qfence :
    w0.unit? = some u0 ∧
  w0.reissues = false ∧ queueSet (2#40).toNat = [(0, 1)] ∧ u0.region[(0, 1).1]? = some 0 ∧ ((w0.getTile 0).port (0, 1).2).entries.length < u0.queueCap := by decide +kernel

theorem test_wit_qfencer :
    (wt (regs 8#64 0#64 0#64)).unit? = some u0 ∧
  (wt (regs 8#64 0#64 0#64)).reissues = false ∧
    queueSet (BitVec.toNat ((wt (regs 8#64 0#64 0#64)).ra 1#4)) = [(0, 3)] ∧
      u0.region[(0, 3).1]? = some 0 ∧ (((wt (regs 8#64 0#64 0#64)).getTile 0).port (0, 3).2).entries.length < u0.queueCap := by decide +kernel

theorem test_wit_qfencer_none :
    w0.unit? = some u0 ∧ w0.ra 1#4 = 0#64 := by decide +kernel

theorem test_wit_qfencer_bad :
    (wt (regs 16#64 0#64 0#64)).unit? = some u0 ∧ (1, 0) ∈ queueSet (BitVec.toNat ((wt (regs 16#64 0#64 0#64)).ra 1#4)) ∧ u0.region.length ≤ (1, 0).1 := by decide +kernel

/-! ClockAndSystemSteps -/

theorem test_wit_lclkadv :
    BitVec.toNat ((wt (regs 2147483647#64 0#64 0#64)).ra 1#4) < 2 ^ 31 ∧
  (wt (regs 2147483647#64 0#64 0#64)).cur.spr.lclk.toNat + BitVec.toNat ((wt (regs 2147483647#64 0#64 0#64)).ra 1#4) < 2 ^ 32 := by decide +kernel

theorem test_wit_lclkadv_bad :
    2 ^ 31 ≤ BitVec.toNat ((wt (regs 2147483648#64 0#64 0#64)).ra 1#4) := by decide +kernel

theorem test_wit_yield :
    w0.unit? = some u0 ∧ u0.st = UState.running ∧ w0.cur.spr.lclk.toNat + w0.cur.spr.lease.toNat < 2 ^ 32 := by decide +kernel

theorem test_wit_srr :
    (10#12).toNat ≤ 10 := by decide +kernel

theorem test_wit_srr2 :
    (9#12).toNat ≤ 10 := by decide +kernel

theorem test_wit_srr_bad :
    10 < (11#12).toNat := by decide +kernel

theorem test_wit_srw_lclk :
    BitVec.toNat ((wt (regs 4294967295#64 0#64 0#64)).ra 1#4) < 2 ^ 32 := by decide +kernel

theorem test_wit_srw_lease :
    1 ≤ BitVec.toNat ((wt (regs 4095#64 0#64 0#64)).ra 1#4) ∧ BitVec.toNat ((wt (regs 4095#64 0#64 0#64)).ra 1#4) ≤ 4095 := by decide +kernel

theorem test_wit_srw_qwc :
    1 ≤ BitVec.toNat ((wt (regs 1#64 0#64 0#64)).ra 1#4) ∧ BitVec.toNat ((wt (regs 1#64 0#64 0#64)).ra 1#4) < 2 ^ 32 := by decide +kernel

theorem test_wit_srw_drift :
    1 ≤ BitVec.toNat ((wt (regs 65535#64 0#64 0#64)).ra 1#4) ∧ BitVec.toNat ((wt (regs 65535#64 0#64 0#64)).ra 1#4) ≤ 65535 := by decide +kernel

theorem test_wit_srw_spin :
    1 ≤ BitVec.toNat ((wt (regs 1#64 0#64 0#64)).ra 1#4) ∧ BitVec.toNat ((wt (regs 1#64 0#64 0#64)).ra 1#4) ≤ 4095 := by decide +kernel

theorem test_wit_srw_wdog :
    2 ^ 16 ≤ BitVec.toNat ((wt (regs 65536#64 0#64 0#64)).ra 1#4) ∧ BitVec.toNat ((wt (regs 65536#64 0#64 0#64)).ra 1#4) < 2 ^ 40 := by decide +kernel

theorem test_wit_srw_carve :
    sprRange 4 (BitVec.toNat ((wt (regs 0#64 0#64 0#64)).ra 1#4)) = true ∧
  (wt (regs 0#64 0#64 0#64)).runActive = false ∧ (wt (regs 0#64 0#64 0#64)).cmdsOf (wt (regs 0#64 0#64 0#64)).unitNo = [] := by decide +kernel

theorem test_wit_srw_bad :
    3#12 = 0#12 ∨ 3#12 = 3#12 ∨ 9 < (3#12).toNat := by decide +kernel

theorem test_wit_srw_bad2 :
    10#12 = 0#12 ∨ 10#12 = 3#12 ∨ 9 < (10#12).toNat := by decide +kernel

theorem test_wit_srw_range :
    BitVec.toNat ((wt (regs 0#64 0#64 0#64)).ra 1#4) = 0 := by decide +kernel

/-! DependenceSteps -/

theorem test_wit_depnew :
    w0.cur.freeDep = some 0 ∧ w0.cur.openDep = none := by decide +kernel

def at_depnew_full : State :=
  wt fun t => { t with deps := (List.range 64).map fun i => (i, dep 0 .held) }

theorem test_wit_depnew_full :
    at_depnew_full.cur.freeDep = none := by decide +kernel

theorem test_wit_depedge :
    BitVec.toNat ((wt (deps (dep (0#2) DepState.held) (dep (0#2) DepState.held))).ra 1#4) < 64 ∧
  BitVec.toNat ((wt (deps (dep (0#2) DepState.held) (dep (0#2) DepState.held))).ra 2#4) < 64 ∧
    smFind (wt (deps (dep (0#2) DepState.held) (dep (0#2) DepState.held))).cur.deps
          (BitVec.toNat ((wt (deps (dep (0#2) DepState.held) (dep (0#2) DepState.held))).ra 1#4)) =
        some (dep (0#2) DepState.held) ∧
      smFind (wt (deps (dep (0#2) DepState.held) (dep (0#2) DepState.held))).cur.deps
            (BitVec.toNat ((wt (deps (dep (0#2) DepState.held) (dep (0#2) DepState.held))).ra 2#4)) =
          some (dep (0#2) DepState.held) ∧
        (dep (0#2) DepState.held).state ≠ DepState.done ∧
          (dep (0#2) DepState.held).takesEdge = true ∧
            (dep (0#2) DepState.held).succ.length < 8 ∧
              (wt (deps (dep (0#2) DepState.held) (dep (0#2) DepState.held))).ra 1#4 ≠
                (wt (deps (dep (0#2) DepState.held) (dep (0#2) DepState.held))).ra 2#4 := by decide +kernel

theorem test_wit_depedge_bad :
    BitVec.toNat ((wt (deps (dep (0#2) DepState.held) (dep (0#2) DepState.issued))).ra 1#4) < 64 ∧
  BitVec.toNat ((wt (deps (dep (0#2) DepState.held) (dep (0#2) DepState.issued))).ra 2#4) < 64 ∧
    smFind (wt (deps (dep (0#2) DepState.held) (dep (0#2) DepState.issued))).cur.deps
          (BitVec.toNat ((wt (deps (dep (0#2) DepState.held) (dep (0#2) DepState.issued))).ra 1#4)) =
        some (dep (0#2) DepState.held) ∧
      smFind (wt (deps (dep (0#2) DepState.held) (dep (0#2) DepState.issued))).cur.deps
            (BitVec.toNat ((wt (deps (dep (0#2) DepState.held) (dep (0#2) DepState.issued))).ra 2#4)) =
          some (dep (0#2) DepState.issued) ∧
        (dep (0#2) DepState.held).state ≠ DepState.done ∧ (dep (0#2) DepState.issued).takesEdge = false := by decide +kernel

theorem test_wit_deparm :
    BitVec.toNat ((wt (deps (dep (0#2) DepState.held) (dep (0#2) DepState.held))).ra 2#4) < 64 ∧
  smFind (wt (deps (dep (0#2) DepState.held) (dep (0#2) DepState.held))).cur.deps
        (BitVec.toNat ((wt (deps (dep (0#2) DepState.held) (dep (0#2) DepState.held))).ra 2#4)) =
      some (dep (0#2) DepState.held) ∧
    (dep (0#2) DepState.held).state = DepState.held := by decide +kernel

theorem test_wit_deparm_bad :
    BitVec.toNat ((wt (deps (dep (0#2) DepState.held) (dep (0#2) DepState.done))).ra 2#4) < 64 ∧
  smFind (wt (deps (dep (0#2) DepState.held) (dep (0#2) DepState.done))).cur.deps
        (BitVec.toNat ((wt (deps (dep (0#2) DepState.held) (dep (0#2) DepState.done))).ra 2#4)) =
      some (dep (0#2) DepState.done) ∧
    (dep (0#2) DepState.done).state ≠ DepState.held := by decide +kernel

def at_depwait : State :=
  wt (deps (dep 0 .held) { dep 0 .done with hw := 5 })

def arg_depwait : DepEnt :=
  { dep 0 .done with hw := 5 }

theorem test_wit_depwait :
    BitVec.toNat (at_depwait.ra 2#4) < 64 ∧
  smFind at_depwait.cur.deps (BitVec.toNat (at_depwait.ra 2#4)) = some arg_depwait ∧ arg_depwait.state = DepState.done := by decide +kernel

theorem test_wit_depwait_waits :
    BitVec.toNat ((wt (deps (dep (0#2) DepState.held) (dep (0#2) DepState.armed))).ra 2#4) < 64 ∧
  smFind (wt (deps (dep (0#2) DepState.held) (dep (0#2) DepState.armed))).cur.deps
        (BitVec.toNat ((wt (deps (dep (0#2) DepState.held) (dep (0#2) DepState.armed))).ra 2#4)) =
      some (dep (0#2) DepState.armed) ∧
    (dep (0#2) DepState.armed).state = DepState.armed := by decide +kernel

theorem test_wit_depwait_bad :
    64 ≤ BitVec.toNat ((wt (regs 0#64 64#64 0#64)).ra 2#4) := by decide +kernel

def arg_qrsv : SeqReply :=
  ⟨1, true, 5, 9, none⟩

/-! EngineSteps -/

theorem test_wit_qrsv :
    (wt (told true 5#64)).replied = some arg_qrsv := by decide +kernel

theorem test_wit_qrsv_sends :
    w0.replied = none ∧
  queueIdOk (w0.ra 1#4) = true ∧
    w0.cur.sbuf = [] ∧
      w0.room (tileDie w0.tile) (tileLocal w0.tile) (queuePlace (BitVec.toNat (w0.ra 1#4))).1 (replyCls (48#8).toNat) = true ∧
        (atomicCode (48#8).toNat = true → w0.rebasing = false) := by decide +kernel

theorem test_wit_qrsv_bad :
    (wt (regs 65535#64 0#64 0#64)).replied = none ∧ queueIdOk ((wt (regs 65535#64 0#64 0#64)).ra 1#4) = false := by decide +kernel

theorem test_wit_qadd :
    (wt (told true 5#64)).replied = some arg_qrsv := by decide +kernel

theorem test_wit_qtake_none :
    (wt (told true 5#64)).recordReply = some arg_qrsv ∧ arg_qrsv.line = none := by decide +kernel

def at_qtake : State :=
  wt fun t => { told true 0 t with reply := some ⟨1, true, 5, 9, some 3⟩, phase := 2 }

def arg_qtake : SeqReply :=
  ⟨1, true, 5, 9, some 3⟩

theorem test_wit_qtake :
    at_qtake.recordReply = some arg_qtake ∧
  arg_qtake.line = some 3#512 ∧ at_qtake.cur.phase = 2 ∧ at_qtake.cur.sbuf = [] ∧ at_qtake.accessOut at_qtake.me = false := by decide +kernel

theorem test_wit_phreg :
    (wt (told true 5#64)).replied = some arg_qrsv := by decide +kernel

theorem test_wit_phdrop :
    (wt (told true 5#64)).replied = some arg_qrsv := by decide +kernel

theorem test_wit_phsig :
    (wt (told true 5#64)).replied = some arg_qrsv := by decide +kernel

theorem test_wit_pherr :
    (wt (told true 5#64)).replied = some arg_qrsv := by decide +kernel

def arg_phwait : SeqReply :=
  ⟨1, true, 0x700000000, 9, none⟩

theorem test_wit_phwait :
    (wt (told true 30064771072#64)).replied = some arg_phwait := by decide +kernel

end EngineRequests

namespace EngineRequests2

/-- A fill of 64 bytes at page 1. -/
def cFill : Cmd := Cmd.new 4 Pattern.none 0x10000 0 64 0 0 false 0 1 0 none 0
def wFill : State := wPT (wt fun t => (regs 0x10000 64 0 t).setPort 0 { PortQ.reset with entries := [.cmd cFill] }) 0xE5
/-- The unit holds a reservation, and tile 0 the leaves of pages 1 and 2. -/
def uR : Launch := { u0 with reservations := [(0x10040, syncBase 0 + 0x40)] }
def wS (x y z : Word) : State := wlt uR fun t => regs x y z { t with tlb := [e6, e2] }
def reachS (s : State) (va : Nat) : TRes := s.reach s.me s.vmid va 64 1 .rw syncType
def reachR (s : State) (va : Nat) : TRes := s.reach s.me s.vmid va 64 64 .w plainType
def reachA (s : State) (n va : Nat) : TRes := s.reach s.me s.vmid va n n .rw atomType
def wAdd : State := wS 0x10040 0 0
def uAdd : State := tres (reachS wAdd 0x10040)
def wTake (rs : List QRec) : State := (wS 5 0x20000 0).modCur fun t => { t with pre := ⟨some 5, rs, 0⟩ }
def rec1 : QRec := ⟨3, 9, 1, 0, 0, 0, 0, 0, false⟩
def wPh (y : Word) : State := wS 0x10040 y 0
def uRead : State := tres (reachR (wPh 0x20000) 0x20000)
def wAt : State := wt fun t => regs 0x10000 7 8 { t with tlb := [e0] }
def uAt : State := tres (reachA wAt 8 0x10000)

/-! ConfigurationSteps -/

theorem test_wit_stopunit :
    w0.launch? 1 = some u0 := by decide +kernel

def at_phread : State :=
  wt fun t => { told true 0 t with phase := 2 }

def arg_phread : SeqReply :=
  ⟨1, true, 0, 9, none⟩

/-! EngineSteps -/

theorem test_wit_phread :
    at_phread.recordReply = some arg_phread ∧ at_phread.cur.phase = 2 ∧ at_phread.cur.sbuf = [] ∧ at_phread.accessOut at_phread.me = false := by decide +kernel

def arg_atom : SeqReply :=
  ⟨1, true, 5, 9, none⟩

theorem test_wit_atom :
    (wt (told true 5#64)).replied = some arg_atom := by decide +kernel

theorem test_wit_pherr_bad :
    (wt (regs 0#64 256#64 0#64)).replied = none ∧ ((wt (regs 0#64 256#64 0#64)).ra 2#4 = 0#64 ∨ 256 ≤ BitVec.toNat ((wt (regs 0#64 256#64 0#64)).ra 2#4)) := by decide +kernel

theorem test_wit_phsig_dep :
    (wt (deps (dep (2#2) DepState.opened) (dep (0#2) DepState.held))).replied = none ∧
  (wt (deps (dep (2#2) DepState.opened) (dep (0#2) DepState.held))).cur.openDep = some (0, dep (2#2) DepState.opened) ∧
    (dep (2#2) DepState.opened).kind = 2#2 := by decide +kernel

theorem test_wit_atom_misaligned :
    (wt (regs 4#64 0#64 0#64)).replied = none ∧
  (11#8).toNat % 128 ≤ 11 ∧ BitVec.toNat ((wt (regs 4#64 0#64 0#64)).ra 1#4) < 2 ^ 56 ∧ BitVec.toNat ((wt (regs 4#64 0#64 0#64)).ra 1#4) % 8 ≠ 0 := by decide +kernel

/-! FencesAndBarriers -/

theorem test_wit_sbar_cmd :
    wFill.unit? = some u0 ∧
  wFill.ra 2#4 ≠ 0#64 ∧
    cFill ∈ wFill.cmdsOf wFill.unitNo ∧
      wFill.cmdTouches u0 cFill (BitVec.toNat (wFill.ra 1#4)) (BitVec.toNat (wFill.ra 1#4) + BitVec.toNat (wFill.ra 2#4)) = true := by decide +kernel

/-! EngineSteps -/

theorem test_wit_qadd_sends :
    wAdd.replied = none ∧
  wAdd.reach wAdd.me wAdd.vmid (BitVec.toNat (wAdd.ra 1#4)) 64 1 Need.rw syncType = TRes.ok (tgt (reachS wAdd 65600)) uAdd ∧
    uAdd.reservation (BitVec.toNat (uAdd.ra 1#4)) = some (syncBase 0 + 64) ∧
      BitVec.toNat (uAdd.ra 1#4) = BitVec.toNat (wAdd.ra 1#4) ∧
        uAdd.release uAdd.me uAdd.unitNo 3#2 = (true, (uAdd.release uAdd.me uAdd.unitNo 3#2).2) ∧
          (uAdd.release uAdd.me uAdd.unitNo 3#2).2.room (tileDie (uAdd.release uAdd.me uAdd.unitNo 3#2).2.tile)
                (tileLocal (uAdd.release uAdd.me uAdd.unitNo 3#2).2.tile) (syncPlace (syncBase 0 + 64)).1 (replyCls (49#8).toNat) =
              true ∧
            (atomicCode (49#8).toNat = true → (uAdd.release uAdd.me uAdd.unitNo 3#2).2.rebasing = false) := ⟨by decide +kernel, tres_of _ _ _ (by decide +kernel), by decide +kernel⟩

theorem test_wit_qtake_sends :
    (wTake []).recordReply = none ∧
  queueIdOk ((wTake []).ra 1#4) = true ∧
    (wTake []).reach (wTake []).me (wTake []).vmid (BitVec.toNat ((wTake []).ra 2#4)) 64 64 Need.w plainType =
        TRes.ok (tgt (reachR (wTake []) 131072)) (tres (reachR (wTake []) 131072)) ∧
      BitVec.toNat ((tres (reachR (wTake []) 131072)).ra 1#4) = BitVec.toNat ((wTake []).ra 1#4) ∧
        (tres (reachR (wTake []) 131072)).cur.sbuf = [] ∧
          (tres (reachR (wTake []) 131072)).cur.pre.queue = some (BitVec.toNat ((wTake []).ra 1#4)) ∧
            (tres (reachR (wTake []) 131072)).cur.pre.recs = [] ∧
              (tres (reachR (wTake []) 131072)).room (tileDie (tres (reachR (wTake []) 131072)).tile)
                    (tileLocal (tres (reachR (wTake []) 131072)).tile) (queuePlace (BitVec.toNat ((wTake []).ra 1#4))).1 (replyCls (50#8).toNat) =
                  true ∧
                (atomicCode (50#8).toNat = true → (tres (reachR (wTake []) 131072)).rebasing = false) := ⟨by decide +kernel, by decide +kernel, tres_of _ _ _ (by decide +kernel), by decide +kernel⟩

theorem test_wit_qtake_buffer :
    (wTake [rec1]).recordReply = none ∧
  queueIdOk ((wTake [rec1]).ra 1#4) = true ∧
    (wTake [rec1]).reach (wTake [rec1]).me (wTake [rec1]).vmid (BitVec.toNat ((wTake [rec1]).ra 2#4)) 64 64 Need.w plainType =
        TRes.ok (tgt (reachR (wTake [rec1]) 131072)) (tres (reachR (wTake [rec1]) 131072)) ∧
      BitVec.toNat ((tres (reachR (wTake [rec1]) 131072)).ra 1#4) = BitVec.toNat ((wTake [rec1]).ra 1#4) ∧
        (tres (reachR (wTake [rec1]) 131072)).cur.sbuf = [] ∧
          (tres (reachR (wTake [rec1]) 131072)).cur.pre.queue = some (BitVec.toNat ((wTake [rec1]).ra 1#4)) ∧
            (tres (reachR (wTake [rec1]) 131072)).cur.pre.recs = [rec1] := ⟨by decide +kernel, by decide +kernel, tres_of _ _ _ (by decide +kernel), by decide +kernel⟩

theorem test_wit_phreg_sends :
    (wPh 5#64).replied = none ∧
  (wPh 5#64).reach (wPh 5#64).me (wPh 5#64).vmid (BitVec.toNat ((wPh 5#64).ra 1#4)) 64 1 Need.rw syncType =
      TRes.ok (tgt (reachS (wPh 5#64) 65600)) (tres (reachS (wPh 5#64) 65600)) ∧
    (tres (reachS (wPh 5#64) 65600)).cur.sbuf = [] ∧
      (tres (reachS (wPh 5#64) 65600)).room (tileDie (tres (reachS (wPh 5#64) 65600)).tile) (tileLocal (tres (reachS (wPh 5#64) 65600)).tile)
            (syncPlace (tgt (reachS (wPh 5#64) 65600)).flat).1 (replyCls (32#8).toNat) =
          true ∧
        (atomicCode (32#8).toNat = true → (tres (reachS (wPh 5#64) 65600)).rebasing = false) := ⟨by decide +kernel, tres_of _ _ _ (by decide +kernel), by decide +kernel⟩

theorem test_wit_phdrop_sends :
    (wPh 5#64).replied = none ∧
  (wPh 5#64).reach (wPh 5#64).me (wPh 5#64).vmid (BitVec.toNat ((wPh 5#64).ra 1#4)) 64 1 Need.rw syncType =
      TRes.ok (tgt (reachS (wPh 5#64) 65600)) (tres (reachS (wPh 5#64) 65600)) ∧
    (tres (reachS (wPh 5#64) 65600)).cur.sbuf = [] ∧
      (tres (reachS (wPh 5#64) 65600)).room (tileDie (tres (reachS (wPh 5#64) 65600)).tile) (tileLocal (tres (reachS (wPh 5#64) 65600)).tile)
            (syncPlace (tgt (reachS (wPh 5#64) 65600)).flat).1 (replyCls (33#8).toNat) =
          true ∧
        (atomicCode (33#8).toNat = true → (tres (reachS (wPh 5#64) 65600)).rebasing = false) := ⟨by decide +kernel, tres_of _ _ _ (by decide +kernel), by decide +kernel⟩

theorem test_wit_phwait_sends :
    (wPh 5#64).replied = none ∧
  (wPh 5#64).reach (wPh 5#64).me (wPh 5#64).vmid (BitVec.toNat ((wPh 5#64).ra 1#4)) 64 1 Need.rw syncType =
      TRes.ok (tgt (reachS (wPh 5#64) 65600)) (tres (reachS (wPh 5#64) 65600)) ∧
    (tres (reachS (wPh 5#64) 65600)).cur.sbuf = [] ∧
      (tres (reachS (wPh 5#64) 65600)).room (tileDie (tres (reachS (wPh 5#64) 65600)).tile) (tileLocal (tres (reachS (wPh 5#64) 65600)).tile)
            (syncPlace (tgt (reachS (wPh 5#64) 65600)).flat).1 (replyCls (35#8).toNat) =
          true ∧
        (atomicCode (35#8).toNat = true → (tres (reachS (wPh 5#64) 65600)).rebasing = false) := ⟨by decide +kernel, tres_of _ _ _ (by decide +kernel), by decide +kernel⟩

theorem test_wit_pherr_sends :
    (wPh 5#64).replied = none ∧
  1 ≤ BitVec.toNat ((wPh 5#64).ra 2#4) ∧
    BitVec.toNat ((wPh 5#64).ra 2#4) < 256 ∧
      (wPh 5#64).reach (wPh 5#64).me (wPh 5#64).vmid (BitVec.toNat ((wPh 5#64).ra 1#4)) 64 1 Need.rw syncType =
          TRes.ok (tgt (reachS (wPh 5#64) 65600)) (tres (reachS (wPh 5#64) 65600)) ∧
        (tres (reachS (wPh 5#64) 65600)).cur.sbuf = [] ∧
          (tres (reachS (wPh 5#64) 65600)).room (tileDie (tres (reachS (wPh 5#64) 65600)).tile) (tileLocal (tres (reachS (wPh 5#64) 65600)).tile)
                (syncPlace (tgt (reachS (wPh 5#64) 65600)).flat).1 (replyCls (37#8).toNat) =
              true ∧
            (atomicCode (37#8).toNat = true → (tres (reachS (wPh 5#64) 65600)).rebasing = false) := ⟨by decide +kernel, by decide +kernel, by decide +kernel, tres_of _ _ _ (by decide +kernel), by decide +kernel⟩

theorem test_wit_phread_sends :
    (wPh 131072#64).recordReply = none ∧
  (wPh 131072#64).reach (wPh 131072#64).me (wPh 131072#64).vmid (BitVec.toNat ((wPh 131072#64).ra 2#4)) 64 64 Need.w plainType =
      TRes.ok (tgt (reachR (wPh 131072#64) 131072)) uRead ∧
    uRead.reach uRead.me uRead.vmid (BitVec.toNat (uRead.ra 1#4)) 64 1 Need.rw syncType =
        TRes.ok (tgt (reachS uRead 65600)) (tres (reachS uRead 65600)) ∧
      (tres (reachS uRead 65600)).cur.sbuf = [] ∧
        (tres (reachS uRead 65600)).room (tileDie (tres (reachS uRead 65600)).tile) (tileLocal (tres (reachS uRead 65600)).tile)
              (syncPlace (tgt (reachS uRead 65600)).flat).1 (replyCls (38#8).toNat) =
            true ∧
          (atomicCode (38#8).toNat = true → (tres (reachS uRead 65600)).rebasing = false) := ⟨by decide +kernel, tres_of _ _ _ (by decide +kernel), tres_of _ _ _ (by decide +kernel), by decide +kernel⟩

theorem test_wit_phsw_sends :
    wAdd.replied = none ∧
  wAdd.cur.phase ≠ 3 ∧
    wAdd.reach wAdd.me wAdd.vmid (BitVec.toNat (wAdd.ra 1#4)) 64 1 Need.rw syncType = TRes.ok (tgt (reachS wAdd 65600)) uAdd ∧
      uAdd.release uAdd.me uAdd.unitNo 3#2 = (true, (uAdd.release uAdd.me uAdd.unitNo 3#2).2) ∧
        (uAdd.release uAdd.me uAdd.unitNo 3#2).2.room (tileDie (uAdd.release uAdd.me uAdd.unitNo 3#2).2.tile)
              (tileLocal (uAdd.release uAdd.me uAdd.unitNo 3#2).2.tile) (syncPlace (tgt (reachS wAdd 65600)).flat).1 (replyCls (36#8).toNat) =
            true ∧
          (atomicCode (36#8).toNat = true → (uAdd.release uAdd.me uAdd.unitNo 3#2).2.rebasing = false) := ⟨by decide +kernel, by decide +kernel, tres_of _ _ _ (by decide +kernel), by decide +kernel⟩

theorem test_wit_atom_sends :
    wAt.replied = none ∧
  ((if (1#8).toNat % 128 ≤ 11 then 8 else 4) = 4 → BitVec.toNat (wAt.ra 2#4) < 2 ^ 32) ∧
    wAt.reach wAt.me wAt.vmid (BitVec.toNat (wAt.ra 1#4)) (if (1#8).toNat % 128 ≤ 11 then 8 else 4) (if (1#8).toNat % 128 ≤ 11 then 8 else 4) Need.rw
          atomType =
        TRes.ok (tgt (reachA wAt 8 65536)) uAt ∧
      uAt.cur.sbuf = [] ∧
        uAt.settled uAt.me uAt.unitNo (3#2) true = (true, (uAt.settled uAt.me uAt.unitNo (3#2) true).2) ∧
          (1#8).toNat < 128 ∧
            (uAt.settled uAt.me uAt.unitNo (3#2) true).2.room (tileDie (uAt.settled uAt.me uAt.unitNo (3#2) true).2.tile)
                  (tileLocal (uAt.settled uAt.me uAt.unitNo (3#2) true).2.tile) (tgt (reachA wAt 8 65536)).home (replyCls (1#8).toNat) =
                true ∧
              (atomicCode (1#8).toNat = true → (uAt.settled uAt.me uAt.unitNo (3#2) true).2.rebasing = false) := ⟨by decide +kernel, by decide +kernel, tres_of _ _ _ (by decide +kernel), by decide +kernel⟩

theorem test_wit_atom_red :
    wAt.replied = none ∧
  ((if (129#8).toNat % 128 ≤ 11 then 8 else 4) = 4 → BitVec.toNat (wAt.ra 2#4) < 2 ^ 32) ∧
    wAt.reach wAt.me wAt.vmid (BitVec.toNat (wAt.ra 1#4)) (if (129#8).toNat % 128 ≤ 11 then 8 else 4) (if (129#8).toNat % 128 ≤ 11 then 8 else 4)
          Need.rw atomType =
        TRes.ok (tgt (reachA wAt 8 65536)) uAt ∧
      uAt.cur.sbuf = [] ∧
        uAt.settled uAt.me uAt.unitNo (3#2) true = (true, (uAt.settled uAt.me uAt.unitNo (3#2) true).2) ∧
          128 ≤ (129#8).toNat ∧
            (uAt.settled uAt.me uAt.unitNo (3#2) true).2.room (tileDie (uAt.settled uAt.me uAt.unitNo (3#2) true).2.tile)
                  (tileLocal (uAt.settled uAt.me uAt.unitNo (3#2) true).2.tile) (tgt (reachA wAt 8 65536)).home 0 =
                true ∧
              (uAt.settled uAt.me uAt.unitNo (3#2) true).2.rebasing = false := ⟨by decide +kernel, by decide +kernel, tres_of _ _ _ (by decide +kernel), by decide +kernel⟩

/-! StreamStepsQueue -/

theorem test_wit_strmin_cell :
    w0.unit? = some u0 ∧
  w0.cur.openDep = none ∧
    (0#64).toNat % 64 = 0 ∧
      (u0.region.length ≤ (1#4).toNat ∨
        ∃ tile,
          u0.region[(1#4).toNat]? = some tile ∧ isTCell (shiftCell (cellOf tile (4#6).toNat) (cellDie (cellOf tile (4#6).toNat)) u0.move) = true) := by decide +kernel

theorem test_wit_strmout_cell :
    w0.unit? = some u0 ∧
  w0.cur.openDep = none ∧
    (0#64).toNat % 64 = 0 ∧
      (u0.region.length ≤ (1#4).toNat ∨
        ∃ tile,
          u0.region[(1#4).toNat]? = some tile ∧ isTCell (shiftCell (cellOf tile (4#6).toNat) (cellDie (cellOf tile (4#6).toNat)) u0.move) = true) := by decide +kernel

theorem test_wit_strmgath_cell :
    w0.unit? = some u0 ∧
  w0.cur.openDep = none ∧
    BitVec.toNat (w0.ra 3#4) % 64 = 0 ∧
      (u0.region.length ≤ (1#4).toNat ∨
        ∃ tile,
          u0.region[(1#4).toNat]? = some tile ∧ isTCell (shiftCell (cellOf tile (4#6).toNat) (cellDie (cellOf tile (4#6).toNat)) u0.move) = true) := by decide +kernel

theorem test_wit_strmscat_cell :
    w0.unit? = some u0 ∧
  w0.cur.openDep = none ∧
    BitVec.toNat (w0.ra 3#4) % 64 = 0 ∧
      (u0.region.length ≤ (1#4).toNat ∨
        ∃ tile,
          u0.region[(1#4).toNat]? = some tile ∧ isTCell (shiftCell (cellOf tile (4#6).toNat) (cellDie (cellOf tile (4#6).toNat)) u0.move) = true) := by decide +kernel

/-- A fill whose address is not a multiple of 8. -/
theorem test_wit_strmfill_bad : (wt (regs 4 16 8)).unit? = some u0 ∧ (wt (regs 4 16 8)).cur.openDep = none ∧
    ∃ w ∈ [(wt (regs 4 16 8)).ra 1, (wt (regs 4 16 8)).ra 3], w.toNat % 8 ≠ 0 :=
  ⟨by decide +kernel, by decide +kernel, _, List.mem_cons_self, by decide +kernel⟩

/-- A copy whose destination is not a multiple of 16. -/
theorem test_wit_strmcopy_bad : (wt (regs 4 16 8)).unit? = some u0 ∧ (wt (regs 4 16 8)).cur.openDep = none ∧
    ∃ w ∈ [(wt (regs 4 16 8)).ra 1, (wt (regs 4 16 8)).ra 2, (wt (regs 4 16 8)).ra 3], w.toNat % 16 ≠ 0 :=
  ⟨by decide +kernel, by decide +kernel, _, List.mem_cons_self, by decide +kernel⟩

/-- A KVC whose descriptor is not a multiple of 64. -/
theorem test_wit_strmkvc_bad : (wt (regs 4 16 8)).unit? = some u0 ∧ (wt (regs 4 16 8)).cur.openDep = none ∧
    ∃ w ∈ [(wt (regs 4 16 8)).ra 1], w.toNat % 64 ≠ 0 :=
  ⟨by decide +kernel, by decide +kernel, _, List.mem_cons_self, by decide +kernel⟩

/-- An XCH whose destination is not a multiple of 64. -/
theorem test_wit_strmxch_bad : (wt (regs 4 16 8)).unit? = some u0 ∧ (wt (regs 4 16 8)).cur.openDep = none ∧
    ∃ w ∈ [(wt (regs 4 16 8)).ra 1, (wt (regs 4 16 8)).ra 2, (wt (regs 4 16 8)).ra 3], w.toNat % 64 ≠ 0 :=
  ⟨by decide +kernel, by decide +kernel, _, List.mem_cons_self, by decide +kernel⟩

/-- A gather whose table is not a multiple of 64. -/
theorem test_wit_strmgath_bad : (wt (regs 4 16 8)).unit? = some u0 ∧ (wt (regs 4 16 8)).cur.openDep = none ∧
    ∃ w ∈ [(wt (regs 4 16 8)).ra 3], w.toNat % 64 ≠ 0 :=
  ⟨by decide +kernel, by decide +kernel, _, List.mem_cons_self, by decide +kernel⟩

/-- A scatter whose table is not a multiple of 64. -/
theorem test_wit_strmscat_bad : (wt (regs 4 16 8)).unit? = some u0 ∧ (wt (regs 4 16 8)).cur.openDep = none ∧
    ∃ w ∈ [(wt (regs 4 16 8)).ra 1], w.toNat % 64 ≠ 0 :=
  ⟨by decide +kernel, by decide +kernel, _, List.mem_cons_self, by decide +kernel⟩

theorem test_wit_phsig_sends : wAdd.replied = none ∧ (∀ i e, wAdd.cur.openDep = some (i, e) → e.kind ≠ 2) ∧
    wAdd.reach wAdd.me wAdd.vmid (wAdd.ra 1).toNat 64 1 .rw syncType = .ok (tgt (reachS wAdd 0x10040)) uAdd ∧
    uAdd.release uAdd.me uAdd.unitNo 3 = (true, (uAdd.release uAdd.me uAdd.unitNo 3).2) :=
  ⟨by decide +kernel, (fun i e h => by rw [show wAdd.cur.openDep = none from by decide +kernel] at h; cases h), tres_of _ _ _ (by decide +kernel), by decide +kernel⟩

end EngineRequests2

namespace EngineRequests3


def arg_phsw : SeqReply :=
  ⟨1, true, 0xFF00000000, 9, none⟩

/-! EngineSteps -/

theorem test_wit_phsw :
    (wt (told true 1095216660480#64)).replied = some arg_phsw := by decide +kernel

end EngineRequests3

namespace Words


/-! HandlerIntegerResults -/

theorem test_wit_word2_guard :
    guardTrue (wb (tmp 4#64 6#64 7#64)).blk 1#4 = false := by decide +kernel

def arg_word2 : TVal :=
  ⟨4,0⟩

def arg_word2_1 : TVal :=
  ⟨6,0⟩

theorem test_wit_word2 :
    guardTrue (wb (tmp 4#64 6#64 7#64)).blk 9#4 = true ∧
  (wb (tmp 4#64 6#64 7#64)).opnd (wb (tmp 4#64 6#64 7#64)).blk (Opnd.reg 1#4) = some (arg_word2, tmp (4#64) (6#64) (7#64) Block.blank) ∧
    (wb (tmp 4#64 6#64 7#64)).opnd (tmp (4#64) (6#64) (7#64) Block.blank) (Opnd.reg 2#4) = some (arg_word2_1, tmp (4#64) (6#64) (7#64) Block.blank) := by decide +kernel

theorem test_wit_word2_empty :
    guardTrue (wb (tmp 4#64 6#64 7#64)).blk 0#4 = true ∧ (wb (tmp 4#64 6#64 7#64)).opnd (wb (tmp 4#64 6#64 7#64)).blk (Opnd.chan false 1#4) = none := by decide +kernel

def at_word1_guard : State :=
  wb fun b => { b with t := b.t.set 7 ⟨1, 0⟩ }

theorem test_wit_word1_guard :
    guardTrue at_word1_guard.blk 15#4 = false := by decide +kernel

def arg_word1 : TVal :=
  ⟨5,0⟩

theorem test_wit_word1 :
    guardTrue (wb (tmp 5#64 6#64 7#64)).blk 0#4 = true ∧
  (wb (tmp 5#64 6#64 7#64)).opnd (wb (tmp 5#64 6#64 7#64)).blk (Opnd.reg 1#4) = some (arg_word1, tmp (5#64) (6#64) (7#64) Block.blank) := by decide +kernel

theorem test_wit_word1_empty :
    guardTrue (wb (tmp 5#64 6#64 7#64)).blk 0#4 = true ∧ (wb (tmp 5#64 6#64 7#64)).opnd (wb (tmp 5#64 6#64 7#64)).blk (Opnd.chan true 15#4) = none := by decide +kernel

/-! HandlerImmediateResults -/

theorem test_wit_bfx :
    (1#6).toNat + (62#5).toNat ≤ 63 ∧
  guardTrue (wb (tmp 5#64 6#64 7#64)).blk 0#4 = true ∧
    (wb (tmp 5#64 6#64 7#64)).opnd (wb (tmp 5#64 6#64 7#64)).blk (Opnd.reg 1#4) = some (arg_word1, tmp (5#64) (6#64) (7#64) Block.blank) := by decide +kernel

theorem test_wit_bfxu :
    (63#6).toNat + (0#5).toNat ≤ 63 ∧
  guardTrue (wb (tmp 5#64 6#64 7#64)).blk 0#4 = true ∧
    (wb (tmp 5#64 6#64 7#64)).opnd (wb (tmp 5#64 6#64 7#64)).blk (Opnd.reg 1#4) = some (arg_word1, tmp (5#64) (6#64) (7#64) Block.blank) := by decide +kernel

theorem test_wit_bfi :
    (4#6).toNat + (7#5).toNat ≤ 63 ∧
  guardTrue (wb (tmp 5#64 6#64 7#64)).blk 0#4 = true ∧
    (wb (tmp 5#64 6#64 7#64)).opnd (wb (tmp 5#64 6#64 7#64)).blk (Opnd.reg 1#4) = some (arg_word1, tmp (5#64) (6#64) (7#64) Block.blank) := by decide +kernel

theorem test_wit_lit_guard :
    guardTrue (wb (tmp 5#64 6#64 7#64)).blk 2#4 = false := by decide +kernel

theorem test_wit_lit :
    guardTrue (wb (tmp 5#64 6#64 7#64)).blk 1#4 = true := by decide +kernel

theorem test_wit_lith :
    guardTrue (wb (tmp 5#64 6#64 7#64)).blk 1#4 = true := by decide +kernel

def at_fl1_f32x2 : State :=
  wb (tmp 0x3F80000040490FDB 0x400000003F000000 0x3F8000003F800000)

def arg_fl1_f32x2 : TVal :=
  ⟨0x3F80000040490FDB,0⟩

def arg_fl1_f32x2_7 : Block :=
  tmp 0x3F80000040490FDB 0x400000003F000000 0x3F8000003F800000 Block.blank

/-! HandlerFloatResults -/

theorem test_wit_float1 :
    guardTrue at_fl1_f32x2.blk 0#4 = true ∧ at_fl1_f32x2.opnd at_fl1_f32x2.blk (Opnd.reg 1#4) = some (arg_fl1_f32x2, arg_fl1_f32x2_7) := by decide +kernel

def arg_fl1_f32x2_6 : TVal :=
  ⟨0x400000003F000000,0⟩

theorem test_wit_float2 :
    guardTrue at_fl1_f32x2.blk 0#4 = true ∧
  at_fl1_f32x2.opnd at_fl1_f32x2.blk (Opnd.reg 1#4) = some (arg_fl1_f32x2, arg_fl1_f32x2_7) ∧
    at_fl1_f32x2.opnd arg_fl1_f32x2_7 (Opnd.reg 2#4) = some (arg_fl1_f32x2_6, arg_fl1_f32x2_7) := by decide +kernel

def arg_ldl8 : TVal :=
  ⟨98303,0⟩

/-! HandlerLocalMemory -/

theorem test_wit_ldl8 :
    guardTrue (wb (tmp 98303#64 0#64 0#64)).blk 0#4 = true ∧
  (wb (tmp 98303#64 0#64 0#64)).opnd (wb (tmp 98303#64 0#64 0#64)).blk (Opnd.reg 1#4) = some (arg_ldl8, tmp (98303#64) (0#64) (0#64) Block.blank) ∧
    (arg_ldl8.data + BitVec.ofInt 64 (↑1 * (0#11).toInt)).toNat % 1 = 0 ∧
      16384 ≤ (arg_ldl8.data + BitVec.ofInt 64 (↑1 * (0#11).toInt)).toNat ∧ (arg_ldl8.data + BitVec.ofInt 64 (↑1 * (0#11).toInt)).toNat + 1 ≤ 98304 := by decide +kernel

def arg_ldl8_low : TVal :=
  ⟨0x4000,0⟩

theorem test_wit_ldl8_low :
    guardTrue (wb (tmp 16384#64 0#64 0#64)).blk 0#4 = true ∧
  (wb (tmp 16384#64 0#64 0#64)).opnd (wb (tmp 16384#64 0#64 0#64)).blk (Opnd.reg 1#4) =
      some (arg_ldl8_low, tmp (16384#64) (0#64) (0#64) Block.blank) ∧
    (arg_ldl8_low.data + BitVec.ofInt 64 (↑1 * (-1#11).toInt)).toNat % 1 = 0 ∧
      (arg_ldl8_low.data + BitVec.ofInt 64 (↑1 * (-1#11).toInt)).toNat < 16384 := by decide +kernel

def arg_stl8 : TVal :=
  ⟨98239,0⟩

theorem test_wit_stl8 :
    guardTrue (wb (tmp 98239#64 1234605616436508552#64 0#64)).blk 0#4 = true ∧
  (wb (tmp 98239#64 1234605616436508552#64 0#64)).opnd (wb (tmp 98239#64 1234605616436508552#64 0#64)).blk (Opnd.reg 1#4) =
      some (arg_stl8, tmp (98239#64) (1234605616436508552#64) (0#64) Block.blank) ∧
    (arg_stl8.data + BitVec.ofInt 64 (↑1 * (0#11).toInt)).toNat % 1 = 0 ∧
      16384 ≤ (arg_stl8.data + BitVec.ofInt 64 (↑1 * (0#11).toInt)).toNat ∧ (arg_stl8.data + BitVec.ofInt 64 (↑1 * (0#11).toInt)).toNat + 1 ≤ 98240 := by decide +kernel

def arg_stl8_high : TVal :=
  ⟨0x17FC0,0⟩

theorem test_wit_stl8_high :
    guardTrue (wb (tmp 98240#64 0#64 0#64)).blk 0#4 = true ∧
  (wb (tmp 98240#64 0#64 0#64)).opnd (wb (tmp 98240#64 0#64 0#64)).blk (Opnd.reg 1#4) =
      some (arg_stl8_high, tmp (98240#64) (0#64) (0#64) Block.blank) ∧
    (arg_stl8_high.data + BitVec.ofInt 64 (↑1 * (0#11).toInt)).toNat % 1 = 0 ∧
      98240 ≤ (arg_stl8_high.data + BitVec.ofInt 64 (↑1 * (0#11).toInt)).toNat := by decide +kernel

def arg_ldg8 : TVal :=
  ⟨0x10000,0⟩

def at_ldg8 : State :=
  lres ((wm 0 0x80 0 (tmp 0x10000 0x55 0)).hLoad (tmp 0x10000 0x55 0 Block.blank) 0x10000 1)

/-! HandlerGlobalMemory -/

theorem test_wit_ldg8 :
    guardTrue (wm 0 128 0 (tmp 65536#64 85#64 0#64)).blk 0#4 = true ∧
  (wm 0 128 0 (tmp 65536#64 85#64 0#64)).opnd (wm 0 128 0 (tmp 65536#64 85#64 0#64)).blk (Opnd.reg 1#4) =
      some (arg_ldg8, tmp (65536#64) (85#64) (0#64) Block.blank) ∧
    (wm 0 128 0 (tmp 65536#64 85#64 0#64)).hLoad (tmp (65536#64) (85#64) (0#64) Block.blank)
        (arg_ldg8.data + BitVec.ofInt 64 (↑1 * (0#11).toInt)).toNat 1 =
      LRes.val 128 at_ldg8 := ⟨by decide +kernel, by decide +kernel, lres_of _ _ _ (by decide +kernel)⟩

theorem test_wit_stg8 :
    guardTrue (wm 0 128 0 (tmp 65536#64 85#64 0#64)).blk 0#4 = true ∧
  (wm 0 128 0 (tmp 65536#64 85#64 0#64)).opnd (wm 0 128 0 (tmp 65536#64 85#64 0#64)).blk (Opnd.reg 1#4) =
      some (arg_ldg8, tmp (65536#64) (85#64) (0#64) Block.blank) ∧
    (wm 0 128 0 (tmp 65536#64 85#64 0#64)).reach (cellAgent (wm 0 128 0 (tmp 65536#64 85#64 0#64)).cell)
        ((wm 0 128 0 (tmp 65536#64 85#64 0#64)).cellVmid (wm 0 128 0 (tmp 65536#64 85#64 0#64)).cell)
        (arg_ldg8.data + BitVec.ofInt 64 (↑1 * (1#11).toInt)).toNat 1 1 Need.w plainType =
      TRes.ok (leafTarget (131265#64) (0#2) 65537) (wm 0 128 0 (tmp 65536#64 85#64 0#64)) := ⟨by decide +kernel, by decide +kernel, tres_of _ _ _ (by decide +kernel)⟩

def arg_ldl16 : TVal :=
  ⟨98302,0⟩

/-! HandlerLocalMemory -/

theorem test_wit_ldl16 :
    guardTrue (wb (tmp 98302#64 0#64 0#64)).blk 0#4 = true ∧
  (wb (tmp 98302#64 0#64 0#64)).opnd (wb (tmp 98302#64 0#64 0#64)).blk (Opnd.reg 1#4) = some (arg_ldl16, tmp (98302#64) (0#64) (0#64) Block.blank) ∧
    (arg_ldl16.data + BitVec.ofInt 64 (↑2 * (0#11).toInt)).toNat % 2 = 0 ∧
      16384 ≤ (arg_ldl16.data + BitVec.ofInt 64 (↑2 * (0#11).toInt)).toNat ∧ (arg_ldl16.data + BitVec.ofInt 64 (↑2 * (0#11).toInt)).toNat + 2 ≤ 98304 := by decide +kernel

theorem test_wit_ldl16_low :
    guardTrue (wb (tmp 16384#64 0#64 0#64)).blk 0#4 = true ∧
  (wb (tmp 16384#64 0#64 0#64)).opnd (wb (tmp 16384#64 0#64 0#64)).blk (Opnd.reg 1#4) =
      some (arg_ldl8_low, tmp (16384#64) (0#64) (0#64) Block.blank) ∧
    (arg_ldl8_low.data + BitVec.ofInt 64 (↑2 * (-1#11).toInt)).toNat % 2 = 0 ∧
      (arg_ldl8_low.data + BitVec.ofInt 64 (↑2 * (-1#11).toInt)).toNat < 16384 := by decide +kernel

def arg_ldl16_odd : TVal :=
  ⟨0x4001,0⟩

theorem test_wit_ldl16_odd :
    guardTrue (wb (tmp 16385#64 0#64 0#64)).blk 0#4 = true ∧
  (wb (tmp 16385#64 0#64 0#64)).opnd (wb (tmp 16385#64 0#64 0#64)).blk (Opnd.reg 1#4) =
      some (arg_ldl16_odd, tmp (16385#64) (0#64) (0#64) Block.blank) ∧
    (arg_ldl16_odd.data + BitVec.ofInt 64 (↑2 * (0#11).toInt)).toNat % 2 ≠ 0 := by decide +kernel

def arg_stl16 : TVal :=
  ⟨98238,0⟩

theorem test_wit_stl16 :
    guardTrue (wb (tmp 98238#64 1234605616436508552#64 0#64)).blk 0#4 = true ∧
  (wb (tmp 98238#64 1234605616436508552#64 0#64)).opnd (wb (tmp 98238#64 1234605616436508552#64 0#64)).blk (Opnd.reg 1#4) =
      some (arg_stl16, tmp (98238#64) (1234605616436508552#64) (0#64) Block.blank) ∧
    (arg_stl16.data + BitVec.ofInt 64 (↑2 * (0#11).toInt)).toNat % 2 = 0 ∧
      16384 ≤ (arg_stl16.data + BitVec.ofInt 64 (↑2 * (0#11).toInt)).toNat ∧ (arg_stl16.data + BitVec.ofInt 64 (↑2 * (0#11).toInt)).toNat + 2 ≤ 98240 := by decide +kernel

theorem test_wit_stl16_high :
    guardTrue (wb (tmp 98240#64 0#64 0#64)).blk 0#4 = true ∧
  (wb (tmp 98240#64 0#64 0#64)).opnd (wb (tmp 98240#64 0#64 0#64)).blk (Opnd.reg 1#4) =
      some (arg_stl8_high, tmp (98240#64) (0#64) (0#64) Block.blank) ∧
    (arg_stl8_high.data + BitVec.ofInt 64 (↑2 * (0#11).toInt)).toNat % 2 = 0 ∧
      98240 ≤ (arg_stl8_high.data + BitVec.ofInt 64 (↑2 * (0#11).toInt)).toNat := by decide +kernel

theorem test_wit_stl16_odd :
    guardTrue (wb (tmp 16385#64 0#64 0#64)).blk 0#4 = true ∧
  (wb (tmp 16385#64 0#64 0#64)).opnd (wb (tmp 16385#64 0#64 0#64)).blk (Opnd.reg 1#4) =
      some (arg_ldl16_odd, tmp (16385#64) (0#64) (0#64) Block.blank) ∧
    (arg_ldl16_odd.data + BitVec.ofInt 64 (↑2 * (0#11).toInt)).toNat % 2 ≠ 0 := by decide +kernel

def at_ldg16 : State :=
  lres ((wm 0 0x80 0 (tmp 0x10000 0x55 0)).hLoad (tmp 0x10000 0x55 0 Block.blank) 0x10000 2)

/-! HandlerGlobalMemory -/

theorem test_wit_ldg16 :
    guardTrue (wm 0 128 0 (tmp 65536#64 85#64 0#64)).blk 0#4 = true ∧
  (wm 0 128 0 (tmp 65536#64 85#64 0#64)).opnd (wm 0 128 0 (tmp 65536#64 85#64 0#64)).blk (Opnd.reg 1#4) =
      some (arg_ldg8, tmp (65536#64) (85#64) (0#64) Block.blank) ∧
    (wm 0 128 0 (tmp 65536#64 85#64 0#64)).hLoad (tmp (65536#64) (85#64) (0#64) Block.blank)
        (arg_ldg8.data + BitVec.ofInt 64 (↑2 * (0#11).toInt)).toNat 2 =
      LRes.val 128 at_ldg16 := ⟨by decide +kernel, by decide +kernel, lres_of _ _ _ (by decide +kernel)⟩

theorem test_wit_stg16 :
    guardTrue (wm 0 128 0 (tmp 65536#64 85#64 0#64)).blk 0#4 = true ∧
  (wm 0 128 0 (tmp 65536#64 85#64 0#64)).opnd (wm 0 128 0 (tmp 65536#64 85#64 0#64)).blk (Opnd.reg 1#4) =
      some (arg_ldg8, tmp (65536#64) (85#64) (0#64) Block.blank) ∧
    (wm 0 128 0 (tmp 65536#64 85#64 0#64)).reach (cellAgent (wm 0 128 0 (tmp 65536#64 85#64 0#64)).cell)
        ((wm 0 128 0 (tmp 65536#64 85#64 0#64)).cellVmid (wm 0 128 0 (tmp 65536#64 85#64 0#64)).cell)
        (arg_ldg8.data + BitVec.ofInt 64 (↑2 * (1#11).toInt)).toNat 2 2 Need.w plainType =
      TRes.ok (leafTarget (131265#64) (0#2) 65538) (wm 0 128 0 (tmp 65536#64 85#64 0#64)) := ⟨by decide +kernel, by decide +kernel, tres_of _ _ _ (by decide +kernel)⟩

theorem test_wit_ldg16_odd :
    guardTrue (wb (tmp 16385#64 0#64 0#64)).blk 0#4 = true ∧
  (wb (tmp 16385#64 0#64 0#64)).opnd (wb (tmp 16385#64 0#64 0#64)).blk (Opnd.reg 1#4) =
      some (arg_ldl16_odd, tmp (16385#64) (0#64) (0#64) Block.blank) ∧
    (arg_ldl16_odd.data + BitVec.ofInt 64 (↑2 * (0#11).toInt)).toNat < 2 ^ 56 ∧
      (arg_ldl16_odd.data + BitVec.ofInt 64 (↑2 * (0#11).toInt)).toNat % 2 ≠ 0 := by decide +kernel

theorem test_wit_stg16_odd :
    guardTrue (wb (tmp 16385#64 0#64 0#64)).blk 0#4 = true ∧
  (wb (tmp 16385#64 0#64 0#64)).opnd (wb (tmp 16385#64 0#64 0#64)).blk (Opnd.reg 1#4) =
      some (arg_ldl16_odd, tmp (16385#64) (0#64) (0#64) Block.blank) ∧
    (arg_ldl16_odd.data + BitVec.ofInt 64 (↑2 * (0#11).toInt)).toNat < 2 ^ 56 ∧
      (arg_ldl16_odd.data + BitVec.ofInt 64 (↑2 * (0#11).toInt)).toNat % 2 ≠ 0 := by decide +kernel

def arg_ldl32 : TVal :=
  ⟨98300,0⟩

/-! HandlerLocalMemory -/

theorem test_wit_ldl32 :
    guardTrue (wb (tmp 98300#64 0#64 0#64)).blk 0#4 = true ∧
  (wb (tmp 98300#64 0#64 0#64)).opnd (wb (tmp 98300#64 0#64 0#64)).blk (Opnd.reg 1#4) = some (arg_ldl32, tmp (98300#64) (0#64) (0#64) Block.blank) ∧
    (arg_ldl32.data + BitVec.ofInt 64 (↑4 * (0#11).toInt)).toNat % 4 = 0 ∧
      16384 ≤ (arg_ldl32.data + BitVec.ofInt 64 (↑4 * (0#11).toInt)).toNat ∧ (arg_ldl32.data + BitVec.ofInt 64 (↑4 * (0#11).toInt)).toNat + 4 ≤ 98304 := by decide +kernel

theorem test_wit_ldl32_low :
    guardTrue (wb (tmp 16384#64 0#64 0#64)).blk 0#4 = true ∧
  (wb (tmp 16384#64 0#64 0#64)).opnd (wb (tmp 16384#64 0#64 0#64)).blk (Opnd.reg 1#4) =
      some (arg_ldl8_low, tmp (16384#64) (0#64) (0#64) Block.blank) ∧
    (arg_ldl8_low.data + BitVec.ofInt 64 (↑4 * (-1#11).toInt)).toNat % 4 = 0 ∧
      (arg_ldl8_low.data + BitVec.ofInt 64 (↑4 * (-1#11).toInt)).toNat < 16384 := by decide +kernel

theorem test_wit_ldl32_odd :
    guardTrue (wb (tmp 16385#64 0#64 0#64)).blk 0#4 = true ∧
  (wb (tmp 16385#64 0#64 0#64)).opnd (wb (tmp 16385#64 0#64 0#64)).blk (Opnd.reg 1#4) =
      some (arg_ldl16_odd, tmp (16385#64) (0#64) (0#64) Block.blank) ∧
    (arg_ldl16_odd.data + BitVec.ofInt 64 (↑4 * (0#11).toInt)).toNat % 4 ≠ 0 := by decide +kernel

def arg_stl32 : TVal :=
  ⟨98236,0⟩

theorem test_wit_stl32 :
    guardTrue (wb (tmp 98236#64 1234605616436508552#64 0#64)).blk 0#4 = true ∧
  (wb (tmp 98236#64 1234605616436508552#64 0#64)).opnd (wb (tmp 98236#64 1234605616436508552#64 0#64)).blk (Opnd.reg 1#4) =
      some (arg_stl32, tmp (98236#64) (1234605616436508552#64) (0#64) Block.blank) ∧
    (arg_stl32.data + BitVec.ofInt 64 (↑4 * (0#11).toInt)).toNat % 4 = 0 ∧
      16384 ≤ (arg_stl32.data + BitVec.ofInt 64 (↑4 * (0#11).toInt)).toNat ∧ (arg_stl32.data + BitVec.ofInt 64 (↑4 * (0#11).toInt)).toNat + 4 ≤ 98240 := by decide +kernel

theorem test_wit_stl32_high :
    guardTrue (wb (tmp 98240#64 0#64 0#64)).blk 0#4 = true ∧
  (wb (tmp 98240#64 0#64 0#64)).opnd (wb (tmp 98240#64 0#64 0#64)).blk (Opnd.reg 1#4) =
      some (arg_stl8_high, tmp (98240#64) (0#64) (0#64) Block.blank) ∧
    (arg_stl8_high.data + BitVec.ofInt 64 (↑4 * (0#11).toInt)).toNat % 4 = 0 ∧
      98240 ≤ (arg_stl8_high.data + BitVec.ofInt 64 (↑4 * (0#11).toInt)).toNat := by decide +kernel

theorem test_wit_stl32_odd :
    guardTrue (wb (tmp 16385#64 0#64 0#64)).blk 0#4 = true ∧
  (wb (tmp 16385#64 0#64 0#64)).opnd (wb (tmp 16385#64 0#64 0#64)).blk (Opnd.reg 1#4) =
      some (arg_ldl16_odd, tmp (16385#64) (0#64) (0#64) Block.blank) ∧
    (arg_ldl16_odd.data + BitVec.ofInt 64 (↑4 * (0#11).toInt)).toNat % 4 ≠ 0 := by decide +kernel

def at_ldg32 : State :=
  lres ((wm 0 0x80 0 (tmp 0x10000 0x55 0)).hLoad (tmp 0x10000 0x55 0 Block.blank) 0x10000 4)

/-! HandlerGlobalMemory -/

theorem test_wit_ldg32 :
    guardTrue (wm 0 128 0 (tmp 65536#64 85#64 0#64)).blk 0#4 = true ∧
  (wm 0 128 0 (tmp 65536#64 85#64 0#64)).opnd (wm 0 128 0 (tmp 65536#64 85#64 0#64)).blk (Opnd.reg 1#4) =
      some (arg_ldg8, tmp (65536#64) (85#64) (0#64) Block.blank) ∧
    (wm 0 128 0 (tmp 65536#64 85#64 0#64)).hLoad (tmp (65536#64) (85#64) (0#64) Block.blank)
        (arg_ldg8.data + BitVec.ofInt 64 (↑4 * (0#11).toInt)).toNat 4 =
      LRes.val 128 at_ldg32 := ⟨by decide +kernel, by decide +kernel, lres_of _ _ _ (by decide +kernel)⟩

theorem test_wit_stg32 :
    guardTrue (wm 0 128 0 (tmp 65536#64 85#64 0#64)).blk 0#4 = true ∧
  (wm 0 128 0 (tmp 65536#64 85#64 0#64)).opnd (wm 0 128 0 (tmp 65536#64 85#64 0#64)).blk (Opnd.reg 1#4) =
      some (arg_ldg8, tmp (65536#64) (85#64) (0#64) Block.blank) ∧
    (wm 0 128 0 (tmp 65536#64 85#64 0#64)).reach (cellAgent (wm 0 128 0 (tmp 65536#64 85#64 0#64)).cell)
        ((wm 0 128 0 (tmp 65536#64 85#64 0#64)).cellVmid (wm 0 128 0 (tmp 65536#64 85#64 0#64)).cell)
        (arg_ldg8.data + BitVec.ofInt 64 (↑4 * (1#11).toInt)).toNat 4 4 Need.w plainType =
      TRes.ok (leafTarget (131265#64) (0#2) 65540) (wm 0 128 0 (tmp 65536#64 85#64 0#64)) := ⟨by decide +kernel, by decide +kernel, tres_of _ _ _ (by decide +kernel)⟩

theorem test_wit_ldg32_odd :
    guardTrue (wb (tmp 16385#64 0#64 0#64)).blk 0#4 = true ∧
  (wb (tmp 16385#64 0#64 0#64)).opnd (wb (tmp 16385#64 0#64 0#64)).blk (Opnd.reg 1#4) =
      some (arg_ldl16_odd, tmp (16385#64) (0#64) (0#64) Block.blank) ∧
    (arg_ldl16_odd.data + BitVec.ofInt 64 (↑4 * (0#11).toInt)).toNat < 2 ^ 56 ∧
      (arg_ldl16_odd.data + BitVec.ofInt 64 (↑4 * (0#11).toInt)).toNat % 4 ≠ 0 := by decide +kernel

theorem test_wit_stg32_odd :
    guardTrue (wb (tmp 16385#64 0#64 0#64)).blk 0#4 = true ∧
  (wb (tmp 16385#64 0#64 0#64)).opnd (wb (tmp 16385#64 0#64 0#64)).blk (Opnd.reg 1#4) =
      some (arg_ldl16_odd, tmp (16385#64) (0#64) (0#64) Block.blank) ∧
    (arg_ldl16_odd.data + BitVec.ofInt 64 (↑4 * (0#11).toInt)).toNat < 2 ^ 56 ∧
      (arg_ldl16_odd.data + BitVec.ofInt 64 (↑4 * (0#11).toInt)).toNat % 4 ≠ 0 := by decide +kernel

def arg_ldl64 : TVal :=
  ⟨98296,0⟩

/-! HandlerLocalMemory -/

theorem test_wit_ldl64 :
    guardTrue (wb (tmp 98296#64 0#64 0#64)).blk 0#4 = true ∧
  (wb (tmp 98296#64 0#64 0#64)).opnd (wb (tmp 98296#64 0#64 0#64)).blk (Opnd.reg 1#4) = some (arg_ldl64, tmp (98296#64) (0#64) (0#64) Block.blank) ∧
    (arg_ldl64.data + BitVec.ofInt 64 (↑8 * (0#11).toInt)).toNat % 8 = 0 ∧
      16384 ≤ (arg_ldl64.data + BitVec.ofInt 64 (↑8 * (0#11).toInt)).toNat ∧ (arg_ldl64.data + BitVec.ofInt 64 (↑8 * (0#11).toInt)).toNat + 8 ≤ 98304 := by decide +kernel

theorem test_wit_ldl64_low :
    guardTrue (wb (tmp 16384#64 0#64 0#64)).blk 0#4 = true ∧
  (wb (tmp 16384#64 0#64 0#64)).opnd (wb (tmp 16384#64 0#64 0#64)).blk (Opnd.reg 1#4) =
      some (arg_ldl8_low, tmp (16384#64) (0#64) (0#64) Block.blank) ∧
    (arg_ldl8_low.data + BitVec.ofInt 64 (↑8 * (-1#11).toInt)).toNat % 8 = 0 ∧
      (arg_ldl8_low.data + BitVec.ofInt 64 (↑8 * (-1#11).toInt)).toNat < 16384 := by decide +kernel

theorem test_wit_ldl64_odd :
    guardTrue (wb (tmp 16385#64 0#64 0#64)).blk 0#4 = true ∧
  (wb (tmp 16385#64 0#64 0#64)).opnd (wb (tmp 16385#64 0#64 0#64)).blk (Opnd.reg 1#4) =
      some (arg_ldl16_odd, tmp (16385#64) (0#64) (0#64) Block.blank) ∧
    (arg_ldl16_odd.data + BitVec.ofInt 64 (↑8 * (0#11).toInt)).toNat % 8 ≠ 0 := by decide +kernel

def arg_stl64 : TVal :=
  ⟨98232,0⟩

theorem test_wit_stl64 :
    guardTrue (wb (tmp 98232#64 1234605616436508552#64 0#64)).blk 0#4 = true ∧
  (wb (tmp 98232#64 1234605616436508552#64 0#64)).opnd (wb (tmp 98232#64 1234605616436508552#64 0#64)).blk (Opnd.reg 1#4) =
      some (arg_stl64, tmp (98232#64) (1234605616436508552#64) (0#64) Block.blank) ∧
    (arg_stl64.data + BitVec.ofInt 64 (↑8 * (0#11).toInt)).toNat % 8 = 0 ∧
      16384 ≤ (arg_stl64.data + BitVec.ofInt 64 (↑8 * (0#11).toInt)).toNat ∧ (arg_stl64.data + BitVec.ofInt 64 (↑8 * (0#11).toInt)).toNat + 8 ≤ 98240 := by decide +kernel

theorem test_wit_stl64_high :
    guardTrue (wb (tmp 98240#64 0#64 0#64)).blk 0#4 = true ∧
  (wb (tmp 98240#64 0#64 0#64)).opnd (wb (tmp 98240#64 0#64 0#64)).blk (Opnd.reg 1#4) =
      some (arg_stl8_high, tmp (98240#64) (0#64) (0#64) Block.blank) ∧
    (arg_stl8_high.data + BitVec.ofInt 64 (↑8 * (0#11).toInt)).toNat % 8 = 0 ∧
      98240 ≤ (arg_stl8_high.data + BitVec.ofInt 64 (↑8 * (0#11).toInt)).toNat := by decide +kernel

theorem test_wit_stl64_odd :
    guardTrue (wb (tmp 16385#64 0#64 0#64)).blk 0#4 = true ∧
  (wb (tmp 16385#64 0#64 0#64)).opnd (wb (tmp 16385#64 0#64 0#64)).blk (Opnd.reg 1#4) =
      some (arg_ldl16_odd, tmp (16385#64) (0#64) (0#64) Block.blank) ∧
    (arg_ldl16_odd.data + BitVec.ofInt 64 (↑8 * (0#11).toInt)).toNat % 8 ≠ 0 := by decide +kernel

def at_ldg64 : State :=
  lres ((wm 0 0x80 0 (tmp 0x10000 0x55 0)).hLoad (tmp 0x10000 0x55 0 Block.blank) 0x10000 8)

/-! HandlerGlobalMemory -/

theorem test_wit_ldg64 :
    guardTrue (wm 0 128 0 (tmp 65536#64 85#64 0#64)).blk 0#4 = true ∧
  (wm 0 128 0 (tmp 65536#64 85#64 0#64)).opnd (wm 0 128 0 (tmp 65536#64 85#64 0#64)).blk (Opnd.reg 1#4) =
      some (arg_ldg8, tmp (65536#64) (85#64) (0#64) Block.blank) ∧
    (wm 0 128 0 (tmp 65536#64 85#64 0#64)).hLoad (tmp (65536#64) (85#64) (0#64) Block.blank)
        (arg_ldg8.data + BitVec.ofInt 64 (↑8 * (0#11).toInt)).toNat 8 =
      LRes.val 128 at_ldg64 := ⟨by decide +kernel, by decide +kernel, lres_of _ _ _ (by decide +kernel)⟩

theorem test_wit_stg64 :
    guardTrue (wm 0 128 0 (tmp 65536#64 85#64 0#64)).blk 0#4 = true ∧
  (wm 0 128 0 (tmp 65536#64 85#64 0#64)).opnd (wm 0 128 0 (tmp 65536#64 85#64 0#64)).blk (Opnd.reg 1#4) =
      some (arg_ldg8, tmp (65536#64) (85#64) (0#64) Block.blank) ∧
    (wm 0 128 0 (tmp 65536#64 85#64 0#64)).reach (cellAgent (wm 0 128 0 (tmp 65536#64 85#64 0#64)).cell)
        ((wm 0 128 0 (tmp 65536#64 85#64 0#64)).cellVmid (wm 0 128 0 (tmp 65536#64 85#64 0#64)).cell)
        (arg_ldg8.data + BitVec.ofInt 64 (↑8 * (1#11).toInt)).toNat 8 8 Need.w plainType =
      TRes.ok (leafTarget (131265#64) (0#2) 65544) (wm 0 128 0 (tmp 65536#64 85#64 0#64)) := ⟨by decide +kernel, by decide +kernel, tres_of _ _ _ (by decide +kernel)⟩

theorem test_wit_ldg64_odd :
    guardTrue (wb (tmp 16385#64 0#64 0#64)).blk 0#4 = true ∧
  (wb (tmp 16385#64 0#64 0#64)).opnd (wb (tmp 16385#64 0#64 0#64)).blk (Opnd.reg 1#4) =
      some (arg_ldl16_odd, tmp (16385#64) (0#64) (0#64) Block.blank) ∧
    (arg_ldl16_odd.data + BitVec.ofInt 64 (↑8 * (0#11).toInt)).toNat < 2 ^ 56 ∧
      (arg_ldl16_odd.data + BitVec.ofInt 64 (↑8 * (0#11).toInt)).toNat % 8 ≠ 0 := by decide +kernel

theorem test_wit_stg64_odd :
    guardTrue (wb (tmp 16385#64 0#64 0#64)).blk 0#4 = true ∧
  (wb (tmp 16385#64 0#64 0#64)).opnd (wb (tmp 16385#64 0#64 0#64)).blk (Opnd.reg 1#4) =
      some (arg_ldl16_odd, tmp (16385#64) (0#64) (0#64) Block.blank) ∧
    (arg_ldl16_odd.data + BitVec.ofInt 64 (↑8 * (0#11).toInt)).toNat < 2 ^ 56 ∧
      (arg_ldl16_odd.data + BitVec.ofInt 64 (↑8 * (0#11).toInt)).toNat % 8 ≠ 0 := by decide +kernel

end Words

namespace Blocks


def arg_emit : TVal :=
  ⟨5,0⟩

def arg_emit_1 : Block :=
  (match (wm 0 0x80 0 (tmp 5 6 7)).emitAll (tmp 5 6 7 Block.blank) 0 0 0 [5] none [1] with | .ok b => b | .error _ => Block.blank)

/-! HandlerEmitAndExit -/

theorem test_wit_emit :
    guardTrue (wm 0 128 0 (tmp 5#64 6#64 7#64)).blk 0#4 = true ∧
  (wm 0 128 0 (tmp 5#64 6#64 7#64)).opnd (wm 0 128 0 (tmp 5#64 6#64 7#64)).blk (Opnd.reg 1#4) =
      some (arg_emit, tmp (5#64) (6#64) (7#64) Block.blank) ∧
    (∀ d ∈ dests 1#6 63#6, ((wm 0 128 0 (tmp 5#64 6#64 7#64)).entry (wm 0 128 0 (tmp 5#64 6#64 7#64)).cell d).takesData = true) ∧
      (wm 0 128 0 (tmp 5#64 6#64 7#64)).emitAux (tmp (5#64) (6#64) (7#64) Block.blank) (Opnd.reg 1#4) arg_emit.fmt =
          (0#8, wm 0 128 0 (tmp 5#64 6#64 7#64)) ∧
        (wm 0 128 0 (tmp 5#64 6#64 7#64)).emitAll (tmp (5#64) (6#64) (7#64) Block.blank) (0#3).toNat arg_emit.fmt 0#8 [arg_emit.data] none
            (dests 1#6 63#6) =
          Except.ok arg_emit_1 := by decide +kernel

theorem test_wit_emit_bad :
    guardTrue (wm 0 128 0 (tmp 5#64 6#64 7#64)).blk 0#4 = true ∧
  (wm 0 128 0 (tmp 5#64 6#64 7#64)).opnd (wm 0 128 0 (tmp 5#64 6#64 7#64)).blk (Opnd.reg 1#4) =
      some (arg_emit, tmp (5#64) (6#64) (7#64) Block.blank) ∧
    2 ∈ dests 2#6 63#6 ∧ ((wm 0 128 0 (tmp 5#64 6#64 7#64)).entry (wm 0 128 0 (tmp 5#64 6#64 7#64)).cell 2).takesData = false := by decide +kernel

def arg_emitp : Block :=
  (match (wm 0 0x80 0 (tmp 5 6 7)).emitAll (tmp 5 6 7 Block.blank) 0 0 0 [1] none [2] with | .ok b => b | .error _ => Block.blank)

theorem test_wit_emitp :
    guardTrue (wm 0 128 0 (tmp 5#64 6#64 7#64)).blk 0#4 = true ∧
  (wm 0 128 0 (tmp 5#64 6#64 7#64)).opnd (wm 0 128 0 (tmp 5#64 6#64 7#64)).blk (Opnd.reg 1#4) =
      some (arg_emit, tmp (5#64) (6#64) (7#64) Block.blank) ∧
    (∀ d ∈ dests 2#6 63#6,
        ((wm 0 128 0 (tmp 5#64 6#64 7#64)).entry (wm 0 128 0 (tmp 5#64 6#64 7#64)).cell d).valid = true ∧
          ((wm 0 128 0 (tmp 5#64 6#64 7#64)).entry (wm 0 128 0 (tmp 5#64 6#64 7#64)).cell d).field = 2) ∧
      (wm 0 128 0 (tmp 5#64 6#64 7#64)).emitAll (tmp (5#64) (6#64) (7#64) Block.blank) (0#3).toNat 0#3 0#8
          [if bitOf (BitVec.toNat arg_emit.data) 0 = true then 1#64 else 0#64] none (dests 2#6 63#6) =
        Except.ok arg_emitp := by decide +kernel

def arg_send : TVal :=
  ⟨0x17FF8,0⟩

def arg_send_4 : TVal :=
  ⟨1,0⟩

def arg_send_5 : Block :=
  (match (wm 0 0x80 0 (tmp 0x17FF8 1 7)).emitAll (tmp 0x17FF8 1 7 Block.blank) 0 0 0 [0] (some 0x17FF8) [1] with | .ok b => b | .error _ => Block.blank)

theorem test_wit_send :
    guardTrue (wm 0 128 0 (tmp 98296#64 1#64 7#64)).blk 0#4 = true ∧
  (wm 0 128 0 (tmp 98296#64 1#64 7#64)).opnd (wm 0 128 0 (tmp 98296#64 1#64 7#64)).blk (Opnd.reg 1#4) =
      some (arg_send, tmp (98296#64) (1#64) (7#64) Block.blank) ∧
    (wm 0 128 0 (tmp 98296#64 1#64 7#64)).opnd (tmp (98296#64) (1#64) (7#64) Block.blank) (Opnd.reg 2#4) =
        some (arg_send_4, tmp (98296#64) (1#64) (7#64) Block.blank) ∧
      BitVec.toNat arg_send.data % 8 = 0 ∧
        BitVec.toNat arg_send_4.data < 2 ^ 15 ∧
          bitsOf (BitVec.toNat arg_send_4.data) 5 0 ≠ 63 ∧
            bitsOf (BitVec.toNat arg_send_4.data) 14 12 ≠ 7 ∧
              ((wm 0 128 0 (tmp 98296#64 1#64 7#64)).entry (wm 0 128 0 (tmp 98296#64 1#64 7#64)).cell
                      (bitsOf (BitVec.toNat arg_send_4.data) 5 0)).takesPacket =
                  true ∧
                16384 ≤ BitVec.toNat arg_send.data ∧
                  BitVec.toNat arg_send.data + 8 * (bitsOf (BitVec.toNat arg_send_4.data) 8 6 + 1) ≤ 98304 ∧
                    (wm 0 128 0 (tmp 98296#64 1#64 7#64)).emitAux (tmp (98296#64) (1#64) (7#64) Block.blank) (Opnd.reg 13#4)
                          (BitVec.ofNat 3 (bitsOf (BitVec.toNat arg_send_4.data) 11 9)) =
                        (0#8, wm 0 128 0 (tmp 98296#64 1#64 7#64)) ∧
                      (wm 0 128 0 (tmp 98296#64 1#64 7#64)).emitAll (tmp (98296#64) (1#64) (7#64) Block.blank)
                          (bitsOf (BitVec.toNat arg_send_4.data) 14 12) (BitVec.ofNat 3 (bitsOf (BitVec.toNat arg_send_4.data) 11 9)) (0#8)
                          (List.replicate (bitsOf (BitVec.toNat arg_send_4.data) 8 6 + 1) 0#64) (some (BitVec.toNat arg_send.data))
                          [bitsOf (BitVec.toNat arg_send_4.data) 5 0] =
                        Except.ok arg_send_5 := by decide +kernel

theorem test_wit_exitdone :
    guardTrue (wm 0 128 0 (tmp 5#64 6#64 7#64)).blk 0#4 = true := by decide +kernel

theorem test_wit_exitdefer :
    guardTrue (wm 0 128 0 (tmp 5#64 6#64 7#64)).blk 0#4 = true := by decide +kernel

theorem test_wit_exitfail :
    guardTrue (wm 0 128 0 (tmp 4#64 6#64 7#64)).blk 9#4 = true := by decide +kernel

/-! HandlerTagsSyncAndClock -/

theorem test_wit_taglvl :
    guardTrue (wm 0 128 0 (tmp 5#64 6#64 7#64)).blk 0#4 = true := by decide +kernel

theorem test_wit_tagfree :
    guardTrue (wm 0 128 0 (tmp 5#64 6#64 7#64)).blk 0#4 = true := by decide +kernel

def at_freectx : State :=
  (wb id).modTile 6 fun t => { t with ctxs := [0] }

theorem test_wit_freectx :
    guardTrue at_freectx.blk 0#4 = true ∧ at_freectx.pool.ctxs.contains at_freectx.blk.ctx = true := by decide +kernel

theorem test_wit_freectx_bad :
    guardTrue (wb id).blk 0#4 = true ∧ (wb id).pool.ctxs.contains (wb id).blk.ctx = false := by decide +kernel

def arg_tagpool : TVal :=
  ⟨7,0⟩

theorem test_wit_tagpool :
    guardTrue (wb (tmp 7#64 0#64 0#64)).blk 0#4 = true ∧
  (wb (tmp 7#64 0#64 0#64)).opnd (wb (tmp 7#64 0#64 0#64)).blk (Opnd.reg 1#4) = some (arg_tagpool, tmp (7#64) (0#64) (0#64) Block.blank) ∧
    BitVec.toNat arg_tagpool.data < 8 := by decide +kernel

def arg_tagpool_bad : TVal :=
  ⟨8,0⟩

theorem test_wit_tagpool_bad :
    guardTrue (wb (tmp 8#64 0#64 0#64)).blk 0#4 = true ∧
  (wb (tmp 8#64 0#64 0#64)).opnd (wb (tmp 8#64 0#64 0#64)).blk (Opnd.reg 1#4) = some (arg_tagpool_bad, tmp (8#64) (0#64) (0#64) Block.blank) ∧
    8 ≤ BitVec.toNat arg_tagpool_bad.data := by decide +kernel

theorem test_wit_tagparent0 :
    guardTrue (wm 0 128 0 (tmp 5#64 6#64 7#64)).blk 0#4 = true ∧ (wm 0 128 0 (tmp 5#64 6#64 7#64)).blk.lvl = 0#3 := by decide +kernel

def at_tagparent : State :=
  (wb fun b => { b with lvl := 7, iter := 1 }).modTile 6 fun t => { t with tags := [⟨0, 7, 1, 5, 1⟩] }

def arg_tagparent : TagEnt :=
  ⟨0, 7, 1, 5, 1⟩

theorem test_wit_tagparent :
    guardTrue at_tagparent.blk 0#4 = true ∧ at_tagparent.blk.lvl ≠ 0#3 ∧ findTag at_tagparent.pool.tags at_tagparent.blk.tag = some arg_tagparent := by decide +kernel

def arg_sync : TVal :=
  ⟨0x10008,0⟩

theorem test_wit_sync :
    guardTrue (wm 0 128 0 (tmp 65544#64 1#64 7#64)).blk 0#4 = true ∧
  (wm 0 128 0 (tmp 65544#64 1#64 7#64)).opnd (wm 0 128 0 (tmp 65544#64 1#64 7#64)).blk (Opnd.reg 1#4) =
      some (arg_sync, tmp (65544#64) (1#64) (7#64) Block.blank) ∧
    (wm 0 128 0 (tmp 65544#64 1#64 7#64)).opnd (tmp (65544#64) (1#64) (7#64) Block.blank) (Opnd.reg 2#4) =
        some (arg_send_4, tmp (65544#64) (1#64) (7#64) Block.blank) ∧
      (wm 0 128 0 (tmp 65544#64 1#64 7#64)).reach (cellAgent (wm 0 128 0 (tmp 65544#64 1#64 7#64)).cell)
            ((wm 0 128 0 (tmp 65544#64 1#64 7#64)).cellVmid (wm 0 128 0 (tmp 65544#64 1#64 7#64)).cell) (BitVec.toNat arg_sync.data)
            (if 0#3 = 0#3 then 8 else 4) (if 0#3 = 0#3 then 8 else 4) Need.rw (syncNeeds 1#8) =
          TRes.ok (leafTarget (131265#64) (0#2) 65544) (wm 0 128 0 (tmp 65544#64 1#64 7#64)) ∧
        (wm 0 128 0 (tmp 65544#64 1#64 7#64)).replyOk 1#6 = true ∧ 1#8 ≠ 37#8 := ⟨by decide +kernel, by decide +kernel, by decide +kernel, tres_of _ _ _ (by decide +kernel), by decide +kernel⟩

def arg_sync_odd : TVal :=
  ⟨0x10004,0⟩

theorem test_wit_sync_odd :
    guardTrue (wm 0 128 0 (tmp 65540#64 1#64 7#64)).blk 0#4 = true ∧
  (wm 0 128 0 (tmp 65540#64 1#64 7#64)).opnd (wm 0 128 0 (tmp 65540#64 1#64 7#64)).blk (Opnd.reg 1#4) =
      some (arg_sync_odd, tmp (65540#64) (1#64) (7#64) Block.blank) ∧
    (wm 0 128 0 (tmp 65540#64 1#64 7#64)).opnd (tmp (65540#64) (1#64) (7#64) Block.blank) (Opnd.reg 2#4) =
        some (arg_send_4, tmp (65540#64) (1#64) (7#64) Block.blank) ∧
      BitVec.toNat arg_sync_odd.data < 2 ^ 56 ∧ (BitVec.toNat arg_sync_odd.data % if 0#3 = 0#3 then 8 else 4) ≠ 0 := by decide +kernel

theorem test_wit_hfencesl :
    guardTrue (wm 0 128 0 (tmp 5#64 6#64 7#64)).blk 0#4 = true := by decide +kernel

def at_hfencerel : State :=
  wb fun b => { b with fenceRel := some 1 }

theorem test_wit_hfencerel :
    guardTrue at_hfencerel.blk 0#4 = true := by decide +kernel

theorem test_wit_hfenceacq :
    guardTrue (wm 0 128 0 (tmp 5#64 6#64 7#64)).blk 0#4 = true := by decide +kernel

theorem test_wit_hlclk :
    guardTrue (wm 0 128 0 (tmp 5#64 6#64 7#64)).blk 0#4 = true := by decide +kernel

def arg_hlclkadv : TVal :=
  ⟨0x7FFFFFFF,0⟩

theorem test_wit_hlclkadv :
    guardTrue (wb (tmp 2147483647#64 0#64 0#64)).blk 0#4 = true ∧
  (wb (tmp 2147483647#64 0#64 0#64)).opnd (wb (tmp 2147483647#64 0#64 0#64)).blk (Opnd.reg 1#4) =
      some (arg_hlclkadv, tmp (2147483647#64) (0#64) (0#64) Block.blank) ∧
    BitVec.toNat arg_hlclkadv.data < 2 ^ 31 := by decide +kernel

def arg_hlclkadv_bad : TVal :=
  ⟨0x80000000,0⟩

theorem test_wit_hlclkadv_bad :
    guardTrue (wb (tmp 2147483648#64 0#64 0#64)).blk 0#4 = true ∧
  (wb (tmp 2147483648#64 0#64 0#64)).opnd (wb (tmp 2147483648#64 0#64 0#64)).blk (Opnd.reg 1#4) =
      some (arg_hlclkadv_bad, tmp (2147483648#64) (0#64) (0#64) Block.blank) ∧
    2 ^ 31 ≤ BitVec.toNat arg_hlclkadv_bad.data := by decide +kernel

def at_boxt8_true : State :=
  wm (0x0001 * 2 ^ 304) (2 ^ 120) 0 (tmp 0x10000 0x4000 0)

def arg_boxt8_true : TVal :=
  ⟨0x10000,0⟩

def arg_boxt8_true_18 : TVal :=
  ⟨0x4000,0⟩

def at_boxt8_true_19 : State :=
  lres ((wm (0x0001 * 2 ^ 304) (2 ^ 120) 0 (tmp 0x10000 0x4000 0)).hPieces (tmp 0x10000 0x4000 0 Block.blank) 0x10000 8)

/-! HandlerRendering -/

theorem test_wit_boxt8_true :
    guardTrue at_boxt8_true.blk 0#4 = true ∧
  at_boxt8_true.opnd at_boxt8_true.blk (Opnd.reg 1#4) = some (arg_boxt8_true, tmp (65536#64) (16384#64) (0#64) Block.blank) ∧
    at_boxt8_true.opnd (tmp (65536#64) (16384#64) (0#64) Block.blank) (Opnd.reg 2#4) =
        some (arg_boxt8_true_18, tmp (65536#64) (16384#64) (0#64) Block.blank) ∧
      (rayOf at_boxt8_true.rayWindow).check false true (BitVec.toNat arg_boxt8_true.data) (BitVec.toNat arg_boxt8_true_18.data) 128 = none ∧
        at_boxt8_true.hPieces (tmp (65536#64) (16384#64) (0#64) Block.blank)
              ((BitVec.toNat arg_boxt8_true.data + 128 * bitsOf (rayOf at_boxt8_true.rayWindow).top 26 0) % 2 ^ 64) 8 =
            LRes.val (2 ^ 120) at_boxt8_true_19 ∧
          nodeBad (2 ^ 120) = false := ⟨by decide +kernel, by decide +kernel, by decide +kernel, by decide +kernel, lres_of _ _ _ (by decide +kernel), by decide +kernel⟩

def at_boxt8_true_bad : State :=
  wm (0x0001 * 2 ^ 304) 0 0 (tmp 0x10000 0x4000 0)

def at_boxt8_true_bad_21 : State :=
  lres ((wm (0x0001 * 2 ^ 304) 0 0 (tmp 0x10000 0x4000 0)).hPieces (tmp 0x10000 0x4000 0 Block.blank) 0x10000 8)

theorem test_wit_boxt8_true_bad :
    guardTrue at_boxt8_true_bad.blk 0#4 = true ∧
  at_boxt8_true_bad.opnd at_boxt8_true_bad.blk (Opnd.reg 1#4) = some (arg_boxt8_true, tmp (65536#64) (16384#64) (0#64) Block.blank) ∧
    at_boxt8_true_bad.opnd (tmp (65536#64) (16384#64) (0#64) Block.blank) (Opnd.reg 2#4) =
        some (arg_boxt8_true_18, tmp (65536#64) (16384#64) (0#64) Block.blank) ∧
      (rayOf at_boxt8_true_bad.rayWindow).check false true (BitVec.toNat arg_boxt8_true.data) (BitVec.toNat arg_boxt8_true_18.data) 128 = none ∧
        at_boxt8_true_bad.hPieces (tmp (65536#64) (16384#64) (0#64) Block.blank)
              ((BitVec.toNat arg_boxt8_true.data + 128 * bitsOf (rayOf at_boxt8_true_bad.rayWindow).top 26 0) % 2 ^ 64) 8 =
            LRes.val 0 at_boxt8_true_bad_21 ∧
          nodeBad 0 = true := ⟨by decide +kernel, by decide +kernel, by decide +kernel, by decide +kernel, lres_of _ _ _ (by decide +kernel), by decide +kernel⟩

theorem test_wit_boxt8_false :
    guardTrue at_boxt8_true.blk 0#4 = true ∧
  at_boxt8_true.opnd at_boxt8_true.blk (Opnd.reg 1#4) = some (arg_boxt8_true, tmp (65536#64) (16384#64) (0#64) Block.blank) ∧
    at_boxt8_true.opnd (tmp (65536#64) (16384#64) (0#64) Block.blank) (Opnd.reg 2#4) =
        some (arg_boxt8_true_18, tmp (65536#64) (16384#64) (0#64) Block.blank) ∧
      (rayOf at_boxt8_true.rayWindow).check false false (BitVec.toNat arg_boxt8_true.data) (BitVec.toNat arg_boxt8_true_18.data) 128 = none ∧
        at_boxt8_true.hPieces (tmp (65536#64) (16384#64) (0#64) Block.blank)
              ((BitVec.toNat arg_boxt8_true.data + 128 * bitsOf (rayOf at_boxt8_true.rayWindow).top 26 0) % 2 ^ 64) 8 =
            LRes.val (2 ^ 120) at_boxt8_true_19 ∧
          nodeBad (2 ^ 120) = false := ⟨by decide +kernel, by decide +kernel, by decide +kernel, by decide +kernel, lres_of _ _ _ (by decide +kernel), by decide +kernel⟩

theorem test_wit_boxt8_false_bad :
    guardTrue at_boxt8_true_bad.blk 0#4 = true ∧
  at_boxt8_true_bad.opnd at_boxt8_true_bad.blk (Opnd.reg 1#4) = some (arg_boxt8_true, tmp (65536#64) (16384#64) (0#64) Block.blank) ∧
    at_boxt8_true_bad.opnd (tmp (65536#64) (16384#64) (0#64) Block.blank) (Opnd.reg 2#4) =
        some (arg_boxt8_true_18, tmp (65536#64) (16384#64) (0#64) Block.blank) ∧
      (rayOf at_boxt8_true_bad.rayWindow).check false false (BitVec.toNat arg_boxt8_true.data) (BitVec.toNat arg_boxt8_true_18.data) 128 = none ∧
        at_boxt8_true_bad.hPieces (tmp (65536#64) (16384#64) (0#64) Block.blank)
              ((BitVec.toNat arg_boxt8_true.data + 128 * bitsOf (rayOf at_boxt8_true_bad.rayWindow).top 26 0) % 2 ^ 64) 8 =
            LRes.val 0 at_boxt8_true_bad_21 ∧
          nodeBad 0 = true := ⟨by decide +kernel, by decide +kernel, by decide +kernel, by decide +kernel, lres_of _ _ _ (by decide +kernel), by decide +kernel⟩

def at_trit_any : State :=
  wm (1 * 2 ^ 304 + 0x80000000 * 2 ^ 320) 0 0 (tmp 0x10000 0x4000 0)

theorem test_wit_trit_bary :
    guardTrue at_trit_any.blk 0#4 = true ∧
  at_trit_any.opnd at_trit_any.blk (Opnd.reg 1#4) = some (arg_boxt8_true, tmp (65536#64) (16384#64) (0#64) Block.blank) ∧
    at_trit_any.opnd (tmp (65536#64) (16384#64) (0#64) Block.blank) (Opnd.reg 2#4) =
        some (arg_boxt8_true_18, tmp (65536#64) (16384#64) (0#64) Block.blank) ∧
      (rayOf at_trit_any.rayWindow).sp ≤ 4 ∧
        BitVec.toNat arg_boxt8_true.data % 16 = 0 ∧
          BitVec.toNat arg_boxt8_true_18.data % 64 = 0 ∧
            16384 ≤ BitVec.toNat arg_boxt8_true_18.data ∧ BitVec.toNat arg_boxt8_true_18.data ≤ 98176 ∧ (rayOf at_trit_any.rayWindow).entry 5 = 0 := by decide +kernel

def arg_dicer : TVal :=
  ⟨0x3F800000,0⟩

theorem test_wit_dicer :
    guardTrue (wb (tmp 16384#64 1065353216#64 0#64)).blk 0#4 = true ∧
  (wb (tmp 16384#64 1065353216#64 0#64)).opnd (wb (tmp 16384#64 1065353216#64 0#64)).blk (Opnd.reg 1#4) =
      some (arg_boxt8_true_18, tmp (16384#64) (1065353216#64) (0#64) Block.blank) ∧
    (wb (tmp 16384#64 1065353216#64 0#64)).opnd (tmp (16384#64) (1065353216#64) (0#64) Block.blank) (Opnd.reg 2#4) =
        some (arg_dicer, tmp (16384#64) (1065353216#64) (0#64) Block.blank) ∧
      BitVec.toNat arg_boxt8_true_18.data % 16 = 0 ∧
        16384 ≤ BitVec.toNat arg_boxt8_true_18.data ∧
          BitVec.toNat arg_boxt8_true_18.data + 32 ≤ 98304 ∧
            BitVec.toNat arg_dicer.data < 2 ^ 32 ∧
              (fp32.decode (BitVec.toNat arg_dicer.data)).finite = true ∧ (fp32.decode (BitVec.toNat arg_dicer.data)).above0 = true := by decide +kernel

def arg_sampt : TVal :=
  ⟨0x3FFFFFFFFF,0⟩

def arg_sampt_26 : TVal :=
  ⟨0xFFFFFFFF,0⟩

theorem test_wit_sampt :
    guardTrue (wb (tmp 274877906943#64 4294967295#64 0#64)).blk 0#4 = true ∧
  (wb (tmp 274877906943#64 4294967295#64 0#64)).opnd (wb (tmp 274877906943#64 4294967295#64 0#64)).blk (Opnd.reg 1#4) =
      some (arg_sampt, tmp (274877906943#64) (4294967295#64) (0#64) Block.blank) ∧
    (wb (tmp 274877906943#64 4294967295#64 0#64)).opnd (tmp (274877906943#64) (4294967295#64) (0#64) Block.blank) (Opnd.reg 2#4) =
        some (arg_sampt_26, tmp (274877906943#64) (4294967295#64) (0#64) Block.blank) ∧
      BitVec.toNat arg_sampt.data < 2 ^ 38 ∧ BitVec.toNat arg_sampt_26.data < 2 ^ 32 := by decide +kernel

def arg_sampt_bad : TVal :=
  ⟨0x4000000000,0⟩

theorem test_wit_sampt_bad :
    guardTrue (wb (tmp 274877906944#64 4294967295#64 0#64)).blk 0#4 = true ∧
  (wb (tmp 274877906944#64 4294967295#64 0#64)).opnd (wb (tmp 274877906944#64 4294967295#64 0#64)).blk (Opnd.reg 1#4) =
      some (arg_sampt_bad, tmp (274877906944#64) (4294967295#64) (0#64) Block.blank) ∧
    (wb (tmp 274877906944#64 4294967295#64 0#64)).opnd (tmp (274877906944#64) (4294967295#64) (0#64) Block.blank) (Opnd.reg 2#4) =
        some (arg_sampt_26, tmp (274877906944#64) (4294967295#64) (0#64) Block.blank) ∧
      2 ^ 38 ≤ BitVec.toNat arg_sampt_bad.data := by decide +kernel

theorem test_wit_samptv :
    guardTrue (wb (tmp 274877906943#64 4294967295#64 0#64)).blk 0#4 = true ∧
  (wb (tmp 274877906943#64 4294967295#64 0#64)).opnd (wb (tmp 274877906943#64 4294967295#64 0#64)).blk (Opnd.reg 1#4) =
      some (arg_sampt, tmp (274877906943#64) (4294967295#64) (0#64) Block.blank) ∧
    (wb (tmp 274877906943#64 4294967295#64 0#64)).opnd (tmp (274877906943#64) (4294967295#64) (0#64) Block.blank) (Opnd.reg 2#4) =
        some (arg_sampt_26, tmp (274877906943#64) (4294967295#64) (0#64) Block.blank) ∧
      BitVec.toNat arg_sampt.data < 2 ^ 38 ∧ BitVec.toNat arg_sampt_26.data < 2 ^ 32 := by decide +kernel

def arg_mptest : TVal :=
  ⟨0x17FA0,0⟩

def arg_mptest_29 : TVal :=
  ⟨0x17FF0,0⟩

theorem test_wit_mptest :
    guardTrue (wb (tmp 98208#64 98288#64 0#64)).blk 0#4 = true ∧
  (wb (tmp 98208#64 98288#64 0#64)).opnd (wb (tmp 98208#64 98288#64 0#64)).blk (Opnd.reg 1#4) =
      some (arg_mptest, tmp (98208#64) (98288#64) (0#64) Block.blank) ∧
    (wb (tmp 98208#64 98288#64 0#64)).opnd (tmp (98208#64) (98288#64) (0#64) Block.blank) (Opnd.reg 2#4) =
        some (arg_mptest_29, tmp (98208#64) (98288#64) (0#64) Block.blank) ∧
      BitVec.toNat arg_mptest.data % 16 = 0 ∧
        16384 ≤ BitVec.toNat arg_mptest.data ∧
          BitVec.toNat arg_mptest.data + 96 ≤ 98304 ∧
            BitVec.toNat arg_mptest_29.data % 16 = 0 ∧ 16384 ≤ BitVec.toNat arg_mptest_29.data ∧ BitVec.toNat arg_mptest_29.data + 16 ≤ 98304 := by decide +kernel

def arg_seqw : TVal :=
  ⟨0,0⟩

theorem test_wit_seqw :
    guardTrue (wb (tmp 16384#64 0#64 0#64)).blk 0#4 = true ∧
  (wb (tmp 16384#64 0#64 0#64)).opnd (wb (tmp 16384#64 0#64 0#64)).blk (Opnd.reg 1#4) =
      some (arg_boxt8_true_18, tmp (16384#64) (0#64) (0#64) Block.blank) ∧
    (wb (tmp 16384#64 0#64 0#64)).opnd (tmp (16384#64) (0#64) (0#64) Block.blank) (Opnd.reg 2#4) =
        some (arg_seqw, tmp (16384#64) (0#64) (0#64) Block.blank) ∧
      BitVec.toNat arg_boxt8_true_18.data % 4 = 0 ∧
        16384 ≤ BitVec.toNat arg_boxt8_true_18.data ∧
          BitVec.toNat arg_boxt8_true_18.data + 4 ≤ 98304 ∧
            (BitVec.toNat arg_seqw.data % 2 ^ 32 + 2 ^ 32 -
                  (wb (tmp 16384#64 0#64 0#64)).localRead (tmp (16384#64) (0#64) (0#64) Block.blank) (BitVec.toNat arg_boxt8_true_18.data) 4) %
                2 ^ 32 =
              0 := by decide +kernel

theorem test_wit_seqw_ahead :
    guardTrue (wb (tmp 16384#64 2147483647#64 0#64)).blk 0#4 = true ∧
  (wb (tmp 16384#64 2147483647#64 0#64)).opnd (wb (tmp 16384#64 2147483647#64 0#64)).blk (Opnd.reg 1#4) =
      some (arg_boxt8_true_18, tmp (16384#64) (2147483647#64) (0#64) Block.blank) ∧
    (wb (tmp 16384#64 2147483647#64 0#64)).opnd (tmp (16384#64) (2147483647#64) (0#64) Block.blank) (Opnd.reg 2#4) =
        some (arg_hlclkadv, tmp (16384#64) (2147483647#64) (0#64) Block.blank) ∧
      BitVec.toNat arg_boxt8_true_18.data % 4 = 0 ∧
        16384 ≤ BitVec.toNat arg_boxt8_true_18.data ∧
          BitVec.toNat arg_boxt8_true_18.data + 4 ≤ 98304 ∧
            0 <
                (BitVec.toNat arg_hlclkadv.data % 2 ^ 32 + 2 ^ 32 -
                    (wb (tmp 16384#64 2147483647#64 0#64)).localRead (tmp (16384#64) (2147483647#64) (0#64) Block.blank)
                      (BitVec.toNat arg_boxt8_true_18.data) 4) %
                  2 ^ 32 ∧
              (BitVec.toNat arg_hlclkadv.data % 2 ^ 32 + 2 ^ 32 -
                    (wb (tmp 16384#64 2147483647#64 0#64)).localRead (tmp (16384#64) (2147483647#64) (0#64) Block.blank)
                      (BitVec.toNat arg_boxt8_true_18.data) 4) %
                  2 ^ 32 <
                2 ^ 31 := by decide +kernel

theorem test_wit_seqw_past :
    guardTrue (wb (tmp 16384#64 2147483648#64 0#64)).blk 0#4 = true ∧
  (wb (tmp 16384#64 2147483648#64 0#64)).opnd (wb (tmp 16384#64 2147483648#64 0#64)).blk (Opnd.reg 1#4) =
      some (arg_boxt8_true_18, tmp (16384#64) (2147483648#64) (0#64) Block.blank) ∧
    (wb (tmp 16384#64 2147483648#64 0#64)).opnd (tmp (16384#64) (2147483648#64) (0#64) Block.blank) (Opnd.reg 2#4) =
        some (arg_hlclkadv_bad, tmp (16384#64) (2147483648#64) (0#64) Block.blank) ∧
      BitVec.toNat arg_boxt8_true_18.data % 4 = 0 ∧
        16384 ≤ BitVec.toNat arg_boxt8_true_18.data ∧
          BitVec.toNat arg_boxt8_true_18.data + 4 ≤ 98304 ∧
            2 ^ 31 ≤
              (BitVec.toNat arg_hlclkadv_bad.data % 2 ^ 32 + 2 ^ 32 -
                  (wb (tmp 16384#64 2147483648#64 0#64)).localRead (tmp (16384#64) (2147483648#64) (0#64) Block.blank)
                    (BitVec.toNat arg_boxt8_true_18.data) 4) %
                2 ^ 32 := by decide +kernel

def at_atomic_01_0 : State :=
  { wc (cmdOf 0x01 0 0x20048 0xFFFFFFF0 7 5) with homeTs := [(0x20040, (3, 9))], mem := memWrite [] 0x20040 16 0x1122334480000001FFEEDDCC00000003 }

def arg_atomic_01_0 : Die :=
  (({ (({ wc (cmdOf 0x01 0 0x20048 0xFFFFFFF0 7 5) with homeTs := [(0x20040, (3, 9))], mem := memWrite [] 0x20040 16 0x1122334480000001FFEEDDCC00000003 }).fillLine 0x20040).getDie 0 with held := [0x20040] } : Die).take (lineKey 0x20040)).getD Die.reset

/-! ConcordanceAtomics -/

theorem test_wit_atomic_01_0 :
    AtomicDue at_atomic_01_0 0 1 (msgOf (cmdOf (1#8) (0#3) 131144 (4294967280#64) (7#64) 5)) (cmdOf (1#8) (0#3) 131144 (4294967280#64) (7#64) 5)
  arg_atomic_01_0 := by unfold AtomicDue; decide +kernel

def at_atomic_81_0 : State :=
  { wc (cmdOf 0x81 0 0x20048 0xFFFFFFF0 7 5) with homeTs := [(0x20040, (3, 9))], mem := memWrite [] 0x20040 16 0x1122334480000001FFEEDDCC00000003 }

def arg_atomic_81_0 : Die :=
  (({ (({ wc (cmdOf 0x81 0 0x20048 0xFFFFFFF0 7 5) with homeTs := [(0x20040, (3, 9))], mem := memWrite [] 0x20040 16 0x1122334480000001FFEEDDCC00000003 }).fillLine 0x20040).getDie 0 with held := [0x20040] } : Die).take (lineKey 0x20040)).getD Die.reset

theorem test_wit_atomic_81_0 :
    AtomicDue at_atomic_81_0 0 129 (msgOf (cmdOf (129#8) (0#3) 131144 (4294967280#64) (7#64) 5)) (cmdOf (129#8) (0#3) 131144 (4294967280#64) (7#64) 5)
  arg_atomic_81_0 := by unfold AtomicDue; decide +kernel

def at_atomic_02_0 : State :=
  { wc (cmdOf 0x02 0 0x20048 0xFFFFFFF0 7 5) with homeTs := [(0x20040, (3, 9))], mem := memWrite [] 0x20040 16 0x1122334480000001FFEEDDCC00000003 }

def arg_atomic_02_0 : Die :=
  (({ (({ wc (cmdOf 0x02 0 0x20048 0xFFFFFFF0 7 5) with homeTs := [(0x20040, (3, 9))], mem := memWrite [] 0x20040 16 0x1122334480000001FFEEDDCC00000003 }).fillLine 0x20040).getDie 0 with held := [0x20040] } : Die).take (lineKey 0x20040)).getD Die.reset

theorem test_wit_atomic_02_0 :
    AtomicDue at_atomic_02_0 0 2 (msgOf (cmdOf (2#8) (0#3) 131144 (4294967280#64) (7#64) 5)) (cmdOf (2#8) (0#3) 131144 (4294967280#64) (7#64) 5)
  arg_atomic_02_0 := by unfold AtomicDue; decide +kernel

def at_atomic_82_0 : State :=
  { wc (cmdOf 0x82 0 0x20048 0xFFFFFFF0 7 5) with homeTs := [(0x20040, (3, 9))], mem := memWrite [] 0x20040 16 0x1122334480000001FFEEDDCC00000003 }

def arg_atomic_82_0 : Die :=
  (({ (({ wc (cmdOf 0x82 0 0x20048 0xFFFFFFF0 7 5) with homeTs := [(0x20040, (3, 9))], mem := memWrite [] 0x20040 16 0x1122334480000001FFEEDDCC00000003 }).fillLine 0x20040).getDie 0 with held := [0x20040] } : Die).take (lineKey 0x20040)).getD Die.reset

theorem test_wit_atomic_82_0 :
    AtomicDue at_atomic_82_0 0 130 (msgOf (cmdOf (130#8) (0#3) 131144 (4294967280#64) (7#64) 5)) (cmdOf (130#8) (0#3) 131144 (4294967280#64) (7#64) 5)
  arg_atomic_82_0 := by unfold AtomicDue; decide +kernel

def at_atomic_03_0 : State :=
  { wc (cmdOf 0x03 0 0x20048 0xFFFFFFF0 7 5) with homeTs := [(0x20040, (3, 9))], mem := memWrite [] 0x20040 16 0x1122334480000001FFEEDDCC00000003 }

def arg_atomic_03_0 : Die :=
  (({ (({ wc (cmdOf 0x03 0 0x20048 0xFFFFFFF0 7 5) with homeTs := [(0x20040, (3, 9))], mem := memWrite [] 0x20040 16 0x1122334480000001FFEEDDCC00000003 }).fillLine 0x20040).getDie 0 with held := [0x20040] } : Die).take (lineKey 0x20040)).getD Die.reset

theorem test_wit_atomic_03_0 :
    AtomicDue at_atomic_03_0 0 3 (msgOf (cmdOf (3#8) (0#3) 131144 (4294967280#64) (7#64) 5)) (cmdOf (3#8) (0#3) 131144 (4294967280#64) (7#64) 5)
  arg_atomic_03_0 := by unfold AtomicDue; decide +kernel

def at_atomic_83_0 : State :=
  { wc (cmdOf 0x83 0 0x20048 0xFFFFFFF0 7 5) with homeTs := [(0x20040, (3, 9))], mem := memWrite [] 0x20040 16 0x1122334480000001FFEEDDCC00000003 }

def arg_atomic_83_0 : Die :=
  (({ (({ wc (cmdOf 0x83 0 0x20048 0xFFFFFFF0 7 5) with homeTs := [(0x20040, (3, 9))], mem := memWrite [] 0x20040 16 0x1122334480000001FFEEDDCC00000003 }).fillLine 0x20040).getDie 0 with held := [0x20040] } : Die).take (lineKey 0x20040)).getD Die.reset

theorem test_wit_atomic_83_0 :
    AtomicDue at_atomic_83_0 0 131 (msgOf (cmdOf (131#8) (0#3) 131144 (4294967280#64) (7#64) 5)) (cmdOf (131#8) (0#3) 131144 (4294967280#64) (7#64) 5)
  arg_atomic_83_0 := by unfold AtomicDue; decide +kernel

def at_atomic_04_0 : State :=
  { wc (cmdOf 0x04 0 0x20048 0xFFFFFFF0 7 5) with homeTs := [(0x20040, (3, 9))], mem := memWrite [] 0x20040 16 0x1122334480000001FFEEDDCC00000003 }

def arg_atomic_04_0 : Die :=
  (({ (({ wc (cmdOf 0x04 0 0x20048 0xFFFFFFF0 7 5) with homeTs := [(0x20040, (3, 9))], mem := memWrite [] 0x20040 16 0x1122334480000001FFEEDDCC00000003 }).fillLine 0x20040).getDie 0 with held := [0x20040] } : Die).take (lineKey 0x20040)).getD Die.reset

theorem test_wit_atomic_04_0 :
    AtomicDue at_atomic_04_0 0 4 (msgOf (cmdOf (4#8) (0#3) 131144 (4294967280#64) (7#64) 5)) (cmdOf (4#8) (0#3) 131144 (4294967280#64) (7#64) 5)
  arg_atomic_04_0 := by unfold AtomicDue; decide +kernel

def at_atomic_84_0 : State :=
  { wc (cmdOf 0x84 0 0x20048 0xFFFFFFF0 7 5) with homeTs := [(0x20040, (3, 9))], mem := memWrite [] 0x20040 16 0x1122334480000001FFEEDDCC00000003 }

def arg_atomic_84_0 : Die :=
  (({ (({ wc (cmdOf 0x84 0 0x20048 0xFFFFFFF0 7 5) with homeTs := [(0x20040, (3, 9))], mem := memWrite [] 0x20040 16 0x1122334480000001FFEEDDCC00000003 }).fillLine 0x20040).getDie 0 with held := [0x20040] } : Die).take (lineKey 0x20040)).getD Die.reset

theorem test_wit_atomic_84_0 :
    AtomicDue at_atomic_84_0 0 132 (msgOf (cmdOf (132#8) (0#3) 131144 (4294967280#64) (7#64) 5)) (cmdOf (132#8) (0#3) 131144 (4294967280#64) (7#64) 5)
  arg_atomic_84_0 := by unfold AtomicDue; decide +kernel

def at_atomic_05_0 : State :=
  { wc (cmdOf 0x05 0 0x20048 0xFFFFFFF0 7 5) with homeTs := [(0x20040, (3, 9))], mem := memWrite [] 0x20040 16 0x1122334480000001FFEEDDCC00000003 }

def arg_atomic_05_0 : Die :=
  (({ (({ wc (cmdOf 0x05 0 0x20048 0xFFFFFFF0 7 5) with homeTs := [(0x20040, (3, 9))], mem := memWrite [] 0x20040 16 0x1122334480000001FFEEDDCC00000003 }).fillLine 0x20040).getDie 0 with held := [0x20040] } : Die).take (lineKey 0x20040)).getD Die.reset

theorem test_wit_atomic_05_0 :
    AtomicDue at_atomic_05_0 0 5 (msgOf (cmdOf (5#8) (0#3) 131144 (4294967280#64) (7#64) 5)) (cmdOf (5#8) (0#3) 131144 (4294967280#64) (7#64) 5)
  arg_atomic_05_0 := by unfold AtomicDue; decide +kernel

def at_atomic_85_0 : State :=
  { wc (cmdOf 0x85 0 0x20048 0xFFFFFFF0 7 5) with homeTs := [(0x20040, (3, 9))], mem := memWrite [] 0x20040 16 0x1122334480000001FFEEDDCC00000003 }

def arg_atomic_85_0 : Die :=
  (({ (({ wc (cmdOf 0x85 0 0x20048 0xFFFFFFF0 7 5) with homeTs := [(0x20040, (3, 9))], mem := memWrite [] 0x20040 16 0x1122334480000001FFEEDDCC00000003 }).fillLine 0x20040).getDie 0 with held := [0x20040] } : Die).take (lineKey 0x20040)).getD Die.reset

theorem test_wit_atomic_85_0 :
    AtomicDue at_atomic_85_0 0 133 (msgOf (cmdOf (133#8) (0#3) 131144 (4294967280#64) (7#64) 5)) (cmdOf (133#8) (0#3) 131144 (4294967280#64) (7#64) 5)
  arg_atomic_85_0 := by unfold AtomicDue; decide +kernel

def at_atomic_06_0 : State :=
  { wc (cmdOf 0x06 0 0x20048 0xFFFFFFF0 7 5) with homeTs := [(0x20040, (3, 9))], mem := memWrite [] 0x20040 16 0x1122334480000001FFEEDDCC00000003 }

def arg_atomic_06_0 : Die :=
  (({ (({ wc (cmdOf 0x06 0 0x20048 0xFFFFFFF0 7 5) with homeTs := [(0x20040, (3, 9))], mem := memWrite [] 0x20040 16 0x1122334480000001FFEEDDCC00000003 }).fillLine 0x20040).getDie 0 with held := [0x20040] } : Die).take (lineKey 0x20040)).getD Die.reset

theorem test_wit_atomic_06_0 :
    AtomicDue at_atomic_06_0 0 6 (msgOf (cmdOf (6#8) (0#3) 131144 (4294967280#64) (7#64) 5)) (cmdOf (6#8) (0#3) 131144 (4294967280#64) (7#64) 5)
  arg_atomic_06_0 := by unfold AtomicDue; decide +kernel

def at_atomic_86_0 : State :=
  { wc (cmdOf 0x86 0 0x20048 0xFFFFFFF0 7 5) with homeTs := [(0x20040, (3, 9))], mem := memWrite [] 0x20040 16 0x1122334480000001FFEEDDCC00000003 }

def arg_atomic_86_0 : Die :=
  (({ (({ wc (cmdOf 0x86 0 0x20048 0xFFFFFFF0 7 5) with homeTs := [(0x20040, (3, 9))], mem := memWrite [] 0x20040 16 0x1122334480000001FFEEDDCC00000003 }).fillLine 0x20040).getDie 0 with held := [0x20040] } : Die).take (lineKey 0x20040)).getD Die.reset

theorem test_wit_atomic_86_0 :
    AtomicDue at_atomic_86_0 0 134 (msgOf (cmdOf (134#8) (0#3) 131144 (4294967280#64) (7#64) 5)) (cmdOf (134#8) (0#3) 131144 (4294967280#64) (7#64) 5)
  arg_atomic_86_0 := by unfold AtomicDue; decide +kernel

def at_atomic_07_0 : State :=
  { wc (cmdOf 0x07 0 0x20048 0xFFFFFFF0 7 5) with homeTs := [(0x20040, (3, 9))], mem := memWrite [] 0x20040 16 0x1122334480000001FFEEDDCC00000003 }

def arg_atomic_07_0 : Die :=
  (({ (({ wc (cmdOf 0x07 0 0x20048 0xFFFFFFF0 7 5) with homeTs := [(0x20040, (3, 9))], mem := memWrite [] 0x20040 16 0x1122334480000001FFEEDDCC00000003 }).fillLine 0x20040).getDie 0 with held := [0x20040] } : Die).take (lineKey 0x20040)).getD Die.reset

theorem test_wit_atomic_07_0 :
    AtomicDue at_atomic_07_0 0 7 (msgOf (cmdOf (7#8) (0#3) 131144 (4294967280#64) (7#64) 5)) (cmdOf (7#8) (0#3) 131144 (4294967280#64) (7#64) 5)
  arg_atomic_07_0 := by unfold AtomicDue; decide +kernel

def at_atomic_87_0 : State :=
  { wc (cmdOf 0x87 0 0x20048 0xFFFFFFF0 7 5) with homeTs := [(0x20040, (3, 9))], mem := memWrite [] 0x20040 16 0x1122334480000001FFEEDDCC00000003 }

def arg_atomic_87_0 : Die :=
  (({ (({ wc (cmdOf 0x87 0 0x20048 0xFFFFFFF0 7 5) with homeTs := [(0x20040, (3, 9))], mem := memWrite [] 0x20040 16 0x1122334480000001FFEEDDCC00000003 }).fillLine 0x20040).getDie 0 with held := [0x20040] } : Die).take (lineKey 0x20040)).getD Die.reset

theorem test_wit_atomic_87_0 :
    AtomicDue at_atomic_87_0 0 135 (msgOf (cmdOf (135#8) (0#3) 131144 (4294967280#64) (7#64) 5)) (cmdOf (135#8) (0#3) 131144 (4294967280#64) (7#64) 5)
  arg_atomic_87_0 := by unfold AtomicDue; decide +kernel

def at_atomic_08_0 : State :=
  { wc (cmdOf 0x08 0 0x20048 0xFFFFFFF0 7 5) with homeTs := [(0x20040, (3, 9))], mem := memWrite [] 0x20040 16 0x1122334480000001FFEEDDCC00000003 }

def arg_atomic_08_0 : Die :=
  (({ (({ wc (cmdOf 0x08 0 0x20048 0xFFFFFFF0 7 5) with homeTs := [(0x20040, (3, 9))], mem := memWrite [] 0x20040 16 0x1122334480000001FFEEDDCC00000003 }).fillLine 0x20040).getDie 0 with held := [0x20040] } : Die).take (lineKey 0x20040)).getD Die.reset

theorem test_wit_atomic_08_0 :
    AtomicDue at_atomic_08_0 0 8 (msgOf (cmdOf (8#8) (0#3) 131144 (4294967280#64) (7#64) 5)) (cmdOf (8#8) (0#3) 131144 (4294967280#64) (7#64) 5)
  arg_atomic_08_0 := by unfold AtomicDue; decide +kernel

def at_atomic_88_0 : State :=
  { wc (cmdOf 0x88 0 0x20048 0xFFFFFFF0 7 5) with homeTs := [(0x20040, (3, 9))], mem := memWrite [] 0x20040 16 0x1122334480000001FFEEDDCC00000003 }

def arg_atomic_88_0 : Die :=
  (({ (({ wc (cmdOf 0x88 0 0x20048 0xFFFFFFF0 7 5) with homeTs := [(0x20040, (3, 9))], mem := memWrite [] 0x20040 16 0x1122334480000001FFEEDDCC00000003 }).fillLine 0x20040).getDie 0 with held := [0x20040] } : Die).take (lineKey 0x20040)).getD Die.reset

theorem test_wit_atomic_88_0 :
    AtomicDue at_atomic_88_0 0 136 (msgOf (cmdOf (136#8) (0#3) 131144 (4294967280#64) (7#64) 5)) (cmdOf (136#8) (0#3) 131144 (4294967280#64) (7#64) 5)
  arg_atomic_88_0 := by unfold AtomicDue; decide +kernel

def at_atomic_09_0 : State :=
  { wc (cmdOf 0x09 0 0x20048 0xFFFFFFF0 7 5) with homeTs := [(0x20040, (3, 9))], mem := memWrite [] 0x20040 16 0x1122334480000001FFEEDDCC00000003 }

def arg_atomic_09_0 : Die :=
  (({ (({ wc (cmdOf 0x09 0 0x20048 0xFFFFFFF0 7 5) with homeTs := [(0x20040, (3, 9))], mem := memWrite [] 0x20040 16 0x1122334480000001FFEEDDCC00000003 }).fillLine 0x20040).getDie 0 with held := [0x20040] } : Die).take (lineKey 0x20040)).getD Die.reset

theorem test_wit_atomic_09_0 :
    AtomicDue at_atomic_09_0 0 9 (msgOf (cmdOf (9#8) (0#3) 131144 (4294967280#64) (7#64) 5)) (cmdOf (9#8) (0#3) 131144 (4294967280#64) (7#64) 5)
  arg_atomic_09_0 := by unfold AtomicDue; decide +kernel

def at_atomic_89_0 : State :=
  { wc (cmdOf 0x89 0 0x20048 0xFFFFFFF0 7 5) with homeTs := [(0x20040, (3, 9))], mem := memWrite [] 0x20040 16 0x1122334480000001FFEEDDCC00000003 }

def arg_atomic_89_0 : Die :=
  (({ (({ wc (cmdOf 0x89 0 0x20048 0xFFFFFFF0 7 5) with homeTs := [(0x20040, (3, 9))], mem := memWrite [] 0x20040 16 0x1122334480000001FFEEDDCC00000003 }).fillLine 0x20040).getDie 0 with held := [0x20040] } : Die).take (lineKey 0x20040)).getD Die.reset

theorem test_wit_atomic_89_0 :
    AtomicDue at_atomic_89_0 0 137 (msgOf (cmdOf (137#8) (0#3) 131144 (4294967280#64) (7#64) 5)) (cmdOf (137#8) (0#3) 131144 (4294967280#64) (7#64) 5)
  arg_atomic_89_0 := by unfold AtomicDue; decide +kernel

def at_atomic_0a_0 : State :=
  { wc (cmdOf 0x0A 0 0x20048 0xFFFFFFF0 7 5) with homeTs := [(0x20040, (3, 9))], mem := memWrite [] 0x20040 16 0x1122334480000001FFEEDDCC00000003 }

def arg_atomic_0a_0 : Die :=
  (({ (({ wc (cmdOf 0x0A 0 0x20048 0xFFFFFFF0 7 5) with homeTs := [(0x20040, (3, 9))], mem := memWrite [] 0x20040 16 0x1122334480000001FFEEDDCC00000003 }).fillLine 0x20040).getDie 0 with held := [0x20040] } : Die).take (lineKey 0x20040)).getD Die.reset

theorem test_wit_atomic_0a_0 :
    AtomicDue at_atomic_0a_0 0 10 (msgOf (cmdOf (10#8) (0#3) 131144 (4294967280#64) (7#64) 5)) (cmdOf (10#8) (0#3) 131144 (4294967280#64) (7#64) 5)
  arg_atomic_0a_0 := by unfold AtomicDue; decide +kernel

def at_atomic_0b_0 : State :=
  { wc (cmdOf 0x0B 0 0x20048 0xFFFFFFF0 7 5) with homeTs := [(0x20040, (3, 9))], mem := memWrite [] 0x20040 16 0x1122334480000001FFEEDDCC00000003 }

def arg_atomic_0b_0 : Die :=
  (({ (({ wc (cmdOf 0x0B 0 0x20048 0xFFFFFFF0 7 5) with homeTs := [(0x20040, (3, 9))], mem := memWrite [] 0x20040 16 0x1122334480000001FFEEDDCC00000003 }).fillLine 0x20040).getDie 0 with held := [0x20040] } : Die).take (lineKey 0x20040)).getD Die.reset

theorem test_wit_atomic_0b_0 :
    AtomicDue at_atomic_0b_0 0 11 (msgOf (cmdOf (11#8) (0#3) 131144 (4294967280#64) (7#64) 5)) (cmdOf (11#8) (0#3) 131144 (4294967280#64) (7#64) 5)
  arg_atomic_0b_0 := by unfold AtomicDue; decide +kernel

def at_atomic_0c_2 : State :=
  { wc (cmdOf 0x0C 2 0x20048 0x3FC03F80 7 5) with homeTs := [(0x20040, (3, 9))], mem := memWrite [] 0x20040 16 0x1122334480000001FFEEDDCC00000003 }

def arg_atomic_0c_2 : Die :=
  (({ (({ wc (cmdOf 0x0C 2 0x20048 0x3FC03F80 7 5) with homeTs := [(0x20040, (3, 9))], mem := memWrite [] 0x20040 16 0x1122334480000001FFEEDDCC00000003 }).fillLine 0x20040).getDie 0 with held := [0x20040] } : Die).take (lineKey 0x20040)).getD Die.reset

theorem test_wit_atomic_0c_2 :
    AtomicDue at_atomic_0c_2 0 12 (msgOf (cmdOf (12#8) (2#3) 131144 (1069563776#64) (7#64) 5)) (cmdOf (12#8) (2#3) 131144 (1069563776#64) (7#64) 5)
  arg_atomic_0c_2 := by unfold AtomicDue; decide +kernel

def at_atomic_8c_2 : State :=
  { wc (cmdOf 0x8C 2 0x20048 0x3FC03F80 7 5) with homeTs := [(0x20040, (3, 9))], mem := memWrite [] 0x20040 16 0x1122334480000001FFEEDDCC00000003 }

def arg_atomic_8c_2 : Die :=
  (({ (({ wc (cmdOf 0x8C 2 0x20048 0x3FC03F80 7 5) with homeTs := [(0x20040, (3, 9))], mem := memWrite [] 0x20040 16 0x1122334480000001FFEEDDCC00000003 }).fillLine 0x20040).getDie 0 with held := [0x20040] } : Die).take (lineKey 0x20040)).getD Die.reset

theorem test_wit_atomic_8c_2 :
    AtomicDue at_atomic_8c_2 0 140 (msgOf (cmdOf (140#8) (2#3) 131144 (1069563776#64) (7#64) 5)) (cmdOf (140#8) (2#3) 131144 (1069563776#64) (7#64) 5)
  arg_atomic_8c_2 := by unfold AtomicDue; decide +kernel

def arg_send_bad : TVal :=
  ⟨2,0⟩

/-! HandlerEmitAndExit -/

theorem test_wit_send_bad :
    guardTrue (wm 0 128 0 (tmp 98296#64 2#64 7#64)).blk 0#4 = true ∧
  (wm 0 128 0 (tmp 98296#64 2#64 7#64)).opnd (wm 0 128 0 (tmp 98296#64 2#64 7#64)).blk (Opnd.reg 1#4) =
      some (arg_send, tmp (98296#64) (2#64) (7#64) Block.blank) ∧
    (wm 0 128 0 (tmp 98296#64 2#64 7#64)).opnd (tmp (98296#64) (2#64) (7#64) Block.blank) (Opnd.reg 2#4) =
        some (arg_send_bad, tmp (98296#64) (2#64) (7#64) Block.blank) ∧
      BitVec.toNat arg_send.data % 8 = 0 ∧
        BitVec.toNat arg_send_bad.data < 2 ^ 15 ∧
          bitsOf (BitVec.toNat arg_send_bad.data) 5 0 ≠ 63 ∧
            bitsOf (BitVec.toNat arg_send_bad.data) 14 12 ≠ 7 ∧
              ((wm 0 128 0 (tmp 98296#64 2#64 7#64)).entry (wm 0 128 0 (tmp 98296#64 2#64 7#64)).cell
                    (bitsOf (BitVec.toNat arg_send_bad.data) 5 0)).takesPacket =
                false := by decide +kernel

def at_tagparent_none : State :=
  wb fun b => { b with lvl := 7, iter := 1 }

/-! HandlerTagsSyncAndClock -/

theorem test_wit_tagparent_none :
    guardTrue at_tagparent_none.blk 0#4 = true ∧ at_tagparent_none.blk.lvl ≠ 0#3 ∧ findTag at_tagparent_none.pool.tags at_tagparent_none.blk.tag = none := by decide +kernel

def at_sync_err : State :=
  (wm 0 0x80 0 (tmp 0x10008 1 7)).modTile 6 fun t => { t with tlb := [e6] }

theorem test_wit_sync_err :
    guardTrue at_sync_err.blk 0#4 = true ∧
  at_sync_err.opnd at_sync_err.blk (Opnd.reg 1#4) = some (arg_sync, tmp (65544#64) (1#64) (7#64) Block.blank) ∧
    at_sync_err.opnd (tmp (65544#64) (1#64) (7#64) Block.blank) (Opnd.reg 2#4) = some (arg_send_4, tmp (65544#64) (1#64) (7#64) Block.blank) ∧
      37#8 = 37#8 ∧
        at_sync_err.reach (cellAgent at_sync_err.cell) (at_sync_err.cellVmid at_sync_err.cell) (BitVec.toNat arg_sync.data)
              (if 0#3 = 0#3 then 8 else 4) (if 0#3 = 0#3 then 8 else 4) Need.rw (syncNeeds 37#8) =
            TRes.ok (leafTarget (241#64) (0#2) 65544) at_sync_err ∧
          at_sync_err.replyOk 1#6 = true ∧ BitVec.toNat arg_send_4.data % 256 ≠ 0 := ⟨by decide +kernel, by decide +kernel, by decide +kernel, by decide +kernel, tres_of _ _ _ (by decide +kernel), by decide +kernel⟩

def at_sync_err0 : State :=
  (wm 0 0x80 0 (tmp 0x10008 0x100 7)).modTile 6 fun t => { t with tlb := [e6] }

def arg_sync_err0 : TVal :=
  ⟨0x100,0⟩

theorem test_wit_sync_err0 :
    guardTrue at_sync_err0.blk 0#4 = true ∧
  at_sync_err0.opnd at_sync_err0.blk (Opnd.reg 1#4) = some (arg_sync, tmp (65544#64) (256#64) (7#64) Block.blank) ∧
    at_sync_err0.opnd (tmp (65544#64) (256#64) (7#64) Block.blank) (Opnd.reg 2#4) = some (arg_sync_err0, tmp (65544#64) (256#64) (7#64) Block.blank) ∧
      37#8 = 37#8 ∧
        at_sync_err0.reach (cellAgent at_sync_err0.cell) (at_sync_err0.cellVmid at_sync_err0.cell) (BitVec.toNat arg_sync.data)
              (if 0#3 = 0#3 then 8 else 4) (if 0#3 = 0#3 then 8 else 4) Need.rw (syncNeeds 37#8) =
            TRes.ok (leafTarget (241#64) (0#2) 65544) at_sync_err0 ∧
          at_sync_err0.replyOk 1#6 = true ∧ BitVec.toNat arg_sync_err0.data % 256 = 0 := ⟨by decide +kernel, by decide +kernel, by decide +kernel, by decide +kernel, tres_of _ _ _ (by decide +kernel), by decide +kernel⟩

theorem test_wit_sync_noreply :
    guardTrue (wm 0 128 0 (tmp 65544#64 1#64 7#64)).blk 0#4 = true ∧
  (wm 0 128 0 (tmp 65544#64 1#64 7#64)).opnd (wm 0 128 0 (tmp 65544#64 1#64 7#64)).blk (Opnd.reg 1#4) =
      some (arg_sync, tmp (65544#64) (1#64) (7#64) Block.blank) ∧
    (wm 0 128 0 (tmp 65544#64 1#64 7#64)).opnd (tmp (65544#64) (1#64) (7#64) Block.blank) (Opnd.reg 2#4) =
        some (arg_send_4, tmp (65544#64) (1#64) (7#64) Block.blank) ∧
      (wm 0 128 0 (tmp 65544#64 1#64 7#64)).reach (cellAgent (wm 0 128 0 (tmp 65544#64 1#64 7#64)).cell)
            ((wm 0 128 0 (tmp 65544#64 1#64 7#64)).cellVmid (wm 0 128 0 (tmp 65544#64 1#64 7#64)).cell) (BitVec.toNat arg_sync.data)
            (if 0#3 = 0#3 then 8 else 4) (if 0#3 = 0#3 then 8 else 4) Need.rw (syncNeeds 1#8) =
          TRes.ok (leafTarget (131265#64) (0#2) 65544) (wm 0 128 0 (tmp 65544#64 1#64 7#64)) ∧
        (wm 0 128 0 (tmp 65544#64 1#64 7#64)).replyOk 5#6 = false := ⟨by decide +kernel, by decide +kernel, by decide +kernel, tres_of _ _ _ (by decide +kernel), by decide +kernel⟩

end Blocks

namespace Phasing


def arg_boxt8_t : TVal :=
  ⟨0x10000,0⟩

def arg_boxt8_t_2 : TVal :=
  ⟨0x4000,0⟩

def at_trit_any : State :=
  wm (1 * 2 ^ 304 + 0x80000000 * 2 ^ 320) 0 0 (tmp 0x10000 0x4000 0)

def at_trit_any_5 : State :=
  lres ((wm (1 * 2 ^ 304 + 0x80000000 * 2 ^ 320) 0 0 (tmp 0x10000 0x4000 0)).hPieces (tmp 0x10000 0x4000 0 Block.blank) 0x10000 3)

/-! HandlerRendering -/

theorem test_wit_trit_any :
    guardTrue at_trit_any.blk 0#4 = true ∧
  at_trit_any.opnd at_trit_any.blk (Opnd.reg 1#4) = some (arg_boxt8_t, tmp (65536#64) (16384#64) (0#64) Block.blank) ∧
    at_trit_any.opnd (tmp (65536#64) (16384#64) (0#64) Block.blank) (Opnd.reg 2#4) =
        some (arg_boxt8_t_2, tmp (65536#64) (16384#64) (0#64) Block.blank) ∧
      (rayOf at_trit_any.rayWindow).check true false (BitVec.toNat arg_boxt8_t.data) (BitVec.toNat arg_boxt8_t_2.data) 16 = none ∧
        at_trit_any.hPieces (tmp (65536#64) (16384#64) (0#64) Block.blank)
              ((BitVec.toNat arg_boxt8_t.data + 48 * bitsOf (rayOf at_trit_any.rayWindow).top 26 0) % 2 ^ 64) 3 =
            LRes.val 0 at_trit_any_5 ∧
          triBad 0 = false ∧
            at_trit_any_5.fit (tmp (65536#64) (16384#64) (0#64) Block.blank) (rayOf at_trit_any.rayWindow) 6
                (rayOf at_trit_any.rayWindow).rest =
              FitRes.ok [] (tmp (65536#64) (16384#64) (0#64) Block.blank) at_trit_any_5 := ⟨by decide +kernel, by decide +kernel, by decide +kernel, by decide +kernel, lres_of _ _ _ (by decide +kernel), by decide +kernel, fit_of _ _ _ _ (by decide +kernel)⟩

theorem test_wit_trit_closest :
    guardTrue at_trit_any.blk 0#4 = true ∧
  at_trit_any.opnd at_trit_any.blk (Opnd.reg 1#4) = some (arg_boxt8_t, tmp (65536#64) (16384#64) (0#64) Block.blank) ∧
    at_trit_any.opnd (tmp (65536#64) (16384#64) (0#64) Block.blank) (Opnd.reg 2#4) =
        some (arg_boxt8_t_2, tmp (65536#64) (16384#64) (0#64) Block.blank) ∧
      (rayOf at_trit_any.rayWindow).check true true (BitVec.toNat arg_boxt8_t.data) (BitVec.toNat arg_boxt8_t_2.data) 16 = none ∧
        at_trit_any.hPieces (tmp (65536#64) (16384#64) (0#64) Block.blank)
              ((BitVec.toNat arg_boxt8_t.data + 48 * bitsOf (rayOf at_trit_any.rayWindow).top 26 0) % 2 ^ 64) 3 =
            LRes.val 0 at_trit_any_5 ∧
          triBad 0 = false ∧
            (rayOf at_trit_any.rayWindow).accepts 0 (triHit (rayOf at_trit_any.rayWindow) 0) = none ∧
              at_trit_any_5.fit (tmp (65536#64) (16384#64) (0#64) Block.blank) (rayOf at_trit_any.rayWindow)
                  (if (some ((rayOf at_trit_any.rayWindow).entry 4, (rayOf at_trit_any.rayWindow).entry 5)).isSome = true then 4 else 6)
                  (rayOf at_trit_any.rayWindow).rest =
                FitRes.ok [] (tmp (65536#64) (16384#64) (0#64) Block.blank) at_trit_any_5 := ⟨by decide +kernel, by decide +kernel, by decide +kernel, by decide +kernel, lres_of _ _ _ (by decide +kernel), by decide +kernel, by decide +kernel, fit_of _ _ _ _ (by decide +kernel)⟩

def at_boxt8_t : State :=
  wm (0x0001 * 2 ^ 304) (2 ^ 120) 0 (tmp 0x10000 0x4000 0)

def at_boxt8_t_3 : State :=
  lres ((wm (0x0001 * 2 ^ 304) (2 ^ 120) 0 (tmp 0x10000 0x4000 0)).hPieces (tmp 0x10000 0x4000 0 Block.blank) 0x10000 8)

theorem test_wit_boxt8_t :
    guardTrue at_boxt8_t.blk 0#4 = true ∧
  at_boxt8_t.opnd at_boxt8_t.blk (Opnd.reg 1#4) = some (arg_boxt8_t, tmp (65536#64) (16384#64) (0#64) Block.blank) ∧
    at_boxt8_t.opnd (tmp (65536#64) (16384#64) (0#64) Block.blank) (Opnd.reg 2#4) =
        some (arg_boxt8_t_2, tmp (65536#64) (16384#64) (0#64) Block.blank) ∧
      (rayOf at_boxt8_t.rayWindow).check false true (BitVec.toNat arg_boxt8_t.data) (BitVec.toNat arg_boxt8_t_2.data) 128 = none ∧
        at_boxt8_t.hPieces (tmp (65536#64) (16384#64) (0#64) Block.blank)
              ((BitVec.toNat arg_boxt8_t.data + 128 * bitsOf (rayOf at_boxt8_t.rayWindow).top 26 0) % 2 ^ 64) 8 =
            LRes.val (2 ^ 120) at_boxt8_t_3 ∧
          nodeBad (2 ^ 120) = false ∧
            at_boxt8_t_3.fit (tmp (65536#64) (16384#64) (0#64) Block.blank) (rayOf at_boxt8_t.rayWindow)
                (if
                    (if true = true then some ((rayOf at_boxt8_t.rayWindow).entry 4, (rayOf at_boxt8_t.rayWindow).entry 5) else none).isSome =
                      true then
                  4
                else 6)
                ((rayOf at_boxt8_t.rayWindow).below ++ List.map (childEntry (2 ^ 120)) (boxOrder (2 ^ 120) (rayOf at_boxt8_t.rayWindow)).reverse) =
              FitRes.ok [0] (tmp (65536#64) (16384#64) (0#64) Block.blank) at_boxt8_t_3 := ⟨by decide +kernel, by decide +kernel, by decide +kernel, by decide +kernel, lres_of _ _ _ (by decide +kernel), by decide +kernel, fit_of _ _ _ _ (by decide +kernel)⟩

theorem test_wit_boxt8_f :
    guardTrue at_boxt8_t.blk 0#4 = true ∧
  at_boxt8_t.opnd at_boxt8_t.blk (Opnd.reg 1#4) = some (arg_boxt8_t, tmp (65536#64) (16384#64) (0#64) Block.blank) ∧
    at_boxt8_t.opnd (tmp (65536#64) (16384#64) (0#64) Block.blank) (Opnd.reg 2#4) =
        some (arg_boxt8_t_2, tmp (65536#64) (16384#64) (0#64) Block.blank) ∧
      (rayOf at_boxt8_t.rayWindow).check false false (BitVec.toNat arg_boxt8_t.data) (BitVec.toNat arg_boxt8_t_2.data) 128 = none ∧
        at_boxt8_t.hPieces (tmp (65536#64) (16384#64) (0#64) Block.blank)
              ((BitVec.toNat arg_boxt8_t.data + 128 * bitsOf (rayOf at_boxt8_t.rayWindow).top 26 0) % 2 ^ 64) 8 =
            LRes.val (2 ^ 120) at_boxt8_t_3 ∧
          nodeBad (2 ^ 120) = false ∧
            at_boxt8_t_3.fit (tmp (65536#64) (16384#64) (0#64) Block.blank) (rayOf at_boxt8_t.rayWindow)
                (if
                    (if false = true then some ((rayOf at_boxt8_t.rayWindow).entry 4, (rayOf at_boxt8_t.rayWindow).entry 5) else none).isSome =
                      true then
                  4
                else 6)
                ((rayOf at_boxt8_t.rayWindow).below ++ List.map (childEntry (2 ^ 120)) (boxOrder (2 ^ 120) (rayOf at_boxt8_t.rayWindow)).reverse) =
              FitRes.ok [0] (tmp (65536#64) (16384#64) (0#64) Block.blank) at_boxt8_t_3 := ⟨by decide +kernel, by decide +kernel, by decide +kernel, by decide +kernel, lres_of _ _ _ (by decide +kernel), by decide +kernel, fit_of _ _ _ _ (by decide +kernel)⟩

def at_atomic_0d_3 : State :=
  { wc (cmdOf 0x0D 3 0x20048 0x3FC03F80 7 5) with homeTs := [(0x20040, (3, 9))], mem := memWrite [] 0x20040 16 0x1122334480000001FFEEDDCC00000003 }

def arg_atomic_0d_3 : Die :=
  (({ (({ wc (cmdOf 0x0D 3 0x20048 0x3FC03F80 7 5) with homeTs := [(0x20040, (3, 9))], mem := memWrite [] 0x20040 16 0x1122334480000001FFEEDDCC00000003 }).fillLine 0x20040).getDie 0 with held := [0x20040] } : Die).take (lineKey 0x20040)).getD Die.reset

/-! ConcordanceAtomics -/

theorem test_wit_atomic_0d_3 :
    AtomicDue at_atomic_0d_3 0 13 (msgOf (cmdOf (13#8) (3#3) 131144 (1069563776#64) (7#64) 5)) (cmdOf (13#8) (3#3) 131144 (1069563776#64) (7#64) 5)
  arg_atomic_0d_3 := by unfold AtomicDue; decide +kernel

def at_atomic_8d_3 : State :=
  { wc (cmdOf 0x8D 3 0x20048 0x3FC03F80 7 5) with homeTs := [(0x20040, (3, 9))], mem := memWrite [] 0x20040 16 0x1122334480000001FFEEDDCC00000003 }

def arg_atomic_8d_3 : Die :=
  (({ (({ wc (cmdOf 0x8D 3 0x20048 0x3FC03F80 7 5) with homeTs := [(0x20040, (3, 9))], mem := memWrite [] 0x20040 16 0x1122334480000001FFEEDDCC00000003 }).fillLine 0x20040).getDie 0 with held := [0x20040] } : Die).take (lineKey 0x20040)).getD Die.reset

theorem test_wit_atomic_8d_3 :
    AtomicDue at_atomic_8d_3 0 141 (msgOf (cmdOf (141#8) (3#3) 131144 (1069563776#64) (7#64) 5)) (cmdOf (141#8) (3#3) 131144 (1069563776#64) (7#64) 5)
  arg_atomic_8d_3 := by unfold AtomicDue; decide +kernel

/-! PhaserCommands -/

theorem test_wit_phreg :
    PhDue (wp (phc 32#8 1#64) ph0) 0 0 32 (msgOf (phc 32#8 1#64)) (phc 32#8 1#64) ph0 ∧
  ph0.member (msgOf (phc 32#8 1#64)).agent = none ∧ BitVec.toNat (phc 32#8 1#64).a = 1 ∧ ph0.nsig.toNat + ph0.nsw.toNat ≠ 0 := ⟨by unfold PhDue CmdDue; decide +kernel, by decide +kernel⟩

def at_phreg_twice : State :=
  wp (phc 0x20 1) ({ ph0 with members := [mem0 1] })

def arg_phreg_twice : Phaser :=
  { ph0 with members := [mem0 1] }

theorem test_wit_phreg_twice :
    PhDue at_phreg_twice 0 0 32 (msgOf (phc 32#8 1#64)) (phc 32#8 1#64) arg_phreg_twice ∧
  (arg_phreg_twice.member (msgOf (phc 32#8 1#64)).agent).isSome = true := ⟨by unfold PhDue CmdDue; decide +kernel, by decide +kernel⟩

def at_phdrop : State :=
  wp (phc 0x21 1) ({ ph0 with members := [mem0 2] })

def arg_phdrop : Phaser :=
  { ph0 with members := [mem0 2] }

theorem test_wit_phdrop :
    PhDue at_phdrop 0 0 33 (msgOf (phc 33#8 1#64)) (phc 33#8 1#64) arg_phdrop ∧
  arg_phdrop.member (msgOf (phc 33#8 1#64)).agent = some (mem0 2#2) ∧ (mem0 2#2).dropAt = none ∧ (mem0 2#2).mode = 2#2 := ⟨by unfold PhDue CmdDue; decide +kernel, by decide +kernel⟩

theorem test_wit_phdrop_none :
    PhDue (wp (phc 33#8 1#64) ph0) 0 0 33 (msgOf (phc 33#8 1#64)) (phc 33#8 1#64) ph0 ∧ ph0.member (msgOf (phc 33#8 1#64)).agent = none := ⟨by unfold PhDue CmdDue; decide +kernel, by decide +kernel⟩

def at_phsig : State :=
  wp (phc 0x22 0x500000000) ({ ph0 with members := [mem0 1] })

theorem test_wit_phsig :
    PhDue at_phsig 0 0 34 (msgOf (phc 34#8 21474836480#64)) (phc 34#8 21474836480#64) arg_phreg_twice ∧
  arg_phreg_twice.bind (msgOf (phc 34#8 21474836480#64)).agent true false = some arg_phreg_twice ∧
    arg_phreg_twice.member (msgOf (phc 34#8 21474836480#64)).agent = some (mem0 1#2) ∧ (mem0 1#2).next = arg_phreg_twice.phase := ⟨by unfold PhDue CmdDue; decide +kernel, by decide +kernel⟩

def at_phsig_none : State :=
  wp (phc 0x22 1) ({ ph0 with members := [mem0 2] })

theorem test_wit_phsig_none :
    PhDue at_phsig_none 0 0 34 (msgOf (phc 34#8 1#64)) (phc 34#8 1#64) arg_phdrop ∧ arg_phdrop.bind (msgOf (phc 34#8 1#64)).agent true false = none := ⟨by unfold PhDue CmdDue; decide +kernel, by decide +kernel⟩

def at_phwait : State :=
  wp (phc 0x23 0) ({ ph0 with members := [mem0 2] })

theorem test_wit_phwait :
    PhDue at_phwait 0 0 35 (msgOf (phc 35#8 0#64)) (phc 35#8 0#64) arg_phdrop ∧ arg_phdrop.bind (msgOf (phc 35#8 0#64)).agent false true = some arg_phdrop := ⟨by unfold PhDue CmdDue; decide +kernel, by decide +kernel⟩

def at_phwait_none : State :=
  wp (phc 0x23 1) ({ ph0 with members := [mem0 1] })

theorem test_wit_phwait_none :
    PhDue at_phwait_none 0 0 35 (msgOf (phc 35#8 1#64)) (phc 35#8 1#64) arg_phreg_twice ∧
  arg_phreg_twice.bind (msgOf (phc 35#8 1#64)).agent false true = none := ⟨by unfold PhDue CmdDue; decide +kernel, by decide +kernel⟩

def at_phsw : State :=
  wp (phc 0x24 0x500000000) ({ ph0 with members := [mem0 3] })

def arg_phsw : Phaser :=
  { ph0 with members := [mem0 3] }

theorem test_wit_phsw :
    PhDue at_phsw 0 0 36 (msgOf (phc 36#8 21474836480#64)) (phc 36#8 21474836480#64) arg_phsw ∧
  arg_phsw.bind (msgOf (phc 36#8 21474836480#64)).agent true true = some arg_phsw ∧
    arg_phsw.member (msgOf (phc 36#8 21474836480#64)).agent = some (mem0 3#2) ∧ (mem0 3#2).next = arg_phsw.phase := ⟨by unfold PhDue CmdDue; decide +kernel, by decide +kernel⟩

theorem test_wit_pherr :
    PhDue (wp (phc 37#8 7#64) ph0) 0 0 37 (msgOf (phc 37#8 7#64)) (phc 37#8 7#64) ph0 := by unfold PhDue CmdDue; decide +kernel

theorem test_wit_phread :
    PhDue (wp (phc 38#8 0#64) ph0) 0 0 38 (msgOf (phc 38#8 0#64)) (phc 38#8 0#64) ph0 ∧ (phc 38#8 0#64).reply ≠ ReplyTo.none := ⟨by unfold PhDue CmdDue; decide +kernel, by decide +kernel⟩

theorem test_wit_phsig_missing :
    CmdDue (wc (phc 34#8 1#64)) 0 0 34 (msgOf (phc 34#8 1#64)) (phc 34#8 1#64) ∧
  (syncPlace (phc 34#8 1#64).addr).2 < 2147483648 ∧ smFind ((wc (phc 34#8 1#64)).getDie 0).phasers (syncPlace (phc 34#8 1#64).addr).2 = none := ⟨by unfold CmdDue; decide +kernel, by decide +kernel⟩

/-! PhaseCompletes -/

theorem test_wit_completes :
    ∀ m ∈ arg_phsw.members, m.dropAt ≠ some arg_phsw.phase ∧ m.held = none := by decide +kernel

def at_phsw_sig : State :=
  wp (phc 0x24 0x500000000) ({ ph0 with members := [mem0 1] })

/-! PhaserCommands -/

theorem test_wit_phsw_sig :
    PhDue at_phsw_sig 0 0 36 (msgOf (phc 36#8 21474836480#64)) (phc 36#8 21474836480#64) arg_phreg_twice ∧
  arg_phreg_twice.bind (msgOf (phc 36#8 21474836480#64)).agent true true = none ∧
    arg_phreg_twice.bind (msgOf (phc 36#8 21474836480#64)).agent true false = some arg_phreg_twice ∧
      arg_phreg_twice.member (msgOf (phc 36#8 21474836480#64)).agent = some (mem0 1#2) ∧ (mem0 1#2).next = arg_phreg_twice.phase := ⟨by unfold PhDue CmdDue; decide +kernel, by decide +kernel⟩

end Phasing

namespace Lanes

def A0 : Nat := 3325764857622527775126294255228814950936276476596577216155224447627236704093591745448153753968034060431968072541642300101009519411251402932891606897917951
def B0 : Nat := 13407807926820848553255651295662740955542717385736877350504481733235843308057727210879940574469219023348173018146913114544298224868985045652517847155343360

def at_40_0_1 : State :=
  wv 2 (stw 0x40 0 0 2 1 3 1 0 5) (fl 0 0 A0) (fl 0 2 B0)

/-! IntegerStages -/

theorem test_wit_stage_40_0_1 :
    StageDue at_40_0_1 0 2 64 := due_of _ _ _ _ (by decide +kernel)

def at_60_0_2 : State :=
  wv 3 (stw 0x60 0 0 2 1 3 1 0 5) (fl 0 0 A0) (fl 0 2 B0)

theorem test_wit_stage_60_0_2 :
    StageDue at_60_0_2 0 3 96 := due_of _ _ _ _ (by decide +kernel)

def at_85_0_3 : State :=
  wv 4 (stw 0x85 0 0 2 1 3 1 0 5) (fl 0 0 A0) (fl 0 2 B0)

theorem test_wit_stage_85_0_3 :
    StageDue at_85_0_3 0 4 133 := due_of _ _ _ _ (by decide +kernel)

def at_c0_0_4 : State :=
  wv 6 (stw 0xC0 0 0 2 1 3 1 0 5) (fl 0 0 A0) (fl 0 2 B0)

theorem test_wit_stage_c0_0_4 :
    StageDue at_c0_0_4 0 6 192 := due_of _ _ _ _ (by decide +kernel)

def at_41_0_9 : State :=
  wv 2 (stw 0x41 0 0 2 1 0 1 0 4294967287) (fl 0 0 A0) (fl 0 2 B0)

theorem test_wit_stage_41_0_9 :
    StageDue at_41_0_9 0 2 65 := due_of _ _ _ _ (by decide +kernel)

def at_61_0_10 : State :=
  wv 3 (stw 0x61 0 0 2 1 0 1 0 4294967287) (fl 0 0 A0) (fl 0 2 B0)

theorem test_wit_stage_61_0_10 :
    StageDue at_61_0_10 0 3 97 := due_of _ _ _ _ (by decide +kernel)

def at_80_0_11 : State :=
  wv 4 (stw 0x80 0 0 2 1 0 1 0 7) (fl 0 0 A0) (fl 0 2 B0)

theorem test_wit_stage_80_0_11 :
    StageDue at_80_0_11 0 4 128 := due_of _ _ _ _ (by decide +kernel)

def at_81_0_13 : State :=
  wv 4 (stw 0x81 0 0 2 1 0 1 0 7) (fl 0 0 A0) (fl 0 2 B0)

theorem test_wit_stage_81_0_13 :
    StageDue at_81_0_13 0 4 129 := due_of _ _ _ _ (by decide +kernel)

def at_82_0_15 : State :=
  wv 4 (stw 0x82 0 0 2 1 0 1 0 7) (fl 0 0 A0) (fl 0 2 B0)

theorem test_wit_stage_82_0_15 :
    StageDue at_82_0_15 0 4 130 := due_of _ _ _ _ (by decide +kernel)

def at_83_0_17 : State :=
  wv 4 (stw 0x83 0 0 2 1 0 1 0 3) (fl 0 0 A0) (fl 0 2 B0)

theorem test_wit_stage_83_0_17 :
    StageDue at_83_0_17 0 4 131 := due_of _ _ _ _ (by decide +kernel)

def at_84_0_20 : State :=
  wv 4 (stw 0x84 0 0 2 1 3 1 0 0) (fl 0 0 A0) (fl 0 2 B0)

theorem test_wit_stage_84_0_20 :
    StageDue at_84_0_20 0 4 132 := due_of _ _ _ _ (by decide +kernel)

def at_87_0_21 : State :=
  wv 4 (stw 0x87 0 0 2 1 0 1 0 1114096) (fl 0 0 A0) (fl 0 2 B0)

theorem test_wit_stage_87_0_21 :
    StageDue at_87_0_21 0 4 135 := due_of _ _ _ _ (by decide +kernel)

def at_42_2_85 : State :=
  wv 2 (stw 0x42 2 0 0 1 3 1 0 0) (fl 2 0 A0) (fl 2 2 B0)

/-! FloatingStages -/

theorem test_wit_stage_42_2_85 :
    StageDue at_42_2_85 0 2 66 := due_of _ _ _ _ (by decide +kernel)

def at_62_2_86 : State :=
  wv 3 (stw 0x62 2 0 0 1 3 1 0 0) (fl 2 0 A0) (fl 2 2 B0)

theorem test_wit_stage_62_2_86 :
    StageDue at_62_2_86 0 3 98 := due_of _ _ _ _ (by decide +kernel)

def at_86_2_87 : State :=
  wv 4 (stw 0x86 2 0 0 1 3 1 0 0) (fl 2 0 A0) (fl 2 2 B0)

theorem test_wit_stage_86_2_87 :
    StageDue at_86_2_87 0 4 134 := due_of _ _ _ _ (by decide +kernel)

def at_43_2_88 : State :=
  wv 2 (stw 0x43 2 0 0 1 0 1 0 1078530011) (fl 2 0 A0) (fl 2 2 B0)

theorem test_wit_stage_43_2_88 :
    StageDue at_43_2_88 0 2 67 := due_of _ _ _ _ (by decide +kernel)

def at_63_2_89 : State :=
  wv 3 (stw 0x63 2 0 0 1 0 1 0 1078530011) (fl 2 0 A0) (fl 2 2 B0)

theorem test_wit_stage_63_2_89 :
    StageDue at_63_2_89 0 3 99 := due_of _ _ _ _ (by decide +kernel)

def at_88_2_90 : State :=
  wv 4 (stw 0x88 2 0 0 1 0 1 0 1073790848) (fl 2 0 A0) (fl 2 2 B0)

theorem test_wit_stage_88_2_90 :
    StageDue at_88_2_90 0 4 136 := due_of _ _ _ _ (by decide +kernel)

def at_a1_2_91 : State :=
  wv 5 (stw 0xA1 2 0 0 1 0 1 0 0) (fl 2 0 A0) (fl 2 2 B0)

theorem test_wit_stage_a1_2_91 :
    StageDue at_a1_2_91 0 5 161 := due_of _ _ _ _ (by decide +kernel)

def at_a2_2_92 : State :=
  wv 5 (stw 0xA2 2 0 0 1 0 1 0 1036831949) (fl 2 0 A0) (fl 2 2 B0)

theorem test_wit_stage_a2_2_92 :
    StageDue at_a2_2_92 0 5 162 := due_of _ _ _ _ (by decide +kernel)

def at_a4_2_109 : State :=
  wv 5 (stw 0xA4 2 0 0 1 0 1 0 0) (fl 2 0 A0) (fl 2 2 B0)

theorem test_wit_stage_a4_2_109 :
    StageDue at_a4_2_109 0 5 164 := due_of _ _ _ _ (by decide +kernel)

def at_a5_2_110 : State :=
  wv 5 (stw 0xA5 2 0 0 1 0 1 0 0) (fl 2 0 A0) (fl 2 2 B0)

theorem test_wit_stage_a5_2_110 :
    StageDue at_a5_2_110 0 5 165 := due_of _ _ _ _ (by decide +kernel)

def at_a6_2_111 : State :=
  wv 5 (stw 0xA6 2 0 0 1 0 1 0 0) (fl 2 0 A0) (fl 2 2 B0)

theorem test_wit_stage_a6_2_111 :
    StageDue at_a6_2_111 0 5 166 := due_of _ _ _ _ (by decide +kernel)

def at_a7_2_112 : State :=
  wv 5 (stw 0xA7 2 0 0 1 0 1 0 0) (fl 2 0 A0) (fl 2 2 B0)

theorem test_wit_stage_a7_2_112 :
    StageDue at_a7_2_112 0 5 167 := due_of _ _ _ _ (by decide +kernel)

end Lanes

namespace Flits

def A0 : Nat := 3325764857622527775126294255228814950936276476596577216155224447627236704093591745448153753968034060431968072541642300101009519411251402932891606897917951
def B0 : Nat := 13407807926820848553255651295662740955542717385736877350504481733235843308057727210879940574469219023348173018146913114544298224868985045652517847155343360

/-! WholeFlitStages -/

theorem test_wit_empty2 :
    2 ≤ 2 ∧
  2 ≤ 6 ∧
    ¬((2 = 3 ∨ 2 = 4) ∧ 224 ≤ (stageF (((wv 2 (0#64) (fl 2 (0#3) A0) (fl 2 (2#3) B0)).cp 0).stage 2)).op) ∧
      StageDue (wv 2 (0#64) (fl 2 (0#3) A0) (fl 2 (2#3) B0)) 0 2 0 := ⟨by decide +kernel, by decide +kernel, by decide +kernel, due_of _ _ _ _ (by decide +kernel)⟩

theorem test_wit_empty3 :
    2 ≤ 3 ∧
  3 ≤ 6 ∧
    ¬((3 = 3 ∨ 3 = 4) ∧ 224 ≤ (stageF (((wv 3 (0#64) (fl 2 (0#3) A0) (fl 2 (2#3) B0)).cp 0).stage 2)).op) ∧
      StageDue (wv 3 (0#64) (fl 2 (0#3) A0) (fl 2 (2#3) B0)) 0 3 0 := ⟨by decide +kernel, by decide +kernel, by decide +kernel, due_of _ _ _ _ (by decide +kernel)⟩

theorem test_wit_empty4 :
    2 ≤ 4 ∧
  4 ≤ 6 ∧
    ¬((4 = 3 ∨ 4 = 4) ∧ 224 ≤ (stageF (((wv 4 (0#64) (fl 2 (0#3) A0) (fl 2 (2#3) B0)).cp 0).stage 2)).op) ∧
      StageDue (wv 4 (0#64) (fl 2 (0#3) A0) (fl 2 (2#3) B0)) 0 4 0 := ⟨by decide +kernel, by decide +kernel, by decide +kernel, due_of _ _ _ _ (by decide +kernel)⟩

theorem test_wit_empty5 :
    2 ≤ 5 ∧
  5 ≤ 6 ∧
    ¬((5 = 3 ∨ 5 = 4) ∧ 224 ≤ (stageF (((wv 5 (0#64) (fl 2 (0#3) A0) (fl 2 (2#3) B0)).cp 0).stage 2)).op) ∧
      StageDue (wv 5 (0#64) (fl 2 (0#3) A0) (fl 2 (2#3) B0)) 0 5 0 := ⟨by decide +kernel, by decide +kernel, by decide +kernel, due_of _ _ _ _ (by decide +kernel)⟩

theorem test_wit_empty6 :
    2 ≤ 6 ∧
  6 ≤ 6 ∧
    ¬((6 = 3 ∨ 6 = 4) ∧ 224 ≤ (stageF (((wv 6 (0#64) (fl 2 (0#3) A0) (fl 2 (2#3) B0)).cp 0).stage 2)).op) ∧
      StageDue (wv 6 (0#64) (fl 2 (0#3) A0) (fl 2 (2#3) B0)) 0 6 0 := ⟨by decide +kernel, by decide +kernel, by decide +kernel, due_of _ _ _ _ (by decide +kernel)⟩

def at_pass : State :=
  wv 1 (stw 0x20 2 0 0 2 0 1 0 0) (fl 2 0 A0) (fl 2 2 B0)

theorem test_wit_pass :
    StageDue at_pass 0 1 32 ∧ ((at_pass.cp 0).stageFields 1).srcB = 0 := ⟨due_of _ _ _ _ (by decide +kernel), by decide +kernel⟩

def at_pass_row : State :=
  wv 1 (stw 0x20 2 0 0 2 3 1 0 3) (fl 2 0 A0) (fl 2 2 B0)

theorem test_wit_pass_row :
    StageReady at_pass_row 0 1 32 ∧
  ((at_pass_row.cp 0).stageFields 1).srcB ≠ 0 ∧
    (at_pass_row.cp 0).row.group = 0 ∧
      at_pass_row.head 0 1 true = Head.flit (fl 2 (2#3) B0) ∧
        (at_pass_row.head 0 1 false).beat = false ∧
          (fl 2 (2#3) B0).beat = false ∧ (fl 2 (2#3) B0).isSide = false ∧ (at_pass_row.cp 0).needsConv 1 true (fl 2 (2#3) B0) = false := ⟨by unfold StageReady; decide +kernel, by decide +kernel⟩

def at_cvt : State :=
  wv 1 (stw 0x21 2 0 0 2 0 1 0 0) (fl 3 0 A0) (fl 2 2 B0)

theorem test_wit_cvt :
    StageDue at_cvt 0 1 33 ∧ (opA at_cvt 0 1).tag ≠ 7 := ⟨due_of _ _ _ _ (by decide +kernel), by decide +kernel⟩

def at_cvt_q4 : State :=
  wv 1 (stw 0x21 2 0 0 2 0 1 0 0) (fl 7 0 A0) (fl 2 2 B0)

theorem test_wit_cvt_q4 :
    StageDue at_cvt_q4 0 1 33 ∧ (opA at_cvt_q4 0 1).tag = 7 := ⟨due_of _ _ _ _ (by decide +kernel), by decide +kernel⟩

def at_shuf : State :=
  wv 1 (stw 0x25 1 0 0 2 0 1 0 53) (fl 1 0 A0) (fl 1 2 B0)

theorem test_wit_shuf :
    StageDue at_shuf 0 1 37 := due_of _ _ _ _ (by decide +kernel)

def at_bcast : State :=
  wv 1 (stw 0x26 1 0 0 2 0 1 0 15) (fl 1 0 A0) (fl 1 2 B0)

theorem test_wit_bcast :
    StageDue at_bcast 0 1 38 := due_of _ _ _ _ (by decide +kernel)

def at_64_1_71 : State :=
  wv 3 (stw 0x64 1 0 3 1 0 1 0 517) (fl 1 0 A0) (fl 1 2 B0)

theorem test_wit_acc :
    StageDue at_64_1_71 0 3 100 ∧
  (smGet { count := 0, stuck := 0#16 } ((stageTook at_64_1_71 0 3).cp 0).accs (((at_64_1_71.cp 0).stageFields 3).k % 256)).count + 1 <
      ((at_64_1_71.cp 0).stageFields 3).k / 256 % 2 ^ 16 ∧
    markMax (opA at_64_1_71 0 3).mark (markB at_64_1_71 0 3) = 0#3 := ⟨due_of _ _ _ _ (by decide +kernel), by decide +kernel⟩

def at_64_1_72 : State :=
  wv 3 (stw 0x64 1 0 3 1 0 1 0 261) (fl 1 0 A0) (fl 1 2 B0)

theorem test_wit_acc_full :
    StageDue at_64_1_72 0 3 100 ∧
  (((at_64_1_72.cp 0).stageFields 3).k / 256 % 2 ^ 16 ≤
      (smGet { count := 0, stuck := 0#16 } ((stageTook at_64_1_72 0 3).cp 0).accs (((at_64_1_72.cp 0).stageFields 3).k % 256)).count + 1 ∨
    markMax (opA at_64_1_72 0 3).mark (markB at_64_1_72 0 3) ≠ 0#3) := ⟨due_of _ _ _ _ (by decide +kernel), by decide +kernel⟩

def at_facc : State :=
  wv 3 (stw 0x65 2 0 0 1 0 1 0 517) (fl 2 0 A0) (fl 2 2 B0)

theorem test_wit_facc :
    StageDue at_facc 0 3 101 ∧
  (smGet { count := 0, stuck := 0#16 } ((stageTook at_facc 0 3).cp 0).accs (((at_facc.cp 0).stageFields 3).k % 256)).count + 1 <
      ((at_facc.cp 0).stageFields 3).k / 256 % 2 ^ 16 ∧
    markMax (opA at_facc 0 3).mark (markB at_facc 0 3) = 0#3 := ⟨due_of _ _ _ _ (by decide +kernel), by decide +kernel⟩

def at_facc_mark : State :=
  wv 3 (stw 0x65 2 0 0 1 0 1 0 773) (fl 2 2 A0) (fl 2 2 B0)

theorem test_wit_facc_mark :
    StageDue at_facc_mark 0 3 101 ∧
  (((at_facc_mark.cp 0).stageFields 3).k / 256 % 2 ^ 16 ≤
      (smGet { count := 0, stuck := 0#16 } ((stageTook at_facc_mark 0 3).cp 0).accs (((at_facc_mark.cp 0).stageFields 3).k % 256)).count + 1 ∨
    markMax (opA at_facc_mark 0 3).mark (markB at_facc_mark 0 3) ≠ 0#3) := ⟨due_of _ _ _ _ (by decide +kernel), by decide +kernel⟩

def at_66_1_105 : State :=
  wv 3 (stw 0x66 1 0 3 1 0 1 0 0) (fl 1 0 A0) (fl 1 2 B0)

theorem test_wit_rsum :
    StageDue at_66_1_105 0 3 102 := due_of _ _ _ _ (by decide +kernel)

def at_67_1_106 : State :=
  wv 3 (stw 0x67 1 0 3 1 0 1 0 0) (fl 1 0 A0) (fl 1 2 B0)

theorem test_wit_rmax :
    StageDue at_67_1_106 0 3 103 := due_of _ _ _ _ (by decide +kernel)

def at_68_2_109 : State :=
  wv 3 (stw 0x68 2 0 0 1 0 1 0 0) (fl 2 0 A0) (fl 2 2 B0)

theorem test_wit_frsum :
    StageDue at_68_2_109 0 3 104 := due_of _ _ _ _ (by decide +kernel)

def at_69_2_114 : State :=
  wv 3 (stw 0x69 2 0 0 1 0 1 0 0) (fl 2 0 A0) (fl 2 2 B0)

theorem test_wit_frmax :
    StageDue at_69_2_114 0 3 105 := due_of _ _ _ _ (by decide +kernel)

def at_sel : State :=
  wv 5 (stw 0xA3 2 0 0 1 3 1 1 0) (fl 2 0 A0) (fl 2 2 B0)

theorem test_wit_sel :
    StageDue at_sel 0 5 163 := due_of _ _ _ _ (by decide +kernel)

def at_route : State :=
  wv 6 (stw 0xC2 2 0 0 1 0 1 0 0) (fl 2 0 A0) (fl 2 2 B0)

theorem test_wit_route :
    StageDue at_route 0 6 194 := due_of _ _ _ _ (by decide +kernel)

def at_store : State :=
  (wv 6 (stw 0xC3 2 0 0 1 0 1 0 32639) (fl 2 0 A0) (fl 2 2 B0)).modCp 0 fun p => { p with storeN := 3 }

theorem test_wit_store :
    StageDue at_store 0 6 195 := due_of _ _ _ _ (by decide +kernel)

def at_pack : State :=
  wv 6 (stw 0xC1 0 0 0 1 0 1 0 2) (fl 2 0 A0) (fl 0 2 B0)

theorem test_wit_pack :
    StageDue at_pack 0 6 193 := due_of _ _ _ _ (by decide +kernel)

def at_c4_2_161 : State :=
  wv 6 (stw 0xC4 2 0 0 1 0 1 0 0) (fl 2 0 A0) (fl 2 2 B0)

theorem test_wit_qpack :
    StageDue at_c4_2_161 0 6 196 := due_of _ _ _ _ (by decide +kernel)

def at_side : State :=
  wv 2 (stw 0x40 2 0 0 1 3 1 0 0) (fl 2 4 A0) (fl 2 2 B0)

theorem test_wit_side :
    StageReady at_side 0 2 64 ∧ at_side.head 0 2 false = Head.flit (fl 2 (4#3) A0) ∧ (fl 2 (4#3) A0).isSide = true := ⟨by unfold StageReady; decide +kernel, by decide +kernel⟩

def at_pend : State :=
  (wv 1 (stw 0x21 2 0 0 2 0 1 0 0) (fl 2 0 A0) (fl 2 2 B0)).modCp 0 fun p => { p with pend := [(1, [(fl 2 2 7, 0)])] }

theorem test_wit_pend :
    (Instr.stageCvt 0, 1, 33) ∈ [(Instr.stageCvt 0, 1, 33), (Instr.stagePass 0, 1, 32), (Instr.stagePack 0, 6, 193), (Instr.stageQpack 0, 6, 196)] ∧
  at_pend.stageRuns 0 1 33 = true ∧ (at_pend.cp 0).dstFree 1 = true ∧ smGet [] (at_pend.cp 0).pend 1 = [(fl 2 (2#3) 7, 0)] := by decide +kernel

def at_pend_pack : State :=
  (wv 6 (stw 0xC1 0 0 0 1 0 1 0 2) (fl 2 0 A0) (fl 0 2 B0)).modCp 0 fun p => { p with pend := [(6, [(fl 0 0 7, 0), (fl 0 2 0, 0)])] }

theorem test_wit_pend_pack :
    (Instr.stagePack 0, 6, 193) ∈ [(Instr.stageCvt 0, 1, 33), (Instr.stagePass 0, 1, 32), (Instr.stagePack 0, 6, 193), (Instr.stageQpack 0, 6, 196)] ∧
  at_pend_pack.stageRuns 0 6 193 = true ∧
    (at_pend_pack.cp 0).dstFree 6 = true ∧ smGet [] (at_pend_pack.cp 0).pend 6 = [(fl 0 (0#3) 7, 0), (fl 0 (2#3) 0, 0)] := by decide +kernel

end Flits

namespace Rows

def A0 : Nat := 3325764857622527775126294255228814950936276476596577216155224447627236704093591745448153753968034060431968072541642300101009519411251402932891606897917951
def B0 : Nat := 13407807926820848553255651295662740955542717385736877350504481733235843308057727210879940574469219023348173018146913114544298224868985045652517847155343360

def at_stageUnpk3 : State :=
  ((wv 1 (stw 0x22 0 0 0 2 0 1 1 256) (fl 7 0 A0) (fl 0 2 B0)).modCp 0 fun p => { p with row := { p.row with held := some (fl 7 0 A0), bit := 0, side := some (fl 2 4 A0) } })

/-! BitStreamStages -/

theorem test_wit_stageUnpk3 :
    (Instr.stageUnpk3 0, 34) ∈ [(Instr.stageUnpk3 0, 34), (Instr.stageUnpk4 0, 35), (Instr.stageLut8 0, 36), (Instr.stageUnpkq 0, 40)] ∧
  StageReady at_stageUnpk3 0 1 34 ∧
    (at_stageUnpk3.cp 0).needsSide ((at_stageUnpk3.cp 0).stageFields 1) = false ∧ codeWidth 34 ≤ (at_stageUnpk3.cp 0).row.left := ⟨by decide +kernel, by unfold StageReady; decide +kernel, by decide +kernel⟩

def at_stageUnpk3_takes : State :=
  (wv 1 (stw 0x22 0 0 0 2 0 1 1 256) (fl 7 0 A0) (fl 0 2 B0))

theorem test_wit_stageUnpk3_takes :
    (Instr.stageUnpk3 0, 34) ∈ [(Instr.stageUnpk3 0, 34), (Instr.stageUnpk4 0, 35), (Instr.stageLut8 0, 36), (Instr.stageUnpkq 0, 40)] ∧
  StageReady at_stageUnpk3_takes 0 1 34 ∧
    (at_stageUnpk3_takes.cp 0).needsSide ((at_stageUnpk3_takes.cp 0).stageFields 1) = false ∧
      (at_stageUnpk3_takes.cp 0).row.left < codeWidth 34 ∧
        at_stageUnpk3_takes.head 0 1 false = Head.flit (fl 7 (0#3) A0) ∧
          (fl 7 (0#3) A0).beat = false ∧ (at_stageUnpk3_takes.cp 0).needsConv 1 false (fl 7 (0#3) A0) = false ∧ (fl 7 (0#3) A0).isSide = false := ⟨by decide +kernel, by unfold StageReady; decide +kernel, by decide +kernel⟩

def at_stageUnpk3_side : State :=
  (wv 1 (stw 0x22 0 0 0 2 0 1 1 256) (fl 7 4 A0) (fl 0 2 B0))

theorem test_wit_stageUnpk3_side :
    (Instr.stageUnpk3 0, 34) ∈ [(Instr.stageUnpk3 0, 34), (Instr.stageUnpk4 0, 35), (Instr.stageLut8 0, 36), (Instr.stageUnpkq 0, 40)] ∧
  StageReady at_stageUnpk3_side 0 1 34 ∧
    (at_stageUnpk3_side.cp 0).needsSide ((at_stageUnpk3_side.cp 0).stageFields 1) = false ∧
      (at_stageUnpk3_side.cp 0).row.left < codeWidth 34 ∧
        at_stageUnpk3_side.head 0 1 false = Head.flit (fl 7 (4#3) A0) ∧
          (fl 7 (4#3) A0).beat = false ∧ (at_stageUnpk3_side.cp 0).needsConv 1 false (fl 7 (4#3) A0) = false ∧ (fl 7 (4#3) A0).isSide = true := ⟨by decide +kernel, by unfold StageReady; decide +kernel, by decide +kernel⟩

def at_stageUnpk4 : State :=
  ((wv 1 (stw 0x23 0 0 0 2 0 1 1 256) (fl 7 0 A0) (fl 0 2 B0)).modCp 0 fun p => { p with row := { p.row with held := some (fl 7 0 A0), bit := 0, side := some (fl 2 4 A0) } })

theorem test_wit_stageUnpk4 :
    (Instr.stageUnpk4 0, 35) ∈ [(Instr.stageUnpk3 0, 34), (Instr.stageUnpk4 0, 35), (Instr.stageLut8 0, 36), (Instr.stageUnpkq 0, 40)] ∧
  StageReady at_stageUnpk4 0 1 35 ∧
    (at_stageUnpk4.cp 0).needsSide ((at_stageUnpk4.cp 0).stageFields 1) = false ∧ codeWidth 35 ≤ (at_stageUnpk4.cp 0).row.left := ⟨by decide +kernel, by unfold StageReady; decide +kernel, by decide +kernel⟩

def at_stageUnpk4_takes : State :=
  (wv 1 (stw 0x23 0 0 0 2 0 1 1 256) (fl 7 0 A0) (fl 0 2 B0))

theorem test_wit_stageUnpk4_takes :
    (Instr.stageUnpk4 0, 35) ∈ [(Instr.stageUnpk3 0, 34), (Instr.stageUnpk4 0, 35), (Instr.stageLut8 0, 36), (Instr.stageUnpkq 0, 40)] ∧
  StageReady at_stageUnpk4_takes 0 1 35 ∧
    (at_stageUnpk4_takes.cp 0).needsSide ((at_stageUnpk4_takes.cp 0).stageFields 1) = false ∧
      (at_stageUnpk4_takes.cp 0).row.left < codeWidth 35 ∧
        at_stageUnpk4_takes.head 0 1 false = Head.flit (fl 7 (0#3) A0) ∧
          (fl 7 (0#3) A0).beat = false ∧ (at_stageUnpk4_takes.cp 0).needsConv 1 false (fl 7 (0#3) A0) = false ∧ (fl 7 (0#3) A0).isSide = false := ⟨by decide +kernel, by unfold StageReady; decide +kernel, by decide +kernel⟩

def at_stageUnpk4_side : State :=
  (wv 1 (stw 0x23 0 0 0 2 0 1 1 256) (fl 7 4 A0) (fl 0 2 B0))

theorem test_wit_stageUnpk4_side :
    (Instr.stageUnpk4 0, 35) ∈ [(Instr.stageUnpk3 0, 34), (Instr.stageUnpk4 0, 35), (Instr.stageLut8 0, 36), (Instr.stageUnpkq 0, 40)] ∧
  StageReady at_stageUnpk4_side 0 1 35 ∧
    (at_stageUnpk4_side.cp 0).needsSide ((at_stageUnpk4_side.cp 0).stageFields 1) = false ∧
      (at_stageUnpk4_side.cp 0).row.left < codeWidth 35 ∧
        at_stageUnpk4_side.head 0 1 false = Head.flit (fl 7 (4#3) A0) ∧
          (fl 7 (4#3) A0).beat = false ∧ (at_stageUnpk4_side.cp 0).needsConv 1 false (fl 7 (4#3) A0) = false ∧ (fl 7 (4#3) A0).isSide = true := ⟨by decide +kernel, by unfold StageReady; decide +kernel, by decide +kernel⟩

def at_stageLut8 : State :=
  ((wv 1 (stw 0x24 0 0 0 2 0 1 1 256) (fl 7 0 A0) (fl 0 2 B0)).modCp 0 fun p => { p with row := { p.row with held := some (fl 7 0 A0), bit := 0, side := some (fl 2 4 A0), width := 16 } })

theorem test_wit_stageLut8 :
    (Instr.stageLut8 0, 36) ∈ [(Instr.stageUnpk3 0, 34), (Instr.stageUnpk4 0, 35), (Instr.stageLut8 0, 36), (Instr.stageUnpkq 0, 40)] ∧
  StageReady at_stageLut8 0 1 36 ∧
    (at_stageLut8.cp 0).needsSide ((at_stageLut8.cp 0).stageFields 1) = false ∧ codeWidth 36 ≤ (at_stageLut8.cp 0).row.left := ⟨by decide +kernel, by unfold StageReady; decide +kernel, by decide +kernel⟩

def at_stageLut8_takes : State :=
  ((wv 1 (stw 0x24 0 0 0 2 0 1 1 256) (fl 7 0 A0) (fl 0 2 B0)).modCp 0 fun p => { p with row := { p.row with width := 16 } })

theorem test_wit_stageLut8_takes :
    (Instr.stageLut8 0, 36) ∈ [(Instr.stageUnpk3 0, 34), (Instr.stageUnpk4 0, 35), (Instr.stageLut8 0, 36), (Instr.stageUnpkq 0, 40)] ∧
  StageReady at_stageLut8_takes 0 1 36 ∧
    (at_stageLut8_takes.cp 0).needsSide ((at_stageLut8_takes.cp 0).stageFields 1) = false ∧
      (at_stageLut8_takes.cp 0).row.left < codeWidth 36 ∧
        at_stageLut8_takes.head 0 1 false = Head.flit (fl 7 (0#3) A0) ∧
          (fl 7 (0#3) A0).beat = false ∧ (at_stageLut8_takes.cp 0).needsConv 1 false (fl 7 (0#3) A0) = false ∧ (fl 7 (0#3) A0).isSide = false := ⟨by decide +kernel, by unfold StageReady; decide +kernel, by decide +kernel⟩

def at_stageLut8_side : State :=
  ((wv 1 (stw 0x24 0 0 0 2 0 1 1 256) (fl 7 4 A0) (fl 0 2 B0)).modCp 0 fun p => { p with row := { p.row with width := 16 } })

theorem test_wit_stageLut8_side :
    (Instr.stageLut8 0, 36) ∈ [(Instr.stageUnpk3 0, 34), (Instr.stageUnpk4 0, 35), (Instr.stageLut8 0, 36), (Instr.stageUnpkq 0, 40)] ∧
  StageReady at_stageLut8_side 0 1 36 ∧
    (at_stageLut8_side.cp 0).needsSide ((at_stageLut8_side.cp 0).stageFields 1) = false ∧
      (at_stageLut8_side.cp 0).row.left < codeWidth 36 ∧
        at_stageLut8_side.head 0 1 false = Head.flit (fl 7 (4#3) A0) ∧
          (fl 7 (4#3) A0).beat = false ∧ (at_stageLut8_side.cp 0).needsConv 1 false (fl 7 (4#3) A0) = false ∧ (fl 7 (4#3) A0).isSide = true := ⟨by decide +kernel, by unfold StageReady; decide +kernel, by decide +kernel⟩

def at_stageUnpkq : State :=
  ((wv 1 (stw 0x28 2 0 0 2 0 1 1 256) (fl 7 0 A0) (fl 2 2 B0)).modCp 0 fun p => { p with row := { p.row with held := some (fl 7 0 A0), bit := 0, side := some (fl 2 4 A0), width := 16 } })

theorem test_wit_stageUnpkq :
    (Instr.stageUnpkq 0, 40) ∈ [(Instr.stageUnpk3 0, 34), (Instr.stageUnpk4 0, 35), (Instr.stageLut8 0, 36), (Instr.stageUnpkq 0, 40)] ∧
  StageReady at_stageUnpkq 0 1 40 ∧
    (at_stageUnpkq.cp 0).needsSide ((at_stageUnpkq.cp 0).stageFields 1) = false ∧ codeWidth 40 ≤ (at_stageUnpkq.cp 0).row.left := ⟨by decide +kernel, by unfold StageReady; decide +kernel, by decide +kernel⟩

def at_stageUnpkq_takes : State :=
  ((wv 1 (stw 0x28 0 0 0 2 0 1 1 256) (fl 7 0 A0) (fl 0 2 B0)).modCp 0 fun p => { p with row := { p.row with width := 16 } })

theorem test_wit_stageUnpkq_takes :
    (Instr.stageUnpkq 0, 40) ∈ [(Instr.stageUnpk3 0, 34), (Instr.stageUnpk4 0, 35), (Instr.stageLut8 0, 36), (Instr.stageUnpkq 0, 40)] ∧
  StageReady at_stageUnpkq_takes 0 1 40 ∧
    (at_stageUnpkq_takes.cp 0).needsSide ((at_stageUnpkq_takes.cp 0).stageFields 1) = false ∧
      (at_stageUnpkq_takes.cp 0).row.left < codeWidth 40 ∧
        at_stageUnpkq_takes.head 0 1 false = Head.flit (fl 7 (0#3) A0) ∧
          (fl 7 (0#3) A0).beat = false ∧ (at_stageUnpkq_takes.cp 0).needsConv 1 false (fl 7 (0#3) A0) = false ∧ (fl 7 (0#3) A0).isSide = false := ⟨by decide +kernel, by unfold StageReady; decide +kernel, by decide +kernel⟩

def at_stageUnpkq_side : State :=
  ((wv 1 (stw 0x28 0 0 0 2 0 1 1 256) (fl 7 4 A0) (fl 0 2 B0)).modCp 0 fun p => { p with row := { p.row with width := 16 } })

theorem test_wit_stageUnpkq_side :
    (Instr.stageUnpkq 0, 40) ∈ [(Instr.stageUnpk3 0, 34), (Instr.stageUnpk4 0, 35), (Instr.stageLut8 0, 36), (Instr.stageUnpkq 0, 40)] ∧
  StageReady at_stageUnpkq_side 0 1 40 ∧
    (at_stageUnpkq_side.cp 0).needsSide ((at_stageUnpkq_side.cp 0).stageFields 1) = false ∧
      (at_stageUnpkq_side.cp 0).row.left < codeWidth 40 ∧
        at_stageUnpkq_side.head 0 1 false = Head.flit (fl 7 (4#3) A0) ∧
          (fl 7 (4#3) A0).beat = false ∧ (at_stageUnpkq_side.cp 0).needsConv 1 false (fl 7 (4#3) A0) = false ∧ (fl 7 (4#3) A0).isSide = true := ⟨by decide +kernel, by unfold StageReady; decide +kernel, by decide +kernel⟩

def at_lut8_table : State :=
  (wv 1 (stw 0x24 1 0 0 2 0 1 0 256) (fl 1 4 A0) (fl 1 2 B0))

theorem test_wit_lut8_table :
    StageReady at_lut8_table 0 1 36 ∧
  (at_lut8_table.cp 0).needsSide ((at_lut8_table.cp 0).stageFields 1) = true ∧
    (at_lut8_table.cp 0).side = [] ∧
      at_lut8_table.head 0 1 false = Head.flit (fl 1 (4#3) A0) ∧
        (fl 1 (4#3) A0).beat = false ∧ ((at_lut8_table.cp 0).stageFields 1).op = 36 ∧ (fl 1 (4#3) A0).isSide = true := ⟨by unfold StageReady; decide +kernel, by decide +kernel⟩

def at_lut8_notable : State :=
  (wv 1 (stw 0x24 1 0 0 2 0 1 0 256) (fl 1 0 A0) (fl 1 2 B0))

theorem test_wit_lut8_notable :
    StageReady at_lut8_notable 0 1 36 ∧
  (at_lut8_notable.cp 0).needsSide ((at_lut8_notable.cp 0).stageFields 1) = true ∧
    (at_lut8_notable.cp 0).side = [] ∧
      at_lut8_notable.head 0 1 false = Head.flit (fl 1 (0#3) A0) ∧
        (fl 1 (0#3) A0).beat = false ∧
          ((at_lut8_notable.cp 0).stageFields 1).op = 36 ∧
            (fl 1 (0#3) A0).isSide = false ∧ ((at_lut8_notable.cp 0).stageFields 1).srcA ≠ 3 ∧ at_lut8_notable.gathers 0 = false := ⟨by unfold StageReady; decide +kernel, by decide +kernel⟩

def at_maskt : State :=
  (wv 1 (stw 0x27 1 0 0 2 3 1 0 5) (fl 1 0 A0) (fl 1 0 B0))

theorem test_wit_maskt :
    StageReady at_maskt 0 1 39 ∧
  at_maskt.head 0 1 false = Head.flit (fl 1 (0#3) A0) ∧
    at_maskt.head 0 1 true = Head.flit (fl 1 (0#3) B0) ∧
      (fl 1 (0#3) A0).beat = false ∧
        (fl 1 (0#3) A0).isSide = false ∧
          (at_maskt.cp 0).needsConv 1 false (fl 1 (0#3) A0) = false ∧
            (fl 1 (0#3) B0).beat = false ∧ (fl 1 (0#3) B0).isSide = false ∧ (at_maskt.cp 0).row.code = 0 ∧ (at_maskt.cp 0).row.group = 0 := ⟨by unfold StageReady; decide +kernel, by decide +kernel⟩

def at_convert_2_2 : State :=
  (wv 2 (stw 0x42 2 0 0 1 3 1 0 0) (fl 1 0 A0) (fl 2 2 B0))

theorem test_wit_convert_2_2 :
    isVCell 0 = true ∧
  at_convert_2_2.cellFires 0 = true ∧
    at_convert_2_2.convBefore 0 2 false = false ∧
      1 ≤ 2 ∧
        2 ≤ 6 ∧
          smGet [] (at_convert_2_2.cp 0).conv (2 * 2 + if false = true then 1 else 0) = [] ∧
            (if false = true then ((at_convert_2_2.cp 0).stageFields 2).srcB else ((at_convert_2_2.cp 0).stageFields 2).srcA) ≠ 5 ∧
              at_convert_2_2.rawHead 0 2
                    (if false = true then ((at_convert_2_2.cp 0).stageFields 2).srcB else ((at_convert_2_2.cp 0).stageFields 2).srcA)
                    ((at_convert_2_2.cp 0).stageFields 2).k ((at_convert_2_2.cp 0).stageFields 2).fmt =
                  Head.flit (fl 1 (0#3) A0) ∧
                (at_convert_2_2.cp 0).needsConv 2 false (fl 1 (0#3) A0) = true ∧
                  (fl 1 (0#3) A0).tag ≠ 7 ∧ (acceptTag ((at_convert_2_2.cp 0).stageFields 2) false).getD 0 ≠ 7 := by decide +kernel

def at_convert_2_3 : State :=
  (wv 2 (stw 0x42 3 0 0 1 3 1 0 0) (fl 5 0 A0) (fl 3 2 B0))

theorem test_wit_convert_2_3 :
    isVCell 0 = true ∧
  at_convert_2_3.cellFires 0 = true ∧
    at_convert_2_3.convBefore 0 2 false = false ∧
      1 ≤ 2 ∧
        2 ≤ 6 ∧
          smGet [] (at_convert_2_3.cp 0).conv (2 * 2 + if false = true then 1 else 0) = [] ∧
            (if false = true then ((at_convert_2_3.cp 0).stageFields 2).srcB else ((at_convert_2_3.cp 0).stageFields 2).srcA) ≠ 5 ∧
              at_convert_2_3.rawHead 0 2
                    (if false = true then ((at_convert_2_3.cp 0).stageFields 2).srcB else ((at_convert_2_3.cp 0).stageFields 2).srcA)
                    ((at_convert_2_3.cp 0).stageFields 2).k ((at_convert_2_3.cp 0).stageFields 2).fmt =
                  Head.flit (fl 5 (0#3) A0) ∧
                (at_convert_2_3.cp 0).needsConv 2 false (fl 5 (0#3) A0) = true ∧
                  (fl 5 (0#3) A0).tag ≠ 7 ∧ (acceptTag ((at_convert_2_3.cp 0).stageFields 2) false).getD 0 ≠ 7 := by decide +kernel

def at_convert_3_0 : State :=
  (wv 3 (stw 0x60 0 0 0 1 3 1 0 0) (fl 2 0 A0) (fl 0 2 B0))

theorem test_wit_convert_3_0 :
    isVCell 0 = true ∧
  at_convert_3_0.cellFires 0 = true ∧
    at_convert_3_0.convBefore 0 3 false = false ∧
      1 ≤ 3 ∧
        3 ≤ 6 ∧
          smGet [] (at_convert_3_0.cp 0).conv (2 * 3 + if false = true then 1 else 0) = [] ∧
            (if false = true then ((at_convert_3_0.cp 0).stageFields 3).srcB else ((at_convert_3_0.cp 0).stageFields 3).srcA) ≠ 5 ∧
              at_convert_3_0.rawHead 0 3
                    (if false = true then ((at_convert_3_0.cp 0).stageFields 3).srcB else ((at_convert_3_0.cp 0).stageFields 3).srcA)
                    ((at_convert_3_0.cp 0).stageFields 3).k ((at_convert_3_0.cp 0).stageFields 3).fmt =
                  Head.flit (fl 2 (0#3) A0) ∧
                (at_convert_3_0.cp 0).needsConv 3 false (fl 2 (0#3) A0) = true ∧
                  (fl 2 (0#3) A0).tag ≠ 7 ∧ (acceptTag ((at_convert_3_0.cp 0).stageFields 3) false).getD 0 ≠ 7 := by decide +kernel

def at_convert_6_2 : State :=
  (wv 6 (stw 0xC4 2 0 0 1 0 1 0 0) (fl 4 0 A0) (fl 2 2 B0))

theorem test_wit_convert_6_2 :
    isVCell 0 = true ∧
  at_convert_6_2.cellFires 0 = true ∧
    at_convert_6_2.convBefore 0 6 false = false ∧
      1 ≤ 6 ∧
        6 ≤ 6 ∧
          smGet [] (at_convert_6_2.cp 0).conv (2 * 6 + if false = true then 1 else 0) = [] ∧
            (if false = true then ((at_convert_6_2.cp 0).stageFields 6).srcB else ((at_convert_6_2.cp 0).stageFields 6).srcA) ≠ 5 ∧
              at_convert_6_2.rawHead 0 6
                    (if false = true then ((at_convert_6_2.cp 0).stageFields 6).srcB else ((at_convert_6_2.cp 0).stageFields 6).srcA)
                    ((at_convert_6_2.cp 0).stageFields 6).k ((at_convert_6_2.cp 0).stageFields 6).fmt =
                  Head.flit (fl 4 (0#3) A0) ∧
                (at_convert_6_2.cp 0).needsConv 6 false (fl 4 (0#3) A0) = true ∧
                  (fl 4 (0#3) A0).tag ≠ 7 ∧ (acceptTag ((at_convert_6_2.cp 0).stageFields 6) false).getD 0 ≠ 7 := by decide +kernel

def at_convert_q4 : State :=
  (wv 2 (stw 0x42 2 0 0 1 3 1 0 0) (fl 7 0 A0) (fl 2 2 B0))

theorem test_wit_convert_q4 :
    isVCell 0 = true ∧
  at_convert_q4.cellFires 0 = true ∧
    at_convert_q4.convBefore 0 2 false = false ∧
      1 ≤ 2 ∧
        2 ≤ 6 ∧
          smGet [] (at_convert_q4.cp 0).conv (2 * 2 + if false = true then 1 else 0) = [] ∧
            (if false = true then ((at_convert_q4.cp 0).stageFields 2).srcB else ((at_convert_q4.cp 0).stageFields 2).srcA) ≠ 5 ∧
              at_convert_q4.rawHead 0 2
                    (if false = true then ((at_convert_q4.cp 0).stageFields 2).srcB else ((at_convert_q4.cp 0).stageFields 2).srcA)
                    ((at_convert_q4.cp 0).stageFields 2).k ((at_convert_q4.cp 0).stageFields 2).fmt =
                  Head.flit (fl 7 (0#3) A0) ∧
                (at_convert_q4.cp 0).needsConv 2 false (fl 7 (0#3) A0) = true ∧
                  ((fl 7 (0#3) A0).tag = 7 ∨ (acceptTag ((at_convert_q4.cp 0).stageFields 2) false).getD 0 = 7) := by decide +kernel

def at_convert_b : State :=
  (wv 2 (stw 0x42 3 0 0 1 3 1 0 0) (fl 3 0 A0) (fl 1 2 B0))

theorem test_wit_convert_b :
    isVCell 0 = true ∧
  at_convert_b.cellFires 0 = true ∧
    at_convert_b.convBefore 0 2 true = false ∧
      1 ≤ 2 ∧
        2 ≤ 6 ∧
          smGet [] (at_convert_b.cp 0).conv (2 * 2 + if true = true then 1 else 0) = [] ∧
            (if true = true then ((at_convert_b.cp 0).stageFields 2).srcB else ((at_convert_b.cp 0).stageFields 2).srcA) ≠ 5 ∧
              at_convert_b.rawHead 0 2 (if true = true then ((at_convert_b.cp 0).stageFields 2).srcB else ((at_convert_b.cp 0).stageFields 2).srcA)
                    ((at_convert_b.cp 0).stageFields 2).k ((at_convert_b.cp 0).stageFields 2).fmt =
                  Head.flit (fl 1 (2#3) B0) ∧
                (at_convert_b.cp 0).needsConv 2 true (fl 1 (2#3) B0) = true ∧
                  (fl 1 (2#3) B0).tag ≠ 7 ∧ (acceptTag ((at_convert_b.cp 0).stageFields 2) true).getD 0 ≠ 7 := by decide +kernel

def at_mma_partial : State :=
  (wv 2 (stw 0xE0 3 0 0 1 0 1 0 2) (fl 2 0 A0) (fl 3 2 B0))

/-! MatrixStages -/

theorem test_wit_mma_partial :
    StageDue at_mma_partial 0 2 224 ∧ (at_mma_partial.cp 0).isPartial ((at_mma_partial.cp 0).stageFields 2) (opA at_mma_partial 0 2) = true := ⟨due_of _ _ _ _ (by decide +kernel), by decide +kernel⟩

def at_mma : State :=
  { (wv 2 (stw 0xE0 3 0 0 1 0 1 0 1) (fl 3 0 A0) (fl 3 2 B0)) with mem := memWrite [] (windowBase 0) 1024 (A0 + B0 * 2 ^ 512 + A0 * 2 ^ 1024 + B0 * 2 ^ 4096 + A0 * 2 ^ 4608 + B0 * 2 ^ 7168) }

theorem test_wit_mma :
    StageDue at_mma 0 2 224 ∧ (at_mma.cp 0).isPartial ((at_mma.cp 0).stageFields 2) (opA at_mma 0 2) = false ∧ ((at_mma.cp 0).stageFields 2).fmt ≠ 2 := ⟨due_of _ _ _ _ (by decide +kernel), by decide +kernel⟩

def at_mma_f32 : State :=
  { (wv 2 (stw 0xE0 2 0 0 1 0 1 0 1) (fl 2 0 A0) (fl 2 2 B0)) with mem := memWrite [] (windowBase 0) 1024 (A0 + B0 * 2 ^ 512 + A0 * 2 ^ 1024 + B0 * 2 ^ 4096 + A0 * 2 ^ 4608 + B0 * 2 ^ 7168) }

theorem test_wit_mma_f32 :
    StageDue at_mma_f32 0 2 224 ∧
  (at_mma_f32.cp 0).isPartial ((at_mma_f32.cp 0).stageFields 2) (opA at_mma_f32 0 2) = false ∧ ((at_mma_f32.cp 0).stageFields 2).fmt = 2 := ⟨due_of _ _ _ _ (by decide +kernel), by decide +kernel⟩

def at_mmaq_side : State :=
  (wv 2 (stw 0xE2 7 0 0 1 0 1 0 1) (fl 7 4 A0) (fl 2 2 B0))

theorem test_wit_mmaq_side :
    StageReady at_mmaq_side 0 2 226 ∧
  at_mmaq_side.head 0 2 false = Head.flit (fl 7 (4#3) A0) ∧
    (fl 7 (4#3) A0).beat = false ∧
      (at_mmaq_side.cp 0).needsConv 2 false (fl 7 (4#3) A0) = false ∧ (fl 7 (4#3) A0).isSide = true ∧ (at_mmaq_side.cp 0).netx = [] := ⟨by unfold StageReady; decide +kernel, by decide +kernel⟩

def at_vfma : State :=
  ((wv 2 (stw 0xE3 2 0 1 1 3 1 0 49) (fl 2 0 A0) (fl 2 2 B0)).modCp 0 fun p => { p with lregs := [(49, BitVec.ofNat 512 B0)] })

theorem test_wit_vfma :
    StageDue at_vfma 0 2 227 := due_of _ _ _ _ (by decide +kernel)

/-! BitStreamStages -/

theorem test_wit_lut8_code :
    (stageF (BitVec.toNat (stw 36 1 0 0 2 0 1 0 256))).op = 36 ∧ 5 < tagElems (stageF (BitVec.toNat (stw 36 1 0 0 2 0 1 0 256))).fmt := by decide +kernel

def at_lut8_held : State :=
  ((wv 1 (stw 0x24 2 0 0 2 0 1 1 256) (fl 7 0 A0) (fl 2 2 B0)).modCp 0 fun p => { p with side := [fl 2 4 B0] })

theorem test_wit_lut8_held :
    (at_lut8_held.cp 0).needsSide ((at_lut8_held.cp 0).stageFields 1) = true ∧
  (at_lut8_held.cp 0).side = [fl 2 (4#3) B0] ∧ StageReady at_lut8_held 0 1 36 ∧ ((at_lut8_held.cp 0).stageFields 1).op = 36 := ⟨by decide +kernel, by decide +kernel, by unfold StageReady; decide +kernel, by decide +kernel⟩

def at_unpkq_held : State :=
  ((wv 1 (stw 0x28 2 0 0 2 0 1 1 256) (fl 7 0 A0) (fl 2 2 B0)).modCp 0 fun p => { p with side := [fl 2 4 B0] })

theorem test_wit_unpkq_held :
    (at_unpkq_held.cp 0).needsSide ((at_unpkq_held.cp 0).stageFields 1) = true ∧
  (at_unpkq_held.cp 0).side = [fl 2 (4#3) B0] ∧ StageReady at_unpkq_held 0 1 40 ∧ ((at_unpkq_held.cp 0).stageFields 1).op = 40 := ⟨by decide +kernel, by decide +kernel, by unfold StageReady; decide +kernel, by decide +kernel⟩

end Rows

namespace Rows2

def A0 : Nat := 3325764857622527775126294255228814950936276476596577216155224447627236704093591745448153753968034060431968072541642300101009519411251402932891606897917951
def B0 : Nat := 13407807926820848553255651295662740955542717385736877350504481733235843308057727210879940574469219023348173018146913114544298224868985045652517847155343360

def at_mmai : State :=
  { (wv 2 (stw 0xE1 0 0 2 1 0 1 0 1) (fl 0 0 A0) (fl 0 2 B0)) with mem := memWrite [] (windowBase 0) 1024 (A0 + B0 * 2 ^ 512 + A0 * 2 ^ 1024 + B0 * 2 ^ 4096 + A0 * 2 ^ 4608 + B0 * 2 ^ 7168) }

/-! MatrixStages -/

theorem test_wit_mmai :
    StageDue at_mmai 0 2 225 := due_of _ _ _ _ (by decide +kernel)

end Rows2

namespace Services

def q1 : Queue := { Queue.reset with state := 1, cap := 4 }
def wq (c : SyncCmd) (q : Queue) : State := wcd c fun d => { d with queues := [(5, q)] }
def cq (code : BitVec 8) (a : Nat) : SyncCmd := cmdOf code 0 a 0 0x900000000 0
def rec0 : QRec := { data := 7, whw := 3, scope := 1, agent := w0.me, added := 0, tag := 0, slot := 9, stamp := 1, spilled := false }
def line1 : Nat := gddrBase + 0x20000
/-- A stream's read and its write that have arrived from die 1. -/
def sReq : Msg := ⟨.streamReq 4 0 [(0, 0)] 0 0 line1 50 false, seqAgent 0, 1, 0, 0, none, true, false, 0⟩
def sWr : Msg := ⟨.streamWr 2 255 0 0 line1 64 0x77 5 false, seqAgent 0, 1, 0, 0, none, true, false, 0⟩
def wSr (m : Msg) : State := { w0 with msgs := [m], homeTs := [(line1, (3, 9))] }
/-- The same with a migration moving the page. -/
def wSm (m : Msg) : State := (wSr m).modDie 0 fun d => { d with migration := some ⟨0, 0, line1, line1 + 0x70000, 0, 0, 1, false, false⟩ }
def rOf (r : SRes) : State := match r with | .done s => s | _ => w0
def cmdS : Cmd := Cmd.new 0 ⟨0, 0, 0, 0⟩ 0 0 0 (cellOf 0 1) 0 false 0 1 0 none 5
def wd (e : DepEnt) : State := wt fun t => { t with deps := [(2, e)] }
def dS : DepEnt := { dep 0 .armed with step := .stream cmdS 1 0 }
def dSb : DepEnt := { dep 0 .armed with step := .stream { cmdS with cell := 48 } 1 0 }
def dR : DepEnt := { dep 1 .armed with step := .run 1 }
def wdP (e : DepEnt) (l : Launch) : State := wlt l fun t => { t with deps := [(2, e)] }
def dX (e : DepEnt) : DepEnt := { e with state := .issued, performed := true, hw := 4, succ := [3] }
def rep (dst : ReplyTo) (code : BitVec 8) : Msg := ⟨.rep dst code 0 true 0x77 9 none, w0.me, 1, 0, 0, none, true, false, 0⟩
def repc (dst : ReplyTo) (code : BitVec 8) : Msg := { rep dst code with agent := cellAgent 48 }
def fr : FlowRef := ⟨8, 0⟩
def crossing : Msg := { msgOf (cq 0x30 5) with flow := some fr, arrived := false }
def tok1 : Token := mkTok (destCode 5) 1 0 ⟨1, 2, 0⟩ 0 0 0x55
def nt : NetTok := ⟨tok1, [], 1000, 1000, 1, false, some fr, false, 0⟩
def line0 : Nat := gddrBase + 0x20000
def lreq (lim : Nat) : Msg := ⟨.loadReq line0 none lim, w0.me, 1, 0, 0, none, true, false, 0⟩
def wh (m : Msg) : State := { w0 with msgs := [m], homeTs := [(line0, (3, 9))] }
def st0 : StoreEnt := { va := 0x10008, flat := line0 + 8, ty := 0, home := 0, n := 4, data := 0xAABBCCDD, owner := 1, run := 0, sent := true }
def sreq (t : BitVec 32) : Msg := ⟨.storeReq st0 t, w0.me, 1, 0, 0, none, true, false, 0⟩
def lrep (d : Option (BitVec 512)) : Msg := ⟨.loadRep line0 30 46 d, w0.me, 1, 0, 0, none, true, false, 0⟩
def srep (prev : BitVec 32) (d : BitVec 512) : Msg := ⟨.storeRep line0 30 prev d, w0.me, 1, 0, 0, none, true, false, 0⟩
def wx (f : Tile → Tile) (m : Msg) : State := { (wt f) with msgs := [m] }

/-! GranaryCommands -/

theorem test_wit_qrsv :
    CmdDue (wq (cq (48#8) 5) q1) 0 0 48 (msgOf (cq (48#8) 5)) (cq (48#8) 5) ∧
  ((wq (cq (48#8) 5) q1).queue 0 (queuePlace (cq (48#8) 5).addr).2).state = 1#2 ∧
    ((wq (cq (48#8) 5) q1).queue 0 (queuePlace (cq (48#8) 5).addr).2).kind.toNat ≤ 1 ∧
      ((wq (cq (48#8) 5) q1).queue 0 (queuePlace (cq (48#8) 5).addr).2).vmid = (cq (48#8) 5).vmid := ⟨by unfold CmdDue; decide +kernel, by decide +kernel⟩

theorem test_wit_qrsv_closed :
    CmdDue (wc (cq (48#8) 5)) 0 0 48 (msgOf (cq (48#8) 5)) (cq (48#8) 5) ∧ ((wc (cq (48#8) 5)).queue 0 (queuePlace (cq (48#8) 5).addr).2).state ≠ 1#2 := ⟨by unfold CmdDue; decide +kernel, by decide +kernel⟩

def at_qadd : State :=
  wq (cq 0x31 (stageFlat 0 9)) { q1 with rsvs := [(9, 1)] }

theorem test_wit_qadd :
    CmdDue at_qadd 0 0 49 (msgOf (cq (49#8) (stageFlat 0 9))) (cq (49#8) (stageFlat 0 9)) ∧
  (at_qadd.getDie 0).rsvOf (((cq (49#8) (stageFlat 0 9)).addr - stageFlat 0 0) / 64) = some 5 := ⟨by unfold CmdDue; decide +kernel, by decide +kernel⟩

def at_qadd_none : State :=
  wq (cq 0x31 (stageFlat 0 8)) { q1 with rsvs := [(9, 1)] }

theorem test_wit_qadd_none :
    CmdDue at_qadd_none 0 0 49 (msgOf (cq (49#8) (stageFlat 0 8))) (cq (49#8) (stageFlat 0 8)) ∧
  (at_qadd_none.getDie 0).rsvOf (((cq (49#8) (stageFlat 0 8)).addr - stageFlat 0 0) / 64) = none := ⟨by unfold CmdDue; decide +kernel, by decide +kernel⟩

def at_qtake : State :=
  wq (cq 0x32 5) { q1 with recs := [rec0] }

theorem test_wit_qtake :
    CmdDue at_qtake 0 0 50 (msgOf (cq (50#8) 5)) (cq (50#8) 5) ∧
  (at_qtake.queue 0 (queuePlace (cq (50#8) 5).addr).2).state ≠ 0#2 ∧
    (at_qtake.queue 0 (queuePlace (cq (50#8) 5).addr).2).kind = 0#2 ∧ (at_qtake.queue 0 (queuePlace (cq (50#8) 5).addr).2).vmid = (cq (50#8) 5).vmid := ⟨by unfold CmdDue; decide +kernel, by decide +kernel⟩

theorem test_wit_placerec :
    (at_qtake.queue 0 5).kind ≠ 1#2 := by decide +kernel

def at_widen_die : State :=
  wq (cq 0x32 5) { q1 with recs := [{ rec0 with scope := 0 }] }

def arg_widen_die : QRec :=
  { rec0 with scope := 0 }

theorem test_wit_widen_die :
    (at_widen_die.queue 0 5).recs = [arg_widen_die] ∧
  (arg_widen_die.scope.toNat < if false = true then 2 else 1) ∧
    at_widen_die.producerDone arg_widen_die.agent (if false = true then 2#2 else 1#2) arg_widen_die.added = true := by decide +kernel

theorem test_wit_widen_package :
    (at_qtake.queue 0 5).recs = [rec0] ∧
  (rec0.scope.toNat < if true = true then 2 else 1) ∧ at_qtake.producerDone rec0.agent (if true = true then 2#2 else 1#2) rec0.added = true := by decide +kernel

def at_prefetch : State :=
  (wq (cq 0x32 5) { q1 with recs := [rec0] }).modCur fun t => { t with pre := ⟨some 5, [], 0⟩ }

theorem test_wit_prefetch :
    (at_prefetch.queue 0 5).recs = [rec0] ∧
  (at_prefetch.getTile 0).pre.queue = some (0 * 2 ^ 16 + 5) ∧
    (at_prefetch.getTile 0).owner.isSome = true ∧
      (at_prefetch.getTile 0).pre.recs.length < 2 ∧ (at_prefetch.queue 0 5).takers = [] ∧ rec0.spilled = false ∧ recInScope rec0 0 = true := by decide +kernel

def at_prefetch_return : State :=
  { w0.modCur fun t => { t with pre := ⟨some 5, [rec0], 0⟩ } with clk := 4096 }

theorem test_wit_prefetch_return :
    (at_prefetch_return.getTile 0).pre.recs ≠ [] ∧ 4096 ≤ at_prefetch_return.clk - (at_prefetch_return.getTile 0).pre.age := by decide +kernel

/-! DependenceEvents -/

theorem test_wit_depissue_stream :
    DepDue (wd dS) 0 1 u0 2 dS ∧ dS.step = DepStep.stream cmdS 1 0 ∧ cmdS.bad 0 = none := ⟨by unfold DepDue; decide +kernel, by decide +kernel⟩

def arg_depissue_bad : Cmd :=
  { cmdS with cell := 48 }

theorem test_wit_depissue_bad :
    DepDue (wd dSb) 0 1 u0 2 dSb ∧ dSb.step = DepStep.stream arg_depissue_bad 1 0 ∧ arg_depissue_bad.bad 0 = some 4 := ⟨by unfold DepDue; decide +kernel, by decide +kernel⟩

def at_depissue_run : State :=
  wdP { dR with step := .run 0 } (uP .active)

def arg_depissue_run : DepEnt :=
  { dR with step := .run 0 }

theorem test_wit_depissue_run :
    DepDue at_depissue_run 0 1 (uP PlaneState.active) 2 arg_depissue_run ∧
  arg_depissue_run.step = DepStep.run 0#8 ∧
    at_depissue_run.config? (uP PlaneState.active) (0#8).toNat = some cfg0 ∧ (uP PlaneState.active).activeCfg = some (0#8).toNat := ⟨by unfold DepDue; decide +kernel, by decide +kernel⟩

theorem test_wit_depissue_run_bad :
    DepDue (wdP dR (uP PlaneState.active)) 0 1 (uP PlaneState.active) 2 dR ∧
  dR.step = DepStep.run 1#8 ∧
    (wdP dR (uP PlaneState.active)).config? (uP PlaneState.active) (1#8).toNat = some cfg1 ∧ (uP PlaneState.active).activeCfg ≠ some (1#8).toNat := ⟨by unfold DepDue; decide +kernel, by decide +kernel⟩

theorem test_wit_depdone_stream :
    smFind ((wd (dX dS)).getTile 0).deps 2 = some (dX dS) ∧
  (wd (dX dS)).owner? 0 = some 1 ∧
    (wd (dX dS)).launch? 1 = some u0 ∧
      (dX dS).state = DepState.issued ∧
        (dX dS).step = DepStep.stream cmdS 1 0 ∧ (dX dS).performed = true ∧ (wd (dX dS)).flowsAcked u0.region false = true := by decide +kernel

def at_depdone_signal : State :=
  wd (dX { dep 2 .issued with step := .signal 0x10040 1 })

def arg_depdone_signal : DepEnt :=
  dX { dep 2 .issued with step := .signal 0x10040 1 }

theorem test_wit_depdone_signal :
    smFind (at_depdone_signal.getTile 0).deps 2 = some arg_depdone_signal ∧
  at_depdone_signal.owner? 0 = some 1 ∧
    at_depdone_signal.launch? 1 = some u0 ∧
      arg_depdone_signal.state = DepState.issued ∧ arg_depdone_signal.step = DepStep.signal 65600#64 1#2 ∧ arg_depdone_signal.performed = true := by decide +kernel

theorem test_wit_depdone_run :
    smFind ((wd (dX dR)).getTile 0).deps 2 = some (dX dR) ∧
  (wd (dX dR)).owner? 0 = some 1 ∧
    (wd (dX dR)).launch? 1 = some u0 ∧
      (dX dR).state = DepState.issued ∧
        (dX dR).step = DepStep.run 1#8 ∧ u0.runLives (dX dR).run = false ∧ (wd (dX dR)).runSettled 1 u0 (dX dR).run = true := by decide +kernel

def arg_depdone_succ : Tile :=
  { Tile.reset with deps := [(2, dX dS), (3, { dS with count := 2 })] }

def arg_depdone_succ_16 : DepEnt :=
  { dS with count := 2 }

theorem test_wit_depdone_succ :
    (dX dS).succ = [3] ∧ 2 ≠ 3 ∧ smFind arg_depdone_succ.deps 3 = some arg_depdone_succ_16 := by decide +kernel

def at_reply_seq : State :=
  { (wt fun t => { t with wait := some (.reply true true), phase := 1 }) with msgs := [rep (.seq 0) 0x01] }

/-! EngineReplies -/

theorem test_wit_reply_seq :
    ReplyDue at_reply_seq 0 (rep (ReplyTo.seq 0) 1#8) (ReplyTo.seq 0) (1#8) (0#3) true (119#64) (9#32) none ∧
  (at_reply_seq.getTile 0).owner = some (rep (ReplyTo.seq 0) 1#8).owner ∧
    (at_reply_seq.getTile 0).wait = some (Wait.reply true true) ∧
      agentTile (rep (ReplyTo.seq 0) 1#8).agent = 0 ∧ agentIsSeq (rep (ReplyTo.seq 0) 1#8).agent = true := ⟨by unfold ReplyDue; decide +kernel, by decide +kernel⟩

def at_reply_cell : State :=
  { wb id with msgs := [repc (.cell 0x30 1 1 2 3 1) 0x01] }

theorem test_wit_reply_cell :
    ReplyDue at_reply_cell 0 (repc (ReplyTo.cell 48#18 1#6 1#2 2#8 3#10 1#3) 1#8) (ReplyTo.cell 48#18 1#6 1#2 2#8 3#10 1#3) (1#8) (0#3) true (119#64)
    (9#32) none ∧
  at_reply_cell.owner? (cellTile (destCell 48#18)) = some (repc (ReplyTo.cell 48#18 1#6 1#2 2#8 3#10 1#3) 1#8).owner ∧
    at_reply_cell.placesFor
        [replyTok 48#18 1#6 1#2 { ctx := 2#8, iter := 3#10, lvl := 1#3 } (0#3) true (119#64)
            (repc (ReplyTo.cell 48#18 1#6 1#2 2#8 3#10 1#3) 1#8).owner] =
      true := ⟨by unfold ReplyDue; decide +kernel, by decide +kernel⟩

def at_reply_dep : State :=
  { wd (dX dS) with msgs := [rep (.dep 0 2) 0x22] }

theorem test_wit_reply_dep :
    ReplyDue at_reply_dep 0 (rep (ReplyTo.dep 0 2) 34#8) (ReplyTo.dep 0 2) (34#8) (0#3) true (119#64) (9#32) none ∧
  smFind (at_reply_dep.getTile 0).deps 2 = some (dX dS) := ⟨by unfold ReplyDue; decide +kernel, by decide +kernel⟩

def at_packet_token : State :=
  { w0 with msgs := [crossing], net := [nt] }

/-! FlowsBetweenDies -/

theorem test_wit_packet_token :
    at_packet_token.msgs.length + 0 = 1 ∧
  at_packet_token.net[0]? = some nt ∧ nt.flow = some fr ∧ nt.arrived = false ∧ fr.seq = (at_packet_token.flow fr.flow).want := by decide +kernel

def at_ack : State :=
  { w0 with flows := [(8, ⟨3, 2, 1, []⟩)] }

theorem test_wit_ack :
    (at_ack.flow 8).acked ≠ (at_ack.flow 8).want := by decide +kernel

def arg_deliver : Machine.Flow :=
  ⟨3, 2, 1, []⟩

theorem test_wit_deliver :
    arg_deliver.early = [] ∧ 2#16 = arg_deliver.want := by decide +kernel

def arg_deliver_early : Machine.Flow :=
  ⟨4, 2, 1, []⟩

theorem test_wit_deliver_early :
    3#16 ≠ arg_deliver_early.want := by decide +kernel

/-! HomeAccesses -/

theorem test_wit_home_load :
    (wh (lreq 20)).msgs[0]? = some (lreq 20) ∧
  (lreq 20).kind = MsgKind.loadReq line0 none 20 ∧
    (wh (lreq 20)).homeTurn 0 (lreq 20) line0 = Turn.go ∧ (wh (lreq 20)).roomBack (homeDie line0) (lreq 20).agent 0 = true ∧ 20 < 2 ^ 32 := by decide +kernel

theorem test_wit_home_load_rebase :
    (wh (lreq 4294967296)).msgs[0]? = some (lreq 4294967296) ∧
  (lreq 4294967296).kind = MsgKind.loadReq line0 none 4294967296 ∧
    (wh (lreq 4294967296)).homeTurn 0 (lreq 4294967296) line0 = Turn.go ∧
      (wh (lreq 4294967296)).roomBack (homeDie line0) (lreq 4294967296).agent 0 = true ∧ 2 ^ 32 ≤ 4294967296 := by decide +kernel

theorem test_wit_home_load_ue :
    (wh (lreq 20)).msgs[0]? = some (lreq 20) ∧
  (lreq 20).kind = MsgKind.loadReq line0 none 20 ∧
    (wh (lreq 20)).homeTurn 0 (lreq 20) line0 = Turn.go ∧
      (wh (lreq 20)).roomBack (homeDie line0) (lreq 20).agent 0 = true ∧ ((wh (lreq 20)).getDie (homeDie line0)).held.contains line0 = false := by decide +kernel

theorem test_wit_home_store :
    (wh (sreq 5#32)).msgs[0]? = some (sreq 5#32) ∧
  (sreq 5#32).kind = MsgKind.storeReq st0 5#32 ∧
    (wh (sreq 5#32)).homeTurn 0 (sreq 5#32) st0.flat = Turn.go ∧
      (wh (sreq 5#32)).roomBack (homeDie (st0.flat / 64 * 64)) (sreq 5#32).agent 0 = true ∧
        Memory.wf (wh (sreq 5#32)).mem = true ∧
          max (5#32).toNat ((((wh (sreq 5#32)).fillLine (st0.flat / 64 * 64)).lineTs (st0.flat / 64 * 64)).2.toNat + 1) < 2 ^ 32 := by decide +kernel

def at_home_store_rebase : State :=
  { w0 with msgs := [sreq 5], homeTs := [(line0, (3, 0xFFFFFFFF))] }

theorem test_wit_home_store_rebase :
    at_home_store_rebase.msgs[0]? = some (sreq 5#32) ∧
  (sreq 5#32).kind = MsgKind.storeReq st0 5#32 ∧
    at_home_store_rebase.homeTurn 0 (sreq 5#32) st0.flat = Turn.go ∧
      at_home_store_rebase.roomBack (homeDie (st0.flat / 64 * 64)) (sreq 5#32).agent 0 = true ∧
        Memory.wf at_home_store_rebase.mem = true ∧
          2 ^ 32 ≤ max (5#32).toNat (((at_home_store_rebase.fillLine (st0.flat / 64 * 64)).lineTs (st0.flat / 64 * 64)).2.toNat + 1) := by decide +kernel

theorem test_wit_evict :
    smFind (wh (sreq 5#32)).homeTs line0 = some (3#32, 9#32) := by decide +kernel

/-! TileReplies -/

theorem test_wit_tile_load :
    (wx id (lrep (some 5#512))).msgs[0]? = some (lrep (some 5#512)) ∧
  (lrep (some 5#512)).kind = MsgKind.loadRep line0 (30#32) (46#32) (some 5#512) ∧
    (wx id (lrep (some 5#512))).replyTurn 0 (lrep (some 5#512)) line0 = true := by decide +kernel

def arg_tile_renew : CLine :=
  ⟨0, 100, 0x80⟩

theorem test_wit_tile_renew :
    (wx hit0 (lrep none)).msgs[0]? = some (lrep none) ∧
  (lrep none).kind = MsgKind.loadRep line0 (30#32) (46#32) none ∧
    (wx hit0 (lrep none)).replyTurn 0 (lrep none) line0 = true ∧
      smFind ((wx hit0 (lrep none)).getTile (agentTile (lrep none).agent)).lines line0 = some arg_tile_renew := by decide +kernel

def at_tile_store : State :=
  wx (fun t => { hit0 t with sbuf := [st0] }) (srep 0 7)

theorem test_wit_tile_store :
    at_tile_store.msgs[0]? = some (srep 0#32 7#512) ∧
  (srep 0#32 7#512).kind = MsgKind.storeRep line0 30#32 0#32 7#512 ∧
    at_tile_store.replyTurn 0 (srep 0#32 7#512) line0 = true ∧
      at_tile_store.sbufOf (srep 0#32 7#512).agent = [st0] ∧
        smFind (at_tile_store.getTile (agentTile (srep 0#32 7#512).agent)).lines line0 = some arg_tile_renew := by decide +kernel

def at_redack : State :=
  wx id ⟨.redAck 30, w0.me, 1, 0, 0, none, true, false, 0⟩

def arg_redack : Msg :=
  ⟨.redAck 30, w0.me, 1, 0, 0, none, true, false, 0⟩

theorem test_wit_redack :
    at_redack.msgs[0]? = some arg_redack ∧ arg_redack.kind = MsgKind.redAck 30#32 ∧ arg_redack.arrived = true := by decide +kernel

def at_sb_send : State :=
  wt fun t => { t with sbuf := [{ st0 with sent := false }] }

def arg_sb_send : StoreEnt :=
  { st0 with sent := false }

theorem test_wit_sb_send :
    at_sb_send.sbufOf w0.me = [arg_sb_send] ∧
  arg_sb_send.sent = false ∧
    arg_sb_send.ty = 0#3 ∧
      at_sb_send.rebasing = false ∧ at_sb_send.room (tileDie (agentTile w0.me)) (tileLocal (agentTile w0.me)) (homeDie arg_sb_send.flat) 0 = true := by decide +kernel

def at_sb_send5 : State :=
  wt fun t => { t with sbuf := [{ st0 with sent := false, ty := 5 }] }

def arg_sb_send5 : StoreEnt :=
  { st0 with sent := false, ty := 5 }

theorem test_wit_sb_send5 :
    at_sb_send5.sbufOf w0.me = [arg_sb_send5] ∧
  arg_sb_send5.sent = false ∧
    arg_sb_send5.ty.toNat ∈ [3, 4, 5, 7] ∧ at_sb_send5.room (tileDie (agentTile w0.me)) (tileLocal (agentTile w0.me)) arg_sb_send5.home 0 = true := by decide +kernel

def at_depissue_signal : State :=
  (wd { dep 2 .armed with step := .signal 0x10040 1 }).modCur fun t => { t with tlb := [e6] }

def arg_depissue_signal : DepEnt :=
  { dep 2 .armed with step := .signal 0x10040 1 }

/-! DependenceEvents -/

theorem test_wit_depissue_signal :
    DepDue at_depissue_signal 0 1 u0 2 arg_depissue_signal ∧ arg_depissue_signal.step = DepStep.signal 65600#64 1#2 := ⟨by unfold DepDue; decide +kernel, by decide +kernel⟩

theorem test_wit_depissue_none :
    (wd (dX dS)).owner? 0 = some 1 ∧
  (wd (dX dS)).launch? 1 = some u0 ∧
    u0.issues = true ∧
      u0.region.head? = some 0 ∧
        ∀ f ∈ ((wd (dX dS)).getTile 0).deps, (wd (dX dS)).depCan 0 u0 (List.any ((wd (dX dS)).getTile 0).deps fun f => f.2.rearmed) f.1 f.2 = false := by decide +kernel

def at_reply_none : State :=
  { w0 with msgs := [rep .none 0x01] }

/-! EngineReplies -/

theorem test_wit_reply_none :
    ReplyDue at_reply_none 0 (rep ReplyTo.none 1#8) ReplyTo.none (1#8) (0#3) true (119#64) (9#32) none ∧
  atomicCode (1#8).toNat = true ∧ at_reply_none.owner? (agentTile (rep ReplyTo.none 1#8).agent) = some (rep ReplyTo.none 1#8).owner := ⟨by unfold ReplyDue; decide +kernel, by decide +kernel⟩

def at_packet_read : State :=
  rOf ((wSr sReq).serveRead 4 0 ⟨0, [(0, 0)]⟩ 0 0 line1 50 (seqAgent 0) 1 false)

/-! FlowsBetweenDies -/

theorem test_wit_packet_read :
    (wSr sReq).msgs[0]? = some sReq ∧
  sReq.kind = MsgKind.streamReq 4 0 [(0, 0)] (0#3) 0 line1 50 false ∧
    sReq.arrived = true ∧
      (wSr sReq).landTurn 0 sReq (0#3) line1 = Turn.go ∧
        (wSr sReq).serveRead 4 0 { va := 0, bytes := [(0, 0)] } (0#3) 0 line1 50 sReq.agent sReq.owner false = SRes.done at_packet_read := ⟨by decide +kernel, by decide +kernel, by decide +kernel, by decide +kernel, done_of _ _ (by decide +kernel)⟩

theorem test_wit_packet_read_q :
    (wSm sReq).msgs[0]? = some sReq ∧
  sReq.kind = MsgKind.streamReq 4 0 [(0, 0)] (0#3) 0 line1 50 false ∧ sReq.arrived = true ∧ (wSm sReq).landTurn 0 sReq (0#3) line1 = Turn.queue := by decide +kernel

def at_packet_write : State :=
  ((wSr sWr).streamLand 0 2 (seqAgent 0) 1 0 0 line1 255 0x77 5).getD w0

theorem test_wit_packet_write :
    (wSr sWr).msgs[0]? = some sWr ∧
  sWr.kind = MsgKind.streamWr 2 255 (0#3) 0 line1 64 (119#512) (5#32) false ∧
    sWr.arrived = true ∧
      0#3 ≠ 1#3 ∧
        0#3 ≠ 2#3 ∧
          (wSr sWr).landTurn 0 sWr (0#3) line1 = Turn.go ∧
            (wSr sWr).streamLand (2 / 4) (2 % 4) sWr.agent sWr.owner sWr.run (0#3) line1 255 119#512 5#32 = some at_packet_write := by decide +kernel

theorem test_wit_packet_write_q :
    (wSm sWr).msgs[0]? = some sWr ∧
  sWr.kind = MsgKind.streamWr 2 255 (0#3) 0 line1 64 (119#512) (5#32) false ∧
    sWr.arrived = true ∧ 0#3 ≠ 1#3 ∧ 0#3 ≠ 2#3 ∧ (wSm sWr).landTurn 0 sWr (0#3) line1 = Turn.queue := by decide +kernel

def at_tile_store_new : State :=
  wx (fun t => { hit0 t with sbuf := [st0] }) (srep 2 7)

/-! TileReplies -/

theorem test_wit_tile_store_new :
    at_tile_store_new.msgs[0]? = some (srep 2#32 7#512) ∧
  (srep 2#32 7#512).kind = MsgKind.storeRep line0 30#32 2#32 7#512 ∧
    at_tile_store_new.replyTurn 0 (srep 2#32 7#512) line0 = true ∧
      at_tile_store_new.sbufOf (srep 2#32 7#512).agent = [st0] ∧
        smFind (at_tile_store_new.getTile (agentTile (srep 2#32 7#512).agent)).lines line0 = some arg_tile_renew := by decide +kernel

/-- A die none of whose slots is used gives the first it is asked for. -/
theorem takeSlot_unused (d : Die) (k : Nat) (h : ∀ j, d.slotUsed j = false) : d.takeSlot k = .slot (k % slotCount) d := by
  have e : d.freeSlot k slotCount = some (k % slotCount) := by
    show d.freeSlot k (131071 + 1) = _
    simp [Die.freeSlot, h]
  simp [Die.takeSlot, e]

/-- The die of a queue whose only record lies in the overflow area. -/
def wSp : State := wq (cq 0x32 5) { q1 with recs := [{ rec0 with spilled := true }] }

theorem test_wit_overflow_gran : (wSp.getDie 0).granWant = some 5 ∧ (wSp.queue 0 5).recs = { rec0 with spilled := true } :: [] ∧
    ∃ slot d, (wSp.fresh.2.getDie 0).takeSlot wSp.fresh.1.toNat = .slot slot d ∧ d.queue 5 = wSp.queue 0 5 := by
  refine ⟨by decide +kernel, by decide +kernel, wSp.fresh.1.toNat % slotCount, wSp.getDie 0, ?_, by decide +kernel⟩
  have e : wSp.fresh.2.getDie 0 = wSp.getDie 0 := rfl
  rw [e]
  exact takeSlot_unused _ _ fun j => by simp [wSp, wq, wcd, Die.slotUsed, State.modDie, State.getDie, wc, w0, State.reset, q1, rec0, Queue.reset, smGet, smFind, smPut, Die.reset]

end Services

namespace Overflow

def wpS : State := wp (phc 0x22 1) { ph0 with spilled := true }
def cq (code : BitVec 8) (a : Nat) : SyncCmd := cmdOf code 0 a 0 0x900000000 0
def fr : FlowRef := ⟨8, 0⟩
def crossing : Msg := { msgOf (cq 0x30 5) with flow := some fr, arrived := false }

def arg_overflow_conc : Die :=
  ((((wpS.getDie 0).unspill (phKey 0x40)).take (phKey 0x40)).getD Die.reset)

/-! GranaryCommands -/

theorem test_wit_overflow_conc :
    wpS.concWant 0 = some (0, phKey 64) ∧ ((wpS.getDie 0).unspill (phKey 64)).take (phKey 64) = some arg_overflow_conc := by decide +kernel

theorem test_wit_packet : let s := { w0 with msgs := [crossing] }
    s.msgs[0]? = some crossing ∧ crossing.flow = some fr ∧ crossing.arrived = false ∧ s.mayArrive fr crossing.kind.inOrder = true ∧
    (∀ pn mk ty h f n d c o, crossing.kind ≠ .streamWr pn mk ty h f n d c o) ∧
    (∀ pn key b ty h f n o, crossing.kind ≠ .streamReq pn key b ty h f n o) ∧ (∀ f n w d, crossing.kind ≠ .accessRep f n w d) :=
  ⟨rfl, rfl, rfl, by decide +kernel, fun _ _ _ _ _ _ _ _ _ => by simp [crossing, msgOf], fun _ _ _ _ _ _ _ _ => by simp [crossing, msgOf],
    fun _ _ _ _ => by simp [crossing, msgOf]⟩

end Overflow

namespace Clocks

def wsp (v : Nat) : State := wt fun t => { t with spin := ⟨0, 64, some v⟩ }
def wrb : State := { wt hit0 with rebasing := true }

def at_mmaq_early : State :=
  (wv 2 (stw 0xE2 7 0 0 1 0 1 0 1) (fl 7 0 5) (fl 7 2 6))

/-! MatrixStages -/

theorem test_wit_mmaq_early :
    StageReady at_mmaq_early 0 2 226 ∧
  at_mmaq_early.head 0 2 false = Head.flit (fl 7 (0#3) 5) ∧
    (fl 7 (0#3) 5).beat = false ∧
      (at_mmaq_early.cp 0).needsConv 2 false (fl 7 (0#3) 5) = false ∧ ((fl 7 (0#3) 5).isSide = true ↔ (at_mmaq_early.cp 0).netx ≠ []) := ⟨by unfold StageReady; decide +kernel, by decide +kernel⟩

def at_drift : State :=
  { w0 with clk := 4096 }

/-! DriftAndRebases -/

theorem test_wit_drift :
    0 < 1600 ∧ (at_drift.getTile 0).spr.drift.toNat ≤ at_drift.clk - (at_drift.getTile 0).drifted ∧ (at_drift.getTile 0).spr.lclk.toNat + 1 < 2 ^ 32 := by decide +kernel

theorem test_wit_spin :
    ((wsp 77).spinOf w0.me).due = some 77 ∧ 77 < 2 ^ 32 := by decide +kernel

theorem test_wit_spin_rebase :
    ((wsp 4294967296).spinOf w0.me).due = some 4294967296 ∧ 2 ^ 32 ≤ 4294967296 := by decide +kernel

def at_rebase_start : State :=
  w0.modDie 0 fun d => { d with wantRebase := true }

theorem test_wit_rebase_start :
    0 < 16 ∧ at_rebase_start.rebasing = false ∧ at_rebase_start.rebaseDue 0 = true := by decide +kernel

theorem test_wit_rebase_complete :
    wrb.rebasing = true ∧ ∀ m ∈ wrb.msgs, m.kind.timed = false ∨ wrb.tsWaits m = true := by decide +kernel

def arg_rebase_cache : Tile :=
  { Tile.reset with lines := [(64, ⟨0x80000005, 0x80000010, 3⟩)] }

def arg_rebase_cache_3 : CLine :=
  ⟨5, 16, 3⟩

theorem test_wit_rebase_cache :
    smFind arg_rebase_cache.rebase.lines 64 = some arg_rebase_cache_3 := by decide +kernel

end Clocks

namespace Mesh

def goC (c : Nat) : State := { w0 with launches := [(1, { uP .active with run := true })], cells := [(c, { Cell.reset with planes := [(0, CellPlane.reset)] })] }
def mesh (c : Nat) (f : CellPlane → CellPlane) : State := (goC c).modCp c f
def f1 : Flit := fl 2 0 0x1234
def toEast : State := { w0 with launches := [(1, { uP .active with run := true })],  cells := [(0, { Cell.reset with planes := [(0, CellPlane.reset.setBox 1 [f1])] }), (1, { Cell.reset with planes := [(0, { CellPlane.reset with route := 0x20 })] })] }
def outC : State := mesh 0 fun p => { p.setLink lkOut [f1] with route := 0x28 }
def ev2 : State := mesh 0 fun p => { p with events := [(1, 2)] }
def egw : State := mesh 0 fun p => { p with events := [(4, 1)], stages := [(1, stw 0x20 0 0 0 0 0 0 8 0)] }
def fifoC (m : Nat) (f : CellPlane → CellPlane) : State := mesh 1 fun p => f { p.setLink lkSin [f1] with mode := BitVec.ofNat 64 (m * 2 ^ 60 + (2 * 16) * 2 ^ 36 + 1 * 2 ^ 24 + 3 * 2 ^ 12 + 4) }

/-! StaticMesh -/

theorem test_wit_flit_hop :
    toEast.cellGoes 0 = true ∧
  1 < 4 ∧
    (toEast.cp 0).box 1 = [f1] ∧
      neighbour 0 1 = some 1 ∧
        f1.beat = false ∧ (toEast.cp 1).named (facing 1 + 1) ≠ [] ∧ (toEast.cp 1).boxRoom ((toEast.cp 1).named (facing 1 + 1)) = true ∧ cellCol 1 < 48 := by decide +kernel

theorem test_wit_flit_out :
    outC.cellGoes 0 = true ∧
  (outC.cp 0).link lkOut = [f1] ∧
    f1.beat = false ∧ f1.parityOk = true ∧ (outC.cp 0).named 5 ≠ [] ∧ (outC.cp 0).boxRoom ((outC.cp 0).named 5) = true ∧ isBCell 0 = false := by decide +kernel

theorem test_wit_pulse :
    smFind (ev2.cp 0).events 1 = some 2 ∧ 1 < 4 ∧ neighbour 0 1 = some 1 ∧ 2 ≤ 2 := by decide +kernel

theorem test_wit_pulse_gate :
    smFind (egw.cp 0).events 4 = some 1 ∧ isVCell 0 = true ∧ bitOf ((egw.cp 0).stageFields 1).flags 3 = true ∧ (stageF ((egw.cp 0).stage 1)).op / 32 = 1 := by decide +kernel

theorem test_wit_fifo_append :
    (fifoC 2 id).bRuns 1 2 = true ∧
  ((fifoC 2 id).cp 1).bIn = [f1] ∧ f1.beat = false ∧ ((fifoC 2 id).cp 1).fifoTags.length < ((fifoC 2 id).cp 1).mode.toNat % 2 ^ 12 := by decide +kernel

def at_fifo_leave : State :=
  fifoC 2 fun p => { p with fifoTags := [(2, 1)] }

theorem test_wit_fifo_leave :
    at_fifo_leave.bRuns 1 2 = true ∧ (at_fifo_leave.cp 1).fifoTags = [(2#3, 1#3)] ∧ ((at_fifo_leave.cp 1).link lkOut).length < 2 := by decide +kernel

def at_linebuf : State :=
  fifoC 3 fun p => { p with fifoRd := 2 }

theorem test_wit_linebuf :
    at_linebuf.bRuns 1 3 = true ∧
  smGet [] (at_linebuf.cp 1).pend 7 = [] ∧ (at_linebuf.cp 1).bIn = [f1] ∧ f1.beat = false ∧ ((at_linebuf.cp 1).link lkOut).length < 2 := by decide +kernel

def at_linebuf_pend : State :=
  fifoC 3 fun p => { p with fifoRd := 2, pend := [(7, [(fl 2 1 5, 0)])] }

theorem test_wit_linebuf_pend :
    at_linebuf_pend.bRuns 1 3 = true ∧ smGet [] (at_linebuf_pend.cp 1).pend 7 = [(fl 2 (1#3) 5, 0)] ∧ ((at_linebuf_pend.cp 1).link lkOut).length < 2 := by decide +kernel

end Mesh

namespace Streams

def tOf : TRes → Target
  | .ok t _ => t
  | _ => ⟨0, 0, 0, 0, false, false⟩
def pat8 : Pattern := ⟨0x10000, 8, 8, 0⟩
def cmd8 (op : BitVec 3) (d s t : Word) : Cmd := { Cmd.new op pat8 d s t 1 0 false 0 1 0 (some 0) 5 with begun := true, readClk := 5 }
def lA : Launch := { uP .active with run := true }
def wsE (c : Cmd) : State :=
  { wlt lA (fun t => { hit0 t with ports := [(2, { PortQ.reset with entries := [.cmd c], order := 9 })] }) with
    homeTs := [(gddrBase + 0x20000, (3, 9)), (gddrBase + 0x20040, (3, 9))], cells := [(1, { Cell.reset with planes := [(0, { CellPlane.reset with mode := 0x2000000000003004 })] })] }
def p8 (c : Cmd) : Part := (nextPart (c.pat.bytes c.pos (c.pat.flitElems c.pos)) c.done).getD ⟨0, []⟩
def c0 : Cmd := cmd8 0 0 0 0
def cN : Cmd := { c0 with begun := false }
def tr0 : TRes := (wsE c0).partTarget 0 2 lA (p8 c0) .r plainType
def c4 : Cmd := cmd8 4 0x10040 0x77 64
def p4 : Part := (nextPart (run64 (c4.d.toNat + c4.pos) c4.piece.2) c4.done).getD ⟨0, []⟩
def tr4 : TRes := (wsE c4).partTarget 0 2 lA p4 .w plainType
def v4 : State := ((tres tr4).streamLand 0 2 (seqAgent (lA.region.headD 0)) c4.owner ((tres tr4).runOf c4.owner) 0 (tOf tr4).flat p4.lineMask
      (p4.scatter (BitVec.ofNat 512 (packBits 64 (List.replicate 8 c4.s.toNat)))) c4.readClk).getD w0
def c4d : Cmd := { c4 with done := 2 ^ 64 - 1 }
def c1 : Cmd := { cmd8 1 0 0 0 with cell := 0 }
def f1 : Flit := fl 2 0 0x1234
def wo : State := { wsE c1 with cells := [(0, { Cell.reset with planes := [(0, CellPlane.reset.setLink lkSout [f1])] })] }
/-- The tile's leaf names the memory of die 1. -/
def wFar (c : Cmd) : State := (wsE c).modCur fun t => { t with tlb := [{ e0 with pte := 0x1000008000200C1 }] }
def trF : TRes := (wFar c0).partTarget 0 2 lA (p8 c0) .r plainType
def ret (n : Nat) (c : Cmd) : Msg := ⟨.streamRet 2 n 0 0x1122 false, seqAgent 0, 1, 0, 0, none, true, false, 0⟩
def cr (c : Cmd) : Cmd := { c with done := 2 ^ 64 - 1, reading := true }
def wr (c : Cmd) : State := { wsE c with msgs := [ret (2 ^ 64 - 1) c] }
def c5 : Cmd := cr (cmd8 5 0x10040 0x10000 64)
def cC : Cmd := { c0 with cut := true, maxTs := 12 }
def wqf : State := wlt lA fun t => { t with ports := [(2, { PortQ.reset with entries := [.fence 7], order := 9 })] }
def c6 : Cmd := { cmd8 6 0x10000 2 0 with buf := [(4, BitVec.ofNat 512 (0x10100 + 0x10200 * 2 ^ 64 + 64 * 2 ^ 128 + 8 * 2 ^ 160 + 1 * 2 ^ 192 + 4 * 2 ^ 224))], pos := 100 }
def x6 : Part := (nextPart (run64 (c6.d.toNat + 24) 4) 0).getD ⟨0, []⟩
def sOf : SRes → State
  | .done s => s
  | _ => w0
def u6 : State := sOf ((wsE c6).streamWrite 0 2 lA c6 x6 (BitVec.ofNat 512 (c6.kv 24 4 + c6.kvList.length)))
def acc (wr : Bool) : Msg := ⟨.access 4 0 (gddrBase + 0x100) 8 wr 0x1122334455667788, seqAgent 0, 1, 0, 0, none, true, false, 0⟩

/-! StreamEngines -/

theorem test_wit_stream_begin :
    (((wsE cN).getTile 0).port 2).cmd? = some cN ∧
  (wsE cN).launch? cN.owner = some lA ∧
    2 < 4 ∧
      cN.begun = false ∧
        cN.runsOn lA = true ∧
          lA.st ≠ UState.stopping ∧
            lA.st ≠ UState.ending ∧
              ((wsE cN).getTile (lA.region.headD 0)).sbuf = [] ∧ (wsE cN).sideBusy cN = false ∧ (wsE cN).portOk cN = true ∧ cN.empty = false := by decide +kernel

def at_stream_begin_bad : State :=
  { wsE cN with cells := [] }

theorem test_wit_stream_begin_bad :
    ((at_stream_begin_bad.getTile 0).port 2).cmd? = some cN ∧
  at_stream_begin_bad.launch? cN.owner = some lA ∧
    2 < 4 ∧
      cN.begun = false ∧
        cN.runsOn lA = true ∧
          lA.st ≠ UState.stopping ∧
            lA.st ≠ UState.ending ∧
              (at_stream_begin_bad.getTile (lA.region.headD 0)).sbuf = [] ∧
                at_stream_begin_bad.sideBusy cN = false ∧ at_stream_begin_bad.portOk cN = false := by decide +kernel

theorem test_wit_stream_read :
    EngineDue (wsE c0) 0 2 c0 lA ∧
  c0.op = 0#3 ∧
    nextPart (c0.pat.bytes c0.pos (c0.pat.flitElems c0.pos)) c0.done = some (p8 c0) ∧
      (wsE c0).partTarget 0 2 lA (p8 c0) Need.r plainType = TRes.ok (tOf tr0) (tres tr0) ∧
        (tOf tr0).ty = 0#3 ∧
          (tOf tr0).home = tileDie 0 ∧
            (tres tr0).homeOpen (tOf tr0).flat = true ∧ c0.readClk.toNat + ((tres tr0).getTile (lA.region.headD 0)).spr.lease.toNat < 2 ^ 32 := ⟨by unfold EngineDue; decide +kernel, by decide +kernel, by decide +kernel, tres_of _ _ _ (by decide +kernel), by decide +kernel⟩

theorem test_wit_stream_fill :
    EngineDue (wsE c4) 0 2 c4 lA ∧
  c4.op = 4#3 ∧
    nextPart (run64 (BitVec.toNat c4.d + c4.pos) c4.piece.2) c4.done = some p4 ∧
      (wsE c4).partTarget 0 2 lA p4 Need.w plainType = TRes.ok (tOf tr4) (tres tr4) ∧
        (tOf tr4).ty = 0#3 ∧
          (tOf tr4).home = tileDie 0 ∧
            (tres tr4).rebasing = false ∧
              (tres tr4).homeOpen (tOf tr4).flat = true ∧
                (tres tr4).streamLand 0 2 (seqAgent (lA.region.headD 0)) c4.owner ((tres tr4).runOf c4.owner) (0#3) (tOf tr4).flat p4.lineMask
                    (p4.scatter (BitVec.ofNat 512 (packBits 64 (List.replicate 8 (BitVec.toNat c4.s))))) c4.readClk =
                  some v4 := ⟨by unfold EngineDue; decide +kernel, by decide +kernel, by decide +kernel, tres_of _ _ _ (by decide +kernel), by decide +kernel⟩

theorem test_wit_stream_piece :
    EngineDue (wsE c4d) 0 2 c4d lA ∧ c4d.op = 4#3 ∧ nextPart (run64 (BitVec.toNat c4d.d + c4d.pos) c4d.piece.2) c4d.done = none := ⟨by unfold EngineDue; decide +kernel, by decide +kernel⟩

theorem test_wit_stream_take :
    EngineDue wo 0 2 c1 lA ∧
  c1.op = 1#3 ∧ c1.has 3 = false ∧ (wo.cp c1.cell).link lkSout = [f1] ∧ f1.beat = false ∧ wo.cellFeeds c1.cell = true ∧ f1.marked = false := ⟨by unfold EngineDue; decide +kernel, by decide +kernel⟩

def at_stream_land : State :=
  { w0 with homeTs := [(gddrBase, (3, 9))] }

theorem test_wit_stream_land :
    Memory.wf at_stream_land.mem = true ∧ max (5#32).toNat (((at_stream_land.fillLine gddrBase).lineTs gddrBase).2.toNat + 1) < 2 ^ 32 := by decide +kernel

theorem test_wit_stream_read_far :
    EngineDue (wFar c0) 0 2 c0 lA ∧
  c0.op = 0#3 ∧
    nextPart (c0.pat.bytes c0.pos (c0.pat.flitElems c0.pos)) c0.done = some (p8 c0) ∧
      (wFar c0).partTarget 0 2 lA (p8 c0) Need.r plainType = TRes.ok (tOf trF) (tres trF) ∧
        (tOf trF).ty = 0#3 ∧
          (tOf trF).home ≠ tileDie 0 ∧ (tres trF).rebasing = false ∧ (tres trF).room (tileDie 0) (tileLocal 0) (tOf trF).home 1 = true := ⟨by unfold EngineDue; decide +kernel, by decide +kernel, by decide +kernel, tres_of _ _ _ (by decide +kernel), by decide +kernel⟩

theorem test_wit_stream_halts :
    (c0.op = 0#3 ∨ c0.op = 2#3) ∧ (wsE c0).launch? c0.owner = some lA ∧ lA.run = true := by decide +kernel

def at_halted : State :=
  { wsE c0 with launches := [(1, { lA with halted := true })] }

def arg_halted : Launch :=
  { lA with halted := true }

theorem test_wit_halted :
    at_halted.owner? (cellTile 0) = some 1 ∧ at_halted.launch? 1 = some arg_halted ∧ arg_halted.halted = true := by decide +kernel

theorem test_wit_stream_return_copy :
    (wr c5).msgs[0]? = some (ret (2 ^ 64 - 1) c5) ∧
  (ret (2 ^ 64 - 1) c5).kind = MsgKind.streamRet 2 (2 ^ 64 - 1) 0 (4386#512) false ∧
    (ret (2 ^ 64 - 1) c5).arrived = true ∧
      (wr c5).headOf (2 / 4) (2 % 4) (ret (2 ^ 64 - 1) c5).owner = some c5 ∧
        (wr c5).launch? (ret (2 ^ 64 - 1) c5).owner = some lA ∧ lA.frozen = false ∧ (c5.bound && lA.emptied && !c5.has 3) = false ∧ c5.op = 5#3 := by decide +kernel

theorem test_wit_stream_performed :
    (((wsE cC).getTile 0).port 2).cmd? = some cC ∧
  (wsE cC).launch? cC.owner = some lA ∧
    2 < 4 ∧ cC.begun = true ∧ cC.cut = true ∧ cC.reading = false ∧ cC.waiting = 0 ∧ lA.frozen = false ∧ cC.dep = none := by decide +kernel

theorem test_wit_qfence :
    wqf.owner? 0 = some 1 ∧
  wqf.launch? 1 = some lA ∧
    lA.region = [0] ∧
      2 < 4 ∧ ((wqf.getTile 0).port 2).entries = [QEnt.fence 7] ∧ ∀ q < 4, q ≠ 2 → ∀ e ∈ ((wqf.getTile 0).port q).entries, e.isFence 7 = false := by decide +kernel

theorem test_wit_kvc :
    EngineDue (wsE c6) 0 2 c6 lA ∧
  c6.op = 6#3 ∧
    c6.has 4 = true ∧
      c6.kvOk = true ∧
        c6.kvPieces ≤ c6.pos ∧
          c6.waiting = 0 ∧
            (wsE c6).flowsAcked [0] false = true ∧
              nextPart (run64 (BitVec.toNat c6.d + 24) 4) 0 = some x6 ∧
                (wsE c6).streamWrite 0 2 lA c6 x6 (BitVec.ofNat 512 (c6.kv 24 4 + c6.kvList.length)) = SRes.done u6 := ⟨by unfold EngineDue; decide +kernel, by decide +kernel, by decide +kernel, by decide +kernel, by decide +kernel, by decide +kernel, by decide +kernel, by decide +kernel, done_of _ _ (by decide +kernel)⟩

def at_direct_write : State :=
  { w0 with msgs := [acc true] }

/-! DirectAccesses -/

theorem test_wit_direct_write :
    at_direct_write.msgs[0]? = some (acc true) ∧
  (acc true).kind = MsgKind.access (4#3) 0 (gddrBase + 256) 8 true 1234605616436508552#512 ∧
    (4#3 = 4#3 ∨ 4#3 = 5#3) ∧ at_direct_write.directTurn 0 (acc true) = true ∧ Memory.wf at_direct_write.mem = true := by decide +kernel

def at_direct_read : State :=
  { w0 with msgs := [acc false] }

theorem test_wit_direct_read :
    at_direct_read.msgs[0]? = some (acc false) ∧
  (acc false).kind = MsgKind.access (4#3) 0 (gddrBase + 256) 8 false 1234605616436508552#512 ∧
    (4#3 = 4#3 ∨ 4#3 = 5#3) ∧ at_direct_read.directTurn 0 (acc false) = true ∧ replyDie (acc false).die (acc false).agent = (acc false).die := by decide +kernel

/-! StreamEngines -/

theorem test_wit_stream_return :
    (wr (cr c0)).msgs[0]? = some (ret (2 ^ 64 - 1) c0) ∧
  (ret (2 ^ 64 - 1) c0).kind = MsgKind.streamRet 2 (2 ^ 64 - 1) 0 (4386#512) false ∧
    (ret (2 ^ 64 - 1) c0).arrived = true ∧
      (wr (cr c0)).headOf (2 / 4) (2 % 4) (ret (2 ^ 64 - 1) c0).owner = some (cr c0) ∧
        (wr (cr c0)).launch? (ret (2 ^ 64 - 1) c0).owner = some lA ∧
          lA.frozen = false ∧
            ((cr c0).bound && lA.emptied && !(cr c0).has 3) = false ∧
              (cr c0).op = 0#3 ∧
                nextPart ((cr c0).pat.bytes (cr c0).pos ((cr c0).pat.flitElems (cr c0).pos)) (cr c0).done = none ∧
                  lA.run = true ∧
                    lA.drain = none ∧ (wr (cr c0)).cellFeeds (cr c0).cell = true ∧ (cr c0).awake lA = true ∧ (wr (cr c0)).portFree (cr c0) = true := by decide +kernel

/-! DirectAccesses -/

theorem test_wit_direct_bytes :
    3 < 8 := by decide +kernel

theorem test_wit_direct_plain :
    4#3 ≠ 3#3 ∧ laneAt (4#3) (gddrBase + 256) = none := by decide +kernel

theorem test_wit_direct_lane :
    laneAt (4#3) (cellBase 0 + 3139) = some (0, 49, 3) := by decide +kernel

end Streams

namespace Transfers

def fOf : TRes → Nat
  | .fault c => c
  | _ => 0
def pat8 : Pattern := ⟨0x10000, 8, 8, 0⟩
def cmd8 (op : BitVec 3) (d s t : Word) : Cmd := { Cmd.new op pat8 d s t 1 0 false 0 1 0 (some 0) 5 with begun := true, readClk := 5 }
def lA : Launch := { uP .active with run := true }
def wsE (c : Cmd) : State :=
  { wlt lA (fun t => { hit0 t with ports := [(2, { PortQ.reset with entries := [.cmd c], order := 9 })] }) with
    homeTs := [(gddrBase + 0x20000, (3, 9)), (gddrBase + 0x20040, (3, 9))], cells := [(1, { Cell.reset with planes := [(0, { CellPlane.reset with mode := 0x2000000000003004 })] })] }
def p8 (c : Cmd) : Part := (nextPart (c.pat.bytes c.pos (c.pat.flitElems c.pos)) c.done).getD ⟨0, []⟩
def c0 : Cmd := cmd8 0 0 0 0
def cF : Cmd := { c0 with pat := ⟨0x40000, 8, 8, 0⟩ }
def sF : State := (wsE cF).modCur fun t => { t with ports := [(2, { PortQ.reset with entries := [.cmd cF], ld := ⟨[], [(4, .fail 0x24 2)], false⟩ })] }
def trB : TRes := sF.partTarget 0 2 lA (p8 cF) .r plainType

/-! StreamEngines -/

theorem test_wit_stream_read_bad :
    EngineDue sF 0 2 cF lA ∧
  cF.op = 0#3 ∧
    nextPart (cF.pat.bytes cF.pos (cF.pat.flitElems cF.pos)) cF.done = some (p8 cF) ∧
      sF.partTarget 0 2 lA (p8 cF) Need.r plainType = TRes.fault (fOf trB) := ⟨by unfold EngineDue; decide +kernel, by decide +kernel, by decide +kernel, tfault_of _ _ (by decide +kernel)⟩

end Transfers

namespace Tokens

def tk (c : Nat) (slot field : Nat) (d : Word) (fmt : BitVec 3) : Token := Token.seal (mkTok (destCode c) slot field ⟨1, 2, 0⟩ fmt 0 d)
def nt (c : Nat) (slot field : Nat) (d : Word) (fmt : BitVec 3) : NetTok := ⟨tk c slot field d fmt, [], c, c, 1, false, none, true, 0⟩
/-- Cell 48 of tile 6 with a slot word and a token at it. -/
def wk (w : BitVec 128) (t : NetTok) (f : CellPlane → CellPlane) : State :=
  { w0 with launches := [(1, { uP .active with run := true, region := [6] })], tiles := [(6, { Tile.reset with owner := some 1 })],
            cells := [(48, { Cell.reset with planes := [(0, f { CellPlane.reset with slots := [(1, w)], dests := [(0, 0x90000000 + BitVec.ofNat 64 (2 ^ 18 + 48))] })] })], net := [t] }
/-- A slot word. -/
def sw (kind arity sticky lmask rmask entry tdest fdest chan cfmt : Nat) : BitVec 128 :=
  BitVec.ofNat 128 (kind + arity * 2 ^ 3 + sticky * 2 ^ 5 + lmask * 2 ^ 32 + rmask * 2 ^ 40 + entry * 2 ^ 48 + tdest * 2 ^ 60 + fdest * 2 ^ 66 + chan * 2 ^ 72 + cfmt * 2 ^ 76)
def t1 : NetTok := { nt 48 1 0 0x55 0 with pos := 50 }
def t2 : NetTok := nt 48 1 0 0x55 0
def wFire : State := wk (sw 1 0 0 1 0 5 0 0 0 0) t2 id
def t2p : NetTok := { nt 48 1 2 1 0 with pred := true, tok := (nt 48 1 2 1 0).tok.asPred }
def wHold : State := { wk 0 { t2 with tok := { t2.tok with ctx := 0 } } id with launches := [(1, { uC with region := [6] })] }
def ent (slot field seq : Nat) (d : Word) : MEnt := ⟨tk 48 slot field d 0, [], false, seq, seq, false⟩
def wst (w : BitVec 128) (es : List MEnt) : State := { wk w t2 (fun p => { p with store := es }) with net := [] }
def sP : State := wst (sw 1 2 0 1 0 5 0 0 0 0) [ent 1 0 0 7, ent 1 2 1 0]
def sS : State := wst (sw 2 2 0 1 0 0 0 1 0 0) [ent 1 0 0 7, ent 1 2 1 1]
def fS : Firing := ⟨1, some (ent 1 0 0 7), none, some (ent 1 2 1 1)⟩
def uS : State := ((sS.modCp 48 fun p => p.consume (fS.inputs.map (·.seq))).forward 48 (sS.entry 48 0) (ent 1 0 0 7).tok.tag 0 0 [7]).getD w0
def sM : State := wst (sw 3 3 0 1 1 0 0 0 0 0) [ent 1 0 0 7, ent 1 1 1 8, ent 1 2 2 1]
def uM : State := ((sM.modCp 48 fun p => p.consume [2, 0]).forward 48 (sM.entry 48 0) (ent 1 0 0 7).tok.tag 0 0 [7]).getD w0
def sC : State := wk (sw 5 0 0 1 0 0 0 0 0 1) t2 id
def uC2 : State := let f := (sC.cp 48).slot 1
  let r := convTok f 0 0x55 0
  (((sC.dropTok 0).tokConverted 48 r.2.1 r.2.2).forward 48 (sC.entry 48 f.tdest) t2.tok.tag (BitVec.ofNat 3 f.cfmt) 0 r.1).getD w0

/-! TokensMoveAndArrive -/

theorem test_wit_hop :
    (wk (0#128) t1 id).net[0]? = some t1 ∧
  t1.pred = false ∧
    t1.arrived = true ∧
      t1.pos ≠ destCell t1.tok.dest ∧ (wk (0#128) t1 id).tokGoes t1 = true ∧ ∀ x ∈ List.take 0 (wk (0#128) t1 id).net, x.pos ≠ t1.pos := by decide +kernel

theorem test_wit_arrive :
    AtSlot wFire 0 t2 48 ∧
  (wFire.cp 48).filter t2 = Filtered.pass [85#64] t2.tok.fmt 0 (smGet (0#32) (wFire.cp 48).lfsr 63) ∧
    85#64 = t2.tok.data ∧ ((wFire.cp 48).slot t2.tok.slot.toNat).kind ∈ [1, 2, 3] ∧ (wFire.cp 48).entries + 1 + t2.more.length ≤ 128 := ⟨by unfold AtSlot; decide +kernel, by decide +kernel⟩

theorem test_wit_arrive_pred :
    AtSlot (wk (sw 1 2 0 1 0 5 0 0 0 0) t2p id) 0 t2p 48 ∧
  ((wk (sw 1 2 0 1 0 5 0 0 0 0) t2p id).cp 48).filter t2p =
      Filtered.pass [1#64] t2p.tok.fmt 0 (smGet (0#32) ((wk (sw 1 2 0 1 0 5 0 0 0 0) t2p id).cp 48).lfsr 63) ∧
    1#64 = t2p.tok.data ∧
      (((wk (sw 1 2 0 1 0 5 0 0 0 0) t2p id).cp 48).slot t2p.tok.slot.toNat).kind ∈ [1, 2, 3] ∧
        ((wk (sw 1 2 0 1 0 5 0 0 0 0) t2p id).cp 48).entries + 1 + t2p.more.length ≤ 128 := ⟨by unfold AtSlot; decide +kernel, by decide +kernel⟩

theorem test_wit_drop :
    AtSlot (wk (0#128) t2 id) 0 t2 48 ∧ ((wk (0#128) t2 id).cp 48).filter t2 = Filtered.drop 65 := ⟨by unfold AtSlot; decide +kernel, by decide +kernel⟩

theorem test_wit_pred_parity :
    (wk (0#128) t2p id).net[0]? = some t2p ∧ t2p.pred = true ∧ t2p.arrived = true := by decide +kernel

def arg_hold : NetTok :=
  { t2 with tok := { t2.tok with ctx := 0 } }

theorem test_wit_hold :
    wHold.net[0]? = some arg_hold ∧
  arg_hold.pred = false ∧
    arg_hold.arrived = true ∧
      48 = destCell arg_hold.tok.dest ∧
        arg_hold.pos = 48 ∧
          wHold.tokFirst 0 arg_hold = true ∧
            wHold.dueFirst 0 arg_hold = true ∧
              wHold.frozenLevel arg_hold = true ∧ (smGet [] (wHold.getCell 48).hold arg_hold.tok.ctx.toNat).length < 32 := by decide +kernel

theorem test_wit_absent :
    (CellPlane.reset.slot t2.tok.slot.toNat).kind = 0 := by decide +kernel

theorem test_wit_queue :
    AtSlot (wk (sw 4 0 0 1 0 0 0 0 3 0) t2 id) 0 t2 48 ∧
  t2.pred = false ∧
    (((wk (sw 4 0 0 1 0 0 0 0 3 0) t2 id).cp 48).slot t2.tok.slot.toNat).kind = 4 ∧
      t2.tok.field ≠ 3#2 ∧
        ((wk (sw 4 0 0 1 0 0 0 0 3 0) t2 id).cp 48).filter t2 =
            Filtered.pass [t2.tok.data] t2.tok.fmt 0 (smGet (0#32) ((wk (sw 4 0 0 1 0 0 0 0 3 0) t2 id).cp 48).lfsr 63) ∧
          (((wk (sw 4 0 0 1 0 0 0 0 3 0) t2 id).cp 48).chan (((wk (sw 4 0 0 1 0 0 0 0 3 0) t2 id).cp 48).slot t2.tok.slot.toNat).chan).length < 16 := ⟨by unfold AtSlot; decide +kernel, by decide +kernel⟩

def arg_false : Firing :=
  ⟨1, some (ent 1 0 0 7), none, some (ent 1 2 1 0)⟩

/-! SlotsThatForward -/

theorem test_wit_false :
    isTCell 48 = true ∧ sP.cellFeeds 48 = true ∧ ((sP.cp 48).slot 1).kind = 1 ∧ List.find? (fun f => !f.pred) ((sP.cp 48).ready 1) = some arg_false := by decide +kernel

theorem test_wit_steer :
    isTCell 48 = true ∧
  sS.cellFeeds 48 = true ∧
    ((sS.cp 48).slot 1).kind = 2 ∧
      earliest ((sS.cp 48).ready 1) = some fS ∧
        fS.l = some (ent 1 0 0 7#64) ∧
          (sS.modCp 48 fun p => p.consume (List.map (fun x => x.seq) fS.inputs)).forward 48
              (sS.entry 48 (if fS.pred = true then ((sS.cp 48).slot 1).tdest else ((sS.cp 48).slot 1).fdest)) (ent 1 0 0 7#64).tok.tag
              (ent 1 0 0 7#64).tok.fmt (ent 1 0 0 7#64).tok.aux [(ent 1 0 0 7#64).tok.data] =
            some uS := by decide +kernel

theorem test_wit_merge :
    isTCell 48 = true ∧
  sM.cellFeeds 48 = true ∧
    ((sM.cp 48).slot 1).kind = 3 ∧
      earliestPair
            (List.filterMap
              (fun q =>
                Option.map (fun e => (q, e)) (firstWith ((sM.cp 48).waitingAt 1 (if bitOf (BitVec.toNat q.tok.data) 0 = true then 0 else 1)) q.tok))
              ((sM.cp 48).waitingAt 1 2)) =
          some (ent 1 2 2 1#64, ent 1 0 0 7#64) ∧
        (sM.modCp 48 fun p => p.consume [(ent 1 2 2 1#64).seq, (ent 1 0 0 7#64).seq]).forward 48 (sM.entry 48 ((sM.cp 48).slot 1).tdest)
            (ent 1 0 0 7#64).tok.tag (ent 1 0 0 7#64).tok.fmt (ent 1 0 0 7#64).tok.aux [(ent 1 0 0 7#64).tok.data] =
          some uM := by decide +kernel

theorem test_wit_convert :
    AtSlot sC 0 t2 48 ∧
  t2.pred = false ∧
    ((sC.cp 48).slot t2.tok.slot.toNat).kind = 5 ∧
      t2.tok.field ≠ 3#2 ∧
        (sC.cp 48).filter t2 = Filtered.pass [85#64] t2.tok.fmt 0 0#32 ∧
          t2.tok.fmt ≠ 7#3 ∧
            ((sC.cp 48).slot t2.tok.slot.toNat).cfmt ≠ 7 ∧
              ((sC.owner? (cellTile 48)).isSome = true → sC.cellFeeds 48 = true) ∧
                ((sC.dropTok 0).tokConverted 48 (convTok ((sC.cp 48).slot t2.tok.slot.toNat) t2.tok.fmt.toNat 85#64 0#32).2.1
                        (convTok ((sC.cp 48).slot t2.tok.slot.toNat) t2.tok.fmt.toNat 85#64 0#32).2.2).forward
                    48 (sC.entry 48 ((sC.cp 48).slot t2.tok.slot.toNat).tdest) t2.tok.tag (BitVec.ofNat 3 ((sC.cp 48).slot t2.tok.slot.toNat).cfmt)
                    t2.tok.aux (convTok ((sC.cp 48).slot t2.tok.slot.toNat) t2.tok.fmt.toNat 85#64 0#32).1 =
                  some uC2 := ⟨by unfold AtSlot; decide +kernel, by decide +kernel⟩

theorem test_wit_absorb :
    isTCell 48 = true ∧
  (wst (sw 1 0 0 1 0 5 0 0 0 0) [ent 1 3 0 2#64]).cellGoes 48 = true ∧
    ((((wst (sw 1 0 0 1 0 5 0 0 0 0) [ent 1 3 0 2#64]).cp 48).slot 1).kind = 1 ∨
        (((wst (sw 1 0 0 1 0 5 0 0 0 0) [ent 1 3 0 2#64]).cp 48).slot 1).kind = 4) ∧
      List.find? (fun e => e.tok.slot.toNat == 1 && e.tok.field == 3#2 && ((wst (sw 1 0 0 1 0 5 0 0 0 0) [ent 1 3 0 2#64]).cp 48).turn 1 e)
          ((wst (sw 1 0 0 1 0 5 0 0 0 0) [ent 1 3 0 2#64]).cp 48).store =
        some (ent 1 3 0 2#64) := by decide +kernel

theorem test_wit_turn :
    isTCell 48 = true ∧
  (wst (sw 3 3 0 1 1 0 0 0 0 0) [ent 1 3 0 2#64]).cellFeeds 48 = true ∧
    ((((wst (sw 3 3 0 1 1 0 0 0 0 0) [ent 1 3 0 2#64]).cp 48).slot 1).kind = 3 ∨
        (((wst (sw 3 3 0 1 1 0 0 0 0 0) [ent 1 3 0 2#64]).cp 48).slot 1).kind = 5) ∧
      List.find? (fun e => e.tok.slot.toNat == 1 && e.tok.field == 3#2 && ((wst (sw 3 3 0 1 1 0 0 0 0 0) [ent 1 3 0 2#64]).cp 48).turn 1 e)
            ((wst (sw 3 3 0 1 1 0 0 0 0 0) [ent 1 3 0 2#64]).cp 48).store =
          some (ent 1 3 0 2#64) ∧
        ((wst (sw 3 3 0 1 1 0 0 0 0 0) [ent 1 3 0 2#64]).entry 48 (((wst (sw 3 3 0 1 1 0 0 0 0 0) [ent 1 3 0 2#64]).cp 48).slot 1).tdest).valid =
            true ∧
          ((wst (sw 3 3 0 1 1 0 0 0 0 0) [ent 1 3 0 2#64]).entry 48 (((wst (sw 3 3 0 1 1 0 0 0 0 0) [ent 1 3 0 2#64]).cp 48).slot 1).tdest).net ≠ 1 ∧
            ((wst (sw 3 3 0 1 1 0 0 0 0 0) [ent 1 3 0 2#64]).modCp 48 fun p => p.consume [(ent 1 3 0 2#64).seq]).placesFor
                  [(wst (sw 3 3 0 1 1 0 0 0 0 0) [ent 1 3 0 2#64]).throughEntry 48
                      ((wst (sw 3 3 0 1 1 0 0 0 0 0) [ent 1 3 0 2#64]).entry 48
                        (((wst (sw 3 3 0 1 1 0 0 0 0 0) [ent 1 3 0 2#64]).cp 48).slot 1).tdest)
                      (ent 1 3 0 2#64).tok.tag (ent 1 3 0 2#64).tok.fmt (ent 1 3 0 2#64).tok.aux true [(ent 1 3 0 2#64).tok.data]] =
                true ∧
              ((wst (sw 3 3 0 1 1 0 0 0 0 0) [ent 1 3 0 2#64]).modCp 48 fun p => p.consume [(ent 1 3 0 2#64).seq]).tokRoom
                  [(wst (sw 3 3 0 1 1 0 0 0 0 0) [ent 1 3 0 2#64]).throughEntry 48
                      ((wst (sw 3 3 0 1 1 0 0 0 0 0) [ent 1 3 0 2#64]).entry 48
                        (((wst (sw 3 3 0 1 1 0 0 0 0 0) [ent 1 3 0 2#64]).cp 48).slot 1).tdest)
                      (ent 1 3 0 2#64).tok.tag (ent 1 3 0 2#64).tok.fmt (ent 1 3 0 2#64).tok.aux true [(ent 1 3 0 2#64).tok.data]] =
                true := by decide +kernel

/-- The pair that was complete first is the earliest. -/
theorem test_wit_earliest (e d : MEnt) (h : e.ord < d.ord) : earliestPair [(d, d), (e, e)] = some (e, e) := by
  have h' : ¬ d.ord < e.ord := by omega
  simp [earliestPair, h]

end Tokens

namespace Commits

def tk (c : Nat) (slot field : Nat) (d : Word) (fmt : BitVec 3) : Token := Token.seal (mkTok (destCode c) slot field ⟨1, 2, 0⟩ fmt 0 d)
def nt (c : Nat) (slot field : Nat) (d : Word) (fmt : BitVec 3) : NetTok := ⟨tk c slot field d fmt, [], c, c, 1, false, none, true, 0⟩
/-- Cell 48 of tile 6 with a slot word and a token at it. -/
def wk (w : BitVec 128) (t : NetTok) (f : CellPlane → CellPlane) : State :=
  { w0 with launches := [(1, { uP .active with run := true, region := [6] })], tiles := [(6, { Tile.reset with owner := some 1 })],
            cells := [(48, { Cell.reset with planes := [(0, f { CellPlane.reset with slots := [(1, w)], dests := [(0, 0x90000000 + BitVec.ofNat 64 (2 ^ 18 + 48))] })] })], net := [t] }
/-- A slot word. -/
def sw (kind arity sticky lmask rmask entry tdest fdest chan cfmt : Nat) : BitVec 128 :=
  BitVec.ofNat 128 (kind + arity * 2 ^ 3 + sticky * 2 ^ 5 + lmask * 2 ^ 32 + rmask * 2 ^ 40 + entry * 2 ^ 48 + tdest * 2 ^ 60 + fdest * 2 ^ 66 + chan * 2 ^ 72 + cfmt * 2 ^ 76)
def t2 : NetTok := nt 48 1 0 0x55 0
def ent (slot field seq : Nat) (d : Word) : MEnt := ⟨tk 48 slot field d 0, [], false, seq, seq, false⟩
def wst (w : BitVec 128) (es : List MEnt) : State := { wk w t2 (fun p => { p with store := es }) with net := [] }
def sS : State := wst (sw 2 2 0 1 0 0 0 1 0 0) [ent 1 0 0 7, ent 1 2 1 1]
def sF : State := wst (sw 1 0 0 1 0 5 0 0 0 0) [ent 1 0 0 7]
def emi (op : BitVec 3) (g : Option (BitVec 8 × BitVec 10 × BitVec 3)) : Emission := ⟨0, false, op, 0, 0, [9], none, 0, g⟩
def bl (b : Block) : State := let s := sF; s.modCell 48 fun c => { c with block := some b }
def b1 : Block := { Block.blank with slot := 1, pc := 5, ctx := 1, iter := 2, lvl := 0, exiting := some 0, emits := [emi 3 none], inputs := [0] }
def gt (r : TagRes) : Tag × List TagEnt × List (BitVec 8) := match r with | .ok a b c => (a, b, c) | _ => (⟨0, 0, 0⟩, [], [])
def b2 : Block := { b1 with emits := [emi 1 (some (1, 2, 0))], lstores := [⟨0x40, 0x99⟩], gstores := [{ va := 0, flat := gddrBase, ty := 0, home := 0, n := 4, data := 5, owner := 1, run := 0, sent := false }], lclkAdv := 3 }
def uF : State := (sS.forward 48 (sS.entry 48 0) ⟨1, 2, 0⟩ 0 0 [7]).getD w0

def arg_firing : Firing :=
  ⟨1, some (ent 1 0 0 7), none, none⟩

def arg_firing_1 : Tag :=
  ⟨1, 2, 0⟩

/-! FiringsAndCommits -/

theorem test_wit_firing :
    sF.mayStart 48 = true ∧ earliest (sF.cp 48).firings = some arg_firing ∧ arg_firing.inputs ≠ [] ∧ ∀ e ∈ arg_firing.inputs, e.tok.tag = arg_firing_1 := by decide +kernel

theorem test_wit_grant :
    ((bl b1).getCell 48).block = some b1 ∧
  (bl b1).cellFeeds 48 = true ∧
    b1.exiting.isSome = true ∧
      b1.committing = false ∧
        List.find? (fun e => e.grant.isNone) b1.emits = some (emi (3#3) none) ∧
          (bl b1).tagOpAt 48 (emi (3#3) none).tagop.toNat b1.tag =
            TagRes.ok (gt (sF.tagOpAt 48 3 b1.tag)).1 (gt (sF.tagOpAt 48 3 b1.tag)).2.1 (gt (sF.tagOpAt 48 3 b1.tag)).2.2 := by decide +kernel

theorem test_wit_commit :
    ((bl b2).getCell 48).block = some b2 ∧
  b2.committing = false ∧
    b2.exiting = some 0#3 ∧
      (bl b2).cellFeeds 48 = true ∧
        (b2.emits.all fun x => x.grant.isSome) = true ∧
          b2.fenceRel = none ∧
            b2.syncs = [] ∧
              ((bl b2).sbufOf (cellAgent 48)).length + b2.gstores.length ≤ 4 ∧
                ((bl b2).lclk (cellTile 48)).toNat + b2.lclkAdv < 2 ^ 32 ∧
                  (bl b2).placesFor (((bl b2).localCommit 48 b2).blockToks 48 b2) = true ∧
                    (bl b2).tokRoom (((bl b2).localCommit 48 b2).blockToks 48 b2) = true ∧
                      ∀ x ∈ ((bl b2).localCommit 48 b2).blockToks 48 b2, cellDie (destCell x.tok.dest) = cellDie 48 := by decide +kernel

theorem test_wit_commit_frame :
    ∀ x ∈ b2.lstores, cellBase 48 + x.1 ≠ 0 := by decide +kernel

def arg_push : Tag :=
  ⟨1, 2, 7⟩

theorem test_wit_push :
    arg_push.lvl = 7#3 := by decide +kernel

theorem test_wit_pop :
    arg_firing_1.lvl = 0#3 := by decide +kernel

/-! SlotsThatForward -/

theorem test_wit_forward :
    (sS.entry 48 0).valid = true ∧
  (sS.entry 48 0).net ≠ 1 ∧
    (sS.entry 48 0).tagop = 1 ∧
      tileDie (cellTile 48) = cellDie (destCell (sS.entry 48 0).cell) ∧ sS.forward 48 (sS.entry 48 0) arg_firing_1 0#3 0#8 [7#64] = some uF := by decide +kernel

def at_forward_pred : State :=
  (sS.forward 48 { sS.entry 48 0 with net := 1 } ⟨1, 2, 0⟩ 0 0 [7]).getD w0

def arg_forward_pred : DestF :=
  { sS.entry 48 0 with net := 1 }

theorem test_wit_forward_pred :
    arg_forward_pred.valid = true ∧
  arg_forward_pred.net = 1 ∧
    arg_forward_pred.tagop = 1 ∧
      tileDie (cellTile 48) = cellDie (destCell arg_forward_pred.cell) ∧
        sS.forward 48 arg_forward_pred arg_firing_1 0#3 0#8 [7#64] = some at_forward_pred := by decide +kernel

/-- A context that already holds every tag it may. -/
theorem test_wit_credit : credit (List.replicate 1004 ⟨1, 2, 0, 0, 0⟩) 1 1 < 1 := by decide +kernel

end Commits

namespace Draining

def tk (c : Nat) (slot field : Nat) (d : Word) (fmt : BitVec 3) : Token := Token.seal (mkTok (destCode c) slot field ⟨1, 2, 0⟩ fmt 0 d)
def nt (c : Nat) (slot field : Nat) (d : Word) (fmt : BitVec 3) : NetTok := ⟨tk c slot field d fmt, [], c, c, 1, false, none, true, 0⟩
/-- The seam cell 48 of tile 6 and cell 47 of tile 5. -/
def wse (f47 f48 : CellPlane → CellPlane) : State :=
  { w0 with launches := [(1, { uP .active with run := true, region := [5, 6] })], tiles := [(5, { Tile.reset with owner := some 1 }), (6, { Tile.reset with owner := some 1 })],
            cells := [(47, { Cell.reset with planes := [(0, f47 CellPlane.reset)] }), (48, { Cell.reset with planes := [(0, f48 { CellPlane.reset with dests := [(62, 0x90000000 + BitVec.ofNat 64 (2 ^ 18 + 48))] })] })] }
def f1 : Flit := fl 0 0 0x1234
def f7 : Flit := fl 7 0 0x1234
def sT (x : Flit) : State := wse (fun p => { (p.setBox 1 [x]) with route := 0x20 }) id
def sS : State := wse (fun p => { p with route := 0x20 }) fun p => { p with s2t := { p.s2t with flit := some f1, next := 3 } }
def uS : State := (sS.forward 48 (sS.entry 48 62) (sS.stampTag 48) f1.fmt 0 [f1.data.extractLsb' (64 * 3) 64]).getD w0
def sU (t : NetTok) : State := { wse (fun p => { p with route := 0x400 }) id with net := [t] }
def sV : State := wse (fun p => { p with route := 0x400 }) fun p => { p with t2s := ⟨[7], 0, 1, 2, true, 3, false⟩ }
def lA : Launch := { uP .active with run := true }
def lD (s e : Bool) : Launch := { lA with drain := some ⟨.step, s, e, 2⟩ }
/-- The draining unit with a stage of cell 0 whose operands wait on its link and at the stream input. -/
def bt (l : Launch) (n : Nat) (w : Word) (a b : List Flit) : State :=
  { wl l with cells := [(0, { Cell.reset with planes := [(0, { CellPlane.reset with stages := [(n, w)], links := [(n, a), (9, b)] })] })] }
def bt1 : State := bt (lD true false) 3 (stw 0x60 0 0 0 1 0 1 0 0) [beatFlit] []
def bt2 : State := bt (lD true false) 1 (stw 0x24 0 0 0 3 0 1 1 256) [] [fl 7 0 5, beatFlit]
def lH : Launch := { lD true false with halted := true }
def bt3 : State := bt lH 3 (stw 0x60 0 0 0 1 0 1 0 0) [fl 0 0 5] []
def bt4 : State := bt (lD true false) 3 (stw 0x60 0 0 0 1 3 1 0 0) [beatFlit] [fl 0 0 5]
def lX (s e : Bool) : Launch := { lA with drain := some ⟨.step, s, e, 2⟩, still := 300 }
def lQ (h : Bool) : Launch := { lA with idle := 70000, qwcHold := h }
def wfull (h : Bool) : State := { wl (lQ h) with mem := (List.range 4).foldl (fun m i => memWrite m (snapBase 0 i) 8 (2 ^ 63)) [] }
def wheld : State := { wl { lA with held := true, window := some (0, 2) } with mem := memWrite [] (snapBase 0 2) 8 (2 ^ 63 + 2 ^ 60) }
def wread : State := { wl lA with mem := memWrite [] (snapBase 0 2) 8 (2 ^ 63) }
def wk0 (a : Bool) : Walk := ⟨0, 1, [w0.me], a⟩
def ww (a : Bool) : State := w0.modDie 0 fun d => { d with walks := [wk0 a] }
def wxi (ctl : Word) (m : Word) : State := (wt hit0).modDie 0 fun d => { d with regs := [(0x100, 0x10000), (0x108, ctl), (0x110, m)] }

/-! SeamConverters -/

theorem test_wit_s2t_take :
    (sT f1).s2tOn 48 = true ∧
  (sT f1).cellGoes 48 = true ∧ ((sT f1).cp 48).s2t.flit = none ∧ ((sT f1).cp (48 - 1)).box 1 = [f1] ∧ f1.beat = false ∧ f1.isSide = false ∧ f1.tag ≠ 7 := by decide +kernel

theorem test_wit_s2t_scales :
    (sT f7).s2tOn 48 = true ∧
  (sT f7).cellGoes 48 = true ∧
    ((sT f7).cp 48).s2t.flit = none ∧
      ((sT f7).cp (48 - 1)).box 1 = [f7] ∧ f7.beat = false ∧ f7.isSide = false ∧ f7.tag = 7 ∧ ((sT f7).cp 48).s2t.side = none := by decide +kernel

theorem test_wit_s2t_send :
    sS.s2tOn 48 = true ∧
  sS.cellFeeds 48 = true ∧
    (sS.cp 48).s2t.flit = some f1 ∧
      (sS.cp 48).s2t.next < 7 ∧
        f1.tag ≠ 7 ∧ sS.forward 48 (sS.entry 48 62) (sS.stampTag 48) f1.fmt 0#8 [BitVec.extractLsb' (64 * (sS.cp 48).s2t.next) 64 f1.data] = some uS := by decide +kernel

def arg_stamp : Launch :=
  { uP .active with run := true, region := [5, 6] }

theorem test_wit_stamp :
    sS.owner? (cellTile 48) = some 1 ∧ sS.launch? 1 = some arg_stamp := by decide +kernel

theorem test_wit_t2s_take :
    (sU (nt 48 62 0 7#64 0#3)).net[0]? = some (nt 48 62 0 7#64 0#3) ∧
  (nt 48 62 0 7#64 0#3).pred = false ∧
    (nt 48 62 0 7#64 0#3).arrived = true ∧
      48 = destCell (nt 48 62 0 7#64 0#3).tok.dest ∧
        (nt 48 62 0 7#64 0#3).pos = 48 ∧
          (sU (nt 48 62 0 7#64 0#3)).t2sOn 48 = true ∧
            (nt 48 62 0 7#64 0#3).tok.slot = 62#6 ∧
              ((sU (nt 48 62 0 7#64 0#3)).cp 48).t2s.closed = false ∧
                (sU (nt 48 62 0 7#64 0#3)).tokFirst 0 (nt 48 62 0 7#64 0#3) = true ∧
                  (sU (nt 48 62 0 7#64 0#3)).dueFirst 0 (nt 48 62 0 7#64 0#3) = true ∧
                    (sU (nt 48 62 0 7#64 0#3)).frozenLevel (nt 48 62 0 7#64 0#3) = false ∧
                      (sU (nt 48 62 0 7#64 0#3)).deadCtx 48 (nt 48 62 0 7#64 0#3).tok.ctx = false ∧
                        (nt 48 62 0 7#64 0#3).more = [] ∧
                          (nt 48 62 0 7#64 0#3).tok.field = 0#2 ∧
                            (nt 48 62 0 7#64 0#3).tok.fmt ≠ 7#3 ∧
                              (((sU (nt 48 62 0 7#64 0#3)).cp 48).t2s.toks = [] ∨
                                ((sU (nt 48 62 0 7#64 0#3)).cp 48).t2s.fmt = (nt 48 62 0 7#64 0#3).tok.fmt ∧
                                  ((sU (nt 48 62 0 7#64 0#3)).cp 48).t2s.ctx = (nt 48 62 0 7#64 0#3).tok.ctx ∧
                                    ((sU (nt 48 62 0 7#64 0#3)).cp 48).t2s.iter = (nt 48 62 0 7#64 0#3).tok.iter) := by decide +kernel

theorem test_wit_t2s_close :
    (sU (nt 48 62 3 7#64 0#3)).net[0]? = some (nt 48 62 3 7#64 0#3) ∧
  (nt 48 62 3 7#64 0#3).pred = false ∧
    (nt 48 62 3 7#64 0#3).arrived = true ∧
      48 = destCell (nt 48 62 3 7#64 0#3).tok.dest ∧
        (nt 48 62 3 7#64 0#3).pos = 48 ∧
          (sU (nt 48 62 3 7#64 0#3)).t2sOn 48 = true ∧
            (nt 48 62 3 7#64 0#3).tok.slot = 62#6 ∧
              ((sU (nt 48 62 3 7#64 0#3)).cp 48).t2s.closed = false ∧
                (sU (nt 48 62 3 7#64 0#3)).tokFirst 0 (nt 48 62 3 7#64 0#3) = true ∧
                  (sU (nt 48 62 3 7#64 0#3)).dueFirst 0 (nt 48 62 3 7#64 0#3) = true ∧
                    (sU (nt 48 62 3 7#64 0#3)).frozenLevel (nt 48 62 3 7#64 0#3) = false ∧
                      (sU (nt 48 62 3 7#64 0#3)).deadCtx 48 (nt 48 62 3 7#64 0#3).tok.ctx = false ∧
                        (nt 48 62 3 7#64 0#3).more = [] ∧ (nt 48 62 3 7#64 0#3).tok.field = 3#2 := by decide +kernel

theorem test_wit_t2s_send :
    sV.t2sOn 48 = true ∧ sV.cellGoes 48 = true ∧ (sV.cp 48).t2s.closed = true ∧ (sV.cp (48 - 1)).boxRoom ((sV.cp (48 - 1)).named 2) = true := by decide +kernel

/-! DrainsComplete -/

theorem test_wit_run_end :
    (wl lA).launch? 1 = some lA ∧
  lA.run = true ∧ lA.goes = true ∧ lA.callStage = 0 ∧ (∀ c ∈ (wl lA).cmdsOf 1, (c.bound && c.awake lA) = false) ∧ (wl lA).regionQuiet lA = true := by decide +kernel

theorem test_wit_drain_start :
    (wl (lD false false)).launch? 1 = some (lD false false) ∧
  (lD false false).drain = some { why := DrainWhy.step, started := false, settling := false, orphans := 2 } ∧ (lD false false).goes = true := by decide +kernel

theorem test_wit_drain_beat :
    bt1.cellUnit 0 = 1 ∧
  bt1.launch? 1 = some (lD true false) ∧
    (lD true false).drain.isSome = true ∧
      bt1.cellGoes 0 = true ∧
        isVCell 0 = true ∧
          1 ≤ 3 ∧
            3 ≤ 6 ∧
              (stageF ((bt1.cp 0).stage 2)).op < 224 ∧
                ((bt1.cp 0).stageFields 3).streams = [(false, 1)] ∧
                  1 = 1 ∧
                    bt1.drainHead 0 3 (false, 1) = Head.flit beatFlit ∧
                      bt1.starved 0 3 (false, 1) = none ∧
                        (bt1.cp 0).dstFree 3 = true ∧ smGet [] (bt1.cp 0).pend 3 = [] ∧ (3 = 2 → (bt1.cp 0).bank = none) := by decide +kernel

theorem test_wit_drain_starved :
    bt2.cellUnit 0 = 1 ∧
  bt2.launch? 1 = some (lD true false) ∧
    (lD true false).drain.isSome = true ∧
      bt2.cellGoes 0 = true ∧
        isVCell 0 = true ∧
          1 ≤ 1 ∧
            1 ≤ 6 ∧
              (stageF ((bt2.cp 0).stage 2)).op < 224 ∧
                ((bt2.cp 0).stageFields 1).streams = [(false, 3)] ∧ bt2.starved 0 1 (false, 3) = some ((bt2.starved 0 1 (false, 3)).getD w0) := by decide +kernel

theorem test_wit_drain_halted :
    bt3.cellUnit 0 = 1 ∧
  bt3.launch? 1 = some lH ∧
    lH.drain.isSome = true ∧
      bt3.cellGoes 0 = true ∧
        isVCell 0 = true ∧
          1 ≤ 3 ∧
            3 ≤ 6 ∧
              (stageF ((bt3.cp 0).stage 2)).op < 224 ∧
                ((bt3.cp 0).stageFields 3).streams = [(false, 1)] ∧
                  bt3.starved 0 3 (false, 1) = none ∧
                    lH.halted = true ∧ bt3.drainHead 0 3 (false, 1) = Head.flit (fl 0 (0#3) 5) ∧ (fl 0 (0#3) 5).beat = false := by decide +kernel

theorem test_wit_drain_other :
    bt4.cellUnit 0 = 1 ∧
  bt4.launch? 1 = some (lD true false) ∧
    (lD true false).drain.isSome = true ∧
      bt4.cellGoes 0 = true ∧
        isVCell 0 = true ∧
          1 ≤ 3 ∧
            3 ≤ 6 ∧
              (stageF ((bt4.cp 0).stage 2)).op < 224 ∧
                ((bt4.cp 0).stageFields 3).streams = [(false, 1), (true, 3)] ∧
                  (bt4.drainHead 0 3 (false, 1)).beat = true ∧
                    bt4.drainHead 0 3 (true, 3) = Head.flit (fl 0 (0#3) 5) ∧
                      (fl 0 (0#3) 5).beat = false ∧ bt4.starved 0 3 (false, 1) = none ∧ bt4.starved 0 3 (true, 3) = none := by decide +kernel

theorem test_wit_settle_begin :
    (wl (lD true false)).launch? 1 = some (lD true false) ∧
  (lD true false).drain = some { why := DrainWhy.step, started := true, settling := false, orphans := 2 } ∧
    (lD true false).goes = true ∧ (wl (lD true false)).beatsIn (lD true false) = false := by decide +kernel

theorem test_wit_settle :
    (wl (lX true true)).launch? 1 = some (lX true true) ∧
  (lX true true).drain = some { why := DrainWhy.step, started := true, settling := true, orphans := 2 } ∧
    (lX true true).goes = true ∧ ((wl (lX true true)).tokensIn (lX true true) = false ∨ 256 ≤ (lX true true).still) := by decide +kernel

theorem test_wit_drain_complete :
    (wl (lD false true)).launch? 1 = some (lD false true) ∧
  (lD false true).drain = some { why := DrainWhy.step, started := false, settling := true, orphans := 2 } := by decide +kernel

def at_drain_complete_host : State :=
  wl { lA with drain := some ⟨.host, false, true, 0⟩ }

def arg_drain_complete_host : Launch :=
  { lA with drain := some ⟨.host, false, true, 0⟩ }

theorem test_wit_drain_complete_host :
    at_drain_complete_host.launch? 1 = some arg_drain_complete_host ∧
  arg_drain_complete_host.drain = some { why := DrainWhy.host, started := false, settling := true, orphans := 0 } := by decide +kernel

/-! QuiescenceAndWatchdog -/

theorem test_wit_qwc_hold :
    (wl (lQ true)).launch? 1 = some (lQ true) ∧
  ((lQ true).st = UState.running ∨ (lQ true).st = UState.pending) ∧
    (lQ true).held = false ∧
      (lQ true).frozen = false ∧
        ((wl (lQ true)).getTile ((lQ true).region.headD 0)).spr.qwcLimit.toNat ≤ (lQ true).idle ∧
          ((wl (lQ true)).getTile ((lQ true).region.headD 0)).owner = some 1 ∧
            ((wl (lQ true)).vaultUnit 1 13 0 0).freeWindow (tileDie ((lQ true).region.headD 0)) = some 0 ∧ (lQ true).qwcHold = true := by decide +kernel

theorem test_wit_qwc_fault :
    (wl (lQ false)).launch? 1 = some (lQ false) ∧
  ((lQ false).st = UState.running ∨ (lQ false).st = UState.pending) ∧
    (lQ false).held = false ∧
      (lQ false).frozen = false ∧
        ((wl (lQ false)).getTile ((lQ false).region.headD 0)).spr.qwcLimit.toNat ≤ (lQ false).idle ∧
          ((wl (lQ false)).getTile ((lQ false).region.headD 0)).owner = some 1 ∧
            ((wl (lQ false)).vaultUnit 1 13 0 0).freeWindow (tileDie ((lQ false).region.headD 0)) = some 0 ∧ (lQ false).qwcHold = false := by decide +kernel

theorem test_wit_qwc_full :
    (wfull true).launch? 1 = some (lQ true) ∧
  ((lQ true).st = UState.running ∨ (lQ true).st = UState.pending) ∧
    (lQ true).held = false ∧
      (lQ true).frozen = false ∧
        ((wfull true).getTile ((lQ true).region.headD 0)).spr.qwcLimit.toNat ≤ (lQ true).idle ∧
          ((wfull true).getTile ((lQ true).region.headD 0)).owner = some 1 ∧
            ((wfull true).vaultUnit 1 13 0 0).freeWindow (tileDie ((lQ true).region.headD 0)) = none := by decide +kernel

theorem test_wit_snap :
    0 < 16 ∧ Memory.wf w0.mem = true := by decide +kernel

def arg_snap_resume : Launch :=
  { lA with held := true, window := some (0, 2) }

theorem test_wit_snap_resume :
    wheld.heldBy 0 2 = some (1, arg_snap_resume) := by decide +kernel

theorem test_wit_snap_free :
    0 < 16 ∧ 2 < 4 ∧ bitOf (wread.snapStat 0 2) 63 = true ∧ bitOf (wread.snapStat 0 2) 60 = false := by decide +kernel

theorem test_wit_snap_not_free :
    0 < 16 ∧ 2 < 4 ∧ bitOf (wheld.snapStat 0 2) 60 = true := by decide +kernel

def at_watchdog : State :=
  wl { lA with wdog := 2 ^ 40 }

def arg_watchdog : Launch :=
  { lA with wdog := 2 ^ 40 }

theorem test_wit_watchdog :
    at_watchdog.launch? 1 = some arg_watchdog ∧
  (arg_watchdog.st = UState.running ∨ arg_watchdog.st = UState.pending) ∧
    arg_watchdog.frozen = false ∧
      (at_watchdog.getTile (arg_watchdog.region.headD 0)).owner = some 1 ∧
        (at_watchdog.getTile (arg_watchdog.region.headD 0)).spr.wdog.toNat ≤ arg_watchdog.wdog := by decide +kernel

/-! WalksAndInvalidations -/

theorem test_wit_walk_start :
    ((ww false).getDie 0).walks[0]? = some (wk0 false) ∧
  (wk0 false).active = false ∧
    (∀ x ∈ List.take 0 ((ww false).getDie 0).walks, x.active = true) ∧ (List.filter (fun x => x.active) ((ww false).getDie 0).walks).length < 32 := by decide +kernel

theorem test_wit_walk_done :
    ((ww true).getDie 0).walks[0]? = some (wk0 true) ∧ (wk0 true).active = true ∧ (wk0 true).waiters = [w0.me] ∧ w0.me < 2 ^ 33 := by decide +kernel

theorem test_wit_mb :
    bitOf (133313#64).toNat 11 = true := by decide +kernel

theorem test_wit_xinv_page :
    (wxi 9223372036854775808#64 0#64).xinvReady 0 0 = true ∧ bitOf (BitVec.toNat ((wxi 9223372036854775808#64 0#64).reg 0 272)) 63 = false := by decide +kernel

theorem test_wit_xinv_lines :
    (wxi 9223372036854775808#64 9223372036854906880#64).xinvReady 0 0 = true ∧
  bitOf (BitVec.toNat ((wxi 9223372036854775808#64 9223372036854906880#64).reg 0 272)) 63 = true ∧
    (wxi 9223372036854775808#64 9223372036854906880#64).storeOut
        (bitsOf (BitVec.toNat ((wxi 9223372036854775808#64 9223372036854906880#64).reg 0 272)) 51 16 * 2 ^ 16)
        (pageBytes (BitVec.ofNat 2 (bitsOf ((wxi 9223372036854775808#64 9223372036854906880#64).xinvCtl 0) 60 59))) =
      false := by decide +kernel

def at_xinv_done : State :=
  (wxi 0x8000000000000000 0).modDie 0 fun d => { d with xinvBusy := true }

theorem test_wit_xinv_done :
    (at_xinv_done.getDie 0).xinvBusy = true := by decide +kernel

/-! QuiescenceAndWatchdog -/

theorem test_wit_snap_drain :
    wheld.heldBy 0 2 = some (1, arg_snap_resume) ∧ arg_snap_resume.drain = none := by decide +kernel

theorem test_wit_drain_source : smFind w0.cells 0 = none ∧ smFind (wb id).cells 48 = some { Cell.reset with block := some Block.blank } := by
  decide +kernel

end Draining

namespace Tables

def lA : Launch := { uP .active with run := true }
def wxi (ctl : Word) (m : Word) : State := (wt hit0).modDie 0 fun d => { d with regs := [(0x100, 0x10000), (0x108, ctl), (0x110, m)] }
/-- A memory whose job 0 maps page 1 by a leaf. -/
def memT (leaf : Nat) : List Host.Cell :=
  [(0x100000, 0x110001), (0x110000, 0x120001), (0x120000, 0x130001), (0x130000, 0x140001), (0x140008, leaf)].foldl (fun m e => memWrite m (gddrBase + e.1) 8 e.2) []
def wmig (leaf : Nat) (dst : Word) (g : Option Migration) : State :=
  { (wt hit0).modDie 0 fun d => { d with regs := [(0x000, 0x100000), (0x200, 0x10000), (0x208, dst), (0x210, 0x8000000000000000)], migration := g } with mem := memT leaf }
def g0 (sw : Bool) : Migration := ⟨gddrBase + 0x140008, 0, gddrBase + 0x20000, gddrBase + 0x50000, 0, 0, 1, sw, false⟩
def lW : Launch := { Launch.blank with st := .waiting, entry := 8, record := 0x10000, args := 0x77, whw := 5 }
def wW (l : Launch) : State := { State.reset with launches := [(2, l)], folios := [fol0], stamp := 3 }
def lP : Launch := { lW with st := .placed, region := [0] }
def wBad2 : State := { (wW { lW with dieFixed := true, die := 1 }).modDie 1 (fun d => { d with excluded := true }) with folios := [fol0] }
def qL : Queue := { Queue.reset with state := 1, kind := 1, cap := 4, recs := [{ data := 0x10000, whw := 3, scope := 1, agent := w0.me, added := 0, tag := 0, slot := 9, stamp := 1, spilled := false }] }
def wTake : State := w0.modDie 0 fun d => { d with queues := [(5, qL)] }
def lE (w : Bool) : Launch := { uP .active with st := .ending, writing := w, budget := 10 }
def wrel : State := (((wl (lE false)).dropLevels 1).releaseAll 1 (lE false)).2
def wWork (r : List (Nat × Word)) (w : List WorkEnt) : State := { w0.modDie 0 (fun d => { d with regs := r }) with work := w }
def job : WorkEnt := ⟨0, 3, 0, 0, 0, 1, 0, 0, 0, 0, 0, false⟩
def wCan (op : Nat) (w : List WorkEnt) (l : Launch) (id : Nat) : State := { (wl l).modDie 0 (fun d => { d with regs := [(0x740, BitVec.ofNat 64 id), (0x748, BitVec.ofNat 64 (2 ^ 63 + op * 2 ^ 60))] }) with work := w }

/-! WalksAndInvalidations -/

theorem test_wit_xinv_vmid :
    (wxi 11529215046068469760#64 0#64).xinvReady 0 1 = true := by decide +kernel

theorem test_wit_xinv_all :
    (wxi 13835058055282163712#64 0#64).xinvReady 0 2 = true := by decide +kernel

/-! MigrationMovesPages -/

theorem test_wit_mig_start :
    0 < 16 ∧
  bitOf (BitVec.toNat ((wmig 131269 (327680#64) none).reg 0 528)) 63 = true ∧
    ((wmig 131269 (327680#64) none).getDie 0).migration = none ∧
      0#16 = BitVec.ofNat 16 (BitVec.toNat ((wmig 131269 (327680#64) none).reg 0 528)) ∧
        1 = bitsOf (BitVec.toNat ((wmig 131269 (327680#64) none).reg 0 512)) 55 16 ∧
          walkPage (wmig 131269 (327680#64) none).mem (BitVec.toNat ((wmig 131269 (327680#64) none).reg 0 0)) (0#16) 1 = XRes.leaf 131269#64 0#2 ∧
            (leafTarget (131269#64) (0#2) (1 * 2 ^ 16 / pageBytes 0#2 * pageBytes 0#2)).ty = 0#3 ∧
              0#2 ≠ 2#2 ∧
                bitsOf (BitVec.toNat ((wmig 131269 (327680#64) none).reg 0 520)) 51 16 * 2 ^ 16 % pageBytes 0#2 = 0 ∧
                  bitsOf (BitVec.toNat ((wmig 131269 (327680#64) none).reg 0 520)) 51 16 * 2 ^ 16 < 2 ^ 39 ∧
                    (leafTarget (131269#64) (0#2) (1 * 2 ^ 16 / pageBytes 0#2 * pageBytes 0#2)).home = 0 := by decide +kernel

theorem test_wit_mig_large :
    0 < 16 ∧
  bitOf (BitVec.toNat ((wmig 131269 (549756141568#64) none).reg 0 528)) 63 = true ∧
    ((wmig 131269 (549756141568#64) none).getDie 0).migration = none ∧
      0#16 = BitVec.ofNat 16 (BitVec.toNat ((wmig 131269 (549756141568#64) none).reg 0 528)) ∧
        1 = bitsOf (BitVec.toNat ((wmig 131269 (549756141568#64) none).reg 0 512)) 55 16 ∧
          walkPage (wmig 131269 (549756141568#64) none).mem (BitVec.toNat ((wmig 131269 (549756141568#64) none).reg 0 0)) (0#16) 1 =
              XRes.leaf 131269#64 0#2 ∧
            (leafTarget (131269#64) (0#2) (1 * 2 ^ 16 / pageBytes 0#2 * pageBytes 0#2)).ty = 0#3 ∧
              (0#2 = 2#2 ∨
                bitsOf (BitVec.toNat ((wmig 131269 (549756141568#64) none).reg 0 520)) 51 16 * 2 ^ 16 % pageBytes 0#2 ≠ 0 ∨
                  2 ^ 39 ≤ bitsOf (BitVec.toNat ((wmig 131269 (549756141568#64) none).reg 0 520)) 51 16 * 2 ^ 16) := by decide +kernel

theorem test_wit_mig_busy :
    0 < 16 ∧
  bitOf (BitVec.toNat ((wmig 133317 (327680#64) (some (g0 false))).reg 0 528)) 63 = true ∧
    ((wmig 133317 (327680#64) (some (g0 false))).getDie 0).migration = some (g0 false) := by decide +kernel

theorem test_wit_mig_switch :
    ((wmig 133317 (327680#64) (some (g0 false))).getDie 0).migration = some (g0 false) ∧
  (g0 false).switched = false ∧ ∀ m ∈ (wmig 133317 (327680#64) (some (g0 false))).msgs, m.held = false → (g0 false).about m = false := by decide +kernel

theorem test_wit_mig_copy :
    Memory.wf (wmig 133317 (327680#64) (some (g0 false))).mem = true ∧ 3 < pageBytes (g0 false).size := by decide +kernel

theorem test_wit_mig_end :
    ((wmig 133317 (327680#64) (some (g0 true))).getDie 0).migration = some (g0 true) ∧
  (g0 true).switched = true ∧
    (wmig 133317 (327680#64) (some (g0 true))).heldPage (wmig 133317 (327680#64) (some (g0 true))).msgs (g0 true).newFrame = false ∧
      (g0 true).aborted = false := by decide +kernel

theorem test_wit_mig_abort :
    ((wmig 133317 (327680#64) (some (g0 false))).getDie 0).migration = some (g0 false) ∧ (g0 false).switched = false := by decide +kernel

def arg_place : Place :=
  ⟨[0], (0, 0), (0, 0)⟩

/-! UnitsArePlacedAndStart -/

theorem test_wit_place :
    0 < 16 ∧
  ((wW lW).getDie 0).excluded = false ∧
    (wW lW).mod.warmBusy = false ∧
      (wW lW).takeNext 0 = none ∧
        (wW lW).unplaceable 0 = none ∧
          (wW lW).nextUnit 0 = some 2 ∧ (wW lW).launch? 2 = some lW ∧ lW.st = UState.waiting ∧ (wW lW).placement lW = some (0, arg_place) := by decide +kernel

theorem test_wit_place_next :
    (wW lW).nextUnit 0 = some 2 := by decide +kernel

theorem test_wit_place_own :
    ((wW lW).getDie 0).excluded = false ∧ (wW lW).badEntries 0 = [] := by decide +kernel

def at_start : State :=
  { wW lP with tiles := [(0, { Tile.reset with owner := some 2 })] }

theorem test_wit_start :
    at_start.launch? 2 = some lP ∧
  lP.st = UState.placed ∧ lP.region = [0] ∧ (lP.startScope = none ∨ ∃ c, lP.startScope = some c ∧ at_start.producerDone lP.producer c lP.added = true) := by decide +kernel

theorem test_wit_unplaceable :
    0 < 16 ∧ (wBad2.getDie 0).excluded = false ∧ wBad2.mod.warmBusy = false ∧ wBad2.takeNext 0 = none ∧ wBad2.unplaceable 0 = some 2 := by decide +kernel

theorem test_wit_take :
    0 < 16 ∧ (wTake.getDie 0).excluded = false ∧ wTake.mod.warmBusy = false ∧ wTake.takeNext 0 = some ((wTake.takeNext 0).getD w0) := by decide +kernel

/-! LaunchesEndAndCancels -/

theorem test_wit_complete :
    (wl (lE true)).launch? 1 = some (lE true) ∧
  (wl (lE true)).unitOver 1 (lE true) = true ∧
    (lE true).service = false ∧ (lE true).writing = true ∧ (wl (lE true)).accessOut (seqAgent ((lE true).region.headD 0)) = false := by decide +kernel

def at_class_drop : State :=
  wl { lA with charge := 20, budget := 10, refill := 5 }

def arg_class_drop : Launch :=
  { lA with charge := 20, budget := 10, refill := 5 }

theorem test_wit_class_drop :
    at_class_drop.launch? 1 = some arg_class_drop ∧
  arg_class_drop.service = false ∧ arg_class_drop.st ≠ UState.done ∧ arg_class_drop.budget ≤ arg_class_drop.charge := by decide +kernel

def at_work_seal : State :=
  wWork [(0x700, 0x300000000), (0x718, 0xA000000000000000)] [job]

theorem test_wit_work_seal :
    at_work_seal.workAsked 0 1 = true ∧
  at_work_seal.workReserved 0 = false ∧
    at_work_seal.workIdx (at_work_seal.workName 0).1 (at_work_seal.workName 0).2.1 (at_work_seal.workName 0).2.2 = some 0 ∧
      at_work_seal.work[0]? = some job ∧ job.state = 1#3 := by decide +kernel

def at_work_free : State :=
  wWork [(0x700, 0x300000000), (0x718, 0xC000000000000000)] [{ job with state := 3 }]

def arg_work_free : WorkEnt :=
  { job with state := 3 }

theorem test_wit_work_free :
    at_work_free.workAsked 0 2 = true ∧
  at_work_free.workReserved 0 = false ∧
    at_work_free.workIdx (at_work_free.workName 0).1 (at_work_free.workName 0).2.1 (at_work_free.workName 0).2.2 = some 0 ∧
      at_work_free.work[0]? = some arg_work_free ∧ 3 ≤ arg_work_free.state.toNat ∧ ∀ x ∈ at_work_free.work, x.childOf arg_work_free = false := by decide +kernel

def at_work_complete : State :=
  wWork [] [{ job with state := 2 }]

def arg_work_complete : WorkEnt :=
  { job with state := 2 }

theorem test_wit_work_complete :
    at_work_complete.work[0]? = some arg_work_complete ∧
  arg_work_complete.count = 0 ∧
    arg_work_complete.signalled = false ∧
      (arg_work_complete.state = 2#3 ∨ arg_work_complete.state = 4#3 ∨ arg_work_complete.state = 5#3) ∧
        arg_work_complete.ph = 0 ∧ arg_work_complete.kind = 3#2 := by decide +kernel

def at_cancel_launch : State :=
  wCan 1 [] { lA with id := 9 } 9

theorem test_wit_cancel_launch :
    0 < 16 ∧
  bitOf (BitVec.toNat (at_cancel_launch.reg 0 1864)) 63 = true ∧
    at_cancel_launch.cancelReserved 0 = false ∧
      (at_cancel_launch.getDie 0).cancelling = none ∧
        bitsOf (BitVec.toNat (at_cancel_launch.reg 0 1864)) 62 60 = 1 ∧
          (at_cancel_launch.liveLaunches fun l => l.vmid == (at_cancel_launch.cancelName 0).1 && l.id == (at_cancel_launch.cancelName 0).2) = [1] := by decide +kernel

def at_cancel_none : State :=
  wCan 1 [] { lA with id := 9 } 8

theorem test_wit_cancel_none :
    0 < 16 ∧
  bitOf (BitVec.toNat (at_cancel_none.reg 0 1864)) 63 = true ∧
    at_cancel_none.cancelReserved 0 = false ∧
      (at_cancel_none.getDie 0).cancelling = none ∧
        bitsOf (BitVec.toNat (at_cancel_none.reg 0 1864)) 62 60 = 1 ∧
          (at_cancel_none.liveLaunches fun l => l.vmid == (at_cancel_none.cancelName 0).1 && l.id == (at_cancel_none.cancelName 0).2) = [] := by decide +kernel

def at_cancel_graph : State :=
  wCan 2 [job, { job with kind := 1, id := 4 }] { lA with graph := 4 } 4

theorem test_wit_cancel_graph :
    0 < 16 ∧
  bitOf (BitVec.toNat (at_cancel_graph.reg 0 1864)) 63 = true ∧
    at_cancel_graph.cancelReserved 0 = false ∧
      (at_cancel_graph.getDie 0).cancelling = none ∧
        bitsOf (BitVec.toNat (at_cancel_graph.reg 0 1864)) 62 60 = 2 ∧
          (at_cancel_graph.workIdx (at_cancel_graph.cancelName 0).1 (1#2) (at_cancel_graph.cancelName 0).2).isSome = true := by decide +kernel

def at_cancel_phase : State :=
  wCan 3 [job, { job with kind := 2, id := 4 }] { lA with graph := 4 } 4

theorem test_wit_cancel_phase :
    0 < 16 ∧
  bitOf (BitVec.toNat (at_cancel_phase.reg 0 1864)) 63 = true ∧
    at_cancel_phase.cancelReserved 0 = false ∧
      (at_cancel_phase.getDie 0).cancelling = none ∧
        bitsOf (BitVec.toNat (at_cancel_phase.reg 0 1864)) 62 60 = 3 ∧
          (at_cancel_phase.workIdx (at_cancel_phase.cancelName 0).1 (2#2) (at_cancel_phase.cancelName 0).2).isSome = true := by decide +kernel

theorem test_wit_cancel_job :
    0 < 16 ∧
  bitOf (BitVec.toNat ((wCan 4 [job] lA 0).reg 0 1864)) 63 = true ∧
    (wCan 4 [job] lA 0).cancelReserved 0 = false ∧
      ((wCan 4 [job] lA 0).getDie 0).cancelling = none ∧
        bitsOf (BitVec.toNat ((wCan 4 [job] lA 0).reg 0 1864)) 62 60 = 4 ∧
          ((wCan 4 [job] lA 0).workIdx ((wCan 4 [job] lA 0).cancelName 0).1 3#2 0#32).isSome = true := by decide +kernel

theorem test_wit_cancelled :
    (wl lA).launch? 1 = some lA ∧ lA.colophonDone = false ∧ (lA.st ≠ UState.ending ∨ lA.ending = Ending.ok) := by decide +kernel

def at_mig_abort_end : State :=
  wmig 0x208C5 0x50000 (some { g0 true with aborted := true })

def arg_mig_abort_end : Migration :=
  { g0 true with aborted := true }

/-! MigrationMovesPages -/

theorem test_wit_mig_abort_end :
    (at_mig_abort_end.getDie 0).migration = some arg_mig_abort_end ∧
  arg_mig_abort_end.switched = true ∧
    at_mig_abort_end.heldPage at_mig_abort_end.msgs arg_mig_abort_end.newFrame = false ∧ arg_mig_abort_end.aborted = true := by decide +kernel

def at_complete_signal : State :=
  wl { lE false with signalPending := true }

def arg_complete_signal : Launch :=
  { lE false with signalPending := true }

/-! LaunchesEndAndCancels -/

theorem test_wit_complete_signal :
    at_complete_signal.launch? 1 = some arg_complete_signal ∧
  at_complete_signal.unitOver 1 arg_complete_signal = true ∧
    arg_complete_signal.service = false ∧
      arg_complete_signal.writing = false ∧ arg_complete_signal.signalPending = true ∧ at_complete_signal.signalWaits arg_complete_signal = false := by decide +kernel

theorem test_wit_complete_free :
    (wl (lE false)).signalWaits (lE false) = false := by decide +kernel

/-- A colophon was written. -/
def isColDone (r : ColRes) (s : State) : Bool := match r with | .done t => decide (t = s) | _ => false

theorem colDone_of (r : ColRes) (s : State) (h : isColDone r s = true) : r = .done s := by
  cases r <;> simp_all [isColDone]

/-- What the colophon's write leaves. -/
def colS : ColRes → State
  | .done w | .sent w | .wait w => w

/-- A colophon left the module. -/
def isColSent (r : ColRes) : Bool := match r with | .sent _ => true | _ => false

theorem colSent_of (r : ColRes) (h : isColSent r = true) : r = .sent (colS r) := by
  cases r <;> simp_all [isColSent, colS]

theorem test_wit_complete_colophon : let s := wl (lE false); let w := colS (wrel.writeColophon 1 { lE false with levels := [] })
    s.launch? 1 = some (lE false) ∧ s.unitOver 1 (lE false) = true ∧ (lE false).service = false ∧ (lE false).writing = false ∧
    (s.dropLevels 1).releaseAll 1 (lE false) = (true, wrel) ∧ wrel.writeColophon 1 { lE false with levels := [] } = .done w :=
  ⟨by decide +kernel, by decide +kernel, by decide +kernel, by decide +kernel, by decide +kernel, colDone_of _ _ (by decide +kernel)⟩

/-- A unit whose colophon lies in host memory. -/
def lH : Launch := { lE false with colophon := 0x10040 }

/-- Die 0's page tables, their leaf a page of host memory. -/
def wH : State :=
  { (wl lH).modDie 0 (fun d => { d with regs := [(0x000, 0x100000)] }) with
    mem := [(0x100000, 0x110001), (0x110000, 0x120001), (0x120000, 0x130001), (0x130000, 0x140001), (0x140008, 0x200CD)].foldl
      (fun m e => memWrite m (gddrBase + e.1) 8 e.2) [] }

theorem test_wit_complete_sent : let v := ((wH.dropLevels 1).releaseAll 1 lH).2; let w := colS (v.writeColophon 1 { lH with levels := [] })
    wH.launch? 1 = some lH ∧ wH.unitOver 1 lH = true ∧ lH.service = false ∧ lH.writing = false ∧
    (wH.dropLevels 1).releaseAll 1 lH = (true, v) ∧ v.writeColophon 1 { lH with levels := [] } = .sent w :=
  ⟨by decide +kernel, by decide +kernel, by decide +kernel, by decide +kernel, by decide +kernel, colSent_of _ (by decide +kernel)⟩

theorem test_wit_work_create : let s := wWork [(0x700, 0x300000000), (0x718, 0x8000000000000000)] []; let n := s.workName 0
    s.workAsked 0 0 = true ∧ s.workReserved 0 = false ∧ s.workIdx n.1 n.2.1 n.2.2 = none ∧ s.work.length < 8192 ∧ n.2.1 = 3 := by
  decide +kernel

theorem test_wit_work_create_phase : let s := wWork [(0x700, 0x200000007), (0x718, 0x8000000000000000)] [job]; let n := s.workName 0
    s.workAsked 0 0 = true ∧ s.workReserved 0 = false ∧ s.workIdx n.1 n.2.1 n.2.2 = none ∧ s.work.length < 8192 ∧
    s.parentIdx n.1 n.2.1 (BitVec.ofNat 32 (s.reg 0 0x708).toNat) = some 0 ∧ s.work[0]? = some job ∧ job.state = 1 := by
  decide +kernel

end Tables

namespace Acting

def memT (leaf : Nat) : List Host.Cell :=
  [(0x100000, 0x110001), (0x110000, 0x120001), (0x120000, 0x130001), (0x130000, 0x140001), (0x140008, leaf)].foldl (fun m e => memWrite m (gddrBase + e.1) 8 e.2) []
/-- An actor's record: s0 1, s1 2, b 4, at most M tiles, at first N0. -/
def arec (m n : Nat) : List Word := [BitVec.ofNat 64 (2 ^ 32 + 2 * 2 ^ 40 + 4 * 2 ^ 48 + m * 2 ^ 56 + n * 2 ^ 60), 0xA00000001, 0x400000000005, 0x10100, 0, 0, 0, 0]
def a0 : Actor := { Actor.refused 2 with record := arec 2 1, tiles := [6], part := List.replicate 64 0 }
def lT : Launch := { uP .active with region := [6] }
def swf (k a : Nat) : BitVec 128 := BitVec.ofNat 128 (k + a * 8 + 2 ^ 32)
def wAct (l : Launch) (m n : Nat) : State :=
  { (w0.modDie 0 fun d => { d with regs := [(0x000, 0x100000)] }) with
    launches := [(1, l)], tiles := [(6, { Tile.reset with owner := some 1 })],
    cells := [(48, { Cell.reset with codeCfg := some 0, codeLen := 4, planes := [(0, { CellPlane.reset with slots := [(1, swf 1 0), (2, swf 1 0)] })] })],
    mem := memWrite (memT 0x200C5) (gddrBase + 0x20000) 64 (packBits 64 ((arec m n).map BitVec.toNat)) }
def wReq : State := (wAct lT 2 1).modDie 0 fun d => { d with actReq := [(w0.me, 1, 0x10000)] }
def ra (l : Launch) (m n : Nat) : Actor := ((wAct l m n).readActor l 0x10000).getD a0
def l16 : Launch := { lT with region := 6 :: List.range 15 }
def lG (f : Actor → Actor) : Launch := { lT with actor := some (f a0) }
def gN : Launch := lG fun a => { a with growClk := 50 }
def g16 : Launch := { gN with region := 6 :: List.range 15 }
def a2 : Actor := { a0 with tiles := [6, 7], part := (List.range 64).map (· % 2), stage := 1 }
def l2 (a : Actor) : Launch := { lT with region := [6, 7], actor := some a }
def a3 : Actor := { a2 with stage := 2, pend := [1, 0] }
def a4 : Actor := { a2 with stage := 0, shrinkClk := 5 }
def a5 : Actor := { a2 with stage := 4, part := List.replicate 64 0 }
def wRel : State := { wAct (l2 a5) 2 1 with tiles := [(6, { Tile.reset with owner := some 1 }), (7, { Tile.reset with owner := some 1 })] }
def qA (s : BitVec 2) (b : Option Nat) : Queue := { Queue.reset with state := s, kind := 2, cap := 4, boundTo := b, recs := [{ data := 0x1122, whw := 3, scope := 2, agent := w0.me, added := 0, tag := 0, slot := 9, stamp := 1, spilled := false }] }
def ag : Nat := seqAgent 6
def wB (b : Bool) (st : BitVec 2) (bd : Option Nat) : State := (wAct (lG id) 2 1).modDie 0 fun d => { d with queues := [(5, qA st bd)], bindReq := [(ag, if b then 0x100005 else 5, 1)] }
def wM : State := wB true 1 (some 1)
def mv : Nat × NetTok × QRec := (wM.recordMove (wM.queue 0 5)).getD (0, ⟨mkTok 0 0 0 ⟨0, 0, 0⟩ 0 0 0, [], 0, 0, 0, false, none, true, 0⟩, ⟨0, 0, 0, 0, 0, 0, 0, 0, false⟩)

/-! ActorsGrowAndShrink -/

theorem test_wit_actor_asked :
    (wReq.getDie 0).actReq = [(w0.me, 1, 65536)] ∧ wReq.launch? 1 = some lT ∧ lT.issues = true := by decide +kernel

def at_register_again : State :=
  wAct { lT with actor := some a0 } 2 1

def arg_register_again : Launch :=
  { lT with actor := some a0 }

theorem test_wit_register_again :
    at_register_again.launch? 1 = some arg_register_again ∧ arg_register_again.acting.isSome = true := by decide +kernel

theorem test_wit_register_bad :
    (wAct lT 0 0).launch? 1 = some lT ∧ lT.acting = none ∧ (wAct lT 0 0).readActor lT 65536 = none := by decide +kernel

theorem test_wit_register_region :
    (wAct l16 2 2).launch? 1 = some l16 ∧
  l16.acting = none ∧ (wAct l16 2 2).readActor l16 65536 = some (ra l16 2 2) ∧ 16 < l16.region.length + ((ra l16 2 2).first - 1) := by decide +kernel

def at_register_tiles : State :=
  { wAct lT 2 2 with tiles := (List.range 100).map fun t => (t, { Tile.reset with owner := some 1 }) }

theorem test_wit_register_tiles :
    at_register_tiles.launch? 1 = some lT ∧
  lT.acting = none ∧
    at_register_tiles.readActor lT 65536 = some (ra lT 2 2) ∧
      lT.region.length + ((ra lT 2 2).first - 1) ≤ 16 ∧ (at_register_tiles.freeTokenTiles lT.die (ra lT 2 2)).length < (ra lT 2 2).first - 1 := by decide +kernel

theorem test_wit_register_ok :
    (wAct lT 2 2).launch? 1 = some lT ∧
  lT.acting = none ∧
    (wAct lT 2 2).readActor lT 65536 = some (ra lT 2 2) ∧
      lT.region.length + ((ra lT 2 2).first - 1) ≤ 16 ∧ (ra lT 2 2).first - 1 ≤ ((wAct lT 2 2).freeTokenTiles lT.die (ra lT 2 2)).length := by decide +kernel

def arg_grant : Actor :=
  { a0 with growClk := 50 }

theorem test_wit_grant :
    (wAct gN 2 1).actor? 1 = some (gN, arg_grant) ∧
  (wAct gN 2 1).launch? 1 = some gN ∧
    arg_grant.stage = 0 ∧
      arg_grant.growWin ≤ arg_grant.growClk ∧
        arg_grant.tiles.length < arg_grant.most ∧
          gN.region.length < 16 ∧ (wAct gN 2 1).freeTokenTiles gN.die arg_grant = 7 :: List.drop 1 ((wAct gN 2 1).freeTokenTiles 0 a0) := by decide +kernel

def at_grant_none : State :=
  { wAct gN 2 1 with tiles := (List.range 100).map fun t => (t, { Tile.reset with owner := some 1 }) }

theorem test_wit_grant_none :
    at_grant_none.actor? 1 = some (gN, arg_grant) ∧
  at_grant_none.launch? 1 = some gN ∧
    arg_grant.stage = 0 ∧
      arg_grant.growWin ≤ arg_grant.growClk ∧
        arg_grant.tiles.length < arg_grant.most ∧ gN.region.length < 16 ∧ at_grant_none.freeTokenTiles gN.die arg_grant = [] := by decide +kernel

theorem test_wit_grant_full :
    (wAct g16 2 1).actor? 1 = some (g16, arg_grant) ∧
  (wAct g16 2 1).launch? 1 = some g16 ∧
    arg_grant.stage = 0 ∧ arg_grant.growWin ≤ arg_grant.growClk ∧ arg_grant.tiles.length < arg_grant.most ∧ 16 ≤ g16.region.length := by decide +kernel

theorem test_wit_split :
    (wAct (l2 a2) 2 1).actor? 1 = some (l2 a2, a2) ∧ (wAct (l2 a2) 2 1).launch? 1 = some (l2 a2) ∧ a2.stage = 1 := by decide +kernel

theorem test_wit_headers :
    (wAct (l2 a3) 2 1).actor? 1 = some (l2 a3, a3) ∧
  (wAct (l2 a3) 2 1).launch? 1 = some (l2 a3) ∧
    a3.stage = 2 ∧ a3.pend = [1, 0] ∧ ((wAct (l2 a3) 2 1).getCell (a3.cell (a3.tiles.getD 1 0))).block = none := by decide +kernel

theorem test_wit_shrink :
    (wAct (l2 a4) 2 1).actor? 1 = some (l2 a4, a4) ∧ a4.stage = 0 ∧ a4.shrinkWin ≠ 0 ∧ 2 ≤ a4.tiles.length ∧ a4.shrinkWin ≤ a4.shrinkClk := by decide +kernel

theorem test_wit_pass :
    3 < a2.part.length := by decide +kernel

theorem test_wit_shrink_release :
    wRel.actor? 1 = some (l2 a5, a5) ∧
  wRel.launch? 1 = some (l2 a5) ∧
    a5.stage = 4 ∧
      1 ≤ a5.tiles.length ∧
        wRel.leaves a5 (a5.tiles.getD (a5.tiles.length - 1) 0) = true ∧
          (∀
              c ∈
                ({ a5 with tiles := List.take (a5.tiles.length - 1) a5.tiles, growClk := 0, shrinkClk := 0, stage := 0 } : Actor).cells,
              (wRel.getCell c).block = none) ∧
            wRel.owner? (a5.tiles.getD (a5.tiles.length - 1) 0) = some 1 := by decide +kernel

/-! ActorQueues -/

theorem test_wit_bind :
    (wB true (1#2) none).bindAsked 0 true = some (ag, 1, 5) ∧
  (wB true (1#2) none).actingUnit 1 = some (lG id) ∧
    (queuePlace 5).1 = 0 ∧
      ((wB true (1#2) none).queue 0 (queuePlace 5).2).state = 1#2 ∧
        ((wB true (1#2) none).queue 0 (queuePlace 5).2).kind = 2#2 ∧ ((wB true (1#2) none).queue 0 (queuePlace 5).2).vmid = (lG id).vmid := by decide +kernel

theorem test_wit_bind_closed :
    (wB true (2#2) none).bindAsked 0 true = some (ag, 1, 5) ∧
  (wB true (2#2) none).actingUnit 1 = some (lG id) ∧
    ((queuePlace 5).1 ≠ 0 ∨
      ((wB true (2#2) none).queue 0 (queuePlace 5).2).state ≠ 1#2 ∨
        ((wB true (2#2) none).queue 0 (queuePlace 5).2).kind ≠ 2#2 ∨ ((wB true (2#2) none).queue 0 (queuePlace 5).2).vmid ≠ (lG id).vmid) := by decide +kernel

theorem test_wit_unbind :
    (wB false (1#2) (some 1)).bindAsked 0 false = some (ag, 1, 5) ∧
  (wB false (1#2) (some 1)).actingUnit 1 = some (lG id) ∧
    (queuePlace 5).1 = 0 ∧
      ((wB false (1#2) (some 1)).queue 0 (queuePlace 5).2).state = 1#2 ∧
        ((wB false (1#2) (some 1)).queue 0 (queuePlace 5).2).kind = 2#2 ∧ ((wB false (1#2) (some 1)).queue 0 (queuePlace 5).2).vmid = (lG id).vmid := by decide +kernel

theorem test_wit_record_move :
    wM.mod.warmBusy = false ∧ wM.nextQueue 0 = some 5 ∧ wM.recordMove (wM.queue 0 5) = some (mv.1, mv.2.1, mv.2.2) := by decide +kernel

theorem test_wit_record_packet :
    wM.recordMove (qA (1#2) (some 1)) = some (mv.1, mv.2.1, mv.2.2) := by decide +kernel

def at_bind_nobody : State :=
  (wB true 1 none).modDie 0 fun d => { d with bindReq := [(ag, 0x100005, 9)] }

theorem test_wit_bind_nobody :
    at_bind_nobody.bindAsked 0 true = some (ag, 9, 5) ∧ at_bind_nobody.actingUnit 9 = none := by decide +kernel

def at_unbind_nobody : State :=
  (wB false 1 none).modDie 0 fun d => { d with bindReq := [(ag, 5, 9)] }

theorem test_wit_unbind_nobody :
    at_unbind_nobody.bindAsked 0 false = some (ag, 9, 5) ∧ at_unbind_nobody.actingUnit 9 = none := by decide +kernel

theorem test_wit_next_queue :
    wM.nextQueue 0 = some 5 := by decide +kernel

end Acting

namespace Planes

def memT (leaf : Nat) : List Host.Cell :=
  [(0x100000, 0x110001), (0x110000, 0x120001), (0x120000, 0x130001), (0x130000, 0x140001), (0x140008, leaf)].foldl (fun m e => memWrite m (gddrBase + e.1) 8 e.2) []
def wJ (l : Launch) (leaf : Nat) : State := { ((wl l).modDie 0 fun d => { d with regs := [(0x000, 0x100000)] }) with mem := memT leaf }
def lA : Launch := { uP .active with run := true, spillArea := 0x10000 }
def lCall (n : Nat) : Launch := { lA with callStage := n }
def lSp : Launch := { uC with spillArea := 0x10000, callStage := 3, planes := [(0, ⟨.active, some 1, 1, false, 0, false, 0⟩), (1, ⟨.frozen, some 0, 0, false, 0, true, 0⟩)] }
def okP (r : Except Nat (Option State)) : State := match r with | .ok (some s) => s | _ => w0
def erP (r : Except Nat (Option State)) : Nat := match r with | .error c => c | _ => 0
def okE (r : Except Nat State) : State := match r with | .ok s => s | _ => w0
def vL : Sys2Proof.Machine.Level := ⟨0, some 1, false, some 0, 0, Vector.replicate 4 ⟨0, 0⟩, false, 0, true, []⟩
def vS : Sys2Proof.Machine.Level := { vL with plane := none, spilled := true }
def ent0 : SpillEnt := { off := 0, len := 128, depth := 0, plane := 1, cfg := 0, image := [], stamp := 7 }
def lRf : Launch := { uC with spillArea := 0x10000, levels := [vS], stack := [ent0], refillDue := some 0, planes := [(0, ⟨.active, some 1, 1, false, 0, false, 0⟩)] }
def lRe : Launch := { lRf with refilling := some (1, 0), planes := [(0, ⟨.active, some 1, 1, false, 0, false, 0⟩), (1, ⟨.free, none, 0, false, 0, true, 0⟩)] }
def wSt : State := (wJ lRe 0x200C5).modDie 0 fun d => { d with staging := [⟨1, 0x10000⟩] }
def lPr : Launch := { lA with planes := [(0, ⟨.active, some 0, 0, false, 0, false, 0⟩), (1, ⟨.loading, some 1, 0, false, 0, false, 0⟩)] }
/-- A configuration on two dies. -/
def cfgB : ConfigImg := { cfg0 with tiles := [⟨0, 0, 0, 0, [], [], []⟩, ⟨1, 1, 0, 0, [], [], []⟩] }
/-- A service unit that preloads. -/
def lPrS : Launch := { lPr with service := true }
def wStF : State := (wJ lRe 0).modDie 0 fun d => { d with staging := [⟨1, 0x10000⟩] }
def vLoc : Saved := { Saved.blank with local_ := true }
def lw : Launch := { Launch.blank with st := .waiting, cls := 0, entry := 8 }
def lv : Launch := { lA with cls := 3 }
def wVic : State := { wl lv with launches := [(1, lv), (2, lw)] }
def lPd : Launch := { lA with st := .pending }
def cS : Cmd := { Cmd.new 0 ⟨0x10000, 8, 8, 0⟩ 0 0 0 1 0 false 0 1 0 (some 0) 5 with begun := true, quiet := 300 }
def lSt : Launch := { lA with st := .stopping, still := 300 }
def lSs : Launch := { lSt with saveArea := 0x10000, saved := some Saved.blank }
def lSv : Launch := { lSs with st := .saving, planes := [(0, ⟨.free, none, 0, false, 0, false, 0⟩)] }
def lSw : Launch := { lSv with planes := [(1, ⟨.parked, some 1, 0, false, 0, false, 0⟩)] }
def lRs : Launch := { lSv with st := .saved }
def wRs : State := { wJ lRs 0x200C5 with tiles := [(0, Tile.reset)] }
def lRr : Launch := { lSv with st := .restoring }
def lRp : Launch := { lRr with stack := [ent0], saved := some { Saved.blank with planes := [ent0] } }
def wRp : State := (wJ lRp 0x200C5).modDie 0 fun d => { d with staging := [⟨1, 0x10000⟩] }
def folS : Folio := { fol0 with service := true, va := 0x3000 }
def wSv (f : Folio) (l : Launch) (c : Word) : State := { (wl l).modDie 0 (fun d => { d with regs := [(0xB08, 0x3000), (0xB10, c)] }) with folios := [fol0, f] }
def svc : Word := 0x8000000000000000

/-! PlanesFreezeSpillAndRefill -/

theorem test_wit_freeze_call :
    (wl (lCall 1)).launch? 1 = some (lCall 1) ∧
  (lCall 1).callStage = 1 ∧ (lCall 1).goes = true ∧ (wl (lCall 1)).committingIn (lCall 1) = false ∧ (lCall 1).active? = some 0 := by decide +kernel

theorem test_wit_freeze_xch :
    (wl (lCall 11)).launch? 1 = some (lCall 11) ∧
  (lCall 11).callStage = 11 ∧ (lCall 11).goes = true ∧ (wl (lCall 11)).committingIn (lCall 11) = false ∧ (lCall 11).active? = some 0 := by decide +kernel

theorem test_wit_spill :
    (wJ lSp 131269).launch? 1 = some lSp ∧
  lSp.callStage = 3 ∧
    List.find?
          (fun v =>
            match v.plane with
            | some p => (lSp.plane p).busy && (lSp.plane p).st == PlaneState.frozen
            | none => false)
          lSp.levels =
        some vL ∧
      vL.plane = some 1 ∧ (wJ lSp 131269).pushPlane 1 lSp 1 vL.depth (vL.cfg.getD 0) = Except.ok (some (okP ((wJ lSp 131269).pushPlane 1 lSp 1 0 0))) := by decide +kernel

theorem test_wit_spill_fault :
    (wJ lSp 0).launch? 1 = some lSp ∧
  lSp.callStage = 3 ∧
    List.find?
          (fun v =>
            match v.plane with
            | some p => (lSp.plane p).busy && (lSp.plane p).st == PlaneState.frozen
            | none => false)
          lSp.levels =
        some vL ∧
      vL.plane = some 1 ∧ (wJ lSp 0).pushPlane 1 lSp 1 vL.depth (vL.cfg.getD 0) = Except.error (erP ((wJ lSp 0).pushPlane 1 lSp 1 0 0)) := by decide +kernel

theorem test_wit_refill :
    (wJ lRf 131269).launch? 1 = some lRf ∧
  lRf.refilling = none ∧
    lRf.callStage = 0 ∧ (lRf.st = UState.running ∨ lRf.st = UState.pending) ∧ lRf.refillDue = some 0 ∧ lRf.onTop 0 = true ∧ lRf.lowestFree = some 1 := by decide +kernel

theorem test_wit_refill_end :
    wSt.launch? 1 = some lRe ∧
  lRe.refilling = some (1, 0) ∧
    lRe.stack.getLast? = some ent0 ∧ ent0.depth = 0 ∧ wSt.popPlane 1 lRe ent0 1 = Except.ok (okE (wSt.popPlane 1 lRe ent0 1)) := by decide +kernel

def arg_writeback : Staged :=
  ⟨1, 0x10000⟩

theorem test_wit_writeback :
    (wSt.getDie 0).staging = [arg_writeback] ∧
  wSt.launch? arg_writeback.owner = some lRe ∧
    List.find? (fun e => lRe.spillArea + e.off == arg_writeback.addr) lRe.stack = some ent0 ∧
      wSt.areaFault lRe.die lRe.vmid arg_writeback.addr ent0.len Need.w = none := by decide +kernel

theorem test_wit_writeback_fault :
    (wStF.getDie 0).staging = [arg_writeback] ∧
  wStF.launch? arg_writeback.owner = some lRe ∧
    List.find? (fun e => lRe.spillArea + e.off == arg_writeback.addr) lRe.stack = some ent0 ∧
      wStF.areaFault lRe.die lRe.vmid arg_writeback.addr ent0.len Need.w = some ((wStF.areaFault lRe.die lRe.vmid 65536 ent0.len Need.w).getD 0) := by decide +kernel

theorem test_wit_spill_word :
    1 ≤ u0.region.length ∧ u0.region.length ≤ 16 ∧ ent0.depth < 64 ∧ ent0.plane < 4 ∧ ent0.cfg < 256 ∧ ent0.len / 64 < 2 ^ 32 := by decide +kernel

/-! PreemptionSavesAndRestores -/

theorem test_wit_victim :
    wVic.launch? 1 = some lv ∧ lv.st = UState.running ∧ lv.service = false ∧ ∃ w ∈ wVic.queueOfUnits, lv.yieldsTo wVic.clk w.2.1 w.2.2 = true := by decide +kernel

theorem test_wit_yields :
    lv.yieldsTo 0 lw [0] = true := by decide +kernel

def at_preempt_stop : State :=
  wlt lPd fun t => { t with wait := some (.poll true) }

theorem test_wit_preempt_stop :
    at_preempt_stop.launch? 1 = some lPd ∧
  lPd.st = UState.pending ∧
    lPd.frozen = false ∧ lPd.held = false ∧ lPd.pastFreeze = false ∧ (at_preempt_stop.getTile (lPd.region.headD 0)).atProgress = true := by decide +kernel

def at_suspend : State :=
  wlt lSt fun t => { t with ports := [(2, { PortQ.reset with entries := [.cmd cS] })] }

theorem test_wit_suspend :
    ((at_suspend.getTile 0).port 2).cmd? = some cS ∧
  at_suspend.launch? cS.owner = some lSt ∧
    2 < 4 ∧
      lSt.st = UState.stopping ∧
        cS.begun = true ∧
          cS.cut = false ∧
            cS.suspended = false ∧
              cS.waiting = 0 ∧
                256 ≤ cS.quiet ∧
                  256 ≤ lSt.still ∧
                    (cS.bound && cS.has 3) = false ∧
                      ∀ m ∈ at_suspend.msgs, (m.returnsTo (portNo 0 2) cS.owner && !m.arrived) = false ∧ m.agent ≠ portAgent 0 2 := by decide +kernel

theorem test_wit_save :
    (wJ lSs 131269).launch? 1 = some lSs ∧ lSs.st = UState.stopping ∧ lSs.ending = Ending.ok ∧ (wJ lSs 131269).stopped 1 lSs = true := by decide +kernel

def at_saved : State :=
  wJ { lSv with saved := some vLoc } 0x200C5

def arg_saved : Launch :=
  { lSv with saved := some vLoc }

theorem test_wit_saved :
    at_saved.launch? 1 = some arg_saved ∧
  arg_saved.st = UState.saving ∧
    arg_saved.saved = some vLoc ∧
      List.find? (fun p => !vLoc.planes.any fun e => e.plane == p.1)
            (arg_saved.heldPlanes ++ if vLoc.local_ = true then at_saved.activeToSave arg_saved vLoc else []) =
          none ∧
        vLoc.local_ = true := by decide +kernel

theorem test_wit_saved_plane :
    (wJ lSw 131269).launch? 1 = some lSw ∧
  lSw.st = UState.saving ∧
    lSw.saved = some Saved.blank ∧
      List.find? (fun p => !Saved.blank.planes.any fun e => e.plane == p.1)
            (lSw.heldPlanes ++ if Saved.blank.local_ = true then (wJ lSw 131269).activeToSave lSw Saved.blank else []) =
          some (1, 0, 1) ∧
        (wJ lSw 131269).pushPlane 1 lSw 1 0 1 = Except.ok (some (okP ((wJ lSw 131269).pushPlane 1 lSw 1 0 1))) := by decide +kernel

theorem test_wit_restore :
    wRs.launch? 1 = some lRs ∧
  lRs.st = UState.saved ∧ wRs.nextUnit lRs.die = some 1 ∧ lRs.saved = some Saved.blank ∧ lRs.region = [0] ∧ lRs.ending = Ending.ok := by decide +kernel

theorem test_wit_resume :
    (wl lRr).launch? 1 = some lRr ∧ lRr.st = UState.restoring ∧ lRr.saved = some Saved.blank ∧ lRr.nextPop Saved.blank = none := by decide +kernel

def arg_resume_plane : Saved :=
  { Saved.blank with planes := [ent0] }

theorem test_wit_resume_plane :
    wRp.launch? 1 = some lRp ∧
  lRp.st = UState.restoring ∧
    lRp.saved = some arg_resume_plane ∧
      lRp.nextPop arg_resume_plane = some ent0 ∧ wRp.popPlane 1 lRp ent0 ent0.plane = Except.ok (okE (wRp.popPlane 1 lRp ent0 1)) := by decide +kernel

/-! ServiceUnits -/

theorem test_wit_service :
    0 < 16 ∧
  bitOf (BitVec.toNat ((wSv folS lA (svc + 7#64)).reg 0 2832)) 63 = true ∧
    bitsOf (BitVec.toNat ((wSv folS lA (svc + 7#64)).reg 0 2832)) 59 14 = 0 ∧
      bitsOf (BitVec.toNat ((wSv folS lA (svc + 7#64)).reg 0 2832)) 9 0 ≤ 99 ∧
        findIdxFrom (fun f => f.service && f.va == BitVec.toNat ((wSv folS lA (svc + 7#64)).reg 0 2824)) (wSv folS lA (svc + 7#64)).folios 0 =
            some 1 ∧
          ((wSv folS lA (svc + 7#64)).folios.getD 1 default).verified = true ∧
            (wSv folS lA (svc + 7#64)).serviceRuns = false ∧
              ((wSv folS lA (svc + 7#64)).folios.getD 1 default).region.length = 1 ∧
                (wSv folS lA (svc + 7#64)).owner?
                    (bitsOf (BitVec.toNat ((wSv folS lA (svc + 7#64)).reg 0 2832)) 13 10 * 100 +
                      bitsOf (BitVec.toNat ((wSv folS lA (svc + 7#64)).reg 0 2832)) 6 0) =
                  none := by decide +kernel

theorem test_wit_service_freeze :
    0 < 16 ∧
  bitOf (BitVec.toNat ((wSv folS lA svc).reg 0 2832)) 63 = true ∧
    bitsOf (BitVec.toNat ((wSv folS lA svc).reg 0 2832)) 59 14 = 0 ∧
      bitsOf (BitVec.toNat ((wSv folS lA svc).reg 0 2832)) 9 0 ≤ 99 ∧
        findIdxFrom (fun f => f.service && f.va == BitVec.toNat ((wSv folS lA svc).reg 0 2824)) (wSv folS lA svc).folios 0 = some 1 ∧
          ((wSv folS lA svc).folios.getD 1 default).verified = true ∧
            (wSv folS lA svc).serviceRuns = false ∧
              ((wSv folS lA svc).folios.getD 1 default).region.length = 1 ∧
                (wSv folS lA svc).owner?
                      (bitsOf (BitVec.toNat ((wSv folS lA svc).reg 0 2832)) 13 10 * 100 + bitsOf (BitVec.toNat ((wSv folS lA svc).reg 0 2832)) 6 0) =
                    some 1 ∧
                  (wSv folS lA svc).launch? 1 = some lA ∧
                    (lA.st = UState.running ∨ lA.st = UState.pending) ∧
                      lA.frozen = false ∧
                        (wSv folS lA svc).freezeWaits 1
                              (bitsOf (BitVec.toNat ((wSv folS lA svc).reg 0 2832)) 13 10 * 100 +
                                bitsOf (BitVec.toNat ((wSv folS lA svc).reg 0 2832)) 6 0) =
                            false ∧
                          1 ≠ ((wSv folS lA svc).abandonAll lA).stamp := by decide +kernel

def at_service_busy : State :=
  wSv folS { lA with service := true } svc

theorem test_wit_service_busy :
    0 < 16 ∧
  bitOf (BitVec.toNat (at_service_busy.reg 0 2832)) 63 = true ∧
    bitsOf (BitVec.toNat (at_service_busy.reg 0 2832)) 59 14 = 0 ∧
      bitsOf (BitVec.toNat (at_service_busy.reg 0 2832)) 9 0 ≤ 99 ∧
        findIdxFrom (fun f => f.service && f.va == BitVec.toNat (at_service_busy.reg 0 2824)) at_service_busy.folios 0 = some 1 ∧
          (at_service_busy.folios.getD 1 default).verified = true ∧ at_service_busy.serviceRuns = true := by decide +kernel

def at_service_bad : State :=
  wSv { folS with verified := false } lA svc

theorem test_wit_service_bad :
    0 < 16 ∧
  bitOf (BitVec.toNat (at_service_bad.reg 0 2832)) 63 = true ∧
    bitsOf (BitVec.toNat (at_service_bad.reg 0 2832)) 59 14 = 0 ∧
      bitsOf (BitVec.toNat (at_service_bad.reg 0 2832)) 9 0 ≤ 99 ∧
        findIdxFrom (fun f => f.service && f.va == BitVec.toNat (at_service_bad.reg 0 2824)) at_service_bad.folios 0 = some 1 ∧
          (at_service_bad.folios.getD 1 default).verified = false := by decide +kernel

def at_service_large : State :=
  wSv { folS with region := folS.region ++ folS.region } lA svc

theorem test_wit_service_large :
    0 < 16 ∧
  bitOf (BitVec.toNat (at_service_large.reg 0 2832)) 63 = true ∧
    bitsOf (BitVec.toNat (at_service_large.reg 0 2832)) 59 14 = 0 ∧
      bitsOf (BitVec.toNat (at_service_large.reg 0 2832)) 9 0 ≤ 99 ∧
        findIdxFrom (fun f => f.service && f.va == BitVec.toNat (at_service_large.reg 0 2824)) at_service_large.folios 0 = some 1 ∧
          (at_service_large.folios.getD 1 default).verified = true ∧
            at_service_large.serviceRuns = false ∧ (at_service_large.folios.getD 1 default).region.length ≠ 1 := by decide +kernel

def at_service_none : State :=
  wSv { folS with service := false } lA svc

theorem test_wit_service_none :
    0 < 16 ∧
  bitOf (BitVec.toNat (at_service_none.reg 0 2832)) 63 = true ∧
    bitsOf (BitVec.toNat (at_service_none.reg 0 2832)) 59 14 = 0 ∧
      bitsOf (BitVec.toNat (at_service_none.reg 0 2832)) 9 0 ≤ 99 ∧
        findIdxFrom (fun f => f.service && f.va == BitVec.toNat (at_service_none.reg 0 2824)) at_service_none.folios 0 = none := by decide +kernel

theorem test_wit_service_reserved :
    0 < 16 ∧
  bitOf (BitVec.toNat ((wSv folS lA (svc + 100#64)).reg 0 2832)) 63 = true ∧
    (bitsOf (BitVec.toNat ((wSv folS lA (svc + 100#64)).reg 0 2832)) 59 14 ≠ 0 ∨
      99 < bitsOf (BitVec.toNat ((wSv folS lA (svc + 100#64)).reg 0 2832)) 9 0) := by decide +kernel

def arg_refill_caller : Launch :=
  { lRf with cleared := some 2, refillDue := none }

/-! PlanesFreezeSpillAndRefill -/

theorem test_wit_refill_caller :
    vS.spilled = true ∧
  arg_refill_caller.refilling = none ∧
    arg_refill_caller.onTop vS.depth = true ∧ arg_refill_caller.cleared = some 2 ∧ arg_refill_caller.levels.getLast? = some vS := by decide +kernel

def arg_refill_later : Launch :=
  { lRf with cleared := none, refillDue := none }

theorem test_wit_refill_later :
    vS.spilled = true ∧ (arg_refill_later.refilling.isSome = true ∨ arg_refill_later.cleared = none) ∧ arg_refill_later.levels.getLast? = some vS := by decide +kernel

theorem test_wit_refill_staged :
    wSt.areaFault lRe.die lRe.vmid (lRe.spillArea + ent0.off) ent0.len Need.r = none ∧ (wSt.isStaged 1 lRe ent0 = true ∨ wSt.crcsHold lRe ent0 = true) := by decide +kernel

def at_preload_bad : State :=
  { wl lPr with folios := [{ fol0 with configs := [cfg0, cfgB] }] }

theorem test_wit_preload_bad :
    at_preload_bad.launch? 1 = some lPr ∧
  List.find? (fun p => (lPr.plane p).st == PlaneState.loading) [0, 1, 2] = some 1 ∧
    (lPr.st = UState.running ∨ lPr.st = UState.pending ∨ lPr.st = UState.stopping) ∧
      (lPr.plane 1).cfg = some 1 ∧ at_preload_bad.config? lPr 1 = some cfgB ∧ cfgB.bad = some 98 := by decide +kernel

theorem test_wit_preload_page :
    (wl lPr).launch? 1 = some lPr ∧
  List.find? (fun p => (lPr.plane p).st == PlaneState.loading) [0, 1, 2] = some 1 ∧
    (lPr.st = UState.running ∨ lPr.st = UState.pending ∨ lPr.st = UState.stopping) ∧
      (lPr.plane 1).cfg = some 1 ∧
        (wl lPr).config? lPr 1 = some cfg1 ∧
          cfg1.bad = none ∧ lPr.service = false ∧ (wl lPr).areaPage lPr.die lPr.vmid ((wl lPr).folio lPr).va Need.x = Except.error 32 := by decide +kernel

/-! PreemptionSavesAndRestores -/

theorem test_wit_saved_local :
    (wJ lSv 131269).launch? 1 = some lSv ∧
  lSv.st = UState.saving ∧
    lSv.saved = some Saved.blank ∧
      Saved.blank.local_ = false ∧
        List.find? (fun p => !Saved.blank.planes.any fun e => e.plane == p.1) lSv.heldPlanes = none ∧
          (wJ lSv 131269).saveFault lSv
              (List.map (fun k => (k.off, k.n)) ((wJ lSv 131269).keptLocal lSv ++ (wJ lSv 131269).keptWindows lSv Saved.blank.carves)) Need.w =
            none := by decide +kernel

theorem test_wit_preload : (wl lPrS).launch? 1 = some lPrS ∧ [0, 1, 2].find? (fun p => (lPrS.plane p).st == .loading) = some 1 ∧
    lPrS.st = .running ∧ (lPrS.plane 1).cfg = some 1 ∧ (wl lPrS).config? lPrS 1 = some cfg1 ∧ cfg1.bad = none ∧ lPrS.service = true := by
  decide +kernel

/-- A read of bytes that a write leaves alone. -/
theorem memRead_memWrite_of_out (m : List Host.Cell) (a n v : Nat) : ∀ k b, b + k ≤ a ∨ a + n ≤ b → memRead (memWrite m a n v) b k = memRead m b k
  | 0, _, _ => rfl
  | k + 1, b, h => by
    rw [memRead, memRead, memByte_memWrite_of_out m a n v (by omega), memRead_memWrite_of_out m a n v k (b + 1) (by omega)]

/-- A read of bytes that were written. -/
theorem memRead_memWrite {m : List Host.Cell} (hm : Memory.wf m = true) (a n v : Nat) :
    ∀ k i, i + k ≤ n → memRead (memWrite m a n v) (a + i) k = v / 256 ^ i % 256 ^ k
  | 0, i, _ => by rw [memRead, pow_zero, Nat.mod_one]
  | k + 1, i, h => by
    rw [memRead, memByte_memWrite hm a n v i (by omega), Nat.add_assoc, memRead_memWrite hm a n v k (i + 1) (by omega)]
    rw [BitVec.toNat_ofNat, pow_succ 256 i, ← Nat.div_div_eq_div_mul, pow_succ' 256 k, Nat.mod_mul]

/-- Words side by side, as their bytes stand in memory. -/
def pack : List Word → Nat
  | [] => 0
  | w :: r => w.toNat + 2 ^ 64 * pack r

theorem pack_word : ∀ (ws : List Word) (i : Nat), BitVec.ofNat 64 (pack ws / 256 ^ (8 * i) % 256 ^ 8) = ws.getD i 0
  | [], i => by simp [pack]
  | w :: r, 0 => by
    have h : (w.toNat + 2 ^ 64 * pack r) / 256 ^ (8 * 0) % 256 ^ 8 = w.toNat := by have := w.isLt; omega
    rw [pack, h]; simp
  | w :: r, i + 1 => by
    have h : pack (w :: r) / 256 ^ (8 * (i + 1)) = pack r / 256 ^ (8 * i) := by
      have := w.isLt
      rw [pack, Nat.mul_add, Nat.mul_one, pow_add, Nat.mul_comm (256 ^ (8 * i)), ← Nat.div_div_eq_div_mul]
      congr 1; omega
    rw [h, pack_word r i]; simp

/-- One level of a walk that goes on. -/
theorem walkLevel_down (m : List Host.Cell) (level table idx low p : Nat) (ls : Option (BitVec 2)) (h : memRead m (gddrBase + table + 8 * idx) 8 = p)
    (hp : (bitOf p 0 && !bitOf p 2 && !pointerBad p low) = true) : walkLevel m level table idx ls (some low) = .ok (bitsOf p 51 8 * 256) := by
  simp only [Bool.and_eq_true, Bool.not_eq_true'] at hp
  simp [walkLevel, h, hp]

/-- The save area of a unit whose words are what SAVING wrote. -/
@[irreducible] def hid (mm : List Host.Cell) : List Host.Cell := memWrite mm 0x20000 0x400 (pack (hiddenWords 0 (0, 0x400)))
def wHid : State := { wJ lSv 0x200C5 with mem := hid (memT 0x200C5) }

theorem wHid_mem : wHid.mem = hid (memT 0x200C5) := rfl

theorem hid_walk : walkPage wHid.mem (wHid.jobdir 0) 0 1 = .leaf 0x200C5 0 := by
  have r (b v : Nat) (hb : 0x20400 ≤ b) (hv : memRead (memT 0x200C5) b 8 = v) : memRead wHid.mem b 8 = v := by
    rw [wHid_mem]; delta hid; exact (memRead_memWrite_of_out _ 0x20000 0x400 _ 8 b (Or.inr hb)).trans hv
  have hj : wHid.jobdir 0 = 0x100000 := by decide +kernel
  have e0 : memRead wHid.mem (gddrBase + bitsOf 0x100000 51 0 + 8 * (0 : BitVec 16).toNat) 8 = 0x110001 := r 0x100000 _ (by decide) (by decide +kernel)
  have e1 : walkLevel wHid.mem 1 (bitsOf 0x110001 51 16 * 2 ^ 16) (bitsOf (1 * 2 ^ 16) 55 43) none (some 16) = .ok 0x120000 :=
    walkLevel_down _ _ _ _ _ 0x120001 _ (r 0x110000 _ (by decide) (by decide +kernel)) (by decide +kernel)
  have e2 : walkLevel wHid.mem 2 0x120000 (bitsOf (1 * 2 ^ 16) 42 30) (some 2) (some 12) = .ok 0x130000 :=
    walkLevel_down _ _ _ _ _ 0x130001 _ (r 0x120000 _ (by decide) (by decide +kernel)) (by decide +kernel)
  have e3 : walkLevel wHid.mem 3 0x130000 (bitsOf (1 * 2 ^ 16) 29 21) (some 1) (some 8) = .ok 0x140000 :=
    walkLevel_down _ _ _ _ _ 0x140001 _ (r 0x130000 _ (by decide) (by decide +kernel)) (by decide +kernel)
  have e4 : walkLevel wHid.mem 4 0x140000 (bitsOf (1 * 2 ^ 16) 20 16) (some 0) none = .error (.leaf 0x200C5 0) := by
    have h := r 0x140008 0x200C5 (by decide) (by decide +kernel)
    have h' : memRead wHid.mem (gddrBase + 0x140000 + 8 * bitsOf (1 * 2 ^ 16) 20 16) 8 = 0x200C5 := h
    simp only [walkLevel, h']
    decide +kernel
  have c : (!bitOf 0x110001 0) = false ∧ (pteReserved 0x110001 || bitsOf 0x110001 15 1 != 0 || bitsOf 0x110001 51 39 != 0 ||
      pteHome 0x110001 != bitsOf 0x110001 38 35) = false := by decide +kernel
  simp only [walkPage, hj, e0, e1, e2, e3, e4, c.1, c.2, bind, Except.bind, Bool.false_eq_true, if_false]

theorem hid_page (i : Nat) (h : i < 128) : wHid.areaPage 0 0 (0x10000 + 8 * i) .r = .ok (leafTarget 0x200C5 0 (0x10000 + 8 * i)) := by
  have hp : (0x10000 + 8 * i) / 2 ^ 16 = 1 := by omega
  have hb : ¬ (0x10000 + 8 * i ≥ 2 ^ 56) := by omega
  simp only [State.areaPage, hp, hb, if_false, hid_walk]
  rfl

theorem hid_flat : ∀ i, i < 128 → (leafTarget 0x200C5 0 (0x10000 + 8 * i)).flat = 0x20000 + 8 * i := by decide +kernel

theorem test_wit_intact : wHid.intact lSv Saved.blank (0, 0x400) = true ∧
    (∀ e ∈ Saved.blank.deps, wHid.intact lSv Saved.blank (0x400 + 32 * e.1, 32) = true) ∧ Saved.blank.cmds = [] := by
  refine ⟨?_, fun e he => (List.not_mem_nil he).elim, rfl⟩
  have hw : hiddenWords 0 (0, 0x400) = (List.range 128).map fun i => (hiddenWords 0 (0, 0x400)).getD i 0 := by
    apply List.ext_getElem
    · simp [hiddenWords]
    · intro i h1 h2; simp [List.getD_eq_getElem?_getD, h1] 
  show (wHid.areaRead 0 0 0x10000 128 == hiddenWords 0 (0, 0x400)) = true
  rw [beq_iff_eq, hw]
  apply List.map_congr_left
  intro i hi
  rw [List.mem_range] at hi
  have hm : memRead wHid.mem (0x20000 + 8 * i) 8 = pack (hiddenWords 0 (0, 0x400)) / 256 ^ (8 * i) % 256 ^ 8 := by
    rw [wHid_mem]; delta hid; exact memRead_memWrite (by decide +kernel) 0x20000 0x400 _ 8 (8 * i) (by omega)
  simp only [hid_page i hi, hid_flat i hi, hm, pack_word]

/-- One bit of a CRC goes on from a register that is not zero to one that is not. -/
theorem crcBit_ne (c : BitVec 32) (h : c ≠ 0) : (if c &&& 1 = 1 then c >>> 1 ^^^ 0xEDB88320 else c >>> 1) ≠ 0 := by
  have hs : (c >>> 1).toNat = c.toNat / 2 := by simp [BitVec.toNat_ushiftRight, Nat.shiftRight_eq_div_pow]
  have hl := c.isLt
  split
  · intro e
    have := congrArg BitVec.toNat (BitVec.xor_eq_zero_iff.1 e)
    rw [hs] at this
    simp at this; omega
  · rename_i hb
    intro e
    have h0 := congrArg BitVec.toNat e
    rw [hs] at h0
    have h1 : c.toNat = 1 := by
      have : c.toNat ≠ 0 := fun z => h (BitVec.eq_of_toNat_eq z)
      simp at h0; omega
    exact hb (by rw [BitVec.eq_of_toNat_eq (y := 1#32) h1]; decide)

/-- A fold keeps what each of its steps keeps. -/
theorem foldl_keeps {α β : Type} (p : α → Prop) (f : α → β → α) (l : List β) (h : ∀ a, ∀ b ∈ l, p a → p (f a b)) : ∀ a, p a → p (l.foldl f a) := by
  induction l with
  | nil => exact fun a ha => ha
  | cons x r ih => exact fun a ha => ih (fun a b hb => h a b (List.mem_cons_of_mem _ hb)) _ (h a x List.mem_cons_self ha)

/-- Words of zero never have the CRC 0xFFFFFFFF. -/
theorem crc32_zeros (n : Nat) : crc32 (List.replicate n 0) ≠ 0xFFFFFFFF := by
  have h : (List.replicate n (0 : Word)).foldl (fun c w => (List.range 8).foldl (fun c i => crcByte c (w.toNat / 2 ^ (8 * i))) c) (0xFFFFFFFF : BitVec 32) ≠ 0 := by
    refine foldl_keeps (fun c : BitVec 32 => c ≠ 0) _ _ (fun a w hw ha => ?_) _ (by decide)
    rw [List.eq_of_mem_replicate hw]
    refine foldl_keeps (fun c : BitVec 32 => c ≠ 0) _ _ (fun b i _ hb => ?_) _ ha
    refine foldl_keeps (fun c : BitVec 32 => c ≠ 0) _ _ (fun d _ _ hd => crcBit_ne d hd) _ ?_
    simpa using hb
  intro e
  unfold crc32 at e
  exact h (by rw [← BitVec.not_not (b := List.foldl _ _ _), e]; decide)

/-- Memory reads zero where nothing is listed. -/
theorem memRead_unlisted (m : List Host.Cell) : ∀ n a, (∀ c ∈ m, c.1 < a ∨ a + n ≤ c.1) → memRead m a n = 0
  | 0, _, _ => rfl
  | n + 1, a, h => by
    have hb : memByte m a = 0 := by
      have : smFind m a = none := by
        induction m with
        | nil => rfl
        | cons c r ih =>
          have hc := h c List.mem_cons_self
          have hn : ¬ c.1 = a := by omega
          simp only [smFind]
          have := ih (fun x hx => h x (List.mem_cons_of_mem _ hx))
          simp_all
      simp [memByte, smGet, this, memDefault]
    rw [memRead, hb, memRead_unlisted m n (a + 1) (fun c hc => by have := h c hc; omega)]
    rfl

/-- A spill area of zeros whose stored CRC is 0xFFFFFFFF. -/
def wCrc : State := { wJ lRe 0x200C5 with mem := memWrite (memT 0x200C5) 0x20040 4 0xFFFFFFFF }

theorem crc_words : wCrc.areaRead 0 0 (0x10000 + 0 + 128 + 8 * 0) 1024 = List.replicate 1024 0 := by
  rw [List.eq_replicate_iff]
  refine ⟨by simp [State.areaRead], fun w hw => ?_⟩
  obtain ⟨i, hi, rfl⟩ := List.mem_map.1 hw
  rw [List.mem_range] at hi
  have hp : (0x10000 + 0 + 128 + 8 * 0 + 8 * i) / 2 ^ 16 = 1 := by omega
  have hb : ¬ (0x10000 + 0 + 128 + 8 * 0 + 8 * i ≥ 2 ^ 56) := by omega
  have hk : walkPage wCrc.mem (wCrc.jobdir 0) 0 1 = .leaf 0x200C5 0 := by decide +kernel
  have hf : ∀ i, i < 1024 → (leafTarget 0x200C5 0 (0x10000 + 0 + 128 + 8 * 0 + 8 * i)).flat = 0x20080 + 8 * i := by decide +kernel
  have ha : wCrc.areaPage 0 0 (0x10000 + 0 + 128 + 8 * 0 + 8 * i) .r = .ok (leafTarget 0x200C5 0 (0x10000 + 0 + 128 + 8 * 0 + 8 * i)) := by
    simp only [State.areaPage, hp, hb, if_false, hk]
    rfl
  have hc : ∀ c ∈ wCrc.mem, c.1 < 0x20080 ∨ 0x30000 ≤ c.1 := by decide +kernel
  simp only [ha, hf i hi]
  rw [memRead_unlisted wCrc.mem 8 (0x20080 + 8 * i) fun c h => by have := hc c h; omega]
  rfl

theorem crc_lens : (wCrc.tileImages lRe ent0).map List.length = [1024] := by decide +kernel

theorem test_wit_refill_changed : wCrc.areaFault lRe.die lRe.vmid (lRe.spillArea + ent0.off) ent0.len .r = none ∧
    wCrc.isStaged 1 lRe ent0 = false ∧ wCrc.crcsHold lRe ent0 = false := by
  refine ⟨by decide +kernel, by decide +kernel, ?_⟩
  have hs : (wCrc.areaRead lRe.die lRe.vmid (lRe.spillArea + ent0.off + 64) 8).getD 0 0 = 0xFFFFFFFF := by decide +kernel
  have hw : wCrc.areaRead lRe.die lRe.vmid (lRe.spillArea + ent0.off + 128 + 8 * 0) 1024 = List.replicate 1024 0 := crc_words
  have hn : ¬ (crc32 (List.replicate 1024 0)).toNat = 4294967295 := fun e => crc32_zeros 1024 (BitVec.eq_of_toNat_eq e)
  unfold State.crcsHold
  simp only [crc_lens, List.zipIdx_cons, List.zipIdx_nil, List.all_cons, List.all_nil, List.take_zero, List.sum_nil, hw, hs, Bool.and_true, Nat.zero_div, Nat.zero_mod]
  rw [beq_eq_false_iff_ne]
  exact hn

end Planes

namespace Control

def wR (r : List (Nat × Word)) (f : Die → Die) : State := w0.modDie 0 fun d => f { d with regs := r }
def wPh (op : Nat) (f : Die → Die) : State := wR [(0x500, 0x40), (0x508, BitVec.ofNat 64 (2 ^ 63 + op * 2 ^ 61 + 2 * 2 ^ 32 + 1 * 2 ^ 16 + 3))] f
def dPh : Die := let s := wPh 0 id
  (Die.take { s.getDie 0 with phasers := smPut (s.getDie 0).phasers 0x40 (Phaser.create 2 1 3 0) } (phKey 0x40)).getD Die.reset
def wQ (op : Nat) (q : Option Queue) : State := wR [(0x400, 5), (0x408, BitVec.ofNat 64 (2 ^ 63 + op * 2 ^ 60 + 1 * 2 ^ 52 + 4 * 2 ^ 32))] fun d => match q with | some x => { d with queues := [(5, x)] } | none => d
def q1 : Queue := { Queue.reset with state := 1, cap := 4 }
def wWin (q : Queue) : State := wR [] fun d => { d with queues := [(5, q)] }
def memT (leaf : Nat) : List Host.Cell :=
  [(0x100000, 0x110001), (0x110000, 0x120001), (0x120000, 0x130001), (0x130000, 0x140001), (0x140008, leaf)].foldl (fun m e => memWrite m (gddrBase + e.1) 8 e.2) []
def wHost (leaf : Nat) : State := { wR [(0x000, 0x100000)] id with mem := memT leaf, homeTs := [(gddrBase + 0x20040, (3, 9))], mod := { ModuleBlk.reset with regs := [(0x200, 1)] } }
def hT (n : Need) (leaf : Nat) : Word × Target := match (wHost leaf).hostTarget 0x48 n with | .ok x => x | .error _ => (0, ⟨0, 0, 0, 0, false, false⟩)
def wMig : State := (wHost 0x202C5).modDie 0 fun d => { d with migration := some ⟨0x140008, 0, gddrBase + 0x20000, gddrBase + 0x90000, 0, 0, 1, false, false⟩ }
def mT : Word × Target := match wMig.hostTarget 0x48 .rw with | .ok x => x | .error _ => (0, ⟨0, 0, 0, 0, false, false⟩)
def wBusy : State := { w0 with mod := { ModuleBlk.reset with warmBusy := true } }
def wOnly : State := { w0 with mod := { ModuleBlk.reset with moduleOnly := true } }
def mMask : ModuleBlk := ModuleBlk.reset
def mOn : ModuleBlk := { ModuleBlk.reset with msix := [(7, 0)] }
def mPend : ModuleBlk := { ModuleBlk.reset with msix := [(7, 0)], pending := [7] }
def sA2 : Nat := 0x202C5
def dA (leaf : Nat) : Die := let s := wHost leaf
  let t := (hT .rw leaf).2
  let line := t.flat / 64 * 64
  let d := (s.fillLine line).getDie t.home
  (Die.take { d with held := if d.held.contains line then d.held else line :: d.held } (lineKey line)).getD Die.reset
def wIr : State := wR [] fun d => { d with irq := [(w0.me, 7)] }
def m1 (h : Bool) (ty : BitVec 3) (wr : Bool) : Msg := ⟨.access ty 0 0x5000 8 wr 0x1122, w0.me, 1, 0, 0, none, true, h, 0⟩
def wOut (m : Msg) (e : Nat) (up : BitVec 16) : State := { w0 with msgs := [m], eighths := e, mod := { ModuleBlk.reset with peersUp := up, regs := [(0x1000, 1)] } }
def lA : Launch := { uP .active with run := true }
def lF : Launch := { lA with st := .ending, ending := .faulted, cause := 0x21, causeClk := 3, faults := 1 }
def wXin (acc : Word) : State := { wHost 0x202C5 with mod := { ModuleBlk.reset with regs := [(0x1800, acc)] } }
def pk0 : PeerPacket := ⟨3, 0, 0x10048, 0x99⟩
def xT : Word × Target := match (wXin 8).outsideTarget 0 0x10040 .w with | .ok x => x | .error _ => (0, ⟨0, 0, 0, 0, false, false⟩)

/-! EngineControl -/

theorem test_wit_ph_create :
    (wPh 0 id).phAsked 0 0 = true ∧
  bitsOf (BitVec.toNat ((wPh 0 id).reg 0 1288)) 57 48 = 0 ∧
    smFind ((wPh 0 id).getDie 0).phasers (bitsOf (BitVec.toNat ((wPh 0 id).reg 0 1280)) 30 6 * 64) = none ∧
      ({ ((wPh 0 id).getDie 0) with phasers := smPut ((wPh 0 id).getDie 0).phasers (bitsOf (BitVec.toNat ((wPh 0 id).reg 0 1280)) 30 6 * 64) (Phaser.create (bitsOf (BitVec.toNat ((wPh 0 id).reg 0 1288)) 47 32) (bitsOf (BitVec.toNat ((wPh 0 id).reg 0 1288)) 31 16) (bitsOf (BitVec.toNat ((wPh 0 id).reg 0 1288)) 15 0) (BitVec.setWidth 8 (wPh 0 id).rebases)) } : Die).take
          (phKey (bitsOf (BitVec.toNat ((wPh 0 id).reg 0 1280)) 30 6 * 64)) =
        some dPh := by decide +kernel

def at_ph_create_twice : State :=
  wPh 0 fun d => { d with phasers := [(0x40, ph0)] }

theorem test_wit_ph_create_twice :
    at_ph_create_twice.phAsked 0 0 = true ∧
  bitsOf (BitVec.toNat (at_ph_create_twice.reg 0 1288)) 57 48 = 0 ∧
    smFind (at_ph_create_twice.getDie 0).phasers (bitsOf (BitVec.toNat (at_ph_create_twice.reg 0 1280)) 30 6 * 64) = some ph0 := by decide +kernel

def at_ph_destroy : State :=
  wPh 1 fun d => { d with phasers := [(0x40, ph0)] }

theorem test_wit_ph_destroy :
    at_ph_destroy.phAsked 0 1 = true ∧
  bitsOf (BitVec.toNat (at_ph_destroy.reg 0 1288)) 57 48 = 0 ∧
    smFind (at_ph_destroy.getDie 0).phasers (bitsOf (BitVec.toNat (at_ph_destroy.reg 0 1280)) 30 6 * 64) = some ph0 ∧ ph0.waiters = [] := by decide +kernel

def at_ph_destroy_waited : State :=
  wPh 1 fun d => { d with phasers := [(0x40, { ph0 with waiters := [⟨w0.me, 1, 0x23, 0, .seq 0⟩] })] }

def arg_ph_destroy_waited : Phaser :=
  { ph0 with waiters := [⟨w0.me, 1, 0x23, 0, .seq 0⟩] }

theorem test_wit_ph_destroy_waited :
    at_ph_destroy_waited.phAsked 0 1 = true ∧
  bitsOf (BitVec.toNat (at_ph_destroy_waited.reg 0 1288)) 57 48 = 0 ∧
    smFind (at_ph_destroy_waited.getDie 0).phasers (bitsOf (BitVec.toNat (at_ph_destroy_waited.reg 0 1280)) 30 6 * 64) = some arg_ph_destroy_waited ∧
      arg_ph_destroy_waited.waiters ≠ [] := by decide +kernel

theorem test_wit_q_create :
    (wQ 0 none).qAsked 0 0 = true ∧
  (wQ 0 none).qReserved 0 = false ∧
    bitsOf (BitVec.toNat ((wQ 0 none).reg 0 1032)) 53 52 ≠ 3 ∧
      1 ≤ bitsOf (BitVec.toNat ((wQ 0 none).reg 0 1032)) 49 32 ∧
        bitsOf (BitVec.toNat ((wQ 0 none).reg 0 1032)) 49 32 ≤ 131072 ∧ ((wQ 0 none).queue 0 ((wQ 0 none).qSel 0)).state = 0#2 := by decide +kernel

theorem test_wit_q_create_twice :
    (wQ 0 (some q1)).qAsked 0 0 = true ∧
  (wQ 0 (some q1)).qReserved 0 = false ∧
    bitsOf (BitVec.toNat ((wQ 0 (some q1)).reg 0 1032)) 53 52 ≠ 3 ∧
      1 ≤ bitsOf (BitVec.toNat ((wQ 0 (some q1)).reg 0 1032)) 49 32 ∧
        bitsOf (BitVec.toNat ((wQ 0 (some q1)).reg 0 1032)) 49 32 ≤ 131072 ∧ ((wQ 0 (some q1)).queue 0 ((wQ 0 (some q1)).qSel 0)).state ≠ 0#2 := by decide +kernel

theorem test_wit_q_close :
    (wQ 1 (some q1)).qAsked 0 1 = true ∧
  (wQ 1 (some q1)).qReserved 0 = false ∧
    ((wQ 1 (some q1)).queue 0 ((wQ 1 (some q1)).qSel 0)).state = 1#2 ∧ ((wQ 1 (some q1)).queue 0 ((wQ 1 (some q1)).qSel 0)).rsvWait = [] := by decide +kernel

theorem test_wit_q_close_none :
    (wQ 1 none).qAsked 0 1 = true ∧ (wQ 1 none).qReserved 0 = false ∧ ((wQ 1 none).queue 0 ((wQ 1 none).qSel 0)).state ≠ 1#2 := by decide +kernel

def at_q_free : State :=
  wQ 2 (some { q1 with state := 2 })

theorem test_wit_q_free :
    at_q_free.qAsked 0 2 = true ∧
  at_q_free.qReserved 0 = false ∧
    (at_q_free.queue 0 (at_q_free.qSel 0)).state = 2#2 ∧
      (at_q_free.queue 0 (at_q_free.qSel 0)).recs = [] ∧
        (at_q_free.queue 0 (at_q_free.qSel 0)).rsvs = [] ∧ (at_q_free.queue 0 (at_q_free.qSel 0)).takers = [] := by decide +kernel

theorem test_wit_q_free_open :
    (wQ 2 (some q1)).qAsked 0 2 = true ∧
  (wQ 2 (some q1)).qReserved 0 = false ∧
    (((wQ 2 (some q1)).queue 0 ((wQ 2 (some q1)).qSel 0)).state ≠ 2#2 ∨
      ((wQ 2 (some q1)).queue 0 ((wQ 2 (some q1)).qSel 0)).recs ≠ [] ∨
        ((wQ 2 (some q1)).queue 0 ((wQ 2 (some q1)).qSel 0)).rsvs ≠ [] ∨ ((wQ 2 (some q1)).queue 0 ((wQ 2 (some q1)).qSel 0)).takers ≠ []) := by decide +kernel

def at_window_full : State :=
  wWin { q1 with hostwin := true, cap := 0 }

theorem test_wit_window_full :
    0 < 2 ∧
  at_window_full.shut = false ∧
    windowQueue 320 = some (0, 5) ∧
      (at_window_full.queue 0 5).state = 1#2 ∧
        (at_window_full.queue 0 5).hostwin = true ∧
          (at_window_full.queue 0 5).cap ≤ (at_window_full.queue 0 5).recs.length + List.length (at_window_full.queue 0 5).rsvs := by decide +kernel

theorem test_wit_window_closed :
    0 < 2 ∧ (wWin q1).shut = false ∧ windowQueue 320 = some (0, 5) ∧ (((wWin q1).queue 0 5).state ≠ 1#2 ∨ ((wWin q1).queue 0 5).hostwin = false) := by decide +kernel

def at_window_add : State :=
  wWin { q1 with hostwin := true, rsvs := [(7, hostAgent 0)] }

theorem test_wit_window_add :
    0 < 2 ∧
  at_window_add.shut = false ∧
    windowQueue 320 = some (0, 5) ∧
      (at_window_add.queue 0 5).state = 1#2 ∧
        (at_window_add.queue 0 5).hostwin = true ∧ List.find? (fun r => r.2 == hostAgent 0) (at_window_add.queue 0 5).rsvs = some (7, hostAgent 0) := by decide +kernel

def at_window_add_none : State :=
  wWin { q1 with hostwin := true }

theorem test_wit_window_add_none :
    0 < 2 ∧
  at_window_add_none.shut = false ∧
    windowQueue 320 = some (0, 5) ∧ List.find? (fun r => r.2 == hostAgent 0) (at_window_add_none.queue 0 5).rsvs = none := by decide +kernel

/-! RegisterWrites -/

theorem test_wit_regwrite :
    0 < 16 ∧ 6400 ≤ 6500 ∧ 1024 % 8 = 0 ∧ w0.shut = false := by decide +kernel

theorem test_wit_jobdir :
    BitVec.toNat (w0.reg 0 0) < 2 ^ 52 := by decide +kernel

theorem test_wit_qsel :
    BitVec.toNat (w0.reg 0 1024) < 2 ^ 12 := by decide +kernel

theorem test_wit_rayslab :
    0 < 100 ∧ BitVec.toNat (w0.getTile (0 * 100 + 0)).rayslab &&& ones 55 8 = BitVec.toNat (w0.getTile (0 * 100 + 0)).rayslab := by decide +kernel

theorem test_wit_plog :
    w0.shut = false ∧ bitOf (9223372036854775808#64).toNat 63 = true := by decide +kernel

theorem test_wit_plog_zero :
    w0.shut = false ∧ bitOf (0#64).toNat 63 = false := by decide +kernel

/-! ResetsAndStops -/

theorem test_wit_throttle :
    0 < 16 ∧ (w0.getDie 0).throttled = false := by decide +kernel

def at_unthrottle : State :=
  wR [] fun d => { d with throttled := true }

theorem test_wit_unthrottle :
    0 < 16 ∧ (at_unthrottle.getDie 0).throttled = true := by decide +kernel

theorem test_wit_stop :
    0 < 16 := by decide +kernel

/-! TrapsEndTheLaunch -/

theorem test_wit_fault :
    (wl lA).launch? 1 = some lA ∧ lA.st ≠ UState.done ∧ lA.st ≠ UState.ending ∧ lA.ending = Ending.ok := by decide +kernel

def at_fault_again : State :=
  { wl lF with clk := 9 }

theorem test_wit_fault_again :
    at_fault_again.launch? 1 = some lF ∧ lF.st = UState.ending ∧ lF.ending = Ending.faulted ∧ lF.causeClk ≠ at_fault_again.clk := by decide +kernel

/-! HostRequests -/

theorem test_wit_host_bar0 :
    0 < 2 ∧ 1 ≤ 8 ∧ 8 ≤ 64 ∧ (wHost 131269).mod.warmBusy = false := by decide +kernel

theorem test_wit_host_read :
    0 < 2 ∧
  1 ≤ 8 ∧
    8 ≤ 64 ∧
      (wHost 131269).shut = false ∧
        bar4Shape 72 8 = true ∧
          (wHost 131269).hostTarget 72 Need.r = Except.ok ((hT Need.r 131269).1, (hT Need.r 131269).2) ∧
            (wHost 131269).hostTurn 0 (hT Need.r 131269).2.flat 0 = Turn.go := by decide +kernel

theorem test_wit_host_read_queues :
    0 < 2 ∧
  1 ≤ 8 ∧
    8 ≤ 64 ∧ wMig.shut = false ∧ bar4Shape 72 8 = true ∧ wMig.hostTarget 72 Need.r = Except.ok (mT.1, mT.2) ∧ wMig.hostTurn 0 mT.2.flat 0 = Turn.queue := by decide +kernel

theorem test_wit_host_read_refused :
    0 < 2 ∧ 1 ≤ 8 ∧ 8 ≤ 64 ∧ (wHost 0).shut = false ∧ bar4Shape 72 8 = true ∧ (wHost 0).hostTarget 72 Need.r = Except.error 241 := by decide +kernel

theorem test_wit_host_read_busy :
    0 < 2 ∧ 1 ≤ 8 ∧ 8 ≤ 64 ∧ wBusy.mod.warmBusy = true ∧ (4 ≠ 0 ∨ 72 / 8 ≠ 96) := by decide +kernel

theorem test_wit_host_read_module_only :
    0 < 2 ∧ 1 ≤ 8 ∧ 8 ≤ 64 ∧ wOnly.mod.warmBusy = false ∧ wOnly.mod.moduleOnly = true ∧ 4 ≠ 0 := by decide +kernel

theorem test_wit_outside_far :
    2 ^ 56 ≤ 72057594037927936 := by decide +kernel

theorem test_wit_outside_leaf :
    (wHost 131781).outsideTarget (0#16) 65600 Need.r = Except.ok (xT.1, xT.2) := by decide +kernel

theorem test_wit_host_bar0_write :
    0 < 2 ∧ 1 ≤ 8 ∧ 8 ≤ 64 ∧ (wHost 131269).mod.warmBusy = false := by decide +kernel

theorem test_wit_host_write :
    0 < 2 ∧
  1 ≤ 8 ∧
    8 ≤ 64 ∧
      (wHost 131269).shut = false ∧
        bar4Shape 72 8 = true ∧
          (wHost 131269).hostTarget 72 Need.w = Except.ok ((hT Need.w 131269).1, (hT Need.w 131269).2) ∧
            (wHost 131269).hostTurn 0 (hT Need.w 131269).2.flat 1 = Turn.go ∧
              ((Claims.hostBase (wHost 131269) 0 (hT Need.w 131269).2.flat 1).fillLine ((hT Need.w 131269).2.flat / 64 * 64)).writeTs
                  ((hT Need.w 131269).2.flat / 64 * 64) 0 <
                2 ^ 32 := by decide +kernel

theorem test_wit_host_write_queues :
    0 < 2 ∧
  1 ≤ 8 ∧
    8 ≤ 64 ∧ wMig.shut = false ∧ bar4Shape 72 8 = true ∧ wMig.hostTarget 72 Need.w = Except.ok (mT.1, mT.2) ∧ wMig.hostTurn 0 mT.2.flat 1 = Turn.queue := by decide +kernel

theorem test_wit_host_write_refused :
    0 < 2 ∧ 1 ≤ 8 ∧ 8 ≤ 64 ∧ (wHost 0).shut = false ∧ bar4Shape 72 8 = true ∧ (wHost 0).hostTarget 72 Need.w = Except.error 241 := by decide +kernel

theorem test_wit_host_add :
    4 ∈ [4, 8] ∧
  0 < 2 ∧
    (wHost sA2).shut = false ∧
      bar4Shape 72 4 = true ∧
        72 % 4 = 0 ∧
          (wHost sA2).hostTarget 72 Need.rw = Except.ok ((hT Need.rw sA2).1, (hT Need.rw sA2).2) ∧
            bitOf (BitVec.toNat (hT Need.rw sA2).1) 9 = true ∧
              (wHost sA2).hostTurn 0 (hT Need.rw sA2).2.flat 2 = Turn.go ∧
                ((wHost sA2).getDie (hT Need.rw sA2).2.home).heldOut.contains ((hT Need.rw sA2).2.flat / 64 * 64) = false ∧
                  ((Claims.hostBase (wHost sA2) 0 (hT Need.rw sA2).2.flat 2).fillLine ((hT Need.rw sA2).2.flat / 64 * 64)).writeTs
                        ((hT Need.rw sA2).2.flat / 64 * 64) 0 <
                      2 ^ 32 ∧
                    ({ (((Claims.hostBase (wHost sA2) 0 (hT Need.rw sA2).2.flat 2).fillLine ((hT Need.rw sA2).2.flat / 64 * 64)).getDie (hT Need.rw sA2).2.home) with held := if (((Claims.hostBase (wHost sA2) 0 (hT Need.rw sA2).2.flat 2).fillLine ((hT Need.rw sA2).2.flat / 64 * 64)).getDie (hT Need.rw sA2).2.home).held.contains ((hT Need.rw sA2).2.flat / 64 * 64) = true then (((Claims.hostBase (wHost sA2) 0 (hT Need.rw sA2).2.flat 2).fillLine ((hT Need.rw sA2).2.flat / 64 * 64)).getDie (hT Need.rw sA2).2.home).held else (hT Need.rw sA2).2.flat / 64 * 64 :: (((Claims.hostBase (wHost sA2) 0 (hT Need.rw sA2).2.flat 2).fillLine ((hT Need.rw sA2).2.flat / 64 * 64)).getDie (hT Need.rw sA2).2.home).held } : Die).take
                        (lineKey ((hT Need.rw sA2).2.flat / 64 * 64)) =
                      some (dA sA2) := by decide +kernel

theorem test_wit_host_add_plain :
    4 ∈ [4, 8] ∧
  0 < 2 ∧
    (wHost 131269).shut = false ∧
      bar4Shape 72 4 = true ∧
        72 % 4 = 0 ∧
          (wHost 131269).hostTarget 72 Need.rw = Except.ok ((hT Need.rw 131269).1, (hT Need.rw 131269).2) ∧
            bitOf (BitVec.toNat (hT Need.rw 131269).1) 9 = false := by decide +kernel

theorem test_wit_host_swap :
    8 ∈ [4, 8] ∧
  0 < 2 ∧
    (wHost sA2).shut = false ∧
      bar4Shape 72 8 = true ∧
        72 % 8 = 0 ∧
          (wHost sA2).hostTarget 72 Need.rw = Except.ok ((hT Need.rw sA2).1, (hT Need.rw sA2).2) ∧
            bitOf (BitVec.toNat (hT Need.rw sA2).1) 9 = true ∧
              (wHost sA2).hostTurn 0 (hT Need.rw sA2).2.flat 2 = Turn.go ∧
                ((wHost sA2).getDie (hT Need.rw sA2).2.home).heldOut.contains ((hT Need.rw sA2).2.flat / 64 * 64) = false ∧
                  ((Claims.hostBase (wHost sA2) 0 (hT Need.rw sA2).2.flat 2).fillLine ((hT Need.rw sA2).2.flat / 64 * 64)).writeTs
                        ((hT Need.rw sA2).2.flat / 64 * 64) 0 <
                      2 ^ 32 ∧
                    ({ (((Claims.hostBase (wHost sA2) 0 (hT Need.rw sA2).2.flat 2).fillLine ((hT Need.rw sA2).2.flat / 64 * 64)).getDie (hT Need.rw sA2).2.home) with held := if (((Claims.hostBase (wHost sA2) 0 (hT Need.rw sA2).2.flat 2).fillLine ((hT Need.rw sA2).2.flat / 64 * 64)).getDie (hT Need.rw sA2).2.home).held.contains ((hT Need.rw sA2).2.flat / 64 * 64) = true then (((Claims.hostBase (wHost sA2) 0 (hT Need.rw sA2).2.flat 2).fillLine ((hT Need.rw sA2).2.flat / 64 * 64)).getDie (hT Need.rw sA2).2.home).held else (hT Need.rw sA2).2.flat / 64 * 64 :: (((Claims.hostBase (wHost sA2) 0 (hT Need.rw sA2).2.flat 2).fillLine ((hT Need.rw sA2).2.flat / 64 * 64)).getDie (hT Need.rw sA2).2.home).held } : Die).take
                        (lineKey ((hT Need.rw sA2).2.flat / 64 * 64)) =
                      some (dA sA2) := by decide +kernel

theorem test_wit_host_cas :
    8 ∈ [8] ∧
  0 < 2 ∧
    (wHost sA2).shut = false ∧
      bar4Shape 72 8 = true ∧
        72 % 8 = 0 ∧
          (wHost sA2).hostTarget 72 Need.rw = Except.ok ((hT Need.rw sA2).1, (hT Need.rw sA2).2) ∧
            bitOf (BitVec.toNat (hT Need.rw sA2).1) 9 = true ∧
              (wHost sA2).hostTurn 0 (hT Need.rw sA2).2.flat 2 = Turn.go ∧
                ((wHost sA2).getDie (hT Need.rw sA2).2.home).heldOut.contains ((hT Need.rw sA2).2.flat / 64 * 64) = false ∧
                  ((Claims.hostBase (wHost sA2) 0 (hT Need.rw sA2).2.flat 2).fillLine ((hT Need.rw sA2).2.flat / 64 * 64)).writeTs
                        ((hT Need.rw sA2).2.flat / 64 * 64) 0 <
                      2 ^ 32 ∧
                    ({ (((Claims.hostBase (wHost sA2) 0 (hT Need.rw sA2).2.flat 2).fillLine ((hT Need.rw sA2).2.flat / 64 * 64)).getDie (hT Need.rw sA2).2.home) with held := if (((Claims.hostBase (wHost sA2) 0 (hT Need.rw sA2).2.flat 2).fillLine ((hT Need.rw sA2).2.flat / 64 * 64)).getDie (hT Need.rw sA2).2.home).held.contains ((hT Need.rw sA2).2.flat / 64 * 64) = true then (((Claims.hostBase (wHost sA2) 0 (hT Need.rw sA2).2.flat 2).fillLine ((hT Need.rw sA2).2.flat / 64 * 64)).getDie (hT Need.rw sA2).2.home).held else (hT Need.rw sA2).2.flat / 64 * 64 :: (((Claims.hostBase (wHost sA2) 0 (hT Need.rw sA2).2.flat 2).fillLine ((hT Need.rw sA2).2.flat / 64 * 64)).getDie (hT Need.rw sA2).2.home).held } : Die).take
                        (lineKey ((hT Need.rw sA2).2.flat / 64 * 64)) =
                      some (dA sA2) := by decide +kernel

theorem test_wit_host_cas_size :
    0 < 2 ∧ (16 = 4 ∨ 16 = 16) := by decide +kernel

def at_irq_host : State :=
  wR [] fun d => { d with irq := [(hostAgent 0, 7)] }

theorem test_wit_irq_host :
    (at_irq_host.getDie 0).irq = [(hostAgent 0, 7)] ∧ hostAgent 0 ≥ 2 ^ 32 := by decide +kernel

theorem test_wit_irq :
    (wIr.getDie 0).irq = [(w0.me, 7)] ∧ wIr.irqRelease w0.me = (true, (wIr.irqRelease w0.me).2) := by decide +kernel

theorem test_wit_message_masked :
    (mMask.entry (2048 * 0 + 7)).getLsbD 96 = true := by decide +kernel

theorem test_wit_message_sent :
    (mOn.entry (2048 * 0 + 7)).getLsbD 96 = false := by decide +kernel

theorem test_wit_unmask :
    7 ∈ mPend.pending ∧ (mPend.entry 7).getLsbD 96 = false := by decide +kernel

/-! AccessesThatLeave -/

theorem test_wit_type1 :
    (wOut (m1 false (1#3) false) 0 0#16).outMsg 0 1 = some (m1 false (1#3) false) ∧
  ((wOut (m1 false (1#3) false) 0 0#16).outFirst 0 (m1 false (1#3) false) fun x => true) = true := by decide +kernel

theorem test_wit_out_done :
    (m1 false (1#3) false).kind = MsgKind.access (1#3) 0 20480 8 false 4386#512 ∧ (m1 false (1#3) false).agent = w0.me ∧ w0.me < 2 ^ 33 := by decide +kernel

theorem test_wit_timeout :
    (wOut (m1 false (1#3) false) 400000 0#16).outMsg 0 1 = some (m1 false (1#3) false) ∧
  (m1 false (1#3) false).since + 400000 ≤ (wOut (m1 false (1#3) false) 400000 0#16).eighths := by decide +kernel

theorem test_wit_peer_down :
    (wOut (m1 false (2#3) true) 0 0#16).outMsg 0 2 = some (m1 false (2#3) true) ∧
  (m1 false (2#3) true).held = false ∧
    ((wOut (m1 false (2#3) true) 0 0#16).outFirst 0 (m1 false (2#3) true) fun e => !e.held) = true ∧
      (wOut (m1 false (2#3) true) 0 0#16).peerUp (m1 false (2#3) true).peerOf = false := by decide +kernel

theorem test_wit_peer_up :
    (wOut (m1 false (2#3) true) 0 1#16).outMsg 0 2 = some (m1 false (2#3) true) ∧
  (m1 false (2#3) true).held = false ∧
    ((wOut (m1 false (2#3) true) 0 1#16).outFirst 0 (m1 false (2#3) true) fun e => !e.held) = true ∧
      (wOut (m1 false (2#3) true) 0 1#16).peerUp (m1 false (2#3) true).peerOf = true := by decide +kernel

theorem test_wit_peer_ack :
    (wOut (m1 true (2#3) true) 0 1#16).outMsg 0 2 = some (m1 true (2#3) true) ∧
  (m1 true (2#3) true).held = true ∧ ((wOut (m1 true (2#3) true) 0 1#16).outFirst 0 (m1 true (2#3) true) fun x => true) = true := by decide +kernel

theorem test_wit_peer_packet :
    w0.msgs.length ≤ 0 := by decide +kernel

theorem test_wit_peer_performs :
    (wXin 8#64).shut = false ∧
  (wXin 8#64).admits pk0.peer = true ∧
    (wXin 8#64).outsideTarget pk0.vmid (pk0.va / 64 * 64) Need.w = Except.ok (xT.1, xT.2) ∧
      (wXin 8#64).hostTurn (2 + pk0.peer % 256) xT.2.flat 1 = Turn.go ∧
        ((Claims.hostBase (wXin 8#64) (2 + pk0.peer % 256) xT.2.flat 1).fillLine (xT.2.flat / 64 * 64)).writeTs (xT.2.flat / 64 * 64) 0 < 2 ^ 32 := by decide +kernel

theorem test_wit_port :
    3 < 16 := by decide +kernel

def at_attest : State :=
  { w0 with mod := { ModuleBlk.reset with regs := [(0x820, 1)] } }

theorem test_wit_attest :
    at_attest.mreg 2080 ≠ 0#64 := by decide +kernel

/-! EngineControl -/

theorem test_wit_window_closed_read :
    0 < 2 ∧
  (wWin q1).shut = false ∧
    windowQueue 320 = some (0, 5) ∧ (((wWin q1).queue 0 5).state ≠ 1#2 ∨ ((wWin q1).queue 0 5).hostwin = false) ∧ 1 ≤ 4 ∧ 4 ≤ 64 ∧ 4 ≠ 8 := by decide +kernel

theorem test_wit_window_other_read :
    0 < 2 ∧
  at_window_add_none.shut = false ∧
    windowQueue 320 = some (0, 5) ∧
      (at_window_add_none.queue 0 5).state = 1#2 ∧ (at_window_add_none.queue 0 5).hostwin = true ∧ 1 ≤ 4 ∧ 4 ≤ 64 ∧ 4 ≠ 8 := by decide +kernel

/-! RegisterWrites -/

theorem test_wit_vault_thaw :
    w0.shut = false := by decide +kernel

/-! ResetsAndStops -/

theorem test_wit_service_only :
    3 < 16 := by decide +kernel

/-- A die none of whose slots is used gives the first it is asked for. -/
theorem takeSlot_unused (d : Die) (k : Nat) (h : ∀ j, d.slotUsed j = false) : d.takeSlot k = .slot (k % slotCount) d := by
  have e : d.freeSlot k slotCount = some (k % slotCount) := by
    show d.freeSlot k (131071 + 1) = _
    simp [Die.freeSlot, h]
  simp [Die.takeSlot, e]

/-- A launch window with room. -/
def wRoom : State := wWin { q1 with hostwin := true }

theorem test_wit_window_room : windowQueue 320 = some (0, 5) ∧ (wRoom.queue 0 5).state = 1 ∧ (wRoom.queue 0 5).hostwin = true ∧ wRoom.shut = false ∧
    (wRoom.queue 0 5).recs.length + (wRoom.queue 0 5).rsvs.length < (wRoom.queue 0 5).cap ∧
    ∃ k d, (wRoom.getDie 0).takeSlot (Config.freeWord wRoom.tick).toNat = .slot k d := by
  refine ⟨by decide +kernel, by decide +kernel, by decide +kernel, by decide +kernel, by decide +kernel, (Config.freeWord wRoom.tick).toNat % slotCount, wRoom.getDie 0, ?_⟩
  exact takeSlot_unused _ _ fun j => by simp [wRoom, wWin, wR, Die.slotUsed, State.modDie, State.getDie, w0, State.reset, q1, Queue.reset, smGet, smFind, smPut, Die.reset]

theorem test_wit_peer_refused : (wXin 4).shut = true ∨ (wXin 4).admits pk0.peer = false ∨
    ∃ c, (wXin 4).outsideTarget pk0.vmid (pk0.va / 64 * 64) .w = .error c := .inr (.inl (by decide +kernel))

end Control

namespace Stepping

def wHd (w len : Nat) : State := let s := wb id
  { s with now := .handler 48, mem := memWrite [] (cellBase 48) 8 w, cells := [(48, { s.getCell 48 with codeLen := len })] }
/-- A module about to run the step at 0x10000, the leaf of its page in the tile. -/
def wSt (w : Word) (tlb : List TlbEnt) : State :=
  { w0 with folios := [{ fol0 with steps := [w], stepsAt := 0x10000 }], tiles := [(0, { Tile.reset with owner := some 1, tlb := tlb })] }
/-- The leaf of page 1 with X. -/
def eX : TlbEnt := { e0 with pte := 0x201C5 }
/-- What the fetch of tile 0's sequencer finds. -/
def fe (s : State) : TRes := State.fetchStep { s with tile := 0 }
/-- A shape record of one layer of one feature and one output with FP16 weights and no bias, in a window of one granule. -/
def shp : Nat := 1 + 1 * 2 ^ 8 + 1 * 2 ^ 16 + 2 * 2 ^ 48 + 8 * 2 ^ 128 + 0xFFFF * 2 ^ 192
def wnet (acts : List Flit) (mk : BitVec 3) : State :=
  { (wv 2 (stw 0xE4 2 0 0 1 0 1 0 0) (fl 2 mk 0x3F800000) (fl 2 2 0)).modTile 0 fun t => { t with spr := { t.spr with carve := 0x1 } } with
    mem := memWrite (memWrite [] (windowBase 0) 64 shp) (windowBase 0 + 512) 4 0x40000000 }
/-- The same with a shape record of one layer of three features. -/
def wnet3 : State := { wnet [] 0 with mem := memWrite (memWrite [] (windowBase 0) 64 (shp + 2 * 2 ^ 8)) (windowBase 0 + 512) 4 0x40000000 }
/-- The same with two layers of one feature. -/
def wnet2 : State := { wnet [] 0 with mem := memWrite (memWrite [] (windowBase 0) 64 (shp + 1 + 2 ^ 24 + 9 * 2 ^ 144 + 0xFFFF * 2 ^ 208)) (windowBase 0 + 512) 4 0x40000000 }
/-- A bank of one feature in each lane. -/
def bank0 (n : Nat) : NetBank := ⟨n, List.replicate 16 [0x3F800000], 0xFFFF, 0, false, 2⟩

/-! StepRunsDecoded -/

theorem test_wit_step_runs :
    (wSt 1191203200951123967#64 [eX]).now = Now.seq 0 ∧
  (wSt 1191203200951123967#64 [eX]).seqReady 0 = true ∧
    ({ (wSt 1191203200951123967#64 [eX]) with tile := 0 } : State).stepWord =
        some 1191203200951123967#64 ∧
      ({ (wSt 1191203200951123967#64 [eX]) with tile := 0 } : State).fetchStep =
          TRes.ok (tgt (fe (wSt 1191203200951123967#64 [eX]))) (tres (fe (wSt 1191203200951123967#64 [eX]))) ∧
        decodeSeq 1191203200951123967#64 = Except.ok (Instr.addi (8#4) (8#4) (-1#40)) := ⟨by decide +kernel, by decide +kernel, by decide +kernel, tres_of _ _ _ (by decide +kernel), by decide +kernel⟩

theorem test_wit_step_bad :
    (wSt 18374686479671623680#64 [eX]).now = Now.seq 0 ∧
  (wSt 18374686479671623680#64 [eX]).seqReady 0 = true ∧
    ({ (wSt 18374686479671623680#64 [eX]) with tile := 0 } : State).stepWord =
        some 18374686479671623680#64 ∧
      ({ (wSt 18374686479671623680#64 [eX]) with tile := 0 } : State).fetchStep =
          TRes.ok (tgt (fe (wSt 18374686479671623680#64 [eX]))) (tres (fe (wSt 18374686479671623680#64 [eX]))) ∧
        decodeSeq 18374686479671623680#64 = Except.error DecodeErr.illegal := ⟨by decide +kernel, by decide +kernel, by decide +kernel, tres_of _ _ _ (by decide +kernel), by decide +kernel⟩

theorem test_wit_step_noexec :
    (wSt 0#64 [e0]).now = Now.seq 0 ∧
  (wSt 0#64 [e0]).seqReady 0 = true ∧
    ({ (wSt 0#64 [e0]) with tile := 0 } : State).stepWord =
        some 0#64 ∧
      ({ (wSt 0#64 [e0]) with tile := 0 } : State).fetchStep =
        TRes.fault 33 := ⟨by decide +kernel, by decide +kernel, by decide +kernel, tfault_of _ _ (by decide +kernel)⟩

theorem test_wit_step_waits :
    (wSt 0#64 []).now = Now.seq 0 ∧
  (wSt 0#64 []).seqReady 0 = true ∧
    ({ (wSt 0#64 []) with tile := 0 } : State).stepWord =
        some 0#64 ∧
      ({ (wSt 0#64 []) with tile := 0 } : State).fetchStep =
        TRes.wait (tres (fe (wSt 0#64 []))) := ⟨by decide +kernel, by decide +kernel, by decide +kernel, twait_of _ _ (by decide +kernel)⟩

def at_step_end : State :=
  { wSt 0 [eX] with folios := [{ fol0 with steps := [] }] }

theorem test_wit_step_end :
    at_step_end.now = Now.seq 0 ∧
  at_step_end.seqReady 0 = true ∧
    ({ at_step_end with tile := 0 } : State).stepWord =
      none := by decide +kernel

theorem test_wit_handler :
    (wHd 33819712 2).now = Now.handler 48 ∧
  (wHd 33819712 2).handlerReady 48 = true ∧
    ((wHd 33819712 2).getCell 48).block = some Block.blank ∧
      (wHd 33819712 2).handlerWord 48 Block.blank = some (33819712#32, 0#32) ∧
        decodeHandler 33819712#32 0#32 = Except.ok (Instr.hAdd (0#3) (Opnd.reg 8#4) (Opnd.reg 6#4) IFmt.i32x2 (0#4) IExt.wrap) ∧
          (wHd 33819712 2).literalOk 48 Block.blank (Instr.hAdd (0#3) (Opnd.reg 8#4) (Opnd.reg 6#4) IFmt.i32x2 (0#4) IExt.wrap) = true := by decide +kernel

theorem test_wit_handler_literal :
    (wHd 1615233024 1).now = Now.handler 48 ∧
  (wHd 1615233024 1).handlerReady 48 = true ∧
    ((wHd 1615233024 1).getCell 48).block = some Block.blank ∧
      (wHd 1615233024 1).handlerWord 48 Block.blank = some (1615233024#32, 0#32) ∧
        decodeHandler 1615233024#32 0#32 = Except.ok (Instr.hLit 2#3 0#4 0#32) ∧
          (wHd 1615233024 1).literalOk 48 Block.blank (Instr.hLit 2#3 0#4 0#32) = false := by decide +kernel

def arg_handler_bad : DecodeErr :=
  match decodeHandler 0xFE000000 0 with | .ok _ => .badDest | .error e => e

theorem test_wit_handler_bad :
    (wHd 4261412864 2).now = Now.handler 48 ∧
  (wHd 4261412864 2).handlerReady 48 = true ∧
    ((wHd 4261412864 2).getCell 48).block = some Block.blank ∧
      (wHd 4261412864 2).handlerWord 48 Block.blank = some (4261412864#32, 0#32) ∧ decodeHandler 4261412864#32 0#32 = Except.error arg_handler_bad := by decide +kernel

theorem test_wit_handler_end :
    (wHd 0 0).now = Now.handler 48 ∧
  (wHd 0 0).handlerReady 48 = true ∧ ((wHd 0 0).getCell 48).block = some Block.blank ∧ (wHd 0 0).handlerWord 48 Block.blank = none := by decide +kernel

def at_event : State :=
  { w0 with now := .event }

theorem test_wit_event :
    at_event.now = Now.event := by decide +kernel

def at_image : State :=
  { w0 with now := .image }

theorem test_wit_image :
    at_image.now = Now.image := by decide +kernel

def at_netx_bad : State :=
  (wv 2 (stw 0xE4 2 0 0 1 0 1 0 0) (fl 2 0 0) (fl 2 2 0))

/-! NetworkStage -/

theorem test_wit_netx_bad :
    StageDue at_netx_bad 0 2 228 ∧ (at_netx_bad.cp 0).bank = none ∧ (at_netx_bad.shape 0 (64 * (((at_netx_bad.cp 0).stageFields 2).k % 512))).ok = false := ⟨due_of _ _ _ _ (by decide +kernel), by decide +kernel⟩

theorem test_wit_netx_more :
    StageDue wnet3 0 2 228 ∧
  (wnet3.cp 0).bank = none ∧
    (wnet3.shape 0 (64 * (((wnet3.cp 0).stageFields 2).k % 512))).ok = true ∧
      (((wnet3.cp 0).netx ++ [opA wnet3 0 2]).length <
          (((wnet3.shape 0 (64 * (((wnet3.cp 0).stageFields 2).k % 512))).widths.getD 0 0 + if ((wnet3.cp 0).stageFields 2).fmt = 2 then 1 else 2) -
              1) /
            if ((wnet3.cp 0).stageFields 2).fmt = 2 then 1 else 2) ∧
        (opA wnet3 0 2).marked = false := ⟨due_of _ _ _ _ (by decide +kernel), by decide +kernel⟩

theorem test_wit_netx_full :
    StageDue (wnet [] 2#3) 0 2 228 ∧
  ((wnet [] 2#3).cp 0).bank = none ∧
    ((wnet [] 2#3).shape 0 (64 * ((((wnet [] 2#3).cp 0).stageFields 2).k % 512))).ok = true ∧
      ((((((wnet [] 2#3).shape 0 (64 * ((((wnet [] 2#3).cp 0).stageFields 2).k % 512))).widths.getD 0 0 +
                if (((wnet [] 2#3).cp 0).stageFields 2).fmt = 2 then 1 else 2) -
              1) /
            if (((wnet [] 2#3).cp 0).stageFields 2).fmt = 2 then 1 else 2) ≤
          (((wnet [] 2#3).cp 0).netx ++ [opA (wnet [] 2#3) 0 2]).length ∨
        (opA (wnet [] 2#3) 0 2).marked = true) := ⟨due_of _ _ _ _ (by decide +kernel), by decide +kernel⟩

def at_netx_bankbad : State :=
  (wv 2 (stw 0xE4 2 0 0 1 0 1 0 0) (fl 2 0 0) (fl 2 2 0)).modCp 0 fun p => { p with bank := some (bank0 0) }

theorem test_wit_netx_bankbad :
    StageReady at_netx_bankbad 0 2 228 ∧
  (at_netx_bankbad.cp 0).bank = some (bank0 0) ∧ (at_netx_bankbad.shape 0 (64 * (((at_netx_bankbad.cp 0).stageFields 2).k % 512))).ok = false := ⟨by unfold StageReady; decide +kernel, by decide +kernel⟩

def at_netx_layer : State :=
  wnet2.modCp 0 fun p => { p with bank := some (bank0 0) }

theorem test_wit_netx_layer :
    StageReady at_netx_layer 0 2 228 ∧
  (at_netx_layer.cp 0).bank = some (bank0 0) ∧
    (at_netx_layer.shape 0 (64 * (((at_netx_layer.cp 0).stageFields 2).k % 512))).ok = true ∧
      (bank0 0).layer + 1 < (at_netx_layer.shape 0 (64 * (((at_netx_layer.cp 0).stageFields 2).k % 512))).layers := ⟨by unfold StageReady; decide +kernel, by decide +kernel⟩

def at_netx_out : State :=
  wnet2.modCp 0 fun p => { p with bank := some (bank0 1) }

theorem test_wit_netx_out :
    StageReady at_netx_out 0 2 228 ∧
  (at_netx_out.cp 0).bank = some (bank0 1) ∧
    (at_netx_out.shape 0 (64 * (((at_netx_out.cp 0).stageFields 2).k % 512))).ok = true ∧
      (at_netx_out.shape 0 (64 * (((at_netx_out.cp 0).stageFields 2).k % 512))).layers ≤ (bank0 1).layer + 1 := ⟨by unfold StageReady; decide +kernel, by decide +kernel⟩

theorem test_wit_netx_lane :
    (bank0 0).lanes[3]? = some [1065353216#32] ∧ 3 < 16 := by decide +kernel

theorem test_wit_netx_sum :
    0 < (wnet2.shape 0 0).widths.getD (0 + 1) 0 := by decide +kernel

end Stepping

namespace Matrix

def A0 : Nat := 3325764857622527775126294255228814950936276476596577216155224447627236704093591745448153753968034060431968072541642300101009519411251402932891606897917951
def B0 : Nat := 13407807926820848553255651295662740955542717385736877350504481733235843308057727210879940574469219023348173018146913114544298224868985045652517847155343360

def at_mmaq : State :=
  { ((wv 2 (stw 0xE2 7 0 0 1 0 1 0 1) (fl 7 0 A0) (fl 7 2 B0)).modCp 0 fun p => { p with netx := [fl 2 4 B0] }) with mem := memWrite [] (windowBase 0) 1024 (A0 + B0 * 2 ^ 512 + A0 * 2 ^ 1024 + B0 * 2 ^ 4096 + A0 * 2 ^ 4608 + B0 * 2 ^ 7168) }

/-! MatrixStages -/

theorem test_wit_mmaq :
    StageReady at_mmaq 0 2 226 ∧
  at_mmaq.head 0 2 false = Head.flit (fl 7 (0#3) A0) ∧
    (fl 7 (0#3) A0).beat = false ∧
      (at_mmaq.cp 0).needsConv 2 false (fl 7 (0#3) A0) = false ∧ (fl 7 (0#3) A0).isSide = false ∧ (at_mmaq.cp 0).netx = [fl 2 (4#3) B0] := ⟨by unfold StageReady; decide +kernel, by decide +kernel⟩

end Matrix

namespace Migrations

def memT (leaf : Nat) : List Host.Cell :=
  [(0x100000, 0x110001), (0x110000, 0x120001), (0x120000, 0x130001), (0x130000, 0x140001), (0x140008, leaf)].foldl (fun m e => memWrite m (gddrBase + e.1) 8 e.2) []
def wmig (leaf : Nat) (dst : Word) : State :=
  { (wt hit0).modDie 0 fun d => { d with regs := [(0x000, 0x100000), (0x200, 0x10000), (0x208, dst), (0x210, 0x8000000000000000)] } with mem := memT leaf }
def farLeaf : Word := 0x1000008000200C5
def hostLeaf : Word := 0x200CD

/-! MigrationMovesPages -/

theorem test_wit_mig_type :
    0 < 16 ∧
  bitOf (BitVec.toNat ((wmig (BitVec.toNat hostLeaf) 327680#64).reg 0 528)) 63 = true ∧
    ((wmig (BitVec.toNat hostLeaf) 327680#64).getDie 0).migration = none ∧
      0#16 = BitVec.ofNat 16 (BitVec.toNat ((wmig (BitVec.toNat hostLeaf) 327680#64).reg 0 528)) ∧
        1 = bitsOf (BitVec.toNat ((wmig (BitVec.toNat hostLeaf) 327680#64).reg 0 512)) 55 16 ∧
          walkPage (wmig (BitVec.toNat hostLeaf) 327680#64).mem (BitVec.toNat ((wmig (BitVec.toNat hostLeaf) 327680#64).reg 0 0)) (0#16) 1 =
              XRes.leaf hostLeaf 0#2 ∧
            (leafTarget hostLeaf (0#2) (1 * 2 ^ 16 / pageBytes 0#2 * pageBytes 0#2)).ty ≠ 0#3 := by decide +kernel

theorem test_wit_mig_far :
    0 < 16 ∧
  bitOf (BitVec.toNat ((wmig (BitVec.toNat farLeaf) 327680#64).reg 0 528)) 63 = true ∧
    ((wmig (BitVec.toNat farLeaf) 327680#64).getDie 0).migration = none ∧
      0#16 = BitVec.ofNat 16 (BitVec.toNat ((wmig (BitVec.toNat farLeaf) 327680#64).reg 0 528)) ∧
        1 = bitsOf (BitVec.toNat ((wmig (BitVec.toNat farLeaf) 327680#64).reg 0 512)) 55 16 ∧
          walkPage (wmig (BitVec.toNat farLeaf) 327680#64).mem (BitVec.toNat ((wmig (BitVec.toNat farLeaf) 327680#64).reg 0 0)) (0#16) 1 =
              XRes.leaf farLeaf 0#2 ∧
            (leafTarget farLeaf (0#2) (1 * 2 ^ 16 / pageBytes 0#2 * pageBytes 0#2)).ty = 0#3 ∧
              0#2 ≠ 2#2 ∧
                bitsOf (BitVec.toNat ((wmig (BitVec.toNat farLeaf) 327680#64).reg 0 520)) 51 16 * 2 ^ 16 % pageBytes 0#2 = 0 ∧
                  bitsOf (BitVec.toNat ((wmig (BitVec.toNat farLeaf) 327680#64).reg 0 520)) 51 16 * 2 ^ 16 < 2 ^ 39 ∧
                    (leafTarget farLeaf (0#2) (1 * 2 ^ 16 / pageBytes 0#2 * pageBytes 0#2)).home ≠ 0 := by decide +kernel

end Migrations

/-! The encodings of R27 to R38, every word laid out from the spec's tables, and a few words that R50 turns away. -/

/-- A step word that decodes to an instruction and is its encoding. -/
def seqPair (w : BitVec 64) (i : Instr) : Bool := decide (Decoded.instr? (decodeSeq w) = some i) && encodeSeq i == some w
/-- A handler word and its literal that decode to an instruction and are its encoding. -/
def hanPair (w l : BitVec 32) (i : Instr) : Bool := decide (Decoded.instr? (decodeHandler w l) = some i) && encodeHandler i == some (w, l)

theorem test_words_arith :
    seqPair 0x0056700000000000 (.add 5 6 7) = true ∧
    seqPair 0x0156700000000000 (.sub 5 6 7) = true ∧
    seqPair 0x0256700000000000 (.mul 5 6 7) = true ∧
    seqPair 0x0356700000000000 (.and 5 6 7) = true ∧
    seqPair 0x0456700000000000 (.or 5 6 7) = true ∧
    seqPair 0x0556700000000000 (.xor 5 6 7) = true ∧
    seqPair 0x0656700000000000 (.shl 5 6 7) = true ∧
    seqPair 0x0756700000000000 (.shr 5 6 7) = true ∧
    seqPair 0x0856700000000000 (.sra 5 6 7) = true ∧
    seqPair 0x0956700000000000 (.min 5 6 7) = true ∧
    seqPair 0x0A56700000000000 (.max 5 6 7) = true ∧
    seqPair 0x105600FFFFFFFFFE (.addi 5 6 (-2)) = true := by decide +kernel

theorem test_words_arith_2 :
    seqPair 0x145600FFFFFFFFFE (.andi 5 6 (-2)) = true ∧
    seqPair 0x155600FFFFFFFFFE (.ori 5 6 (-2)) = true ∧
    seqPair 0x165600FFFFFFFFFE (.xori 5 6 (-2)) = true ∧
    seqPair 0x175600000000003F (.shli 5 6 (63)) = true ∧
    seqPair 0x185600000000003F (.shri 5 6 (63)) = true ∧
    seqPair 0x195600000000003F (.srai 5 6 (63)) = true ∧
    seqPair 0x1E5000FFFFFFFFFE (.li 5 (-2)) = true ∧
    seqPair 0x1F56000000ABCDEF (.lui 5 6 0xABCDEF) = true ∧
    seqPair 0x2056700000000000 (.ceq 5 6 7) = true ∧
    seqPair 0x2156700000000000 (.cne 5 6 7) = true ∧
    seqPair 0x2256700000000000 (.clt 5 6 7) = true ∧
    seqPair 0x2356700000000000 (.cltu 5 6 7) = true := by decide +kernel

theorem test_words_arith_3 :
    seqPair 0x285600FFFFFFFFFE (.ceqi 5 6 (-2)) = true ∧
    seqPair 0x295600FFFFFFFFFE (.clti 5 6 (-2)) = true ∧
    seqPair 0x2A5600FFFFFFFFFE (.cltui 5 6 (-2)) = true := by decide +kernel

theorem test_words_memory :
    seqPair 0x305600FFFFFFFFFE (.ld8 5 6 (-2)) = true ∧
    seqPair 0x315600FFFFFFFFFE (.ld16 5 6 (-2)) = true ∧
    seqPair 0x325600FFFFFFFFFE (.ld32 5 6 (-2)) = true ∧
    seqPair 0x335600FFFFFFFFFE (.ld64 5 6 (-2)) = true ∧
    seqPair 0x345600FFFFFFFFFE (.lds8 5 6 (-2)) = true ∧
    seqPair 0x355600FFFFFFFFFE (.lds16 5 6 (-2)) = true ∧
    seqPair 0x365600FFFFFFFFFE (.lds32 5 6 (-2)) = true ∧
    seqPair 0x385600FFFFFFFFFE (.st8 5 6 (-2)) = true ∧
    seqPair 0x395600FFFFFFFFFE (.st16 5 6 (-2)) = true ∧
    seqPair 0x3A5600FFFFFFFFFE (.st32 5 6 (-2)) = true ∧
    seqPair 0x3B5600FFFFFFFFFE (.st64 5 6 (-2)) = true ∧
    seqPair 0x4036000000000000 (.nset 3 6) = true := by decide +kernel

theorem test_words_memory_2 :
    seqPair 0x4153000000000000 (.nget 5 3) = true ∧
    seqPair 0x486500FFFFFFFFFE (.patLd 6 5 (-2)) = true ∧
    seqPair 0x496500FFFFFFFFFE (.patSt 6 5 (-2)) = true ∧
    seqPair 0x4A65000000000000 (.patBase 6 5) = true := by decide +kernel

theorem test_words_branches :
    seqPair 0x500340FFFFFFFFFD (.beq 3 4 (-3)) = true ∧
    seqPair 0x510340FFFFFFFFFD (.bne 3 4 (-3)) = true ∧
    seqPair 0x520340FFFFFFFFFD (.blt 3 4 (-3)) = true ∧
    seqPair 0x530340FFFFFFFFFD (.bge 3 4 (-3)) = true ∧
    seqPair 0x540340FFFFFFFFFD (.bltu 3 4 (-3)) = true ∧
    seqPair 0x550340FFFFFFFFFD (.bgeu 3 4 (-3)) = true ∧
    seqPair 0x56F000FFFFFFFFFD (.jal 15 (-3)) = true ∧
    seqPair 0x57F600FFFFFFFFFD (.jalr 15 6 (-3)) = true ∧
    seqPair 0x510340FFFFFFFFFD (.bne 3 4 (-3)) = true := by decide +kernel

theorem test_words_config :
    seqPair 0x6000000000000009 (.cfgLoad 9) = true ∧
    seqPair 0x6100000000000009 (.cfgRun 9) = true ∧
    seqPair 0x6200000000000000 (.cfgWait) = true ∧
    seqPair 0x6306000000000009 (.cfgCall 9 6) = true ∧
    seqPair 0x6406000000000000 (.cfgRet 6) = true ∧
    seqPair 0x6500020000000009 (.cfgPreload 9 2) = true ∧
    seqPair 0x6600020000000000 (.pswap 2) = true ∧
    seqPair 0x6750000000000000 (.cfgDrain 5) = true ∧
    seqPair 0x6800000000000000 (.cfgStop) = true := by decide +kernel

theorem test_words_streams :
    seqPair 0x7006028000000269 (.strmIn 2 6 9 41 2) = true ∧
    seqPair 0x7106028000000269 (.strmOut 2 6 9 41 2) = true ∧
    seqPair 0x7206728000000269 (.strmGath 2 6 7 9 41 2) = true ∧
    seqPair 0x7306728000000269 (.strmScat 2 6 7 9 41 2) = true ∧
    seqPair 0x7456724000000000 (.strmFill 2 5 6 7 1) = true ∧
    seqPair 0x7556724000000000 (.strmCopy 2 5 6 7 1) = true ∧
    seqPair 0x7656720000000001 (.strmKvc 2 5 6 7 true) = true ∧
    seqPair 0x775672000000BEEF (.strmXch 2 5 6 7 0xBEEF) = true := by decide +kernel

theorem test_words_fences :
    seqPair 0x7806700000000000 (.sbar 6 7) = true ∧
    seqPair 0x7900008000000001 (.qfence 0x8000000001) = true ∧
    seqPair 0x7906010000000000 (.qfenceR 6) = true ∧
    seqPair 0x7A00000000000000 (.fenceSl) = true ∧
    seqPair 0x7B00020000000000 (.fenceRel 2) = true ∧
    seqPair 0x7C00020000000000 (.fenceAcq 2) = true ∧
    seqPair 0x7D50000000000000 (.lclkRd 5) = true ∧
    seqPair 0x7E06000000000000 (.lclkAdv 6) = true ∧
    seqPair 0x8050000000000002 (.depNew 5 2) = true ∧
    seqPair 0x8106700000000000 (.depEdge 6 7) = true ∧
    seqPair 0x8206000000000000 (.depArm 6) = true ∧
    seqPair 0x8306000000000000 (.depWait 6) = true := by decide +kernel

theorem test_words_engines :
    seqPair 0x8456000000000000 (.qRsv 5 6) = true ∧
    seqPair 0x8506020000000000 (.qAdd 6 2) = true ∧
    seqPair 0x8656700000000000 (.qTake 5 6 7) = true ∧
    seqPair 0x8806030000000000 (.phReg 6 3) = true ∧
    seqPair 0x8906000000000000 (.phDrop 6) = true ∧
    seqPair 0x8A06030000000000 (.phSig 6 3) = true ∧
    seqPair 0x8B56700000000000 (.phWait 5 6 7) = true ∧
    seqPair 0x8C56730000000000 (.phSw 5 6 7 3) = true ∧
    seqPair 0x8D06700000000000 (.phErr 6 7) = true ∧
    seqPair 0x8E06700000000000 (.phRead 6 7) = true ∧
    seqPair 0x905678000000020B (.atom 0x0B 5 6 7 8 2) = true ∧
    seqPair 0x9056700000000381 (.atom 0x81 5 6 7 0 3) = true := by decide +kernel

theorem test_words_system :
    seqPair 0xF000000000000000 (.nop) = true ∧
    seqPair 0xF100000000000000 (.yield) = true ∧
    seqPair 0xF2000000000000AB (.trap 0xAB) = true ∧
    seqPair 0xF30000000000000F (.evt 15) = true ∧
    seqPair 0xF45000000000000A (.srr 5 0xA) = true ∧
    seqPair 0xF506000000000009 (.srw 6 9) = true := by decide +kernel

theorem test_handler_words_int :
    hanPair 0x02A46666 0x0 (.hAdd 5 (.reg 8) (.chan true 3) .i32x2 9 .satu) = true ∧
    hanPair 0x04A46666 0x0 (.hSub 5 (.reg 8) (.chan true 3) .i32x2 9 .satu) = true ∧
    hanPair 0x06A46666 0x0 (.hMul 5 (.reg 8) (.chan true 3) .i32x2 9 .satu) = true ∧
    hanPair 0x08A46624 0x0 (.hMulh 5 (.reg 8) (.chan true 3) .i64 9) = true ∧
    hanPair 0x0AA46624 0x0 (.hMulhu 5 (.reg 8) (.chan true 3) .i64 9) = true ∧
    hanPair 0x0CA46624 0x0 (.hMin 5 (.reg 8) (.chan true 3) .i64 9) = true ∧
    hanPair 0x0EA46624 0x0 (.hMax 5 (.reg 8) (.chan true 3) .i64 9) = true ∧
    hanPair 0x10A46624 0x0 (.hMinu 5 (.reg 8) (.chan true 3) .i64 9) = true ∧
    hanPair 0x12A46624 0x0 (.hMaxu 5 (.reg 8) (.chan true 3) .i64 9) = true ∧
    hanPair 0x14B61A65 0x0 (.hAbs 5 (.chan false 12) .i32x2 9 .sat) = true ∧
    hanPair 0x16B61A65 0x0 (.hNeg 5 (.chan false 12) .i32x2 9 .sat) = true ∧
    hanPair 0x18B61A24 0x0 (.hPopc 5 (.chan false 12) .i64 9) = true := by decide +kernel

theorem test_handler_words_int_2 :
    hanPair 0x1AB61A24 0x0 (.hClz 5 (.chan false 12) .i64 9) = true ∧
    hanPair 0x1CB61A24 0x0 (.hCtz 5 (.chan false 12) .i64 9) = true ∧
    hanPair 0x20A46664 0x0 (.hAnd 5 (.reg 8) (.chan true 3) .i32x2 9) = true ∧
    hanPair 0x22A46664 0x0 (.hOr 5 (.reg 8) (.chan true 3) .i32x2 9) = true ∧
    hanPair 0x24A46664 0x0 (.hXor 5 (.reg 8) (.chan true 3) .i32x2 9) = true ∧
    hanPair 0x26A46664 0x0 (.hAndn 5 (.reg 8) (.chan true 3) .i32x2 9) = true ∧
    hanPair 0x28A46664 0x0 (.hShl 5 (.reg 8) (.chan true 3) .i32x2 9) = true ∧
    hanPair 0x2AA46664 0x0 (.hShr 5 (.reg 8) (.chan true 3) .i32x2 9) = true ∧
    hanPair 0x2CA46664 0x0 (.hSra 5 (.reg 8) (.chan true 3) .i32x2 9) = true ∧
    hanPair 0x30A46624 0x0 (.hCeq 5 (.reg 8) (.chan true 3) .i64 9) = true ∧
    hanPair 0x32A46624 0x0 (.hCne 5 (.reg 8) (.chan true 3) .i64 9) = true ∧
    hanPair 0x34A46624 0x0 (.hClt 5 (.reg 8) (.chan true 3) .i64 9) = true := by decide +kernel

theorem test_handler_words_int_3 :
    hanPair 0x36A46624 0x0 (.hCltu 5 (.reg 8) (.chan true 3) .i64 9) = true ∧
    hanPair 0x38A46624 0x0 (.hCle 5 (.reg 8) (.chan true 3) .i64 9) = true ∧
    hanPair 0x3AA46624 0x0 (.hCleu 5 (.reg 8) (.chan true 3) .i64 9) = true ∧
    hanPair 0x02446644 0x0 (.hAdd 2 (.reg 8) (.chan true 3) .i32x2 1 .wrap) = true := by decide +kernel

theorem test_handler_words_imm :
    hanPair 0x40A47FE9 0x0 (.hAddi 5 (.reg 8) (-2) 9) = true ∧
    hanPair 0x42A47FE9 0x0 (.hAndi 5 (.reg 8) (-2) 9) = true ∧
    hanPair 0x44A47FE9 0x0 (.hOri 5 (.reg 8) (-2) 9) = true ∧
    hanPair 0x46A47FE9 0x0 (.hXori 5 (.reg 8) (-2) 9) = true ∧
    hanPair 0x4EA47FE9 0x0 (.hCeqi 5 (.reg 8) (-2) 9) = true ∧
    hanPair 0x50A47FE9 0x0 (.hClti 5 (.reg 8) (-2) 9) = true ∧
    hanPair 0x52A47FE9 0x0 (.hCltui 5 (.reg 8) (-2) 9) = true ∧
    hanPair 0x48A403F9 0x0 (.hShli 5 (.reg 8) 63 9) = true ∧
    hanPair 0x4AA403F9 0x0 (.hShri 5 (.reg 8) 63 9) = true ∧
    hanPair 0x4CA403F9 0x0 (.hSrai 5 (.reg 8) 63 9) = true ∧
    hanPair 0x54A443E9 0x0 (.hBfx 5 (.reg 8) 33 30 9) = true ∧
    hanPair 0x56A443E9 0x0 (.hBfxu 5 (.reg 8) 33 30 9) = true := by decide +kernel

theorem test_handler_words_imm_2 :
    hanPair 0x58A443E9 0x0 (.hBfi 5 (.reg 8) 33 30 9) = true ∧
    hanPair 0x60A68009 0xDEADBEEF (.hLit 5 9 0xDEADBEEF) = true ∧
    hanPair 0x62A68009 0xDEADBEEF (.hLith 5 9 0xDEADBEEF) = true ∧
    hanPair 0x64A40009 0xDEADBEEF (.hAddl 5 (.reg 8) 9 0xDEADBEEF) = true ∧
    hanPair 0x66A46609 0x7F20B (.hSync 5 (.reg 8) (.chan true 3) 9 63 4 2 0x0B) = true := by decide +kernel

theorem test_handler_words_float :
    hanPair 0x70A466E7 0x0 (.hFadd 5 (.reg 8) (.chan true 3) .f16x4 9 .rup) = true ∧
    hanPair 0x72A466E7 0x0 (.hFsub 5 (.reg 8) (.chan true 3) .f16x4 9 .rup) = true ∧
    hanPair 0x74A466E7 0x0 (.hFmul 5 (.reg 8) (.chan true 3) .f16x4 9 .rup) = true ∧
    hanPair 0x76A466E7 0x0 (.hFma 5 (.reg 8) (.chan true 3) .f16x4 9 .rup) = true ∧
    hanPair 0x78A466E7 0x0 (.hFmin 5 (.reg 8) (.chan true 3) .f16x4 9 .rup) = true ∧
    hanPair 0x7AA466E7 0x0 (.hFmax 5 (.reg 8) (.chan true 3) .f16x4 9 .rup) = true ∧
    hanPair 0x7CB61AA4 0x0 (.hFabs 5 (.chan false 12) .f32x2 9) = true ∧
    hanPair 0x7EB61AA4 0x0 (.hFneg 5 (.chan false 12) .f32x2 9) = true ∧
    hanPair 0x80A46724 0x0 (.hFceq 5 (.reg 8) (.chan true 3) .b16x4 9) = true ∧
    hanPair 0x82A46724 0x0 (.hFclt 5 (.reg 8) (.chan true 3) .b16x4 9) = true ∧
    hanPair 0x84A46724 0x0 (.hFcle 5 (.reg 8) (.chan true 3) .b16x4 9) = true ∧
    hanPair 0x86B605A5 0x0 (.hFcvt 5 (.chan false 12) .f32x2 .e5x8 9 .rtz) = true := by decide +kernel

theorem test_handler_words_float_2 :
    hanPair 0x88B61AA6 0x0 (.hFrcp 5 (.chan false 12) .f32x2 9 .rdn) = true ∧
    hanPair 0x8AB61AA6 0x0 (.hFsqrt 5 (.chan false 12) .f32x2 9 .rdn) = true ∧
    hanPair 0x8CB61AA6 0x0 (.hFexp2 5 (.chan false 12) .f32x2 9 .rdn) = true ∧
    hanPair 0x8EB61B65 0x0 (.hIcvtf 5 (.chan false 12) .e4x8 9 .rtz) = true ∧
    hanPair 0x90B61B65 0x0 (.hFcvti 5 (.chan false 12) .e4x8 9 .rtz) = true ∧
    hanPair 0x92A467A6 0x0 (.hFdot 5 (.reg 8) (.chan true 3) .e5x8 9 .rdn) = true := by decide +kernel

theorem test_handler_words_mem :
    hanPair 0xA0A47FD9 0x0 (.hLdl8 5 (.reg 8) (-3) 9) = true ∧
    hanPair 0xA2A47FD9 0x0 (.hLdl16 5 (.reg 8) (-3) 9) = true ∧
    hanPair 0xA4A47FD9 0x0 (.hLdl32 5 (.reg 8) (-3) 9) = true ∧
    hanPair 0xA6A47FD9 0x0 (.hLdl64 5 (.reg 8) (-3) 9) = true ∧
    hanPair 0xA8A47FD9 0x0 (.hStl8 5 (.reg 8) (-3) 9) = true ∧
    hanPair 0xAAA47FD9 0x0 (.hStl16 5 (.reg 8) (-3) 9) = true ∧
    hanPair 0xACA47FD9 0x0 (.hStl32 5 (.reg 8) (-3) 9) = true ∧
    hanPair 0xAEA47FD9 0x0 (.hStl64 5 (.reg 8) (-3) 9) = true ∧
    hanPair 0xB0A47FD9 0x0 (.hLdg8 5 (.reg 8) (-3) 9) = true ∧
    hanPair 0xB2A47FD9 0x0 (.hLdg16 5 (.reg 8) (-3) 9) = true ∧
    hanPair 0xB4A47FD9 0x0 (.hLdg32 5 (.reg 8) (-3) 9) = true ∧
    hanPair 0xB6A47FD9 0x0 (.hLdg64 5 (.reg 8) (-3) 9) = true := by decide +kernel

theorem test_handler_words_mem_2 :
    hanPair 0xB8A47FD9 0x0 (.hStg8 5 (.reg 8) (-3) 9) = true ∧
    hanPair 0xBAA47FD9 0x0 (.hStg16 5 (.reg 8) (-3) 9) = true ∧
    hanPair 0xBCA47FD9 0x0 (.hStg32 5 (.reg 8) (-3) 9) = true ∧
    hanPair 0xBEA47FD9 0x0 (.hStg64 5 (.reg 8) (-3) 9) = true := by decide +kernel

theorem test_handler_words_token :
    hanPair 0xD19874E9 0x0 (.hEmit (.chan true 3) 3 41 6 9) = true ∧
    hanPair 0xD39874D9 0x0 (.hEmitp (.chan true 3) 3 41 5 9) = true ∧
    hanPair 0xD4046624 0x0 (.hSend (.reg 8) (.chan true 3) 9) = true ∧
    hanPair 0xD6280009 0x0 (.hExitDone 5 9) = true ∧
    hanPair 0xD6400009 0x0 (.hExitDefer 9) = true ∧
    hanPair 0xD6800009 0x0 (.hExitFail 9) = true ∧
    hanPair 0xD8A68009 0x0 (.hTagLvl 5 9) = true ∧
    hanPair 0xD8068019 0x0 (.hTagFree 9) = true ∧
    hanPair 0xD8068029 0x0 (.hTagFreectx 9) = true ∧
    hanPair 0xD8A40039 0x0 (.hTagPool 5 (.reg 8) 9) = true ∧
    hanPair 0xD8A68049 0x0 (.hTagParent 5 9) = true ∧
    hanPair 0xE0068009 0x0 (.hFenceSl 9) = true := by decide +kernel

theorem test_handler_words_token_2 :
    hanPair 0xE0068099 0x0 (.hFenceRel 2 9) = true ∧
    hanPair 0xE00680E9 0x0 (.hFenceAcq 3 9) = true ∧
    hanPair 0xE2A68009 0x0 (.hLclk 5 9) = true ∧
    hanPair 0xE4040009 0x0 (.hLclkadv (.reg 8) 9) = true ∧
    hanPair 0xD0007F80 0x0 (.hEmit (.reg 0) 3 63 0 0) = true ∧
    hanPair 0xD6000000 0x0 (.hExitDone 0 0) = true := by decide +kernel

theorem test_handler_words_render :
    hanPair 0xF0A46624 0x0 (.hBoxt8Any 5 (.reg 8) (.chan true 3) 9) = true ∧
    hanPair 0xF0A46625 0x0 (.hBoxt8Closest 5 (.reg 8) (.chan true 3) 9) = true ∧
    hanPair 0xF2A46624 0x0 (.hTritAny 5 (.reg 8) (.chan true 3) 9) = true ∧
    hanPair 0xF2A46625 0x0 (.hTritClosest 5 (.reg 8) (.chan true 3) 9) = true ∧
    hanPair 0xF2A46626 0x0 (.hTritBary 5 (.reg 8) (.chan true 3) 9) = true ∧
    hanPair 0xF4A46624 0x0 (.hDicer 5 (.reg 8) (.chan true 3) 9) = true ∧
    hanPair 0xF6A46624 0x0 (.hSamptTu 5 (.reg 8) (.chan true 3) 9) = true ∧
    hanPair 0xF6A46625 0x0 (.hSamptV 5 (.reg 8) (.chan true 3) 9) = true ∧
    hanPair 0xF8A46624 0x0 (.hMptest 5 (.reg 8) (.chan true 3) 9) = true ∧
    hanPair 0xFAA46624 0x0 (.hSeqw 5 (.reg 8) (.chan true 3) 9) = true := by decide +kernel

/-- Reserved fields: an unused field holds a bit (R27); an immediate on an SR word (R27); m8 (R29); n4 (R29); a shift of 64 (R30); a link on BEQ (R28); plane 3 (R31); delivery 3 (R31); a pattern above m7 (R29); port bits above 1 (R28). -/
theorem test_step_reserved_1 :
    decodeSeq 0x0056710000000000 = .error .reservedField ∧
    decodeSeq 0x0056700000000001 = .error .reservedField ∧
    decodeSeq 0x4885000000000000 = .error .reservedField ∧
    decodeSeq 0x4046000000000000 = .error .reservedField ∧
    decodeSeq 0x1756000000000040 = .error .reservedField ∧
    decodeSeq 0x5013400000000000 = .error .reservedField ∧
    decodeSeq 0x6500030000000000 = .error .reservedField ∧
    decodeSeq 0x700000C000000000 = .error .reservedField ∧
    decodeSeq 0x7008000000000000 = .error .reservedField ∧
    decodeSeq 0x7400040000000000 = .error .reservedField := by decide +kernel

/-- Reserved fields: kind 3 (R31); mode 0 (R31); an ATOM code R47 does not list (R31); a swap register without CAS (R31); SRR 0x00B (R32); SRW of SPC (R32); SRW of WHW (R32); SRW of REBASES (R32); an event line above 15 (R31); a QFENCE form above 1 (R31). -/
theorem test_step_reserved_2 :
    decodeSeq 0x8000000000000003 = .error .reservedField ∧
    decodeSeq 0x8800000000000000 = .error .reservedField ∧
    decodeSeq 0x9000000000000000 = .error .reservedField ∧
    decodeSeq 0x9000010000000001 = .error .reservedField ∧
    decodeSeq 0xF40000000000000B = .error .reservedField ∧
    decodeSeq 0xF500000000000000 = .error .reservedField ∧
    decodeSeq 0xF500000000000003 = .error .reservedField ∧
    decodeSeq 0xF50000000000000A = .error .reservedField ∧
    decodeSeq 0xF300000000000010 = .error .reservedField ∧
    decodeSeq 0x7900020000000000 = .error .reservedField := by decide +kernel

/-- Operation codes that R30 does not list. -/
theorem test_step_illegal :
    [0x0B, 0x11, 0x1A, 0x24, 0x2B, 0x37, 0x3C, 0x42, 0x4B, 0x58, 0x69, 0x7F, 0x87, 0x8F, 0x91, 0xEF, 0xF6, 0xFF].all (fun (o : BitVec 8) => decodeSeq (seqWord o 0 0 0 0 0) == .error .illegal) = true := by decide +kernel

/-- Turned away: guard 8 (R34); ext 11 on an integer op (R36); an ext on MULH (R36); destination 8 (R34); a float format on ADD (R36); an integer format on FADD (R36); b not z on NEG (R38); the peek bit on a register (R33); a shift with bits above 5 (R38); FENCE variant 11 (R38). -/
theorem test_handler_refused_1 :
    decodeHandler 0x02A46660 0x0 = .error .reservedField ∧
    decodeHandler 0x02A46643 0x0 = .error .reservedField ∧
    decodeHandler 0x08A46641 0x0 = .error .reservedField ∧
    decodeHandler 0x03046640 0x0 = .error .badDest ∧
    decodeHandler 0x02A46680 0x0 = .error .illegal ∧
    decodeHandler 0x70A46600 0x0 = .error .illegal ∧
    decodeHandler 0x16A46640 0x0 = .error .reservedField ∧
    decodeHandler 0x02AC6640 0x0 = .error .reservedField ∧
    decodeHandler 0x48A40400 0x0 = .error .reservedField ∧
    decodeHandler 0xE0068030 0x0 = .error .reservedField := by decide +kernel

/-- Turned away: tagop 7 (R38); EXIT kind 3 (R38); keep with DEFER (R38); SEND with a format (R36); LIT with an immediate (R38); a literal of SYNC with bits above 18 (R38); a RED with a reply (R38); FCVT from I64 (R36); op 0x00 (R37); op 0x7E (R37). -/
theorem test_handler_refused_2 :
    decodeHandler 0xD0007FF0 0x0 = .error .reservedField ∧
    decodeHandler 0xD6C00000 0x0 = .error .reservedField ∧
    decodeHandler 0xD6480000 0x0 = .error .reservedField ∧
    decodeHandler 0xD4046640 0x0 = .error .illegal ∧
    decodeHandler 0x60A68010 0x0 = .error .reservedField ∧
    decodeHandler 0x66046600 0xFE001 = .error .reservedField ∧
    decodeHandler 0x66046600 0x6081 = .error .reservedField ∧
    decodeHandler 0x86A40400 0x0 = .error .illegal ∧
    decodeHandler 0x00000000 0x0 = .error .illegal ∧
    decodeHandler 0xFC000000 0x0 = .error .illegal := by decide +kernel

/-- The words of the opcode table's numbering: 64 bits are a step, 32 bits a handler instruction. -/
theorem test_table_words :
    decodeTableWord 64 0x510340FFFFFFFFFD = some (.bne 3 4 (-3)) ∧
    decodeTableWord 32 0xD0007F80 = some (.hEmit (.reg 0) 3 63 0 0) ∧
    decodeTableWord 8 0 = none := by decide +kernel

/-! One ill-formed term for each check of `Instr.wf`. -/

theorem test_ill_formed_steps :
    [.strmIn 0 0 0 0 3, .strmOut 0 0 0 0 3, .strmGath 0 0 0 0 0 3, .strmScat 0 0 0 0 0 3, .strmFill 0 0 0 0 3, .strmCopy 0 0 0 0 3,
      .cfgPreload 0 3, .pswap 3, .depNew 0 3, .phReg 0 0, .atom 0 0 0 0 0 0, .atom 0x0E 0 0 0 0 0, .atom 0x81 0 0 0 1 0,
      .srr 0 0x00B, .srw 0 0x000, .srw 0 0x003, .srw 0 0x00A].all (fun (i : Instr) => !i.wf) = true := by decide +kernel

/-- Guard 8 (R34). -/
theorem test_guard_eight_1 :
    [.hAdd 0 (.reg 0) (.reg 0) .i64 8 .wrap, .hSub 0 (.reg 0) (.reg 0) .i64 8 .wrap, .hMul 0 (.reg 0) (.reg 0) .i64 8 .wrap, .hMulh 0 (.reg 0) (.reg 0) .i64 8, .hMulhu 0 (.reg 0) (.reg 0) .i64 8, .hMin 0 (.reg 0) (.reg 0) .i64 8, .hMax 0 (.reg 0) (.reg 0) .i64 8, .hMinu 0 (.reg 0) (.reg 0) .i64 8, .hMaxu 0 (.reg 0) (.reg 0) .i64 8, .hAbs 0 (.reg 0) .i64 8 .wrap, .hNeg 0 (.reg 0) .i64 8 .wrap, .hPopc 0 (.reg 0) .i64 8, .hClz 0 (.reg 0) .i64 8, .hCtz 0 (.reg 0) .i64 8, .hAnd 0 (.reg 0) (.reg 0) .i64 8, .hOr 0 (.reg 0) (.reg 0) .i64 8, .hXor 0 (.reg 0) (.reg 0) .i64 8, .hAndn 0 (.reg 0) (.reg 0) .i64 8, .hShl 0 (.reg 0) (.reg 0) .i64 8, .hShr 0 (.reg 0) (.reg 0) .i64 8, .hSra 0 (.reg 0) (.reg 0) .i64 8, .hCeq 0 (.reg 0) (.reg 0) .i64 8, .hCne 0 (.reg 0) (.reg 0) .i64 8, .hClt 0 (.reg 0) (.reg 0) .i64 8, .hCltu 0 (.reg 0) (.reg 0) .i64 8, .hCle 0 (.reg 0) (.reg 0) .i64 8, .hCleu 0 (.reg 0) (.reg 0) .i64 8, .hAddi 0 (.reg 0) 0 8, .hAndi 0 (.reg 0) 0 8, .hOri 0 (.reg 0) 0 8].all (fun (i : Instr) => !i.wf) = true := by decide +kernel

/-- Guard 8 (R34). -/
theorem test_guard_eight_2 :
    [.hXori 0 (.reg 0) 0 8, .hShli 0 (.reg 0) 0 8, .hShri 0 (.reg 0) 0 8, .hSrai 0 (.reg 0) 0 8, .hCeqi 0 (.reg 0) 0 8, .hClti 0 (.reg 0) 0 8, .hCltui 0 (.reg 0) 0 8, .hBfx 0 (.reg 0) 0 0 8, .hBfxu 0 (.reg 0) 0 0 8, .hBfi 0 (.reg 0) 0 0 8, .hLit 0 8 0, .hLith 0 8 0, .hAddl 0 (.reg 0) 8 0, .hSync 0 (.reg 0) (.reg 0) 8 0 0 0 1, .hFadd 0 (.reg 0) (.reg 0) .f32x2 8 .rne, .hFsub 0 (.reg 0) (.reg 0) .f32x2 8 .rne, .hFmul 0 (.reg 0) (.reg 0) .f32x2 8 .rne, .hFma 0 (.reg 0) (.reg 0) .f32x2 8 .rne, .hFmin 0 (.reg 0) (.reg 0) .f32x2 8 .rne, .hFmax 0 (.reg 0) (.reg 0) .f32x2 8 .rne, .hFabs 0 (.reg 0) .f32x2 8, .hFneg 0 (.reg 0) .f32x2 8, .hFceq 0 (.reg 0) (.reg 0) .f32x2 8, .hFclt 0 (.reg 0) (.reg 0) .f32x2 8, .hFcle 0 (.reg 0) (.reg 0) .f32x2 8, .hFcvt 0 (.reg 0) .f32x2 .f32x2 8 .rne, .hFrcp 0 (.reg 0) .f32x2 8 .rne, .hFsqrt 0 (.reg 0) .f32x2 8 .rne, .hFexp2 0 (.reg 0) .f32x2 8 .rne, .hIcvtf 0 (.reg 0) .f32x2 8 .rne].all (fun (i : Instr) => !i.wf) = true := by decide +kernel

/-- Guard 8 (R34). -/
theorem test_guard_eight_3 :
    [.hFcvti 0 (.reg 0) .f32x2 8 .rne, .hFdot 0 (.reg 0) (.reg 0) .f32x2 8 .rne, .hLdl8 0 (.reg 0) 0 8, .hLdl16 0 (.reg 0) 0 8, .hLdl32 0 (.reg 0) 0 8, .hLdl64 0 (.reg 0) 0 8, .hStl8 0 (.reg 0) 0 8, .hStl16 0 (.reg 0) 0 8, .hStl32 0 (.reg 0) 0 8, .hStl64 0 (.reg 0) 0 8, .hLdg8 0 (.reg 0) 0 8, .hLdg16 0 (.reg 0) 0 8, .hLdg32 0 (.reg 0) 0 8, .hLdg64 0 (.reg 0) 0 8, .hStg8 0 (.reg 0) 0 8, .hStg16 0 (.reg 0) 0 8, .hStg32 0 (.reg 0) 0 8, .hStg64 0 (.reg 0) 0 8, .hEmit (.reg 0) 0 0 0 8, .hEmitp (.reg 0) 0 0 0 8, .hSend (.reg 0) (.reg 0) 8, .hExitDone 0 8, .hExitDefer 8, .hExitFail 8, .hTagLvl 0 8, .hTagFree 8, .hTagFreectx 8, .hTagPool 0 (.reg 0) 8, .hTagParent 0 8, .hFenceSl 8].all (fun (i : Instr) => !i.wf) = true := by decide +kernel

/-- Guard 8 (R34). -/
theorem test_guard_eight_4 :
    [.hFenceRel 0 8, .hFenceAcq 0 8, .hLclk 0 8, .hLclkadv (.reg 0) 8, .hBoxt8Any 0 (.reg 0) (.reg 0) 8, .hBoxt8Closest 0 (.reg 0) (.reg 0) 8, .hTritAny 0 (.reg 0) (.reg 0) 8, .hTritClosest 0 (.reg 0) (.reg 0) 8, .hTritBary 0 (.reg 0) (.reg 0) 8, .hDicer 0 (.reg 0) (.reg 0) 8, .hSamptTu 0 (.reg 0) (.reg 0) 8, .hSamptV 0 (.reg 0) (.reg 0) 8, .hMptest 0 (.reg 0) (.reg 0) 8, .hSeqw 0 (.reg 0) (.reg 0) 8].all (fun (i : Instr) => !i.wf) = true := by decide +kernel

theorem test_ill_formed_handler :
    [.hBfx 0 (.reg 0) 40 24 0, .hBfxu 0 (.reg 0) 40 24 0, .hBfi 0 (.reg 0) 40 24 0, .hSync 0 (.reg 0) (.reg 0) 0 63 0 0 0x00,
      .hSync 1 (.reg 0) (.reg 0) 0 63 0 0 0x01, .hSync 0 (.reg 0) (.reg 0) 0 0 0 0 0x81, .hSync 0 (.reg 0) (.reg 0) 0 63 0 0 0x21,
      .hSync 0 (.reg 0) (.reg 0) 0 63 0 0 0x22, .hFdot 0 (.reg 0) (.reg 0) .i64 0 .rtz, .hFdot 0 (.reg 0) (.reg 0) .i32x2 0 .rup,
      .hEmit (.reg 0) 0 63 7 0, .hEmitp (.reg 0) 0 63 7 0].all (fun (i : Instr) => !i.wf) = true := by decide +kernel

/-! The machine's own premises -/

theorem test_wit_inv : Sys2Proof.Inv State.reset := by unfold Sys2Proof.Inv; decide +kernel

theorem test_wit_step_encodings : encodeSeq (.bne 3 4 (-3)) = some 0x510340FFFFFFFFFD ∧ (Instr.bne 3 4 (-3)).wf = true ∧
    decodeSeq 0x510340FFFFFFFFFD = .ok (.bne 3 4 (-3)) := by decide +kernel

theorem test_wit_handler_encodings : encodeHandler (.hAdd 2 (.reg 8) (.chan true 3) .i32x2 1 .wrap) = some (0x02446644, 0) ∧
    (Instr.hAdd 2 (.reg 8) (.chan true 3) .i32x2 1 .wrap).wf = true ∧
    decodeHandler 0x02446644 0 = .ok (.hAdd 2 (.reg 8) (.chan true 3) .i32x2 1 .wrap) := by decide +kernel

/-! The spec's worked examples -/

/-- R188 to R192, the worked conversions: to E4M3 and E5M2. -/
theorem test_worked_conversions_8 :
    convElem .rne false 2 5 0 0x43E80000 = ⟨0x7E, false, false⟩ ∧ convElem .rne false 2 5 0 0x43EB0000 = ⟨0x7F, true, false⟩ ∧
    convElem .rne true 2 5 0 0x43EB0000 = ⟨0x7E, true, false⟩ ∧ convElem .rne false 2 5 0 0x3A83126F = ⟨0x01, false, false⟩ ∧
    convElem .rne false 2 6 0 0x47700000 = ⟨0x7C, true, false⟩ := by decide +kernel

/-- R188 to R192, the worked conversions: to FP16, BF16, FP32 and INT32. -/
theorem test_worked_conversions_16 :
    convElem .rne true 2 3 0 0x477FF000 = ⟨0x7BFF, true, false⟩ ∧ convElem .rne false 2 4 0 0x3F808000 = ⟨0x3F80, false, false⟩ ∧
    convElem .rna false 2 4 0 0x3F808000 = ⟨0x3F81, false, false⟩ ∧ convElem .rne false 2 4 0 0x3F808001 = ⟨0x3F81, false, false⟩ ∧
    convElem .rne false 5 2 0 0xB5 = ⟨0xBF500000, false, false⟩ ∧ convElem .rne false 1 2 0 16777217 = ⟨0x4B800000, false, false⟩ ∧
    convElem .rne true 2 1 0 0xFF800000 = ⟨0x80000000, true, false⟩ ∧ convElem .rne false 2 1 0 0xFF800000 = ⟨0, false, true⟩ := by decide +kernel

/-- R98, R192, the worked block: 3.0, -10.0, 0.7, 20.0 and 28 zeros as E2M1. -/
theorem test_worked_block :
    packBlock 1 ([0x40400000, 0xC1200000, 0x3F333333, 0x41A00000].map fp32.decode ++ List.replicate 28 (.zero false)) =
      (0x62, [0x2, 0xC, 0x0, 0x6] ++ List.replicate 28 0, 0) := by decide +kernel

/-- R115, the padded array: with rowlen 16 and pad 1, word j of row i lies in bank (i + j) mod 16. -/
theorem test_worked_pad :
    (List.range 16).all (fun i => (List.range 16).all fun j =>
      bankMap (2 ^ 58 + 1 * 2 ^ 48 + 16 * 2 ^ 36 + 17) (16 * i + j) % 16 == (i + j) % 16) = true := by decide +kernel

/-- R71, the worked commit: under mask 0x25 the positions 0, 2 and 5. -/
theorem test_worked_commit : ({ Cmd.new 6 Pattern.none 0 0x25 0 0 0 true 0 0 0 none 0 with begun := true } : Cmd).kvList = [0, 2, 5] := by decide +kernel

/-- R55, the words whose fields trap. -/
theorem test_wit_scalar_fields : (1 : BitVec 4) ≠ 0 ∧ decodeSeq (seqWord 0x1E 5 1 0 0 7) = .error .reservedField ∧
    2 ^ 24 ≤ (0x1000000 : BitVec 40).toNat ∧ decodeSeq (seqWord 0x1F 5 1 0 0 0x1000000) = .error .reservedField ∧
    64 ≤ (64 : BitVec 40).toNat ∧ decodeSeq (seqWord 0x19 5 1 0 0 64) = .error .reservedField := by decide +kernel

end Sys2Proof.Tests
end

/-! Registers and resets: what a write to CVST clears (R193), and what a start changes (R353, R355). -/

namespace Sys2Proof.Machine

/-! Conversion status (R193) -/

/-- A change of what a cell's active plane holds reads back as the changed plane. -/
@[simp] theorem State.cp_modCp_same (s : State) (c : Nat) (f : CellPlane → CellPlane) : (s.modCp c f).cp c = f (s.cp c) := by
  have hplane : (s.modCp c f).planeNo c = s.planeNo c := rfl
  rw [State.cp, hplane]
  simp [State.modCp, State.setCp]

/-- A write of 1 clears the flags of CVST, except those set in the same clk. -/
theorem State.cvst_cvstClear (s : State) (c v : Nat) :
    ((s.cvstClear c v).cp c).cvst = (s.cp c).cvst &&& ~~~(BitVec.ofNat 32 (v % 8) &&& ~~~(s.cp c).cvstSet s.clk) := by
  simp [State.cvstClear]

/-- Where every flag of CVST was set in this clk, a write of 1 clears none. -/
theorem State.cvst_cvstClear_of_set_now (s : State) (c v : Nat) (h : (s.cp c).cvstSet s.clk = (s.cp c).cvst) :
    ((s.cvstClear c v).cp c).cvst = (s.cp c).cvst := by
  rw [State.cvst_cvstClear, h]
  ext i hi
  simp only [BitVec.getElem_and, BitVec.getElem_not]
  cases (s.cp c).cvst[i] <;> simp

/-! What a start changes (R353) -/

/-- A change of dies, module block and the model's counter of free choices alone. -/
def State.StartChanges (s t : State) : Prop := ∃ di mo ti, t = { s with dies := di, mod := mo, tick := ti }

theorem State.StartChanges.refl (s : State) : s.StartChanges s := ⟨s.dies, s.mod, s.tick, rfl⟩

theorem State.StartChanges.trans {s t u : State} (h : s.StartChanges t) (k : t.StartChanges u) : s.StartChanges u := by
  obtain ⟨_, _, _, rfl⟩ := h
  obtain ⟨di, mo, ti, rfl⟩ := k
  exact ⟨di, mo, ti, rfl⟩

theorem State.StartChanges.fold {α : Type} {f : State → α → State} (h : ∀ (s : State) x, s.StartChanges (f s x)) (l : List α) (s : State) :
    s.StartChanges (l.foldl f s) := by
  induction l generalizing s with
  | nil => exact .refl s
  | cons x r ih => exact (h s x).trans (ih _)

theorem State.StartChanges.modDie (s : State) (d : Nat) (f : Die → Die) : s.StartChanges (s.modDie d f) := ⟨_, _, _, rfl⟩

theorem State.StartChanges.vault (s : State) (d : Nat) (e : VEvent) : s.StartChanges (s.vault d e) := by
  unfold State.vault
  dsimp only
  split
  · exact .refl s
  · exact ⟨_, _, _, rfl⟩

theorem State.StartChanges.excludeDies (s : State) (dies : BitVec 16) : s.StartChanges (s.excludeDies dies) :=
  .fold (fun s d => .trans (.modDie s d _) (.vault _ d _)) _ s

theorem State.StartChanges.bootStep (s : State) (k st d c : Nat) : s.StartChanges (s.bootStep k st d c) :=
  .trans ⟨_, _, _, rfl⟩ (.vault _ 0 _)

theorem State.StartChanges.ite {s t u : State} {p : Prop} [Decidable p] (ht : s.StartChanges t) (hu : s.StartChanges u) :
    s.StartChanges (if p then t else u) := by
  split
  · exact ht
  · exact hu

theorem State.StartChanges.requiredStep (s : State) (k : Nat) : s.StartChanges (s.requiredStep k).2 := by
  have hdraw : s.StartChanges { s with tick := s.tick + 1 } := ⟨_, _, _, rfl⟩
  unfold State.requiredStep
  dsimp only
  rw [apply_ite Prod.snd, apply_ite Prod.snd]
  exact .ite ((hdraw.trans (.excludeDies _ _)).trans (.bootStep _ k _ _ _))
    (.ite (hdraw.trans (.bootStep _ k _ _ _)) (hdraw.trans (.bootStep _ k _ _ _)))

theorem State.StartChanges.linkStep (s : State) (k : Nat) : s.StartChanges (s.linkStep k) := by
  have hdraw : s.StartChanges { s with tick := s.tick + 1 } := ⟨_, _, _, rfl⟩
  unfold State.linkStep
  dsimp only
  refine .ite ?_ (.ite ?_ ?_) <;> exact .trans (.ite ⟨_, _, _, rfl⟩ hdraw) (.bootStep _ k _ _ _)

theorem State.StartChanges.serviceOnly (s : State) (rest : List Nat) : s.StartChanges (s.serviceOnly rest) :=
  .trans ⟨_, _, _, rfl⟩ (.fold (fun s d => .modDie s d _) _ _)

/-- The steps of a start change dies and module block alone. -/
theorem State.StartChanges.startSteps (ks : List Nat) (s : State) : s.StartChanges (State.startSteps ks s) := by
  induction ks generalizing s with
  | nil => exact .refl s
  | cons k rest ih =>
    have hreq := State.StartChanges.requiredStep s k
    unfold State.startSteps
    split
    · split
      · next heq => rw [heq] at hreq; exact hreq.trans (ih _)
      · next heq => rw [heq] at hreq; exact hreq.trans (.serviceOnly _ rest)
    · exact (State.StartChanges.linkStep s k).trans (ih _)

theorem State.StartChanges.warmSteps (s : State) : s.StartChanges s.warmSteps := by
  unfold State.warmSteps
  split
  · exact .serviceOnly s []
  · exact .trans ⟨_, _, _, rfl⟩ (.startSteps [4, 5] _)

/-- A warm reset answers a state whose count of clk starts again at 0, whatever the start after it meets. -/
theorem execWarmReset_clk (s t : State) (h : execWarmReset s = .next t) : t.clk = 0 := by
  have ht : s.loseLaunches.warm.warmSteps = t := by injection h
  obtain ⟨di, mo, ti, hsteps⟩ := State.StartChanges.warmSteps s.loseLaunches.warm
  rw [← ht, hsteps]
  rfl

end Sys2Proof.Machine

namespace Sys2Proof.Claims

open Sys2Proof.Machine

/-- WARM_RESET runs `execWarmReset` (R355). -/
theorem exec_warmReset (s : State) : exec .warmReset s = execWarmReset s := rfl

/-- From reset, V-cell 0 has met an overflow in the clk that runs. -/
def overflowNow : State := State.reset.setCvst 0 2

/-- Refutes O52: its clause on CVST leaves out that a flag set in the clk of the write ends set, as R193 and its ordering row say and as
`State.cvstClear` does. In `overflowNow` OVF was set in this clk: a write of 2 leaves it 1, where the clause says 0. -/
theorem not_registerWrites : ¬ Obligations.RegisterWrites := by
  unfold Obligations.RegisterWrites
  rintro ⟨-, -, -, -, -, -, -, hclear, -⟩
  have hkept : ((overflowNow.cvstClear 0 2).cp 0).cvst = (overflowNow.cp 0).cvst :=
    State.cvst_cvstClear_of_set_now overflowNow 0 2 (by decide)
  have hovf : (overflowNow.cp 0).cvst = 2 := by decide
  have hcleared := hclear overflowNow 0 2
  rw [hkept, hovf] at hcleared
  exact absurd hcleared (by decide)

/-- The module one clk after its cold reset. -/
def oneClk : State := { State.reset with clk := 1 }

/-- Refutes O53: its clause on a warm reset says that the count of clk stays, but `State.warm` keeps device time (`eighths`, log 41) and returns
`clk` to its cold value. From `oneClk` a warm reset answers a state with `clk` 0, not 1. -/
theorem not_resetsAndStops : ¬ Obligations.ResetsAndStops := by
  unfold Obligations.ResetsAndStops
  rintro ⟨-, -, -, hwarm, -⟩
  obtain ⟨t, hruns, -, -, -, -, -, -, -, hclk, -⟩ := hwarm oneClk
  have hzero : t.clk = 0 := execWarmReset_clk oneClk t (by rw [← exec_warmReset]; exact hruns)
  have hone : t.clk = 1 := hclk
  omega

end Sys2Proof.Claims

/-! Stages: what a cell's plane keeps while a stage takes its operands, and a firing whose operands are there (R86, R87). -/

namespace Sys2Proof.Machine

open Sys2Proof.Claims

/-! A plane read back -/

/-- A mark of activity leaves every cell in its plane. -/
@[simp] theorem State.planeNo_touch (s : State) (u c : Nat) : (s.touch u).planeNo c = s.planeNo c := by
  unfold State.planeNo State.owner?
  rw [State.getTile_touch]
  cases (s.getTile (cellTile c)).owner with
  | none => rfl
  | some v =>
    by_cases hv : v = u
    · subst hv
      simp only [State.touch, State.launch?_modLaunch_same]
      cases s.launch? v <;> rfl
    · simp only [State.touch, State.launch?_modLaunch_of_ne s _ hv]

@[simp] theorem State.cp_touch (s : State) (u c : Nat) : (s.touch u).cp c = s.cp c := by simp [State.cp]

@[simp] theorem State.cp_touchCell (s : State) (c d : Nat) : (s.touchCell c).cp d = s.cp d := by
  unfold State.touchCell
  split <;> simp

/-- What a cell's active plane holds depends on the tiles, the cells and the launches alone. -/
theorem State.cp_congr {s t : State} (ht : t.tiles = s.tiles) (hc : t.cells = s.cells) (hl : t.launches = s.launches) (c : Nat) :
    t.cp c = s.cp c := by
  simp only [State.cp, State.planeNo, State.owner?, State.getTile, State.getCell, State.launch?, ht, hc, hl]

@[simp] theorem State.cp_setLocalLine (s : State) (c off d : Nat) (v : BitVec 512) : (s.setLocalLine c off v).cp d = s.cp d := by
  apply State.cp_congr
  · simp only [State.setLocalLine]
  · simp only [State.setLocalLine]
  · simp only [State.setLocalLine]

/-- A run of free words moves the count of free words alone. -/
theorem State.foldl_fresh (l : List Nat) (acc : Nat × State) :
    (l.foldl (fun (acc : Nat × State) _ => (acc.1 * 2 ^ 64 + acc.2.fresh.1.toNat, acc.2.fresh.2)) acc).2 =
      { acc.2 with tick := acc.2.tick + l.length } := by
  induction l generalizing acc with
  | nil => rfl
  | cons x r ih => rw [List.foldl_cons, ih]; simp [State.fresh, Nat.add_comm, Nat.add_left_comm]

/-- A free operand takes eight free words. -/
theorem State.freeFlit_state (s : State) (fmt : Nat) : (s.freeFlit fmt).2 = { s with tick := s.tick + 8 } :=
  State.foldl_fresh (List.range 8) (0, s)

@[simp] theorem State.cp_freeFlit (s : State) (fmt c : Nat) : (s.freeFlit fmt).2.cp c = s.cp c := by
  rw [State.freeFlit_state]
  exact State.cp_congr rfl rfl rfl c

/-- Of two writes of a cell's active plane the later stands. -/
theorem State.setCp_setCp (s : State) (c : Nat) (x y : CellPlane) : (s.setCp c x).setCp c y = s.setCp c y := by
  have hplane : (s.setCp c x).planeNo c = s.planeNo c := rfl
  simp only [State.setCp, State.modCell] at hplane ⊢
  rw [hplane]
  simp [State.setCell, State.getCell]

/-- Two changes of a cell's active plane are one. -/
theorem State.modCp_modCp (s : State) (c : Nat) (f g : CellPlane → CellPlane) : (s.modCp c f).modCp c g = s.modCp c fun p => g (f p) := by
  rw [State.modCp, State.cp_modCp_same]
  exact State.setCp_setCp s c _ _

/-- A change of a cell's active plane depends on what it gives at that plane alone. -/
theorem State.modCp_congr (s : State) (c : Nat) {f g : CellPlane → CellPlane} (h : f (s.cp c) = g (s.cp c)) : s.modCp c f = s.modCp c g :=
  congrArg (s.setCp c) h

/-- Removing an entry leaves the others. -/
theorem smFind_smDel_of_ne {α : Type} (m : SMap α) {k j : Nat} (h : j ≠ k) : smFind (smDel m k) j = smFind m j := by
  induction m with
  | nil => rfl
  | cons e r ih =>
    obtain ⟨i, w⟩ := e
    by_cases hk : k = i
    · simp [smDel, smFind, hk, show i ≠ j from fun hij => h (by omega)]
    · simp [smDel, smFind, hk, ih]

theorem smGet_smDel_of_ne {α : Type} (d : α) (m : SMap α) {k j : Nat} (h : j ≠ k) : smGet d (smDel m k) j = smGet d m j := by
  simp [smGet, smFind_smDel_of_ne m h]

/-! What taking operands leaves of a plane -/

/-- Everything but the places of flits, EGATE's credits and the counts of code flits (tags 304 and 305) stays: what a firing reads of its own plane. -/
structure CellPlane.KeepsWork (p q : CellPlane) : Prop where
  stages : q.stages = p.stages
  lfsr : q.lfsr = p.lfsr
  row : q.row = p.row
  qvals : q.qvals = p.qvals
  qcodes : q.qcodes = p.qcodes
  storeN : q.storeN = p.storeN
  netx : q.netx = p.netx
  accs : ∀ k, k < 304 → smGet ⟨0, 0⟩ q.accs k = smGet ⟨0, 0⟩ p.accs k

namespace CellPlane.KeepsWork

theorem refl (p : CellPlane) : p.KeepsWork p := ⟨rfl, rfl, rfl, rfl, rfl, rfl, rfl, fun _ _ => rfl⟩

theorem trans {p q r : CellPlane} (h : p.KeepsWork q) (k : q.KeepsWork r) : p.KeepsWork r where
  stages := k.stages.trans h.stages
  lfsr := k.lfsr.trans h.lfsr
  row := k.row.trans h.row
  qvals := k.qvals.trans h.qvals
  qcodes := k.qcodes.trans h.qcodes
  storeN := k.storeN.trans h.storeN
  netx := k.netx.trans h.netx
  accs i hi := (k.accs i hi).trans (h.accs i hi)

theorem stageFields {p q : CellPlane} (h : p.KeepsWork q) (n : Nat) : q.stageFields n = p.stageFields n := by
  rw [CellPlane.stageFields, CellPlane.stageFields, CellPlane.stage, CellPlane.stage, h.stages]

theorem lfsrOf {p q : CellPlane} (h : p.KeepsWork q) (n : Nat) : q.lfsrOf n = p.lfsrOf n := by
  simp [CellPlane.lfsrOf, h.lfsr]

theorem rowBlk {p q : CellPlane} (h : p.KeepsWork q) : q.rowBlk = p.rowBlk :=
  congrArg AccTag.count (h.accs 300 (by decide))

theorem rowFresh {p q : CellPlane} (h : p.KeepsWork q) : q.rowFresh = p.rowFresh := by
  rw [CellPlane.rowFresh, CellPlane.rowFresh, h.rowBlk, h.accs 301 (by decide)]

theorem isPartial {p q : CellPlane} (h : p.KeepsWork q) (f : StageF) (x : Flit) : q.isPartial f x = p.isPartial f x := by
  rw [CellPlane.isPartial, CellPlane.isPartial, h.accs 300 (by decide), h.accs 301 (by decide)]

theorem setLink (p : CellPlane) (k : Nat) (l : List Flit) : p.KeepsWork (p.setLink k l) :=
  ⟨rfl, rfl, rfl, rfl, rfl, rfl, rfl, fun _ _ => rfl⟩

theorem setBox (p : CellPlane) (k : Nat) (l : List Flit) : p.KeepsWork (p.setBox k l) :=
  ⟨rfl, rfl, rfl, rfl, rfl, rfl, rfl, fun _ _ => rfl⟩

theorem countCode (p : CellPlane) (x : Option Flit) : p.KeepsWork (p.countCode x) := by
  cases x with
  | none => exact refl p
  | some x =>
    unfold CellPlane.countCode
    dsimp only
    split
    · exact refl p
    · refine ⟨rfl, rfl, rfl, rfl, rfl, rfl, rfl, fun k hk => ?_⟩
      rw [smGet_smPut_of_ne _ _ _ (by omega), apply_ite (fun m => smGet (⟨0, 0⟩ : AccTag) m k), smGet_smDel_of_ne _ _ (by omega), ite_self]

end CellPlane.KeepsWork

/-- Taking the head of a stream source keeps the plane's work. -/
theorem State.popRaw_keepsWork (s : State) (c n code k : Nat) : (s.cp c).KeepsWork ((s.popRaw c n code k).cp c) := by
  have hport (p : CellPlane) (side : Bool) : p.KeepsWork
      (if side && !p.side.isEmpty then { p with side := p.side.drop 1, accs := smPut p.accs 305 ⟨1, 0⟩ }
       else if code = 2 then (p.setBox 4 ((p.box 4).drop 1)).countCode (p.box 4).head?
       else (p.setLink lkSin ((p.link lkSin).drop 1)).countCode (p.link lkSin).head?) := by
    split
    · exact ⟨rfl, rfl, rfl, rfl, rfl, rfl, rfl, fun _ h => smGet_smPut_of_ne _ _ _ (by omega)⟩
    · split
      · exact (CellPlane.KeepsWork.setBox p _ _).trans (.countCode _ _)
      · exact (CellPlane.KeepsWork.setLink p _ _).trans (.countCode _ _)
  rw [State.popRaw, State.cp_modCp_same]
  split
  · exact .setLink _ _ _
  · exact hport _ _
  · exact hport _ _
  · exact ⟨rfl, rfl, rfl, rfl, rfl, rfl, rfl, fun _ _ => rfl⟩
  · exact .refl _

/-- Taking the head of a source keeps the plane's work. -/
theorem State.pop_keepsWork (s : State) (c n : Nat) (b : Bool) : (s.cp c).KeepsWork ((s.pop c n b).cp c) := by
  unfold State.pop
  dsimp only
  split
  · rw [State.cp_modCp_same]
    exact ⟨rfl, rfl, rfl, rfl, rfl, rfl, rfl, fun _ _ => rfl⟩
  · exact State.popRaw_keepsWork s c n _ _

/-- The end of a gated row keeps the plane's work. -/
theorem State.gateTook_keepsWork (s : State) (c n : Nat) (x : Flit) : (s.cp c).KeepsWork ((s.gateTook c n x).cp c) := by
  unfold State.gateTook
  split
  · rw [State.cp_modCp_same]
    exact ⟨rfl, rfl, rfl, rfl, rfl, rfl, rfl, fun _ _ => rfl⟩
  · exact .refl _

/-- An operand leaves the planes alone. -/
@[simp] theorem cp_operand (s : State) (c n : Nat) (b : Bool) (d : Nat) : (operand s c n b).2.cp d = s.cp d := by
  unfold operand
  split <;> simp

/-- A stage that has taken its operands has kept its plane's work. -/
theorem stageTook_keepsWork (s : State) (c n : Nat) : (s.cp c).KeepsWork ((stageTook s c n).cp c) := by
  have hops : s.cp c = (operand (operand s c n false).2 c n true).2.cp c := by simp
  rw [stageTook, State.cp_touchCell, hops]
  exact ((State.pop_keepsWork _ c n false).trans (State.pop_keepsWork _ c n true)).trans (State.gateTook_keepsWork _ c n _)

/-! A firing (R87) -/

/-- A stage that may fire, and that no earlier output waits to leave, does what the turn is for. -/
theorem State.stageTurn_of_ready {s : State} {c n op : Nat} (h : StageReady s c n op) (go : Out) : s.stageTurn c n op go = go := by
  obtain ⟨hruns, hdst, hpend, hgate⟩ := h
  simp [State.stageTurn, hruns, hdst, hpend, hgate]

/-- A free operand changes no head. -/
@[simp] theorem State.head_freeFlit (s : State) (fmt c n : Nat) (b : Bool) : (s.freeFlit fmt).2.head c n b = s.head c n b := by
  rw [State.freeFlit_state]
  rfl

/-- A stage whose operands are there runs on them. -/
theorem State.fire_of_due {s : State} {c n op : Nat} (h : StageDue s c n op) (go : Flit → Flit → State → Out) :
    s.fire c n op go = go (opA s c n) { opB s c n with mark := markB s c n } (stageTook s c n) := by
  obtain ⟨hready, hheads⟩ := h
  obtain ⟨hwaitA, hflitA⟩ := hheads false
  obtain ⟨hwaitB, hflitB⟩ := hheads true
  rw [State.fire, State.stageTurn_of_ready hready]
  cases hA : s.head c n false with
  | wait => exact absurd hA hwaitA
  | flit a =>
    obtain ⟨hbeatA, hsideA, hconvA⟩ := hflitA a hA
    cases hB : s.head c n true with
    | wait => exact absurd hB hwaitB
    | flit b =>
      obtain ⟨hbeatB, hsideB, hconvB⟩ := hflitB b hB
      simp [stageTook, opA, opB, markB, operand, hA, hB, hbeatA, hsideA, hconvA, hbeatB, hsideB, hconvB]
    | none => simp [stageTook, opA, opB, markB, operand, hA, hB, hbeatA, hsideA, hconvA]
  | none =>
    cases hB : s.head c n true with
    | wait => exact absurd hB hwaitB
    | flit b =>
      obtain ⟨hbeatB, hsideB, hconvB⟩ := hflitB b hB
      simp [stageTook, opA, opB, markB, operand, hA, hB, hbeatB, hsideB, hconvB]
    | none => simp [stageTook, opA, opB, markB, operand, hA, hB]

end Sys2Proof.Machine

/-! Element arithmetic: the claims' plain numbers and the model's fields agree. -/

namespace Sys2Proof.Machine

open Sys2Proof.Claims

/-- Bits [hi:lo] by division. -/
theorem bitsOf_eq (v : Nat) {hi lo n : Nat} (h : hi + 1 = lo + n) : bitsOf v hi lo = v / 2 ^ lo % 2 ^ n := by
  rw [bitsOf, Nat.shiftRight_eq_div_pow, show hi + 1 - lo = n by omega]

theorem tagWidth_pos (t : Nat) : 0 < tagWidth t := by
  unfold tagWidth
  split <;> decide

theorem elemAt_lt (t : Nat) (d : BitVec 512) (i : Nat) : elemAt t d i < 2 ^ tagWidth t := Nat.mod_lt _ (by positivity)

/-- The elements of a flit, one by one. -/
theorem elems_eq_map (t : Nat) (d : BitVec 512) : elems t d = (List.range (tagElems t)).map (elemAt t d) := by
  refine List.map_congr_left fun i _ => ?_
  have hw := tagWidth_pos t
  rw [bitsOf_eq _ (n := tagWidth t) (by omega), elemAt]

theorem length_elems (t : Nat) (d : BitVec 512) : (elems t d).length = tagElems t := by simp [elems_eq_map]

theorem lt_of_mem_elems {t : Nat} {d : BitVec 512} {x : Nat} (h : x ∈ elems t d) : x < 2 ^ tagWidth t := by
  rw [elems_eq_map] at h
  obtain ⟨i, -, rfl⟩ := List.mem_map.1 h
  exact elemAt_lt t d i

theorem getD_map_range (g : Nat → Nat) {n i : Nat} (h : i < n) (z : Nat) : ((List.range n).map g).getD i z = g i := by
  simp [List.getD, h]

theorem getD_elems (t : Nat) (d : BitVec 512) {i : Nat} (h : i < tagElems t) : (elems t d).getD i 0 = elemAt t d i := by
  rw [elems_eq_map, getD_map_range _ h]

/-! Integers -/

theorem sextNat_eq_sgn {v w : Nat} (h : v < 2 ^ w) : sextNat v w = sgn w v := by
  rw [sextNat, Nat.mod_eq_of_lt h, sgn]

theorem intVal_eq_stageInt (uns : Bool) {v w : Nat} (h : v < 2 ^ w) : intVal uns w v = stageInt uns w v := by
  rw [intVal, stageInt, Nat.mod_eq_of_lt h, sextNat_eq_sgn h]

/-- Clamping, as a choice of the bound that is passed. -/
theorem clampInt_eq (uns : Bool) (n : Nat) (v : Int) :
    clampInt uns n v =
      if v < (if uns then 0 else -2 ^ (n - 1)) then (if uns then 0 else -2 ^ (n - 1))
      else if (if uns then 2 ^ n - 1 else 2 ^ (n - 1) - 1) < v then (if uns then 2 ^ n - 1 else 2 ^ (n - 1) - 1) else v := by
  have hn : (0 : Int) < 2 ^ n := by positivity
  have hm : (0 : Int) < 2 ^ (n - 1) := by positivity
  cases uns <;> simp only [clampInt, if_true, Bool.false_eq_true, if_false] <;> split_ifs <;> omega

/-- The model's WRAP and SAT are the claims'. -/
theorem hold_eq_stageHold (f : StageF) (uns : Bool) (x : Int) : f.hold uns x = stageHold f uns x := by
  rw [StageF.hold, stageHold, wrapNat, clampInt_eq]

theorem mode_k_lt (w : Nat) : (stageF w).k < 2 ^ 32 := by
  have : bitsOf w 31 0 < 2 ^ 32 := Nat.mod_lt _ (by decide)
  exact this

theorem stageFields_k_lt (p : CellPlane) (n : Nat) : (p.stageFields n).k < 2 ^ 32 := by
  unfold CellPlane.stageFields
  dsimp only
  split <;> exact mode_k_lt _

/-- A signed element is zero where its bits are. -/
theorem sgn_eq_zero {v w : Nat} (h : v < 2 ^ w) : sgn w v = 0 ↔ v = 0 := by
  have hw : ((v : Nat) : Int) < 2 ^ w := by exact_mod_cast h
  have hpos : 0 < 2 ^ (w - 1) := by positivity
  unfold sgn
  split <;> omega

theorem sextNat_low (v : Nat) : sextNat v 16 = sgn 16 (v % 2 ^ 16) := by
  rw [← sextNat_eq_sgn (Nat.mod_lt v (by decide)), sextNat, sextNat, Nat.mod_mod]

theorem shiftOf_eq (f : StageF) (b : Nat) : shiftOf f b = stageShift f b := by
  unfold shiftOf stageShift
  split <;> rfl

/-- The top bit of an element. -/
theorem bitOf_top {v t : Nat} (h : v < 2 ^ tagWidth t) : bitOf v (tagWidth t - 1) = decide (2 ^ (tagWidth t - 1) ≤ v) := by
  have hw : 2 ^ tagWidth t = 2 ^ (tagWidth t - 1) * 2 := by rw [← pow_succ, Nat.sub_add_cancel (tagWidth_pos t)]
  have hdiv : v / 2 ^ (tagWidth t - 1) < 2 := by rw [Nat.div_lt_iff_lt_mul (by positivity)]; omega
  rw [bitOf, Nat.shiftRight_eq_div_pow, Nat.mod_eq_of_lt hdiv, Bool.eq_iff_iff, beq_iff_eq, decide_eq_true_eq,
    ← Nat.one_le_div_iff (by positivity)]
  omega

/-- The model rounds a stage's result as the claims do. -/
theorem round_eq_stageRound (f : StageF) (u : Nat) (x : FVal) : f.round u x = stageRound f u x := rfl

/-! Draws -/

theorem drawAt_zero (f : StageF) (l : BitVec 32) : drawAt f l 0 = (if f.rnd = 5 then lfsrNext l else l).toNat := by
  unfold drawAt
  split <;> rfl

theorem drawAt_succ (f : StageF) (l : BitVec 32) (i : Nat) : drawAt f l (i + 1) = drawAt f (if f.rnd = 5 then lfsrNext l else l) i := by
  unfold drawAt
  split
  · rw [Function.iterate_succ_apply]
  · rfl

/-- A rounding over elements takes the elements' draws in order. -/
theorem drawMap_fst {α : Type} (f : StageF) (g : Nat → Nat → α) (h : Nat → Nat) (n : Nat) (l : BitVec 32) :
    (drawMap (f.rnd == 5) g ((List.range n).map h) l).1 = (List.range n).map fun i => g (drawAt f l i) (h i) := by
  induction n generalizing h l with
  | zero => rfl
  | succ n ih =>
    simp only [List.range_succ_eq_map, List.map_cons, List.map_map, drawMap, drawAt_zero, beq_iff_eq]
    congr 1
    refine (ih (h ∘ Nat.succ) _).trans (List.map_congr_left fun i _ => ?_)
    simp only [Function.comp_apply, Nat.succ_eq_add_one, drawAt_succ]

theorem drawMap_range {α : Type} (f : StageF) (g : Nat → Nat → α) (n : Nat) (l : BitVec 32) :
    (drawMap (f.rnd == 5) g (List.range n) l).1 = (List.range n).map fun i => g (drawAt f l i) i := by
  have hdraws := drawMap_fst f g id n l
  rwa [List.map_id] at hdraws

theorem drawMap_snd {α : Type} (g : Nat → Nat → α) (xs : List Nat) (l : BitVec 32) : (drawMap true g xs l).2 = lfsrNext^[xs.length] l := by
  induction xs generalizing l with
  | nil => rfl
  | cons x r ih => simp [drawMap, ih]

/-- A rounding over the elements of two flits. -/
theorem drawMap_pairs (f : StageF) (e : Nat → Nat → Nat → Nat) (t : Nat) (a b : BitVec 512) (l : BitVec 32) :
    (drawMap (f.rnd == 5) (fun u i => e u ((elems t a).getD i 0) ((elems t b).getD i 0)) (List.range (tagElems t)) l).1 =
      (List.range (tagElems t)).map fun k => e (drawAt f l k) (elemAt t a k) (elemAt t b k) := by
  rw [drawMap_range]
  refine List.map_congr_left fun i hi => ?_
  rw [getD_elems _ _ (List.mem_range.1 hi), getD_elems _ _ (List.mem_range.1 hi)]

/-- A rounding over the elements of a flit. -/
theorem drawMap_elems {α : Type} (f : StageF) (g : Nat → Nat → α) (t : Nat) (d : BitVec 512) (l : BitVec 32) :
    (drawMap (f.rnd == 5) g (elems t d) l).1 = (List.range (tagElems t)).map fun k => g (drawAt f l k) (elemAt t d k) := by
  rw [elems_eq_map, drawMap_fst]

/-- A stage's LFSR after a rounding over elements: as many steps as elements. -/
theorem drew_eq {α : Type} (s : State) (c n : Nat) (f : StageF) (g : Nat → Nat → α) (xs : List Nat) {l : BitVec 32}
    (hl : (s.cp c).lfsrOf n = l) :
    (if f.rnd = 5 then s.modCp c fun p => { p with lfsr := smPut p.lfsr n (drawMap (f.rnd == 5) g xs l).2 } else s) =
      drew s c n xs.length f := by
  subst hl
  unfold drew
  split
  · next h => exact State.modCp_congr s c (by simp only [h, beq_self_eq_true, drawMap_snd])
  · rfl

/-- The LFSR of a stage that has taken its operands, after a rounding over elements. -/
theorem drew_stageTook {α : Type} (s : State) (c n : Nat) (f : StageF) (g : Nat → Nat → α) (xs : List Nat) :
    (if f.rnd = 5 then (stageTook s c n).modCp c fun p =>
      { p with lfsr := smPut p.lfsr n (drawMap (f.rnd == 5) g xs ((s.cp c).lfsrOf n)).2 } else stageTook s c n) =
      drew (stageTook s c n) c n xs.length f :=
  drew_eq _ c n f g xs ((stageTook_keepsWork s c n).lfsrOf n)

end Sys2Proof.Machine

/-! Integer and floating stages (R16, R96, R97): an element op runs on the elements of the two operands. -/

namespace Sys2Proof.Machine

open Sys2Proof.Claims

/-! What each element stage runs -/

theorem exec_stageMul (c : Nat) (s : State) : exec (.stageMul c) s = execStageMul c s := rfl
theorem exec_stageMulk (c : Nat) (s : State) : exec (.stageMulk c) s = execStageMulk c s := rfl
theorem exec_stageFmul (c : Nat) (s : State) : exec (.stageFmul c) s = execStageFmul c s := rfl
theorem exec_stageFmulk (c : Nat) (s : State) : exec (.stageFmulk c) s = execStageFmulk c s := rfl
theorem exec_stageAdd (c : Nat) (s : State) : exec (.stageAdd c) s = execStageAdd c s := rfl
theorem exec_stageAddk (c : Nat) (s : State) : exec (.stageAddk c) s = execStageAddk c s := rfl
theorem exec_stageFadd (c : Nat) (s : State) : exec (.stageFadd c) s = execStageFadd c s := rfl
theorem exec_stageFaddk (c : Nat) (s : State) : exec (.stageFaddk c) s = execStageFaddk c s := rfl
theorem exec_stageShl (c : Nat) (s : State) : exec (.stageShl c) s = execStageShl c s := rfl
theorem exec_stageShr (c : Nat) (s : State) : exec (.stageShr c) s = execStageShr c s := rfl
theorem exec_stageSra (c : Nat) (s : State) : exec (.stageSra c) s = execStageSra c s := rfl
theorem exec_stageRshr (c : Nat) (s : State) : exec (.stageRshr c) s = execStageRshr c s := rfl
theorem exec_stageCmpeq (c : Nat) (s : State) : exec (.stageCmpeq c) s = execStageCmpeq c s := rfl
theorem exec_stageCmplt (c : Nat) (s : State) : exec (.stageCmplt c) s = execStageCmplt c s := rfl
theorem exec_stageFcmplt (c : Nat) (s : State) : exec (.stageFcmplt c) s = execStageFcmplt c s := rfl
theorem exec_stageClamp (c : Nat) (s : State) : exec (.stageClamp c) s = execStageClamp c s := rfl
theorem exec_stageFclamp (c : Nat) (s : State) : exec (.stageFclamp c) s = execStageFclamp c s := rfl
theorem exec_stageRelu (c : Nat) (s : State) : exec (.stageRelu c) s = execStageRelu c s := rfl
theorem exec_stageLrelu (c : Nat) (s : State) : exec (.stageLrelu c) s = execStageLrelu c s := rfl
theorem exec_stageExp2 (c : Nat) (s : State) : exec (.stageExp2 c) s = execStageExp2 c s := rfl
theorem exec_stageRcp (c : Nat) (s : State) : exec (.stageRcp c) s = execStageRcp c s := rfl
theorem exec_stageRsqrt (c : Nat) (s : State) : exec (.stageRsqrt c) s = execStageRsqrt c s := rfl
theorem exec_stageSigm (c : Nat) (s : State) : exec (.stageSigm c) s = execStageSigm c s := rfl
theorem exec_stageSat (c : Nat) (s : State) : exec (.stageSat c) s = execStageSat c s := rfl

/-- An element stage whose operands are there sends one flit, each element from its draw and the two elements at its place. -/
theorem State.elemStage_of_due {s : State} {c n op : Nat} (h : StageDue s c n op) (e : ElemOp) :
    let f := (s.cp c).stageFields n
    s.elemStage c n op e = .next ((drew (stageTook s c n) c n (tagElems f.fmt) f).emit c n
      [mkFlit (ofElems f.fmt ((List.range (tagElems f.fmt)).map fun k =>
        e f (drawAt f ((s.cp c).lfsrOf n) k) (elemAt f.fmt (opA s c n).data k) (elemAt f.fmt (opB s c n).data k))) f.fmt
        (markMax (opA s c n).mark (markB s c n))]) := by
  have hkeeps := stageTook_keepsWork s c n
  rw [State.elemStage, State.fire_of_due h]
  simp only [hkeeps.stageFields, hkeeps.lfsrOf, drawMap_pairs, drew_stageTook, List.length_range]

end Sys2Proof.Machine

namespace Sys2Proof.Claims

open Sys2Proof.Machine

/-- An element stage meets a claim whose op agrees with its own on the elements of the stage's width. -/
theorem elemStage_meets {i : Nat → Instr} {n op : Nat} {e : ElemOp} {e' : StageF → Nat → Nat → Nat → Nat}
    (hexec : ∀ c s, exec (i c) s = s.elemStage c n op e)
    (hop : ∀ (f : StageF) u a b, f.k < 2 ^ 32 → a < 2 ^ tagWidth f.fmt → b < 2 ^ tagWidth f.fmt → e f u a b = e' f u a b) :
    ElemStage i n op e' := by
  intro c s h
  rw [Runs, hexec, State.elemStage_of_due h]
  congr 5
  exact List.map_congr_left fun k _ => hop _ _ _ _ (stageFields_k_lt _ _) (elemAt_lt _ _ _) (elemAt_lt _ _ _)

/-- Settles O26: on every element each integer op of the stage is the claim's arithmetic, for the model's bit fields and clamps are that arithmetic
on the elements of the stage's width. -/
theorem integerStages : Obligations.IntegerStages := by
  unfold Obligations.IntegerStages
  dsimp only
  refine ⟨?_, ?_, ?_, ?_, ?_, ?_, ?_, ?_, ?_, ?_, ?_, ?_⟩
  · refine elemStage_meets exec_stageMul fun f u a b _ ha hb => ?_
    rw [hold_eq_stageHold, intVal_eq_stageInt _ ha, intVal_eq_stageInt _ hb]
  · refine elemStage_meets exec_stageMulk fun f u a b hk ha _ => ?_
    rw [hold_eq_stageHold, sextNat_eq_sgn ha, sextNat_eq_sgn hk]
  · refine elemStage_meets exec_stageAdd fun f u a b _ ha hb => ?_
    rw [hold_eq_stageHold, intVal_eq_stageInt _ ha, intVal_eq_stageInt _ hb]
  · refine elemStage_meets exec_stageAddk fun f u a b hk ha _ => ?_
    rw [hold_eq_stageHold, sextNat_eq_sgn ha, sextNat_eq_sgn hk]
  · refine elemStage_meets exec_stageShl fun f u a b _ ha _ => ?_
    rw [hold_eq_stageHold, sextNat_eq_sgn ha, shiftOf_eq]
  · refine elemStage_meets exec_stageShr fun f u a b _ _ _ => ?_
    rw [Nat.shiftRight_eq_div_pow, shiftOf_eq]
  · refine elemStage_meets exec_stageSra fun f u a b _ ha _ => ?_
    rw [wrapNat, sextNat_eq_sgn ha, shiftOf_eq]
  · refine elemStage_meets exec_stageRshr fun f u a b _ ha _ => ?_
    rw [hold_eq_stageHold, sextNat_eq_sgn ha, rshr, if_congr (sgn_eq_zero ha) rfl rfl]
  · refine elemStage_meets exec_stageCmpeq fun f u a b _ _ _ => ?_
    simp only [ifOnes, beq_iff_eq]
  · refine elemStage_meets exec_stageCmplt fun f u a b _ ha hb => ?_
    simp only [ifOnes, intVal_eq_stageInt _ ha, intVal_eq_stageInt _ hb, decide_eq_true_eq]
  · refine elemStage_meets exec_stageClamp fun f u a b hk ha _ => ?_
    rw [hold_eq_stageHold, sextNat_eq_sgn ha, sextNat_low, sextNat_eq_sgn (v := f.k / 2 ^ 16) (by omega)]
  · refine elemStage_meets exec_stageSat fun f u a b _ ha _ => ?_
    rw [wrapNat, clampInt_eq, intVal_eq_stageInt _ ha]

/-- Settles O27: on every element each floating op is the claim's exact value rounded once. -/
theorem floatingStages : Obligations.FloatingStages := by
  unfold Obligations.FloatingStages
  refine ⟨?_, ?_, ?_, ?_, ?_, ?_, ?_, ?_, ?_, ?_, ?_, ?_⟩
  · exact elemStage_meets exec_stageFmul fun _ _ _ _ _ _ _ => rfl
  · exact elemStage_meets exec_stageFmulk fun _ _ _ _ _ _ _ => rfl
  · exact elemStage_meets exec_stageFadd fun _ _ _ _ _ _ _ => rfl
  · exact elemStage_meets exec_stageFaddk fun _ _ _ _ _ _ _ => rfl
  · exact elemStage_meets exec_stageFcmplt fun _ _ _ _ _ _ _ => rfl
  · exact elemStage_meets exec_stageFclamp fun _ _ _ _ _ _ _ => rfl
  · refine elemStage_meets exec_stageRelu fun f u a b _ ha _ => ?_
    rw [bitOf_top ha]
    simp only [decide_eq_true_eq]
  · refine elemStage_meets exec_stageLrelu fun f u a b _ _ _ => ?_
    simp only [Bool.or_eq_true, or_comm, round_eq_stageRound]
  · exact elemStage_meets exec_stageExp2 fun _ _ _ _ _ _ _ => rfl
  · exact elemStage_meets exec_stageRcp fun _ _ _ _ _ _ _ => rfl
  · exact elemStage_meets exec_stageRsqrt fun _ _ _ _ _ _ _ => rfl
  · exact elemStage_meets exec_stageSigm fun _ _ _ _ _ _ _ => rfl

end Sys2Proof.Claims

/-! The static mesh (R20, R111 to R114): hops, pulses, the FIFO and the line buffer; and the reset values (R12, R80). -/

namespace Sys2Proof.Machine

open Sys2Proof.Claims

theorem exec_flitHop (c out : Nat) (upset : Bool) (s : State) : exec (.flitHop c out upset) s = execFlitHop c out upset s := rfl
theorem exec_eventPulse (c out : Nat) (s : State) : exec (.eventPulse c out) s = execEventPulse c out s := rfl
theorem exec_fifoAppend (c : Nat) (s : State) : exec (.fifoAppend c) s = execFifoAppend c s := rfl
theorem exec_fifoLeave (c : Nat) (s : State) : exec (.fifoLeave c) s = execFifoLeave c s := rfl
theorem exec_linebufAppend (c : Nat) (s : State) : exec (.linebufAppend c) s = execLinebufAppend c s := rfl

/-- A flit that the neighbour's box has room for crosses the link, or, where its parity fails, is dropped, logged and faults. -/
theorem execFlitHop_link {c out m : Nat} {s : State} {x : Flit} {r : List Flit} (upset : Bool) (hgoes : s.cellGoes c = true) (hout : out < 4)
    (hbox : (s.cp c).box out = x :: r) (hm : neighbour c out = some m) (hbeat : x.beat = false)
    (hnamed : (s.cp m).named (facing out + 1) ≠ []) (hroom : (s.cp m).boxRoom ((s.cp m).named (facing out + 1)) = true) (hcol : cellCol m < 48) :
    execFlitHop c out upset s = .next (if upset || !x.parityOk then
      (((s.modCp c fun p => p.setBox out r).plog m (facing out) 0xC1).faultCell m 0xC1 0).touchCell m
      else ((s.modCp c fun p => p.setBox out r).modCp m fun p => p.intoBox ((s.cp m).named (facing out + 1)) x).touchCell c) := by
  have hcol' : ¬ 48 ≤ cellCol m := by omega
  have hsome : ((s.cp m).named (facing out + 1)).isEmpty = false := List.isEmpty_eq_false_iff.2 hnamed
  simp only [execFlitHop, State.boxMove, hgoes, hout, hbox, hm, hbeat, hroom, hcol', hsome, decide_false, Bool.not_true, Bool.not_false,
    Bool.or_self, Bool.true_and, Bool.false_eq_true, if_false, if_true, ge_iff_le]
  exact (apply_ite Host.Outcome.next _ _ _).symm

/-- A flit on the output of a cell that is no B-cell enters the cell's own box. -/
theorem execFlitHop_output {c : Nat} {s : State} {x : Flit} {r : List Flit} (hgoes : s.cellGoes c = true) (hlink : (s.cp c).link lkOut = x :: r)
    (hbeat : x.beat = false) (hparity : x.parityOk = true) (hnamed : (s.cp c).named 5 ≠ [])
    (hroom : (s.cp c).boxRoom ((s.cp c).named 5) = true) (hcell : isBCell c = false) :
    execFlitHop c 4 false s =
      .next (((s.modCp c fun p => p.setLink lkOut r).modCp c fun p => p.intoBox ((s.cp c).named 5) x).touchCell c) := by
  simp [execFlitHop, State.boxMove, hgoes, hlink, hbeat, hparity, hnamed, hroom, hcell]

/-- A pulse of several moves on to the neighbour's event box and leaves the others. -/
theorem execEventPulse_link {c out n m : Nat} {s : State} (hfind : smFind (s.cp c).events out = some n) (hout : out < 4)
    (hm : neighbour c out = some m) (hn : 2 ≤ n) :
    execEventPulse c out s = .next ((s.modCp c fun p => { p with events := smPut p.events out (n - 1) }).pulse m (facing out + 1)) := by
  have hn' : ¬ n ≤ 1 := by omega
  simp only [execEventPulse, hfind, hout, hm, hn', if_true, if_false]

/-- EGATE counts its credits up to 65,535. -/
theorem egate_succ (e : BitVec 16) : (if e = 65535 then e else e + 1) = BitVec.ofNat 16 (min 65535 (e.toNat + 1)) := by
  split
  · next h => subst h; rfl
  · next h =>
    have : e.toNat ≠ 65535 := fun hn => h (BitVec.eq_of_toNat_eq hn)
    apply BitVec.eq_of_toNat_eq
    rw [BitVec.toNat_add, BitVec.toNat_ofNat]
    have := e.isLt
    have h1 : (1 : BitVec 16).toNat = 1 := rfl
    rw [h1]
    omega

/-- The last pulse at an EGATE cell is a credit. -/
theorem execEventPulse_gate {c : Nat} {s : State} (hfind : smFind (s.cp c).events 4 = some 1) (hcell : isVCell c = true)
    (hflag : bitOf ((s.cp c).stageFields 1).flags 3 = true) (hop : (stageF ((s.cp c).stage 1)).op / 32 = 1) :
    execEventPulse c 4 s = .next ((s.modCp c fun p => { p with events := smDel p.events 4 }).modCp c fun p =>
      { p with egate := BitVec.ofNat 16 (min 65535 (p.egate.toNat + 1)) }) := by
  simp [execEventPulse, hfind, hcell, hflag, hop, ← egate_succ]

/-- A flit joins the FIFO behind those it holds; the one that makes the level pulses. -/
theorem execFifoAppend_of_room {c : Nat} {s : State} {x : Flit} {r : List Flit} (hruns : s.bRuns c 2 = true) (hin : (s.cp c).bIn = x :: r)
    (hbeat : x.beat = false) (hroom : (s.cp c).fifoTags.length < (s.cp c).mode.toNat % 2 ^ 12) :
    let p := s.cp c
    let n := p.fifoTags.length
    let u := (s.modCp c fun q => { q.bPop with fifoTags := p.fifoTags ++ [(x.fmt, x.mark)] }).setLocalLine c
      (bmBase p.mode.toNat + 64 * ((p.fifoRd + n) % (p.mode.toNat % 2 ^ 12))) x.data
    execFifoAppend c s = .next ((if n + 1 = p.mode.toNat / 2 ^ 24 % 2 ^ 12 then u.pulse c 5 else u).touchCell c) := by
  have hcap : bitsOf (s.cp c).mode.toNat 11 0 = (s.cp c).mode.toNat % 2 ^ 12 := by rw [bitsOf_eq _ (n := 12) rfl, pow_zero, Nat.div_one]
  have hlevel : bitsOf (s.cp c).mode.toNat 35 24 = (s.cp c).mode.toNat / 2 ^ 24 % 2 ^ 12 := bitsOf_eq _ rfl
  have hroom' : ¬ (s.cp c).mode.toNat % 2 ^ 12 ≤ (s.cp c).fifoTags.length := by omega
  simp only [execFifoAppend, hin, hruns, hbeat, hcap, hlevel, hroom', regionAt, decide_false, Bool.not_true, Bool.or_self,
    Bool.false_eq_true, if_false]
  rfl

/-- The oldest flit of the FIFO leaves on the cell output. -/
theorem execFifoLeave_of_room {c : Nat} {s : State} {f k : BitVec 3} {r : List (BitVec 3 × BitVec 3)} (hruns : s.bRuns c 2 = true)
    (htags : (s.cp c).fifoTags = (f, k) :: r) (hroom : ((s.cp c).link lkOut).length < 2) :
    let p := s.cp c
    execFifoLeave c s = .next ((s.modCp c fun q => { (q.setLink lkOut (q.link lkOut ++
      [mkFlit (s.localLine c (bmBase p.mode.toNat + 64 * p.fifoRd)) f.toNat k])) with
        fifoTags := r, fifoRd := (p.fifoRd + 1) % (p.mode.toNat % 2 ^ 12) }).touchCell c) := by
  have hcap : bitsOf (s.cp c).mode.toNat 11 0 = (s.cp c).mode.toNat % 2 ^ 12 := by rw [bitsOf_eq _ (n := 12) rfl, pow_zero, Nat.div_one]
  have hroom' : ¬ 2 ≤ ((s.cp c).link lkOut).length := by omega
  simp only [execFifoLeave, htags, hruns, hcap, hroom', regionAt, decide_false, Bool.not_true, Bool.or_self, Bool.false_eq_true,
    if_false]
  rfl

/-- A column that has yet to leave the line buffer goes before the next flit is taken. -/
theorem execLinebufAppend_pending {c : Nat} {s : State} {x : Flit × Nat} {r : List (Flit × Nat)} (hruns : s.bRuns c 3 = true)
    (hpend : smGet [] (s.cp c).pend 7 = x :: r) (hroom : ((s.cp c).link lkOut).length < 2) :
    execLinebufAppend c s = .next ((s.modCp c fun q =>
      { (q.setLink lkOut (q.link lkOut ++ [x.1])) with pend := if r.isEmpty then smDel q.pend 7 else smPut q.pend 7 r }).touchCell c) := by
  have hroom' : ¬ 2 ≤ ((s.cp c).link lkOut).length := by omega
  simp only [execLinebufAppend, hpend, hruns, hroom', decide_false, Bool.not_true, Bool.or_self, Bool.false_eq_true, if_false]

/-- The flits of a column: the held lines from the oldest, the arriving flit's mark on the last. -/
theorem column_eq (g : Nat → BitVec 512) (t line lines : Nat) (mark : BitVec 3) (h : lines ≤ line) :
    (upFrom (line - lines) lines).map (fun l => mkFlit (g l) t (if l + 1 = line then mark else 0)) =
      (List.range lines).map fun i => mkFlit (g (line - lines + i)) t (if i + 1 = lines then mark else 0) := by
  rw [upFrom, List.map_map]
  refine List.map_congr_left fun i _ => ?_
  have hlast : line - lines + i + 1 = line ↔ i + 1 = lines := by omega
  simp only [Function.comp_apply, hlast]

/-- A flit fills its line of the buffer and sends the column of the held lines. -/
theorem execLinebufAppend_arrives {c : Nat} {s : State} {x : Flit} {r : List Flit} (hruns : s.bRuns c 3 = true)
    (hpend : smGet [] (s.cp c).pend 7 = []) (hin : (s.cp c).bIn = x :: r) (hbeat : x.beat = false) (hroom : ((s.cp c).link lkOut).length < 2) :
    let p := s.cp c
    let per := bitsOf p.mode.toNat 47 36 / 16
    let lines := bitsOf p.mode.toNat 35 24
    let place (l : Nat) : Nat := bmBase p.mode.toNat + 64 * (l % lines * per + p.fifoRd % per)
    let line := p.fifoRd / per
    let group := if line < lines then [] else (List.range lines).map fun i =>
      mkFlit (s.localLine c (place (line - lines + i))) x.tag (if i + 1 = lines then x.mark else 0)
    execLinebufAppend c s = .next (((s.modCp c fun q => { (q.bPop.setLink lkOut (q.link lkOut ++ group.take 1)) with
      fifoRd := p.fifoRd + 1, pend := if (group.drop 1).isEmpty then q.pend else smPut q.pend 7 ((group.drop 1).map fun x => (x, 0)) }).setLocalLine
      c (place line) x.data).touchCell c) := by
  have hroom' : ¬ 2 ≤ ((s.cp c).link lkOut).length := by omega
  simp only [execLinebufAppend, hpend, hin, hruns, hbeat, hroom', regionAt, decide_false, Bool.not_true, Bool.or_self,
    Bool.false_eq_true, if_false, List.isEmpty_map]
  split
  · rfl
  · next h => rw [column_eq _ _ _ _ _ (Nat.le_of_not_lt h)]

end Sys2Proof.Machine

namespace Sys2Proof.Claims

open Sys2Proof.Machine

/-- Settles O31, one clause for each of the mesh's meanings where it happens. -/
theorem staticMesh : Obligations.StaticMesh := by
  unfold Obligations.StaticMesh
  refine ⟨?_, ?_, ?_, ?_, ?_, ?_, ?_, ?_⟩
  · intro c out s x r m hgoes hout hbox hm hbeat hnamed hroom hcol
    refine ⟨fun hparity => ?_, ?_⟩ <;> rw [Runs, exec_flitHop, execFlitHop_link _ hgoes hout hbox hm hbeat hnamed hroom hcol]
    · rw [hparity]; rfl
    · rfl
  · intro c s x r hgoes hlink hbeat hparity hnamed hroom hcell
    exact execFlitHop_output hgoes hlink hbeat hparity hnamed hroom hcell
  · intro c out s n m hfind hout hm hn
    exact execEventPulse_link hfind hout hm hn
  · intro c s hfind hcell hflag hop
    exact ⟨_, rfl, execEventPulse_gate hfind hcell hflag hop⟩
  · intro c s x r hruns hin hbeat hroom
    exact execFifoAppend_of_room hruns hin hbeat hroom
  · intro c s f k r hruns htags hroom
    exact execFifoLeave_of_room hruns htags hroom
  · intro c s x r hruns hpend hroom
    exact execLinebufAppend_pending hruns hpend hroom
  · intro c s x r hruns hpend hin hbeat hroom
    exact execLinebufAppend_arrives hruns hpend hin hbeat hroom

/-- Settles O54: the tables of the reset state are empty, so that every lookup answers what an unlisted entry reads as. -/
theorem resetValues : Obligations.ResetValues := by
  unfold Obligations.ResetValues
  exact ⟨fun _ => ⟨rfl, rfl, rfl, rfl, rfl, rfl, rfl, rfl, rfl, rfl⟩, fun _ _ => rfl, fun _ => rfl, rfl, rfl, fun _ => ⟨rfl, rfl⟩, rfl⟩

end Sys2Proof.Claims

/-! Loads that the tile cache answers and stores that the store buffer takes (R57 to R59, R205, R208, R215). -/

namespace Sys2Proof.Machine

open Sys2Proof.Claims

/-! A sequencer as an agent (R220) -/

/-- The die, row and column of an agent's number read back. -/
theorem agent_parts (d : Nat) {r q : Nat} (hr : r < 10) (hq : q < 10) :
    (d * 2 ^ 16 + (80 + r) * 2 ^ 8 + 8 * q) / 2 ^ 16 = d ∧ (d * 2 ^ 16 + (80 + r) * 2 ^ 8 + 8 * q) / 2 ^ 8 % 2 ^ 8 = 80 + r ∧
      (d * 2 ^ 16 + (80 + r) * 2 ^ 8 + 8 * q) % 2 ^ 8 / 8 = q := by omega

theorem seqAgent_lt {t : Nat} (ht : t < 1600) : seqAgent t < 2 ^ 33 := by
  simp only [seqAgent, tileDie, tileLocal]
  omega

theorem agentIsSeq_seqAgent (t : Nat) : agentIsSeq (seqAgent t) = true := by
  obtain ⟨-, hrow, -⟩ := agent_parts (tileDie t) (r := tileLocal t / 10) (q := tileLocal t % 10) (by simp only [tileLocal]; omega) (by omega)
  rw [agentIsSeq, seqAgent, hrow]
  exact decide_eq_true (by omega)

theorem agentTile_seqAgent {t : Nat} (ht : t < 1600) : agentTile (seqAgent t) = t := by
  have hlt := seqAgent_lt ht
  obtain ⟨hdie, hrow, hcol⟩ := agent_parts (tileDie t) (r := tileLocal t / 10) (q := tileLocal t % 10) (by simp only [tileLocal]; omega) (by omega)
  rw [agentTile, if_neg (by omega), agentIsSeq_seqAgent, if_pos rfl, seqAgent, hdie, hrow, hcol]
  simp only [tileNo, tileDie, tileLocal]
  omega

theorem State.ldOf_seqAgent (s : State) {t : Nat} (ht : t < 1600) : s.ldOf (seqAgent t) = (s.getTile t).ld := by
  have hlt := seqAgent_lt ht
  rw [State.ldOf, if_neg (by omega), agentIsSeq_seqAgent, agentTile_seqAgent ht, if_pos rfl]

theorem State.modLd_seqAgent (s : State) {t : Nat} (ht : t < 1600) (f : LoadSt → LoadSt) :
    s.modLd (seqAgent t) f = s.modTile t fun x => { x with ld := f x.ld } := by
  have hlt := seqAgent_lt ht
  rw [State.modLd, if_neg (by omega), agentIsSeq_seqAgent, agentTile_seqAgent ht, if_pos rfl]

theorem State.sbufOf_seqAgent (s : State) {t : Nat} (ht : t < 1600) : s.sbufOf (seqAgent t) = (s.getTile t).sbuf := by
  rw [State.sbufOf, agentIsSeq_seqAgent, agentTile_seqAgent ht, if_pos rfl]

theorem State.setSbuf_seqAgent (s : State) {t : Nat} (ht : t < 1600) (b : List StoreEnt) :
    s.setSbuf (seqAgent t) b = s.modTile t fun x => { x with sbuf := b } := by
  rw [State.setSbuf, agentIsSeq_seqAgent, agentTile_seqAgent ht, if_pos rfl]

theorem State.setSpin_seqAgent (s : State) {t : Nat} (ht : t < 1600) (y : Spin) :
    s.setSpin (seqAgent t) y = s.modTile t fun x => { x with spin := y } := by
  rw [State.setSpin, agentIsSeq_seqAgent, agentTile_seqAgent ht, if_pos rfl]

/-! Changes of a tile -/

theorem State.ra_modCur (s : State) (f : Tile → Tile) (r : BitVec 4) : (s.modCur f).ra r = (f s.cur).reg r := by
  rw [State.ra, State.cur_modCur]

/-- A step that goes on keeps its registers. -/
theorem State.ra_nextStep (s : State) (r : BitVec 4) : s.nextStep.ra r = s.ra r := by
  rw [State.ra, State.cur_nextStep]
  rfl

/-- Two changes of a tile are one. -/
theorem State.modTile_modTile (s : State) (t : Nat) (f g : Tile → Tile) : (s.modTile t f).modTile t g = s.modTile t fun x => g (f x) := by
  simp [State.modTile, State.setTile, State.getTile]

/-- A change of a tile that keeps its owner leaves what the cells' active planes hold. -/
theorem State.cp_modTile (s : State) (t : Nat) {f : Tile → Tile} (howner : (f (s.getTile t)).owner = (s.getTile t).owner) (c : Nat) :
    (s.modTile t f).cp c = s.cp c := by
  have hown (k : Nat) : (s.modTile t f).owner? k = s.owner? k := by
    rw [State.owner?, State.owner?, State.getTile_modTile]
    split
    · next h => rw [h, howner]
    · rfl
  simp only [State.cp, State.planeNo, hown, State.launch?, State.modTile_launches, State.getCell, State.modTile_cells]

/-- A change of a tile that keeps its owner and special registers leaves the bounds of every target. -/
theorem State.boundFault_modTile (s : State) (t : Nat) {f : Tile → Tile} (howner : (f (s.getTile t)).owner = (s.getTile t).owner)
    (hspr : (f (s.getTile t)).spr = (s.getTile t).spr) (x : Target) (n : Nat) (w : Bool) :
    (s.modTile t f).boundFault x n w = s.boundFault x n w := by
  have hdie (d : Nat) : (s.modTile t f).getDie d = s.getDie d := rfl
  have hmode (c : Nat) : (s.modTile t f).bMode c = s.bMode c := by rw [State.bMode, State.bMode, State.cp_modTile s t howner]
  have hcarved (c : Nat) : (s.modTile t f).carved c = s.carved c := by
    rw [State.carved, State.carved, State.getTile_modTile]
    split
    · next h => rw [h, hspr]
    · rfl
  simp only [State.boundFault, hdie, hmode, hcarved]

/-- A change of a tile that keeps its store buffer leaves the dirty sectors. -/
theorem State.dirty_modTile (s : State) (t : Nat) {f : Tile → Tile} (hsbuf : (f (s.getTile t)).sbuf = (s.getTile t).sbuf) (k flat n : Nat) :
    (s.modTile t f).dirty k flat n = s.dirty k flat n := by
  have hbuf : ((s.modTile t f).getTile k).sbuf = (s.getTile k).sbuf := by
    rw [State.getTile_modTile]
    split
    · next h => rw [h, hsbuf]
    · rfl
  simp only [State.dirty, hbuf, State.modTile_cells]

/-! Reaching a target through the translation cache (R205, R208) -/

/-- An access of the acting sequencer whose leaf is in the translation cache, and which no check of R208 refuses, reaches the leaf's target. -/
theorem State.reach_of_leaf {s : State} {va n : Nat} {e : TlbEnt} {need : Need} {types : BitVec 3 → Option Nat} (htile : s.tile < 1600)
    (hva : va < 2 ^ 56) (halign : va % n = 0) (hld : s.cur.ld = LoadSt.empty) (hleaf : tlbFind s.cur s.vmid va = some e)
    (hperm : permOk need e.pte = true) (htype : types (leafTarget e.pte e.size va).ty = none)
    (hbound : s.boundFault (leafTarget e.pte e.size va) n (need == .w || need == .rw) = none) :
    s.reach s.me s.vmid va n n need types = .ok (leafTarget e.pte e.size va) (s.modCur fun t => tlbUse t e) := by
  have hva' : ¬ 2 ^ 56 ≤ va := by omega
  have hcur : s.getTile s.tile = s.cur := rfl
  have htrans : s.translate s.me s.vmid va = .ok e.pte e.size (s.modCur fun t => tlbUse t e) := by
    rw [State.translate, State.me, State.ldOf_seqAgent s htile, agentTile_seqAgent htile, hcur, hld, hleaf]
    rfl
  have hbound' : (s.modCur fun t => tlbUse t e).boundFault (leafTarget e.pte e.size va) n (need == .w || need == .rw) = none := by
    rw [State.modCur, State.boundFault_modTile s s.tile rfl rfl, hbound]
  simp only [State.reach, ge_iff_le, hva', halign, htrans, hperm, htype, hbound', if_false, ne_eq, not_true_eq_false, Bool.not_true,
    Bool.false_eq_true]

/-! Loads -/

/-- A hit counts in the agent's repetition count alone (R230). -/
theorem State.countHit_eq (s : State) (a line : Nat) (rts : BitVec 32) : ∃ x, s.countHit a line rts = s.setSpin a x := by
  unfold State.countHit
  dsimp only
  exact ⟨_, (apply_ite (s.setSpin a) _ _ _).symm⟩

/-- A line that the tile cache holds, whose lease covers the clock and to which no store is on its way, answers a load (R215). -/
theorem State.loadLine_of_held {s : State} {t flat n : Nat} {l : CLine} (ht : t < 1600) (hld : (s.getTile t).ld = LoadSt.empty)
    (hrebasing : s.rebasing = false) (hdirty : s.dirty t flat n = false) (hline : smFind (s.getTile t).lines (flat / 64 * 64) = some l)
    (hwts : l.wts.toNat ≤ (s.getTile t).spr.lclk.toNat) (hrts : (s.getTile t).spr.lclk.toNat ≤ l.rts.toNat) (owner : Nat) :
    ∃ sp ld, s.loadLine (seqAgent t) owner flat n =
      .val (lineBytes (overlay (s.getTile t).sbuf (flat / 64 * 64) l.data) (flat % 64) n) (s.modTile t fun x => { x with spin := sp, ld := ld }) := by
  obtain ⟨sp, hsp⟩ := State.countHit_eq s (seqAgent t) (flat / 64 * 64) l.rts
  have hnone : smFind (s.ldOf (seqAgent t)).lines (flat / 64 * 64) = none := by rw [State.ldOf_seqAgent s ht, hld]; rfl
  have hfree : (s.ldOf (seqAgent t)).waiting = false := by rw [State.ldOf_seqAgent s ht, hld]; rfl
  have hoff : flat - flat / 64 * 64 = flat % 64 := by omega
  refine ⟨sp, { (s.getTile t).ld with lines := smPut (s.getTile t).ld.lines (flat / 64 * 64) l.data }, ?_⟩
  simp only [State.loadLine, hnone, hfree, agentTile_seqAgent ht, hrebasing, hdirty, hline, hwts, hrts, hoff, hsp, State.setSpin_seqAgent s ht,
    State.modLd_seqAgent _ ht, State.modTile_modTile, State.sbufOf_seqAgent _ ht, State.getTile_modTile, if_true, Bool.or_self,
    Bool.false_eq_true, if_false, decide_true, Bool.and_self]
  rfl

/-- A load that the tile cache answers returns the line's bytes; of its tile it changes the order of the translation cache, the repetition count and
what the load has gathered. -/
theorem State.load_of_hit {s : State} {va n : Nat} {e : TlbEnt} {l : CLine} (h : LoadHit s va n e l) :
    ∃ sp ld, s.load s.me s.unitNo s.vmid va n = .val (hitValue s va n e l) (s.modCur fun t => { tlbUse t e with spin := sp, ld := ld }) := by
  obtain ⟨htile, hva, halign, hld, hleaf, hperm, hty, hexcl, hrebasing, hdirty, hline, hwts, hrts⟩ := h
  have hbound : s.boundFault (leafTarget e.pte e.size va) n false = none := by simp [State.boundFault, hty, hexcl]
  have hplain : plainType (leafTarget e.pte e.size va).ty = none := by rw [hty]; rfl
  have hreach := State.reach_of_leaf (need := .r) (types := plainType) htile hva halign hld hleaf hperm hplain hbound
  have hcur : (s.modCur fun t => tlbUse t e).getTile s.tile = tlbUse s.cur e := by simp
  have hdirty' := (State.dirty_modTile s s.tile (f := fun t => tlbUse t e) rfl s.tile (leafTarget e.pte e.size va).flat n).trans hdirty
  obtain ⟨sp, ld, hload⟩ := State.loadLine_of_held (s := s.modCur fun t => tlbUse t e) htile (by rw [hcur]; exact hld) hrebasing hdirty'
    (by rw [hcur]; exact hline) (by rw [hcur]; exact hwts) (by rw [hcur]; exact hrts) s.unitNo
  refine ⟨sp, ld, ?_⟩
  rw [hcur, State.modCur, State.modTile_modTile] at hload
  simp only [State.load, hreach, hty, if_true]
  exact hload

/-- What a load leaves of the rest of the module, whatever it writes into the registers of its tile. -/
theorem loadKeeps_of_hit (s : State) (e : TlbEnt) (sp : Spin) (ld : LoadSt) (w : Tile → Tile) (hw : ∀ t, w t = { t with a := (w t).a, m := (w t).m }) :
    LoadKeeps s ((s.modCur fun t => { tlbUse t e with spin := sp, ld := ld }).modCur w).nextStep := by
  refine ⟨fun _ => by simp, by simp, by simp, by simp, by simp, by simp, by simp, fun k hk => ?_, ?_⟩
  · rw [State.getTile_nextStep_of_ne _ (by simpa using hk)]
    simp [hk]
  · rw [State.cur_nextStep, State.cur_modCur, State.cur_modCur, hw]
    rfl

/-! Stores -/

/-- A store that no check refuses enters the store buffer, where it has room. -/
theorem State.storeStep_of_ready {s : State} {va n : Nat} {e : TlbEnt} (h : StoreReady s va n e) (v : Nat) :
    s.storeStep va n v = .next (s.modCur fun t => { tlbUse t e with sbuf := s.cur.sbuf ++ [⟨va, (leafTarget e.pte e.size va).flat,
      (leafTarget e.pte e.size va).ty, (leafTarget e.pte e.size va).home, n, BitVec.ofNat 512 v, s.unitNo, 0, false⟩] }).nextStep := by
  obtain ⟨htile, hva, halign, hld, hleaf, hperm, hbound, hsync, hroom⟩ := h
  have hreach := State.reach_of_leaf (need := .w) (types := anyType) htile hva halign hld hleaf hperm rfl hbound
  have hroom' : ¬ 8 ≤ s.cur.sbuf.length := by omega
  have hsbuf : (s.modCur fun t => tlbUse t e).cur.sbuf = s.cur.sbuf := by rw [State.cur_modCur]; rfl
  have hunit : (s.modCur fun t => tlbUse t e).unitNo = s.unitNo := by rw [State.unitNo, State.cur_modCur]; rfl
  have hput : (s.modCur fun t => tlbUse t e).putStore (s.modCur fun t => tlbUse t e).me s.unitNo va (leafTarget e.pte e.size va) n v =
      s.modCur fun t => { tlbUse t e with sbuf := s.cur.sbuf ++ [⟨va, (leafTarget e.pte e.size va).flat,
        (leafTarget e.pte e.size va).ty, (leafTarget e.pte e.size va).home, n, BitVec.ofNat 512 v, s.unitNo, 0, false⟩] } := by
    rw [State.putStore, State.me, State.modCur_tile, State.setSbuf_seqAgent _ htile, State.sbufOf_seqAgent _ htile, State.modCur, State.modTile_modTile,
      State.getTile_modTile, if_pos rfl]
    rfl
  simp only [State.storeStep, hreach, hsync, hsbuf, hroom', hunit, hput, decide_false, Bool.false_and, Bool.false_eq_true, if_false]

end Sys2Proof.Machine

namespace Sys2Proof.Claims

open Sys2Proof.Machine

/-! Each load and store form runs a load step or a store step -/

theorem exec_ld8 (d a : BitVec 4) (i : BitVec 40) (s : State) : exec (.ld8 d a i) s = s.loadStep d a i 1 zext64 := rfl
theorem exec_ld16 (d a : BitVec 4) (i : BitVec 40) (s : State) : exec (.ld16 d a i) s = s.loadStep d a i 2 zext64 := rfl
theorem exec_ld32 (d a : BitVec 4) (i : BitVec 40) (s : State) : exec (.ld32 d a i) s = s.loadStep d a i 4 zext64 := rfl
theorem exec_ld64 (d a : BitVec 4) (i : BitVec 40) (s : State) : exec (.ld64 d a i) s = s.loadStep d a i 8 zext64 := rfl
theorem exec_lds8 (d a : BitVec 4) (i : BitVec 40) (s : State) : exec (.lds8 d a i) s = s.loadStep d a i 1 (sext64 8) := rfl
theorem exec_lds16 (d a : BitVec 4) (i : BitVec 40) (s : State) : exec (.lds16 d a i) s = s.loadStep d a i 2 (sext64 16) := rfl
theorem exec_lds32 (d a : BitVec 4) (i : BitVec 40) (s : State) : exec (.lds32 d a i) s = s.loadStep d a i 4 (sext64 32) := rfl
theorem exec_patLd (m : BitVec 3) (a : BitVec 4) (i : BitVec 40) (s : State) : exec (.patLd m a i) s = execPatLd m a i s := rfl
theorem exec_st8 (d a : BitVec 4) (i : BitVec 40) (s : State) :
    exec (.st8 d a i) s = s.storeStep (s.ea a i) 1 ((s.ra d).toNat % 2 ^ 8) := rfl
theorem exec_st16 (d a : BitVec 4) (i : BitVec 40) (s : State) :
    exec (.st16 d a i) s = s.storeStep (s.ea a i) 2 ((s.ra d).toNat % 2 ^ 16) := rfl
theorem exec_st32 (d a : BitVec 4) (i : BitVec 40) (s : State) :
    exec (.st32 d a i) s = s.storeStep (s.ea a i) 4 ((s.ra d).toNat % 2 ^ 32) := rfl
theorem exec_st64 (d a : BitVec 4) (i : BitVec 40) (s : State) :
    exec (.st64 d a i) s = s.storeStep (s.ea a i) 8 ((s.ra d).toNat % 2 ^ 64) := rfl
theorem exec_patSt (m : BitVec 3) (a : BitVec 4) (i : BitVec 40) (s : State) :
    exec (.patSt m a i) s = s.storeStep (s.ea a i) 32 s.cur.m[m.toNat].toNat := rfl

/-- A sign extension from the low bits of a value. -/
theorem sext64_eq_signExtend {n : Nat} (hn : 0 < n) (v : Nat) : sext64 n v = (BitVec.ofNat n v).signExtend 64 := by
  have hhalf : 2 ^ n = 2 * 2 ^ (n - 1) := by rw [← pow_succ', Nat.sub_add_cancel hn]
  rw [sext64, BitVec.signExtend, BitVec.toInt_eq_toNat_cond, BitVec.toNat_ofNat, sextNat]
  congr 1
  have hiff : v % 2 ^ n < 2 ^ (n - 1) ↔ 2 * (v % 2 ^ n) < 2 ^ n := by omega
  simp only [hiff, Nat.cast_pow, Nat.cast_ofNat]

/-- A load step meets the claim of its form where the two extensions agree. -/
theorem loads_of_loadStep {mk : BitVec 4 → BitVec 4 → BitVec 40 → Instr} {n : Nat} {ext ext' : Nat → Word}
    (hexec : ∀ d a i s, exec (mk d a i) s = s.loadStep d a i n ext') (hext : ∀ v, ext' v = ext v) : Loads mk n ext := by
  intro d a i s e l h
  obtain ⟨sp, ld, hload⟩ := State.load_of_hit h
  have hea : s.ea a i = (s.ra a + BitVec.ofInt 64 i.toInt).toNat := rfl
  refine ⟨_, ?_, loadKeeps_of_hit s e sp ld (fun t => t.setReg d (ext (hitValue s (s.ra a + BitVec.ofInt 64 i.toInt).toNat n e l))) fun _ => rfl,
    ?_, ?_, ?_⟩
  · rw [Runs, hexec, State.loadStep, hea, hload, ← hext]
    rfl
  · rw [State.cur_nextStep, State.cur_modCur, State.cur_modCur]
    rfl
  · rw [State.ra_nextStep, State.ra_modCur, Tile.reg_setReg, if_pos rfl]
  · intro r hr
    rw [State.ra_nextStep, State.ra_modCur, Tile.reg_setReg, if_neg hr, State.cur_modCur]
    rfl

/-- PAT.LD of a record that passes its check writes it into the pattern register. -/
theorem patLd_of_hit (m : BitVec 3) (a : BitVec 4) (i : BitVec 40) (s : State) (e : TlbEnt) (l : CLine)
    (h : LoadHit s (s.ra a + BitVec.ofInt 64 i.toInt).toNat 32 e l)
    (hok : (Pattern.ofNat (hitValue s (s.ra a + BitVec.ofInt 64 i.toInt).toNat 32 e l)).ok = true) :
    ∃ t, Runs (.patLd m a i) s t ∧ LoadKeeps s t ∧ (∀ r, t.ra r = s.ra r) ∧
      t.cur.m = s.cur.m.set m.toNat (Pattern.ofNat (hitValue s (s.ra a + BitVec.ofInt 64 i.toInt).toNat 32 e l)) := by
  obtain ⟨sp, ld, hload⟩ := State.load_of_hit h
  have hea : s.ea a i = (s.ra a + BitVec.ofInt 64 i.toInt).toNat := rfl
  refine ⟨_, ?_, loadKeeps_of_hit s e sp ld (fun t => { t with m := t.m.set m.toNat (Pattern.ofNat
    (hitValue s (s.ra a + BitVec.ofInt 64 i.toInt).toNat 32 e l)) }) fun _ => rfl, ?_, ?_⟩
  · rw [Runs, exec_patLd, execPatLd, hea, hload]
    simp only [hok, if_true]
  · intro r
    rw [State.ra_nextStep, State.ra_modCur, State.cur_modCur]
    rfl
  · rw [State.cur_nextStep, State.cur_modCur, State.cur_modCur]
    rfl

/-- A load of eight bytes at an address that is not a multiple of 8 traps. -/
theorem ld64_misaligned (d a : BitVec 4) (i : BitVec 40) (s : State) (hva : (s.ra a + BitVec.ofInt 64 i.toInt).toNat < 2 ^ 56)
    (halign : (s.ra a + BitVec.ofInt 64 i.toInt).toNat % 8 ≠ 0) :
    Runs (.ld64 d a i) s (s.faultLaunch s.unitNo 0x22 s.tile (s.ra a + BitVec.ofInt 64 i.toInt).toNat) := by
  have hea : s.ea a i = (s.ra a + BitVec.ofInt 64 i.toInt).toNat := rfl
  have hva' : ¬ 2 ^ 56 ≤ (s.ra a + BitVec.ofInt 64 i.toInt).toNat := by omega
  have hload : s.load s.me s.unitNo s.vmid (s.ra a + BitVec.ofInt 64 i.toInt).toNat 8 = .fault 0x22 := by
    rw [State.load, State.reach, if_neg hva', if_pos halign]
  rw [Runs, exec_ld64, State.loadStep, hea, hload]
  rfl

/-- A store step meets the claim of its form. -/
theorem stores_of_storeStep {i : Instr} {va v : State → Nat} {n : Nat} (hexec : ∀ s, exec i s = s.storeStep (va s) n (v s)) : Stores i va n v := by
  intro s e h
  refine ⟨_, (hexec s).trans (State.storeStep_of_ready h (v s)), fun _ => by simp, by simp, by simp, by simp, by simp, fun k hk => ?_, ?_⟩
  · rw [State.getTile_nextStep_of_ne _ (by simpa using hk)]
    simp [hk]
  · dsimp only
    rw [State.cur_nextStep, State.cur_modCur]
    rfl

/-- Settles O3: each load form is a load step whose line answers, each store form a store step whose buffer has room. -/
theorem loadsAndStores : Obligations.LoadsAndStores := by
  unfold Obligations.LoadsAndStores
  refine ⟨⟨?_, ?_, ?_, ?_, ?_, ?_, ?_, ?_, ?_⟩, ?_, ?_, ?_, ?_, ?_⟩
  · exact loads_of_loadStep exec_ld8 fun _ => rfl
  · exact loads_of_loadStep exec_ld16 fun _ => rfl
  · exact loads_of_loadStep exec_ld32 fun _ => rfl
  · exact loads_of_loadStep exec_ld64 fun _ => rfl
  · exact loads_of_loadStep exec_lds8 (sext64_eq_signExtend (by decide))
  · exact loads_of_loadStep exec_lds16 (sext64_eq_signExtend (by decide))
  · exact loads_of_loadStep exec_lds32 (sext64_eq_signExtend (by decide))
  · exact patLd_of_hit
  · exact ld64_misaligned
  · exact fun d a i => stores_of_storeStep (exec_st8 d a i)
  · exact fun d a i => stores_of_storeStep (exec_st16 d a i)
  · exact fun d a i => stores_of_storeStep (exec_st32 d a i)
  · intro d a i
    refine stores_of_storeStep fun s => (exec_st64 d a i s).trans ?_
    rw [Nat.mod_eq_of_lt (s.ra d).isLt]
    rfl
  · exact fun m a i => stores_of_storeStep (exec_patSt m a i)

end Sys2Proof.Claims

/-! Stages on whole flits (R93, R96 to R98, R180). -/

namespace Sys2Proof.Machine

open Sys2Proof.Claims

/-! What each stage runs -/

theorem exec_stageEmpty (c n : Nat) (s : State) : exec (.stageEmpty c n) s = execStageEmpty c n s := rfl
theorem exec_stagePass (c : Nat) (s : State) : exec (.stagePass c) s = execStagePass c s := rfl
theorem exec_stageCvt (c : Nat) (s : State) : exec (.stageCvt c) s = execStageCvt c s := rfl
theorem exec_stageShuf (c : Nat) (s : State) : exec (.stageShuf c) s = execStageShuf c s := rfl
theorem exec_stageBcast (c : Nat) (s : State) : exec (.stageBcast c) s = execStageBcast c s := rfl
theorem exec_stageAcc (c : Nat) (s : State) : exec (.stageAcc c) s = execStageAcc c s := rfl
theorem exec_stageFacc (c : Nat) (s : State) : exec (.stageFacc c) s = execStageFacc c s := rfl
theorem exec_stageRsum (c : Nat) (s : State) : exec (.stageRsum c) s = execStageRsum c s := rfl
theorem exec_stageRmax (c : Nat) (s : State) : exec (.stageRmax c) s = execStageRmax c s := rfl
theorem exec_stageFrsum (c : Nat) (s : State) : exec (.stageFrsum c) s = execStageFrsum c s := rfl
theorem exec_stageFrmax (c : Nat) (s : State) : exec (.stageFrmax c) s = execStageFrmax c s := rfl
theorem exec_stageSel (c : Nat) (s : State) : exec (.stageSel c) s = execStageSel c s := rfl
theorem exec_stageRoute (c : Nat) (s : State) : exec (.stageRoute c) s = execStageRoute c s := rfl
theorem exec_stageStore (c : Nat) (s : State) : exec (.stageStore c) s = execStageStore c s := rfl
theorem exec_stagePack (c : Nat) (s : State) : exec (.stagePack c) s = execStagePack c s := rfl
theorem exec_stageQpack (c : Nat) (s : State) : exec (.stageQpack c) s = execStageQpack c s := rfl

/-! The shapes of a stage -/

/-- An output of an earlier firing that has yet to leave goes first, whatever the turn is for (R87). -/
theorem State.stageTurn_of_pending {s : State} {c n op : Nat} {x : Flit × Nat} {r : List (Flit × Nat)} (hruns : s.stageRuns c n op = true)
    (hdst : (s.cp c).dstFree n = true) (hpend : smGet [] (s.cp c).pend n = x :: r) (go : Out) :
    s.stageTurn c n op go = .next (((s.modCp c fun p =>
      { p with pend := if r.isEmpty then smDel p.pend n else smPut p.pend n r }).sendOut c n x).touchCell c) := by
  simp [State.stageTurn, hruns, hdst, hpend]

/-- A side flit at the head of srcA goes on ahead of the stage's own work (R86). -/
theorem State.fire_of_side {s : State} {c n op : Nat} {x : Flit} (h : StageReady s c n op) (hhead : s.head c n false = .flit x)
    (hside : x.isSide = true) (go : Flit → Flit → State → Out) :
    s.fire c n op go = .next (((s.pop c n false).emit c n [x]).touchCell c) := by
  rw [State.fire, State.stageTurn_of_ready h]
  simp [hhead, hside]

/-- A stage that rearranges a flit sends it under its own tag. -/
theorem State.flitStage_of_due {s : State} {c n op : Nat} (h : StageDue s c n op) (e : StageF → Flit → BitVec 512) :
    s.flitStage c n op e = .next ((stageTook s c n).emit c n
      [mkFlit (e ((s.cp c).stageFields n) (opA s c n)) (opA s c n).tag (markMax (opA s c n).mark (markB s c n))]) := by
  rw [State.flitStage, State.fire_of_due h]
  simp only [(stageTook_keepsWork s c n).stageFields]

/-- One draw of a stage's LFSR. -/
theorem drew_one (s : State) (c n : Nat) (f : StageF) :
    (if f.rnd = 5 then s.modCp c fun p =>
      { p with lfsr := smPut p.lfsr n (if f.rnd = 5 then lfsrNext ((s.cp c).lfsrOf n) else (s.cp c).lfsrOf n) } else s) = drew s c n 1 f := by
  unfold drew
  split
  · exact State.modCp_congr s c rfl
  · rfl

/-- A reduction sends one element and draws once. -/
theorem State.reduceStage_of_due {s : State} {c n op : Nat} (h : StageDue s c n op) (e : StageF → Nat → List Nat → Nat) :
    let f := (s.cp c).stageFields n
    s.reduceStage c n op e = .next ((drew (stageTook s c n) c n 1 f).emit c n
      [mkFlit (ofElems f.fmt [e f (drawAt f ((s.cp c).lfsrOf n) 0) (elems f.fmt (opA s c n).data)]) f.fmt
        (markMax (opA s c n).mark (markB s c n))]) := by
  have hkeeps := stageTook_keepsWork s c n
  have hdrew := drew_one (stageTook s c n) c n ((s.cp c).stageFields n)
  rw [hkeeps.lfsrOf] at hdrew
  rw [State.reduceStage, State.fire_of_due h]
  simp only [hkeeps.stageFields, hkeeps.lfsrOf, hdrew, drawAt_zero]

/-- An accumulating stage adds the flit to its entry, and keeps or sends the sum. -/
theorem State.accStage_of_due {s : State} {c op : Nat} (h : StageDue s c 3 op) (e : ElemOp) :
    let f := (s.cp c).stageFields 3
    let u := drew (stageTook s c 3) c 3 (tagElems f.fmt) f
    let entry := f.k % 256
    let off := 0x1000 + 64 * entry
    let sum := ofElems f.fmt ((List.range (tagElems f.fmt)).map fun k =>
      e f (drawAt f ((s.cp c).lfsrOf 3) k) (elemAt f.fmt (opA s c 3).data k) (elemAt f.fmt ((stageTook s c 3).localLine c off) k))
    let mark := markMax (opA s c 3).mark (markB s c 3)
    let n := (smGet ⟨0, 0⟩ ((stageTook s c 3).cp c).accs entry).count + 1
    s.accStage c op e = if f.k / 256 % 2 ^ 16 ≤ n ∨ mark ≠ 0
      then .next (((u.setLocalLine c off 0).modCp c fun p => { p with accs := smDel p.accs entry }).emit c 3 [mkFlit sum f.fmt mark])
      else .next ((u.setLocalLine c off sum).modCp c fun p => { p with accs := smPut p.accs entry ⟨n, 0⟩ }) := by
  have hkeeps := stageTook_keepsWork s c 3
  have hlevel : bitsOf ((s.cp c).stageFields 3).k 23 8 = ((s.cp c).stageFields 3).k / 256 % 2 ^ 16 := bitsOf_eq _ rfl
  rw [State.accStage, State.fire_of_due h]
  simp only [hkeeps.stageFields, hkeeps.lfsrOf, drawMap_pairs, drew_stageTook, List.length_range, hlevel, ge_iff_le, Bool.or_eq_true, decide_eq_true_eq]

end Sys2Proof.Machine

namespace Sys2Proof.Claims

open Sys2Proof.Machine

/-- An accumulating stage meets a claim whose op agrees with its own on the elements of the stage's width. -/
theorem accStage_meets {i : Nat → Instr} {op : Nat} {e : ElemOp} {e' : StageF → Nat → Nat → Nat → Nat}
    (hexec : ∀ c s, exec (i c) s = s.accStage c op e)
    (hop : ∀ (f : StageF) u a b, a < 2 ^ tagWidth f.fmt → b < 2 ^ tagWidth f.fmt → e f u a b = e' f u a b) : Accumulates i op e' := by
  intro c s h
  have hsum (f : StageF) (l : BitVec 32) (a b : BitVec 512) :
      ((List.range (tagElems f.fmt)).map fun k => e f (drawAt f l k) (elemAt f.fmt a k) (elemAt f.fmt b k)) =
        (List.range (tagElems f.fmt)).map fun k => e' f (drawAt f l k) (elemAt f.fmt a k) (elemAt f.fmt b k) :=
    List.map_congr_left fun k _ => hop _ _ _ _ (elemAt_lt _ _ _) (elemAt_lt _ _ _)
  dsimp only
  constructor
  · intro hcount hmark
    rw [Runs, hexec, State.accStage_of_due h, if_neg (not_or.2 ⟨Nat.not_le.2 hcount, not_not.2 hmark⟩), hsum]
  · intro hsent
    rw [Runs, hexec, State.accStage_of_due h, if_pos hsent, hsum]

/-- A reducing stage meets a claim whose op agrees with its own on lists of elements of the stage's width. -/
theorem reduceStage_meets {i : Nat → Instr} {op : Nat} {e e' : StageF → Nat → List Nat → Nat}
    (hexec : ∀ c s, exec (i c) s = s.reduceStage c 3 op e)
    (hop : ∀ (f : StageF) u xs, (∀ x ∈ xs, x < 2 ^ tagWidth f.fmt) → e f u xs = e' f u xs) : Reduces i op e' := by
  intro c s h
  rw [Sends, Runs, hexec, State.reduceStage_of_due h, hop _ _ _ fun _ => lt_of_mem_elems]

theorem map_sextNat {w : Nat} {xs : List Nat} (h : ∀ x ∈ xs, x < 2 ^ w) : (xs.map fun x => sextNat x w) = xs.map (sgn w) :=
  List.map_congr_left fun x hx => sextNat_eq_sgn (h x hx)

theorem map_intVal (uns : Bool) {w : Nat} {xs : List Nat} (h : ∀ x ∈ xs, x < 2 ^ w) :
    (xs.map fun x => intVal uns w x) = xs.map (stageInt uns w) :=
  List.map_congr_left fun x hx => intVal_eq_stageInt uns (h x hx)

theorem headD_map_stageInt (uns : Bool) (w : Nat) (xs : List Nat) : (xs.map (stageInt uns w)).headD 0 = stageInt uns w (xs.headD 0) := by
  cases xs with
  | nil => cases uns <;> simp [stageInt, sgn]
  | cons x r => rfl

/-- An op over the elements of a flit and their places. -/
theorem map_zipIdx_elems (t : Nat) (d : BitVec 512) (g : Nat × Nat → Nat) :
    (elems t d).zipIdx.map g = (List.range (tagElems t)).map fun i => g (elemAt t d i, i) := by
  rw [elems_eq_map]
  apply List.ext_getElem <;> simp

/-- The empty stage forwards its flit. -/
theorem stageEmpty_runs (c n : Nat) (s : State) (hlo : 2 ≤ n) (hhi : n ≤ 6)
    (hmacro : ¬ ((n = 3 ∨ n = 4) ∧ 0xE0 ≤ (stageF ((s.cp c).stage 2)).op)) (h : StageDue s c n 0) :
    Runs (.stageEmpty c n) s ((stageTook s c n).emit c n [opA s c n]) := by
  have hstage : ¬ (n < 2 ∨ 6 < n ∨ 0xE0 ≤ (stageF ((s.cp c).stage 2)).op ∧ (n = 3 ∨ n = 4)) := by omega
  rw [Runs, exec_stageEmpty, execStageEmpty, if_neg (by simpa [or_assoc] using hstage), State.fire_of_due h]

/-- PASS without a srcB forwards its flit. -/
theorem stagePass_runs (c : Nat) (s : State) (h : StageDue s c 1 0x20) (hsrc : ((s.cp c).stageFields 1).srcB = 0) :
    Runs (.stagePass c) s ((stageTook s c 1).emit c 1 [opA s c 1]) := by
  rw [Runs, exec_stagePass, execStagePass, if_pos hsrc, State.fire_of_due h]

/-- PASS with a srcB sends a srcB flit ahead of each group. -/
theorem stagePass_group (c : Nat) (s : State) (x : Flit) (h : StageReady s c 1 0x20) (hsrc : ((s.cp c).stageFields 1).srcB ≠ 0)
    (hgroup : (s.cp c).row.group = 0) (hhead : s.head c 1 true = .flit x) (hbeatA : (s.head c 1 false).beat = false) (hbeat : x.beat = false)
    (hside : x.isSide = false) (hconv : (s.cp c).needsConv 1 true x = false) :
    ∃ u, Runs (.stagePass c) s ((u.emit c 1 [x]).touchCell c) ∧ u = ((s.pop c 1 true).gateTook c 1 x).modCp c fun p =>
      { p with row := { p.row with group := ((s.cp c).stageFields 1).k % 256 } } := by
  refine ⟨_, ?_, rfl⟩
  rw [Runs, exec_stagePass, execStagePass, if_neg hsrc, State.stageTurn_of_ready h]
  simp [hgroup, hhead, hbeatA, hbeat, hside, hconv]

/-- CVT packs the converted elements of a row one after the other. -/
theorem stageCvt_runs (c : Nat) (s : State) (h : StageDue s c 1 0x21) (htag : (opA s c 1).tag ≠ 7) :
    let f := (s.cp c).stageFields 1
    let a := opA s c 1
    let rs := (List.range (tagElems a.tag)).map fun k =>
      convElem f.mode (if f.fmt ≤ 1 then f.sat == 3 else f.sat == 1) a.tag f.fmt (drawAt f ((s.cp c).lfsrOf 1) k) (elemAt a.tag a.data k)
    let xs := ((s.cp c).row.outs.map fun v => (v.toNat, (s.cp c).row.flags)) ++ rs.map fun r => (r.code, r.flags)
    let n := if a.marked then xs.length else xs.length / tagElems f.fmt * tagElems f.fmt
    Runs (.stageCvt c) s (((drew (stageTook s c 1) c 1 (tagElems a.tag) f).modCp c fun p => { p with row := { RowSt.empty with
      outs := (xs.drop n).map fun x => BitVec.ofNat 64 x.1, flags := (xs.drop n).foldl (fun v x => v ||| x.2) 0 } }).emitOuts c 1
        (rowFlits f.fmt (xs.take n) a.mark)) := by
  have hkeeps := stageTook_keepsWork s c 1
  rw [Runs, exec_stageCvt, execStageCvt, State.fire_of_due h]
  simp only [htag, if_false, hkeeps.stageFields, hkeeps.lfsrOf, hkeeps.row, Flit.elems, drawMap_elems, drew_stageTook, length_elems]
  rfl

/-- A converting or packing stage sends the outputs of an earlier firing first. -/
theorem pending_runs {c n op : Nat} {i : Instr} {s : State} {x : Flit × Nat} {r : List (Flit × Nat)}
    (hi : (i, n, op) ∈ [(Instr.stageCvt c, 1, 0x21), (.stagePass c, 1, 0x20), (.stagePack c, 6, 0xC1), (.stageQpack c, 6, 0xC4)])
    (hruns : s.stageRuns c n op = true) (hdst : (s.cp c).dstFree n = true) (hpend : smGet [] (s.cp c).pend n = x :: r) :
    Runs i s (((s.modCp c fun p => { p with pend := if r.isEmpty then smDel p.pend n else smPut p.pend n r }).sendOut c n x).touchCell c) := by
  simp only [List.mem_cons, Prod.mk.injEq, List.not_mem_nil, or_false] at hi
  obtain ⟨rfl, rfl, rfl⟩ | ⟨rfl, rfl, rfl⟩ | ⟨rfl, rfl, rfl⟩ | ⟨rfl, rfl, rfl⟩ := hi
  · exact State.stageTurn_of_pending hruns hdst hpend _
  · rw [Runs, exec_stagePass, execStagePass]
    split <;> exact State.stageTurn_of_pending hruns hdst hpend _
  · exact State.stageTurn_of_pending hruns hdst hpend _
  · exact State.stageTurn_of_pending hruns hdst hpend _

/-- SEL takes srcA's element where the mask's is not zero. -/
theorem stageSel_runs (c : Nat) (s : State) (h : StageDue s c 5 0xA3) :
    let g := (opA s c 5).tag
    Runs (.stageSel c) s ((stageTook s c 5).emit c 5 [mkFlit (ofElems g ((List.range (tagElems g)).map fun i =>
      if elemAt g (opB s c 5).data i ≠ 0 then elemAt g (opA s c 5).data i
      else if bitOf ((s.cp c).stageFields 5).flags 0 then negInf g else 0)) g (markMax (opA s c 5).mark (markB s c 5))]) := by
  have hkeeps := stageTook_keepsWork s c 5
  rw [Runs, exec_stageSel, execStageSel, State.fire_of_due h]
  simp only [hkeeps.stageFields, Flit.elems, map_zipIdx_elems]
  congr 5
  exact List.map_congr_left fun i hi => by rw [getD_elems _ _ (List.mem_range.1 hi)]

/-- STORE writes the ring and sends the flit on. -/
theorem stageStore_runs (c : Nat) (s : State) (h : StageDue s c 6 0xC3) :
    let k := ((s.cp c).stageFields 6).k
    Runs (.stageStore c) s ((((stageTook s c 6).setLocalLine c (0x16000 + 64 * ((k % 128 + (s.cp c).storeN) % (k / 256 % 128 + 1)))
      (opA s c 6).data).modCp c fun p => { p with storeN := p.storeN + 1 }).emit c 6
      [mkFlit (opA s c 6).data (opA s c 6).tag (markMax (opA s c 6).mark (markB s c 6))]) := by
  have hkeeps := stageTook_keepsWork s c 6
  have hlen : bitsOf ((s.cp c).stageFields 6).k 14 8 = ((s.cp c).stageFields 6).k / 256 % 128 := bitsOf_eq _ (n := 7) rfl
  rw [Runs, exec_stageStore, execStageStore, State.fire_of_due h]
  simp only [hkeeps.stageFields, hkeeps.storeN, hlen]

/-- PACK sends k flits, the first with the packed lanes. -/
theorem stagePack_runs (c : Nat) (s : State) (h : StageDue s c 6 0xC1) :
    let f := (s.cp c).stageFields 6
    let rs := (List.range 16).map fun k => convElem f.mode (f.sat == 1) 2 f.fmt (drawAt f ((s.cp c).lfsrOf 6) k) (elemAt 2 (opA s c 6).data k)
    Runs (.stagePack c) s ((drew (stageTook s c 6) c 6 16 f).emitOuts c 6 ((List.range f.k).map fun i =>
      (mkFlit (if i = 0 then ofElems f.fmt (rs.map Rounded.code) else 0) f.fmt
        (if i + 1 = f.k then markMax (opA s c 6).mark (markB s c 6) else 0), if i = 0 then cvstOf rs else 0))) := by
  have hkeeps := stageTook_keepsWork s c 6
  rw [Runs, exec_stagePack, execStagePack, State.fire_of_due h]
  simp only [hkeeps.stageFields, hkeeps.lfsrOf, drawMap_elems, drew_stageTook, length_elems]
  rfl

/-- QPACK gathers values, then codes, then sends them. -/
theorem stageQpack_runs (c : Nat) (s : State) (h : StageDue s c 6 0xC4) :
    let mark := markMax (opA s c 6).mark (markB s c 6)
    let vals := (s.cp c).qvals ++ (elems 2 (opA s c 6).data).map (BitVec.ofNat 32)
    let q := packCode (((s.cp c).stageFields 6).k % 4) ((vals.map fun v => fp32.decode v.toNat) ++ List.replicate (128 - vals.length) (.zero false))
    Runs (.stageQpack c) s (
      if vals.length < 128 ∧ mark = 0 then (stageTook s c 6).modCp c fun p => { p with qvals := vals }
      else if (s.cp c).qcodes.length < 15 ∧ mark = 0 then
        (stageTook s c 6).modCp c fun p => { p with qvals := [], qcodes := (s.cp c).qcodes ++ [q] }
      else ((stageTook s c 6).modCp c fun p => { p with qvals := [], qcodes := [] }).emitOuts c 6 (sendCodes ((s.cp c).qcodes ++ [q]) mark)) := by
  have hkeeps := stageTook_keepsWork s c 6
  have hlen (q : QCode) : ((s.cp c).qcodes ++ [q]).length < 16 ↔ (s.cp c).qcodes.length < 15 := by
    rw [List.length_append, List.length_singleton, Nat.add_lt_add_iff_right (m := 15)]
  rw [Runs, exec_stageQpack, execStageQpack, State.fire_of_due h]
  simp only [hkeeps.stageFields, hkeeps.qvals, hkeeps.qcodes, Bool.and_eq_true, decide_eq_true_eq, hlen, apply_ite Host.Outcome.next]

/-- Settles O28, a clause for each stage: what it sends is what it runs on the operands it took. -/
theorem wholeFlitStages : Obligations.WholeFlitStages := by
  unfold Obligations.WholeFlitStages
  refine ⟨stageEmpty_runs, stagePass_runs, stagePass_group, stageCvt_runs, ?_, ?_, ?_, ?_, ?_, ?_, ?_, ?_, ?_, ?_, ?_, stageSel_runs, ?_,
    stageStore_runs, stagePack_runs, stageQpack_runs, ?_⟩
  · intro c n op i s x r hi hruns hdst hpend
    exact pending_runs hi hruns hdst hpend
  · rintro s c n xs x r rfl
    rfl
  · intro c s h htag
    rw [Runs, exec_stageCvt, execStageCvt, State.fire_of_due h]
    simp only [htag, if_true]
  · intro c s h
    rw [Runs, exec_stageShuf, execStageShuf, State.flitStage_of_due h]
    congr 5
    exact List.map_congr_left fun i _ => getD_elems 1 _ (Nat.mod_lt _ (by decide))
  · intro c s h
    have hlane : ((s.cp c).stageFields 1).k % 16 < tagElems 1 := Nat.mod_lt _ (by decide)
    rw [Runs, exec_stageBcast, execStageBcast, State.flitStage_of_due h, getD_elems 1 _ hlane]
  · refine accStage_meets exec_stageAcc fun f u a b ha hb => ?_
    rw [hold_eq_stageHold, sextNat_eq_sgn ha, sextNat_eq_sgn hb]
  · exact accStage_meets exec_stageFacc fun _ _ _ _ _ _ => rfl
  · refine reduceStage_meets exec_stageRsum fun f u xs hxs => ?_
    rw [hold_eq_stageHold, map_sextNat hxs]
  · refine reduceStage_meets exec_stageRmax fun f u xs hxs => ?_
    simp only [map_intVal _ hxs, headD_map_stageInt, wrapNat]
  · exact reduceStage_meets exec_stageFrsum fun _ _ _ _ => rfl
  · exact reduceStage_meets exec_stageFrmax fun _ _ _ _ => rfl
  · intro c s h
    exact ⟨_, (exec_stageRoute c s).trans (State.fire_of_due h _), rfl, rfl, rfl⟩
  · intro c s x h hhead hside
    rw [Runs, exec_stageMul, execStageMul, State.elemStage, State.fire_of_side h hhead hside]

end Sys2Proof.Claims

/-! The matrix and vector stages (R17, R18, R99 to R105). -/

namespace Sys2Proof.Machine

open Sys2Proof.Claims

theorem exec_stageMma (c : Nat) (s : State) : exec (.stageMma c) s = execStageMma c s := rfl
theorem exec_stageMmai (c : Nat) (s : State) : exec (.stageMmai c) s = execStageMmai c s := rfl
theorem exec_stageMmaq (c : Nat) (s : State) : exec (.stageMmaq c) s = execStageMmaq c s := rfl
theorem exec_stageVfma (c : Nat) (s : State) : exec (.stageVfma c) s = execStageVfma c s := rfl

/-! Bits and elements -/

theorem blockElem_lt (b i j : Nat) {w : Nat} (hw : 0 < w) : blockElem b w i j < 2 ^ w := by
  rw [blockElem, bitsOf_eq _ (n := w) (by omega)]
  exact Nat.mod_lt _ (by positivity)

/-- Byte i of a number. -/
theorem bitsOf_byte (v i : Nat) : bitsOf v (8 * i + 7) (8 * i) = v / 256 ^ i % 256 := by
  rw [bitsOf_eq _ (n := 8) (by omega), pow_mul]
  rfl

/-- Four bits of a number. -/
theorem bitsOf_code (v i : Nat) : bitsOf v (4 * i + 3) (4 * i) = v / 16 ^ i % 16 := by
  rw [bitsOf_eq _ (n := 4) (by omega), pow_mul]
  rfl

theorem bitOf_toNat {n : Nat} (x : BitVec n) (i : Nat) : bitOf x.toNat i = x.getLsbD i := by
  rw [bitOf, BitVec.getLsbD, Nat.testBit_eq_decide_div_mod_eq, Nat.shiftRight_eq_div_pow, Bool.beq_eq_decide_eq]

/-- Bit j of packed bits is the jth of them. -/
theorem testBit_packBits (bs : List Bool) (j : Nat) : (packBits 1 (bs.map fun b => if b then 1 else 0)).testBit j = bs.getD j false := by
  induction bs generalizing j with
  | nil => simp [packBits]
  | cons b r ih =>
    have hbit : (if b then 1 else 0 : Nat) % 2 ^ 1 = if b then 1 else 0 := by cases b <;> rfl
    rw [List.map_cons, packBits, hbit]
    cases j with
    | zero => cases b <;> simp [Nat.testBit_zero, Nat.add_mod]
    | succ j =>
      have hhalf : ((if b then 1 else 0) + 2 ^ 1 * packBits 1 (r.map fun b => if b then 1 else 0)) / 2 =
          packBits 1 (r.map fun b => if b then 1 else 0) := by split <;> omega
      rw [Nat.testBit_succ, hhalf, ih]
      rfl

theorem getLsbD_packBits (bs : List Bool) {j : Nat} (hj : j < 16) :
    (BitVec.ofNat 16 (packBits 1 (bs.map fun b => if b then 1 else 0))).getLsbD j = bs.getD j false := by
  rw [BitVec.getLsbD_ofNat, testBit_packBits, decide_eq_true hj, Bool.true_and]

theorem getLsbD_packBits_range (p : Nat → Bool) {j : Nat} (hj : j < 16) :
    (BitVec.ofNat 16 (packBits 1 ((List.range 16).map fun i => if p i then 1 else 0))).getLsbD j = p j := by
  have hbits := getLsbD_packBits ((List.range 16).map p) hj
  rw [List.map_map] at hbits
  exact hbits.trans (by simp [List.getD, hj])

/-! Draws over several groups -/

theorem lfsrOf_drew (s : State) (c n k : Nat) (f : StageF) :
    ((drew s c n k f).cp c).lfsrOf n = if f.rnd = 5 then lfsrNext^[k] ((s.cp c).lfsrOf n) else (s.cp c).lfsrOf n := by
  unfold drew
  split
  · rw [State.cp_modCp_same, CellPlane.lfsrOf, smGet_smPut_same]
  · rfl

/-- The draws of a group go on where those before it ended. -/
theorem drawAt_iterate (f : StageF) (l : BitVec 32) (k i : Nat) :
    drawAt f (if f.rnd = 5 then lfsrNext^[k] l else l) i = drawAt f l (k + i) := by
  unfold drawAt
  split
  · rw [← Function.iterate_add_apply, show i + 1 + k = k + i + 1 by omega]
  · rfl

theorem drew_drew (s : State) (c n k m : Nat) (f : StageF) : drew (drew s c n k f) c n m f = drew s c n (k + m) f := by
  by_cases h : f.rnd = 5
  · simp only [drew, h, if_true, State.modCp_modCp]
    refine State.modCp_congr s c ?_
    simp only [smPut_smPut, CellPlane.lfsrOf, smGet_smPut_same, ← Function.iterate_add_apply, Nat.add_comm m k]
  · simp only [drew, h, if_false]

/-! Rows and columns -/

/-- A row-block that is done leaves the row as the claims say. -/
theorem State.rowDone_eq (s : State) (c : Nat) (f : StageF) (tag : Nat) (acc : List Nat) (stuck : BitVec 16) (mark : BitVec 3) :
    s.rowDone c f tag acc stuck mark = .next (rowAfter s c f.kb tag acc stuck mark) := by
  simp only [State.rowDone, rowAfter, CellPlane.rowBlk, Bool.or_eq_true, decide_eq_true_eq, ge_iff_le, apply_ite Host.Outcome.next]
  rfl

/-- A group of column sums: each column rounded once, with a draw of its own. -/
theorem State.addGroup_eq (s : State) (c : Nat) (f : StageF) (acc : List Nat) (terms : Nat → List FVal) :
    s.addGroup c f acc terms =
      ((List.range 16).map fun j => fpColumn f (drawAt f ((s.cp c).lfsrOf 2) j) (acc.getD j 0) (terms j), drew s c 2 16 f) := by
  exact Prod.ext (drawMap_range f (fun u j => fpColumn f u (acc.getD j 0) (terms j)) 16 _) (drew_eq s c 2 f _ (List.range 16) rfl)

/-- Two groups of column sums, the second on the first's columns and with the draws after the first's. -/
theorem State.addGroup_addGroup (s : State) (c : Nat) (f : StageF) (acc : List Nat) (terms terms' : Nat → List FVal) :
    (s.addGroup c f acc terms).2.addGroup c f (s.addGroup c f acc terms).1 terms' =
      ((List.range 16).map fun j => fpColumn f (drawAt f ((s.cp c).lfsrOf 2) (16 + j))
        (fpColumn f (drawAt f ((s.cp c).lfsrOf 2) j) (acc.getD j 0) (terms j)) (terms' j), drew s c 2 32 f) := by
  rw [State.addGroup_eq, State.addGroup_eq]
  refine congrArg₂ Prod.mk (List.map_congr_left fun j hj => ?_) (drew_drew s c 2 16 16 f)
  rw [lfsrOf_drew, drawAt_iterate, getD_map_range _ (List.mem_range.1 hj)]

/-- The products of a column over some K-rows of the operand. -/
theorem columnTerms_elems (f : StageF) (d : BitVec 512) (b w lo n j : Nat) (h : lo + n ≤ tagElems f.fmt) :
    columnTerms f (elems f.fmt d) b w lo n j =
      (List.range n).map fun i => (f.val (elemAt f.fmt d (lo + i))).mul (f.val (blockElem b w (lo + i) j)) := by
  rw [columnTerms, upFrom, List.map_map]
  refine List.map_congr_left fun i hi => ?_
  have hi' := List.mem_range.1 hi
  simp only [Function.comp_apply]
  rw [getD_elems _ _ (by omega)]

/-- The words of an accumulator row. -/
theorem rowAcc_lt (s : State) (c : Nat) (f : StageF) (j : Nat) : (s.rowAcc c f).getD j 0 < 2 ^ 32 := by
  have hwords (v : Nat) : (State.rowAcc.packedWords v).getD j 0 < 2 ^ 32 := by
    rw [State.rowAcc.packedWords, List.getD_eq_getElem?_getD, List.getElem?_map]
    cases h : (List.range 16)[j]? with
    | none => simp
    | some i =>
      simp only [Option.map_some, Option.getD_some]
      rw [bitsOf_eq _ (n := 32) (by omega)]
      exact Nat.mod_lt _ (by decide)
  unfold State.rowAcc
  split
  · split
    · exact hwords _
    · rw [List.getD_eq_getElem?_getD, List.getElem?_replicate]
      split <;> simp
  · exact hwords _

/-- One column of MMAI, where its accumulator is a word. -/
theorem mmaiColumn_eq (sat : Nat) {acc : Nat} (hacc : acc < 2 ^ 32) (stuck : Bool) (g : Int) :
    mmaiColumn sat acc stuck g =
      (if sat = 2 then ((sgn 32 acc + g) % 2 ^ 32).toNat
       else if stuck then acc
       else if 2 ^ 31 ≤ sgn 32 acc + g then 2 ^ 31 - 1
       else if sgn 32 acc + g < -2 ^ 31 then 2 ^ 31 else ((sgn 32 acc + g) % 2 ^ 32).toNat,
       sat != 2 && (stuck || decide (2 ^ 31 ≤ sgn 32 acc + g) || decide (sgn 32 acc + g < -2 ^ 31))) := by
  rw [mmaiColumn, sextNat_eq_sgn hacc]
  generalize sgn 32 acc + g = v
  have hover : v > 2 ^ 31 - 1 ↔ 2 ^ 31 ≤ v := by omega
  by_cases hsat : sat = 2
  · simp [hsat, wrapNat]
  · have hne : (sat != 2) = true := by simp [hsat]
    cases stuck with
    | true => simp [hsat]
    | false =>
      by_cases hhi : (2 : Int) ^ 31 ≤ v
      · simp only [hsat, hover, hhi, hne, if_true, if_false, decide_true, Bool.or_true, Bool.true_or, Bool.and_self, Bool.false_eq_true]
      · by_cases hlo : v < -2 ^ 31 <;>
          simp only [hsat, hover, hhi, hlo, hne, wrapNat, if_true, if_false, decide_true, decide_false, Bool.or_true, Bool.or_false,
            Bool.and_true, Bool.and_false, Bool.false_eq_true]

end Sys2Proof.Machine

namespace Sys2Proof.Claims

open Sys2Proof.Machine

/-- A chain partial at the start of a row is kept as the row's accumulator (R100). -/
theorem stageMma_partial (c : Nat) (s : State) (h : StageDue s c 2 0xE0)
    (hpartial : (s.cp c).isPartial ((s.cp c).stageFields 2) (opA s c 2) = true) :
    Runs (.stageMma c) s (((stageTook s c 2).setLocalLine c 0x1000 (opA s c 2).data).modCp c fun p => { p with accs := smPut p.accs 301 ⟨1, 0⟩ }) := by
  have hkeeps := stageTook_keepsWork s c 2
  rw [Runs, exec_stageMma, execStageMma, State.fire_of_due h]
  simp only [hkeeps.stageFields, hkeeps.isPartial, hpartial, if_true]

/-- A row-block of MMA adds its products to the columns: in one group, or for FP32 elements in two of eight K-rows (R101). -/
theorem stageMma_block (c : Nat) (s : State) (h : StageDue s c 2 0xE0)
    (hpartial : (s.cp c).isPartial ((s.cp c).stageFields 2) (opA s c 2) = false) :
    let f := (s.cp c).stageFields 2
    let a := (opA s c 2).data
    let w := (stageTook s c 2).window c (1024 * (f.first + (s.cp c).rowBlk)) 1024
    let acc := (stageTook s c 2).rowAcc c f
    let term (j i : Nat) : FVal := (f.val (elemAt f.fmt a i)).mul (f.val (blockElem w (tagWidth f.fmt) i j))
    let draw := drawAt f ((s.cp c).lfsrOf 2)
    (f.fmt ≠ 2 → Runs (.stageMma c) s (rowAfter (drew (stageTook s c 2) c 2 16 f) c f.kb 2 ((List.range 16).map fun j =>
      fpColumn f (draw j) (acc.getD j 0) ((List.range (tagElems f.fmt)).map (term j))) 0 (opA s c 2).mark)) ∧
    (f.fmt = 2 → Runs (.stageMma c) s (rowAfter (drew (stageTook s c 2) c 2 32 f) c f.kb 2 ((List.range 16).map fun j =>
      fpColumn f (draw (16 + j)) (fpColumn f (draw j) (acc.getD j 0) ((List.range 8).map (term j)))
        ((List.range 8).map fun i => term j (8 + i))) 0 (opA s c 2).mark)) := by
  have hkeeps := stageTook_keepsWork s c 2
  dsimp only
  constructor
  · intro hfmt
    rw [Runs, exec_stageMma, execStageMma, State.fire_of_due h]
    simp only [hkeeps.stageFields, hkeeps.isPartial, hkeeps.rowBlk, hpartial, hfmt, if_false, Bool.false_eq_true, State.addGroup_eq, State.rowDone_eq,
      hkeeps.lfsrOf, columnTerms_elems _ _ _ _ 0 _ _ (Nat.zero_add _).le, Nat.zero_add]
  · intro hfmt
    have helems : tagElems ((s.cp c).stageFields 2).fmt = 16 := by rw [hfmt]; rfl
    have hlow (d b w j) := columnTerms_elems ((s.cp c).stageFields 2) d b w 0 8 j (by omega)
    have hhigh (d b w j) := columnTerms_elems ((s.cp c).stageFields 2) d b w 8 8 j (by omega)
    rw [Runs, exec_stageMma, execStageMma, State.fire_of_due h]
    simp only [hkeeps.stageFields, hkeeps.isPartial, hkeeps.rowBlk, hpartial, if_pos hfmt, if_false, Bool.false_eq_true,
      State.addGroup_addGroup, State.rowDone_eq, hkeeps.lfsrOf, hlow, hhigh, Nat.zero_add]

/-- A row-block of MMAI adds exact integers, and a column that has saturated stays (R102, R103). -/
theorem stageMmai_runs (c : Nat) (s : State) (h : StageDue s c 2 0xE1) :
    let f := (s.cp c).stageFields 2
    let a := (opA s c 2).data
    let w := (stageTook s c 2).window c (1024 * (f.first + (s.cp c).rowBlk)) 1024
    let acc := (stageTook s c 2).rowAcc c f
    let stuck := if (s.cp c).rowFresh then 0 else (smGet ⟨0, 0⟩ (s.cp c).accs 300).stuck
    let sum (j : Nat) : Int := sgn 32 (acc.getD j 0) + ((List.range 64).map fun i =>
      stageInt (bitOf f.flags 1) 8 (a.toNat / 256 ^ i % 256) * stageInt (bitOf f.flags 2) 8 (blockElem w 8 i j)).sum
    let col (j : Nat) : Nat :=
      if f.sat = 2 then (sum j % 2 ^ 32).toNat
      else if stuck.getLsbD j then acc.getD j 0
      else if 2 ^ 31 ≤ sum j then 2 ^ 31 - 1 else if sum j < -2 ^ 31 then 2 ^ 31 else (sum j % 2 ^ 32).toNat
    ∃ st, Runs (.stageMmai c) s (rowAfter (stageTook s c 2) c f.kb 1 ((List.range 16).map col) st (opA s c 2).mark) ∧
      ∀ j, j < 16 → st.getLsbD j = (f.sat != 2 && (stuck.getLsbD j || decide (2 ^ 31 ≤ sum j) || decide (sum j < -2 ^ 31))) := by
  have hkeeps := stageTook_keepsWork s c 2
  have hprod (u v : Bool) (a w i j : Nat) : intVal u 8 (bitsOf a (8 * i + 7) (8 * i)) * intVal v 8 (blockElem w 8 i j) =
      stageInt u 8 (a / 256 ^ i % 256) * stageInt v 8 (blockElem w 8 i j) := by
    have hbyte : a / 256 ^ i % 256 < 2 ^ 8 := Nat.mod_lt _ (by decide)
    rw [bitsOf_byte, intVal_eq_stageInt u hbyte, intVal_eq_stageInt v (blockElem_lt _ _ _ (by decide))]
  refine ⟨_, ?_, fun j hj => getLsbD_packBits_range _ hj⟩
  rw [Runs, exec_stageMmai, execStageMmai, State.fire_of_due h]
  simp only [hkeeps.stageFields, hkeeps.rowBlk, hkeeps.rowFresh, hkeeps.accs 300 (by decide), hprod, mmaiColumn_eq _ (rowAcc_lt _ _ _ _),
    bitOf_toNat, State.rowDone_eq, List.map_map]
  rfl

/-- MMAQ's operand: a side flit that is due is kept, a flit out of place faults, and a code flit adds its products (R94, R104). -/
theorem stageMmaq_runs (c : Nat) (s : State) (x : Flit) (h : StageReady s c 2 0xE2) (hhead : s.head c 2 false = .flit x) (hbeat : x.beat = false)
    (hconv : (s.cp c).needsConv 2 false x = false) :
    (x.isSide = true → (s.cp c).netx = [] →
      Runs (.stageMmaq c) s (((s.pop c 2 false).modCp c fun p => { p with netx := [x] }).touchCell c)) ∧
    ((x.isSide = true ↔ (s.cp c).netx ≠ []) → Runs (.stageMmaq c) s ((s.pop c 2 false).flitFault c 0xA5)) ∧
    (∀ side r, x.isSide = false → (s.cp c).netx = side :: r →
      let f := (s.cp c).stageFields 2
      let u := (s.pop c 2 false).touchCell c
      let blk := (s.cp c).rowBlk
      let w := u.window c (1024 * (f.first + blk)) 1024
      let row := u.window c (64 * (f.biasOff + 1 + blk)) 64
      let term (j i : Nat) : FVal :=
        (codeVal (lineBytes side.data (4 * (blk % 16) + i / 32) 1) (x.data.toNat / 16 ^ i % 16)).mul
          (codeVal (row / 256 ^ (16 * (i / 32) + j) % 256) (blockElem w 4 i j))
      Runs (.stageMmaq c) s (rowAfter (drew u c 2 16 f) c f.kb 2 ((List.range 16).map fun j =>
        fpColumn f (drawAt f ((s.cp c).lfsrOf 2) j) ((u.rowAcc c f).getD j 0) ((List.range 128).map (term j))) 0 x.mark)) := by
  have hkeeps := State.pop_keepsWork s c 2 false
  refine ⟨fun hside hnone => ?_, fun hplace => ?_, fun side r hside hnetx => ?_⟩
  · rw [Runs, exec_stageMmaq, execStageMmaq, State.stageTurn_of_ready h]
    simp [hhead, hbeat, hconv, hside, hnone]
  · rw [Runs, exec_stageMmaq, execStageMmaq, State.stageTurn_of_ready h]
    cases hside : x.isSide with
    | true =>
      have hheld : (s.cp c).netx ≠ [] := hplace.1 hside
      simp [hhead, hbeat, hconv, hside, hheld]
    | false =>
      have hnone : (s.cp c).netx = [] := by
        by_contra hheld
        exact absurd (hplace.2 hheld) (by simp [hside])
      simp [hhead, hbeat, hconv, hside, hnone]
  · rw [Runs, exec_stageMmaq, execStageMmaq, State.stageTurn_of_ready h]
    simp only [hhead, hbeat, hconv, hside, hnetx, Bool.or_self, Bool.false_eq_true, if_false, State.addGroup_eq, State.rowDone_eq,
      State.cp_touchCell, hkeeps.lfsrOf, mmaqTerms, bitsOf_byte, bitsOf_code]

/-- VFMA multiplies and adds with one rounding, and may write its lane register (R105). -/
theorem stageVfma_runs (c : Nat) (s : State) (h : StageDue s c 2 0xE3) :
    let f := (s.cp c).stageFields 2
    let reg := f.k % 64
    let out := ofElems f.fmt ((List.range (tagElems f.fmt)).map fun i => stageRound f (drawAt f ((s.cp c).lfsrOf 2) i)
      (FVal.add (f.rnd == 2) ((f.val (elemAt f.fmt (opA s c 2).data i)).mul (f.val (elemAt f.fmt (opB s c 2).data i)))
        (f.val (elemAt f.fmt ((stageTook s c 2).laneReg c reg) i))))
    let u := drew (stageTook s c 2) c 2 (tagElems f.fmt) f
    Runs (.stageVfma c) s ((if bitOf f.flags 0 then u.setLaneReg c reg out else u).emit c 2
      [mkFlit out f.fmt (markMax (opA s c 2).mark (markB s c 2))]) := by
  have hkeeps := stageTook_keepsWork s c 2
  rw [Runs, exec_stageVfma, execStageVfma, State.fire_of_due h]
  simp only [hkeeps.stageFields, hkeeps.lfsrOf, drew_stageTook, drawMap_range, List.length_range]
  rw [List.map_congr_left fun i hi => by
    rw [getD_elems _ _ (List.mem_range.1 hi), getD_elems _ _ (List.mem_range.1 hi), getD_elems _ _ (List.mem_range.1 hi), round_eq_stageRound]]

end Sys2Proof.Claims

/-! NETX (R106, R195, R294, R295). -/

namespace Sys2Proof.Machine

open Sys2Proof.Claims

theorem exec_stageNetx (c : Nat) (s : State) : exec (.stageNetx c) s = execStageNetx c s := rfl

/-- A started group has its lanes' features, at layer 0, and counts as clean the lanes without a NaN. -/
theorem netStart_clean (f : StageF) (epl w0 : Nat) (xs : List Flit) (mark : BitVec 3) {i : Nat} (hi : i < 16) :
    (netStart f epl w0 xs mark).clean.getLsbD i = !(laneFeatures f.fmt epl w0 xs i).any fun v => (fp32.decode v).isNan := by
  have hclean : (netStart f epl w0 xs mark).clean = BitVec.ofNat 16 (packBits 1 ((List.range 16).map fun i =>
      if !(laneFeatures f.fmt epl w0 xs i).any (fun v => (fp32.decode v).isNan) then 1 else 0)) := by
    simp only [netStart, List.map_map]
    congr 3
    funext i
    simp only [Function.comp_apply]
    cases (laneFeatures f.fmt epl w0 xs i).any fun v => (fp32.decode v).isNan <;> rfl
  rw [hclean, getLsbD_packBits_range _ hi]

/-- A layer of a group is a layer of each of its lanes. -/
theorem State.netLayer_lane (s : State) (c : Nat) (h : Shape) (b : NetBank) {l : List (BitVec 32)} {i : Nat} (hl : b.lanes[i]? = some l)
    (hi : i < 16) :
    let o := s.layer c h b.layer ⟨l.map BitVec.toNat, false, false⟩
    (s.netLayer c h b).layer = b.layer + 1 ∧ (s.netLayer c h b).lanes[i]? = some (o.vals.map (BitVec.ofNat 32)) ∧
    (s.netLayer c h b).nan.getLsbD i = (b.nan.getLsbD i || o.nan) ∧ (o.ovf = true → (s.netLayer c h b).ovf = true) ∧
    (s.netLayer c h b).clean = b.clean ∧ (s.netLayer c h b).mark = b.mark := by
  refine ⟨rfl, ?_, ?_, fun hovf => ?_, rfl, rfl⟩
  · simp [State.netLayer, hl]
  · have hnan := getLsbD_packBits (b.lanes.map fun l => (s.layer c h b.layer ⟨l.map BitVec.toNat, false, false⟩).nan) hi
    rw [List.map_map, List.getD_eq_getElem?_getD, List.getElem?_map, hl] at hnan
    simp only [State.netLayer, BitVec.getLsbD_or, List.map_map]
    exact congrArg (b.nan.getLsbD i || ·) hnan
  · simp only [State.netLayer, Bool.or_eq_true, List.any_map, List.any_eq_true]
    exact Or.inr ⟨l, List.mem_of_getElem? hl, hovf⟩

/-- An output of a layer for a lane: the rounded exact sum, activated, with what the policy makes of a NaN. -/
theorem layer_output (s : State) (c : Nat) (h : Shape) (j : Nat) (x : NetOut) {o : Nat} (ho : o < h.widths.getD (j + 1) 0) :
    let z := (roundFp fp32 .rne false 0 (exactSum false
      ((if h.boff.getD j 0 = 0xFFFF then .zero false else fp32.decode (s.window c (64 * h.boff.getD j 0 + 4 * o) 4)) ::
        (List.range (h.widths.getD j 0)).map fun i => (fp32.decode (x.vals.getD i 0)).mul
          (s.weight c h j (h.widths.getD j 0 * h.widths.getD (j + 1) 0) (i * h.widths.getD (j + 1) 0 + o)))))
    let y := activate (h.acts.getD j 0) h.slope z.code
    (s.layer c h j x).vals[o]? = some (if bitOf h.policy 1 && (fp32.decode y.code).isNan then 0 else y.code) ∧
    (z.ovf || y.ovf → (s.layer c h j x).ovf = true) ∧ ((fp32.decode y.code).isNan = true → (s.layer c h j x).nan = true) := by
  have hmem := List.mem_range.2 ho
  refine ⟨?_, fun hovf => ?_, fun hnan => ?_⟩
  · simp only [State.layer, List.map_map, List.getElem?_map, List.getElem?_range ho]
    rfl
  · simp only [State.layer, List.map_map, List.any_map, Bool.or_eq_true, List.any_eq_true]
    obtain hz | hy := Bool.or_eq_true_iff.1 hovf
    · exact Or.inl (Or.inr ⟨o, hmem, hz⟩)
    · exact Or.inr ⟨o, hmem, hy⟩
  · simp only [State.layer, List.map_map, List.any_map, Bool.or_eq_true, List.any_eq_true]
    exact Or.inr ⟨o, hmem, hnan⟩

end Sys2Proof.Machine

namespace Sys2Proof.Claims

open Sys2Proof.Machine

/-- NETX without a group gathers feature flits until it has those it needs or a mark, and starts the group. -/
theorem stageNetx_gathers (c : Nat) (s : State) (hdue : StageDue s c 2 0xE4) (hbank : (s.cp c).bank = none) :
    let f := (s.cp c).stageFields 2
    let u := stageTook s c 2
    let h := s.shape c (64 * (f.k % 512))
    let epl := if f.fmt = 2 then 1 else 2
    let xs := (s.cp c).netx ++ [opA s c 2]
    let need := (h.widths.getD 0 0 + epl - 1) / epl
    let lane (i : Nat) : List Nat := laneFeatures f.fmt epl (h.widths.getD 0 0) xs i
    (h.ok = false → Runs (.stageNetx c) s ((u.modCp c fun p => { p with netx := [] }).faultCell c 0xA6 0)) ∧
    (h.ok = true → xs.length < need → (opA s c 2).marked = false → Runs (.stageNetx c) s (u.modCp c fun p => { p with netx := xs })) ∧
    (h.ok = true → (need ≤ xs.length ∨ (opA s c 2).marked = true) →
      ∃ b : NetBank, Runs (.stageNetx c) s (u.modCp c fun p => { p with netx := [], bank := some b }) ∧ b.layer = 0 ∧ b.ovf = false ∧ b.nan = 0 ∧
        b.mark = (opA s c 2).mark ∧ b.lanes = (List.range 16).map (fun i => (lane i).map (BitVec.ofNat 32)) ∧
        ∀ i, i < 16 → b.clean.getLsbD i = !(lane i).any fun v => (fp32.decode v).isNan) := by
  dsimp only
  refine ⟨fun hok => ?_, fun hok hlen hmark => ?_, fun hok henough => ?_⟩
  · rw [Runs, exec_stageNetx, execStageNetx]
    simp only [hbank, State.fire_of_due hdue, hok, Bool.not_false, if_true]
  · rw [Runs, exec_stageNetx, execStageNetx]
    simp only [hbank, State.fire_of_due hdue, hok, hlen, hmark, Bool.not_true, Bool.not_false, Bool.false_eq_true, if_false, decide_true,
      Bool.and_self, if_true]
  · refine ⟨_, ?_, rfl, rfl, rfl, rfl, ?_, fun i hi => netStart_clean _ _ _ _ _ hi⟩
    · have hgo (n m : Nat) (k : Bool) (h : m ≤ n ∨ k = true) : (decide (n < m) && !k) = false := by
        obtain h | h := h
        · simp [Nat.not_lt.2 h]
        · simp [h]
      rw [Runs, exec_stageNetx, execStageNetx]
      simp only [hbank, State.fire_of_due hdue, hok, hgo _ _ _ henough, Bool.not_true, Bool.false_eq_true, if_false]
    · rw [netStart, List.map_map]
      rfl

/-- NETX with a group does a layer, and after the last sends the outputs or takes the policy's trap. -/
theorem stageNetx_layer (c : Nat) (s : State) (b : NetBank) (hready : StageReady s c 2 0xE4) (hbank : (s.cp c).bank = some b) :
    let f := (s.cp c).stageFields 2
    let h := s.shape c (64 * (f.k % 512))
    let u := s.touchCell c
    let b' := u.netLayer c h b
    let epl := if f.fmt = 2 then 1 else 2
    let w := h.widths.getD h.layers 0
    let out := netRound f (bitOf h.policy 0 && f.fmt != 2) epl w (b'.lanes.map fun l => ⟨l.map BitVec.toNat, false, false⟩) ((s.cp c).lfsrOf 2)
    let v := u.modCp c fun p => { p with bank := none, lfsr := if f.rnd = 5 then smPut p.lfsr 2 out.2 else p.lfsr }
    let nan := b'.nan &&& b'.clean != 0
    let ovf := b'.ovf || out.1.any fun rs => rs.any Rounded.ovf
    let flags := (if nan || out.1.any (fun rs => rs.any Rounded.inv) then 1 else 0) + if ovf then 2 else 0
    (h.ok = false → Runs (.stageNetx c) s ((u.modCp c fun p => { p with bank := none }).faultCell c 0xA6 0)) ∧
    (h.ok = true → b.layer + 1 < h.layers → Runs (.stageNetx c) s (u.modCp c fun p => { p with bank := some b' })) ∧
    (h.ok = true → h.layers ≤ b.layer + 1 →
      Runs (.stageNetx c) s (if bitOf h.policy 2 && (nan || ovf) then (v.setCvst c flags).faultCell c 0xA0 0
        else v.emitOuts c 2 (out.1.zipIdx.map fun g =>
          (netFlit f epl w g.2 g.1 (if g.2 + 1 = out.1.length then b.mark else 0), if g.2 = 0 then flags else 0)))) := by
  have hlayer (u : State) (h : Shape) : (u.netLayer c h b).layer = b.layer + 1 := rfl
  dsimp only
  refine ⟨fun hok => ?_, fun hok hmore => ?_, fun hok hlast => ?_⟩
  · rw [Runs, exec_stageNetx, execStageNetx]
    simp only [hbank, State.stageTurn_of_ready hready, hok, Bool.not_false, if_true]
  · rw [Runs, exec_stageNetx, execStageNetx]
    simp only [hbank, State.stageTurn_of_ready hready, hok, hlayer, ge_iff_le, Nat.not_le.2 hmore, Bool.not_true, Bool.false_eq_true, if_false]
  · rw [Runs, exec_stageNetx, execStageNetx]
    simp only [hbank, State.stageTurn_of_ready hready, hok, hlayer, ge_iff_le, hlast, Bool.not_true, Bool.false_eq_true, if_false, if_true,
      State.netSend, State.cp_touchCell]
    exact (apply_ite Host.Outcome.next _ _ _).symm

/-- Settles O30: each matrix stage runs its rounded sums on the operands it took, and NETX a layer at a time. -/
theorem matrixAndNetworkStages : Obligations.MatrixAndNetworkStages := by
  unfold Obligations.MatrixAndNetworkStages
  exact ⟨⟨stageMma_partial, stageMma_block, stageMmai_runs, stageMmaq_runs, stageVfma_runs⟩,
    ⟨stageNetx_gathers, stageNetx_layer, fun s c h b _ _ hl hi => s.netLayer_lane c h b hl hi, fun s c h j x _ ho => layer_output s c h j x ho⟩⟩

end Sys2Proof.Claims

/-! Encodings (R27-R38): words and their fields, and each decoder against its encoder. -/

namespace Sys2Proof

open Machine (hasLiteral)

/-! Words and their fields -/

/-- R27's fields make the word. -/
theorem seqWord_eq_iff (op : BitVec 8) (d s t x : BitVec 4) (imm : BitVec 40) (w : BitVec 64) :
    seqWord op d s t x imm = w ↔ op = w.extractLsb' 56 8 ∧ ⟨d, s, t, x, imm⟩ = seqFields w := by
  rw [seqWord, seqFields, SeqFields.mk.injEq]
  constructor
  · rintro rfl
    refine ⟨?_, ?_, ?_, ?_, ?_, ?_⟩ <;> ext <;> grind
  · rintro ⟨rfl, rfl, rfl, rfl, rfl, rfl⟩
    ext
    grind

/-- R35's fields make a word of format H3. -/
theorem h3Word_eq_iff (op : BitVec 7) (d : BitVec 3) (a b : BitVec 6) (f : BitVec 3) (g : BitVec 4) (e : BitVec 2) (w : BitVec 32) :
    h3Word op d a b f g e = w ↔ op = w.extractLsb' 25 7 ∧ (0 : BitVec 1) ++ d = w.extractLsb' 21 4 ∧ a = w.extractLsb' 15 6 ∧
      b = w.extractLsb' 9 6 ∧ f = w.extractLsb' 6 3 ∧ g = w.extractLsb' 2 4 ∧ e = w.extractLsb' 0 2 := by
  rw [h3Word]
  constructor
  · rintro rfl
    refine ⟨?_, ?_, ?_, ?_, ?_, ?_, ?_⟩ <;> ext <;> grind
  · rintro ⟨rfl, hd, rfl, rfl, rfl, rfl, rfl⟩
    rw [hd]
    ext
    grind

/-- R35's fields make a word of format HI, HL or HM. -/
theorem hiWord_eq_iff (op : BitVec 7) (d : BitVec 3) (a : BitVec 6) (i : BitVec 11) (g : BitVec 4) (w : BitVec 32) :
    hiWord op d a i g = w ↔ op = w.extractLsb' 25 7 ∧ (0 : BitVec 1) ++ d = w.extractLsb' 21 4 ∧ a = w.extractLsb' 15 6 ∧
      i = w.extractLsb' 4 11 ∧ g = w.extractLsb' 0 4 := by
  rw [hiWord]
  constructor
  · rintro rfl
    refine ⟨?_, ?_, ?_, ?_, ?_⟩ <;> ext <;> grind
  · rintro ⟨rfl, hd, rfl, rfl, rfl⟩
    rw [hd]
    ext
    grind

/-- R35's fields make a word of format HE. -/
theorem heWord_eq_iff (op : BitVec 7) (a d0 d1 : BitVec 6) (tg : BitVec 3) (g : BitVec 4) (w : BitVec 32) :
    heWord op a d0 d1 tg g = w ↔ op = w.extractLsb' 25 7 ∧ a = w.extractLsb' 19 6 ∧ d0 = w.extractLsb' 13 6 ∧
      d1 = w.extractLsb' 7 6 ∧ tg = w.extractLsb' 4 3 ∧ g = w.extractLsb' 0 4 := by
  rw [heWord]
  constructor
  · rintro rfl
    refine ⟨?_, ?_, ?_, ?_, ?_, ?_⟩ <;> ext <;> grind
  · rintro ⟨rfl, rfl, rfl, rfl, rfl, rfl⟩
    ext
    grind

/-- R35's fields make a word of format HX. -/
theorem hxWord_eq_iff (kind keep : BitVec 3) (g : BitVec 4) (w : BitVec 32) :
    hxWord kind keep g = w ↔ 0x6B = w.extractLsb' 25 7 ∧ kind = w.extractLsb' 22 3 ∧ keep = w.extractLsb' 19 3 ∧
      0 = w.extractLsb' 4 15 ∧ g = w.extractLsb' 0 4 := by
  rw [hxWord]
  constructor
  · rintro rfl
    refine ⟨?_, ?_, ?_, ?_, ?_⟩ <;> ext <;> grind
  · rintro ⟨hop, rfl, rfl, hzero, rfl⟩
    rw [hop, hzero]
    ext
    grind

/-! Fields made of parts -/

/-- A value is its field's low bits, the others zero. -/
theorem setWidth_eq_iff {n w : Nat} (hn : n ≤ w) (k : BitVec n) (x : BitVec w) :
    k.setWidth w = x ↔ x.extractLsb' n (w - n) = 0 ∧ k = x.extractLsb' 0 n := by
  constructor
  · rintro rfl
    constructor <;> ext <;> grind
  · rintro ⟨hzero, rfl⟩
    ext i hi
    have hhigh := congrArg (·.getLsbD (i - n)) hzero
    grind

/-- R31's imm40 of a stream word that names a cell. -/
theorem strmImm_eq_iff (rt : BitVec 4) (cell : BitVec 6) (dlv : BitVec 2) (imm : BitVec 40) :
    strmImm rt cell dlv = imm ↔
      imm.extractLsb' 10 28 = 0 ∧ rt = imm.extractLsb' 6 4 ∧ cell = imm.extractLsb' 0 6 ∧ dlv = immDlv imm := by
  rw [strmImm, immDlv]
  constructor
  · rintro rfl
    refine ⟨?_, ?_, ?_, ?_⟩ <;> ext <;> grind
  · rintro ⟨hzero, rfl, rfl, rfl⟩
    rw [← hzero]
    ext
    grind

/-- The bits of imm40 below a stream word's delivery field are its other parts (R31). -/
theorem low38_eq_zero_iff (imm : BitVec 40) :
    imm.extractLsb' 0 38 = 0#38 ↔ imm.extractLsb' 10 28 = 0#28 ∧ imm.extractLsb' 6 4 = 0#4 ∧ imm.extractLsb' 0 6 = 0#6 := by
  constructor
  · intro h
    refine ⟨?_, ?_, ?_⟩
    · rw [show imm.extractLsb' 10 28 = (imm.extractLsb' 0 38).extractLsb' 10 28 by ext; grind, h]; rfl
    · rw [show imm.extractLsb' 6 4 = (imm.extractLsb' 0 38).extractLsb' 6 4 by ext; grind, h]; rfl
    · rw [show imm.extractLsb' 0 6 = (imm.extractLsb' 0 38).extractLsb' 0 6 by ext; grind, h]; rfl
  · rintro ⟨hmid, hrt, hcell⟩
    rw [show imm.extractLsb' 0 38 = imm.extractLsb' 10 28 ++ imm.extractLsb' 6 4 ++ imm.extractLsb' 0 6 by ext; grind, hmid, hrt, hcell]
    rfl

/-- The mask bit of STRM.KVC (R31). -/
theorem kvcImm_eq_iff (mask : Bool) (imm : BitVec 40) :
    (if mask then 1#40 else 0#40) = imm ↔ imm.extractLsb' 1 39 = 0#39 ∧ mask = (imm.extractLsb' 0 1 == 1#1) := by
  constructor
  · rintro rfl
    cases mask <;> decide
  · rintro ⟨hzero, rfl⟩
    ext i hi
    have hhigh := congrArg (·.getLsbD (i - 1)) hzero
    have hlow : (imm.extractLsb' 0 1 == 1#1) = imm.getLsbD 0 := (BitVec.getLsbD_eq_extractLsb' imm 0).symm
    rw [hlow]
    cases i <;> grind

/-- The scope and the command of ATOM (R32). -/
theorem atomImm_eq_iff (sc : BitVec 2) (c : BitVec 8) (imm : BitVec 40) :
    0#30 ++ sc ++ c = imm ↔ imm.extractLsb' 10 30 = 0#30 ∧ sc = imm.extractLsb' 8 2 ∧ c = imm.extractLsb' 0 8 := by
  constructor
  · rintro rfl
    refine ⟨?_, ?_, ?_⟩ <;> ext <;> grind
  · rintro ⟨hzero, rfl, rfl⟩
    rw [← hzero]
    ext
    grind

theorem xField_eq_iff (p : BitVec 2) (x : BitVec 4) : xField p = x ↔ x.extractLsb' 2 2 = 0 ∧ p = x.extractLsb' 0 2 := by
  decide +revert

theorem mField_eq_iff (m : BitVec 3) (x : BitVec 4) : mField m = x ↔ x.toNat ≤ 7 ∧ m = x.extractLsb' 0 3 := by
  decide +revert

theorem toNat_le_three_iff (x : BitVec 4) : x.toNat ≤ 3 ↔ x.extractLsb' 2 2 = 0 := by
  decide +revert

/-- The position and the length of a bit-field op. -/
theorem bfImm_eq_iff (p : BitVec 6) (l : BitVec 5) (i : BitVec 11) :
    p ++ l = i ↔ p = i.extractLsb' 5 6 ∧ l = i.extractLsb' 0 5 := by
  constructor
  · rintro rfl
    constructor <;> ext <;> grind
  · rintro ⟨rfl, rfl⟩
    ext
    grind

/-- The destination format of FCVT in its b field. -/
theorem fcvtField_eq_iff (t : BitVec 3) (b : BitVec 6) :
    0#3 ++ t = b ↔ b.extractLsb' 3 3 = 0#3 ∧ t = b.extractLsb' 0 3 := by
  decide +revert

/-- The scope and the kind of a handler fence. -/
theorem fenceImm_eq_iff (s v : BitVec 2) (i : BitVec 11) :
    0#7 ++ s ++ v = i ↔ i.extractLsb' 4 7 = 0#7 ∧ s = i.extractLsb' 2 2 ∧ v = i.extractLsb' 0 2 := by
  constructor
  · rintro rfl
    refine ⟨?_, ?_, ?_⟩ <;> ext <;> grind
  · rintro ⟨hzero, rfl, rfl⟩
    rw [← hzero]
    ext
    grind

/-- The second operand of SYNC in its immediate. -/
theorem syncImm_eq_iff (o : BitVec 6) (i : BitVec 11) :
    o ++ 0#5 = i ↔ i.extractLsb' 0 5 = 0#5 ∧ o = i.extractLsb' 5 6 := by
  constructor
  · rintro rfl
    constructor <;> ext <;> grind
  · rintro ⟨hzero, rfl⟩
    rw [← hzero]
    ext
    grind

/-- The literal word of SYNC. -/
theorem syncLit_eq_iff (rp : BitVec 6) (f : BitVec 3) (sc : BitVec 2) (c : BitVec 8) (l : BitVec 32) :
    0#13 ++ rp ++ f ++ sc ++ c = l ↔ l.extractLsb' 19 13 = 0#13 ∧ rp = l.extractLsb' 13 6 ∧ f = l.extractLsb' 10 3 ∧
      sc = l.extractLsb' 8 2 ∧ c = l.extractLsb' 0 8 := by
  constructor
  · rintro rfl
    refine ⟨?_, ?_, ?_, ?_, ?_⟩ <;> ext <;> grind
  · rintro ⟨hzero, rfl, rfl, rfl, rfl⟩
    rw [← hzero]
    ext
    grind

/-! Codes (R26, R33, R34, R36) -/

theorem ifmtOf_eq_some_iff {f : BitVec 3} {v : IFmt} : ifmtOf f = some v ↔ v.code = f := by
  cases v <;> decide +revert

theorem ffmtOf_eq_some_iff {f : BitVec 3} {v : FFmt} : ffmtOf f = some v ↔ v.code = f := by
  cases v <;> decide +revert

theorem cfmtOf_eq_some_iff {f : BitVec 3} {v : CFmt} : cfmtOf f = some v ↔ v.code = f := by
  cases v <;> decide +revert

theorem dfmtOf_eq_some_iff {f : BitVec 3} {v : DFmt} : dfmtOf f = some v ↔ v.code = f := by
  cases v <;> decide +revert

theorem iextOf_eq_some_iff {e : BitVec 2} {v : IExt} : iextOf e = some v ↔ v.code = e := by
  cases v <;> decide +revert

theorem hrndOf_code (v : HRnd) : hrndOf v.code = v := by
  cases v <;> rfl

theorem code_hrndOf (e : BitVec 2) : (hrndOf e).code = e := by
  decide +revert

theorem opndOf_eq_some_iff {o : BitVec 6} {x : Opnd} : opndOf o = some x ↔ x.code = o := by
  cases x <;> decide +revert

theorem destOf_eq_some_iff {d : BitVec 4} {r : BitVec 3} : destOf d = some r ↔ (0 : BitVec 1) ++ r = d := by
  decide +revert

theorem eq_ofNat_of_toNat_eq {n k : Nat} {x : BitVec n} (h : x.toNat = k) : x = BitVec.ofNat n k := by
  rw [← h, BitVec.ofNat_toNat, BitVec.setWidth_eq]

/-! Step words (R27-R32) -/

theorem okIf_eq_ok_iff {c : Bool} {i j : Instr} : okIf c i = .ok j ↔ c = true ∧ i = j := by
  cases c <;> simp [okIf]

theorem checkWf_eq_ok_iff {r : Decoded} {i : Instr} : checkWf r = .ok i ↔ r = .ok i ∧ i.wf = true := by
  cases r with
  | error e => simp [checkWf]
  | ok j =>
    rw [checkWf, okIf_eq_ok_iff, Except.ok.injEq]
    exact ⟨fun ⟨hwf, h⟩ => ⟨h, h ▸ hwf⟩, fun ⟨h, hwf⟩ => ⟨h ▸ hwf, h⟩⟩

@[simp] theorem opcode_seqWord (op : BitVec 8) (d s t x : BitVec 4) (imm : BitVec 40) :
    (seqWord op d s t x imm).extractLsb' 56 8 = op := ((seqWord_eq_iff ..).1 rfl).1.symm

@[simp] theorem seqFields_seqWord (op : BitVec 8) (d s t x : BitVec 4) (imm : BitVec 40) :
    seqFields (seqWord op d s t x imm) = ⟨d, s, t, x, imm⟩ := ((seqWord_eq_iff ..).1 rfl).2.symm

theorem seqWord_inj {op op' : BitVec 8} {d s t x d' s' t' x' : BitVec 4} {imm imm' : BitVec 40} :
    seqWord op d s t x imm = seqWord op' d' s' t' x' imm' ↔
      op = op' ∧ d = d' ∧ s = s' ∧ t = t' ∧ x = x' ∧ imm = imm' := by
  rw [seqWord_eq_iff, opcode_seqWord, seqFields_seqWord, SeqFields.mk.injEq]

theorem exists_eq_seqWord (w : BitVec 64) : ∃ op d s t x imm, w = seqWord op d s t x imm :=
  ⟨_, _, _, _, _, _, ((seqWord_eq_iff ..).2 ⟨rfl, rfl⟩).symm⟩

@[simp] theorem xField_fields (p : BitVec 2) : (xField p).extractLsb' 2 2 = 0 ∧ (xField p).extractLsb' 0 2 = p := by
  obtain ⟨hzero, hp⟩ := (xField_eq_iff p _).1 rfl
  exact ⟨hzero, hp.symm⟩

@[simp] theorem mField_fields (m : BitVec 3) : (mField m).toNat ≤ 7 ∧ (mField m).extractLsb' 0 3 = m := by
  obtain ⟨hle, hm⟩ := (mField_eq_iff m _).1 rfl
  exact ⟨hle, hm.symm⟩

@[simp] theorem strmImm_fields (rt : BitVec 4) (cell : BitVec 6) (dlv : BitVec 2) :
    (strmImm rt cell dlv).extractLsb' 10 28 = 0 ∧ (strmImm rt cell dlv).extractLsb' 6 4 = rt ∧
      (strmImm rt cell dlv).extractLsb' 0 6 = cell ∧ immDlv (strmImm rt cell dlv) = dlv := by
  obtain ⟨hzero, hrt, hcell, hdlv⟩ := (strmImm_eq_iff rt cell dlv _).1 rfl
  exact ⟨hzero, hrt.symm, hcell.symm, hdlv.symm⟩

theorem low_setWidth {n w : Nat} (hn : n ≤ w) (k : BitVec n) : (k.setWidth w).extractLsb' 0 n = k :=
  ((setWidth_eq_iff hn ..).1 rfl).2.symm

theorem high_setWidth {n w start len : Nat} (hn : n ≤ start) (k : BitVec n) :
    (k.setWidth w).extractLsb' start len = 0 := by
  ext
  grind

/-- The raw decoder reads every encoded word: first where each field holds a value as it is, then where a field holds parts. -/
theorem decodeSeqRaw_of_encodeSeq {i : Instr} {w : BitVec 64} (h : encodeSeq i = some w) : decodeSeqRaw w = .ok i := by
  cases i with
  | add | sub | mul | and | or | xor | shl | shr | sra | min | max | addi | andi | ori | xori | li | ceq | cne | clt | cltu | ceqi
  | clti | cltui | ld8 | ld16 | ld32 | ld64 | lds8 | lds16 | lds32 | st8 | st16 | st32 | st64 | beq | bne | blt | bge | bltu
  | bgeu | jal | jalr | cfgWait | cfgRet | cfgDrain | cfgStop | sbar | qfence | qfenceR | fenceSl | lclkRd | lclkAdv | depEdge
  | depArm | depWait | qRsv | qTake | phDrop | phWait | phErr | phRead | nop | yield =>
    obtain rfl := Option.some.inj h
    rw [decodeSeqRaw, opcode_seqWord, seqFields_seqWord]
    rfl
  | shli | shri | srai | lui | nset | nget | patLd | patSt | patBase | cfgLoad | cfgRun | cfgCall | cfgPreload | pswap | strmIn
  | strmOut | strmGath | strmScat | strmFill | strmCopy | strmXch | fenceRel | fenceAcq | depNew | qAdd | phReg | phSig
  | phSw | trap | evt | srr | srw =>
    obtain rfl := Option.some.inj h
    rw [decodeSeqRaw, opcode_seqWord, seqFields_seqWord]
    exact okIf_eq_ok_iff.2
      ⟨by simp [toNat_le_three_iff, low38_eq_zero_iff, high_setWidth], by simp [low_setWidth]⟩
  | strmKvc port d s t mask =>
    obtain ⟨hzero, hmask⟩ := (kvcImm_eq_iff mask _).1 rfl
    obtain rfl := Option.some.inj h
    rw [decodeSeqRaw, opcode_seqWord, seqFields_seqWord]
    exact okIf_eq_ok_iff.2 ⟨by simp [hzero], by simp [← hmask]⟩
  | atom cmd d s t x scope =>
    obtain ⟨hzero, hscope, hcmd⟩ := (atomImm_eq_iff scope cmd _).1 rfl
    obtain rfl := Option.some.inj h
    rw [decodeSeqRaw, opcode_seqWord, seqFields_seqWord]
    exact okIf_eq_ok_iff.2 ⟨by simp [hzero], by simp [← hscope, ← hcmd]⟩
  | _ => cases h

/-- Where the raw decoder reads an instruction, the word is its encoding. -/
theorem encodeSeq_of_decodeSeqRaw {i : Instr} {w : BitVec 64} (h : decodeSeqRaw w = .ok i) : encodeSeq i = some w := by
  obtain ⟨op, d, s, t, x, imm, rfl⟩ := exists_eq_seqWord w
  rw [decodeSeqRaw, opcode_seqWord, seqFields_seqWord] at h
  dsimp only at h
  split at h
  case h_97 => cases h -- no opcode
  all_goals
    rename_i hop
    obtain rfl := eq_ofNat_of_toNat_eq hop
  case h_67 => -- STRM.KVC, whose mask is a `Bool`
    obtain ⟨hfields, rfl⟩ := okIf_eq_ok_iff.1 h
    obtain ⟨hx, himm⟩ := Bool.and_eq_true_iff.1 hfields
    exact congrArg some (seqWord_inj.2
      ⟨rfl, rfl, rfl, rfl, (xField_eq_iff ..).2 ⟨beq_iff_eq.1 hx, rfl⟩, (kvcImm_eq_iff ..).2 ⟨beq_iff_eq.1 himm, rfl⟩⟩)
  case h_70 => -- QFENCE and QFENCE.R, which the x field tells apart
    split at h
    all_goals
      obtain ⟨hfields, rfl⟩ := okIf_eq_ok_iff.1 h
      refine congrArg some (seqWord_inj.2 ?_)
      simp_all
  all_goals
    obtain ⟨hfields, rfl⟩ := okIf_eq_ok_iff.1 h
    refine congrArg some (seqWord_inj.2 ?_)
    simp [toNat_le_three_iff, low38_eq_zero_iff] at hfields
    simp [hfields, xField_eq_iff, mField_eq_iff, setWidth_eq_iff, strmImm_eq_iff, atomImm_eq_iff]

/-! Handler words (R33-R38): what the decoder reads -/

/-- The encoding of a handler instruction is these words, a literal word that is not there read as any. -/
def Encodes (i : Instr) (w lit : BitVec 32) : Prop := encodeHandler i = some (w, if hasLiteral i then lit else 0)

/-- Where a decoder's answer is an instruction, it is well formed and these words are its encoding. -/
def Reads (w lit : BitVec 32) (r : Decoded) : Prop := ∀ i, r = .ok i → i.wf = true ∧ Encodes i w lit

theorem Reads.error {w lit : BitVec 32} {e : DecodeErr} : Reads w lit (.error e) := by
  intro i h
  cases h

theorem Reads.noDest {w lit : BitVec 32} {i : Instr} (h : Encodes i w lit) : Reads w lit (noDest i) := by
  intro j hj
  rw [Sys2Proof.noDest, okIf] at hj
  split at hj
  · next hwf =>
    cases hj
    exact ⟨hwf, h⟩
  · cases hj

theorem Reads.withDest {w lit : BitVec 32} {d : BitVec 4} {mk : BitVec 3 → Instr}
    (h : ∀ r : BitVec 3, (0 : BitVec 1) ++ r = d → Encodes (mk r) w lit) : Reads w lit (withDest d mk) := by
  intro j hj
  rw [Sys2Proof.withDest] at hj
  split at hj
  · split at hj
    · next hd =>
      split at hj
      · next hwf =>
        cases hj
        exact ⟨hwf, h _ (destOf_eq_some_iff.1 hd)⟩
      · cases hj
    · cases hj
  · cases hj

theorem Reads.one {w lit : BitVec 32} {a : BitVec 6} {k : Opnd → Decoded} (h : ∀ x : Opnd, x.code = a → Reads w lit (k x)) :
    Reads w lit (one a k) := by
  rw [Sys2Proof.one]
  split
  · next hx => exact h _ (opndOf_eq_some_iff.1 hx)
  · exact .error

theorem Reads.two {w lit : BitVec 32} {a b : BitVec 6} {k : Opnd → Opnd → Decoded}
    (h : ∀ x y : Opnd, x.code = a → y.code = b → Reads w lit (k x y)) : Reads w lit (two a b k) := by
  rw [Sys2Proof.two]
  split
  · next hx hy => exact h _ _ (opndOf_eq_some_iff.1 hx) (opndOf_eq_some_iff.1 hy)
  · exact .error

theorem Encodes.intro {i : Instr} {w w' lit lit' : BitVec 32} (h : encodeHandler i = some (w', lit')) (hw : w' = w)
    (hlit : lit' = if hasLiteral i then lit else 0) : Encodes i w lit := by
  rw [Encodes, h, hw, hlit]

/-- Where the decoder reads an instruction, the words are its encoding. -/
theorem reads_decodeHandler (w lit : BitVec 32) : Reads w lit (decodeHandler w lit) := by
  unfold decodeHandler
  dsimp only
  split
  case h_93 => exact .error -- no opcode
  all_goals
    rename_i hop
    replace hop := eq_ofNat_of_toNat_eq hop
  case h_44 => -- SYNC
    split
    · next hfields =>
      simp only [Bool.and_eq_true, beq_iff_eq] at hfields
      obtain ⟨⟨himm, hlit⟩, -⟩ := hfields
      refine .two fun x y hx hy => .withDest fun r hr => .intro rfl ?_ ((syncLit_eq_iff ..).2 ⟨hlit, rfl, rfl, rfl, rfl⟩)
      exact (hiWord_eq_iff ..).2 ⟨hop.symm, hr, hx, (syncImm_eq_iff ..).2 ⟨himm, hy⟩, rfl⟩
    · exact .error
  case h_82 => -- EXIT
    repeat' split
    all_goals try exact .error
    · next hrest hkind =>
      exact .noDest (.intro rfl ((hxWord_eq_iff ..).2
        ⟨hop.symm, (eq_ofNat_of_toNat_eq hkind).symm, rfl, (beq_iff_eq.1 hrest).symm, rfl⟩) rfl)
    · next hrest _ hkind hkeep =>
      exact .noDest (.intro rfl ((hxWord_eq_iff ..).2
        ⟨hop.symm, (eq_ofNat_of_toNat_eq hkind).symm, (beq_iff_eq.1 hkeep).symm, (beq_iff_eq.1 hrest).symm, rfl⟩) rfl)
    · next hrest _ _ hkind hkeep =>
      exact .noDest (.intro rfl ((hxWord_eq_iff ..).2
        ⟨hop.symm, (eq_ofNat_of_toNat_eq hkind).symm, (beq_iff_eq.1 hkeep).symm, (beq_iff_eq.1 hrest).symm, rfl⟩) rfl)
  case h_84 => -- the fences
    split
    · next hfields =>
      simp only [Bool.and_eq_true, beq_iff_eq] at hfields
      obtain ⟨⟨ha, hd⟩, hzero⟩ := hfields
      split
      · next hv =>
        split
        · next hsc =>
          exact .noDest (.intro rfl ((hiWord_eq_iff ..).2
            ⟨hop.symm, hd.symm, ha.symm, (fenceImm_eq_iff 0 0 _).2 ⟨hzero, (beq_iff_eq.1 hsc).symm, (beq_iff_eq.1 hv).symm⟩, rfl⟩) rfl)
        · exact .error
      · split
        · next hv =>
          exact .noDest (.intro rfl ((hiWord_eq_iff ..).2
            ⟨hop.symm, hd.symm, ha.symm, (fenceImm_eq_iff ..).2 ⟨hzero, rfl, (beq_iff_eq.1 hv).symm⟩, rfl⟩) rfl)
        · split
          · next hv =>
            exact .noDest (.intro rfl ((hiWord_eq_iff ..).2
              ⟨hop.symm, hd.symm, ha.symm, (fenceImm_eq_iff ..).2 ⟨hzero, rfl, (beq_iff_eq.1 hv).symm⟩, rfl⟩) rfl)
          · exact .error
    · exact .error
  all_goals
    repeat' split
    all_goals try exact .error
    all_goals try refine .two fun x y hx hy => ?_
    all_goals try refine .one fun x hx => ?_
    all_goals try refine .withDest fun r hr => ?_
    all_goals try refine .noDest ?_
    all_goals refine .intro rfl ?_ rfl
    all_goals simp_all [ifmtOf_eq_some_iff, iextOf_eq_some_iff, ffmtOf_eq_some_iff, cfmtOf_eq_some_iff, dfmtOf_eq_some_iff, h3Word_eq_iff,
      hiWord_eq_iff, heWord_eq_iff, code_hrndOf, setWidth_eq_iff, bfImm_eq_iff, fcvtField_eq_iff]

/-! Handler words (R33-R38): what the encoder writes -/

theorem word_eq_of_some_eq {w w' lit lit' : BitVec 32} (h : some (w, lit) = some (w', lit')) : w = w' :=
  (Prod.mk.inj (Option.some.inj h)).1

/-- The operand of an encoded word is sound. -/
theorem one_of_code {x : Opnd} {a : BitVec 6} (ha : x.code = a) (k : Opnd → Decoded) : one a k = k x := by
  rw [one, opndOf_eq_some_iff.2 ha]

theorem two_of_code {x y : Opnd} {a b : BitVec 6} (ha : x.code = a) (hb : y.code = b) (k : Opnd → Opnd → Decoded) :
    two a b k = k x y := by
  rw [two, opndOf_eq_some_iff.2 ha, opndOf_eq_some_iff.2 hb]

theorem withDest_of_wf {d : BitVec 3} {dest : BitVec 4} {mk : BitVec 3 → Instr} (hd : (0 : BitVec 1) ++ d = dest)
    (hzero : (mk 0).wf = true) (h : (mk d).wf = true) :
    withDest dest mk = .ok (mk d) := by
  rw [withDest, if_pos hzero, destOf_eq_some_iff.2 hd]
  exact if_pos h

theorem noDest_of_wf {i : Instr} (h : i.wf = true) : noDest i = .ok i := if_pos h

theorem dest_of_syncOk {d : BitVec 3} {b : Opnd} {reply : BitVec 6} {cmd : BitVec 8} (h : syncOk d b reply cmd = true) :
    cmd = 0x0B ∨ d = 0 := by
  simp only [syncOk, Bool.and_eq_true, Bool.or_eq_true, beq_iff_eq] at h
  exact h.1.1.2

theorem syncOk_zero {d : BitVec 3} {b : Opnd} {reply : BitVec 6} {cmd : BitVec 8} (h : syncOk d b reply cmd = true) :
    syncOk 0 b reply cmd = true := by
  simp only [syncOk, beq_self_eq_true, Bool.or_true, Bool.and_true, Bool.and_eq_true] at h ⊢
  exact ⟨⟨h.1.1.1, h.1.2⟩, h.2⟩

/-- The words of a handler instruction meet the tests of its opcode. -/
theorem decodeHandler_of_encodeHandler {i : Instr} {w lit : BitVec 32} (h : encodeHandler i = some (w, lit)) (hwf : i.wf = true) :
    decodeHandler w lit = .ok i := by
  have h3 := (h3Word_eq_iff · · · · · · · w)
  have hI := (hiWord_eq_iff · · · · · w)
  have hE := (heWord_eq_iff · · · · · · w)
  have hX := (hxWord_eq_iff · · · w)
  unfold decodeHandler
  dsimp only at *
  -- each field is named once, so that a case substitutes the fields of its word into the decoder
  generalize w.extractLsb' 25 7 = op at *
  generalize w.extractLsb' 21 4 = dest at *
  generalize w.extractLsb' 15 6 = fa at *
  generalize w.extractLsb' 9 6 = fb at *
  generalize w.extractLsb' 6 3 = ff at *
  generalize w.extractLsb' 0 2 = fe at *
  generalize w.extractLsb' 4 11 = imm at *
  generalize w.extractLsb' 22 3 = kind at *
  generalize w.extractLsb' 4 15 = rest at *
  generalize hint : ifmtOf ff = int
  generalize hflt : ffmtOf ff = flt
  generalize hcvt : cfmtOf ff = cvt
  generalize hdot : dfmtOf ff = dot
  generalize hext : iextOf fe = ext
  generalize hrnd : hrndOf fe = rnd
  cases i with
  | hAdd | hSub | hMul =>
    obtain ⟨rfl, hd, ha, hb, hf, rfl, he⟩ := (h3 ..).1 (word_eq_of_some_eq h)
    obtain rfl := (ifmtOf_eq_some_iff.2 hf).symm.trans hint
    obtain rfl := (iextOf_eq_some_iff.2 he).symm.trans hext
    exact (two_of_code ha hb _).trans (withDest_of_wf hd hwf hwf)
  | hMulh | hMulhu | hMin | hMax | hMinu | hMaxu | hAnd | hOr | hXor | hAndn | hShl | hShr | hSra | hCeq | hCne | hClt | hCltu | hCle
  | hCleu =>
    obtain ⟨rfl, hd, ha, hb, hf, rfl, rfl⟩ := (h3 ..).1 (word_eq_of_some_eq h)
    obtain rfl := (ifmtOf_eq_some_iff.2 hf).symm.trans hint
    exact (two_of_code ha hb _).trans (withDest_of_wf hd hwf hwf)
  | hAbs | hNeg =>
    obtain ⟨rfl, hd, ha, rfl, hf, rfl, he⟩ := (h3 ..).1 (word_eq_of_some_eq h)
    obtain rfl := (ifmtOf_eq_some_iff.2 hf).symm.trans hint
    obtain rfl := (iextOf_eq_some_iff.2 he).symm.trans hext
    exact (one_of_code ha _).trans (withDest_of_wf hd hwf hwf)
  | hPopc | hClz | hCtz =>
    obtain ⟨rfl, hd, ha, rfl, hf, rfl, rfl⟩ := (h3 ..).1 (word_eq_of_some_eq h)
    obtain rfl := (ifmtOf_eq_some_iff.2 hf).symm.trans hint
    exact (one_of_code ha _).trans (withDest_of_wf hd hwf hwf)
  | hAddi | hAndi | hOri | hXori | hCeqi | hClti | hCltui | hLdl8 | hLdl16 | hLdl32 | hLdl64 | hStl8 | hStl16 | hStl32 | hStl64
  | hLdg8 | hLdg16 | hLdg32 | hLdg64 | hStg8 | hStg16 | hStg32 | hStg64 =>
    obtain ⟨rfl, hd, ha, rfl, rfl⟩ := (hI ..).1 (word_eq_of_some_eq h)
    exact (one_of_code ha _).trans (withDest_of_wf hd hwf hwf)
  | hShli | hShri | hSrai =>
    obtain ⟨rfl, hd, ha, hi, rfl⟩ := (hI ..).1 (word_eq_of_some_eq h)
    obtain ⟨hzero, rfl⟩ := (setWidth_eq_iff (by decide) ..).1 hi
    exact (if_pos (beq_iff_eq.2 hzero)).trans ((one_of_code ha _).trans (withDest_of_wf hd hwf hwf))
  | hBfx | hBfxu | hBfi =>
    obtain ⟨rfl, hd, ha, hi, rfl⟩ := (hI ..).1 (word_eq_of_some_eq h)
    obtain ⟨rfl, rfl⟩ := (bfImm_eq_iff ..).1 hi
    exact (one_of_code ha _).trans (withDest_of_wf hd hwf hwf)
  | hLit | hLith =>
    obtain ⟨hw, rfl⟩ := Prod.mk.inj (Option.some.inj h)
    obtain ⟨rfl, hd, rfl, rfl, rfl⟩ := (hI ..).1 hw
    exact (if_pos rfl).trans (withDest_of_wf hd hwf hwf)
  | hAddl =>
    obtain ⟨hw, rfl⟩ := Prod.mk.inj (Option.some.inj h)
    obtain ⟨rfl, hd, ha, rfl, rfl⟩ := (hI ..).1 hw
    exact (one_of_code ha _).trans (withDest_of_wf hd hwf hwf)
  | hSync d a b g rp f sc cmd =>
    obtain ⟨hw, hlit⟩ := Prod.mk.inj (Option.some.inj h)
    obtain ⟨rfl, hd, ha, hi, rfl⟩ := (hI ..).1 hw
    obtain ⟨hzero, hb⟩ := (syncImm_eq_iff ..).1 hi
    obtain ⟨hhigh, rfl, rfl, rfl, rfl⟩ := (syncLit_eq_iff ..).1 hlit
    obtain ⟨hguard, hsync⟩ := Bool.and_eq_true_iff.1 hwf
    have hcas : dest = 0#4 ∨ lit.extractLsb' 0 8 = 0x0B#8 := by
      obtain hcas | rfl := dest_of_syncOk hsync
      · exact .inr hcas
      · exact .inl hd.symm
    refine (if_pos (by simp [hzero, hhigh, hcas])).trans ((two_of_code ha hb _).trans (withDest_of_wf hd ?_ hwf))
    exact Bool.and_eq_true_iff.2 ⟨hguard, syncOk_zero hsync⟩
  | hFadd | hFsub | hFmul | hFma | hFmin | hFmax =>
    obtain ⟨rfl, hd, ha, hb, hf, rfl, rfl⟩ := (h3 ..).1 (word_eq_of_some_eq h)
    obtain rfl := (ffmtOf_eq_some_iff.2 hf).symm.trans hflt
    obtain rfl := (hrndOf_code _).symm.trans hrnd
    exact (two_of_code ha hb _).trans (withDest_of_wf hd hwf hwf)
  | hFabs | hFneg =>
    obtain ⟨rfl, hd, ha, rfl, hf, rfl, rfl⟩ := (h3 ..).1 (word_eq_of_some_eq h)
    obtain rfl := (ffmtOf_eq_some_iff.2 hf).symm.trans hflt
    exact (one_of_code ha _).trans (withDest_of_wf hd hwf hwf)
  | hFceq | hFclt | hFcle =>
    obtain ⟨rfl, hd, ha, hb, hf, rfl, rfl⟩ := (h3 ..).1 (word_eq_of_some_eq h)
    obtain rfl := (ffmtOf_eq_some_iff.2 hf).symm.trans hflt
    exact (two_of_code ha hb _).trans (withDest_of_wf hd hwf hwf)
  | hFcvt =>
    obtain ⟨rfl, hd, ha, hb, hf, rfl, rfl⟩ := (h3 ..).1 (word_eq_of_some_eq h)
    obtain ⟨hzero, hdst⟩ := (fcvtField_eq_iff ..).1 hb
    obtain rfl := (cfmtOf_eq_some_iff.2 hf).symm.trans hcvt
    obtain rfl := (hrndOf_code _).symm.trans hrnd
    rw [cfmtOf_eq_some_iff.2 hdst]
    exact (if_pos (beq_iff_eq.2 hzero)).trans ((one_of_code ha _).trans (withDest_of_wf hd hwf hwf))
  | hFrcp | hFsqrt | hFexp2 =>
    obtain ⟨rfl, hd, ha, rfl, hf, rfl, rfl⟩ := (h3 ..).1 (word_eq_of_some_eq h)
    obtain rfl := (ffmtOf_eq_some_iff.2 hf).symm.trans hflt
    obtain rfl := (hrndOf_code _).symm.trans hrnd
    exact (one_of_code ha _).trans (withDest_of_wf hd hwf hwf)
  | hIcvtf | hFcvti =>
    obtain ⟨rfl, hd, ha, rfl, hf, rfl, rfl⟩ := (h3 ..).1 (word_eq_of_some_eq h)
    obtain rfl := (cfmtOf_eq_some_iff.2 hf).symm.trans hcvt
    obtain rfl := (hrndOf_code _).symm.trans hrnd
    exact (one_of_code ha _).trans (withDest_of_wf hd hwf hwf)
  | hFdot d a b f g e =>
    obtain ⟨rfl, hd, ha, hb, hf, rfl, rfl⟩ := (h3 ..).1 (word_eq_of_some_eq h)
    obtain rfl := (dfmtOf_eq_some_iff.2 hf).symm.trans hdot
    obtain rfl := (hrndOf_code _).symm.trans hrnd
    exact (two_of_code ha hb _).trans (withDest_of_wf hd hwf hwf)
  | hEmit | hEmitp =>
    obtain ⟨rfl, ha, rfl, rfl, rfl, rfl⟩ := (hE ..).1 (word_eq_of_some_eq h)
    exact (one_of_code ha _).trans (noDest_of_wf hwf)
  | hSend =>
    obtain ⟨rfl, rfl, ha, hb, rfl, rfl, rfl⟩ := (h3 ..).1 (word_eq_of_some_eq h)
    exact (two_of_code ha hb _).trans (noDest_of_wf hwf)
  | hExitDone =>
    obtain ⟨rfl, rfl, rfl, rfl, rfl⟩ := (hX ..).1 (word_eq_of_some_eq h)
    exact noDest_of_wf hwf
  | hExitDefer | hExitFail =>
    obtain ⟨rfl, rfl, hkeep, rfl, rfl⟩ := (hX ..).1 (word_eq_of_some_eq h)
    exact (if_pos (beq_iff_eq.2 hkeep.symm)).trans (noDest_of_wf hwf)
  | hTagLvl =>
    obtain ⟨rfl, hd, rfl, rfl, rfl⟩ := (hI ..).1 (word_eq_of_some_eq h)
    exact withDest_of_wf (mk := (.hTagLvl · _)) hd hwf hwf
  | hTagParent =>
    obtain ⟨rfl, hd, rfl, rfl, rfl⟩ := (hI ..).1 (word_eq_of_some_eq h)
    exact withDest_of_wf (mk := (.hTagParent · _)) hd hwf hwf
  | hLclk =>
    obtain ⟨rfl, hd, rfl, rfl, rfl⟩ := (hI ..).1 (word_eq_of_some_eq h)
    exact (if_pos rfl).trans (withDest_of_wf hd hwf hwf)
  | hTagFree | hTagFreectx | hFenceSl =>
    obtain ⟨rfl, rfl, rfl, rfl, rfl⟩ := (hI ..).1 (word_eq_of_some_eq h)
    exact noDest_of_wf hwf
  | hTagPool =>
    obtain ⟨rfl, hd, ha, rfl, rfl⟩ := (hI ..).1 (word_eq_of_some_eq h)
    exact (one_of_code ha _).trans (withDest_of_wf hd hwf hwf)
  | hFenceRel | hFenceAcq =>
    obtain ⟨rfl, rfl, rfl, hi, rfl⟩ := (hI ..).1 (word_eq_of_some_eq h)
    obtain ⟨hzero, rfl, hv⟩ := (fenceImm_eq_iff ..).1 hi
    rw [hzero, ← hv]
    exact noDest_of_wf hwf
  | hLclkadv =>
    obtain ⟨rfl, rfl, ha, rfl, rfl⟩ := (hI ..).1 (word_eq_of_some_eq h)
    exact (one_of_code ha _).trans (noDest_of_wf hwf)
  | hBoxt8Any | hBoxt8Closest | hTritAny | hTritClosest | hTritBary | hDicer | hSamptTu | hSamptV | hMptest | hSeqw =>
    obtain ⟨rfl, hd, ha, hb, rfl, rfl, rfl⟩ := (h3 ..).1 (word_eq_of_some_eq h)
    exact (two_of_code ha hb _).trans (withDest_of_wf hd hwf hwf)
  | _ => cases h

end Sys2Proof

namespace Sys2Proof.Claims

/-- Settles O58: the raw decoder and the encoder agree on every word, and `checkWf` adds well-formedness alone. -/
theorem stepEncodings : Obligations.StepEncodings := by
  unfold Obligations.StepEncodings
  refine ⟨fun i w henc hwf => checkWf_eq_ok_iff.2 ⟨decodeSeqRaw_of_encodeSeq henc, hwf⟩, fun w i hdec => ?_⟩
  obtain ⟨hraw, hwf⟩ := checkWf_eq_ok_iff.1 hdec
  exact ⟨encodeSeq_of_decodeSeqRaw hraw, hwf⟩

/-- Settles O59: the encoder's words pass every test of the decoder, and what passes them is put together again by the encoder. -/
theorem handlerEncodings : Obligations.HandlerEncodings := by
  unfold Obligations.HandlerEncodings
  exact ⟨fun _ _ _ henc hwf => decodeHandler_of_encodeHandler henc hwf, fun w l i hdec => reads_decodeHandler w l i hdec⟩

end Sys2Proof.Claims

/-! Replies (R48, R218, R227): what an answered atomic raises, and that it leaves the places of tokens alone. -/

namespace Sys2Proof.Machine

theorem tsMax_idem (x y : BitVec 32) : tsMax (tsMax x y) y = tsMax x y := by
  grind [tsMax]

/-! Raising an agent's store high-water (R213) -/

/-- An agent's store high-water alone raised: the agent's part of `State.raiseHi`. -/
def State.raiseWater (s : State) (a : Nat) (ts : BitVec 32) : State :=
  if agentIsSeq a then s.modTile (agentTile a) fun t => { t with hiWater := tsMax t.hiWater ts }
  else s.modCell (agentCell a) fun c => { c with hiWater := tsMax c.hiWater ts }

/-- `State.raiseHi` raises the agent's high-water, and of the launch that holds its tile the largest timestamp. -/
theorem State.raiseHi_cases (s : State) (a : Nat) (ts : BitVec 32) :
    s.raiseHi a ts = s.raiseWater a ts ∨
      ∃ u, s.raiseHi a ts = (s.raiseWater a ts).modLaunch u fun l => { l with lastTs := tsMax l.lastTs ts } := by
  rw [State.raiseHi, ← State.raiseWater]
  cases (s.raiseWater a ts).owner? (agentTile a) with
  | none => exact .inl rfl
  | some u => exact .inr ⟨u, rfl⟩

theorem State.getTile_raiseWater (s : State) (a : Nat) (ts : BitVec 32) (t : Nat) :
    (s.raiseWater a ts).getTile t =
      if agentIsSeq a = true ∧ t = agentTile a then { s.getTile (agentTile a) with hiWater := tsMax (s.getTile (agentTile a)).hiWater ts }
      else s.getTile t := by
  cases hseq : agentIsSeq a
  · simp [State.raiseWater, hseq, State.getTile]
  · simp [State.raiseWater, hseq]

theorem State.getCell_raiseWater (s : State) (a : Nat) (ts : BitVec 32) (c : Nat) :
    (s.raiseWater a ts).getCell c =
      if agentIsSeq a = false ∧ c = agentCell a then { s.getCell (agentCell a) with hiWater := tsMax (s.getCell (agentCell a)).hiWater ts }
      else s.getCell c := by
  cases hseq : agentIsSeq a
  · simp [State.raiseWater, hseq]
  · simp [State.raiseWater, hseq, State.getCell]

theorem State.getTile_raiseHi (s : State) (a : Nat) (ts : BitVec 32) (t : Nat) :
    (s.raiseHi a ts).getTile t = (s.raiseWater a ts).getTile t := by
  obtain h | ⟨u, h⟩ := s.raiseHi_cases a ts <;> simp [h]

theorem State.getCell_raiseHi (s : State) (a : Nat) (ts : BitVec 32) (c : Nat) :
    (s.raiseHi a ts).getCell c = (s.raiseWater a ts).getCell c := by
  obtain h | ⟨u, h⟩ := s.raiseHi_cases a ts <;> simp [h]

theorem State.raiseHi_frame (s : State) (a : Nat) (ts : BitVec 32) :
    (s.raiseHi a ts).msgs = s.msgs ∧ (s.raiseHi a ts).net = s.net ∧ (s.raiseHi a ts).mem = s.mem := by
  have hwater : (s.raiseWater a ts).msgs = s.msgs ∧ (s.raiseWater a ts).net = s.net ∧ (s.raiseWater a ts).mem = s.mem := by
    unfold State.raiseWater
    split <;> exact ⟨rfl, rfl, rfl⟩
  obtain h | ⟨u, h⟩ := s.raiseHi_cases a ts <;> simpa [h] using hwater

theorem State.hiOf_raiseHi (s : State) (a : Nat) (ts : BitVec 32) : (s.raiseHi a ts).hiOf a = tsMax (s.hiOf a) ts := by
  rw [State.hiOf, State.hiOf, State.getTile_raiseHi, State.getCell_raiseHi, State.getTile_raiseWater, State.getCell_raiseWater]
  cases agentIsSeq a <;> simp

/-! Taking an atomic's timestamp (R218) -/

/-- Where the requester's unit holds its tile, an atomic's timestamp raises LCLK and the store high-water, and of the launch no more than its
bookkeeping of a run. -/
theorem State.takeAtomic_cases (s : State) (m : Msg) (time : BitVec 32) (howner : s.owner? (agentTile m.agent) = some m.owner) :
    s.takeAtomic m time = (s.raiseLclk (agentTile m.agent) time).raiseHi m.agent time ∨
      s.takeAtomic m time = ((s.raiseLclk (agentTile m.agent) time).raiseHi m.agent time).raiseRun m.owner m.run time := by
  rw [State.takeAtomic, if_neg (not_not.2 howner)]
  cases agentIsSeq m.agent
  · exact .inr rfl
  · exact .inl rfl

theorem State.getTile_takeAtomic (s : State) (m : Msg) (time : BitVec 32) (howner : s.owner? (agentTile m.agent) = some m.owner)
    (t : Nat) : (s.takeAtomic m time).getTile t = ((s.raiseLclk (agentTile m.agent) time).raiseWater m.agent time).getTile t := by
  obtain h | h := s.takeAtomic_cases m time howner
  · rw [h, State.getTile_raiseHi]
  · rw [h, State.raiseRun, State.getTile_modLaunch, State.getTile_raiseHi]

theorem State.getCell_takeAtomic (s : State) (m : Msg) (time : BitVec 32) (howner : s.owner? (agentTile m.agent) = some m.owner)
    (c : Nat) : (s.takeAtomic m time).getCell c = ((s.raiseLclk (agentTile m.agent) time).raiseWater m.agent time).getCell c := by
  obtain h | h := s.takeAtomic_cases m time howner
  · rw [h, State.getCell_raiseHi]
  · rw [h, State.raiseRun, State.getCell_modLaunch, State.getCell_raiseHi]

/-- Whoever holds the requester's tile, an atomic's timestamp changes no message, no token and no byte of memory. -/
theorem State.takeAtomic_frame (s : State) (m : Msg) (time : BitVec 32) :
    (s.takeAtomic m time).msgs = s.msgs ∧ (s.takeAtomic m time).net = s.net ∧ (s.takeAtomic m time).mem = s.mem := by
  by_cases howner : s.owner? (agentTile m.agent) = some m.owner
  · have hraise := (s.raiseLclk (agentTile m.agent) time).raiseHi_frame m.agent time
    obtain h | h := s.takeAtomic_cases m time howner
    · rw [h]
      exact hraise
    · simpa [h, State.raiseRun] using hraise
  · rw [State.takeAtomic, if_pos howner]
    exact ⟨rfl, rfl, rfl⟩

theorem State.hiOf_takeAtomic (s : State) (m : Msg) (time : BitVec 32) (howner : s.owner? (agentTile m.agent) = some m.owner) :
    (s.takeAtomic m time).hiOf m.agent = tsMax (s.hiOf m.agent) time := by
  rw [State.hiOf, State.getTile_takeAtomic s m time howner, State.getCell_takeAtomic s m time howner, State.getTile_raiseWater,
    State.getCell_raiseWater, State.hiOf]
  cases agentIsSeq m.agent <;> simp [State.raiseLclk, State.getCell]

theorem State.lclk_takeAtomic (s : State) (m : Msg) (time : BitVec 32) (howner : s.owner? (agentTile m.agent) = some m.owner) :
    ((s.takeAtomic m time).getTile (agentTile m.agent)).spr.lclk = tsMax (s.getTile (agentTile m.agent)).spr.lclk time := by
  rw [State.getTile_takeAtomic s m time howner, State.getTile_raiseWater]
  cases agentIsSeq m.agent <;> simp [State.raiseLclk]

/-- A sequencer's tile after an atomic it asked for. -/
theorem State.getTile_takeAtomic_of_seq (s : State) (m : Msg) (time : BitVec 32) (howner : s.owner? (agentTile m.agent) = some m.owner)
    (hseq : agentIsSeq m.agent = true) :
    (s.takeAtomic m time).getTile (agentTile m.agent) =
      { s.getTile (agentTile m.agent) with
        spr := { (s.getTile (agentTile m.agent)).spr with lclk := tsMax (s.getTile (agentTile m.agent)).spr.lclk time }
        hiWater := tsMax (s.getTile (agentTile m.agent)).hiWater time } := by
  rw [State.getTile_takeAtomic s m time howner, State.getTile_raiseWater, if_pos ⟨hseq, rfl⟩, State.raiseLclk, State.getTile_modTile,
    if_pos rfl]

/-! The places of tokens (R119, R131) -/

/-- What of a launch says where tokens of its region take their places. -/
def Launch.placing (l : Launch) : Bool × Option Nat × List Level × SMap PlaneInfo := (l.service, l.victim, l.levels, l.planes)

/-- Two states in which tokens have the same places: what is in flight, who holds the tiles, the planes of the cells and what is held there. -/
structure State.SamePlaces (s t : State) : Prop where
  net : t.net = s.net
  owner : ∀ x, t.owner? x = s.owner? x
  planes : ∀ c, (t.getCell c).planes = (s.getCell c).planes
  hold : ∀ c, (t.getCell c).hold = (s.getCell c).hold
  launch : ∀ u, (t.launch? u).map Launch.placing = (s.launch? u).map Launch.placing

namespace State.SamePlaces

variable {s t u : State}

theorem refl (s : State) : s.SamePlaces s := ⟨rfl, fun _ => rfl, fun _ => rfl, fun _ => rfl, fun _ => rfl⟩

theorem trans (h : s.SamePlaces t) (k : t.SamePlaces u) : s.SamePlaces u where
  net := k.net.trans h.net
  owner x := (k.owner x).trans (h.owner x)
  planes c := (k.planes c).trans (h.planes c)
  hold c := (k.hold c).trans (h.hold c)
  launch x := (k.launch x).trans (h.launch x)

/-- What is read of a launch's placing alone reads the same. -/
theorem launch_elim {α : Type} {f g : Launch → α} (h : s.SamePlaces t) (hf : ∀ l m : Launch, l.placing = m.placing → f l = g m) (x : Nat)
    (d : α) : (t.launch? x).elim d f = (s.launch? x).elim d g := by
  have hx := h.launch x
  cases ht : t.launch? x <;> cases hs : s.launch? x <;> simp only [ht, hs, Option.map_none, Option.map_some, reduceCtorEq, Option.some.injEq] at hx
  · rfl
  · exact hf _ _ hx

theorem planeNo (h : s.SamePlaces t) (c : Nat) : t.planeNo c = s.planeNo c := by
  have hread (st : State) : st.planeNo c = (st.owner? (cellTile c)).elim 0 fun x => (st.launch? x).elim 0 Launch.activePlane := by
    unfold State.planeNo
    cases st.owner? (cellTile c) with
    | none => rfl
    | some x => cases hl : st.launch? x <;> simp [hl]
  rw [hread, hread, h.owner]
  congr 1
  funext x
  refine h.launch_elim (fun l m hlm => ?_) x 0
  obtain ⟨hservice, -, -, hplanes⟩ : l.service = m.service ∧ l.victim = m.victim ∧ l.levels = m.levels ∧ l.planes = m.planes := by
    simpa [Launch.placing] using hlm
  rw [Launch.activePlane, Launch.activePlane, hservice, hplanes]

theorem cp (h : s.SamePlaces t) (c : Nat) : t.cp c = s.cp c := by
  rw [State.cp, State.cp, h.planes, h.planeNo]

theorem frozenLevel (h : s.SamePlaces t) (n : NetTok) : t.frozenLevel n = s.frozenLevel n := by
  have hread (st : State) : st.frozenLevel n = (st.owner? (cellTile (destCell n.tok.dest))).elim false fun x =>
      (st.launch? x).elim false fun l =>
        if l.service then l.victim.isSome && n.owner != x else l.levels.any fun v => levelCtx v.depth == n.tok.ctx := by
    unfold State.frozenLevel
    cases st.owner? (cellTile (destCell n.tok.dest)) with
    | none => rfl
    | some x => cases hl : st.launch? x <;> simp [hl]
  rw [hread, hread, h.owner]
  congr 1
  funext x
  refine h.launch_elim (fun l m hlm => ?_) x false
  obtain ⟨hservice, hvictim, hlevels, -⟩ : l.service = m.service ∧ l.victim = m.victim ∧ l.levels = m.levels ∧ l.planes = m.planes := by
    simpa [Launch.placing] using hlm
  rw [hservice, hvictim, hlevels]

theorem bucket (h : s.SamePlaces t) (n : NetTok) : t.bucket n = s.bucket n := by
  rw [State.bucket, State.bucket, State.t2sOn, State.t2sOn, h.frozenLevel, h.cp, h.cp]

theorem bucketFree (h : s.SamePlaces t) (b : Bucket) : t.bucketFree b = s.bucketFree b := by
  cases b <;> simp only [State.bucketFree, h.cp, h.hold]

theorem placesFor (h : s.SamePlaces t) (ts : List NetTok) : t.placesFor ts = s.placesFor ts := by
  have hbucket : t.bucket = s.bucket := funext h.bucket
  have hfree : t.bucketFree = s.bucketFree := funext h.bucketFree
  have htaken : t.bucketTaken = s.bucketTaken := by
    funext b
    rw [State.bucketTaken, State.bucketTaken, hbucket, h.net]
  rw [State.placesFor, State.placesFor, hbucket, hfree, htaken]

theorem modTile (s : State) (x : Nat) {f : Tile → Tile} (howner : (f (s.getTile x)).owner = (s.getTile x).owner) :
    s.SamePlaces (s.modTile x f) where
  net := rfl
  owner y := by
    rw [State.owner?, State.getTile_modTile]
    split
    · next hy => rw [howner, hy, State.owner?]
    · rfl
  planes _ := rfl
  hold _ := rfl
  launch _ := rfl

theorem modCell (s : State) (x : Nat) {f : Cell → Cell} (hplanes : (f (s.getCell x)).planes = (s.getCell x).planes)
    (hhold : (f (s.getCell x)).hold = (s.getCell x).hold) : s.SamePlaces (s.modCell x f) where
  net := rfl
  owner _ := rfl
  planes c := by
    rw [State.getCell_modCell]
    split
    · next hc => rw [hplanes, hc]
    · rfl
  hold c := by
    rw [State.getCell_modCell]
    split
    · next hc => rw [hhold, hc]
    · rfl
  launch _ := rfl

theorem modLaunch (s : State) (x : Nat) {f : Launch → Launch} (hf : ∀ l, (f l).placing = l.placing) : s.SamePlaces (s.modLaunch x f) where
  net := State.modLaunch_net s x f
  owner y := by rw [State.owner?, State.getTile_modLaunch, State.owner?]
  planes c := by rw [State.getCell_modLaunch]
  hold c := by rw [State.getCell_modLaunch]
  launch y := by
    by_cases hy : y = x
    · rw [hy, State.launch?_modLaunch_same, Option.map_map]
      exact congrArg (Option.map · _) (funext hf)
    · rw [State.launch?_modLaunch_of_ne s f hy]

theorem raiseHi (s : State) (a : Nat) (ts : BitVec 32) : s.SamePlaces (s.raiseHi a ts) := by
  have hwater : s.SamePlaces (s.raiseWater a ts) := by
    unfold State.raiseWater
    split
    · exact modTile s _ rfl
    · exact modCell s _ rfl rfl
  obtain h | ⟨x, h⟩ := s.raiseHi_cases a ts
  · rw [h]
    exact hwater
  · rw [h]
    exact hwater.trans (modLaunch _ x fun _ => rfl)

/-- An atomic's timestamp leaves the places of tokens alone. -/
theorem takeAtomic (s : State) (m : Msg) (time : BitVec 32) : s.SamePlaces (s.takeAtomic m time) := by
  by_cases howner : s.owner? (agentTile m.agent) = some m.owner
  · have hraise := (modTile s (agentTile m.agent) rfl).trans (raiseHi (s.raiseLclk (agentTile m.agent) time) m.agent time)
    obtain h | h := s.takeAtomic_cases m time howner
    · rw [h]
      exact hraise
    · rw [h]
      exact hraise.trans (modLaunch _ _ fun _ => rfl)
  · rw [State.takeAtomic, if_pos howner]
    exact refl s

end State.SamePlaces

@[simp] theorem State.msgs_dropMsg (s : State) (k : Nat) : (s.dropMsg k).msgs = removeAt s.msgs k := rfl

@[simp] theorem State.getTile_dropMsg (s : State) (k x : Nat) : (s.dropMsg k).getTile x = s.getTile x := rfl

/-! Where a reply arrives (R48, R227) -/

/-- A reply has reached a sequencer, and the step that waited for it may go on. -/
def State.stepReplied (s : State) (k tile : Nat) (p : Bool) (r : SeqReply) : State :=
  (s.dropMsg k).modTile tile fun t => { t with wait := some (.poll p), reply := some r }

@[simp] theorem State.getTile_stepReplied (s : State) (k tile : Nat) (p : Bool) (r : SeqReply) :
    (s.stepReplied k tile p r).getTile tile = { s.getTile tile with wait := some (.poll p), reply := some r } := by
  rw [State.stepReplied, State.getTile_modTile, if_pos rfl]
  rfl

@[simp] theorem State.stepReplied_msgs (s : State) (k tile : Nat) (p : Bool) (r : SeqReply) :
    (s.stepReplied k tile p r).msgs = removeAt s.msgs k := rfl

@[simp] theorem State.stepReplied_mem (s : State) (k tile : Nat) (p : Bool) (r : SeqReply) :
    (s.stepReplied k tile p r).mem = s.mem := rfl

theorem State.replySeq_of_waiting {s : State} {k tile : Nat} {m : Msg} {r : SeqReply} {p e : Bool} (hok : r.ok = true)
    (howner : (s.getTile tile).owner = some m.owner) (hwait : (s.getTile tile).wait = some (.reply p e)) :
    s.replySeq k m tile r =
      .next ((if atomicCode r.code.toNat then (s.stepReplied k tile p r).takeAtomic m r.time else s.stepReplied k tile p r).touch m.owner) := by
  simp [State.replySeq, hok, howner, hwait, State.stepReplied]

theorem removeAt_listSet {α : Type} (l : List α) (k : Nat) (x : α) : removeAt (listSet l k x) k = removeAt l k := by
  rw [removeAt, listSet, List.take_set_of_le (Nat.le_refl k), List.drop_set_of_lt (Nat.lt_succ_self k), removeAt]

/-- An atomic's reply to a cell is marked as taken while its token waits (log 142). -/
def State.heldMsg (s : State) (k : Nat) (m : Msg) : State := { s with msgs := listSet s.msgs k { m with held := true } }

/-- The state in which a reply to a cell finds its token's place: an atomic's timestamp has reached its requester, once. -/
def State.atomicTaken (s : State) (k : Nat) (m : Msg) (code : Nat) (time : BitVec 32) : State :=
  if atomicCode code && !m.held then (s.takeAtomic m time).heldMsg k m else s

theorem State.SamePlaces.atomicTaken (s : State) (k : Nat) (m : Msg) (code : Nat) (time : BitVec 32) :
    s.SamePlaces (s.atomicTaken k m code time) := by
  unfold State.atomicTaken
  split
  · exact (SamePlaces.takeAtomic s m time).trans ⟨rfl, fun _ => rfl, fun _ => rfl, fun _ => rfl, fun _ => rfl⟩
  · exact .refl s

/-- A reply to a cell is a token in flight there, and the tile's LCLK takes its hand-off time. -/
def State.cellReplied (s : State) (k : Nat) (m : Msg) (t : NetTok) (code : Nat) (time : BitVec 32) : State :=
  let v := ((s.atomicTaken k m code time).dropMsg k).raiseLclk (cellTile t.pos) time
  State.touchTok { v with net := v.net ++ [t] } m.owner

theorem State.replyCell_of_placed {s : State} (k : Nat) {m : Msg} {t : NetTok} (code : Nat) (time : BitVec 32)
    (howner : s.owner? (cellTile t.pos) = some m.owner) (hplaces : s.placesFor [t] = true) :
    s.replyCell k m t code time = .next (s.cellReplied k m t code time) := by
  have hsame := SamePlaces.atomicTaken s k m code time
  have hmsgs : (s.takeAtomic m time).msgs = s.msgs := (s.takeAtomic_frame m time).1
  have htaken : s.atomicTaken k m code time =
      if atomicCode code && !m.held then { s.takeAtomic m time with msgs := listSet s.msgs k { m with held := true } } else s := by
    rw [State.atomicTaken, State.heldMsg, hmsgs]
  rw [State.replyCell, ← htaken, if_neg (not_not.2 ((hsame.owner _).trans howner)), hsame.placesFor, hplaces]
  rfl

theorem State.atomicTaken_frame (s : State) (k : Nat) (m : Msg) (code : Nat) (time : BitVec 32) :
    removeAt (s.atomicTaken k m code time).msgs k = removeAt s.msgs k ∧ (s.atomicTaken k m code time).mem = s.mem := by
  obtain ⟨hmsgs, -, hmem⟩ := s.takeAtomic_frame m time
  unfold State.atomicTaken
  split
  · rw [State.heldMsg, removeAt_listSet, hmsgs]
    exact ⟨rfl, hmem⟩
  · exact ⟨rfl, rfl⟩

/-- An atomic's timestamp raises no tile's LCLK above it. -/
theorem State.tsMax_lclk_takeAtomic (s : State) (m : Msg) (time : BitVec 32) (x : Nat) :
    tsMax ((s.takeAtomic m time).getTile x).spr.lclk time = tsMax (s.getTile x).spr.lclk time := by
  by_cases howner : s.owner? (agentTile m.agent) = some m.owner
  · by_cases hx : x = agentTile m.agent
    · rw [hx, State.lclk_takeAtomic s m time howner, tsMax_idem]
    · rw [State.getTile_takeAtomic s m time howner, State.getTile_raiseWater, if_neg (fun h => hx h.2), State.raiseLclk,
        State.getTile_modTile, if_neg hx]
  · rw [State.takeAtomic, if_pos howner]

theorem State.tsMax_lclk_atomicTaken (s : State) (k : Nat) (m : Msg) (code : Nat) (time : BitVec 32) (x : Nat) :
    tsMax ((s.atomicTaken k m code time).getTile x).spr.lclk time = tsMax (s.getTile x).spr.lclk time := by
  unfold State.atomicTaken
  split
  · exact s.tsMax_lclk_takeAtomic m time x
  · rfl

theorem State.cellReplied_frame (s : State) (k : Nat) (m : Msg) (t : NetTok) (code : Nat) (time : BitVec 32) :
    (s.cellReplied k m t code time).msgs = removeAt s.msgs k ∧ (s.cellReplied k m t code time).net = s.net ++ [t] ∧
      (s.cellReplied k m t code time).mem = s.mem := by
  obtain ⟨hmsgs, hmem⟩ := s.atomicTaken_frame k m code time
  simp [State.cellReplied, hmsgs, hmem, (SamePlaces.atomicTaken s k m code time).net]

theorem State.lclk_cellReplied (s : State) (k : Nat) (m : Msg) (t : NetTok) (code : Nat) (time : BitVec 32) (x : Nat) :
    ((s.cellReplied k m t code time).getTile x).spr.lclk =
      if x = cellTile t.pos then tsMax (s.getTile x).spr.lclk time else ((s.atomicTaken k m code time).getTile x).spr.lclk := by
  have hget : (s.cellReplied k m t code time).getTile x =
      (((s.atomicTaken k m code time).dropMsg k).raiseLclk (cellTile t.pos) time).getTile x := by
    simp [State.cellReplied, State.getTile]
  rw [hget, State.raiseLclk, State.getTile_modTile]
  split
  · next hx => rw [hx, State.getTile_dropMsg, State.tsMax_lclk_atomicTaken]
  · rw [State.getTile_dropMsg]

theorem State.getCell_cellReplied (s : State) (k : Nat) (m : Msg) (t : NetTok) (code : Nat) (time : BitVec 32) (c : Nat) :
    (s.cellReplied k m t code time).getCell c = (s.atomicTaken k m code time).getCell c := by
  simp [State.cellReplied, State.getCell]

/-- A cell that asked for an atomic takes its timestamp though the reply is a token elsewhere (R218). -/
theorem State.cellReplied_requester (s : State) (k : Nat) (m : Msg) (t : NetTok) (code : Nat) (time : BitVec 32)
    (hatomic : atomicCode code = true) (hheld : m.held = false) (howner : s.owner? (agentTile m.agent) = some m.owner)
    (hseq : agentIsSeq m.agent = false) :
    ((s.cellReplied k m t code time).getTile (agentTile m.agent)).spr.lclk = tsMax (s.getTile (agentTile m.agent)).spr.lclk time ∧
      (s.cellReplied k m t code time).hiOf m.agent = tsMax (s.hiOf m.agent) time := by
  have htaken : s.atomicTaken k m code time = (s.takeAtomic m time).heldMsg k m := by
    simp [State.atomicTaken, hatomic, hheld]
  have hhi := State.hiOf_takeAtomic s m time howner
  constructor
  · rw [State.lclk_cellReplied]
    split
    · rfl
    · rw [htaken]
      exact State.lclk_takeAtomic s m time howner
  · rw [State.hiOf, hseq, State.getCell_cellReplied, htaken, ← hhi, State.hiOf, hseq]
    rfl

end Sys2Proof.Machine

namespace Sys2Proof.Claims

open Sys2Proof.Machine

section Replies

variable {s : State} {k : Nat} {m : Msg} {code : BitVec 8} {fmt : BitVec 3} {ok : Bool} {data : Word} {time : BitVec 32}
  {line : Option (BitVec 512)}

/-- CONCORDANCE_REPLY runs `execConcordanceReply` (R48). -/
theorem exec_concordanceReply (k : Nat) (s : State) : exec (.concordanceReply k) s = execConcordanceReply k s := rfl

/-- A reply to a sequencer that is due. -/
theorem reply_seq {tile : Nat} (hdue : ReplyDue s k m (.seq tile) code fmt ok data time line) :
    exec (.concordanceReply k) s = s.replySeq k m tile ⟨code, ok, data, time, line⟩ := by
  obtain ⟨hmsg, hkind, harrived, hfrozen, hfirst⟩ := hdue
  simp [exec_concordanceReply, execConcordanceReply, hmsg, hkind, harrived, hfrozen, hfirst]

/-- A reply to a cell that is due. -/
theorem reply_cell {dest : BitVec 18} {slot : BitVec 6} {field : BitVec 2} {ctx iter lvl}
    (hdue : ReplyDue s k m (.cell dest slot field ctx iter lvl) code fmt ok data time line) :
    exec (.concordanceReply k) s = s.replyCell k m (replyTok dest slot field ⟨ctx, iter, lvl⟩ fmt ok data m.owner) code.toNat time := by
  obtain ⟨hmsg, hkind, harrived, hfrozen, hfirst⟩ := hdue
  simp [exec_concordanceReply, execConcordanceReply, hmsg, hkind, harrived, hfrozen, hfirst]

/-- An answered command that named no reply. -/
theorem reply_none (hdue : ReplyDue s k m .none code fmt ok data time line) :
    exec (.concordanceReply k) s = .next (if atomicCode code.toNat then (s.dropMsg k).takeAtomic m time else s.dropMsg k) := by
  obtain ⟨hmsg, hkind, harrived, hfrozen, hfirst⟩ := hdue
  simp [exec_concordanceReply, execConcordanceReply, hmsg, hkind, harrived, hfrozen, hfirst]

/-- A reply to a dependence entry that is due. -/
theorem reply_dep {tile e : Nat} {x : DepEnt} (hdue : ReplyDue s k m (.dep tile e) code fmt ok data time line)
    (hdep : smFind (s.getTile tile).deps e = some x) :
    exec (.concordanceReply k) s = .next (((s.dropMsg k).setDep tile e { x with performed := ok }).touch m.owner) := by
  obtain ⟨hmsg, hkind, harrived, hfrozen, hfirst⟩ := hdue
  simp [exec_concordanceReply, execConcordanceReply, hmsg, hkind, harrived, hfrozen, hfirst, hdep]

end Replies

/-- Settles O21: the case of the reply entry picks the rule (`reply_seq`, `reply_cell`, `reply_none`, `reply_dep`), and the
frame of `stepReplied`, `cellReplied` or `takeAtomic` gives what the resulting state holds. -/
theorem engineReplies : Obligations.EngineReplies := by
  unfold Obligations.EngineReplies
  refine ⟨fun k s m tile code fmt data time line p e hdue howner hwait htile hseq => ?_,
    fun k s m dest slot field ctx iter lvl code fmt ok data time line hdue howner hplaces => ?_,
    fun k s m code fmt ok data time line hdue hatomic howner => ?_, fun k s m tile e x code fmt ok data time line hdue hdep => ?_⟩
  · refine ⟨_, (reply_seq hdue).trans (State.replySeq_of_waiting rfl howner hwait), ?_⟩
    subst htile
    cases hatomic : atomicCode code.toNat
    · simp
    · have hheld : (s.stepReplied k (agentTile m.agent) p ⟨code, true, data, time, line⟩).owner? (agentTile m.agent) = some m.owner := by
        simp [State.owner?, howner]
      obtain ⟨hmsgs, -, hmem⟩ := (s.stepReplied k (agentTile m.agent) p ⟨code, true, data, time, line⟩).takeAtomic_frame m time
      simp [State.getTile_takeAtomic_of_seq _ m time hheld hseq, hmsgs, hmem]
  · let x := replyTok dest slot field ⟨ctx, iter, lvl⟩ fmt ok data m.owner
    obtain ⟨hmsgs, hnet, hmem⟩ := s.cellReplied_frame k m x code.toNat time
    exact ⟨_, x, (reply_cell hdue).trans (State.replyCell_of_placed k _ time howner hplaces), hmsgs, hnet,
      (State.lclk_cellReplied ..).trans (if_pos rfl), s.cellReplied_requester k m x code.toNat time,
      rfl, by simp [x, replyTok, mkTok, Token.seal], by simp [x, replyTok, mkTok, Token.seal], rfl, rfl, rfl, rfl, rfl, rfl, fun a => by rw [hmem]⟩
  · refine ⟨(s.dropMsg k).takeAtomic m time, (reply_none hdue).trans (by rw [if_pos hatomic]), ?_⟩
    obtain ⟨hmsgs, -, hmem⟩ := (s.dropMsg k).takeAtomic_frame m time
    exact ⟨hmsgs, State.hiOf_takeAtomic _ m time howner, State.lclk_takeAtomic _ m time howner, fun a => by rw [hmem]; rfl⟩
  · refine ⟨_, reply_dep hdue hdep, ?_⟩
    simp [State.setDep]

end Sys2Proof.Claims

/-! SUPPORT. Which function `step` runs for each agent `now` names, and what the lead sequencer and a block do in each case
of the fetched word. -/

namespace Sys2Proof.Machine

variable {s v : State} {t c : Nat} {b : Block} {i : Instr} {e : DecodeErr}

theorem step_of_seq (hnow : s.now = .seq t) : step s = advance (stepSeq s t) := by rw [step, hnow]

theorem step_of_handler (hnow : s.now = .handler c) : step s = advance (stepHandler s c) := by rw [step, hnow]

theorem step_of_event (hnow : s.now = .event) : step s = advance (stepEvent s) := by rw [step, hnow]

theorem step_of_image (hnow : s.now = .image) : step s = advance (.next (s.loadImage (Config.image s.tick))) := by
  rw [step, hnow]

section StepWord

variable {w : BitVec 64} {x : Target} (hready : s.seqReady t = true)
include hready

theorem stepSeq_of_no_word (hword : State.stepWord { s with tile := t } = none) :
    stepSeq s t = State.trap { s with tile := t } 0x01 := by
  rw [stepSeq, if_pos hready]
  dsimp only
  rw [hword]

variable (hword : State.stepWord { s with tile := t } = some w)
include hword

theorem stepSeq_of_fetch_fault {cause : Nat} (hfetch : State.fetchStep { s with tile := t } = .fault cause) :
    stepSeq s t = State.trapWith { s with tile := t } cause (State.stepVa { s with tile := t }) := by
  rw [stepSeq, if_pos hready]
  dsimp only
  rw [hword, hfetch]

theorem stepSeq_of_fetch_wait (hfetch : State.fetchStep { s with tile := t } = .wait v) : stepSeq s t = .next v := by
  rw [stepSeq, if_pos hready]
  dsimp only
  rw [hword, hfetch]

variable (hfetch : State.fetchStep { s with tile := t } = .ok x v)
include hfetch

theorem stepSeq_of_decoded (hdec : decodeSeq w = .ok i) : stepSeq s t = exec i v := by
  rw [stepSeq, if_pos hready]
  dsimp only
  rw [hword, hfetch]
  dsimp only
  rw [hdec]

theorem stepSeq_of_undecoded (hdec : decodeSeq w = .error e) : stepSeq s t = v.trap (errCause e) := by
  rw [stepSeq, if_pos hready]
  dsimp only
  rw [hword, hfetch]
  dsimp only
  rw [hdec]

end StepWord

section HandlerWord

variable {w l : BitVec 32} (hready : s.handlerReady c = true) (hblock : (s.getCell c).block = some b)
include hready hblock

theorem stepHandler_of_no_word (hword : s.handlerWord c b = none) :
    stepHandler s c = State.trapBlock { s with cell := c } 0x06 0 := by
  have hword' : State.handlerWord { s with cell := c } c b = none := hword
  rw [stepHandler, hready, hblock]
  dsimp only
  rw [hword']

variable (hword : s.handlerWord c b = some (w, l))
include hword

theorem stepHandler_of_decoded (hdec : decodeHandler w l = .ok i) :
    stepHandler s c =
      if s.literalOk c b i then exec i { s with cell := c } else State.trapBlock { s with cell := c } 0x06 0 := by
  have hword' : State.handlerWord { s with cell := c } c b = some (w, l) := hword
  rw [stepHandler, hready, hblock]
  dsimp only
  rw [hword']
  dsimp only
  rw [hdec]
  rfl

theorem stepHandler_of_undecoded (hdec : decodeHandler w l = .error e) :
    stepHandler s c = State.trapBlock { s with cell := c } (errCause e) 0 := by
  have hword' : State.handlerWord { s with cell := c } c b = some (w, l) := hword
  rw [stepHandler, hready, hblock]
  dsimp only
  rw [hword']
  dsimp only
  rw [hdec]

end HandlerWord

end Sys2Proof.Machine

namespace Sys2Proof.Claims

open Sys2Proof.Machine

/-- Settles O56: `step` is `advance` of the named agent's function, and each clause is that function's case. -/
theorem stepRunsDecoded : Obligations.StepRunsDecoded := by
  unfold Obligations.StepRunsDecoded
  refine ⟨?_, ?_, ?_, ?_, ?_, ?_, ?_, ?_, ?_, ?_, fun t => rfl⟩
  · intro s t w i x v hnow hready hword hfetch hdec
    rw [step_of_seq hnow, stepSeq_of_decoded hready hword hfetch hdec]
  · intro s t w e x v hnow hready hword hfetch hdec
    rw [step_of_seq hnow, stepSeq_of_undecoded hready hword hfetch hdec]
    cases e <;> rfl
  · intro s t w hnow hready hword
    rw [step_of_seq hnow]
    exact ⟨fun cause hfetch => by rw [stepSeq_of_fetch_fault hready hword hfetch],
      fun v hfetch => by rw [stepSeq_of_fetch_wait hready hword hfetch]⟩
  · intro s t hnow hready hword
    rw [step_of_seq hnow, stepSeq_of_no_word hready hword]
  · intro s c b w l i hnow hready hblock hword hdec hlit
    rw [step_of_handler hnow, stepHandler_of_decoded hready hblock hword hdec, if_pos hlit]
  · intro s c b w l i hnow hready hblock hword hdec hlit
    rw [step_of_handler hnow, stepHandler_of_decoded hready hblock hword hdec, if_neg (by simp [hlit])]
  · intro s c b w l e hnow hready hblock hword hdec
    rw [step_of_handler hnow, stepHandler_of_undecoded hready hblock hword hdec]
    cases e <;> rfl
  · intro s c b hnow hready hblock hword
    rw [step_of_handler hnow, stepHandler_of_no_word hready hblock hword]
  · exact fun s hnow => step_of_event hnow
  · exact fun s hnow => step_of_image hnow

/-- Settles O57: each word is a closed term, and decoding it computes to the answer. -/
theorem wordsDecode : Obligations.WordsDecode := by
  unfold Obligations.WordsDecode
  exact ⟨⟨rfl, rfl, rfl, rfl, rfl, rfl, rfl, rfl, rfl, rfl, rfl, rfl, rfl, rfl⟩, ⟨rfl, rfl⟩,
    ⟨rfl, rfl, rfl, rfl, rfl, rfl, rfl, rfl, rfl, rfl, rfl⟩, rfl, rfl⟩

end Sys2Proof.Claims

/-! What every operation of the state does to the one byte memory: most leave it as it is, and the rest write it byte by byte. -/

namespace Sys2Proof.Machine

@[simp] theorem State.ite_mem (c : Prop) [Decidable c] (s t : State) : (if c then s else t).mem = if c then s.mem else t.mem := apply_ite State.mem c s t

@[simp] theorem State.foldl_mem {α : Type} (f : State → α → State) (h : ∀ s x, (f s x).mem = s.mem) (l : List α) (s : State) :
    (l.foldl f s).mem = s.mem := foldl_frame State.mem f h l s

theorem foldl_snd_mem {α β : Type} (f : β × State → α → β × State) (h : ∀ r x, (f r x).2.mem = r.2.mem) (l : List α) (r : β × State) :
    (l.foldl f r).2.mem = r.2.mem := by
  induction l generalizing r with
  | nil => rfl
  | cons x l ih => simp only [List.foldl_cons, ih, h]

theorem foldl_snd_snd_mem {α β γ : Type} (f : β × γ × State → α → β × γ × State) (h : ∀ r x, (f r x).2.2.mem = r.2.2.mem) (l : List α) (r : β × γ × State) :
    (l.foldl f r).2.2.mem = r.2.2.mem := by
  induction l generalizing r with
  | nil => rfl
  | cons x l ih => simp only [List.foldl_cons, ih, h]

/-! Operations that leave the memory: Sys2Proof/Machine/Ops.lean -/

@[simp] theorem State.setCp_mem (s : State) (c : Nat) (x : CellPlane) : (s.setCp c x).mem = s.mem := by
  simp [State.setCp]

@[simp] theorem State.fresh_mem (s : State) : s.fresh.2.mem = s.mem := by
  simp [State.fresh]

@[simp] theorem State.nextStamp_mem (s : State) : s.nextStamp.2.mem = s.mem := by
  simp [State.nextStamp]

@[simp] theorem State.faultCell_mem (s : State) (c cause data : Nat) : (s.faultCell c cause data).mem = s.mem := by
  simp [State.faultCell]

@[simp] theorem State.takeSeq_mem (s : State) (k : Nat) : (s.takeSeq k).2.mem = s.mem := by
  simp [State.takeSeq]

@[simp] theorem State.ofRun_mem (s : State) (run : Nat) : (s.ofRun run).mem = s.mem := by
  unfold State.ofRun
  split <;> simp

@[simp] theorem State.raiseHi_mem (s : State) (a : Nat) (ts : BitVec 32) : (s.raiseHi a ts).mem = s.mem := by
  unfold State.raiseHi
  dsimp only
  repeat' split
  all_goals simp

/-! Operations that leave the memory: Sys2Proof/Machine/Flags.lean -/

@[simp] theorem State.setCvst_mem (s : State) (c v : Nat) : (s.setCvst c v).mem = s.mem := by
  simp [State.setCvst]

@[simp] theorem State.cvstClear_mem (s : State) (c v : Nat) : (s.cvstClear c v).mem = s.mem := by
  simp [State.cvstClear]

/-! Operations that leave the memory: Sys2Proof/Machine/Access.lean -/

@[simp] theorem State.askWalk_mem (s : State) (a : Nat) (vmid : BitVec 16) (page : Nat) : (s.askWalk a vmid page).mem = s.mem := by
  simp [State.askWalk]

theorem State.reach_ok_mem {s u : State} {a va n al : Nat} {v : BitVec 16} {need : Need} {types : BitVec 3 → Option Nat} {t : Target}
    (h : s.reach a v va n al need types = .ok t u) : u.mem = s.mem := by
  revert h
  unfold State.reach State.translate
  repeat' split
  all_goals aesop

theorem State.reach_wait_mem {s u : State} {a va n al : Nat} {v : BitVec 16} {need : Need} {types : BitVec 3 → Option Nat}
    (h : s.reach a v va n al need types = .wait u) : u.mem = s.mem := by
  revert h
  unfold State.reach State.translate
  repeat' split
  all_goals aesop

@[simp] theorem State.request_mem (s : State) (a owner die : Nat) (k : MsgKind) : (s.request a owner die k).mem = s.mem := by
  simp [State.request]

@[simp] theorem State.countHit_mem (s : State) (a line : Nat) (rts : BitVec 32) : (s.countHit a line rts).mem = s.mem := by
  simp [State.countHit]

@[simp] theorem State.putStore_mem (s : State) (a owner va : Nat) (t : Target) (n v : Nat) : (s.putStore a owner va t n v).mem = s.mem := by
  simp [State.putStore]

/-! Operations that leave the memory: Sys2Proof/Machine/Fetch.lean -/

@[simp] theorem State.placeStep_mem (s : State) (w : BitVec 64) : (s.placeStep w).mem = s.mem := by
  simp [State.placeStep]

/-! Operations that leave the memory: Sys2Proof/Machine/Homes.lean -/

@[simp] theorem State.queueMsg_mem (s : State) (k : Nat) : (s.queueMsg k).mem = s.mem := by
  unfold State.queueMsg
  split <;> simp

@[simp] theorem State.evictLine_mem (s : State) (line : Nat) : (s.evictLine line).mem = s.mem := by
  unfold State.evictLine
  split <;> simp

@[simp] theorem State.makeRoom_mem (s : State) (d room : Nat) : (s.makeRoom d room).mem = s.mem := by
  simp [State.makeRoom]

@[simp] theorem State.fillLine_mem (s : State) (line : Nat) : (s.fillLine line).mem = s.mem := by
  unfold State.fillLine
  split <;> simp

@[simp] theorem State.setLineTs_mem (s : State) (line : Nat) (w r : BitVec 32) : (s.setLineTs line w r).mem = s.mem := by
  simp [State.setLineTs]

@[simp] theorem State.askRebase_mem (s : State) (d : Nat) : (s.askRebase d).mem = s.mem := by
  simp [State.askRebase]

@[simp] theorem State.dropAgent_mem (s : State) (a : Nat) : (s.dropAgent a).mem = s.mem := by
  simp [State.dropAgent]

@[simp] theorem State.fatal_mem (s : State) (d cause : Nat) : (s.fatal d cause).mem = s.mem := by
  simp [State.fatal]

@[simp] theorem State.cacheLine_mem (s : State) (t line : Nat) (l : CLine) : (s.cacheLine t line l).mem = s.mem := by
  simp [State.cacheLine]

@[simp] theorem State.giveLine_mem (s : State) (a line : Nat) (l : CLine) : (s.giveLine a line l).mem = s.mem := by
  simp [State.giveLine]

@[simp] theorem State.resetSpins_mem (s : State) (t : Nat) : (s.resetSpins t).mem = s.mem := by
  simp [State.resetSpins]

@[simp] theorem State.raiseRun_mem (s : State) (u run : Nat) (ts : BitVec 32) : (s.raiseRun u run ts).mem = s.mem := by
  simp [State.raiseRun]

@[simp] theorem State.raiseQueued_mem (s : State) (u : Nat) (ts : BitVec 32) : (s.raiseQueued u ts).mem = s.mem := by
  unfold State.raiseQueued
  split
  · rw [State.foldl_mem _ (fun s x => ?_) _ _]
    dsimp only
    simp
  · rfl

@[simp] theorem State.rebase_mem (s : State) : s.rebase.mem = s.mem := by
  simp [State.rebase]

/-! Operations that leave the memory: Sys2Proof/Machine/Walker.lean -/

@[simp] theorem State.dropTlb_mem (s : State) (p : TlbEnt → Bool) : (s.dropTlb p).mem = s.mem := by
  simp [State.dropTlb]

@[simp] theorem State.dropLines_mem (s : State) (frame bytes : Nat) : (s.dropLines frame bytes).mem = s.mem := by
  simp [State.dropLines]

@[simp] theorem State.xinvMark_mem (s : State) (die : Nat) : (s.xinvMark die).mem = s.mem := by
  simp [State.xinvMark]

@[simp] theorem State.migEnd_mem (s : State) (die status : Nat) : (s.migEnd die status).mem = s.mem := by
  simp [State.migEnd]

/-! Operations that leave the memory: Sys2Proof/Machine/Regs.lean -/

@[simp] theorem State.vaultThaw_mem (s : State) (die : Nat) : (s.vaultThaw die).mem = s.mem := by
  simp [State.vaultThaw]

@[simp] theorem State.plogWrite_mem (s : State) (die off v : Nat) : (s.plogWrite die off v).mem = s.mem := by
  simp [State.plogWrite]

@[simp] theorem State.ctlWrite_mem (s : State) (die off v m agent : Nat) : (s.ctlWrite die off v m agent).mem = s.mem := by
  simp [State.ctlWrite]

@[simp] theorem State.regWrite_mem (s : State) (die block off n v agent : Nat) : (s.regWrite die block off n v agent).mem = s.mem := by
  simp [State.regWrite]

@[simp] theorem State.giveBytes_mem (s : State) (a flat : Nat) (v : Nat) : (s.giveBytes a flat v).mem = s.mem := by
  simp [State.giveBytes]

/-! Operations that leave the memory: Sys2Proof/Machine/Release.lean -/

@[simp] theorem State.hostReads_mem (s : State) (a owner : Nat) : (s.hostReads a owner).2.mem = s.mem := by
  unfold State.hostReads
  dsimp only
  repeat' split
  all_goals simp

@[simp] theorem State.settled_mem (s : State) (a owner : Nat) (scope : BitVec 2) (direct : Bool) : (s.settled a owner scope direct).2.mem = s.mem := by
  unfold State.settled
  repeat' split
  all_goals simp

@[simp] theorem State.release_mem (s : State) (a owner : Nat) (scope : BitVec 2) : (s.release a owner scope).2.mem = s.mem := by
  unfold State.release
  dsimp only
  repeat' split
  all_goals simp

@[simp] theorem State.track_mem (s : State) (a owner : Nat) : (s.track a owner).mem = s.mem := by
  simp [State.track]

/-! Operations that leave the memory: Sys2Proof/Machine/Conc.lean -/

@[simp] theorem State.reply_mem (s : State) (m : Msg) (c : SyncCmd) (ok : Bool) (data : Word) (time : BitVec 32) (line : Option (BitVec 512)) : (s.reply m c ok data time line).mem = s.mem := by
  simp [State.reply]

@[simp] theorem State.cmdFault_mem (s : State) (k : Nat) (m : Msg) (c : SyncCmd) (cause : Nat) : (s.cmdFault k m c cause).mem = s.mem := by
  simp [State.cmdFault]

@[simp] theorem State.answerWaiters_mem (s : State) (die off : Nat) : (s.answerWaiters die off).mem = s.mem := by
  unfold State.answerWaiters
  dsimp only
  repeat' split
  all_goals simp

@[simp] theorem State.runPhases_mem (die off n : Nat) (s : State) : (State.runPhases die off n s).mem = s.mem := by
  induction n generalizing s with
  | zero => rfl
  | succ n ih =>
    unfold State.runPhases
    repeat' split
    all_goals simp [ih]

@[simp] theorem State.putPhaser_mem (s : State) (die off : Nat) (p : Phaser) : (s.putPhaser die off p).mem = s.mem := by simp [State.putPhaser]

@[simp] theorem State.phaserError_mem (s : State) (die off : Nat) (code : BitVec 8) : (s.phaserError die off code).mem = s.mem := by
  unfold State.phaserError
  split <;> simp

@[simp] theorem State.signalAs_mem (s : State) (flat agent : Nat) (whw : BitVec 32) : (s.signalAs flat agent whw).mem = s.mem := by
  unfold State.signalAs
  dsimp only
  repeat' split
  all_goals simp

@[simp] theorem State.phEnd_mem (s : State) (die status : Nat) : (s.phEnd die status).mem = s.mem := by
  simp [State.phEnd]

@[simp] theorem State.loadImage_mem (s : State) (f : Folio) : (s.loadImage f).mem = s.mem := by
  unfold State.loadImage
  refine State.foldl_mem _ (fun s x => ?_) _ _
  dsimp only
  repeat' split
  all_goals simp

/-! Operations that leave the memory: Sys2Proof/Machine/Launches.lean -/

@[simp] theorem State.takeRecord_mem (s : State) (die : Nat) (vmid : BitVec 16) (q : QRec) (bad : Bool) : (s.takeRecord die vmid q bad).mem = s.mem := by
  unfold State.takeRecord
  dsimp only
  repeat' split
  all_goals simp

@[simp] theorem State.countGraph_mem (s : State) (vmid : BitVec 16) (g : BitVec 32) : (s.countGraph vmid g).mem = s.mem := by
  unfold State.countGraph
  repeat' split
  all_goals simp

/-! Operations that leave the memory: Sys2Proof/Machine/Granary.lean -/

@[simp] theorem State.setQueue_mem (s : State) (die q : Nat) (x : Queue) : (s.setQueue die q x).mem = s.mem := by
  simp [State.setQueue]

@[simp] theorem State.refuseWaiter_mem (s : State) (die : Nat) (w : QWaiter) (code : BitVec 8) (cause : Nat) : (s.refuseWaiter die w code cause).mem = s.mem := by
  simp [State.refuseWaiter]

@[simp] theorem State.placeRec_mem (s : State) (die q : Nat) (r : QRec) : (s.placeRec die q r).mem = s.mem := by
  unfold State.placeRec
  dsimp only
  split <;> simp

@[simp] theorem State.qEnd_mem (s : State) (die status : Nat) : (s.qEnd die status).mem = s.mem := by
  simp [State.qEnd]

@[simp] theorem State.windowRefused_mem (s : State) (die : Nat) : (s.windowRefused die).mem = s.mem := by
  simp [State.windowRefused]

@[simp] theorem State.hostAnswer_mem (s : State) (v : BitVec 512) : (s.hostAnswer v).mem = s.mem := by
  simp [State.hostAnswer]

@[simp] theorem State.hostAbort_mem (s : State) : s.hostAbort.mem = s.mem := by
  simp [State.hostAbort]

@[simp] theorem State.hostUnclaimed_mem (s : State) : s.hostUnclaimed.mem = s.mem := by
  simp [State.hostUnclaimed]

@[simp] theorem State.windowRead_mem (s : State) (off : Nat) : (s.windowRead off).mem = s.mem := by
  unfold State.windowRead
  split <;> simp

/-! Operations that leave the memory: Sys2Proof/Machine/Scalar.lean -/

@[simp] theorem State.jump_mem (s : State) (a : Word) : (s.jump a).mem = s.mem := by
  simp [State.jump]

/-! Operations that leave the memory: Sys2Proof/Machine/Sync.lean -/

@[simp] theorem State.handOff_mem (s : State) (t : BitVec 32) : (s.handOff t).mem = s.mem := by
  simp [State.handOff]

/-! Operations that leave the memory: Sys2Proof/Machine/Vcell.lean -/

@[simp] theorem State.freeFlit_mem (s : State) (fmt : Nat) : (s.freeFlit fmt).2.mem = s.mem := by rw [State.freeFlit_state]

@[simp] theorem State.popRaw_mem (s : State) (c n code k : Nat) : (s.popRaw c n code k).mem = s.mem := by
  simp [State.popRaw]

@[simp] theorem State.pop_mem (s : State) (c n : Nat) (b : Bool) : (s.pop c n b).mem = s.mem := by
  unfold State.pop
  dsimp only
  repeat' split
  all_goals simp

@[simp] theorem State.flitFault_mem (s : State) (c cause : Nat) : (s.flitFault c cause).mem = s.mem := by
  simp [State.flitFault]

@[simp] theorem State.gateTook_mem (s : State) (c n : Nat) (x : Flit) : (s.gateTook c n x).mem = s.mem := by
  simp [State.gateTook]

/-! Operations that leave the memory: Sys2Proof/Machine/Matrix.lean -/

@[simp] theorem State.addGroup_mem (s : State) (c : Nat) (f : StageF) (acc : List Nat) (terms : Nat → List FVal) : (s.addGroup c f acc terms).2.mem = s.mem := by
  simp [State.addGroup]

/-! Operations that leave the memory: Sys2Proof/Machine/Mesh.lean -/

@[simp] theorem State.addBad_mem (s : State) (c cause : Nat) : (s.addBad c cause).mem = s.mem := by
  unfold State.addBad
  dsimp only
  repeat' split
  all_goals simp

@[simp] theorem State.plog_mem (s : State) (c port cause : Nat) : (s.plog c port cause).mem = s.mem := by
  unfold State.plog
  dsimp only
  repeat' split
  all_goals simp

@[simp] theorem State.pulse_mem (s : State) (c code : Nat) : (s.pulse c code).mem = s.mem := by
  simp [State.pulse]

/-! Operations that leave the memory: Sys2Proof/Machine/Tokens.lean -/

@[simp] theorem State.setPools_mem (s : State) (c : Nat) (tags : List TagEnt) (ctxs : List (BitVec 8)) : (s.setPools c tags ctxs).mem = s.mem := by
  simp [State.setPools]

@[simp] theorem State.sendToks_mem (s : State) (ts : List NetTok) : (s.sendToks ts).mem = s.mem := by
  simp [State.sendToks]

@[simp] theorem State.dropTok_mem (s : State) (k : Nat) : (s.dropTok k).mem = s.mem := by
  simp [State.dropTok]

@[simp] theorem State.tokFault_mem (s : State) (k : Nat) (t : NetTok) (c cause : Nat) : (s.tokFault k t c cause).mem = s.mem := by
  simp [State.tokFault]

@[simp] theorem State.tokConverted_mem (s : State) (c flags : Nat) (l : BitVec 32) : (s.tokConverted c flags l).mem = s.mem := by
  simp [State.tokConverted]

@[simp] theorem State.intoStore_mem (s : State) (c : Nat) (t : Token) (more : List Token) : (s.intoStore c t more).mem = s.mem := by
  simp [State.intoStore]

@[simp] theorem State.intoHold_mem (s : State) (c : Nat) (t : NetTok) : (s.intoHold c t).mem = s.mem := by
  simp [State.intoHold]

/-! Operations that leave the memory: Sys2Proof/Machine/Operands.lean -/

@[simp] theorem State.setBlk_mem (s : State) (b : Block) : (s.setBlk b).mem = s.mem := by
  simp [State.setBlk]

/-! Operations that leave the memory: Sys2Proof/Machine/HBlock.lean -/

@[simp] theorem State.freeRegs_mem (s : State) : s.freeRegs.2.mem = s.mem := by
  unfold State.freeRegs
  exact foldl_snd_mem _ (fun r i => by rfl) _ _

@[simp] theorem State.firingTag_mem (s : State) (f : Firing) : (s.firingTag f).2.mem = s.mem := by
  unfold State.firingTag
  dsimp only
  repeat' split
  all_goals simp

@[simp] theorem State.ungrant_mem (s : State) (c : Nat) (b : Block) : (s.ungrant c b).mem = s.mem := by
  simp [State.ungrant]

@[simp] theorem State.abandon_mem (s : State) (c : Nat) : (s.abandon c).mem = s.mem := by
  unfold State.abandon
  split <;> simp

@[simp] theorem State.emitAux_mem (s : State) (b : Block) (a : Opnd) (fmt : BitVec 3) : (s.emitAux b a fmt).2.mem = s.mem := by
  unfold State.emitAux
  repeat' split
  all_goals simp

@[simp] theorem State.takeInputs_mem (s : State) (c : Nat) (b : Block) (keep : BitVec 3) : (s.takeInputs c b keep).mem = s.mem := by
  simp [State.takeInputs]

@[simp] theorem State.freeTags_mem (s : State) (c : Nat) (b : Block) : (s.freeTags c b).mem = s.mem := by
  simp [State.freeTags]

@[simp] theorem State.reserveToks_mem (s : State) (ts : List NetTok) : (s.reserveToks ts).mem = s.mem := by
  simp [State.reserveToks]

@[simp] theorem State.syncSend_mem (s : State) (c : Nat) (m : SyncCmd) : (s.syncSend c m).2.mem = s.mem := by
  unfold State.syncSend
  dsimp only
  repeat' split
  all_goals simp

/-! Operations that leave the memory: Sys2Proof/Machine/Planes.lean -/

@[simp] theorem State.startRun_mem (s : State) (u : Nat) : (s.startRun u).mem = s.mem := by
  unfold State.startRun
  dsimp only
  repeat' split
  all_goals simp

@[simp] theorem State.unstage_mem (s : State) (u : Nat) (l : Launch) (e : SpillEnt) : (s.unstage u l e).mem = s.mem := by
  simp [State.unstage]

@[simp] theorem State.abandonAll_mem (s : State) (l : Launch) : (s.abandonAll l).mem = s.mem :=
  State.foldl_mem _ (fun s c => by repeat' split
                                   all_goals simp) _ _

@[simp] theorem State.freezeToks_mem (s : State) (l : Launch) : (s.freezeToks l).mem = s.mem := by
  unfold State.freezeToks
  exact State.foldl_mem _ (fun _ _ => by rfl) _ _

@[simp] theorem State.thawToks_mem (s : State) (l : Launch) (plane : Nat) : (s.thawToks l plane).mem = s.mem := by
  unfold State.thawToks
  refine State.foldl_mem _ (fun s x => ?_) _ _
  dsimp only
  repeat' split
  all_goals simp

@[simp] theorem State.deliverHeld_mem (s : State) (l : Launch) (ctx : BitVec 8) : (s.deliverHeld l ctx).mem = s.mem := by
  simp [State.deliverHeld]

@[simp] theorem State.bindCmds_mem (s : State) (l : Launch) (u depth : Nat) (old new : Option Nat) : (s.bindCmds l u depth old new).mem = s.mem := by
  unfold State.bindCmds
  refine State.foldl_mem _ (fun s x => ?_) _ _
  dsimp only
  simp

/-! Operations that leave the memory: Sys2Proof/Machine/Cfg.lean -/

@[simp] theorem State.dropLevels_mem (s : State) (u : Nat) : (s.dropLevels u).mem = s.mem := by
  unfold State.dropLevels
  split
  · rfl
  · split
    · rfl
    · dsimp only [State.setLaunch_mem]
      rw [State.foldl_mem]
      · simp
      · intro s c
        repeat' split
        all_goals simp

@[simp] theorem State.stopUnit_mem (s : State) (u : Nat) (l : Launch) : (s.stopUnit u l).mem = s.mem := by simp [State.stopUnit]

@[simp] theorem State.shareHi_mem (s : State) (l : Launch) : (s.shareHi l).mem = s.mem := by
  unfold State.shareHi
  exact State.foldl_mem _ (fun _ _ => by rfl) _ _

@[simp] theorem State.atStage_mem (s : State) (n : Nat) : (s.atStage n).mem = s.mem := by
  simp [State.atStage]

@[simp] theorem State.leaveCallee_mem (s : State) (l : Launch) (v : Level) : (s.leaveCallee l v).mem = s.mem := by
  unfold State.leaveCallee
  split <;> simp

@[simp] theorem State.preloaded_mem (s : State) (u : Nat) (l : Launch) (p idx : Nat) : (s.preloaded u l p idx).mem = s.mem := by
  unfold State.preloaded
  dsimp only
  repeat' split
  all_goals simp

/-! Operations that leave the memory: Sys2Proof/Machine/Streams.lean -/

@[simp] theorem State.modHead_mem (s : State) (tile p owner : Nat) (f : Cmd → Cmd) : (s.modHead tile p owner f).mem = s.mem := by
  simp [State.modHead]

@[simp] theorem State.enqueue_mem (s : State) (tile p : Nat) (c : Cmd) : (s.enqueue tile p c).mem = s.mem := by
  simp [State.enqueue]

@[simp] theorem State.popQueue_mem (s : State) (tile k : Nat) : (s.popQueue tile k).mem = s.mem := by
  simp [State.popQueue]

@[simp] theorem State.streamFault_mem (s : State) (tile k : Nat) (c : Cmd) (cause va : Nat) : (s.streamFault tile k c cause va).mem = s.mem := by
  simp [State.streamFault]

@[simp] theorem State.heldLast_mem (s : State) : s.heldLast.mem = s.mem := by
  unfold State.heldLast
  split <;> simp

@[simp] theorem State.asked_mem (s : State) (tile p owner : Nat) (x : Part) : (s.asked tile p owner x).mem = s.mem := by
  simp [State.asked]

@[simp] theorem State.streamTs_mem (s : State) (tile p : Nat) (agent owner run : Nat) (ts : BitVec 32) : (s.streamTs tile p agent owner run ts).mem = s.mem := by
  unfold State.streamTs
  dsimp only
  repeat' split
  all_goals simp

@[simp] theorem State.wrote_mem (s : State) (tile p owner : Nat) (x : Part) (out : Nat) : (s.wrote tile p owner x out).mem = s.mem := by
  simp [State.wrote]

@[simp] theorem State.marker_mem (s : State) (l : Launch) : (s.marker l).mem = s.mem := by
  simp [State.marker]

@[simp] theorem State.intoPort_mem (s : State) (c : Cmd) (d : BitVec 512) (mark : BitVec 3) : (s.intoPort c d mark).mem = s.mem := by
  simp [State.intoPort]

@[simp] theorem State.feed_mem (s : State) (tile p : Nat) (c : Cmd) (d : BitVec 512) : (s.feed tile p c d).mem = s.mem := by
  simp [State.feed]

@[simp] theorem State.depDone_mem (s : State) (tile e : Nat) (hw : BitVec 32) : (s.depDone tile e hw).mem = s.mem := by
  simp [State.depDone]

/-! Operations that leave the memory: Sys2Proof/Machine/Replies.lean -/

@[simp] theorem State.setDep_mem (s : State) (tile e : Nat) (x : DepEnt) : (s.setDep tile e x).mem = s.mem := by
  simp [State.setDep]

@[simp] theorem State.depStream_mem (s : State) (tile e : Nat) (l : Launch) (x : DepEnt) (c : Cmd) (p t : Nat) : (s.depStream tile e l x c p t).mem = s.mem := by
  simp [State.depStream]

@[simp] theorem State.depSignal_mem (s : State) (tile e : Nat) (l : Launch) (x : DepEnt) (va : Word) (scope : BitVec 2) :
    (s.depSignal tile e l x va scope).2.mem = s.mem := by
  unfold State.depSignal
  dsimp only
  split
  · simp
  · next heq => exact State.reach_wait_mem heq
  · next t u heq =>
    have hu := State.reach_ok_mem heq
    have hr := u.release_mem (seqAgent tile) ((s.owner? tile).getD 0) scope
    split
    · next hrel => simpa [hrel, hu] using hr
    · next hrel =>
      rw [hrel] at hr
      split
      · exact hu
      · simpa [hu] using hr

@[simp] theorem State.depRun_mem (s : State) (tile e : Nat) (l : Launch) (x : DepEnt) (idx : BitVec 8) : (s.depRun tile e l x idx).mem = s.mem := by
  unfold State.depRun
  dsimp only
  repeat' split
  · simp
  · simp
  · rw [State.setDep_mem, State.foldl_mem]
    · simp
    · exact fun _ _ => rfl

@[simp] theorem State.depAsk_mem (s : State) (tile : Nat) (l : Launch) : (s.depAsk tile l).mem = s.mem := by
  refine State.foldl_mem _ (fun s x => ?_) _ _
  split
  · next va scope _ _ =>
    have h := s.depSignal_mem tile x.1 l x.2 va scope
    split <;> next heq => simp_all
  · rfl

@[simp] theorem State.takeAtomic_mem (s : State) (m : Msg) (time : BitVec 32) : (s.takeAtomic m time).mem = s.mem := by
  simp [State.takeAtomic]

@[simp] theorem State.delivered_mem (s : State) (r : FlowRef) : (s.delivered r).mem = s.mem := by
  simp [State.delivered]

@[simp] theorem State.markMsg_mem (s : State) (k : Nat) (m : Msg) : (s.markMsg k m).mem = s.mem := by
  simp [State.markMsg]

/-! Operations that leave the memory: Sys2Proof/Machine/Drains.lean -/

@[simp] theorem State.modDrain_mem (s : State) (u : Nat) (f : Drain → Drain) : (s.modDrain u f).mem = s.mem := by
  simp [State.modDrain]

@[simp] theorem State.orphan_mem (s : State) (u n : Nat) : (s.orphan u n).mem = s.mem := by
  simp [State.orphan]

@[simp] theorem State.popFirst_mem (s : State) (c code : Nat) : (s.popFirst c code).mem = s.mem := by
  simp [State.popFirst]

@[simp] theorem State.popBeat_mem (s : State) (c n : Nat) (x : Bool × Nat) : (s.popBeat c n x).mem = s.mem := by
  simp [State.popBeat]

@[simp] theorem State.dropSide_mem (s : State) (c n : Nat) (xs : List (Bool × Nat)) : (s.dropSide c n xs).2.mem = s.mem := by
  unfold State.dropSide
  split <;> simp

@[simp] theorem State.clearOuts_mem (s : State) (c n : Nat) : (s.clearOuts c n).2.mem = s.mem := by
  simp [State.clearOuts]

@[simp] theorem State.settleCell_mem (s : State) (c : Nat) : (s.settleCell c).2.mem = s.mem := by
  unfold State.settleCell
  split <;> simp

@[simp] theorem State.settleT2s_mem (s : State) (c : Nat) : (s.settleT2s c).2.2.mem = s.mem := by
  unfold State.settleT2s
  dsimp only
  repeat' split
  all_goals simp

@[simp] theorem State.settle_mem (s : State) (l : Launch) : (s.settle l).2.2.mem = s.mem := by
  unfold State.settle
  dsimp only
  rw [foldl_snd_snd_mem _ (fun r c => by simp), foldl_snd_mem _ (fun r c => by simp)]

@[simp] theorem State.drainEvent_mem (s : State) (u n : Nat) : (s.drainEvent u n).mem = s.mem := by
  simp [State.drainEvent]

@[simp] theorem State.quiescent_mem (s : State) (u : Nat) (l : Launch) : (s.quiescent u l).mem = s.mem := by
  simp [State.quiescent]

/-! Operations that leave the memory: Sys2Proof/Machine/Placing.lean -/

@[simp] theorem State.placeUnit_mem (s : State) (u : Nat) (l : Launch) (die : Nat) (p : Place) : (s.placeUnit u l die p).mem = s.mem := by
  unfold State.placeUnit
  rw [State.vaultUnit_mem, State.setLaunch_mem, State.foldl_mem]
  exact fun _ _ => rfl

/-! Operations that leave the memory: Sys2Proof/Machine/Preempt.lean -/

@[simp] theorem State.keepQueued_mem (s : State) (l : Launch) (p : QEnt → Bool) : (s.keepQueued l p).mem = s.mem := by
  unfold State.keepQueued
  refine State.foldl_mem _ (fun s x => ?_) _ _
  dsimp only
  simp

@[simp] theorem State.takeQueued_mem (s : State) (u : Nat) (l : Launch) : (s.takeQueued u l).mem = s.mem := by
  simp [State.takeQueued]

@[simp] theorem State.requeue_mem (s : State) (l : Launch) (n : Nat) (xs : List (Nat × Nat × QEnt)) : (s.requeue l n xs).mem = s.mem := by
  unfold State.requeue
  induction xs with
  | nil => rfl
  | cons x xs ih => simpa using ih

@[simp] theorem State.freeWords_mem (s : State) (n : Nat) : (s.freeWords n).2.mem = s.mem := by
  simp [State.freeWords]

@[simp] theorem State.cmdBack_mem (s : State) (l : Launch) (v : Saved) (x : Nat × Nat × QEnt) (off : Nat) : (s.cmdBack l v x off).2.mem = s.mem := by
  unfold State.cmdBack
  dsimp only
  repeat' split
  all_goals simp

@[simp] theorem State.readBack_mem (s : State) (l : Launch) (v : Saved) : (s.readBack l v).2.mem = s.mem := by
  unfold State.readBack
  dsimp only
  rw [foldl_snd_mem _ (fun r c => by simp), foldl_snd_mem _ (fun r c => by split <;> simp)]
  split <;> simp

@[simp] theorem State.reloadPlanes_mem (s : State) (l : Launch) (v : Saved) : (s.reloadPlanes l v).mem = s.mem := by
  refine State.foldl_mem _ (fun s p => ?_) _ _
  dsimp only
  split
  · split
    · rw [State.foldl_mem _ (fun s e => by split <;> rfl)]
      split <;> simp
    · split <;> simp
  · rfl

@[simp] theorem State.resend_mem (s : State) (u : Nat) (vmid : BitVec 16) (w : Waiter × Nat × Nat) : (s.resend u vmid w).mem = s.mem := by
  simp [State.resend]

@[simp] theorem State.svcEnd_mem (s : State) (die status : Nat) : (s.svcEnd die status).mem = s.mem := by
  simp [State.svcEnd]

@[simp] theorem State.startService_mem (s : State) (die folio tile : Nat) (victim : Option Nat) : (s.startService die folio tile victim).mem = s.mem := by
  simp [State.startService]

/-! Operations that leave the memory: Sys2Proof/Machine/Ending.lean -/

@[simp] theorem State.times_mem (s : State) (l : Launch) : (s.times l).2.2.mem = s.mem := by
  unfold State.times
  dsimp only
  repeat' split
  all_goals simp

@[simp] theorem State.lateFault_mem (s : State) (l : Launch) (cause va : Nat) : (s.lateFault l cause va).mem = s.mem := by
  simp [State.lateFault]

@[simp] theorem State.leadWhw_mem (s : State) (u lead : Nat) (ts : BitVec 32) : (s.leadWhw u lead ts).mem = s.mem := by
  simp [State.leadWhw]

@[simp] theorem State.releaseAll_mem (s : State) (u : Nat) (l : Launch) : (s.releaseAll u l).2.mem = s.mem :=
  foldl_snd_mem _ (fun r a => by split <;> simp) _ _

theorem State.signalAt_ok_mem {s t : State} {flat agent : Nat} {whw : BitVec 32} (h : s.signalAt flat agent whw = .ok t) : t.mem = s.mem := by
  revert h
  unfold State.signalAt
  dsimp only
  repeat' split
  all_goals aesop

@[simp] theorem State.signalLaunch_mem (s : State) (l : Launch) (whw : BitVec 32) : (s.signalLaunch l whw).mem = s.mem := by
  unfold State.signalLaunch
  split
  · simp
  · split
    · split
      · next heq => exact State.signalAt_ok_mem heq
      · simp
    · simp

@[simp] theorem State.graphDone_mem (s : State) (l : Launch) (whw : BitVec 32) : (s.graphDone l whw).mem = s.mem := by
  unfold State.graphDone
  repeat' split
  all_goals simp

@[simp] theorem State.workEnd_mem (s : State) (die status : Nat) : (s.workEnd die status).mem = s.mem := by
  simp [State.workEnd]

@[simp] theorem State.signalWork_mem (s : State) (w : WorkEnt) : (s.signalWork w).mem = s.mem := by
  unfold State.signalWork
  dsimp only
  split
  · rfl
  · split
    · simp
    · split
      · simp
      · split
        · next heq => exact State.signalAt_ok_mem heq
        · simp

@[simp] theorem State.cancelEnd_mem (s : State) (die status : Nat) : (s.cancelEnd die status).mem = s.mem := by
  simp [State.cancelEnd]

@[simp] theorem State.cancelLaunch_mem (s : State) (u : Nat) : (s.cancelLaunch u).mem = s.mem := by
  unfold State.cancelLaunch
  split <;> simp

@[simp] theorem State.cancelGraph_mem (s : State) (vmid : BitVec 16) (g : BitVec 32) : (s.cancelGraph vmid g).mem = s.mem := by
  unfold State.cancelGraph
  dsimp only
  repeat' split
  all_goals simp

@[simp] theorem State.cancelPhase_mem (s : State) (vmid : BitVec 16) (ph : BitVec 32) : (s.cancelPhase vmid ph).mem = s.mem := by
  unfold State.cancelPhase
  dsimp only
  repeat' split
  all_goals simp

/-! Operations that leave the memory: Sys2Proof/Machine/Actors.lean -/

@[simp] theorem State.writePeers_mem (s : State) (a : Actor) (i : Nat) (t : Option Nat) : (s.writePeers a i t).mem = s.mem := by
  unfold State.writePeers
  exact State.foldl_mem _ (fun _ _ => by rfl) _ _

@[simp] theorem State.modActor_mem (s : State) (u : Nat) (f : Actor → Actor) : (s.modActor u f).mem = s.mem := by
  simp [State.modActor]

@[simp] theorem State.actorEvent_mem (s : State) (u code n : Nat) : (s.actorEvent u code n).mem = s.mem := by
  simp [State.actorEvent]

@[simp] theorem State.splitGrant_mem (s : State) (u : Nat) (a : Actor) : (s.splitGrant u a).mem = s.mem := by simp [State.splitGrant]

@[simp] theorem State.beginShrink_mem (s : State) (u : Nat) (a : Actor) : (s.beginShrink u a).mem = s.mem := by
  simp [State.beginShrink]

@[simp] theorem State.bindQueue_mem (s : State) (die agent u id : Nat) (bind : Bool) : (s.bindQueue die agent u id bind).mem = s.mem := by
  unfold State.bindQueue
  dsimp only
  repeat' split
  all_goals simp

@[simp] theorem State.serveNext_mem (s : State) (die q : Nat) : (s.serveNext die q).mem = s.mem := by
  simp [State.serveNext]

/-! Operations that leave the memory: Sys2Proof/Machine/Hosts.lean -/

@[simp] theorem State.irqRelease_mem (s : State) (a : Nat) : (s.irqRelease a).2.mem = s.mem := by
  unfold State.irqRelease
  split <;> simp

@[simp] theorem State.dropIrq_mem (s : State) (die i : Nat) : (s.dropIrq die i).mem = s.mem := by
  simp [State.dropIrq]

@[simp] theorem State.windowFault_mem (s : State) (cause : Nat) : (s.windowFault cause).mem = s.mem := by
  simp [State.windowFault]

@[simp] theorem State.hostTime_mem (s : State) (port : Nat) (ts : BitVec 32) : (s.hostTime port ts).mem = s.mem := by
  simp [State.hostTime]

@[simp] theorem State.outFault_mem (s : State) (k : Nat) (m : Msg) (cause : Nat) : (s.outFault k m cause).mem = s.mem := by
  unfold State.outFault
  dsimp only
  repeat' split
  all_goals simp

@[simp] theorem State.outDone_mem (s : State) (k : Nat) (m : Msg) (data : BitVec 512) : (s.outDone k m data).mem = s.mem := by
  unfold State.outDone
  split <;> simp

@[simp] theorem State.freshLine_mem (s : State) : s.freshLine.2.mem = s.mem := by
  simp [State.freshLine]

/-! Operations that leave the memory: Sys2Proof/Machine/Resets.lean -/

@[simp] theorem State.excludeDie_mem (s : State) (die : Nat) : (s.excludeDie die).mem = s.mem := by
  simp [State.excludeDie]

@[simp] theorem State.excludeDies_mem (s : State) (dies : BitVec 16) : (s.excludeDies dies).mem = s.mem := by
  simp [State.excludeDies]

@[simp] theorem State.bootStep_mem (s : State) (k status die cause : Nat) : (s.bootStep k status die cause).mem = s.mem := by
  simp [State.bootStep]

@[simp] theorem State.requiredStep_mem (s : State) (k : Nat) : (s.requiredStep k).2.mem = s.mem := by
  unfold State.requiredStep
  dsimp only
  repeat' split
  all_goals simp

@[simp] theorem State.linkStep_mem (s : State) (k : Nat) : (s.linkStep k).mem = s.mem := by
  simp [State.linkStep]

@[simp] theorem State.serviceOnly_mem (s : State) (rest : List Nat) : (s.serviceOnly rest).mem = s.mem := by
  unfold State.serviceOnly
  exact State.foldl_mem _ (fun _ _ => by rfl) _ _

@[simp] theorem State.startSteps_mem (ks : List Nat) (s : State) : (State.startSteps ks s).mem = s.mem := by
  obtain ⟨di, mo, ti, h⟩ := State.StartChanges.startSteps ks s
  rw [h]

@[simp] theorem State.lostLaunch_mem (s : State) (u : Nat) : (s.lostLaunch u).mem = s.mem := by
  simp [State.lostLaunch]

@[simp] theorem State.lostRecord_mem (s : State) (die : Nat) (vmid : BitVec 16) (r : QRec) : (s.lostRecord die vmid r).mem = s.mem := by
  simp [State.lostRecord]

@[simp] theorem State.loseLaunches_mem (s : State) : s.loseLaunches.mem = s.mem := by
  unfold State.loseLaunches
  dsimp only
  rw [State.foldl_mem _ (fun s d => State.foldl_mem _ (fun s q => ?_) _ _)]
  · simp
  · split <;> simp

@[simp] theorem State.warmSteps_mem (s : State) : s.warmSteps.mem = s.mem := by
  unfold State.warmSteps
  split <;> simp

/-! Operations that leave the memory: Sys2Proof/Machine/Clock.lean -/

@[simp] theorem State.countStalls_mem (s : State) : s.countStalls.mem = s.mem := by
  unfold State.countStalls
  refine State.foldl_mem _ (fun s x => ?_) _ _
  dsimp only
  simp

@[simp] theorem State.meetError_mem (s : State) (e : Upset) : (s.meetError e).mem = s.mem := by
  unfold State.meetError
  dsimp only
  repeat' split
  all_goals simp

@[simp] theorem State.meetErrors_mem (s : State) (die : Nat) (es : List Upset) : (s.meetErrors die es).mem = s.mem := by
  unfold State.meetErrors
  repeat' split
  all_goals simp [-List.foldl_cons]

@[simp] theorem State.meetFixed_mem (s : State) (e : Upset) : (s.meetFixed e).mem = s.mem := by
  simp [State.meetFixed]

@[simp] theorem State.meetUpsets_mem (s : State) : s.meetUpsets.mem = s.mem := by simp [State.meetUpsets]

@[simp] theorem State.tickClk_mem (s : State) : s.tickClk.mem = s.mem := by simp [State.tickClk]

end Sys2Proof.Machine

/-! Every instruction, and every other act of a step, goes on to a next state and keeps the memory's canonical form. -/

namespace Sys2Proof.Machine

variable {p : Prop}

/-- Memory is in its canonical form where `p` holds. -/
def Canon (p : Prop) (m : List Host.Cell) : Prop := p → Memory.wf m = true

/-- The outcome is a next state, its memory in canonical form where `p` holds. -/
def Goes (p : Prop) (o : Out) : Prop := ∃ t, o = .next t ∧ Canon p t.mem

@[simp] theorem goes_next (t : State) : Goes p (.next t) ↔ Canon p t.mem := by simp [Goes]

@[simp] theorem Canon.ite {c : Prop} [Decidable c] {m n : List Host.Cell} (hm : Canon p m) (hn : Canon p n) : Canon p (if c then m else n) := by split <;> assumption

@[simp] theorem Canon.memPut {m : List Host.Cell} (h : Canon p m) (k : Nat) (v : Byte) : Canon p (memPut m k v) := fun hp => memPut_wf (h hp) k v

@[simp] theorem Canon.memWrite {m : List Host.Cell} (h : Canon p m) (a n v : Nat) : Canon p (memWrite m a n v) := fun hp => memWrite_wf (h hp) a n v

@[simp] theorem Canon.filter {m : List Host.Cell} (h : Canon p m) (q : Host.Cell → Bool) : Canon p (m.filter q) := fun hp => memFilter_wf (h hp) q

@[simp] theorem Canon.memClear {m : List Host.Cell} (h : Canon p m) (a n : Nat) : Canon p (memClear m a n) := fun hp => memClear_wf (h hp) a n

@[simp] theorem Canon.memMove {m : List Host.Cell} (h : Canon p m) (a b n : Nat) : Canon p (memMove m a b n) := fun hp => memMove_wf (h hp) a b n

theorem Canon.fold {β : Type} {m : List Host.Cell} (h : Canon p m) (l : List β) (f : List Host.Cell → β → List Host.Cell)
    (hf : ∀ m x, Canon p m → Canon p (f m x)) : Canon p (l.foldl f m) := by
  induction l generalizing m with
  | nil => exact h
  | cons x r ih => exact ih (hf m x h)

theorem State.foldl_canon {α : Type} (f : State → α → State) (hf : ∀ s x, Canon p s.mem → Canon p (f s x).mem) (l : List α) (s : State)
    (h : Canon p s.mem) : Canon p (l.foldl f s).mem := by
  induction l generalizing s with
  | nil => exact h
  | cons x r ih => exact ih _ (hf s x h)

@[simp] theorem Goes.ite {c : Prop} [Decidable c] {a b : Out} (ha : Goes p a) (hb : Goes p b) : Goes p (if c then a else b) := by split <;> assumption

/-- The state with which a translated access goes on. -/
def TRes.state? : TRes → Option State
  | .ok _ s | .wait s => some s
  | .fault _ => none

/-- The state with which a load goes on. -/
def LRes.state? : LRes → Option State
  | .val _ s | .wait s => some s
  | .fault _ => none

/-- The state with which a block's stores go on. -/
def GRes.state? : GRes → Option State
  | .ok _ s | .wait s => some s
  | .fault _ => none

/-- The state with which a ray's stack goes on. -/
def FitRes.state? : FitRes → Option State
  | .ok _ _ s | .wait s => some s
  | .fault _ _ => none

/-- Memory is in canonical form where a stream's access goes on, if `p` holds. -/
def SRes.Goes (p : Prop) : SRes → Prop
  | .done s | .wait s => Canon p s.mem
  | .fault _ _ => True

@[simp] theorem SRes.goes_done (s : State) : SRes.Goes p (.done s) ↔ Canon p s.mem := Iff.rfl

@[simp] theorem SRes.goes_wait (s : State) : SRes.Goes p (.wait s) ↔ Canon p s.mem := Iff.rfl

@[simp] theorem SRes.goes_fault (c va : Nat) : SRes.Goes p (.fault c va) := trivial

/-- The state's memory is in canonical form where `p` holds. -/
def State.Canonical (p : Prop) (s : State) : Prop := Canon p s.mem

theorem State.foldl_canonical {α : Type} (f : State → α → State) (hf : ∀ s x, s.Canonical p → (f s x).Canonical p) (l : List α) (s : State)
    (h : s.Canonical p) : (l.foldl f s).Canonical p := State.foldl_canon f hf l s h

/-! Operations that write the memory, and instructions: Sys2Proof/Machine/Ops.lean -/

@[simp] theorem State.finish_goes (s : State) (r : BitVec 4) (v : Word) (h : Canon p s.mem) : Goes p (s.finish r v) := by
  simp [State.finish, h]

@[simp] theorem State.block_goes (s : State) (progress : Bool) (h : Canon p s.mem) : Goes p (s.block progress) := by
  simp [State.block, h]

@[simp] theorem State.await_goes (s : State) (progress engine : Bool) (h : Canon p s.mem) : Goes p (s.await progress engine) := by
  simp [State.await, h]

@[simp] theorem State.stutter_goes (s : State) (h : Canon p s.mem) : Goes p (s.stutter) := by
  simp [State.stutter, h]

@[simp] theorem State.trapWith_goes (s : State) (cause data : Nat) (h : Canon p s.mem) : Goes p (s.trapWith cause data) := by
  simp [State.trapWith, h]

@[simp] theorem State.trap_goes (s : State) (cause : Nat) (h : Canon p s.mem) : Goes p (s.trap cause) := by
  simp [State.trap, h]

@[simp] theorem State.trapBlock_goes (s : State) (cause data : Nat) (h : Canon p s.mem) : Goes p (s.trapBlock cause data) := by
  simp [State.trapBlock, h]

/-! Operations that write the memory, and instructions: Sys2Proof/Machine/Access.lean -/

@[simp] theorem State.directPut_canon (s : State) (ty : BitVec 3) (flat : Nat) (v : Byte) (h : Canon p s.mem) : Canon p (s.directPut ty flat v).mem := by
  unfold State.directPut
  split <;> simp [h]

@[simp] theorem State.directWrite_canon (s : State) (ty : BitVec 3) (flat n v : Nat) (h : Canon p s.mem) : Canon p (s.directWrite ty flat n v).mem := by
  induction n generalizing s flat v with
  | zero => exact h
  | succ n ih => exact ih _ _ _ (s.directPut_canon ty flat _ h)

theorem State.loadLine_mem {s u : State} {a o f n : Nat} (h : (s.loadLine a o f n).state? = some u) : u.mem = s.mem := by
  revert h
  unfold State.loadLine
  dsimp only
  repeat' split
  all_goals (rintro ⟨⟩; simp)

theorem State.loadDirect_mem {s u : State} {a o n : Nat} {t : Target} (h : (s.loadDirect a o t n).state? = some u) : u.mem = s.mem := by
  revert h
  unfold State.loadDirect
  repeat' split
  all_goals (rintro ⟨⟩; simp)

theorem State.reach_mem {s u : State} {a va n al : Nat} {v : BitVec 16} {need : Need} {types : BitVec 3 → Option Nat}
    (h : (s.reach a v va n al need types).state? = some u) : u.mem = s.mem := by
  cases hr : s.reach a v va n al need types with
  | ok t w => rw [hr] at h; cases h; exact State.reach_ok_mem hr
  | wait w => rw [hr] at h; cases h; exact State.reach_wait_mem hr
  | fault c => rw [hr] at h; cases h

theorem State.load_mem {s u : State} {a o va n : Nat} {v : BitVec 16} (h : (s.load a o v va n).state? = some u) : u.mem = s.mem := by
  revert h
  unfold State.load
  split
  · rintro ⟨⟩
  · next heq => rintro ⟨⟩; exact State.reach_mem (congrArg TRes.state? heq)
  · next heq =>
    rw [← State.reach_mem (congrArg TRes.state? heq)]
    split
    · exact State.loadLine_mem
    · exact State.loadDirect_mem

/-! Operations that write the memory, and instructions: Sys2Proof/Machine/Fetch.lean -/

@[simp] theorem State.placeWord_canon (s : State) (w : BitVec 64) (h : Canon p s.mem) : Canon p (s.placeWord w).mem := by
  simp [State.placeWord, h]

/-! Operations that write the memory, and instructions: Sys2Proof/Machine/Homes.lean -/

@[simp] theorem State.homeWrite_canon (s : State) (flat n v : Nat) (ts : BitVec 32) (h : Canon p s.mem) : Canon p (s.homeWrite flat n v ts).mem := by
  simp [State.homeWrite, h]

@[simp] theorem execHomeLoadRequest_goes (k : Nat) (upset : Bool) (s : State) (h : Canon p s.mem) : Goes p (execHomeLoadRequest k upset s) := by
  unfold execHomeLoadRequest
  dsimp only
  repeat' split
  all_goals simp [h]

@[simp] theorem execLoadReply_goes (k : Nat) (s : State) (h : Canon p s.mem) : Goes p (execLoadReply k s) := by
  unfold execLoadReply
  dsimp only
  repeat' split
  all_goals simp [h]

@[simp] theorem execStoreBufferSend_goes (agent : Nat) (s : State) (h : Canon p s.mem) : Goes p (execStoreBufferSend agent s) := by
  unfold execStoreBufferSend
  dsimp only
  repeat' split
  all_goals simp [h]

@[simp] theorem execHomeStore_goes (k : Nat) (s : State) (h : Canon p s.mem) : Goes p (execHomeStore k s) := by
  unfold execHomeStore
  dsimp only
  repeat' split
  all_goals simp [h]

@[simp] theorem execStoreReply_goes (k : Nat) (s : State) (h : Canon p s.mem) : Goes p (execStoreReply k s) := by
  unfold execStoreReply
  dsimp only
  repeat' split
  all_goals simp [h]

@[simp] theorem execRedAck_goes (k : Nat) (s : State) (h : Canon p s.mem) : Goes p (execRedAck k s) := by
  unfold execRedAck
  repeat' split
  all_goals simp [h]

@[simp] theorem execDriftTick_goes (tile : Nat) (s : State) (h : Canon p s.mem) : Goes p (execDriftTick tile s) := by
  unfold execDriftTick
  dsimp only
  repeat' split
  all_goals simp [h]

@[simp] theorem execSpinRepetition_goes (agent : Nat) (s : State) (h : Canon p s.mem) : Goes p (execSpinRepetition agent s) := by
  unfold execSpinRepetition
  dsimp only
  repeat' split
  all_goals simp [h]

@[simp] theorem execRebaseStart_goes (die : Nat) (s : State) (h : Canon p s.mem) : Goes p (execRebaseStart die s) := by
  unfold execRebaseStart
  repeat' split
  all_goals simp [h]

@[simp] theorem execRebaseComplete_goes (s : State) (h : Canon p s.mem) : Goes p (execRebaseComplete s) := by
  unfold execRebaseComplete
  repeat' split
  all_goals simp [h]

@[simp] theorem execFlowAck_goes (k : Nat) (s : State) (h : Canon p s.mem) : Goes p (execFlowAck k s) := by
  unfold execFlowAck
  dsimp only
  repeat' split
  all_goals simp [h]

/-! Operations that write the memory, and instructions: Sys2Proof/Machine/Walker.lean -/

@[simp] theorem execWalkStart_goes (die k : Nat) (s : State) (h : Canon p s.mem) : Goes p (execWalkStart die k s) := by
  unfold execWalkStart
  dsimp only
  repeat' split
  all_goals simp [h]

@[simp] theorem execWalkComplete_goes (die slot : Nat) (s : State) (h : Canon p s.mem) : Goes p (execWalkComplete die slot s) := by
  unfold execWalkComplete
  repeat' split
  all_goals simp [h]

@[simp] theorem execXinvPage_goes (die : Nat) (s : State) (h : Canon p s.mem) : Goes p (execXinvPage die s) := by
  unfold execXinvPage
  dsimp only
  repeat' split
  all_goals simp [h]

@[simp] theorem execXinvVmid_goes (die : Nat) (s : State) (h : Canon p s.mem) : Goes p (execXinvVmid die s) := by
  unfold execXinvVmid
  repeat' split
  all_goals simp [h]

@[simp] theorem execXinvAll_goes (die : Nat) (s : State) (h : Canon p s.mem) : Goes p (execXinvAll die s) := by
  unfold execXinvAll
  repeat' split
  all_goals simp [h]

@[simp] theorem execXinvDone_goes (die : Nat) (s : State) (h : Canon p s.mem) : Goes p (execXinvDone die s) := by
  unfold execXinvDone
  repeat' split
  all_goals simp [h]

@[simp] theorem execMigrationStart_goes (die : Nat) (s : State) (h : Canon p s.mem) : Goes p (execMigrationStart die s) := by
  unfold execMigrationStart
  dsimp only
  repeat' split
  all_goals simp [h]

@[simp] theorem State.copyPage_canon (s : State) (die : Nat) (g : Migration) (h : Canon p s.mem) : Canon p (s.copyPage die g).mem := by
  simp [State.copyPage, h]

@[simp] theorem execMigrationSwitch_goes (die : Nat) (s : State) (h : Canon p s.mem) : Goes p (execMigrationSwitch die s) := by
  unfold execMigrationSwitch
  repeat' split
  all_goals simp [h]

@[simp] theorem execMigrationAbort_goes (die : Nat) (s : State) (h : Canon p s.mem) : Goes p (execMigrationAbort die s) := by
  unfold execMigrationAbort
  repeat' split
  all_goals simp [h]

/-! Operations that write the memory, and instructions: Sys2Proof/Machine/Regs.lean -/

@[simp] theorem State.regPut_mem (s : State) (agent fuel flat n v : Nat) : (s.regPut agent fuel flat n v).mem = s.mem := by
  induction fuel generalizing s flat n v with
  | zero => rfl
  | succ fuel ih =>
    unfold State.regPut
    split <;> simp [ih]

@[simp] theorem State.targetWrite_canon (s : State) (agent : Nat) (ty : BitVec 3) (flat n v : Nat) (h : Canon p s.mem) :
    Canon p (s.targetWrite agent ty flat n v).mem := by
  unfold State.targetWrite
  split <;> simp [h]

@[simp] theorem execDirectAccess_goes (k : Nat) (s : State) (h : Canon p s.mem) : Goes p (execDirectAccess k s) := by
  unfold execDirectAccess
  dsimp only
  repeat' split
  all_goals simp -implicitDefEqProofs [h]

@[simp] theorem execVaultThaw_goes (die : Nat) (s : State) (h : Canon p s.mem) : Goes p (execVaultThaw die s) := by
  unfold execVaultThaw
  repeat' split
  all_goals simp [h]

@[simp] theorem execPlogWrite_goes (die off : Nat) (value : BitVec 64) (s : State) (h : Canon p s.mem) : Goes p (execPlogWrite die off value s) := by
  unfold execPlogWrite
  repeat' split
  all_goals simp [h]

@[simp] theorem execRegWrite_goes (die block off : Nat) (value : BitVec 64) (s : State) (h : Canon p s.mem) : Goes p (execRegWrite die block off value s) := by
  unfold execRegWrite
  repeat' split
  all_goals simp [h]

/-! Operations that write the memory, and instructions: Sys2Proof/Machine/Release.lean -/

theorem State.release_eq_mem {s u : State} {a o : Nat} {sc : BitVec 2} {b : Bool} (h : s.release a o sc = (b, u)) : u.mem = s.mem := by
  simpa [h] using s.release_mem a o sc

theorem State.settled_eq_mem {s u : State} {a o : Nat} {sc : BitVec 2} {d b : Bool} (h : s.settled a o sc d = (b, u)) : u.mem = s.mem := by
  simpa [h] using s.settled_mem a o sc d

/-! Operations that write the memory, and instructions: Sys2Proof/Machine/Conc.lean -/

@[simp] theorem State.atomic_goes (s : State) (k op : Nat) (red : Bool) (h : Canon p s.mem) : Goes p (s.atomic k op red) := by
  unfold State.atomic
  dsimp only
  repeat' split
  all_goals simp [h]

theorem State.phCmd_goes (s : State) (k code : Nat) (go : Msg → SyncCmd → Nat → Phaser → Out) (h : Canon p s.mem)
    (hgo : ∀ m c off x, Goes p (go m c off x)) : Goes p (s.phCmd k code go) := by
  unfold State.phCmd
  dsimp only
  repeat' split
  all_goals simp [h, hgo]

@[simp] theorem State.phDone_goes (s : State) (k : Nat) (m : Msg) (c : SyncCmd) (off : Nat) (x : Phaser) (h : Canon p s.mem) : Goes p (s.phDone k m c off x) := by
  unfold State.phDone
  dsimp only
  split <;> simp [h]

@[simp] theorem execCmdPhReg_goes (die k : Nat) (s : State) (h : Canon p s.mem) : Goes p (execCmdPhReg die k s) := by
  refine s.phCmd_goes _ _ _ h fun m c off x => ?_
  dsimp only
  repeat' split
  all_goals simp [h]

@[simp] theorem execCmdPhDrop_goes (die k : Nat) (s : State) (h : Canon p s.mem) : Goes p (execCmdPhDrop die k s) := by
  refine s.phCmd_goes _ _ _ h fun m c off x => ?_
  dsimp only
  repeat' split
  all_goals simp [h]

theorem State.signalCmd_goes (s : State) (k : Nat) (m : Msg) (c : SyncCmd) (x : Phaser) (wait : Bool) (go : Phaser → Out) (h : Canon p s.mem)
    (hgo : ∀ x, Goes p (go x)) : Goes p (s.signalCmd k m c x wait go) := by
  unfold State.signalCmd
  repeat' split
  all_goals simp [h, hgo]

@[simp] theorem execCmdPhSig_goes (die k : Nat) (s : State) (h : Canon p s.mem) : Goes p (execCmdPhSig die k s) := by
  refine s.phCmd_goes _ _ _ h fun m c off x => ?_
  split
  · simp [h]
  · exact s.signalCmd_goes _ _ _ _ _ _ h fun x => s.phDone_goes _ _ _ _ _ h

@[simp] theorem State.phWaitDone_goes (s : State) (k : Nat) (m : Msg) (c : SyncCmd) (off : Nat) (x : Phaser) (h : Canon p s.mem) :
    Goes p (s.phWaitDone k m c off x) := by
  unfold State.phWaitDone
  dsimp only
  split <;> simp [h]

@[simp] theorem execCmdPhWait_goes (die k : Nat) (s : State) (h : Canon p s.mem) : Goes p (execCmdPhWait die k s) := by
  refine s.phCmd_goes _ _ _ h fun m c off x => ?_
  repeat' split
  all_goals simp [h]

@[simp] theorem execCmdPhSw_goes (die k : Nat) (s : State) (h : Canon p s.mem) : Goes p (execCmdPhSw die k s) := by
  refine s.phCmd_goes _ _ _ h fun m c off x => ?_
  split
  · simp [h]
  · exact s.signalCmd_goes _ _ _ _ _ _ h fun x => s.phWaitDone_goes _ _ _ _ _ h

@[simp] theorem execCmdPhErr_goes (die k : Nat) (s : State) (h : Canon p s.mem) : Goes p (execCmdPhErr die k s) := by
  refine s.phCmd_goes _ _ _ h fun m c off x => ?_
  split <;> simp [h]

@[simp] theorem execCmdPhRead_goes (die k : Nat) (s : State) (h : Canon p s.mem) : Goes p (execCmdPhRead die k s) := by
  refine s.phCmd_goes _ _ _ h fun m c off x => ?_
  repeat' split
  all_goals simp [h]

@[simp] theorem execPhCreate_goes (die : Nat) (s : State) (h : Canon p s.mem) : Goes p (execPhCreate die s) := by
  unfold execPhCreate
  dsimp only
  repeat' split
  all_goals simp [h]

@[simp] theorem execPhDestroy_goes (die : Nat) (s : State) (h : Canon p s.mem) : Goes p (execPhDestroy die s) := by
  unfold execPhDestroy
  dsimp only
  repeat' split
  all_goals simp [h]

/-! Operations that write the memory, and instructions: Sys2Proof/Machine/Granary.lean -/

@[simp] theorem State.serveRsv_canon (die n : Nat) (s : State) (h : Canon p s.mem) : Canon p (State.serveRsv die n s).mem := by
  induction n generalizing s with
  | zero => exact h
  | succ n ih =>
    unfold State.serveRsv
    dsimp only
    repeat' split
    · exact h
    · exact h
    · exact ih _ (by simp [h])
    · exact ih _ (by simp [h])

@[simp] theorem State.serveTake_mem (die q n : Nat) (s : State) : (State.serveTake die q n s).mem = s.mem := by
  induction n generalizing s with
  | zero => rfl
  | succ n ih =>
    unfold State.serveTake
    dsimp only
    repeat' split
    all_goals simp [ih]

@[simp] theorem State.serveQueue_canon (s : State) (die q : Nat) (h : Canon p s.mem) : Canon p (s.serveQueue die q).mem := by simp [State.serveQueue, h]

theorem State.qCmd_goes (s : State) (die k code : Nat) (go : Msg → SyncCmd → Out) (h : Canon p s.mem) (hgo : ∀ m c, Goes p (go m c)) :
    Goes p (s.qCmd die k code go) := by
  unfold State.qCmd
  dsimp only
  repeat' split
  all_goals simp [h, hgo]

@[simp] theorem execCmdQRsv_goes (die k : Nat) (s : State) (h : Canon p s.mem) : Goes p (execCmdQRsv die k s) := by
  refine s.qCmd_goes _ _ _ _ h fun m c => ?_
  dsimp only
  split <;> simp [h]

@[simp] theorem execCmdQAdd_goes (die k : Nat) (s : State) (h : Canon p s.mem) : Goes p (execCmdQAdd die k s) := by
  refine s.qCmd_goes _ _ _ _ h fun m c => ?_
  dsimp only
  split <;> simp [h]

@[simp] theorem execCmdQTake_goes (die k : Nat) (s : State) (h : Canon p s.mem) : Goes p (execCmdQTake die k s) := by
  refine s.qCmd_goes _ _ _ _ h fun m c => ?_
  dsimp only
  split <;> simp [h]

@[simp] theorem execOverflowReturn_goes (die : Nat) (gran : Bool) (s : State) (h : Canon p s.mem) : Goes p (execOverflowReturn die gran s) := by
  unfold execOverflowReturn
  dsimp only
  repeat' split
  all_goals simp [h]

@[simp] theorem execReleaseWiden_goes (die q : Nat) (wide : Bool) (s : State) (h : Canon p s.mem) : Goes p (execReleaseWiden die q wide s) := by
  unfold execReleaseWiden
  dsimp only
  repeat' split
  all_goals simp [h]

@[simp] theorem execPrefetchFill_goes (die q tile : Nat) (s : State) (h : Canon p s.mem) : Goes p (execPrefetchFill die q tile s) := by
  unfold execPrefetchFill
  dsimp only
  repeat' split
  all_goals simp [h]

@[simp] theorem State.returnPrefetch_canon (s : State) (tile : Nat) (h : Canon p s.mem) : Canon p (s.returnPrefetch tile).mem := by
  unfold State.returnPrefetch
  dsimp only
  repeat' split
  all_goals simp [h]

@[simp] theorem execPrefetchReturn_goes (tile : Nat) (s : State) (h : Canon p s.mem) : Goes p (execPrefetchReturn tile s) := by
  unfold execPrefetchReturn
  dsimp only
  repeat' split
  all_goals simp [h]

@[simp] theorem execQueueCreate_goes (die : Nat) (s : State) (h : Canon p s.mem) : Goes p (execQueueCreate die s) := by
  unfold execQueueCreate
  dsimp only
  repeat' split
  all_goals simp [h]

@[simp] theorem execQueueClose_goes (die : Nat) (s : State) (h : Canon p s.mem) : Goes p (execQueueClose die s) := by
  unfold execQueueClose
  dsimp only
  repeat' split
  all_goals simp [h]

@[simp] theorem execQueueFree_goes (die : Nat) (s : State) (h : Canon p s.mem) : Goes p (execQueueFree die s) := by
  unfold execQueueFree
  dsimp only
  repeat' split
  all_goals simp [h]

@[simp] theorem execLaunchWindowReserve_goes (port off : Nat) (s : State) (h : Canon p s.mem) : Goes p (execLaunchWindowReserve port off s) := by
  unfold execLaunchWindowReserve
  dsimp only
  repeat' split
  all_goals simp [h]

@[simp] theorem execLaunchWindowAdd_goes (port off bytes : Nat) (data : BitVec 512) (s : State) (h : Canon p s.mem) : Goes p (execLaunchWindowAdd port off bytes data s) := by
  unfold execLaunchWindowAdd
  dsimp only
  repeat' split
  all_goals simp [h]

/-! Operations that write the memory, and instructions: Sys2Proof/Machine/Scalar.lean -/

@[simp] theorem State.branch_goes (s : State) (taken : Bool) (imm : BitVec 40) (h : Canon p s.mem) : Goes p (s.branch taken imm) := by
  unfold State.branch
  repeat' split
  all_goals simp [h]

@[simp] theorem State.link_goes (s : State) (d : BitVec 4) (target : Word) (h : Canon p s.mem) : Goes p (s.link d target) := by
  unfold State.link
  repeat' split
  all_goals simp [h]

/-! Operations that write the memory, and instructions: Sys2Proof/Machine/SeqMem.lean -/

@[simp] theorem State.loadStep_goes (s : State) (d r : BitVec 4) (imm : BitVec 40) (n : Nat) (ext : Nat → Word) (h : Canon p s.mem) :
    Goes p (s.loadStep d r imm n ext) := by
  unfold State.loadStep
  split
  · simp [h]
  · next heq => simp [State.load_mem (congrArg LRes.state? heq), h]
  · next heq => simp [State.load_mem (congrArg LRes.state? heq), h]

@[simp] theorem State.storeStep_goes (s : State) (va n v : Nat) (h : Canon p s.mem) : Goes p (s.storeStep va n v) := by
  unfold State.storeStep
  split
  · simp [h]
  · next heq => simp [State.reach_mem (congrArg TRes.state? heq), h]
  · next heq =>
    repeat' split
    all_goals simp [State.reach_mem (congrArg TRes.state? heq), h]

@[simp] theorem execNset_goes (n : BitVec 2) (s : BitVec 4) (st : State) (h : Canon p st.mem) : Goes p (execNset n s st) := by
  unfold execNset
  repeat' split
  all_goals simp [h]

@[simp] theorem execPatLd_goes (m : BitVec 3) (r : BitVec 4) (imm : BitVec 40) (s : State) (h : Canon p s.mem) : Goes p (execPatLd m r imm s) := by
  unfold execPatLd
  split
  · simp [h]
  · next heq => simp [State.load_mem (congrArg LRes.state? heq), h]
  · next heq => split <;> simp [State.load_mem (congrArg LRes.state? heq), h]

@[simp] theorem execPatBase_goes (m : BitVec 3) (s : BitVec 4) (st : State) (h : Canon p st.mem) : Goes p (execPatBase m s st) := by
  unfold execPatBase
  repeat' split
  all_goals simp [h]

/-! Operations that write the memory, and instructions: Sys2Proof/Machine/Sync.lean -/

@[simp] theorem State.sendCmd_goes (s : State) (die : Nat) (c : SyncCmd) (progress engine : Bool) (h : Canon p s.mem) : Goes p (s.sendCmd die c progress engine) := by
  unfold State.sendCmd
  repeat' split
  all_goals simp [h]

@[simp] theorem execQRsv_goes (d s : BitVec 4) (st : State) (h : Canon p st.mem) : Goes p (execQRsv d s st) := by
  unfold execQRsv
  repeat' split
  all_goals simp [h]

@[simp] theorem execQAdd_goes (r : BitVec 4) (scope : BitVec 2) (s : State) (h : Canon p s.mem) : Goes p (execQAdd r scope s) := by
  unfold execQAdd
  split
  · simp [h]
  · dsimp only
    split
    · simp [h]
    · next heq => simp [State.reach_mem (congrArg TRes.state? heq), h]
    · next heq =>
      have hu := State.reach_mem (congrArg TRes.state? heq)
      split
      · simp [hu, h]
      · split
        · next hrel => simp [State.release_eq_mem hrel, hu, h]
        · next hrel => split <;> simp [State.release_eq_mem hrel, hu, h]

theorem State.landRecord_goes (s : State) (va : Nat) (line : BitVec 512) (done : State → Out) (h : Canon p s.mem) (hd : Goes p (done s)) :
    Goes p (s.landRecord va line done) := by
  unfold State.landRecord
  split
  · split
    · simp [h]
    · next heq => simp [State.reach_mem (congrArg TRes.state? heq), h]
    · next heq => simp [State.reach_mem (congrArg TRes.state? heq), h]
  · split
    · simp [h]
    · exact hd

@[simp] theorem State.tookRecord_goes (s : State) (d : BitVec 4) (whw : BitVec 32) (h : Canon p s.mem) : Goes p (s.tookRecord d whw) := by
  simp [State.tookRecord, h]

@[simp] theorem execQTake_goes (d r t : BitVec 4) (s : State) (h : Canon p s.mem) : Goes p (execQTake d r t s) := by
  unfold execQTake
  dsimp only
  split
  · split
    · exact s.landRecord_goes _ _ _ h (by simp [h])
    · simp [h]
  · split
    · simp [h]
    · split
      · simp [h]
      · next heq => simp [State.reach_mem (congrArg TRes.state? heq), h]
      · next u heq =>
        have hu : Canon p u.mem := by simp [State.reach_mem (congrArg TRes.state? heq), h]
        split
        · simp [hu]
        · repeat' split
          all_goals simp -implicitDefEqProofs [hu]

theorem State.phaserStep_goes (s : State) (va : Nat) (progress : Bool) (go : Nat → State → Out) (h : Canon p s.mem)
    (hgo : ∀ flat u, Canon p u.mem → Goes p (go flat u)) : Goes p (s.phaserStep va progress go) := by
  unfold State.phaserStep
  split
  · simp [h]
  · next heq => simp [State.reach_mem (congrArg TRes.state? heq), h]
  · next heq => exact hgo _ _ (by simp [State.reach_mem (congrArg TRes.state? heq), h])

@[simp] theorem State.phPlain_goes (s : State) (va : Nat) (code : BitVec 8) (a : Word) (progress engine : Bool) (h : Canon p s.mem) :
    Goes p (s.phPlain va code a progress engine) :=
  s.phaserStep_goes _ _ _ h fun flat u hu => by split <;> simp [hu]

@[simp] theorem State.phSignal_goes (s : State) (va : Nat) (code : BitVec 8) (scope : BitVec 2) (operand : BitVec 32) (progress engine : Bool)
    (h : Canon p s.mem) : Goes p (s.phSignal va code scope operand progress engine) :=
  s.phaserStep_goes _ _ _ h fun flat u hu => by split <;> next heq => simp [State.release_eq_mem heq, hu]

@[simp] theorem execPhReg_goes (s : BitVec 4) (mode : BitVec 2) (st : State) (h : Canon p st.mem) : Goes p (execPhReg s mode st) := by
  unfold execPhReg
  repeat' split
  all_goals simp [h]

@[simp] theorem execPhDrop_goes (s : BitVec 4) (st : State) (h : Canon p st.mem) : Goes p (execPhDrop s st) := by
  unfold execPhDrop
  repeat' split
  all_goals simp [h]

theorem State.captured_mem {s u : State} {kind : BitVec 2} {step : DepStep} (h : s.captured kind step = some u) : u.mem = s.mem := by
  revert h
  unfold State.captured
  repeat' split
  all_goals rintro ⟨⟩
  simp

@[simp] theorem execPhSig_goes (r : BitVec 4) (scope : BitVec 2) (s : State) (h : Canon p s.mem) : Goes p (execPhSig r scope s) := by
  unfold execPhSig
  split
  · simp [h]
  · split
    · next heq => simp [State.captured_mem heq, h]
    · simp [h]

@[simp] theorem State.waited_goes (s : State) (d : BitVec 4) (r : SeqReply) (h : Canon p s.mem) : Goes p (s.waited d r) := by
  simp [State.waited, h]

@[simp] theorem execPhWait_goes (d s t : BitVec 4) (st : State) (h : Canon p st.mem) : Goes p (execPhWait d s t st) := by
  unfold execPhWait
  repeat' split
  all_goals simp [h]

@[simp] theorem execPhSw_goes (d s t : BitVec 4) (scope : BitVec 2) (st : State) (h : Canon p st.mem) : Goes p (execPhSw d s t scope st) := by
  unfold execPhSw
  repeat' split
  all_goals simp [h]

@[simp] theorem execPhErr_goes (s t : BitVec 4) (st : State) (h : Canon p st.mem) : Goes p (execPhErr s t st) := by
  unfold execPhErr
  repeat' split
  all_goals simp [h]

@[simp] theorem execPhRead_goes (r t : BitVec 4) (s : State) (h : Canon p s.mem) : Goes p (execPhRead r t s) := by
  unfold execPhRead
  dsimp only
  split
  · exact s.landRecord_goes _ _ _ h (by simp [h])
  · split
    · simp [h]
    · next heq => simp [State.reach_mem (congrArg TRes.state? heq), h]
    · next heq => simp [State.reach_mem (congrArg TRes.state? heq), h]

@[simp] theorem execAtom_goes (cmd : BitVec 8) (d r t x : BitVec 4) (scope : BitVec 2) (s : State) (h : Canon p s.mem) : Goes p (execAtom cmd d r t x scope s) := by
  unfold execAtom
  split
  · simp [h]
  · dsimp only
    split
    · simp [h]
    · split
      · simp [h]
      · next heq => simp [State.reach_mem (congrArg TRes.state? heq), h]
      · next heq =>
        have hu := State.reach_mem (congrArg TRes.state? heq)
        split
        · simp [hu, h]
        · split
          · next hset => simp [State.settled_eq_mem hset, hu, h]
          · next hset =>
            repeat' split
            all_goals simp [State.settled_eq_mem hset, hu, h]

/-! Operations that write the memory, and instructions: Sys2Proof/Machine/Misc.lean -/

@[simp] theorem execFenceSl_goes (s : State) (h : Canon p s.mem) : Goes p (execFenceSl s) := by
  unfold execFenceSl
  repeat' split
  all_goals simp [h]

@[simp] theorem execFenceRel_goes (scope : BitVec 2) (s : State) (h : Canon p s.mem) : Goes p (execFenceRel scope s) := by
  unfold execFenceRel
  split <;> next heq => simp [State.release_eq_mem heq, h]

@[simp] theorem execFenceAcq_goes (_scope : BitVec 2) (s : State) (h : Canon p s.mem) : Goes p (execFenceAcq _scope s) := by
  unfold execFenceAcq
  repeat' split
  all_goals simp [h]

theorem State.advLclk_goes (s : State) (n : Nat) (wait go : State → Out) (h : Canon p s.mem) (hw : ∀ u, Canon p u.mem → Goes p (wait u))
    (hgo : ∀ u, Canon p u.mem → Goes p (go u)) : Goes p (s.advLclk n wait go) := by
  unfold State.advLclk
  dsimp only
  split
  · exact hw _ (by simp [h])
  · exact hgo _ (by simp [h])

@[simp] theorem execLclkAdv_goes (r : BitVec 4) (s : State) (h : Canon p s.mem) : Goes p (execLclkAdv r s) := by
  unfold execLclkAdv
  split
  · simp [h]
  · exact s.advLclk_goes _ _ _ h (fun u hu => by simp [hu]) (fun u hu => by simp [hu])

@[simp] theorem execYield_goes (s : State) (h : Canon p s.mem) : Goes p (execYield s) :=
  s.advLclk_goes _ _ _ h (fun u hu => by simp [hu]) fun u hu => by
    dsimp only
    repeat' split
    all_goals simp -implicitDefEqProofs [hu]

@[simp] theorem execSrr_goes (d : BitVec 4) (num : BitVec 12) (s : State) (h : Canon p s.mem) : Goes p (execSrr d num s) := by
  unfold execSrr
  repeat' split
  all_goals simp [h]

@[simp] theorem State.setCarve_canon (s : State) (t : Nat) (v : Word) (h : Canon p s.mem) : Canon p (s.setCarve t v).mem := by
  unfold State.setCarve
  rw [State.makeRoom_mem, State.modTile_mem]
  exact h.fold _ _ fun m c hm => hm.memClear _ _

@[simp] theorem execSrw_goes (s : BitVec 4) (num : BitVec 12) (st : State) (h : Canon p st.mem) : Goes p (execSrw s num st) := by
  unfold execSrw
  dsimp only
  repeat' split
  all_goals simp [h]

@[simp] theorem execDepNew_goes (d : BitVec 4) (kind : BitVec 2) (s : State) (h : Canon p s.mem) : Goes p (execDepNew d kind s) := by
  unfold execDepNew
  split
  · simp [h]
  · split
    · simp [h]
    · exact State.finish_goes _ _ _ (by simp [h])

@[simp] theorem execDepEdge_goes (s t : BitVec 4) (st : State) (h : Canon p st.mem) : Goes p (execDepEdge s t st) := by
  unfold execDepEdge
  dsimp only
  repeat' split
  all_goals simp [h]

@[simp] theorem execDepArm_goes (s : BitVec 4) (st : State) (h : Canon p st.mem) : Goes p (execDepArm s st) := by
  unfold execDepArm
  dsimp only
  repeat' split
  all_goals simp [h]

@[simp] theorem execDepWait_goes (s : BitVec 4) (st : State) (h : Canon p st.mem) : Goes p (execDepWait s st) := by
  unfold execDepWait
  dsimp only
  repeat' split
  all_goals simp [h]

/-! Operations that write the memory, and instructions: Sys2Proof/Machine/Vcell.lean -/

@[simp] theorem State.setLocalLine_canon (s : State) (c off : Nat) (v : BitVec 512) (h : Canon p s.mem) : Canon p (s.setLocalLine c off v).mem := by
  simp [State.setLocalLine, h]

@[simp] theorem State.setLaneReg_canon (s : State) (c i : Nat) (v : BitVec 512) (h : Canon p s.mem) : Canon p (s.setLaneReg c i v).mem := by
  simp [State.setLaneReg, h]

@[simp] theorem State.put_canon (s : State) (c n code k : Nat) (x : Flit) (h : Canon p s.mem) : Canon p (s.put c n code k x).mem := by
  unfold State.put
  repeat' split
  all_goals simp [h]

@[simp] theorem State.sendOut_canon (s : State) (c n : Nat) (x : Flit × Nat) (h : Canon p s.mem) : Canon p (s.sendOut c n x).mem := by
  unfold State.sendOut
  dsimp only
  repeat' split
  all_goals simp [h]

@[simp] theorem State.emitOuts_canon (s : State) (c n : Nat) (xs : List (Flit × Nat)) (h : Canon p s.mem) : Canon p (s.emitOuts c n xs).mem := by
  unfold State.emitOuts
  repeat' split
  all_goals simp [h]

@[simp] theorem State.emit_canon (s : State) (c n : Nat) (xs : List Flit) (h : Canon p s.mem) : Canon p (s.emit c n xs).mem := by
  simp [State.emit, h]

@[simp] theorem execS1Convert_goes (cell stage : Nat) (srcB : Bool) (s : State) (h : Canon p s.mem) : Goes p (execS1Convert cell stage srcB s) := by
  unfold execS1Convert
  dsimp only
  repeat' split
  all_goals simp [h]

theorem State.stageTurn_goes (s : State) (c n op : Nat) {go : Out} (h : Canon p s.mem) (hgo : Goes p go) : Goes p (s.stageTurn c n op go) := by
  unfold State.stageTurn
  dsimp only
  repeat' split
  all_goals simp -implicitDefEqProofs [h, hgo]

theorem State.fire_goes (s : State) (c n op : Nat) {go : Flit → Flit → State → Out} (h : Canon p s.mem)
    (hgo : ∀ a b u, Canon p u.mem → Goes p (go a b u)) : Goes p (s.fire c n op go) := by
  refine s.stageTurn_goes _ _ _ h ?_
  dsimp only
  split
  · split <;> simp [h]
  · split
    · split <;> simp [h]
    · split
      · simp [h]
      · refine hgo _ _ _ ?_
        rw [State.touchCell_mem, State.gateTook_mem, State.pop_mem, State.pop_mem]
        repeat' split
        all_goals simp [h]

/-! Operations that write the memory, and instructions: Sys2Proof/Machine/Stages.lean -/

@[simp] theorem State.elemStage_goes (s : State) (c n op : Nat) (e : ElemOp) (h : Canon p s.mem) : Goes p (s.elemStage c n op e) :=
  s.fire_goes _ _ _ h fun a b u hu => by
    dsimp only
    split <;> simp -implicitDefEqProofs [hu]

@[simp] theorem State.reduceStage_goes (s : State) (c n op : Nat) (e : StageF → Nat → List Nat → Nat) (h : Canon p s.mem) :
    Goes p (s.reduceStage c n op e) :=
  s.fire_goes _ _ _ h fun a b u hu => by
    dsimp only
    split <;> simp -implicitDefEqProofs [hu]

@[simp] theorem State.flitStage_goes (s : State) (c n op : Nat) (e : StageF → Flit → BitVec 512) (h : Canon p s.mem) : Goes p (s.flitStage c n op e) :=
  s.fire_goes _ _ _ h fun a b u hu => by simp [hu]

@[simp] theorem execStageEmpty_goes (cell n : Nat) (s : State) (h : Canon p s.mem) : Goes p (execStageEmpty cell n s) := by
  unfold execStageEmpty
  dsimp only
  split
  · simp [h]
  · exact s.fire_goes _ _ _ h fun a b u hu => by simp [hu]

@[simp] theorem execStagePass_goes (cell : Nat) (s : State) (h : Canon p s.mem) : Goes p (execStagePass cell s) := by
  unfold execStagePass
  dsimp only
  split
  · exact s.fire_goes _ _ _ h fun a b u hu => by simp [hu]
  · refine s.stageTurn_goes _ _ _ h ?_
    split
    · split <;> simp -implicitDefEqProofs [h]
    · simp [h]

@[simp] theorem execStageCvt_goes (cell : Nat) (s : State) (h : Canon p s.mem) : Goes p (execStageCvt cell s) := by
  refine s.fire_goes _ _ _ h fun a b u hu => ?_
  repeat' split
  all_goals simp [hu]

@[simp] theorem State.runBits_canon (c : Nat) (f : StageF) (n : Nat) (s : State) (h : Canon p s.mem) : Canon p (State.runBits c f n s).mem := by
  induction n generalizing s with
  | zero => exact h
  | succ n ih =>
    unfold State.runBits
    extract_lets
    split
    · exact h
    · split
      · exact ih _ h
      · exact State.emitOuts_canon _ _ _ _ h

@[simp] theorem State.bitStage_goes (s : State) (c op : Nat) (h : Canon p s.mem) : Goes p (s.bitStage c op) := by
  refine s.stageTurn_goes _ _ _ h ?_
  dsimp only
  repeat' split
  all_goals simp -implicitDefEqProofs [h]

@[simp] theorem execStageMaskt_goes (cell : Nat) (s : State) (h : Canon p s.mem) : Goes p (execStageMaskt cell s) := by
  refine s.stageTurn_goes _ _ _ h ?_
  dsimp only
  repeat' split
  all_goals simp -implicitDefEqProofs [h]

@[simp] theorem State.accStage_goes (s : State) (c op : Nat) (e : ElemOp) (h : Canon p s.mem) : Goes p (s.accStage c op e) :=
  s.fire_goes _ _ _ h fun a b u hu => by
    dsimp only
    repeat' split
    all_goals simp -implicitDefEqProofs [hu]

@[simp] theorem execStageSel_goes (cell : Nat) (s : State) (h : Canon p s.mem) : Goes p (execStageSel cell s) := by
  refine s.fire_goes _ _ _ h fun a b u hu => ?_
  simp [hu]

@[simp] theorem execStagePack_goes (cell : Nat) (s : State) (h : Canon p s.mem) : Goes p (execStagePack cell s) := by
  refine s.fire_goes _ _ _ h fun a b u hu => ?_
  simp [hu]

@[simp] theorem execStageRoute_goes (cell : Nat) (s : State) (h : Canon p s.mem) : Goes p (execStageRoute cell s) := by
  refine s.fire_goes _ _ _ h fun a b u hu => ?_
  simp [hu]

@[simp] theorem execStageStore_goes (cell : Nat) (s : State) (h : Canon p s.mem) : Goes p (execStageStore cell s) := by
  refine s.fire_goes _ _ _ h fun a b u hu => ?_
  simp -implicitDefEqProofs [hu]

@[simp] theorem execStageQpack_goes (cell : Nat) (s : State) (h : Canon p s.mem) : Goes p (execStageQpack cell s) := by
  refine s.fire_goes _ _ _ h fun a b u hu => ?_
  dsimp only
  repeat' split
  all_goals simp -implicitDefEqProofs [hu]

/-! Operations that write the memory, and instructions: Sys2Proof/Machine/Matrix.lean -/

@[simp] theorem State.rowDone_goes (s : State) (c : Nat) (f : StageF) (tag : Nat) (acc : List Nat) (stuck : BitVec 16) (mark : BitVec 3)
    (h : Canon p s.mem) : Goes p (s.rowDone c f tag acc stuck mark) := by
  unfold State.rowDone
  dsimp only
  split <;> simp -implicitDefEqProofs [h]

@[simp] theorem execStageMma_goes (cell : Nat) (s : State) (h : Canon p s.mem) : Goes p (execStageMma cell s) := by
  refine s.fire_goes _ _ _ h fun a b u hu => ?_
  dsimp only
  repeat' split
  all_goals simp [hu]

@[simp] theorem execStageMmai_goes (cell : Nat) (s : State) (h : Canon p s.mem) : Goes p (execStageMmai cell s) := by
  refine s.fire_goes _ _ _ h fun a b u hu => ?_
  simp [hu]

@[simp] theorem execStageMmaq_goes (cell : Nat) (s : State) (h : Canon p s.mem) : Goes p (execStageMmaq cell s) := by
  refine s.stageTurn_goes _ _ _ h ?_
  dsimp only
  split
  · split
    · simp [h]
    · split
      · split <;> simp [h]
      · split <;> simp [h]
  · simp [h]

@[simp] theorem execStageVfma_goes (cell : Nat) (s : State) (h : Canon p s.mem) : Goes p (execStageVfma cell s) := by
  refine s.fire_goes _ _ _ h fun a b u hu => ?_
  dsimp only
  repeat' split
  all_goals simp -implicitDefEqProofs [hu]

@[simp] theorem State.netSend_goes (s : State) (c : Nat) (f : StageF) (sh : Shape) (b : NetBank) (h : Canon p s.mem) : Goes p (s.netSend c f sh b) := by
  unfold State.netSend
  extract_lets epl w out u nan ovf flags
  have hu : Canon p u.mem := h
  split <;> simp [hu]

@[simp] theorem execStageNetx_goes (cell : Nat) (s : State) (h : Canon p s.mem) : Goes p (execStageNetx cell s) := by
  unfold execStageNetx
  dsimp only
  split
  · refine s.stageTurn_goes _ _ _ h ?_
    repeat' split
    all_goals simp [h]
  · refine s.fire_goes _ _ _ h fun a b u hu => ?_
    repeat' split
    all_goals simp [hu]

/-! Operations that write the memory, and instructions: Sys2Proof/Machine/Mesh.lean -/

@[simp] theorem State.boxMove_goes (s : State) (c out : Nat) (upset : Bool) (ok : Flit → Bool) (h : Canon p s.mem) : Goes p (s.boxMove c out upset ok) := by
  unfold State.boxMove
  dsimp only
  repeat' split
  all_goals simp [h]

@[simp] theorem execEventPulse_goes (cell out : Nat) (s : State) (h : Canon p s.mem) : Goes p (execEventPulse cell out s) := by
  unfold execEventPulse
  dsimp only
  repeat' split
  all_goals simp [h]

@[simp] theorem execFifoAppend_goes (cell : Nat) (s : State) (h : Canon p s.mem) : Goes p (execFifoAppend cell s) := by
  unfold execFifoAppend
  dsimp only
  repeat' split
  all_goals simp -implicitDefEqProofs [h]

@[simp] theorem execFifoLeave_goes (cell : Nat) (s : State) (h : Canon p s.mem) : Goes p (execFifoLeave cell s) := by
  unfold execFifoLeave
  dsimp only
  repeat' split
  all_goals simp [h]

@[simp] theorem execLinebufAppend_goes (cell : Nat) (s : State) (h : Canon p s.mem) : Goes p (execLinebufAppend cell s) := by
  unfold execLinebufAppend
  dsimp only
  repeat' split
  all_goals simp -implicitDefEqProofs [h]

/-! Operations that write the memory, and instructions: Sys2Proof/Machine/Tokens.lean -/

@[simp] theorem execTokenHop_goes (k : Nat) (upset : Bool) (s : State) (h : Canon p s.mem) : Goes p (execTokenHop k upset s) := by
  unfold execTokenHop
  dsimp only
  repeat' split
  all_goals simp [h]

theorem State.atCell_goes (s : State) (k : Nat) (t : NetTok) (c : Nat) {go : Out} (h : Canon p s.mem) (hgo : Goes p go) : Goes p (s.atCell k t c go) := by
  unfold State.atCell
  repeat' split
  all_goals simp [h, hgo]

@[simp] theorem State.storeTok_goes (s : State) (k : Nat) (t : NetTok) (c : Nat) (h : Canon p s.mem) : Goes p (s.storeTok k t c) := by
  unfold State.storeTok
  dsimp only
  repeat' split
  all_goals simp [h]

@[simp] theorem execTokenArrive_goes (k : Nat) (s : State) (h : Canon p s.mem) : Goes p (execTokenArrive k s) := by
  unfold execTokenArrive
  dsimp only
  split
  · simp [h]
  · split
    · simp [h]
    · exact s.atCell_goes _ _ _ h (by split <;> simp [h])

@[simp] theorem execPredicateFlitArrive_goes (k : Nat) (upset : Bool) (s : State) (h : Canon p s.mem) : Goes p (execPredicateFlitArrive k upset s) := by
  unfold execPredicateFlitArrive
  dsimp only
  split
  · simp [h]
  · split
    · simp [h]
    · split
      · simp [h]
      · exact s.atCell_goes _ _ _ h (by split <;> simp [h])

@[simp] theorem execQueueAppend_goes (k : Nat) (s : State) (h : Canon p s.mem) : Goes p (execQueueAppend k s) := by
  unfold execQueueAppend
  dsimp only
  split
  · simp [h]
  · split
    · simp [h]
    · refine s.atCell_goes _ _ _ h ?_
      split
      · simp [h]
      · split <;> simp [h]

theorem State.forward_mem {s u : State} {c : Nat} {e : DestF} {g : Tag} {fmt : BitVec 3} {aux : BitVec 8} {data : List Word}
    (h : s.forward c e g fmt aux data = some u) : u.mem = s.mem := by
  revert h
  unfold State.forward
  split
  · rintro ⟨⟩; simp
  · split
    · rintro ⟨⟩
    · rintro ⟨⟩; simp
    · dsimp only
      split <;> rintro ⟨⟩; simp

@[simp] theorem execConvertFire_goes (k : Nat) (s : State) (h : Canon p s.mem) : Goes p (execConvertFire k s) := by
  unfold execConvertFire
  dsimp only
  split
  · simp [h]
  · split
    · simp [h]
    · refine s.atCell_goes _ _ _ h ?_
      split
      · simp [h]
      · split
        · simp [h]
        · split
          · next heq => simp [State.forward_mem heq, h]
          · simp [h]
      · split
        · next heq => simp [State.forward_mem heq, h]
        · simp [h]

@[simp] theorem execFalsePAbsorb_goes (cell slot : Nat) (s : State) (h : Canon p s.mem) : Goes p (execFalsePAbsorb cell slot s) := by
  unfold execFalsePAbsorb
  dsimp only
  repeat' split
  all_goals simp [h]

@[simp] theorem execSteerFire_goes (cell slot : Nat) (s : State) (h : Canon p s.mem) : Goes p (execSteerFire cell slot s) := by
  unfold execSteerFire
  dsimp only
  split
  · simp [h]
  · split
    · split
      · split
        · next heq => simp [State.forward_mem heq, h]
        · simp [h]
      · simp [h]
    · simp [h]

@[simp] theorem execMergeFire_goes (cell slot : Nat) (s : State) (h : Canon p s.mem) : Goes p (execMergeFire cell slot s) := by
  unfold execMergeFire
  dsimp only
  split
  · simp [h]
  · split
    · split
      · next heq => simp [State.forward_mem heq, h]
      · simp [h]
    · simp [h]

@[simp] theorem execControlTokenAbsorb_goes (cell slot : Nat) (s : State) (h : Canon p s.mem) : Goes p (execControlTokenAbsorb cell slot s) := by
  unfold execControlTokenAbsorb
  dsimp only
  repeat' split
  all_goals simp [h]

@[simp] theorem execControlTokenTurn_goes (cell slot : Nat) (s : State) (h : Canon p s.mem) : Goes p (execControlTokenTurn cell slot s) := by
  unfold execControlTokenTurn
  dsimp only
  repeat' split
  all_goals simp [h]

/-! Operations that write the memory, and instructions: Sys2Proof/Machine/Convert.lean -/

@[simp] theorem execS2tTake_goes (cell : Nat) (s : State) (h : Canon p s.mem) : Goes p (execS2tTake cell s) := by
  unfold execS2tTake
  dsimp only
  repeat' split
  all_goals simp [h]

@[simp] theorem execS2tSend_goes (cell : Nat) (s : State) (h : Canon p s.mem) : Goes p (execS2tSend cell s) := by
  unfold execS2tSend
  dsimp only
  split
  · simp [h]
  · split
    · simp [h]
    · split
      · split
        · next heq => simp [State.forward_mem heq, h]
        · simp [h]
      · repeat' split
        all_goals simp [h]

@[simp] theorem execT2sTake_goes (k : Nat) (s : State) (h : Canon p s.mem) : Goes p (execT2sTake k s) := by
  unfold execT2sTake
  dsimp only
  split
  · simp [h]
  · split
    · simp [h]
    · refine s.atCell_goes _ _ _ h ?_
      split
      · simp [h]
      · split <;> simp [h]

@[simp] theorem execT2sSend_goes (cell : Nat) (s : State) (h : Canon p s.mem) : Goes p (execT2sSend cell s) := by
  unfold execT2sSend
  dsimp only
  repeat' split
  all_goals simp [h]

/-! Operations that write the memory, and instructions: Sys2Proof/Machine/Operands.lean -/

@[simp] theorem State.wordDone_goes (s : State) (n : Nat) (b : Block) (h : Canon p s.mem) : Goes p (s.wordDone n b) := by
  simp [State.wordDone, h]

@[simp] theorem State.wordHolds_goes (s : State) (h : Canon p s.mem) : Goes p (s.wordHolds) := by
  simp [State.wordHolds, h]

theorem State.word_goes (s : State) (g : BitVec 4) (n : Nat) {go : Block → Out} (h : Canon p s.mem) (hgo : ∀ b, Goes p (go b)) :
    Goes p (s.word g n go) := by
  unfold State.word
  split <;> simp [h, hgo]

@[simp] theorem State.put1_goes (s : State) (n : Nat) (b : Block) (d : BitVec 3) (v : TVal) (h : Canon p s.mem) : Goes p (s.put1 n b d v) := by
  simp [State.put1, h]

@[simp] theorem State.word1_goes (s : State) (g : BitVec 4) (n : Nat) (d : BitVec 3) (a : Opnd) (f : Block → TVal → TVal) (h : Canon p s.mem) :
    Goes p (s.word1 g n d a f) :=
  s.word_goes _ _ h fun b => by split <;> simp [h]

@[simp] theorem State.word2_goes (s : State) (g : BitVec 4) (d : BitVec 3) (a b : Opnd) (f : Block → TVal → TVal → TVal) (h : Canon p s.mem) :
    Goes p (s.word2 g d a b f) :=
  s.word_goes _ _ h fun k => by
    repeat' split
    all_goals simp [h]

/-! Operations that write the memory, and instructions: Sys2Proof/Machine/HInt.lean -/

@[simp] theorem execHLit_goes (d : BitVec 3) (g : BitVec 4) (lit : BitVec 32) (s : State) (h : Canon p s.mem) : Goes p (execHLit d g lit s) := by
  refine s.word_goes _ _ h fun k => ?_
  simp [h]

@[simp] theorem execHLith_goes (d : BitVec 3) (g : BitVec 4) (lit : BitVec 32) (s : State) (h : Canon p s.mem) : Goes p (execHLith d g lit s) := by
  refine s.word_goes _ _ h fun k => ?_
  simp [h]

/-! Operations that write the memory, and instructions: Sys2Proof/Machine/HMem.lean -/

@[simp] theorem State.loadLocal_goes (s : State) (g : BitVec 4) (d : BitVec 3) (a : Opnd) (off : BitVec 11) (n : Nat) (h : Canon p s.mem) :
    Goes p (s.loadLocal g d a off n) :=
  s.word_goes _ _ h fun k => by
    repeat' split
    all_goals simp [h]

@[simp] theorem State.storeLocal_goes (s : State) (g : BitVec 4) (d : BitVec 3) (a : Opnd) (off : BitVec 11) (n : Nat) (h : Canon p s.mem) :
    Goes p (s.storeLocal g d a off n) :=
  s.word_goes _ _ h fun k => by
    repeat' split
    all_goals simp [h]

theorem State.loadRenew_mem {s u : State} {a o f n : Nat} (h : (s.loadRenew a o f n).state? = some u) : u.mem = s.mem := by
  revert h
  unfold State.loadRenew
  dsimp only
  repeat' split
  all_goals (rintro ⟨⟩; simp)

theorem State.hLoad_mem {s u : State} {b : Block} {va n : Nat} (h : (s.hLoad b va n).state? = some u) : u.mem = s.mem := by
  revert h
  unfold State.hLoad
  dsimp only
  split
  · rintro ⟨⟩
  · next heq => rintro ⟨⟩; exact State.reach_mem (congrArg TRes.state? heq)
  · next t v heq =>
    rw [← State.reach_mem (congrArg TRes.state? heq)]
    split
    · rintro ⟨⟩; rfl
    · have hr : ∀ w, (if t.ty ≠ 0 then v.loadDirect (cellAgent s.cell) (s.cellUnit s.cell) t n
          else if b.fenceAcq then v.loadRenew (cellAgent s.cell) (s.cellUnit s.cell) t.flat n
          else v.loadLine (cellAgent s.cell) (s.cellUnit s.cell) t.flat n).state? = some w → w.mem = v.mem := fun w => by
        split
        · exact State.loadDirect_mem
        · split
          · exact State.loadRenew_mem
          · exact State.loadLine_mem
      split
      · next heq => rintro ⟨⟩; exact hr _ (congrArg LRes.state? heq)
      · exact hr u

@[simp] theorem State.loadGlobal_goes (s : State) (g : BitVec 4) (d : BitVec 3) (a : Opnd) (off : BitVec 11) (n : Nat) (h : Canon p s.mem) :
    Goes p (s.loadGlobal g d a off n) :=
  s.word_goes _ _ h fun k => by
    split
    · simp [h]
    · split
      · simp [h]
      · next heq => simp [State.hLoad_mem (congrArg LRes.state? heq), h]
      · next heq => simp [State.hLoad_mem (congrArg LRes.state? heq), h]

@[simp] theorem State.storeGlobal_goes (s : State) (g : BitVec 4) (d : BitVec 3) (a : Opnd) (off : BitVec 11) (n : Nat) (h : Canon p s.mem) :
    Goes p (s.storeGlobal g d a off n) :=
  s.word_goes _ _ h fun k => by
    split
    · simp [h]
    · dsimp only
      split
      · simp [h]
      · next heq => simp [State.reach_mem (congrArg TRes.state? heq), h]
      · next heq => simp [State.reach_mem (congrArg TRes.state? heq), h]

/-! Operations that write the memory, and instructions: Sys2Proof/Machine/HBlock.lean -/

@[simp] theorem State.fillWindow_canon (s : State) (c : Nat) (l : Option MEnt) (h : Canon p s.mem) : Canon p (s.fillWindow c l).mem := by
  unfold State.fillWindow
  repeat' split
  all_goals simp [h]

@[simp] theorem execFiringStart_goes (cell : Nat) (s : State) (h : Canon p s.mem) : Goes p (execFiringStart cell s) := by
  unfold execFiringStart
  dsimp only
  repeat' split
  all_goals simp [h]

@[simp] theorem State.emitWord_goes (s : State) (g : BitVec 4) (a : Opnd) (ds : List Nat) (ok : DestF → Bool) (tagop : Nat) (val : TVal → TVal)
    (h : Canon p s.mem) : Goes p (s.emitWord g a ds ok tagop val) :=
  s.word_goes _ _ h fun k => by
    split
    · simp [h]
    · split
      · simp [h]
      · dsimp only
        split <;> simp [h]

@[simp] theorem execHSend_goes (a b : Opnd) (g : BitVec 4) (s : State) (h : Canon p s.mem) : Goes p (execHSend a b g s) := by
  refine s.word_goes _ _ h fun k => ?_
  dsimp only
  repeat' split
  all_goals simp [h]

@[simp] theorem execHExitDone_goes (keep : BitVec 3) (g : BitVec 4) (s : State) (h : Canon p s.mem) : Goes p (execHExitDone keep g s) := by
  refine s.word_goes _ _ h fun k => ?_
  simp [h]

@[simp] theorem execHExitDefer_goes (g : BitVec 4) (s : State) (h : Canon p s.mem) : Goes p (execHExitDefer g s) := by
  refine s.word_goes _ _ h fun k => ?_
  simp [h]

@[simp] theorem execHExitFail_goes (g : BitVec 4) (s : State) (h : Canon p s.mem) : Goes p (execHExitFail g s) := by
  refine s.word_goes _ _ h fun k => ?_
  simp [h]

@[simp] theorem execHTagLvl_goes (d : BitVec 3) (g : BitVec 4) (s : State) (h : Canon p s.mem) : Goes p (execHTagLvl d g s) := by
  refine s.word_goes _ _ h fun k => ?_
  simp [h]

@[simp] theorem execHTagFree_goes (g : BitVec 4) (s : State) (h : Canon p s.mem) : Goes p (execHTagFree g s) := by
  refine s.word_goes _ _ h fun k => ?_
  simp [h]

@[simp] theorem execHTagFreectx_goes (g : BitVec 4) (s : State) (h : Canon p s.mem) : Goes p (execHTagFreectx g s) := by
  refine s.word_goes _ _ h fun k => ?_
  repeat' split
  all_goals simp [h]

@[simp] theorem execHTagPool_goes (d : BitVec 3) (a : Opnd) (g : BitVec 4) (s : State) (h : Canon p s.mem) : Goes p (execHTagPool d a g s) := by
  refine s.word_goes _ _ h fun k => ?_
  repeat' split
  all_goals simp [h]

@[simp] theorem execHTagParent_goes (d : BitVec 3) (g : BitVec 4) (s : State) (h : Canon p s.mem) : Goes p (execHTagParent d g s) := by
  refine s.word_goes _ _ h fun k => ?_
  repeat' split
  all_goals simp [h]

@[simp] theorem execHSync_goes (d : BitVec 3) (a b : Opnd) (g : BitVec 4) (reply : BitVec 6) (f : BitVec 3) (scope : BitVec 2) (cmd : BitVec 8) (s : State)
    (h : Canon p s.mem) : Goes p (execHSync d a b g reply f scope cmd s) :=
  s.word_goes _ _ h fun k => by
    split
    · simp [h]
    · split
      · simp [h]
      · dsimp only
        split
        · simp [h]
        · next heq => simp [State.reach_mem (congrArg TRes.state? heq), h]
        · next heq =>
          repeat' split
          all_goals simp [State.reach_mem (congrArg TRes.state? heq), h]

@[simp] theorem execHFenceSl_goes (g : BitVec 4) (s : State) (h : Canon p s.mem) : Goes p (execHFenceSl g s) := by
  refine s.word_goes _ _ h fun k => ?_
  simp [h]

@[simp] theorem execHFenceRel_goes (scope : BitVec 2) (g : BitVec 4) (s : State) (h : Canon p s.mem) : Goes p (execHFenceRel scope g s) := by
  refine s.word_goes _ _ h fun k => ?_
  simp [h]

@[simp] theorem execHFenceAcq_goes (scope : BitVec 2) (g : BitVec 4) (s : State) (h : Canon p s.mem) : Goes p (execHFenceAcq scope g s) := by
  refine s.word_goes _ _ h fun k => ?_
  simp [h]

@[simp] theorem execHLclk_goes (d : BitVec 3) (g : BitVec 4) (s : State) (h : Canon p s.mem) : Goes p (execHLclk d g s) := by
  refine s.word_goes _ _ h fun k => ?_
  simp [h]

@[simp] theorem execHLclkadv_goes (a : Opnd) (g : BitVec 4) (s : State) (h : Canon p s.mem) : Goes p (execHLclkadv a g s) := by
  refine s.word_goes _ _ h fun k => ?_
  repeat' split
  all_goals simp [h]

@[simp] theorem execTagGrant_goes (cell : Nat) (s : State) (h : Canon p s.mem) : Goes p (execTagGrant cell s) := by
  unfold execTagGrant
  repeat' split
  all_goals simp [h]

@[simp] theorem State.localCommit_canon (s : State) (c : Nat) (b : Block) (h : Canon p s.mem) : Canon p (s.localCommit c b).mem :=
  h.fold _ _ fun _ _ hm => hm.memPut _ _

@[simp] theorem State.commitStart_goes (s : State) (c : Nat) (b : Block) (keep : BitVec 3) (h : Canon p s.mem) : Goes p (s.commitStart c b keep) := by
  unfold State.commitStart
  extract_lets a t after toks r u u' room stores u'' later wait v rest
  have hr : Canon p r.2.mem := by
    unfold r
    cases b.fenceRel with
    | none => exact h
    | some sc => simp [h]
  have hu : Canon p u.mem := by simp [u, hr]
  have hv : Canon p v.mem := by
    unfold v u'' u'
    repeat' split
    all_goals simp [hu]
  repeat' split
  all_goals simp [h, hr, hv]

@[simp] theorem State.commitMore_goes (s : State) (c : Nat) (b : Block) (h : Canon p s.mem) : Goes p (s.commitMore c b) := by
  unfold State.commitMore
  dsimp only
  repeat' split
  all_goals simp [h]

@[simp] theorem execBlockCommit_goes (cell : Nat) (s : State) (h : Canon p s.mem) : Goes p (execBlockCommit cell s) := by
  unfold execBlockCommit
  repeat' split
  all_goals simp [h]

/-! Operations that write the memory, and instructions: Sys2Proof/Machine/HRender.lean -/

theorem State.two_goes (s : State) (g : BitVec 4) (a b : Opnd) {go : Block → TVal → TVal → Out} (h : Canon p s.mem)
    (hgo : ∀ k x y, Goes p (go k x y)) : Goes p (s.two g a b go) :=
  s.word_goes _ _ h fun k => by
    repeat' split
    all_goals simp [h, hgo]

theorem State.hWords_mem {s u : State} {b : Block} {va n : Nat} (h : (s.hWords b va n).state? = some u) : u.mem = s.mem := by
  induction n generalizing s va with
  | zero => cases h; rfl
  | succ n ih =>
    revert h
    unfold State.hWords
    split
    · next w heq =>
      rw [← State.hLoad_mem (congrArg LRes.state? heq)]
      have := fun h => ih (s := w) (va := va + 4) h
      revert this
      cases State.hWords w b (va + 4) n <;> exact fun h => h
    · exact State.hLoad_mem

theorem State.hPieces_mem {s u : State} {b : Block} {va n : Nat} (h : (s.hPieces b va n).state? = some u) : u.mem = s.mem := by
  induction n generalizing s va with
  | zero => cases h; rfl
  | succ n ih =>
    revert h
    unfold State.hPieces
    split
    · next w heq =>
      rw [← State.hLoad_mem (congrArg LRes.state? heq)]
      have := fun h => ih (s := w) (va := (va + 16) % 2 ^ 64) h
      revert this
      cases State.hPieces w b ((va + 16) % 2 ^ 64) n <;> exact fun h => h
    · exact State.hLoad_mem

theorem State.slabWords_mem {s u : State} {b : Block} {va n : Nat} (h : (s.slabWords b va n).state? = some u) : u.mem = s.mem := by
  revert h
  unfold State.slabWords
  split
  · rintro ⟨⟩
  · next heq => rintro ⟨⟩; exact State.reach_mem (congrArg TRes.state? heq)
  · next heq =>
    rw [← State.reach_mem (congrArg TRes.state? heq)]
    split
    · rintro ⟨⟩; rfl
    · exact State.hWords_mem

theorem State.hPuts_mem {s u : State} {b : Block} {ws : List (Nat × Nat)} (h : (s.hPuts b ws).state? = some u) : u.mem = s.mem := by
  induction ws generalizing s b with
  | nil => cases h; rfl
  | cons w ws ih =>
    revert h
    unfold State.hPuts
    split
    · rintro ⟨⟩
    · next heq => rintro ⟨⟩; exact State.reach_mem (congrArg TRes.state? heq)
    · next heq =>
      rw [← State.reach_mem (congrArg TRes.state? heq)]
      exact ih

theorem State.slabPut_mem {s u : State} {b : Block} {slab : Nat} {stack : List Nat} {ws : List (Nat × Nat)}
    (h : (s.slabPut b slab stack ws).state? = some u) : u.mem = s.mem := by
  revert h
  unfold State.slabPut
  split
  · next heq => rintro ⟨⟩; exact State.hPuts_mem (congrArg GRes.state? heq)
  · next heq => rintro ⟨⟩; exact State.hPuts_mem (congrArg GRes.state? heq)
  · rintro ⟨⟩

theorem State.fit_mem {s u : State} {b : Block} {r : Ray} {cap : Nat} {stack : List Nat} (h : (s.fit b r cap stack).state? = some u) : u.mem = s.mem := by
  revert h
  unfold State.fit
  extract_lets spilled
  split
  · rintro ⟨⟩; rfl
  · split
    · split <;> rintro ⟨⟩; rfl
    · split
      · next heq => rintro ⟨⟩; exact State.slabWords_mem (congrArg LRes.state? heq)
      · rintro ⟨⟩
      · next heq =>
        rw [← State.slabWords_mem (congrArg LRes.state? heq)]
        split
        · rintro ⟨⟩
        · split
          · exact fun h => (State.slabPut_mem h).trans (State.modLaunch_mem _ _ _)
          · split
            · rintro ⟨⟩; rfl
            · dsimp only
              split
              · next heq => rintro ⟨⟩; exact State.slabWords_mem (congrArg LRes.state? heq)
              · rintro ⟨⟩
              · next heq => exact fun h => (State.slabPut_mem h).trans (State.slabWords_mem (congrArg LRes.state? heq))

@[simp] theorem State.traced_goes (s : State) (k : Block) (d : BitVec 3) (r : Ray) (w b : Nat) (best : Option (Nat × Nat)) (stack : List Nat) (v : Nat)
    (h : Canon p s.mem) : Goes p (s.traced k d r w b best stack v) := by
  unfold State.traced
  split
  · next heq => simp [State.fit_mem (congrArg FitRes.state? heq), h]
  · simp [h]
  · next heq => simp [State.fit_mem (congrArg FitRes.state? heq), h]

@[simp] theorem State.boxt8_goes (s : State) (closest : Bool) (d : BitVec 3) (a b : Opnd) (g : BitVec 4) (h : Canon p s.mem) :
    Goes p (s.boxt8 closest d a b g) :=
  s.two_goes _ _ _ h fun k x y => by
    dsimp only
    split
    · simp [h]
    · split
      · simp [h]
      · next heq => simp [State.hPieces_mem (congrArg LRes.state? heq), h]
      · next heq => split <;> simp [State.hPieces_mem (congrArg LRes.state? heq), h]

@[simp] theorem State.trit_goes (s : State) (closest : Bool) (d : BitVec 3) (a b : Opnd) (g : BitVec 4) (h : Canon p s.mem) :
    Goes p (s.trit closest d a b g) :=
  s.two_goes _ _ _ h fun k x y => by
    dsimp only
    split
    · simp [h]
    · split
      · simp [h]
      · next heq => simp [State.hPieces_mem (congrArg LRes.state? heq), h]
      · next heq =>
        split
        · simp [State.hPieces_mem (congrArg LRes.state? heq), h]
        · split <;> simp [State.hPieces_mem (congrArg LRes.state? heq), h]

@[simp] theorem execHTritBary_goes (d : BitVec 3) (a b : Opnd) (g : BitVec 4) (s : State) (h : Canon p s.mem) : Goes p (execHTritBary d a b g s) :=
  s.two_goes _ _ _ h fun k x y => by
    dsimp only
    split
    · simp [h]
    · split
      · simp [h]
      · split
        · simp [h]
        · split
          · simp [h]
          · split
            · simp [h]
            · next heq => simp [State.hPieces_mem (congrArg LRes.state? heq), h]
            · next heq =>
              split
              · simp [State.hPieces_mem (congrArg LRes.state? heq), h]
              · split <;> simp [State.hPieces_mem (congrArg LRes.state? heq), h]

@[simp] theorem execHDicer_goes (d : BitVec 3) (a b : Opnd) (g : BitVec 4) (s : State) (h : Canon p s.mem) : Goes p (execHDicer d a b g s) := by
  refine s.two_goes _ _ _ h fun k x y => ?_
  dsimp only
  repeat' split
  all_goals simp [h]

@[simp] theorem State.sampt_goes (s : State) (d : BitVec 3) (a b : Opnd) (g : BitVec 4) (val : Nat → Nat → Nat) (h : Canon p s.mem) :
    Goes p (s.sampt d a b g val) :=
  s.two_goes _ _ _ h fun k x y => by split <;> simp [h]

@[simp] theorem execHMptest_goes (d : BitVec 3) (a b : Opnd) (g : BitVec 4) (s : State) (h : Canon p s.mem) : Goes p (execHMptest d a b g s) := by
  refine s.two_goes _ _ _ h fun k x y => ?_
  repeat' split
  all_goals simp [h]

@[simp] theorem execHSeqw_goes (d : BitVec 3) (a b : Opnd) (g : BitVec 4) (s : State) (h : Canon p s.mem) : Goes p (execHSeqw d a b g s) := by
  refine s.two_goes _ _ _ h fun k x y => ?_
  dsimp only
  repeat' split
  all_goals simp [h]

/-! Operations that write the memory, and instructions: Sys2Proof/Machine/Planes.lean -/

@[simp] theorem State.writeCode_canon (s : State) (c : Nat) (code : List (BitVec 32)) (folio idx : Nat) (h : Canon p s.mem) :
    Canon p (s.writeCode c code folio idx).mem := by
  unfold State.writeCode
  rw [State.modCell_mem]
  exact h.fold _ _ fun _ _ hm => hm.memWrite _ _ _

@[simp] theorem State.writeCodes_canon (s : State) (l : Launch) (cfg : ConfigImg) (idx : Nat) (h : Canon p s.mem) :
    Canon p (s.writeCodes l cfg idx).mem :=
  State.foldl_canon _ (fun u e hu => by dsimp only; split <;> simp [hu]) _ _ h

@[simp] theorem State.zeroLocal_canon (s : State) (l : Launch) (cfg : ConfigImg) (h : Canon p s.mem) : Canon p (s.zeroLocal l cfg).mem :=
  h.fold _ _ fun m e hm => by
    dsimp only
    repeat' split
    all_goals simp [hm]

theorem State.newCarve_canonical (s : State) (t : Nat) (v : Word) (h : s.Canonical p) :
    (if v = (s.getTile t).spr.carve then s else s.setCarve t v).Canonical p := by
  split
  · exact h
  · exact s.setCarve_canon _ _ h

@[simp] theorem State.raiseCarves_canon (s : State) (l : Launch) (h : Canon p s.mem) : Canon p (s.raiseCarves l).mem :=
  State.foldl_canonical _ (fun u _ hu => u.newCarve_canonical _ _ hu) _ _ h

@[simp] theorem State.areaWrite_canon (s : State) (die : Nat) (vmid : BitVec 16) (va : Nat) (ws : List Word) (h : Canon p s.mem) :
    Canon p (s.areaWrite die vmid va ws).mem :=
  State.foldl_canon _ (fun u e hu => by split <;> simp [hu]) _ _ h

/-! Operations that write the memory, and instructions: Sys2Proof/Machine/Cfg.lean -/

theorem State.loaderReach_mem {s u : State} {l : Launch} (h : (s.loaderReach l).state? = some u) : u.mem = s.mem := by
  revert h
  unfold State.loaderReach
  split
  · rintro ⟨⟩; rfl
  · exact State.reach_mem

theorem State.loadConfig_canon (s : State) (l : Launch) (cfg : ConfigImg) (q idx : Nat) (h : Canon p s.mem) :
    Canon p ((((s.writePlane l cfg q).writeCodes l cfg idx).zeroLocal l cfg).raiseCarves l).mem :=
  State.raiseCarves_canon _ _ (State.zeroLocal_canon _ _ _ (State.writeCodes_canon _ _ _ _ (by simp [h])))

@[simp] theorem execCfgLoad_goes (idx : BitVec 8) (s : State) (h : Canon p s.mem) : Goes p (execCfgLoad idx s) := by
  unfold execCfgLoad
  split
  · simp [h]
  · split
    · simp [h]
    · split
      · simp [h]
      · split
        · simp [h]
        · simp [h]
        · split
          · simp [h]
          · next heq => simp [State.loaderReach_mem (congrArg TRes.state? heq), h]
          · next heq =>
            have hu := fun l c q => State.loadConfig_canon _ l c q idx.toNat ((State.loaderReach_mem (congrArg TRes.state? heq)).symm ▸ h)
            dsimp only
            split <;> simp [hu]

@[simp] theorem execCfgRun_goes (idx : BitVec 8) (s : State) (h : Canon p s.mem) : Goes p (execCfgRun idx s) := by
  unfold execCfgRun
  split
  · next heq => simp [State.captured_mem heq, h]
  · simp [h]
  · repeat' split
    all_goals simp [h]

@[simp] theorem execCfgWait_goes (s : State) (h : Canon p s.mem) : Goes p (execCfgWait s) := by
  unfold execCfgWait
  repeat' split
  all_goals simp [h]

@[simp] theorem execRunEnd_goes (u : Nat) (s : State) (h : Canon p s.mem) : Goes p (execRunEnd u s) := by
  unfold execRunEnd
  repeat' split
  all_goals simp [h]

@[simp] theorem State.startDrain_goes (s : State) (why : DrainWhy) (h : Canon p s.mem) : Goes p (s.startDrain why) := by
  simp [State.startDrain, h]

@[simp] theorem execCfgDrain_goes (d : BitVec 4) (s : State) (h : Canon p s.mem) : Goes p (execCfgDrain d s) := by
  unfold execCfgDrain
  repeat' split
  all_goals simp [h]

@[simp] theorem execCfgStop_goes (s : State) (h : Canon p s.mem) : Goes p (execCfgStop s) := by
  unfold execCfgStop
  repeat' split
  all_goals simp [h]

@[simp] theorem State.talk_goes (s : State) (l : Launch) (i : Nat) (v : Word) (fin : State) (h : Canon p s.mem) (hf : Canon p fin.mem) :
    Goes p (s.talk l i v fin) := by
  unfold State.talk
  split
  · simp [hf]
  · split
    · simp [h]
    · next heq => simp [State.forward_mem heq, h]

@[simp] theorem State.activate_canon (s : State) (l : Launch) (cfg : ConfigImg) (idx p' : Nat) (h : Canon p s.mem) :
    Canon p (s.activate l cfg idx p').mem := by
  unfold State.activate
  dsimp only
  split <;> simp [h]

@[simp] theorem State.takePlane_goes (s : State) (l : Launch) (cfg : ConfigImg) (idx : Nat) (h : Canon p s.mem) : Goes p (s.takePlane l cfg idx) := by
  unfold State.takePlane
  split
  · split
    · simp [h]
    · split
      · simp [h]
      · split
        · simp [h]
        · simp [h]
        · next heq => simp [State.loaderReach_mem (congrArg TRes.state? heq), h]
        · next heq => simp [State.loaderReach_mem (congrArg TRes.state? heq), h]
  · split <;> simp [h]

@[simp] theorem State.enterCallee_goes (s : State) (l : Launch) (arg : Word) (h : Canon p s.mem) : Goes p (s.enterCallee l arg) := by
  unfold State.enterCallee
  repeat' split
  all_goals simp [h]

@[simp] theorem execCfgCall_goes (idx : BitVec 8) (r : BitVec 4) (s : State) (h : Canon p s.mem) : Goes p (execCfgCall idx r s) := by
  unfold execCfgCall
  repeat' split
  all_goals simp [h]

@[simp] theorem execFreezePoint_goes (u : Nat) (s : State) (h : Canon p s.mem) : Goes p (execFreezePoint u s) := by
  unfold execFreezePoint
  repeat' split
  all_goals simp [h]

theorem State.pushPlane_mem {s t : State} {u : Nat} {l : Launch} {plane depth cfg : Nat} (h : s.pushPlane u l plane depth cfg = .ok (some t)) :
    t.mem = s.mem := by
  revert h
  unfold State.pushPlane
  dsimp only
  split
  · rintro ⟨⟩
  · split <;> rintro ⟨⟩
    simp

theorem State.popPlane_mem {s t : State} {u : Nat} {l : Launch} {e : SpillEnt} {plane : Nat} (h : s.popPlane u l e plane = .ok t) : t.mem = s.mem := by
  revert h
  unfold State.popPlane
  split
  · rintro ⟨⟩
  · split
    · rintro ⟨⟩
    · rintro ⟨⟩
      rw [State.vaultUnit_mem, State.unstage_mem, State.foldl_mem _ (fun s x => State.setPlane_mem _ _ _ _)]
      simp

@[simp] theorem execPlaneSpillEnd_goes (u : Nat) (s : State) (h : Canon p s.mem) : Goes p (execPlaneSpillEnd u s) := by
  unfold execPlaneSpillEnd
  dsimp only
  split
  · simp [h]
  · split
    · split
      · simp [h]
      · simp [h]
      · next heq => simp [State.pushPlane_mem heq, h]
    · simp [h]

@[simp] theorem execRefillStart_goes (u : Nat) (s : State) (h : Canon p s.mem) : Goes p (execRefillStart u s) := by
  unfold execRefillStart
  repeat' split
  all_goals simp [h]

@[simp] theorem execRefillEnd_goes (u : Nat) (s : State) (h : Canon p s.mem) : Goes p (execRefillEnd u s) := by
  unfold execRefillEnd
  split
  · simp [h]
  · split
    · split
      · simp [h]
      · split
        · simp [h]
        · next heq => simp [State.popPlane_mem heq, h]
    · simp [h]

@[simp] theorem State.thaw_canon (s : State) (l : Launch) (v : Level) (arg : Word) (h : Canon p s.mem) : Canon p (s.thaw l v arg).mem := by
  unfold State.thaw
  dsimp only
  repeat' split
  all_goals simp [h]

@[simp] theorem execCfgRet_goes (r : BitVec 4) (s : State) (h : Canon p s.mem) : Goes p (execCfgRet r s) := by
  unfold execCfgRet
  repeat' split
  all_goals simp [h]

@[simp] theorem execCfgPreload_goes (idx : BitVec 8) (plane : BitVec 2) (s : State) (h : Canon p s.mem) : Goes p (execCfgPreload idx plane s) := by
  unfold execCfgPreload
  dsimp only
  repeat' split
  all_goals simp [h]

@[simp] theorem execPreloadEnd_goes (u : Nat) (s : State) (h : Canon p s.mem) : Goes p (execPreloadEnd u s) := by
  unfold execPreloadEnd
  repeat' split
  all_goals simp [h]

@[simp] theorem State.swapIn_canon (s : State) (l : Launch) (p' : Nat) (h : Canon p s.mem) : Canon p (s.swapIn l p').mem := by
  unfold State.swapIn
  dsimp only
  split <;> simp [h]

@[simp] theorem execPswap_goes (plane : BitVec 2) (s : State) (h : Canon p s.mem) : Goes p (execPswap plane s) := by
  unfold execPswap
  dsimp only
  repeat' split
  all_goals simp [h]

@[simp] theorem execStagingWriteback_goes (die : Nat) (s : State) (h : Canon p s.mem) : Goes p (execStagingWriteback die s) := by
  unfold execStagingWriteback
  dsimp only
  repeat' split
  all_goals simp -implicitDefEqProofs [h]

/-! Operations that write the memory, and instructions: Sys2Proof/Machine/Streams.lean -/

@[simp] theorem State.strmStep_goes (s : State) (tile q : Nat) (c : Cmd) (cap : Nat) (h : Canon p s.mem) : Goes p (s.strmStep tile q c cap) := by
  unfold State.strmStep
  split
  · next heq => simp [State.captured_mem heq, h]
  · simp [h]
  · split <;> simp [h]

@[simp] theorem State.strmCell_goes (s : State) (q : BitVec 2) (rt : BitVec 4) (n : BitVec 6) (mk : Launch → Nat → Cmd) (h : Canon p s.mem) :
    Goes p (s.strmCell q rt n mk) := by
  unfold State.strmCell
  split <;> simp [h]

@[simp] theorem State.strmLead_goes (s : State) (q : BitVec 2) (mk : Launch → Cmd) (h : Canon p s.mem) : Goes p (s.strmLead q mk) := by
  unfold State.strmLead
  split <;> simp [h]

@[simp] theorem State.qfenceStep_goes (s : State) (w : Nat) (h : Canon p s.mem) : Goes p (s.qfenceStep w) := by
  unfold State.qfenceStep
  dsimp only
  repeat' split
  all_goals simp [h, State.foldl_mem _ (fun s q => State.modTile_mem s _ _)]

@[simp] theorem execQfenceRelease_goes (tile id : Nat) (s : State) (h : Canon p s.mem) : Goes p (execQfenceRelease tile id s) := by
  unfold execQfenceRelease
  dsimp only
  split
  · simp [h]
  · split
    · simp [h]
    · rw [goes_next, State.foldl_mem _ (fun s q => State.modTile_mem s _ _)]
      exact h

@[simp] theorem execSbar_goes (s t : BitVec 4) (st : State) (h : Canon p st.mem) : Goes p (execSbar s t st) := by
  unfold execSbar
  dsimp only
  repeat' split
  all_goals simp [h]

@[simp] theorem execStreamBegin_goes (tile port : Nat) (s : State) (h : Canon p s.mem) : Goes p (execStreamBegin tile port s) := by
  unfold execStreamBegin
  dsimp only
  repeat' split
  all_goals simp [h]

@[simp] theorem State.writeMasked_canon (s : State) (agent : Nat) (ty : BitVec 3) (flat mask : Nat) (d : BitVec 512) (h : Canon p s.mem) :
    Canon p (s.writeMasked agent ty flat mask d).mem :=
  State.foldl_canon _ (fun u o hu => by
    dsimp only
    repeat' split
    all_goals simp [hu]) _ _ h

@[simp] theorem State.takeFlit_goes (s : State) (tile q : Nat) (l : Launch) (c : Cmd) (h : Canon p s.mem) : Goes p (s.takeFlit tile q l c) := by
  unfold State.takeFlit
  split
  · split
    · simp [h]
    · dsimp only
      rw [goes_next, State.touch_mem, State.modHead_mem]
      split <;> simp [h]
  · simp [h]

theorem State.streamLand_canon {s u : State} {tile q agent owner run : Nat} {ty : BitVec 3} {flat mask : Nat} {d : BitVec 512} {clk : BitVec 32}
    (h : Canon p s.mem) (he : s.streamLand tile q agent owner run ty flat mask d clk = some u) : Canon p u.mem := by
  revert he
  unfold State.streamLand
  dsimp only
  split
  · rintro ⟨⟩; simp [h]
  · split <;> rintro ⟨⟩; simp [h]

@[simp] theorem State.serveRead_goes (s : State) (pn key : Nat) (x : Part) (ty : BitVec 3) (home flat lim agent owner : Nat) (o : Bool) (h : Canon p s.mem) :
    (s.serveRead pn key x ty home flat lim agent owner o).Goes p := by
  unfold State.serveRead
  dsimp only
  repeat' split
  all_goals simp [h]

theorem State.partTarget_mem {s u : State} {tile q : Nat} {l : Launch} {x : Part} {need : Need} {types : BitVec 3 → Option Nat}
    (h : (s.partTarget tile q l x need types).state? = some u) : u.mem = s.mem := by
  revert h
  unfold State.partTarget
  dsimp only
  split
  · next heq =>
    split <;> rintro ⟨⟩
    exact State.reach_mem (congrArg TRes.state? heq)
  · exact State.reach_mem

@[simp] theorem State.streamRead_goes (s : State) (tile q : Nat) (l : Launch) (c : Cmd) (key : Nat) (x : Part) (h : Canon p s.mem) :
    (s.streamRead tile q l c key x).Goes p := by
  unfold State.streamRead
  dsimp only
  split
  · trivial
  · next heq => simp [State.partTarget_mem (congrArg TRes.state? heq), h]
  · next u heq =>
    have hu : Canon p u.mem := (State.partTarget_mem (congrArg TRes.state? heq)).symm ▸ h
    split
    · split
      · simp [hu]
      · split <;> simp [hu]
    · split
      · simp [hu]
      · split
        · split <;> simp [hu]
        · split
          · simp [hu]
          · split
            · simp [hu]
            · split
              · next hs => simpa using (congrArg (SRes.Goes p) hs).mp (u.serveRead_goes _ _ _ _ _ _ _ _ _ _ hu)
              · exact u.serveRead_goes _ _ _ _ _ _ _ _ _ _ hu

@[simp] theorem State.streamWrite_goes (s : State) (tile q : Nat) (l : Launch) (c : Cmd) (x : Part) (d : BitVec 512) (h : Canon p s.mem) :
    (s.streamWrite tile q l c x d).Goes p := by
  unfold State.streamWrite
  dsimp only
  split
  · trivial
  · next heq => simp [State.partTarget_mem (congrArg TRes.state? heq), h]
  · next u heq =>
    have hu : Canon p u.mem := (State.partTarget_mem (congrArg TRes.state? heq)).symm ▸ h
    split
    · simp [hu]
    · split
      · simp [hu]
      · split
        · repeat' split
          all_goals simp [hu]
        · split
          · next hl => simp [State.streamLand_canon hu hl]
          · simp [hu]

theorem State.accessed_goes (s : State) (tile k : Nat) (c : Cmd) {r : SRes} (h : Canon p s.mem) (hr : r.Goes p) : Goes p (s.accessed tile k c r) := by
  unfold State.accessed
  split
  · simpa using hr
  · simpa using hr
  · simp [h]

@[simp] theorem State.outFlit_goes (s : State) (tile q k : Nat) (l : Launch) (c : Cmd) (vas : List Nat) (n : Nat) (h : Canon p s.mem) :
    Goes p (s.outFlit tile q k l c vas n) := by
  unfold State.outFlit
  split
  · exact s.accessed_goes _ _ _ h (by simp [h])
  · simp [h]

@[simp] theorem State.inAccess_goes (s : State) (tile q k : Nat) (l : Launch) (c : Cmd) (h : Canon p s.mem) : Goes p (s.inAccess tile q k l c) := by
  unfold State.inAccess
  split
  · exact s.accessed_goes _ _ _ h (by simp [h])
  · simp [h]

@[simp] theorem State.outAccess_goes (s : State) (tile q k : Nat) (l : Launch) (c : Cmd) (h : Canon p s.mem) : Goes p (s.outAccess tile q k l c) := by
  unfold State.outAccess
  split <;> simp [h]

@[simp] theorem State.indexAccess_goes (s : State) (tile q k : Nat) (l : Launch) (c : Cmd) (h : Canon p s.mem) : Goes p (s.indexAccess tile q k l c) := by
  unfold State.indexAccess
  split
  · simp [h]
  · split
    · exact s.accessed_goes _ _ _ h (by simp [h])
    · simp [h]

@[simp] theorem State.gathAccess_goes (s : State) (tile q k : Nat) (l : Launch) (c : Cmd) (h : Canon p s.mem) : Goes p (s.gathAccess tile q k l c) := by
  unfold State.gathAccess
  split
  · simp [h]
  · split
    · exact s.accessed_goes _ _ _ h (by simp [h])
    · simp [h]

@[simp] theorem State.scatAccess_goes (s : State) (tile q k : Nat) (l : Launch) (c : Cmd) (h : Canon p s.mem) : Goes p (s.scatAccess tile q k l c) := by
  unfold State.scatAccess
  repeat' split
  all_goals simp [h]

@[simp] theorem State.fillAccess_goes (s : State) (tile q k : Nat) (l : Launch) (c : Cmd) (h : Canon p s.mem) : Goes p (s.fillAccess tile q k l c) := by
  unfold State.fillAccess
  dsimp only
  split
  · exact s.accessed_goes _ _ _ h (by simp [h])
  · simp [h]

@[simp] theorem State.copyPiece_goes (s : State) (tile q k : Nat) (l : Launch) (c : Cmd) (src dst n : Nat) (next : Cmd → Cmd) (h : Canon p s.mem) :
    Goes p (s.copyPiece tile q k l c src dst n next) := by
  unfold State.copyPiece
  split
  · split
    · exact s.accessed_goes _ _ _ h (by simp [h])
    · simp [h]
  · split
    · exact s.accessed_goes _ _ _ h (by simp [h])
    · simp [h]

@[simp] theorem State.copyAccess_goes (s : State) (tile q k : Nat) (l : Launch) (c : Cmd) (h : Canon p s.mem) : Goes p (s.copyAccess tile q k l c) := by
  simp [State.copyAccess, h]

@[simp] theorem State.kvcAccess_goes (s : State) (tile q k : Nat) (l : Launch) (c : Cmd) (h : Canon p s.mem) : Goes p (s.kvcAccess tile q k l c) := by
  unfold State.kvcAccess
  dsimp only
  split
  · split
    · exact s.accessed_goes _ _ _ h (by simp [h])
    · simp [h]
  · repeat' split
    all_goals simp [h]

@[simp] theorem State.xchAccess_goes (s : State) (tile q k : Nat) (l : Launch) (c : Cmd) (h : Canon p s.mem) : Goes p (s.xchAccess tile q k l c) := by
  unfold State.xchAccess
  dsimp only
  split
  · split
    · exact s.accessed_goes _ _ _ h (by simp [h])
    · simp [h]
  · split
    · simp [h]
    · split
      · simp [h]
      · next heq => simp [State.partTarget_mem (congrArg TRes.state? heq), h]
      · next heq => split <;> simp [State.partTarget_mem (congrArg TRes.state? heq), h]

@[simp] theorem execStreamLineAccess_goes (tile port : Nat) (s : State) (h : Canon p s.mem) : Goes p (execStreamLineAccess tile port s) := by
  unfold execStreamLineAccess
  split
  · simp [h]
  · split
    · simp [h]
    · split
      · simp [h]
      · split
        · simp [h]
        · split <;> simp [h]

@[simp] theorem execStreamReadReturn_goes (k : Nat) (s : State) (h : Canon p s.mem) : Goes p (execStreamReadReturn k s) := by
  unfold execStreamReadReturn
  dsimp only
  repeat' split
  all_goals simp [h]

@[simp] theorem execStreamPerformed_goes (tile port : Nat) (s : State) (h : Canon p s.mem) : Goes p (execStreamPerformed tile port s) := by
  unfold execStreamPerformed
  dsimp only
  repeat' split
  all_goals simp [h]

theorem SRes.goes_of_eq {r t : SRes} (hr : r.Goes p) (h : r = t) : t.Goes p := h ▸ hr

@[simp] theorem execKvcLengthWrite_goes (tile port : Nat) (s : State) (h : Canon p s.mem) : Goes p (execKvcLengthWrite tile port s) := by
  unfold execKvcLengthWrite
  split
  · simp [h]
  · split
    · simp [h]
    · split
      · simp [h]
      · split
        · simp [h]
        · split
          · next heq => simpa using SRes.goes_of_eq (s.streamWrite_goes _ _ _ _ _ _ h) heq
          · exact s.accessed_goes _ _ _ h (by simp [h])

/-! Operations that write the memory, and instructions: Sys2Proof/Machine/Replies.lean -/

@[simp] theorem execDepIssue_goes (tile : Nat) (s : State) (h : Canon p s.mem) : Goes p (execDepIssue tile s) := by
  unfold execDepIssue
  dsimp only
  repeat' split
  all_goals simp [h]

@[simp] theorem execDepPerformed_goes (tile e : Nat) (s : State) (h : Canon p s.mem) : Goes p (execDepPerformed tile e s) := by
  unfold execDepPerformed
  dsimp only
  repeat' split
  all_goals simp [h]

@[simp] theorem State.replySeq_goes (s : State) (k : Nat) (m : Msg) (tile : Nat) (r : SeqReply) (h : Canon p s.mem) : Goes p (s.replySeq k m tile r) := by
  unfold State.replySeq
  dsimp only
  repeat' split
  all_goals simp [h]

@[simp] theorem State.replyCell_goes (s : State) (k : Nat) (m : Msg) (t : NetTok) (code : Nat) (time : BitVec 32) (h : Canon p s.mem) : Goes p (s.replyCell k m t code time) := by
  unfold State.replyCell
  dsimp only
  repeat' split
  all_goals simp [h]

@[simp] theorem execConcordanceReply_goes (k : Nat) (s : State) (h : Canon p s.mem) : Goes p (execConcordanceReply k s) := by
  unfold execConcordanceReply
  repeat' split
  all_goals simp [h]

@[simp] theorem State.land_goes (s : State) (k : Nat) (m : Msg) (h : Canon p s.mem) : Goes p (s.land k m) := by
  unfold State.land
  split
  · split
    · simp [h]
    · simp [h]
    · split
      · next hl => simp [State.streamLand_canon h hl]
      · simp [h]
  · split
    · simp [h]
    · simp [h]
    · split
      · next hs => simpa using (congrArg (SRes.Goes p) hs).mp (s.serveRead_goes _ _ _ _ _ _ _ _ _ _ h)
      · next hs => simpa using (congrArg (SRes.Goes p) hs).mp (s.serveRead_goes _ _ _ _ _ _ _ _ _ _ h)
      · simp [h]
  · simp [h]

@[simp] theorem State.msgArrive_goes (s : State) (k : Nat) (m : Msg) (r : FlowRef) (h : Canon p s.mem) : Goes p (s.msgArrive k m r) := by
  unfold State.msgArrive
  split
  · simp [h]
  · dsimp only
    split
    · simp [h]
    · simp [h]
    · split <;> simp [h]
    · simp [h]

@[simp] theorem execFlowPacketArrive_goes (k : Nat) (s : State) (h : Canon p s.mem) : Goes p (execFlowPacketArrive k s) := by
  unfold execFlowPacketArrive
  dsimp only
  repeat' split
  all_goals simp [h]

/-! Operations that write the memory, and instructions: Sys2Proof/Machine/Drains.lean -/

@[simp] theorem execDrainPassStart_goes (u : Nat) (s : State) (h : Canon p s.mem) : Goes p (execDrainPassStart u s) := by
  unfold execDrainPassStart
  split
  · simp [h]
  · split
    · simp [h]
    · split
      · simp [h]
      · dsimp only
        rw [goes_next, State.touch_mem, State.modDrain_mem, State.foldl_mem]
        · exact h
        · intro u c
          repeat' split
          all_goals simp

@[simp] theorem State.clearPart_canon (s : State) (c n : Nat) (h : Canon p s.mem) : Canon p (s.clearPart c n).2.2.mem := by
  unfold State.clearPart
  dsimp only
  split
  case h_5 | h_6 => split <;> simp [h]
  all_goals simp [h]

theorem State.starved_mem {s u : State} {c n : Nat} {x : Bool × Nat} (h : s.starved c n x = some u) : u.mem = s.mem := by
  revert h
  unfold State.starved
  extract_lets q f code
  split
  · rintro ⟨⟩
  · split
    · rintro ⟨⟩; simp
    · split <;> rintro ⟨⟩
      simp

@[simp] theorem State.drainStage_goes (s : State) (u c n : Nat) (halted : Bool) (h : Canon p s.mem) : Goes p (s.drainStage u c n halted) := by
  unfold State.drainStage
  extract_lets q f xs macroOp beat outs took side part
  split
  · simp [h]
  · split
    · next heq =>
      obtain ⟨x, -, hx⟩ := List.exists_of_findSome?_eq_some heq
      simp [State.starved_mem hx, h]
    · split <;> simp [h]
    · split
      · simp [h]
      · rw [goes_next, State.touch_mem, State.orphan_mem]
        exact State.emitOuts_canon _ _ _ _ (State.clearPart_canon _ _ _ (by simp [side, took, outs, h]))

@[simp] theorem State.drainStore_goes (s : State) (u c : Nat) (h : Canon p s.mem) : Goes p (s.drainStore u c) := by
  unfold State.drainStore
  dsimp only
  repeat' split
  all_goals simp [h]

@[simp] theorem State.drainS2t_goes (s : State) (u c : Nat) (h : Canon p s.mem) : Goes p (s.drainS2t u c) := by
  unfold State.drainS2t
  repeat' split
  all_goals simp [h]

@[simp] theorem State.drainOut_goes (s : State) (u c : Nat) (h : Canon p s.mem) : Goes p (s.drainOut u c) := by
  unfold State.drainOut
  repeat' split
  all_goals simp [h]

@[simp] theorem execDrainBeat_goes (cell place : Nat) (s : State) (h : Canon p s.mem) : Goes p (execDrainBeat cell place s) := by
  unfold execDrainBeat
  dsimp only
  repeat' split
  all_goals simp [h]

@[simp] theorem execTokenFabricSettle_goes (u : Nat) (s : State) (h : Canon p s.mem) : Goes p (execTokenFabricSettle u s) := by
  unfold execTokenFabricSettle
  repeat' split
  all_goals simp [h]

@[simp] theorem State.emptyRegion_canon (s : State) (l : Launch) (h : Canon p s.mem) : Canon p (s.emptyRegion l).mem := by
  unfold State.emptyRegion
  refine State.foldl_canon _ (fun u c hu => ?_) _ _ h
  split
  · split
    · dsimp only
      split <;> simp -implicitDefEqProofs [hu]
    · exact hu
  · exact hu

@[simp] theorem execDrainComplete_goes (u : Nat) (s : State) (h : Canon p s.mem) : Goes p (execDrainComplete u s) := by
  unfold execDrainComplete
  repeat' split
  all_goals simp [h]

@[simp] theorem State.setSnap_canon (s : State) (die w v : Nat) (h : Canon p s.mem) : Canon p (s.setSnap die w v).mem := by
  simp [State.setSnap, h]

@[simp] theorem State.writeSnap_canon (s : State) (die w : Nat) (l : Launch) (limit : Nat) (held : Bool) (h : Canon p s.mem) :
    Canon p (s.writeSnap die w l limit held).mem := by
  unfold State.writeSnap
  exact Canon.fold ((((((h.memClear _ _).memWrite _ _ _).memWrite _ _ _).memWrite _ _ _).memWrite _ _ _).memWrite _ _ _) _ _ fun _ _ hm => hm.memWrite _ _ _

@[simp] theorem execQwcDetect_goes (u : Nat) (s : State) (h : Canon p s.mem) : Goes p (execQwcDetect u s) := by
  unfold execQwcDetect
  dsimp only
  split
  · simp [h]
  · split
    · simp [h]
    · split
      · split <;> simp -implicitDefEqProofs [h]
      · simp [h]

@[simp] theorem State.unhold_canon (s : State) (die w u : Nat) (h : Canon p s.mem) : Canon p (s.unhold die w u).mem := by
  simp [State.unhold, h]

@[simp] theorem State.snapAct_canon (s : State) (die w action : Nat) (h : Canon p s.mem) : Canon p (s.snapAct die w action).mem := by
  unfold State.snapAct
  repeat' split
  all_goals simp [h]

@[simp] theorem State.snapFree_canon (s : State) (die w : Nat) (h : Canon p s.mem) : Canon p (s.snapFree die w).mem := by
  simp [State.snapFree, h]

@[simp] theorem execSnapshotFree_goes (die w : Nat) (s : State) (h : Canon p s.mem) : Goes p (execSnapshotFree die w s) := by
  unfold execSnapshotFree
  repeat' split
  all_goals simp [h]

@[simp] theorem execWatchdog_goes (u : Nat) (s : State) (h : Canon p s.mem) : Goes p (execWatchdog u s) := by
  unfold execWatchdog
  dsimp only
  repeat' split
  all_goals simp [h]

/-! Operations that write the memory, and instructions: Sys2Proof/Machine/Placing.lean -/

@[simp] theorem execUnitStart_goes (u : Nat) (s : State) (h : Canon p s.mem) : Goes p (execUnitStart u s) := by
  unfold execUnitStart
  dsimp only
  repeat' split
  all_goals simp -implicitDefEqProofs [h]

/-! Operations that write the memory, and instructions: Sys2Proof/Machine/Preempt.lean -/

@[simp] theorem execVictimChosen_goes (u : Nat) (s : State) (h : Canon p s.mem) : Goes p (execVictimChosen u s) := by
  unfold execVictimChosen
  repeat' split
  all_goals simp [h]

@[simp] theorem execPreemptStop_goes (u : Nat) (s : State) (h : Canon p s.mem) : Goes p (execPreemptStop u s) := by
  unfold execPreemptStop
  repeat' split
  all_goals simp [h]

@[simp] theorem execStreamSuspend_goes (tile port : Nat) (s : State) (h : Canon p s.mem) : Goes p (execStreamSuspend tile port s) := by
  unfold execStreamSuspend
  dsimp only
  repeat' split
  all_goals simp [h]

@[simp] theorem State.areaCopy_canon (s : State) (l : Launch) (k : Kept) (out : Bool) (h : Canon p s.mem) : Canon p (s.areaCopy l k out).mem :=
  State.foldl_canon _ (fun u e hu => by
    repeat' split
    all_goals simp [hu]) _ _ h

@[simp] theorem State.writeRanges_canon (s : State) (l : Launch) (v : Saved) (h : Canon p s.mem) : Canon p (s.writeRanges l v).mem := by
  unfold State.writeRanges
  refine State.foldl_canon _ (fun u x hu => ?_) _ _ (State.foldl_canon _ (fun u x hu => by simp [hu]) _ _ h)
  repeat' split
  all_goals simp [hu]

@[simp] theorem State.withdraw_canon (s : State) (u lead : Nat) (h : Canon p s.mem) : Canon p (s.withdraw u lead).mem :=
  State.foldl_canon _ (fun _ _ hu => State.foldl_canon _ (fun _ _ hw => by simp [hw]) _ _ hu) _ _ h

@[simp] theorem execPreemptSave_goes (u : Nat) (s : State) (h : Canon p s.mem) : Goes p (execPreemptSave u s) := by
  unfold execPreemptSave
  split
  · simp [h]
  · next l _ =>
    split
    · simp [h]
    · extract_lets lead n s1 v s2 s3 s4 s5
      have h3 : Canon p s3.mem := State.foldl_canon _ (fun w t hw => w.returnPrefetch_canon t hw) _ _ (by
        rw [State.freezeToks_mem]
        exact State.withdraw_canon _ _ _ (by simp [s1, n, h]))
      have h5 : Canon p s5.mem := by simpa [s5, s4] using h3
      split <;> simp [h5]

@[simp] theorem State.saveLocal_canon (s : State) (u : Nat) (l : Launch) (v : Saved) (h : Canon p s.mem) : Canon p (s.saveLocal u l v).mem := by
  unfold State.saveLocal
  dsimp only
  split
  · simp [h]
  · rw [State.modLaunch_mem]
    exact State.foldl_canon _ (fun u k hu => u.areaCopy_canon _ _ _ hu) _ _ h

@[simp] theorem State.freeTiles_canon (s : State) (u : Nat) (l : Launch) (h : Canon p s.mem) : Canon p (s.freeTiles u l).mem := by
  unfold State.freeTiles
  refine State.foldl_canon _ (fun v t hv => ?_) _ _ h
  dsimp only
  rw [State.modTile_mem, State.foldl_mem]
  · simp [hv]
  · intro w c
    split <;> simp

@[simp] theorem execPreemptSaved_goes (u : Nat) (s : State) (h : Canon p s.mem) : Goes p (execPreemptSaved u s) := by
  unfold execPreemptSaved
  split
  · simp [h]
  · split
    · split
      · split
        · simp [h]
        · simp [h]
        · next heq => simp [State.pushPlane_mem heq, h]
      · split
        · simp [h]
        · simp -implicitDefEqProofs [h]
    · simp [h]

@[simp] theorem State.zeroUsed_canon (s : State) (l : Launch) (h : Canon p s.mem) : Canon p (s.zeroUsed l).mem :=
  h.fold _ _ fun _ _ hm => hm.memClear _ _

@[simp] theorem execPreemptRestore_goes (u : Nat) (s : State) (h : Canon p s.mem) : Goes p (execPreemptRestore u s) := by
  unfold execPreemptRestore
  split
  · simp [h]
  · split
    · extract_lets n lead back v t1 t2 t3 ks
      have h1 : Canon p t1.mem := by
        unfold t1
        rw [State.foldl_mem _ (fun s t => by simp)]
        simp [back, h]
      have h3 : Canon p t3.mem := State.foldl_canon _ (fun w c hw => by simp [hw]) _ _ (by simpa [t2] using h1)
      split
      · simp [h3]
      · rw [goes_next, State.foldl_mem _ (fun s e => by simp), State.foldl_mem _ (fun s e => by simp)]
        exact State.foldl_canon _ (fun w k hw => by simp [hw]) _ _ (by simp [h3])
    · simp [h]

@[simp] theorem execPreemptResumed_goes (u : Nat) (s : State) (h : Canon p s.mem) : Goes p (execPreemptResumed u s) := by
  unfold execPreemptResumed
  split
  · simp [h]
  · split
    · split
      · split
        · simp [h]
        · next heq => simp [State.popPlane_mem heq, h]
      · dsimp only
        split <;> simp [h, State.foldl_mem]
    · simp [h]

@[simp] theorem State.freezeUnit_canon (s : State) (v tile : Nat) (h : Canon p s.mem) : Canon p (s.freezeUnit v tile).mem := by
  simp [State.freezeUnit, h]

@[simp] theorem execServiceStart_goes (die : Nat) (s : State) (h : Canon p s.mem) : Goes p (execServiceStart die s) := by
  unfold execServiceStart
  dsimp only
  repeat' split
  all_goals simp [h]

@[simp] theorem State.thawVictim_canon (s : State) (v tile : Nat) (h : Canon p s.mem) : Canon p (s.thawVictim v tile).mem := by
  unfold State.thawVictim
  split
  · exact h
  · dsimp only
    rw [State.foldl_mem]
    · split <;> simp -implicitDefEqProofs [h]
    · intro w c
      split <;> simp

@[simp] theorem State.endService_canon (s : State) (u : Nat) (l : Launch) (h : Canon p s.mem) : Canon p (s.endService u l).mem := by
  unfold State.endService
  extract_lets tile s1 s2 s3
  have h1 : Canon p s1.mem := by
    unfold s1
    rw [State.setLaunch_mem]
    exact State.foldl_canon _ (fun w x hw => by simp [hw]) _ _ h
  have h2 : Canon p s2.mem := by
    unfold s2
    rw [State.foldl_mem _ (fun w c => by split <;> simp)]
    exact h1
  have h3 : Canon p s3.mem := by
    unfold s3
    split <;> simp [h2]
  rw [State.foldl_mem _ (fun w d => by split <;> simp)]
  exact h3

/-! Operations that write the memory, and instructions: Sys2Proof/Machine/Ending.lean -/

@[simp] theorem State.closeLaunch_canon (s : State) (u : Nat) (l : Launch) (h : Canon p s.mem) : Canon p (s.closeLaunch u l).mem := by
  unfold State.closeLaunch
  dsimp only
  split <;> simp -implicitDefEqProofs [h]

@[simp] theorem State.completeLaunch_canon (s : State) (u : Nat) (l : Launch) (h : Canon p s.mem) : Canon p (s.completeLaunch u l).mem := by
  unfold State.completeLaunch
  split <;> simp [h]

/-- The state with which the writing of a Colophon goes on. -/
def ColRes.state : ColRes → State
  | .done s | .sent s | .wait s => s

@[simp] theorem State.writeColophon_canon (s : State) (u : Nat) (l : Launch) (h : Canon p s.mem) : Canon p (s.writeColophon u l).state.mem := by
  unfold State.writeColophon
  dsimp only
  repeat' split
  all_goals simp -implicitDefEqProofs [ColRes.state, h]

@[simp] theorem execLaunchComplete_goes (u : Nat) (s : State) (h : Canon p s.mem) : Goes p (execLaunchComplete u s) := by
  unfold execLaunchComplete
  split
  · simp [h]
  · next l _ =>
    split
    · simp [h]
    · split
      · simp [h]
      · split
        · split <;> simp [h]
        · split
          · split <;> simp [h]
          · dsimp only
            split
            · simp [h]
            · have hc := State.writeColophon_canon (p := p) ((s.dropLevels u).releaseAll u l).2 u { l with levels := [] } (by simp [h])
              split <;> next heq => rw [heq] at hc; simp only [ColRes.state] at hc; simp [hc]

@[simp] theorem execEnergyClassDrop_goes (u : Nat) (s : State) (h : Canon p s.mem) : Goes p (execEnergyClassDrop u s) := by
  unfold execEnergyClassDrop
  repeat' split
  all_goals simp [h]

@[simp] theorem execWorkCreate_goes (die : Nat) (s : State) (h : Canon p s.mem) : Goes p (execWorkCreate die s) := by
  unfold execWorkCreate
  dsimp only
  repeat' split
  all_goals simp [h]

@[simp] theorem execWorkSeal_goes (die : Nat) (s : State) (h : Canon p s.mem) : Goes p (execWorkSeal die s) := by
  unfold execWorkSeal
  dsimp only
  repeat' split
  all_goals simp [h]

@[simp] theorem execWorkFree_goes (die : Nat) (s : State) (h : Canon p s.mem) : Goes p (execWorkFree die s) := by
  unfold execWorkFree
  dsimp only
  repeat' split
  all_goals simp [h]

@[simp] theorem execWorkComplete_goes (k : Nat) (s : State) (h : Canon p s.mem) : Goes p (execWorkComplete k s) := by
  unfold execWorkComplete
  dsimp only
  repeat' split
  all_goals simp [h]

theorem State.cancel_goes (s : State) (die op : Nat) (named : Bool) (concerned : List Nat) {go : State → State} (h : Canon p s.mem)
    (hgo : Canon p (go s).mem) : Goes p (s.cancel die op named concerned go) := by
  unfold State.cancel
  split
  · simp [h]
  · split
    · simp [h]
    · split <;> split <;> simp [h, hgo]

@[simp] theorem execCancelLaunch_goes (die : Nat) (s : State) (h : Canon p s.mem) : Goes p (execCancelLaunch die s) := by
  unfold execCancelLaunch
  refine s.cancel_goes _ _ _ _ h ?_
  rw [State.foldl_mem _ (fun s u => s.cancelLaunch_mem u)]
  exact h

@[simp] theorem execCancelGraph_goes (die : Nat) (s : State) (h : Canon p s.mem) : Goes p (execCancelGraph die s) := by
  unfold execCancelGraph
  exact s.cancel_goes _ _ _ _ h (by simp [h])

@[simp] theorem execCancelPhase_goes (die : Nat) (s : State) (h : Canon p s.mem) : Goes p (execCancelPhase die s) := by
  unfold execCancelPhase
  exact s.cancel_goes _ _ _ _ h (by simp [h])

@[simp] theorem execCancelJob_goes (die : Nat) (s : State) (h : Canon p s.mem) : Goes p (execCancelJob die s) := by
  unfold execCancelJob
  refine s.cancel_goes _ _ _ _ h ?_
  rw [State.foldl_mem _ (fun s u => s.cancelLaunch_mem u), State.foldl_mem _ (fun s x => s.cancelPhase_mem _ x)]
  exact h

/-! Operations that write the memory, and instructions: Sys2Proof/Machine/Actors.lean -/

@[simp] theorem State.loadActor_canon (s : State) (u : Nat) (a : Actor) (t : Nat) (h : Canon p s.mem) : Canon p (s.loadActor u a t).mem := by
  simp [State.loadActor, h]

@[simp] theorem State.writeHeader_canon (s : State) (a : Actor) (i n : Nat) (h : Canon p s.mem) : Canon p (s.writeHeader a i n).mem := by
  unfold State.writeHeader
  extract_lets o m1 m2
  have h1 : Canon p m1 := h.fold _ _ fun _ _ hm => hm.memWrite _ _ _
  dsimp only
  exact (((h1.memWrite _ _ _).memWrite _ _ _).memWrite _ _ _).memWrite _ _ _

@[simp] theorem State.grantFirst_canon (s : State) (u : Nat) (a : Actor) (ts : List Nat) (h : Canon p s.mem) : Canon p (s.grantFirst u a ts).mem := by
  unfold State.grantFirst
  rw [State.modLaunch_mem]
  refine State.foldl_canon _ (fun w i hw => w.writeHeader_canon _ _ _ hw) _ _ ?_
  rw [State.foldl_mem _ (fun w i => w.writePeers_mem _ _ _)]
  exact State.foldl_canon _ (fun w t hw => by simp [hw]) _ _ h

@[simp] theorem State.register_canon (s : State) (u : Nat) (l : Launch) (va : Nat) (h : Canon p s.mem) : Canon p (s.register u l va).mem := by
  unfold State.register
  dsimp only
  split
  · simp [h]
  · split
    · simp [h]
    · repeat' split
      all_goals simp [h]

@[simp] theorem execActorRegister_goes (die : Nat) (s : State) (h : Canon p s.mem) : Goes p (execActorRegister die s) := by
  unfold execActorRegister
  dsimp only
  split
  · simp [h]
  · split
    · split <;> simp -implicitDefEqProofs [h]
    · simp [h]

@[simp] theorem State.beginGrant_canon (s : State) (u : Nat) (l : Launch) (a : Actor) (h : Canon p s.mem) : Canon p (s.beginGrant u l a).mem := by
  unfold State.beginGrant
  repeat' split
  all_goals simp [h]

theorem State.nextHeader_canon {s t : State} {u : Nat} {a : Actor} {n : Nat} {last : Actor → Actor} (h : Canon p s.mem)
    (he : s.nextHeader u a n last = some t) : Canon p t.mem := by
  revert he
  unfold State.nextHeader
  split
  · rintro ⟨⟩
  · split <;> rintro ⟨⟩
    simp [h]

@[simp] theorem execActorGrant_goes (u : Nat) (s : State) (h : Canon p s.mem) : Goes p (execActorGrant u s) := by
  unfold execActorGrant
  split
  · simp [h]
  · split
    · simp [h]
    · split
      · split
        · next heq => split <;> simp [State.nextHeader_canon h heq]
        · simp [h]
      · split <;> simp [h]

@[simp] theorem execActorShrink_goes (u : Nat) (s : State) (h : Canon p s.mem) : Goes p (execActorShrink u s) := by
  unfold execActorShrink
  split
  · simp [h]
  · split
    · split
      · next heq => simp [State.nextHeader_canon h heq]
      · simp [h]
    · split <;> simp [h]

@[simp] theorem execShrinkRelease_goes (u : Nat) (s : State) (h : Canon p s.mem) : Goes p (execShrinkRelease u s) := by
  unfold execShrinkRelease
  dsimp only
  split
  · simp [h]
  · split <;> simp [h]

@[simp] theorem execQueueBind_goes (die : Nat) (s : State) (h : Canon p s.mem) : Goes p (execQueueBind die s) := by
  unfold execQueueBind
  repeat' split
  all_goals simp [h]

@[simp] theorem execQueueUnbind_goes (die : Nat) (s : State) (h : Canon p s.mem) : Goes p (execQueueUnbind die s) := by
  unfold execQueueUnbind
  repeat' split
  all_goals simp [h]

theorem State.takeNext_canon {s t : State} {die : Nat} (h : Canon p s.mem) (he : s.takeNext die = some t) : Canon p t.mem := by
  revert he
  unfold State.takeNext
  split
  · rintro ⟨⟩
  · dsimp only
    split
    · rintro ⟨⟩
    · split <;> rintro ⟨⟩
      simp -implicitDefEqProofs [h]

@[simp] theorem execUnitPlace_goes (die : Nat) (s : State) (h : Canon p s.mem) : Goes p (execUnitPlace die s) := by
  unfold execUnitPlace
  split
  · simp [h]
  · split
    · next heq => simp [State.takeNext_canon h heq]
    · repeat' split
      all_goals simp [h]

@[simp] theorem execActorRecordMove_goes (die : Nat) (s : State) (h : Canon p s.mem) : Goes p (execActorRecordMove die s) := by
  unfold execActorRecordMove
  dsimp only
  repeat' split
  all_goals simp [h]

/-! Operations that write the memory, and instructions: Sys2Proof/Machine/Hosts.lean -/

@[simp] theorem execIrqRaise_goes (die : Nat) (s : State) (h : Canon p s.mem) : Goes p (execIrqRaise die s) := by
  unfold execIrqRaise
  dsimp only
  repeat' split
  all_goals simp [h]

@[simp] theorem State.moduleWrite_canon (s : State) (off v m : Nat) (h : Canon p s.mem) : Canon p (s.moduleWrite off v m).mem := by
  unfold State.moduleWrite
  repeat' split
  all_goals simp [h]

@[simp] theorem State.snapWrite_canon (s : State) (die w v : Nat) (h : Canon p s.mem) : Canon p (s.snapWrite die w v).mem := by
  unfold State.snapWrite
  repeat' split
  all_goals simp [h]

@[simp] theorem State.bar0Put_canon (s : State) (port off n v : Nat) (h : Canon p s.mem) : Canon p (s.bar0Put port off n v).mem := by
  unfold State.bar0Put
  dsimp only
  repeat' split
  all_goals simp [h]

theorem State.hostAt_goes (s : State) (port flat kind : Nat) {perform : State → Out} (h : Canon p s.mem) (hp : ∀ u, Canon p u.mem → Goes p (perform u)) :
    Goes p (s.hostAt port flat kind perform) := by
  unfold State.hostAt
  split
  · simp [h]
  · simp [h]
  · split <;> exact hp _ (by simp [h])

@[simp] theorem execHostRead_goes (port bar off n : Nat) (s : State) (h : Canon p s.mem) : Goes p (execHostRead port bar off n s) := by
  unfold execHostRead
  split
  · simp [h]
  · split
    · simp [h]
    · split
      · simp [h]
      · split
        · simp [h]
        · split
          · split
            · exact execLaunchWindowReserve_goes _ _ _ h
            · simp [h]
          · split
            · simp [h]
            · split
              · simp [h]
              · exact s.hostAt_goes _ _ _ h fun u hu => by simp [hu]

@[simp] theorem State.hostStore_goes (s : State) (port : Nat) (t : Target) (n v : Nat) (h : Canon p s.mem) : Goes p (s.hostStore port t n v) := by
  unfold State.hostStore
  dsimp only
  repeat' split
  all_goals simp [h]

@[simp] theorem State.bar0Write_canon (port fuel off n v : Nat) (s : State) (h : Canon p s.mem) : Canon p (State.bar0Write port fuel off n v s).mem := by
  induction fuel generalizing off n v s with
  | zero => exact h
  | succ fuel ih =>
    unfold State.bar0Write
    split
    · exact h
    · exact ih _ _ _ _ (by simp [h])

@[simp] theorem execHostWrite_goes (port bar off n : Nat) (data : BitVec 512) (s : State) (h : Canon p s.mem) : Goes p (execHostWrite port bar off n data s) := by
  unfold execHostWrite
  split
  · simp [h]
  · split
    · simp [h]
    · split
      · simp [h]
      · split
        · simp [h]
        · split
          · exact execLaunchWindowAdd_goes _ _ _ _ _ h
          · split
            · simp [h]
            · split
              · simp [h]
              · exact s.hostAt_goes _ _ _ h fun u hu => by simp [hu]

@[simp] theorem State.hostSync_goes (s : State) (port : Nat) (t : Target) (n op : Nat) (a b : Word) (h : Canon p s.mem) : Goes p (s.hostSync port t n op a b) := by
  unfold State.hostSync
  dsimp only
  repeat' split
  all_goals simp [h]

@[simp] theorem State.hostAtomic_goes (s : State) (port off n op : Nat) (a b : Word) (h : Canon p s.mem) : Goes p (s.hostAtomic port off n op a b) := by
  unfold State.hostAtomic
  split
  · simp [h]
  · split
    · simp [h]
    · split
      · simp [h]
      · split
        · simp [h]
        · split
          · simp [h]
          · exact s.hostAt_goes _ _ _ h fun u hu => by simp [hu]

@[simp] theorem State.hostUnsupported_goes (s : State) (h : Canon p s.mem) : Goes p (s.hostUnsupported) := by
  simp [State.hostUnsupported, h]

@[simp] theorem execHostFetchadd_goes (port off n : Nat) (v : BitVec 64) (s : State) (h : Canon p s.mem) : Goes p (execHostFetchadd port off n v s) := by
  unfold execHostFetchadd
  repeat' split
  all_goals simp [h]

@[simp] theorem execHostSwap_goes (port off n : Nat) (v : BitVec 64) (s : State) (h : Canon p s.mem) : Goes p (execHostSwap port off n v s) := by
  unfold execHostSwap
  repeat' split
  all_goals simp [h]

@[simp] theorem execHostCas_goes (port off n : Nat) (cmp v : BitVec 64) (s : State) (h : Canon p s.mem) : Goes p (execHostCas port off n cmp v s) := by
  unfold execHostCas
  repeat' split
  all_goals simp [h]

@[simp] theorem execType1Completion_goes (k : Nat) (ok : Bool) (data : BitVec 512) (s : State) (h : Canon p s.mem) : Goes p (execType1Completion k ok data s) := by
  unfold execType1Completion
  repeat' split
  all_goals simp [h]

@[simp] theorem execHostCompletionTimeout_goes (k : Nat) (s : State) (h : Canon p s.mem) : Goes p (execHostCompletionTimeout k s) := by
  unfold execHostCompletionTimeout
  repeat' split
  all_goals simp [h]

@[simp] theorem State.peerIn_goes (s : State) (x : PeerPacket) (h : Canon p s.mem) : Goes p (s.peerIn x) := by
  unfold State.peerIn
  split
  · simp [h]
  · split
    · simp [h]
    · exact s.hostAt_goes _ _ _ h fun u hu => by simp [hu]

@[simp] theorem execPeerWrite_goes (k : Nat) (granted : Bool) (s : State) (h : Canon p s.mem) : Goes p (execPeerWrite k granted s) := by
  unfold execPeerWrite
  repeat' split
  all_goals simp [h]

@[simp] theorem execPeerAck_goes (k : Nat) (s : State) (h : Canon p s.mem) : Goes p (execPeerAck k s) := by
  unfold execPeerAck
  repeat' split
  all_goals simp [h]

@[simp] theorem execLinkXPortDown_goes (port : Nat) (up : Bool) (s : State) (h : Canon p s.mem) : Goes p (execLinkXPortDown port up s) := by
  unfold execLinkXPortDown
  repeat' split
  all_goals simp [h]

@[simp] theorem execAttest_goes (s : State) (h : Canon p s.mem) : Goes p (execAttest s) := by
  unfold execAttest
  extract_lets m
  have hm : Canon p m := h.fold _ _ fun _ _ hm => hm.memWrite _ _ _
  split
  · simp [h]
  · rw [goes_next, State.setMreg_mem]
    dsimp only
    exact hm.memWrite _ _ _

/-! Operations that write the memory, and instructions: Sys2Proof/Machine/Resets.lean -/

@[simp] theorem execColdReset_goes (s : State) (_ : Canon p s.mem) : Goes p (execColdReset s) := by
  unfold execColdReset State.cold
  rw [goes_next, State.startSteps_mem]
  exact fun _ => rfl

@[simp] theorem State.warm_canon (s : State) (h : Canon p s.mem) : Canon p (s.warm).mem := by
  simp [State.warm, h]

@[simp] theorem execPortLinkReset_goes (port : Nat) (s : State) (h : Canon p s.mem) : Goes p (execPortLinkReset port s) := by
  unfold execPortLinkReset
  repeat' split
  all_goals simp [h]

@[simp] theorem execPowerLimit_goes (die : Nat) (above : Bool) (s : State) (h : Canon p s.mem) : Goes p (execPowerLimit die above s) := by
  unfold execPowerLimit
  repeat' split
  all_goals simp [h]

@[simp] theorem execThermalStop_goes (die : Nat) (s : State) (h : Canon p s.mem) : Goes p (execThermalStop die s) := by
  unfold execThermalStop
  repeat' split
  all_goals simp [h]

@[simp] theorem execManagementStop_goes (die : Nat) (s : State) (h : Canon p s.mem) : Goes p (execManagementStop die s) := by
  unfold execManagementStop
  repeat' split
  all_goals simp [h]

/-! Operations that write the memory, and instructions: Sys2Proof/Machine/Step.lean -/

@[simp] theorem State.withFetchWord_canon (s : State) (nbits w : Nat) (h : Canon p s.mem) : Canon p (s.withFetchWord nbits w).mem := by
  simp [State.withFetchWord, h]

/-! Every instruction, and the step -/

/-- Every instruction goes on. -/
theorem exec_goes (i : Instr) (s : State) (h : Canon p s.mem) : Goes p (exec i s) := by
  cases i
  all_goals
    dsimp only [exec]
    simp [h, execAdd, execSub, execMul, execAnd, execOr, execXor, execShl, execShr, execSra, execMin, execMax, execAddi, execAndi, execOri,
      execXori, execShli, execShri, execSrai, execLi, execLui, execCeq, execCne, execClt, execCltu, execCeqi, execClti, execCltui,
      execLd8, execLd16, execLd32, execLd64, execLds8, execLds16, execLds32, execSt8, execSt16, execSt32, execSt64, execNget,
      execPatSt, execBeq, execBne, execBlt, execBge, execBltu, execBgeu, execJal, execJalr, execStrmIn, execStrmOut, execStrmGath,
      execStrmScat, execStrmFill, execStrmCopy, execStrmKvc, execStrmXch, execQfence, execQfenceR, execLclkRd, execNop, execTrap,
      execEvt, execHAdd, execHSub, execHMul, execHMulh, execHMulhu, execHMin, execHMax, execHMinu, execHMaxu, execHAbs, execHNeg,
      execHPopc, execHClz, execHCtz, execHAnd, execHOr, execHXor, execHAndn, execHShl, execHShr, execHSra, execHCeq, execHCne,
      execHClt, execHCltu, execHCle, execHCleu, execHAddi, execHAndi, execHOri, execHXori, execHShli, execHShri, execHSrai,
      execHCeqi, execHClti, execHCltui, execHBfx, execHBfxu, execHBfi, execHAddl, execHFadd, execHFsub, execHFmul, execHFma,
      execHFmin, execHFmax, execHFabs, execHFneg, execHFceq, execHFclt, execHFcle, execHFcvt, execHFrcp, execHFsqrt, execHFexp2,
      execHIcvtf, execHFcvti, execHFdot, execHLdl8, execHLdl16, execHLdl32, execHLdl64, execHStl8, execHStl16, execHStl32,
      execHStl64, execHLdg8, execHLdg16, execHLdg32, execHLdg64, execHStg8, execHStg16, execHStg32, execHStg64, execHEmit,
      execHEmitp, execHBoxt8Any, execHBoxt8Closest, execHTritAny, execHTritClosest, execHSamptTu, execHSamptV, execCmdAdd,
      execCmdSub, execCmdAnd, execCmdOr, execCmdXor, execCmdMin, execCmdMax, execCmdMinu, execCmdMaxu, execCmdXchg, execCmdCas,
      execCmdFadd, execCmdH2addSr, execCmdRedAdd, execCmdRedSub, execCmdRedAnd, execCmdRedOr, execCmdRedXor, execCmdRedMin,
      execCmdRedMax, execCmdRedMinu, execCmdRedMaxu, execCmdRedFadd, execCmdRedH2addSr, execStageUnpk3, execStageUnpk4,
      execStageLut8, execStageShuf, execStageBcast, execStageUnpkq, execStageMul, execStageMulk, execStageFmul, execStageFmulk,
      execStageAdd, execStageAddk, execStageFadd, execStageFaddk, execStageAcc, execStageFacc, execStageRsum, execStageRmax,
      execStageFrsum, execStageFrmax, execStageShl, execStageShr, execStageSra, execStageRshr, execStageCmpeq, execStageCmplt,
      execStageFcmplt, execStageClamp, execStageFclamp, execStageRelu, execStageLrelu, execStageExp2, execStageRcp,
      execStageRsqrt, execStageSigm, execStageSat, execFlitHop, execCvstWrite, execSnapshotResume, execSnapshotDrain,
      execSnapshotFault, execWarmReset]

theorem Goes.advance {o : Out} (h : Goes p o) : Goes p (advance o) := by
  obtain ⟨t, rfl, ht⟩ := h
  exact (goes_next _).2 ht

theorem State.fetchStep_mem {s u : State} (h : s.fetchStep.state? = some u) : u.mem = s.mem := by
  revert h
  unfold State.fetchStep
  split
  · rintro ⟨⟩; rfl
  · split
    · rintro ⟨⟩; rfl
    · exact State.reach_mem

theorem stepSeq_goes (s : State) (t : Nat) (h : Canon p s.mem) : Goes p (stepSeq s t) := by
  unfold stepSeq
  split
  · have ht : Canon p { s with tile := t }.mem := h
    dsimp only
    split
    · exact State.trap_goes _ _ ht
    · split
      · exact State.trapWith_goes _ _ _ ht
      · next heq => exact (goes_next _).2 ((State.fetchStep_mem (congrArg TRes.state? heq)).symm ▸ ht)
      · next heq =>
        have hu := (State.fetchStep_mem (congrArg TRes.state? heq)).symm ▸ ht
        split
        · exact exec_goes _ _ hu
        · exact State.trap_goes _ _ hu
  · simp [h]

theorem stepHandler_goes (s : State) (c : Nat) (h : Canon p s.mem) : Goes p (stepHandler s c) := by
  unfold stepHandler
  split
  · have hc : Canon p { s with cell := c }.mem := h
    dsimp only
    split
    · exact State.trapBlock_goes _ _ _ hc
    · split
      · split
        · exact exec_goes _ _ hc
        · exact State.trapBlock_goes _ _ _ hc
      · exact State.trapBlock_goes _ _ _ hc
  · simp [h]

theorem stepEvent_goes (s : State) (h : Canon p s.mem) : Goes p (stepEvent s) := by
  unfold stepEvent
  dsimp only
  split
  · simp [h]
  · exact exec_goes _ _ h

/-- A step goes on, whichever agent acts, and keeps the memory's canonical form. -/
theorem step_goes (s : State) (h : Canon p s.mem) : Goes p (step s) := by
  unfold step
  split
  · exact Goes.advance (by simp [h])
  · exact Goes.advance (by simp [h])
  · exact (stepSeq_goes _ _ h).advance
  · exact (stepHandler_goes _ _ h).advance
  · exact (stepEvent_goes _ h).advance
  · exact Goes.advance (by simp [h])

end Sys2Proof.Machine

namespace Sys2Proof.Claims
open Sys2Proof.Machine

/-- Settles O60: every instruction, and every other act of a step, goes on and writes memory only through operations that keep its
canonical form. -/
theorem stepKeepsMemoryForm : Obligations.StepKeepsMemoryForm := by
  unfold Obligations.StepKeepsMemoryForm
  intro s
  exact step_goes (p := Inv s) s id
end Sys2Proof.Claims

namespace Sys2Proof.Claims

open Sys2Proof.Machine

/-! What a step of the lead sequencer changes: its tile and the activity mark of its launch (R167) -/

theorem launch?_touch (s : State) (u v : Nat) :
    (s.touch u).launch? v = (s.launch? v).map fun l => if v = u then { l with active := true } else l := by
  unfold State.touch
  by_cases h : v = u
  · subst h; simp
  · rw [State.launch?_modLaunch_of_ne s _ h]
    cases s.launch? v <;> simp [h]

theorem unitNo_modCur (s : State) {f : Tile → Tile} (h : (f s.cur).owner = s.cur.owner) : (s.modCur f).unitNo = s.unitNo := by
  simp [State.unitNo, h]

/-- A step that issues and then changes its tile has changed nothing else. -/
theorem onlySeq_issued (s : State) (g : Tile → Tile) : OnlySeq s (s.issued.modCur g) := by
  refine ⟨?_, ?_, ?_, ?_, ?_, ?_, ?_, ?_, ?_, ?_, ?_, ?_, ?_, ?_, ?_, ?_, fun k hk => ?_, fun u => ?_⟩
  case refine_17 => simp [State.issued, hk]
  case refine_18 => exact launch?_touch (s.modCur _) s.unitNo u
  all_goals simp

/-- What a step changed of its own tile before it issued is no more than what a step may change. -/
theorem OnlySeq.of_modCur {s t : State} {f : Tile → Tile} (h : OnlySeq (s.modCur f) t) (howner : (f s.cur).owner = s.cur.owner) :
    OnlySeq s t := by
  obtain ⟨htile, hclk, heighths, hmem, hcells, hdies, hhome, hmsgs, hnet, hflows, hfolios, hwork, hreb, hrebs, hmod, htick, htiles, hlaunch⟩ := h
  rw [unitNo_modCur s howner] at hlaunch
  exact ⟨htile, hclk, heighths, hmem, hcells, hdies, hhome, hmsgs, hnet, hflows, hfolios, hwork, hreb, hrebs, hmod, htick,
    fun k hk => (htiles k hk).trans (by simp [show k ≠ s.tile from hk]), hlaunch⟩

theorem onlySeq_nextStep (s : State) : OnlySeq s s.nextStep := onlySeq_issued s _

theorem onlySeq_jump (s : State) (a : Word) : OnlySeq s (s.jump a) := onlySeq_issued s _

@[simp] theorem cur_jump (s : State) (a : Word) :
    (s.jump a).cur = { s.cur with wait := none, reply := none, phase := 0, ld := LoadSt.empty, spc := a } := by
  simp [State.jump]

theorem OnlySeq.of_wa {s t : State} {d : BitVec 4} {v : Word} (h : OnlySeq (s.wa d v) t) : OnlySeq s t := h.of_modCur rfl

theorem ra_wa_same (s : State) (d : BitVec 4) (v : Word) : (s.wa d v).ra d = v := by simp [State.ra]

theorem ra_wa_of_ne (s : State) {d r : BitVec 4} (v : Word) (h : r ≠ d) : (s.wa d v).ra r = s.ra r := by simp [State.ra, h]

theorem writes_nextStep (s : State) (d : BitVec 4) (v : Word) : Writes s (s.wa d v).nextStep d v := by
  refine ⟨⟨(onlySeq_nextStep _).of_wa, ?_⟩, ?_, fun r hr => ?_⟩
  · simp [Tile.setReg]
  · exact (State.ra_nextStep _ _).trans (ra_wa_same s d v)
  · exact (State.ra_nextStep _ _).trans (ra_wa_of_ne s v hr)

theorem computes_of_finish {i : Instr} {d : BitVec 4} {v : State → Word} (h : ∀ s, exec i s = s.finish d (v s)) : Computes i d v :=
  fun s => ⟨_, h s, writes_nextStep s d (v s)⟩

/-! The scalar operations' values (R55) -/

theorem sx_eq (i : BitVec 40) : sx i = BitVec.ofInt 64 i.toInt := rfl

theorem zx_eq (i : BitVec 40) : zx i = BitVec.ofNat 64 i.toNat := by simp [zx]

theorem toInt_sx (i : BitVec 40) : (sx i).toInt = i.toInt := BitVec.toInt_signExtend_of_le (by decide)

theorem toNat_zx (i : BitVec 40) : (zx i).toNat = i.toNat := BitVec.toNat_setWidth_of_le (by decide)

theorem flag_eq (b : Bool) (p : Prop) [Decidable p] (h : b = true ↔ p) : flag b = one? p := by simp [flag, one?, h]

theorem rrr_of_finish {mk : BitVec 4 → BitVec 4 → BitVec 4 → Instr} {f g : Word → Word → Word}
    (h : ∀ d a b s, exec (mk d a b) s = s.finish d (g (s.ra a) (s.ra b))) (hg : ∀ x y, g x y = f x y) : Rrr mk f :=
  fun d a b => computes_of_finish fun s => by rw [h, hg]

theorem rri_of_finish {mk : BitVec 4 → BitVec 4 → BitVec 40 → Instr} {f g : Word → BitVec 40 → Word}
    (h : ∀ d a i s, exec (mk d a i) s = s.finish d (g (s.ra a) i)) (hg : ∀ x i, g x i = f x i) : Rri mk f :=
  fun d a i => computes_of_finish fun s => by rw [h, hg]

theorem rrs_of_finish {mk : BitVec 4 → BitVec 4 → BitVec 6 → Instr} {f g : Word → BitVec 6 → Word}
    (h : ∀ d a i s, exec (mk d a i) s = s.finish d (g (s.ra a) i)) (hg : ∀ x i, g x i = f x i) : Rrs mk f :=
  fun d a i => computes_of_finish fun s => by rw [h, hg]

theorem sub_eq_ofInt (x y : Word) : x - y = BitVec.ofInt 64 ((x.toNat : Int) - y.toNat) := by
  rw [Int.sub_eq_add_neg, BitVec.ofInt_add, BitVec.ofInt_neg]
  simp [BitVec.sub_eq_add_neg]

theorem mul_eq_ofNat (x y : Word) : x * y = BitVec.ofNat 64 (x.toNat * y.toNat) := by
  apply BitVec.eq_of_toNat_eq
  simp

theorem shl_eq_ofNat (x : Word) (n : Nat) : x <<< n = BitVec.ofNat 64 (x.toNat * 2 ^ n) := by
  apply BitVec.eq_of_toNat_eq
  simp [Nat.shiftLeft_eq]

theorem shr_eq_ofNat (x : Word) (n : Nat) : x >>> n = BitVec.ofNat 64 (x.toNat / 2 ^ n) := by
  apply BitVec.eq_of_toNat_eq
  have := Nat.div_le_self x.toNat (2 ^ n)
  rw [BitVec.toNat_ushiftRight, Nat.shiftRight_eq_div_pow, BitVec.toNat_ofNat, Nat.mod_eq_of_lt (by omega)]

theorem sra_eq_ofInt (x : Word) (n : Nat) : x.sshiftRight n = BitVec.ofInt 64 (x.toInt / 2 ^ n) := by
  rw [BitVec.sshiftRight, Int.shiftRight_eq_div_pow]
  norm_cast

theorem addi_eq_ofInt (x : Word) (i : BitVec 40) : x + sx i = BitVec.ofInt 64 (x.toNat + i.toInt) := by
  rw [sx_eq, BitVec.ofInt_add]
  simp

theorem lui_eq_ofNat (i : BitVec 24) (x : Word) : i ++ x.extractLsb' 0 40 = BitVec.ofNat 64 (i.toNat * 2 ^ 40 + x.toNat % 2 ^ 40) := by
  apply BitVec.eq_of_toNat_eq
  have hx : (x.extractLsb' 0 40).toNat = x.toNat % 2 ^ 40 := by simp
  have := i.isLt
  rw [BitVec.toNat_append, hx, Nat.shiftLeft_eq, Nat.mul_comm, ← Nat.two_pow_add_eq_or_of_lt (Nat.mod_lt _ (by decide)), BitVec.toNat_ofNat]
  omega

theorem min_eq_ofInt (x y : Word) : (if x.slt y then x else y) = BitVec.ofInt 64 (min x.toInt y.toInt) := by
  rw [BitVec.slt_eq_decide]
  by_cases h : x.toInt < y.toInt
  · simp [h, min_eq_left h.le]
  · simp [h, min_eq_right (not_lt.mp h)]

theorem max_eq_ofInt (x y : Word) : (if x.slt y then y else x) = BitVec.ofInt 64 (max x.toInt y.toInt) := by
  rw [BitVec.slt_eq_decide]
  by_cases h : x.toInt < y.toInt
  · simp [h, max_eq_right h.le]
  · simp [h, max_eq_left (not_lt.mp h)]

/-! Words whose fields trap (R29 to R32) -/

theorem decodeSeq_seqWord_error {op : BitVec 8} {d s t x : BitVec 4} {imm : BitVec 40} {e : DecodeErr} (h : decodeSeqRaw (seqWord op d s t x imm) = .error e) :
    decodeSeq (seqWord op d s t x imm) = .error e := by rw [decodeSeq, h]; rfl

theorem high_ne_zero {n k : Nat} (hk : n + k = 40) {i : BitVec 40} (h : 2 ^ n ≤ i.toNat) : i.extractLsb' n k ≠ 0 := by
  intro h0
  have hlt : i.toNat / 2 ^ n < 2 ^ k := Nat.div_lt_of_lt_mul (by rw [← pow_add, hk]; exact i.isLt)
  have hz : i.toNat / 2 ^ n % 2 ^ k = 0 := by simpa [Nat.shiftRight_eq_div_pow] using congrArg BitVec.toNat h0
  rw [Nat.mod_eq_of_lt hlt, Nat.div_eq_zero_iff_lt (by positivity)] at hz
  omega

theorem li_reserved (d a : BitVec 4) (i : BitVec 40) (h : a ≠ 0) : decodeSeq (seqWord 0x1E d a 0 0 i) = .error .reservedField :=
  decodeSeq_seqWord_error (by simpa [decodeSeqRaw, okIf] using h)

theorem lui_reserved (d a : BitVec 4) (i : BitVec 40) (h : 2 ^ 24 ≤ i.toNat) : decodeSeq (seqWord 0x1F d a 0 0 i) = .error .reservedField :=
  decodeSeq_seqWord_error (by simpa [decodeSeqRaw, okIf] using high_ne_zero (k := 16) rfl h)

theorem shiftImm_reserved {op : BitVec 8} (hop : op = 0x17 ∨ op = 0x18 ∨ op = 0x19) (d a : BitVec 4) (i : BitVec 40) (h : 64 ≤ i.toNat) :
    decodeSeq (seqWord op d a 0 0 i) = .error .reservedField := by
  have hi := high_ne_zero (n := 6) (k := 34) rfl h
  rcases hop with rfl | rfl | rfl <;> exact decodeSeq_seqWord_error (by simpa [decodeSeqRaw, okIf] using hi)

/-- Settles O1: each operation is one register write followed by the next step, with the value of its two operands. -/
theorem scalarResults : Obligations.ScalarResults := by
  unfold Obligations.ScalarResults
  exact ⟨rrr_of_finish (g := (· + ·)) (fun _ _ _ _ => rfl) BitVec.add_def,
    rrr_of_finish (g := (· - ·)) (fun _ _ _ _ => rfl) sub_eq_ofInt,
    rrr_of_finish (g := (· * ·)) (fun _ _ _ _ => rfl) mul_eq_ofNat,
    rrr_of_finish (g := (· &&& ·)) (fun _ _ _ _ => rfl) fun _ _ => rfl,
    rrr_of_finish (g := (· ||| ·)) (fun _ _ _ _ => rfl) fun _ _ => rfl,
    rrr_of_finish (g := (· ^^^ ·)) (fun _ _ _ _ => rfl) fun _ _ => rfl,
    rrr_of_finish (g := fun x y => x <<< shAmt y) (fun _ _ _ _ => rfl) fun x _ => shl_eq_ofNat x _,
    rrr_of_finish (g := fun x y => x >>> shAmt y) (fun _ _ _ _ => rfl) fun x _ => shr_eq_ofNat x _,
    rrr_of_finish (g := fun x y => x.sshiftRight (shAmt y)) (fun _ _ _ _ => rfl) fun x _ => sra_eq_ofInt x _,
    rrr_of_finish (g := fun x y => if x.slt y then x else y) (fun _ _ _ _ => rfl) min_eq_ofInt,
    rrr_of_finish (g := fun x y => if x.slt y then y else x) (fun _ _ _ _ => rfl) max_eq_ofInt,
    rrr_of_finish (g := fun x y => flag (x == y)) (fun _ _ _ _ => rfl) fun _ _ => flag_eq _ _ beq_iff_eq,
    rrr_of_finish (g := fun x y => flag (x != y)) (fun _ _ _ _ => rfl) fun _ _ => flag_eq _ _ bne_iff_ne,
    rrr_of_finish (g := fun x y => flag (x.slt y)) (fun _ _ _ _ => rfl) fun _ _ => flag_eq _ _ BitVec.slt_iff_toInt_lt,
    rrr_of_finish (g := fun x y => flag (x.ult y)) (fun _ _ _ _ => rfl) fun _ _ => flag_eq _ _ BitVec.ult_iff_lt,
    rri_of_finish (g := fun x i => x + sx i) (fun _ _ _ _ => rfl) addi_eq_ofInt,
    rri_of_finish (g := fun x i => x &&& zx i) (fun _ _ _ _ => rfl) fun _ i => by rw [zx_eq],
    rri_of_finish (g := fun x i => x ||| zx i) (fun _ _ _ _ => rfl) fun _ i => by rw [zx_eq],
    rri_of_finish (g := fun x i => x ^^^ zx i) (fun _ _ _ _ => rfl) fun _ i => by rw [zx_eq],
    rri_of_finish (g := fun x i => flag (x == sx i)) (fun _ _ _ _ => rfl) fun _ _ => flag_eq _ _ beq_iff_eq,
    rri_of_finish (g := fun x i => flag (x.slt (sx i))) (fun _ _ _ _ => rfl) fun _ _ => flag_eq _ _ (by rw [BitVec.slt_iff_toInt_lt, toInt_sx]),
    rri_of_finish (g := fun x i => flag (x.ult (zx i))) (fun _ _ _ _ => rfl) fun _ _ => flag_eq _ _ (by rw [BitVec.ult_iff_lt, BitVec.lt_def, toNat_zx]),
    rrs_of_finish (g := fun x i => x <<< i.toNat) (fun _ _ _ _ => rfl) fun x _ => shl_eq_ofNat x _,
    rrs_of_finish (g := fun x i => x >>> i.toNat) (fun _ _ _ _ => rfl) fun x _ => shr_eq_ofNat x _,
    rrs_of_finish (g := fun x i => x.sshiftRight i.toNat) (fun _ _ _ _ => rfl) fun x _ => sra_eq_ofInt x _,
    fun _ _ => computes_of_finish fun _ => rfl,
    fun d a i => computes_of_finish (v := fun s => BitVec.ofNat 64 (i.toNat * 2 ^ 40 + (s.ra a).toNat % 2 ^ 40)) fun s =>
      congrArg (s.finish d) (lui_eq_ofNat i (s.ra a)),
    li_reserved, lui_reserved, fun d a i h =>
      ⟨shiftImm_reserved (by simp) d a i h, shiftImm_reserved (by simp) d a i h, shiftImm_reserved (by simp) d a i h⟩⟩

/-! Branches and jumps (R29, R54, R56) -/

theorem farBy_eq (a : Word) (i : BitVec 40) : farBy a i = a + BitVec.ofInt 64 (8 * i.toInt) := by
  rw [farBy, sx_eq, BitVec.ofInt_mul]
  rfl

theorem ra_jump (s : State) (a : Word) (r : BitVec 4) : (s.jump a).ra r = s.ra r := by simp [State.ra, Tile.reg]

theorem issued_jump (s : State) (a : Word) : Issued s (s.jump a) a := ⟨onlySeq_jump s a, by simp⟩

theorem goesOn_nextStep (s : State) : GoesOn s s.nextStep := ⟨⟨onlySeq_nextStep s, by simp⟩, State.ra_nextStep s⟩

theorem branches_of_branch {mk : BitVec 4 → BitVec 4 → BitVec 40 → Instr} {taken : Word → Word → Prop} {c : Word → Word → Bool}
    (h : ∀ a b i s, exec (mk a b i) s = s.branch (c (s.ra a) (s.ra b)) i) (hc : ∀ x y, c x y = true ↔ taken x y) : Branches mk taken := by
  intro a b i s
  simp only [Runs, h, State.branch, farBy_eq, ← hc]
  refine ⟨fun hn => ⟨_, if_neg hn, goesOn_nextStep s⟩, fun ht hstep => ⟨_, ?_, issued_jump s _, ra_jump s _⟩, fun ht hstep => ?_⟩
  · rw [if_pos ht, if_pos hstep]
  · rw [if_pos ht, if_neg (by simp [hstep])]
    rfl

/-- A jump that links, to a step of the program. -/
theorem link_of_step (s : State) (d : BitVec 4) {target : Word} (h : s.isStep target = true) :
    ∃ t, s.link d target = .next t ∧ Issued s t target ∧ t.ra d = s.cur.spc + 8 ∧ ∀ r, r ≠ d → t.ra r = s.ra r := by
  refine ⟨_, if_pos h, ⟨(onlySeq_jump _ _).of_wa, ?_⟩, ?_, fun r hr => ?_⟩
  · simp [Tile.setReg]
  · rw [ra_jump, ra_wa_same]
  · rw [ra_jump, ra_wa_of_ne s _ hr]

theorem link_of_no_step (s : State) (d : BitVec 4) {target : Word} (h : s.isStep target = false) :
    s.link d target = .next (s.faultLaunch s.unitNo 0x01 s.tile s.cur.spc.toNat) := if_neg (by simp [h])

theorem exec_jal (d : BitVec 4) (i : BitVec 40) (s : State) : exec (.jal d i) s = s.link d (s.cur.spc + BitVec.ofInt 64 (8 * i.toInt)) :=
  congrArg (s.link d) (farBy_eq _ _)

theorem exec_jalr (d a : BitVec 4) (i : BitVec 40) (s : State) : exec (.jalr d a i) s = s.link d (s.ra a + BitVec.ofInt 64 (8 * i.toInt)) :=
  congrArg (s.link d) (farBy_eq _ _)

/-- Settles O2: a branch and a jump go to a step of the program or trap, and a jump links past itself. -/
theorem branchesAndJumps : Obligations.BranchesAndJumps := by
  unfold Obligations.BranchesAndJumps
  refine ⟨branches_of_branch (c := (· == ·)) (fun _ _ _ _ => rfl) fun _ _ => beq_iff_eq,
    branches_of_branch (c := (· != ·)) (fun _ _ _ _ => rfl) fun _ _ => bne_iff_ne,
    branches_of_branch (c := BitVec.slt) (fun _ _ _ _ => rfl) fun _ _ => BitVec.slt_iff_toInt_lt,
    branches_of_branch (c := fun x y => !x.slt y) (fun _ _ _ _ => rfl) fun _ _ => by simp [BitVec.slt_eq_decide],
    branches_of_branch (c := BitVec.ult) (fun _ _ _ _ => rfl) fun _ _ => BitVec.ult_iff_lt,
    branches_of_branch (c := fun x y => !x.ult y) (fun _ _ _ _ => rfl) fun _ _ => by simp [BitVec.ult_eq_decide],
    fun d i s h => ?_, fun d a i s h => ?_, fun d i s h => ?_, fun d a i s h => ?_⟩
  · simpa only [Runs, exec_jal] using link_of_step s d h
  · simpa only [Runs, exec_jalr] using link_of_step s d h
  · exact (exec_jal d i s).trans (link_of_no_step s d h)
  · exact (exec_jalr d a i s).trans (link_of_no_step s d h)

end Sys2Proof.Claims

namespace Sys2Proof.Claims

open Sys2Proof.Machine

/-! A step that changes its own tile and goes on -/

theorem cur_modCur_nextStep (s : State) (f : Tile → Tile) : (s.modCur f).nextStep.cur = passed (f s.cur) := by simp [passed]

theorem onlySeq_modCur_nextStep (s : State) {f : Tile → Tile} (h : (f s.cur).owner = s.cur.owner) : OnlySeq s (s.modCur f).nextStep :=
  (onlySeq_nextStep _).of_modCur h

theorem ra_modCur (s : State) {f : Tile → Tile} (h : (f s.cur).a = s.cur.a) (r : BitVec 4) : (s.modCur f).ra r = s.ra r := by
  simp [State.ra, Tile.reg, h]

/-! The iteration registers and pattern bases (R61, R63) -/

theorem high8_eq_zero_iff (v : Word) : bitsOf v.toNat 63 56 = 0 ↔ v.toNat < 2 ^ 56 := by
  have := v.isLt
  rw [bitsOf_eq _ (n := 8) rfl]
  omega

theorem index_count (r : NReg) : r.index ++ r.count = BitVec.ofNat 64 (r.index.toNat * 2 ^ 32 + r.count.toNat) := by
  apply BitVec.eq_of_toNat_eq
  have hi := r.index.isLt
  have hc := r.count.isLt
  rw [BitVec.toNat_append, Nat.shiftLeft_eq, Nat.mul_comm, ← Nat.two_pow_add_eq_or_of_lt hc, BitVec.toNat_ofNat]
  omega

/-- PAT.BASE's record: the base of a pattern, and nothing above it, takes the low 56 bits of a word. -/
def rebase (p : Pattern) (v : Word) : Pattern := { p with w0 := p.w0.extractLsb' 56 8 ++ v.extractLsb' 0 56 }

theorem toNat_rebase_w0 (p : Pattern) (v : Word) : (rebase p v).w0.toNat = p.w0.toNat / 2 ^ 56 * 2 ^ 56 + v.toNat % 2 ^ 56 := by
  have h := p.w0.isLt
  have hv : (v.extractLsb' 0 56).toNat = v.toNat % 2 ^ 56 := by simp
  have hp : (p.w0.extractLsb' 56 8).toNat = p.w0.toNat / 2 ^ 56 := by
    rw [BitVec.extractLsb'_toNat, Nat.shiftRight_eq_div_pow, Nat.mod_eq_of_lt (by omega)]
  rw [rebase]
  dsimp only
  rw [BitVec.toNat_append, hv, hp, Nat.shiftLeft_eq, Nat.mul_comm, ← Nat.two_pow_add_eq_or_of_lt (Nat.mod_lt _ (by decide))]

theorem base_rebase (p : Pattern) {v : Word} (h : v.toNat < 2 ^ 56) : (rebase p v).base = v.toNat := by
  rw [Pattern.base, toNat_rebase_w0, bitsOf_eq _ (n := 56) rfl]
  omega

theorem dims_rebase (p : Pattern) (v : Word) : (rebase p v).dims = p.dims := by
  rw [Pattern.dims, Pattern.dims, toNat_rebase_w0, bitsOf_eq _ (n := 2) rfl, bitsOf_eq _ (n := 2) rfl]
  omega

theorem fmt_rebase (p : Pattern) (v : Word) : (rebase p v).fmt = p.fmt := by
  rw [Pattern.fmt, Pattern.fmt, toNat_rebase_w0, bitsOf_eq _ (n := 3) rfl, bitsOf_eq _ (n := 3) rfl]
  omega

theorem exec_patBase (m : BitVec 3) (a : BitVec 4) {s : State} (h : (s.ra a).toNat < 2 ^ 56) :
    exec (.patBase m a) s = .next (s.modCur fun t => { t with m := t.m.set m.toNat (rebase t.m[m.toNat] (s.ra a)) }).nextStep :=
  if_neg (not_not.mpr ((high8_eq_zero_iff _).mpr h))

/-- Settles O4: each of the three steps changes one register of its own file and goes on, waits for the run, or traps on its operand. -/
theorem iterationAndPatternRegisters : Obligations.IterationAndPatternRegisters := by
  unfold Obligations.IterationAndPatternRegisters
  refine ⟨fun n a s ha hrun => ⟨_, ?_, onlySeq_modCur_nextStep s rfl,
      cur_modCur_nextStep s fun t => { t with n := t.n.set n.toNat ⟨(s.ra a).setWidth 32, 0⟩ }⟩, fun n a s ha => if_pos ha,
    fun n a s ha hrun => ⟨_, ?_, State.cur_modCur s fun t => { t with wait := some (.poll false) }⟩, fun d n => computes_of_finish fun s => ?_, fun m a s ha => ?_, fun m a s ha => if_pos ?_⟩
  · exact (if_neg (not_le.mpr ha)).trans (if_neg (by simp [hrun]))
  · exact (if_neg (not_le.mpr ha)).trans (if_pos hrun)
  · exact congrArg (s.finish d) (index_count _)
  · have hm : (s.modCur fun t => { t with m := t.m.set m.toNat (rebase t.m[m.toNat] (s.ra a)) }).nextStep.cur.m =
        s.cur.m.set m.toNat (rebase s.cur.m[m.toNat] (s.ra a)) := by simp
    refine ⟨_, exec_patBase m a ha, onlySeq_modCur_nextStep s rfl, fun k hk => ?_, ?_⟩
    · rw [hm]
      exact Vector.getElem?_set_ne _ (Ne.symm hk)
    · simp only [hm, Vector.getElem_set_self]
      refine ⟨base_rebase _ ha, dims_rebase _ _, fmt_rebase _ _, rfl, rfl, rfl, ?_⟩
      rw [cur_modCur_nextStep]
  · rw [ne_eq, high8_eq_zero_iff]
    omega

/-! The dependence table (R76, R77) -/

theorem smMod_of_find {α : Type} {d e : α} {m : SMap α} {k : Nat} (h : smFind m k = some e) (f : α → α) :
    smMod d m k f = smPut m k (f e) := by simp [smMod, smGet, h]

/-- A step that goes on keeps its registers, whatever else of its tile it has changed. -/
theorem ra_modCur_nextStep (s : State) {f : Tile → Tile} (h : (f s.cur).a = s.cur.a) (r : BitVec 4) : (s.modCur f).nextStep.ra r = s.ra r :=
  (State.ra_nextStep _ _).trans (ra_modCur s h r)

theorem exec_depNew {s : State} {i : Nat} (hfree : s.cur.freeDep = some i) (hopen : s.cur.openDep = none) (d : BitVec 4) (k : BitVec 2) :
    exec (.depNew d k) s = (s.modCur fun t => { t with deps := smPut t.deps i (DepEnt.fresh k) }).finish d (BitVec.ofNat 64 i) := by
  simp [exec, execDepNew, hfree, hopen]

theorem exec_depNew_full {s : State} (hfree : s.cur.freeDep = none) (d : BitVec 4) (k : BitVec 2) : exec (.depNew d k) s = s.trap 0x82 := by
  simp [exec, execDepNew, hfree]

theorem exec_depEdge {s : State} {a b : BitVec 4} {e f : DepEnt} (ha : (s.ra a).toNat < 64) (hb : (s.ra b).toNat < 64)
    (he : smFind s.cur.deps (s.ra a).toNat = some e) (hf : smFind s.cur.deps (s.ra b).toNat = some f) (hdone : e.state ≠ .done) :
    exec (.depEdge a b) s = if !f.takesEdge || e.succ.length ≥ 8 then s.trap 0x83 else
      let deps := smMod e s.cur.deps (s.ra a).toNat fun e => { e with succ := e.succ ++ [(s.ra b).toNat] }
      .next (s.modCur fun x => { x with deps := smMod f deps (s.ra b).toNat fun f => { f with count := f.count + 1 } }).nextStep := by
  simp [exec, execDepEdge, ha, hb, he, hf, hdone]

theorem exec_depArm {s : State} {a : BitVec 4} {e : DepEnt} (ha : (s.ra a).toNat < 64) (he : smFind s.cur.deps (s.ra a).toNat = some e) :
    exec (.depArm a) s = if e.state == .held then
      .next (s.nextStamp.2.modCur fun x => { x with deps := smPut x.deps (s.ra a).toNat { e with state := .armed, age := s.stamp } }).nextStep
    else s.trap 0x83 := by
  simp [exec, execDepArm, ha, he, State.nextStamp]

theorem exec_depWait_done {s : State} {a : BitVec 4} {e : DepEnt} (ha : (s.ra a).toNat < 64)
    (he : smFind s.cur.deps (s.ra a).toNat = some e) (h : e.state = .done) :
    exec (.depWait a) s = .next ((s.handOff e.hw).modCur fun x => { x with deps := smDel x.deps (s.ra a).toNat }).nextStep := by
  simp [exec, execDepWait, not_le.mpr ha, he, h]

theorem exec_depWait_armed {s : State} {a : BitVec 4} {e : DepEnt} (ha : (s.ra a).toNat < 64)
    (he : smFind s.cur.deps (s.ra a).toNat = some e) (h : e.state = .armed) : exec (.depWait a) s = s.block true := by
  simp [exec, execDepWait, not_le.mpr ha, he, h]

theorem depEdge_joins {s : State} {a b : BitVec 4} {e f : DepEnt} (ha : (s.ra a).toNat < 64) (hb : (s.ra b).toNat < 64)
    (he : smFind s.cur.deps (s.ra a).toNat = some e) (hf : smFind s.cur.deps (s.ra b).toNat = some f) (hdone : e.state ≠ .done)
    (htakes : f.takesEdge = true) (hroom : e.succ.length < 8) (hne : s.ra a ≠ s.ra b) :
    ∃ t, Runs (.depEdge a b) s t ∧ (∀ r, t.ra r = s.ra r) ∧ t.cur.spc = s.cur.spc + 8 ∧
      smFind t.cur.deps (s.ra a).toNat = some { e with succ := e.succ ++ [(s.ra b).toNat] } ∧
      smFind t.cur.deps (s.ra b).toNat = some { f with count := f.count + 1 } := by
  have hab : (s.ra a).toNat ≠ (s.ra b).toNat := fun h => hne (BitVec.eq_of_toNat_eq h)
  have hf' : smFind (smPut s.cur.deps (s.ra a).toNat { e with succ := e.succ ++ [(s.ra b).toNat] }) (s.ra b).toNat = some f :=
    (smFind_smPut_of_ne _ _ hab.symm).trans hf
  refine ⟨_, (exec_depEdge ha hb he hf hdone).trans (if_neg (by simp [htakes, hroom])), ra_modCur_nextStep s rfl, ?_, ?_, ?_⟩
  · simp
  · rw [cur_modCur_nextStep, smMod_of_find he, smMod_of_find hf']
    exact (smFind_smPut_of_ne _ _ hab).trans (smFind_smPut_same _ _ _)
  · rw [cur_modCur_nextStep, smMod_of_find he, smMod_of_find hf']
    exact smFind_smPut_same _ _ _

theorem cur_handOff (s : State) (t : BitVec 32) :
    (s.handOff t).cur = { s.cur with spr := { s.cur.spr with lclk := tsMax s.cur.spr.lclk t } } := State.cur_modCur s _

theorem ra_handOff (s : State) (t : BitVec 32) (r : BitVec 4) : (s.handOff t).ra r = s.ra r := ra_modCur s rfl r

/-- Settles O9: each dependence step is one change of the table of the lead tile, or the trap of the state that it refuses. -/
theorem dependenceSteps : Obligations.DependenceSteps := by
  unfold Obligations.DependenceSteps
  refine ⟨fun d k s i hfree hopen => ?_, fun d k s hfree => exec_depNew_full hfree d k,
    fun a b s e f ha hb he hf hdone htakes hroom hne => depEdge_joins ha hb he hf hdone htakes hroom hne,
    fun a b s e f ha hb he hf hdone htakes => (exec_depEdge ha hb he hf hdone).trans (if_pos (by simp [htakes])),
    fun a s e ha he hheld => ?_, fun a s e ha he hheld => (exec_depArm ha he).trans (if_neg (by simp [hheld])),
    fun a s e ha he hdone => ?_, fun a s e ha he harmed => exec_depWait_armed ha he harmed, fun a s ha => if_pos (by simpa using ha)⟩
  · refine ⟨_, exec_depNew hfree hopen d k, ?_, fun r hr => ?_, ?_, ?_⟩
    · exact (State.ra_nextStep _ _).trans (ra_wa_same _ d _)
    · exact ((State.ra_nextStep _ _).trans (ra_wa_of_ne _ _ hr)).trans (ra_modCur s rfl r)
    · simp
    · simp [Tile.setReg]
  · refine ⟨_, (exec_depArm ha he).trans (if_pos (by simp [hheld])), ra_modCur_nextStep s.nextStamp.2 rfl, ?_, ?_, ?_⟩
    · rw [cur_modCur_nextStep]
      rfl
    · simp [State.nextStamp]
    · rw [cur_modCur_nextStep]
      exact smFind_smPut_same _ _ _
  · refine ⟨_, exec_depWait_done ha he hdone, fun r => (ra_modCur_nextStep _ rfl r).trans (ra_handOff s _ r), ?_, ?_, ?_⟩
      <;> rw [cur_modCur_nextStep, cur_handOff] <;> rfl

end Sys2Proof.Claims

namespace Sys2Proof.Claims

open Sys2Proof.Machine

/-! The ports of a tile -/

@[simp] theorem port_setPort (t : Tile) (p k : Nat) (q : PortQ) : (t.setPort p q).port k = if k = p then q else t.port k := smGet_smPut _ _ _ _ _

theorem ports_nextStep (s : State) (k : Nat) : (s.nextStep.getTile k).ports = (s.getTile k).ports := by
  by_cases h : k = s.tile <;> simp [State.nextStep, State.issued, State.cur, h]

theorem port_nextStep (s : State) (k q : Nat) : (s.nextStep.getTile k).port q = (s.getTile k).port q := by
  rw [Tile.port, ports_nextStep, Tile.port]

/-! Stream steps (R69 to R71) -/

theorem getTile_enqueue (s : State) (tile p : Nat) (c : Cmd) (k : Nat) : (s.enqueue tile p c).getTile k =
    if k = tile then (s.getTile tile).setPort p
      { (s.getTile tile).port p with entries := ((s.getTile tile).port p).entries ++ [.cmd { c with issue := s.stamp }] } else s.getTile k :=
  State.getTile_modTile _ _ _ _

theorem cur_enqueue (s : State) (tile p : Nat) (c : Cmd) : ∃ q, (s.enqueue tile p c).cur = { s.cur with ports := q } := by
  by_cases h : s.tile = tile
  · subst h
    exact ⟨_, (getTile_enqueue s s.tile p c s.tile).trans (if_pos rfl)⟩
  · exact ⟨s.cur.ports, (getTile_enqueue s tile p c s.tile).trans (if_neg h)⟩

theorem queues_enqueue (s : State) (tile p : Nat) (c : Cmd) : Queues s (s.enqueue tile p c).nextStep tile p c := by
  obtain ⟨ps, hcur⟩ := cur_enqueue s tile p c
  refine ⟨?_, fun r => ?_, ?_, ?_, ?_, ?_, fun a => ?_, ?_, ?_, ?_, fun k q hkq => ?_⟩
  · rw [port_nextStep, getTile_enqueue, if_pos rfl, port_setPort, if_pos rfl]
  · rw [State.ra_nextStep, State.ra, hcur]
    rfl
  · rw [State.cur_nextStep, hcur]
  · rw [State.cur_nextStep, hcur]
  · rw [State.cur_nextStep, hcur]
  · rw [State.cur_nextStep, hcur]
  · rw [State.nextStep_mem]
    rfl
  · exact State.nextStep_cells _
  · exact State.nextStep_dies _
  · exact State.nextStep_msgs _
  · rw [port_nextStep, getTile_enqueue]
    split
    case isTrue hk =>
      subst hk
      rw [port_setPort, if_neg (hkq.resolve_left (not_not.mpr rfl))]
    case isFalse => rfl

theorem captured_of_closed {s : State} (h : s.cur.openDep = none) (kind : BitVec 2) (step : DepStep) : s.captured kind step = none := by
  simp [State.captured, h]

theorem strmStep_enqueues {s : State} {tile p cap : Nat} {c : Cmd} (hcap : s.captured 0 (.stream c p tile) = none) (hbad : c.bad tile = none)
    (hre : s.reissues = false) (hroom : ((s.getTile tile).port p).entries.length < cap) :
    s.strmStep tile p c cap = .next (s.enqueue tile p c).nextStep := by
  rw [State.strmStep, hcap, hbad]
  exact if_neg (by simp [hre, hroom])

theorem strmStep_traps {s : State} {tile p cap cause : Nat} {c : Cmd} (hopen : s.cur.openDep = none) (hbad : c.bad tile = some cause) :
    s.strmStep tile p c cap = s.trap cause := by
  simp [State.strmStep, captured_of_closed hopen, hbad]

theorem strmCell_eq {s : State} {l : Launch} (h : s.unit? = some l) (p : BitVec 2) (rt : BitVec 4) (n : BitVec 6) (mk : Launch → Nat → Cmd) :
    s.strmCell p rt n mk = s.strmStep (l.region.getD rt.toNat noTile) p.toNat
      (mk l (shiftCell (cellOf (l.region.getD rt.toNat noTile) n.toNat) (cellDie (cellOf (l.region.getD rt.toNat noTile) n.toNat)) l.move))
      l.queueCap := by
  simp [State.strmCell, h]

theorem strmLead_eq {s : State} {l : Launch} (h : s.unit? = some l) (p : BitVec 2) (mk : Launch → Cmd) :
    s.strmLead p mk = s.strmStep s.tile p.toNat (mk l) l.queueCap := by
  simp [State.strmLead, h]

theorem streamsCell_of_strmCell {i : BitVec 4 → BitVec 6 → Instr} {p : BitVec 2} {mk : State → Launch → Nat → Cmd}
    (h : ∀ rt n s, exec (i rt n) s = s.strmCell p rt n (mk s)) : StreamsCell i p mk := by
  intro rt n s l tile hl htile _ hcap _ hbad hre hroom
  have hD : l.region.getD rt.toNat noTile = tile := by simp [List.getD, htile]
  refine ⟨_, ?_, queues_enqueue s tile p.toNat _⟩
  rw [Runs, h, strmCell_eq hl, hD]
  exact strmStep_enqueues hcap hbad hre hroom

theorem streamsLead_of_strmLead {i : Instr} {p : BitVec 2} {mk : State → Launch → Cmd} (h : ∀ s, exec i s = s.strmLead p (mk s)) :
    StreamsLead i p mk := by
  intro s l hl hcap hbad hre hroom
  refine ⟨_, ?_, queues_enqueue s s.tile p.toNat _⟩
  rw [Runs, h, strmLead_eq hl]
  exact strmStep_enqueues hcap hbad hre hroom

theorem any_unaligned {n : Nat} {ws : List Word} (h : ∃ w ∈ ws, w.toNat % n ≠ 0) : ws.any (fun w => w.toNat % n != 0) = true := by
  simpa using h

theorem leadTraps_of_strmLead {i : Instr} {p : BitVec 2} {n : Nat} {mk : State → Launch → Cmd} {ops : State → List Word}
    (h : ∀ s, exec i s = s.strmLead p (mk s))
    (hbad : ∀ s l tile, (ops s).any (fun w => w.toNat % n != 0) = true → (mk s l).bad tile = some 0x22) : LeadTraps i n ops := by
  intro s l hl hopen hops
  rw [Runs, h, strmLead_eq hl]
  exact strmStep_traps hopen (hbad s l _ (any_unaligned hops))

theorem leadTraps_of_strmCell {i : Instr} {p : BitVec 2} {rt : BitVec 4} {k : BitVec 6} {n : Nat} {mk : State → Launch → Nat → Cmd}
    {ops : State → List Word} (h : ∀ s, exec i s = s.strmCell p rt k (mk s))
    (hbad : ∀ s l c tile, (ops s).any (fun w => w.toNat % n != 0) = true → (mk s l c).bad tile = some 0x22) : LeadTraps i n ops := by
  intro s l hl hopen hops
  rw [Runs, h, strmCell_eq hl]
  exact strmStep_traps hopen (hbad s l _ _ (any_unaligned hops))

theorem cellTraps_of_strmCell {i : BitVec 4 → BitVec 6 → Instr} {p : BitVec 2} {mk : State → Launch → Nat → Cmd} {base : State → Word}
    (h : ∀ rt n s, exec (i rt n) s = s.strmCell p rt n (mk s))
    (hbad : ∀ s l c tile, (base s).toNat % 64 = 0 → tile = noTile ∨ isTCell c = true → (mk s l c).bad tile = some 0x04) : CellTraps i base := by
  intro rt n s l hl hopen hbase hplace
  rw [Runs, h, strmCell_eq hl]
  refine strmStep_traps hopen (hbad s l _ _ hbase ?_)
  rcases hplace with hout | ⟨tile, htile, hcell⟩
  · exact .inl (by simp [List.getD, List.getElem?_eq_none hout])
  · have hD : l.region.getD rt.toNat noTile = tile := by simp [List.getD, htile]
    exact .inr (by rw [hD]; exact hcell)

theorem exec_strmIn (p : BitVec 2) (m : BitVec 3) (rt : BitVec 4) (n : BitVec 6) (dlv : BitVec 2) (s : State) :
    exec (.strmIn p m rt n dlv) s = s.strmCell p rt n fun l c =>
      Cmd.new 0 s.cur.m[m.toNat] 0 0 0 c dlv false 0 s.unitNo l.depth l.active? s.cur.spr.lclk := rfl

theorem exec_strmOut (p : BitVec 2) (m : BitVec 3) (rt : BitVec 4) (n : BitVec 6) (dlv : BitVec 2) (s : State) :
    exec (.strmOut p m rt n dlv) s = s.strmCell p rt n fun l c =>
      Cmd.new 1 s.cur.m[m.toNat] 0 0 0 c dlv false 0 s.unitNo l.depth l.active? s.cur.spr.lclk := rfl

theorem exec_strmGath (p : BitVec 2) (m : BitVec 3) (x rt : BitVec 4) (n : BitVec 6) (dlv : BitVec 2) (s : State) :
    exec (.strmGath p m x rt n dlv) s = s.strmCell p rt n fun l c =>
      Cmd.new 2 s.cur.m[m.toNat] 0 0 (s.ra x) c dlv false 0 s.unitNo l.depth l.active? s.cur.spr.lclk := rfl

theorem exec_strmScat (p : BitVec 2) (m : BitVec 3) (x rt : BitVec 4) (n : BitVec 6) (dlv : BitVec 2) (s : State) :
    exec (.strmScat p m x rt n dlv) s = s.strmCell p rt n fun l c =>
      Cmd.new 3 s.cur.m[m.toNat] 0 0 (s.ra x) c dlv false 0 s.unitNo l.depth l.active? s.cur.spr.lclk := rfl

/-! What is wrong with a command's operands (R69, R70) -/

theorem bad_of_place {c : Cmd} {tile : Nat} (hop : c.op = 0 ∨ c.op = 1) (h : tile = noTile ∨ isTCell c.cell = true) : c.bad tile = some 0x04 := by
  rcases hop with hop | hop <;> simp [Cmd.bad, hop, h]

theorem bad_of_table {c : Cmd} {tile : Nat} (hop : c.op = 2 ∨ c.op = 3) (ht : c.t.toNat % 64 = 0) (h : tile = noTile ∨ isTCell c.cell = true) :
    c.bad tile = some 0x04 := by
  rcases hop with hop | hop <;> simp [Cmd.bad, hop, ht, h]

theorem bad_of_unaligned_table {c : Cmd} {tile : Nat} (hop : c.op = 2 ∨ c.op = 3) (h : [c.t].any (fun w => w.toNat % 64 != 0) = true) :
    c.bad tile = some 0x22 := by
  have hm : ¬ c.t.toNat % 64 = 0 := by simpa using h
  rcases hop with hop | hop <;> simp [Cmd.bad, hop, hm]

theorem strmFill_traps (p : BitVec 2) (d a b : BitVec 4) (dlv : BitVec 2) : LeadTraps (.strmFill p d a b dlv) 8 fun s => [s.ra d, s.ra b] :=
  leadTraps_of_strmLead (p := p) (fun _ => rfl) fun _ _ _ h => if_pos h

theorem strmCopy_traps (p : BitVec 2) (d a b : BitVec 4) (dlv : BitVec 2) :
    LeadTraps (.strmCopy p d a b dlv) 16 fun s => [s.ra d, s.ra a, s.ra b] :=
  leadTraps_of_strmLead (p := p) (fun _ => rfl) fun _ _ _ h => if_pos h

theorem strmKvc_traps (p : BitVec 2) (d a b : BitVec 4) (mask : Bool) : LeadTraps (.strmKvc p d a b mask) 64 fun s => [s.ra d] :=
  leadTraps_of_strmLead (p := p) (fun _ => rfl) fun _ _ _ h => if_pos h

theorem strmXch_traps (p : BitVec 2) (d a b : BitVec 4) (flow : BitVec 16) :
    LeadTraps (.strmXch p d a b flow) 64 fun s => [s.ra d, s.ra a, s.ra b] :=
  leadTraps_of_strmLead (p := p) (fun _ => rfl) fun _ _ _ h => if_pos h

theorem strmGath_traps (p : BitVec 2) (m : BitVec 3) (x rt : BitVec 4) (n : BitVec 6) (dlv : BitVec 2) :
    LeadTraps (.strmGath p m x rt n dlv) 64 fun s => [s.ra x] :=
  leadTraps_of_strmCell (exec_strmGath p m x rt n dlv) fun _ _ _ _ h => bad_of_unaligned_table (.inl rfl) h

theorem strmScat_traps (p : BitVec 2) (m : BitVec 3) (x rt : BitVec 4) (n : BitVec 6) (dlv : BitVec 2) :
    LeadTraps (.strmScat p m x rt n dlv) 64 fun s => [s.ra x] :=
  leadTraps_of_strmCell (exec_strmScat p m x rt n dlv) fun _ _ _ _ h => bad_of_unaligned_table (.inr rfl) h

theorem strmIn_cellTraps (p : BitVec 2) (m : BitVec 3) (dlv : BitVec 2) : CellTraps (fun rt n => .strmIn p m rt n dlv) fun _ => 0 :=
  cellTraps_of_strmCell (fun rt n => exec_strmIn p m rt n dlv) fun _ _ _ _ _ h => bad_of_place (.inl rfl) h

theorem strmOut_cellTraps (p : BitVec 2) (m : BitVec 3) (dlv : BitVec 2) : CellTraps (fun rt n => .strmOut p m rt n dlv) fun _ => 0 :=
  cellTraps_of_strmCell (fun rt n => exec_strmOut p m rt n dlv) fun _ _ _ _ _ h => bad_of_place (.inr rfl) h

theorem strmGath_cellTraps (p : BitVec 2) (m : BitVec 3) (x : BitVec 4) (dlv : BitVec 2) :
    CellTraps (fun rt n => .strmGath p m x rt n dlv) fun s => s.ra x :=
  cellTraps_of_strmCell (fun rt n => exec_strmGath p m x rt n dlv) fun _ _ _ _ hb h => bad_of_table (.inl rfl) hb h

theorem strmScat_cellTraps (p : BitVec 2) (m : BitVec 3) (x : BitVec 4) (dlv : BitVec 2) :
    CellTraps (fun rt n => .strmScat p m x rt n dlv) fun s => s.ra x :=
  cellTraps_of_strmCell (fun rt n => exec_strmScat p m x rt n dlv) fun _ _ _ _ hb h => bad_of_table (.inr rfl) hb h

/-- Settles O6: every stream step is a capture of its command, followed by the one queueing step that the cell and the lead forms share. -/
theorem streamStepsQueue : Obligations.StreamStepsQueue := by
  unfold Obligations.StreamStepsQueue
  exact ⟨fun _ _ _ => streamsCell_of_strmCell fun _ _ _ => rfl, fun _ _ _ => streamsCell_of_strmCell fun _ _ _ => rfl,
    fun _ _ _ _ => streamsCell_of_strmCell fun _ _ _ => rfl, fun _ _ _ _ => streamsCell_of_strmCell fun _ _ _ => rfl,
    fun _ _ _ _ _ => streamsLead_of_strmLead fun _ => rfl, fun _ _ _ _ _ => streamsLead_of_strmLead fun _ => rfl,
    fun _ _ _ _ _ => streamsLead_of_strmLead fun _ => rfl, fun _ _ _ _ _ => streamsLead_of_strmLead fun _ => rfl,
    strmFill_traps, strmCopy_traps, strmKvc_traps, strmXch_traps, strmGath_traps, strmScat_traps,
    strmIn_cellTraps, strmOut_cellTraps, strmGath_cellTraps, strmScat_cellTraps⟩

end Sys2Proof.Claims

namespace Sys2Proof.Claims

open Sys2Proof.Machine

/-! Releases (R226) and barriers (R73 to R75) -/

theorem release_of_buffered {s : State} {a owner : Nat} (sc : BitVec 2) (h : s.sbufOf a ≠ []) : s.release a owner sc = (false, s) := by
  simp [State.release, h]

theorem hostReads_of_none {s : State} {a : Nat} (owner : Nat) (h : (s.getTile (agentTile a)).hostLast = []) : s.hostReads a owner = (true, s) := by
  simp [State.hostReads, h]

theorem settled_of_quiet {s : State} {a owner : Nat} {sc : BitVec 2} (hseq : agentIsSeq a = true) (hwrites : s.writesOut a sc false = false)
    (hflows : 2 ≤ sc.toNat → s.flowsAcked (s.writeTiles a owner false) false = true) (hhost : sc = 3 → (s.getTile (agentTile a)).hostLast = []) :
    s.settled a owner sc false = (true, s) := by
  have hacked : ¬ (2 ≤ sc.toNat ∧ s.flowsAcked (s.writeTiles a owner false) false = false) := fun h => by simp [hflows h.1] at h
  rw [State.settled, if_neg (by simp [hwrites]), if_neg (by simpa [hseq] using hacked)]
  by_cases h : sc = 3
  · rw [if_pos h, hostReads_of_none owner (hhost h)]
  · rw [if_neg h]

/-- The release of a sequencer that owes nothing ends at once, and sets its WHW. -/
theorem release_of_quiet {s : State} {sc : BitVec 2} (htile : s.tile < 1600) (hbuf : s.cur.sbuf = []) (hatoms : s.atomsOut s.me = false)
    (hcmds : ∀ c ∈ s.cmdsOf s.unitNo, c.writes = true → c.issuedAll = true) (hwrites : s.writesOut s.me sc false = false)
    (hflows : 2 ≤ sc.toNat → s.flowsAcked (s.writeTiles s.me s.unitNo false) false = true) (hhost : sc = 3 → s.cur.hostLast = []) :
    s.release s.me s.unitNo sc = (true, s.modCur fun t => { t with spr := { t.spr with whw := t.hiWater } }) := by
  have hagent : agentTile s.me = s.tile := agentTile_seqAgent htile
  have hseq : agentIsSeq s.me = true := agentIsSeq_seqAgent s.tile
  have hsbuf : s.sbufOf s.me = [] := by rw [State.me, State.sbufOf_seqAgent s htile]; exact hbuf
  have hall : (s.cmdsOf s.unitNo).any (fun c => c.writes && !c.issuedAll) = false := by simpa using hcmds
  rw [State.release, if_neg (by simp [hsbuf, hatoms]), if_neg (by simp [hall]),
    settled_of_quiet hseq hwrites hflows (by rw [hagent]; exact hhost)]
  simp [State.setWhw, hseq, hagent, State.modCur]

theorem exec_fenceRel_of_release {s v : State} {sc : BitVec 2} (h : s.release s.me s.unitNo sc = (true, v)) :
    exec (.fenceRel sc) s = .next v.nextStep := by
  simp [exec, execFenceRel, h]

theorem exec_fenceRel_of_buffered {s : State} (sc : BitVec 2) (htile : s.tile < 1600) (h : s.cur.sbuf ≠ []) :
    exec (.fenceRel sc) s = s.block false := by
  have hsbuf : s.sbufOf s.me ≠ [] := by rw [State.me, State.sbufOf_seqAgent s htile]; exact h
  simp [exec, execFenceRel, release_of_buffered sc hsbuf]

theorem exec_sbar_empty {s : State} {l : Launch} (hl : s.unit? = some l) (a : BitVec 4) {b : BitVec 4} (h : s.ra b = 0) :
    exec (.sbar a b) s = .next s.nextStep := by
  simp [exec, execSbar, hl, h]

/-- A T-cell has a write to the bytes from `lo` to `hi` in its buffer, or a direct write under way. -/
def cellBars (s : State) (lo hi c : Nat) : Bool :=
  match smFind s.cells c with
  | some x => bufTouches x.sbuf lo hi || s.directOut (cellAgent c)
  | none => false

/-- What holds SBAR on the bytes from `lo` to `hi`: a buffered or direct write of the sequencer or of a T-cell of its region, or a command. -/
def barred (s : State) (l : Launch) (lo hi : Nat) : Bool :=
  bufTouches s.cur.sbuf lo hi || s.directOut s.me || (l.cells.filter isTCell).any (cellBars s lo hi) ||
    (s.cmdsOf s.unitNo).any fun c => s.cmdTouches l c lo hi

theorem exec_sbar {s : State} {l : Launch} (hl : s.unit? = some l) (a : BitVec 4) {b : BitVec 4} (h : s.ra b ≠ 0) : exec (.sbar a b) s =
    if barred s l (s.ra a).toNat ((s.ra a).toNat + (s.ra b).toNat) = true then s.block false else .next s.nextStep := by
  simp only [exec, execSbar, hl]
  exact if_neg h

theorem barred_eq_false {s : State} {l : Launch} {lo hi : Nat} (hbuf : bufTouches s.cur.sbuf lo hi = false) (hdirect : s.directOut s.me = false)
    (hcells : ∀ c ∈ l.cells, isTCell c = true → ∀ x, smFind s.cells c = some x → bufTouches x.sbuf lo hi = false ∧ s.directOut (cellAgent c) = false)
    (hcmds : ∀ c ∈ s.cmdsOf s.unitNo, s.cmdTouches l c lo hi = false) : barred s l lo hi = false := by
  have hcell : (l.cells.filter isTCell).any (cellBars s lo hi) = false := by
    rw [List.any_eq_false]
    intro c hc
    rw [List.mem_filter] at hc
    cases hx : smFind s.cells c with
    | none => simp [cellBars, hx]
    | some x => simp [cellBars, hx, hcells c hc.1 hc.2 x hx]
  have hcmd : (s.cmdsOf s.unitNo).any (fun c => s.cmdTouches l c lo hi) = false := by simpa using hcmds
  rw [barred, hbuf, hdirect, hcell, hcmd]
  rfl

theorem barred_of_cmd {s : State} {l : Launch} {lo hi : Nat} {c : Cmd} (hc : c ∈ s.cmdsOf s.unitNo) (h : s.cmdTouches l c lo hi = true) :
    barred s l lo hi = true := by
  have hany : (s.cmdsOf s.unitNo).any (fun c => s.cmdTouches l c lo hi) = true := List.any_eq_true.mpr ⟨c, hc, h⟩
  rw [barred, hany, Bool.or_true]

theorem barred_of_buffer {s : State} {l : Launch} {lo hi : Nat} (h : bufTouches s.cur.sbuf lo hi = true) : barred s l lo hi = true := by
  simp [barred, h]

/-! QFENCE (R73) -/

/-- The state in which a marker has joined one queue. -/
def marked (s : State) (tile p : Nat) : State :=
  s.nextStamp.2.modTile tile fun t => t.setPort p { t.port p with entries := (t.port p).entries ++ [.fence s.stamp] }

theorem getTile_marked (s : State) (tile p k : Nat) : (marked s tile p).getTile k = if k = tile then (s.getTile tile).setPort p
    { (s.getTile tile).port p with entries := ((s.getTile tile).port p).entries ++ [.fence s.stamp] } else s.getTile k :=
  State.getTile_modTile _ _ _ _

theorem cur_marked (s : State) (tile p : Nat) : ∃ q, (marked s tile p).cur = { s.cur with ports := q } := by
  by_cases h : s.tile = tile
  · subst h
    exact ⟨_, (getTile_marked s s.tile p s.tile).trans (if_pos rfl)⟩
  · exact ⟨s.cur.ports, (getTile_marked s tile p s.tile).trans (if_neg h)⟩

theorem qfenceStep_marks {s : State} {l : Launch} {w : Nat} {q : Nat × Nat} {tile : Nat} (hl : s.unit? = some l) (hre : s.reissues = false)
    (hq : queueSet w = [q]) (htile : l.region[q.1]? = some tile) (hroom : ((s.getTile tile).port q.2).entries.length < l.queueCap) :
    s.qfenceStep w = .next (marked s tile q.2).nextStep := by
  obtain ⟨hlt, hget⟩ := List.getElem?_eq_some_iff.mp htile
  have hD : l.region.getD q.1 0 = tile := by simp [List.getD, htile]
  simp only [State.qfenceStep, hl, hq]
  rw [if_neg (by simp [hlt]), if_neg (by simp), if_neg (by simp only [List.any_cons, List.any_nil, hD, hre]; simp [hroom])]
  rw [List.foldl_cons, List.foldl_nil, hD]
  rfl

theorem qfenceStep_one {s : State} {l : Launch} {w : Nat} {q : Nat × Nat} {tile : Nat} (hl : s.unit? = some l) (hre : s.reissues = false)
    (hq : queueSet w = [q]) (htile : l.region[q.1]? = some tile) (hroom : ((s.getTile tile).port q.2).entries.length < l.queueCap) :
    ∃ t, s.qfenceStep w = .next t ∧ t.cur.spc = s.cur.spc + 8 ∧ (∀ r, t.ra r = s.ra r) ∧
      ((t.getTile tile).port q.2).entries = ((s.getTile tile).port q.2).entries ++ [.fence s.stamp] := by
  obtain ⟨ps, hcur⟩ := cur_marked s tile q.2
  refine ⟨_, qfenceStep_marks hl hre hq htile hroom, ?_, fun r => ?_, ?_⟩
  · rw [State.cur_nextStep, hcur]
  · rw [State.ra_nextStep, State.ra, hcur]
    rfl
  · rw [port_nextStep, getTile_marked, if_pos rfl, port_setPort, if_pos rfl]

theorem qfenceStep_none {s : State} {l : Launch} (hl : s.unit? = some l) : s.qfenceStep 0 = .next s.nextStep := by
  have hq : queueSet 0 = [] := by decide
  simp [State.qfenceStep, hl, hq]

theorem qfenceStep_traps {s : State} {l : Launch} {w : Nat} {q : Nat × Nat} (hl : s.unit? = some l) (hq : q ∈ queueSet w)
    (hout : l.region.length ≤ q.1) : s.qfenceStep w = s.trap 0x04 := by
  have hany : (queueSet w).any (fun q => decide (q.1 ≥ l.region.length)) = true := List.any_eq_true.mpr ⟨q, hq, by simpa using hout⟩
  simp only [State.qfenceStep, hl]
  exact if_pos hany

/-- Settles O7: each barrier and fence is one condition on what is still under way, under which it goes on or holds. -/
theorem fencesAndBarriers : Obligations.FencesAndBarriers := by
  unfold Obligations.FencesAndBarriers
  refine ⟨fun s h => ⟨_, if_pos (by simp [h]), goesOn_nextStep s⟩, fun s h => if_neg (by simp [h]),
    fun sc s htile hbuf hatoms hcmds hwrites hflows hhost =>
      ⟨_, exec_fenceRel_of_release (release_of_quiet htile hbuf hatoms hcmds hwrites hflows hhost), onlySeq_modCur_nextStep s rfl,
        cur_modCur_nextStep s fun t => { t with spr := { t.spr with whw := t.hiWater } }⟩,
    fun sc s htile hbuf => exec_fenceRel_of_buffered sc htile hbuf,
    fun sc s h => ⟨_, if_neg (by simp [h]), goesOn_nextStep s⟩, fun sc s h => if_pos h,
    fun a b s l hl hb => ⟨_, exec_sbar_empty hl a hb, goesOn_nextStep s⟩,
    fun a b s l hl hbuf hdirect hcells hcmds => ⟨_, ?_, goesOn_nextStep s⟩,
    fun a b s l c hl hb hc h => (exec_sbar hl a hb).trans (if_pos (barred_of_cmd hc h)),
    fun a b s l hl hb h => (exec_sbar hl a hb).trans (if_pos (barred_of_buffer h)),
    fun set s l q tile hl hre hq htile hroom => qfenceStep_one hl hre hq htile hroom,
    fun a s l q tile hl hre hq htile hroom => qfenceStep_one hl hre hq htile hroom,
    fun a s l hl ha => ⟨_, ?_, goesOn_nextStep s⟩,
    fun a s l q hl hq hout => qfenceStep_traps hl hq hout⟩
  · by_cases hb : s.ra b = 0
    · exact exec_sbar_empty hl a hb
    · exact (exec_sbar hl a hb).trans (if_neg (by simp [barred_eq_false hbuf hdirect hcells hcmds]))
  · have h0 : exec (.qfenceR a) s = s.qfenceStep (s.ra a).toNat := rfl
    rw [Runs, h0, ha]
    exact qfenceStep_none hl

end Sys2Proof.Claims

namespace Sys2Proof.Claims

open Sys2Proof.Machine

/-! A command that leaves for an engine (R46, R176) -/

/-- A message that leaves an agent is the last of the messages under way. -/
theorem msgs_sendFrom (s : State) (a o d : Nat) (k : MsgKind) :
    ∃ m, (s.sendFrom a o d k).msgs = s.msgs ++ [m] ∧ m.kind = k ∧ m.agent = a ∧ m.owner = o ∧ m.die = d := by
  unfold State.sendFrom State.send
  split
  · exact ⟨_, rfl, rfl, rfl, rfl, rfl⟩
  · exact ⟨_, rfl, rfl, rfl, rfl, rfl⟩

theorem cur_sendFrom (s : State) (a o d : Nat) (k : MsgKind) : (s.sendFrom a o d k).cur = s.cur := by
  simp [State.cur, State.getTile]

theorem room_congr {s v : State} (h : v.flows = s.flows) (d t e c : Nat) : v.room d t e c = s.room d t e c := by
  unfold State.room State.flow
  rw [h]

/-- A state that a step sends from stands for `v` up to the flows that its tile tracks. -/
def SendsAs (x v : State) : Prop :=
  x.tile = v.tile ∧ x.msgs = v.msgs ∧ x.flows = v.flows ∧ x.rebasing = v.rebasing ∧ ∃ tr, x.cur = { v.cur with tracked := tr }

theorem SendsAs.refl (v : State) : SendsAs v v := ⟨rfl, rfl, rfl, rfl, v.cur.tracked, rfl⟩

theorem leaves_of_sends {i : Instr} {s v x : State} {die addr : Nat} {code : BitVec 8} {fmt : BitVec 3} {sc : BitVec 2} {a b : Word}
    {progress engine : Bool} (hx : SendsAs x v) (h : exec i s = x.sendCmd die (v.mkCmd code fmt sc addr a b true) progress engine) :
    Leaves i s v die code fmt sc addr a b progress engine := by
  intro hroom hreb
  obtain ⟨htile, hmsgs, hflows, hrebasing, tr, hcur⟩ := hx
  obtain ⟨m, hsent, hkind, hagent, howner, hdie⟩ := msgs_sendFrom x x.me x.unitNo die (.cmd (v.mkCmd code fmt sc addr a b true))
  have hgo : ¬ ((!x.room (tileDie x.tile) (tileLocal x.tile) die (replyCls code.toNat) || (atomicCode code.toNat && x.rebasing)) = true) := by
    rw [room_congr hflows, htile, hrebasing, hroom]
    simpa using hreb
  refine ⟨_, m, h.trans (if_neg hgo), hmsgs ▸ hsent, ?_, ?_, hdie, hkind, ?_⟩
  · rw [hagent, State.me, htile, State.me]
  · rw [howner, State.unitNo, hcur, State.unitNo]
  · rw [State.cur_modCur, cur_sendFrom, hcur]

theorem leaves_of_sendCmd {i : Instr} {s v : State} {die addr : Nat} {code : BitVec 8} {fmt : BitVec 3} {sc : BitVec 2} {a b : Word}
    {progress engine : Bool} (h : exec i s = v.sendCmd die (v.mkCmd code fmt sc addr a b true) progress engine) :
    Leaves i s v die code fmt sc addr a b progress engine :=
  leaves_of_sends (SendsAs.refl v) h

theorem leavesPlain_of_phPlain {i : Instr} {s u : State} {va : Nat} {code : BitVec 8} {a : Word} {progress engine : Bool}
    (h : exec i s = u.phPlain va code a progress engine) : LeavesPlain i s u va code a progress engine := by
  intro w v hreach hbuf
  refine leaves_of_sendCmd (h.trans ?_)
  simp [State.phPlain, State.phaserStep, hreach, hbuf]

theorem phSignal_of_release {s u v : State} {va : Nat} {w : Target} {code : BitVec 8} {sc : BitVec 2} (operand : BitVec 32)
    (progress engine : Bool) (hreach : s.reach s.me s.vmid va 64 1 .rw syncType = .ok w u) (hrel : u.release u.me u.unitNo sc = (true, v)) :
    s.phSignal va code sc operand progress engine =
      v.sendCmd (syncPlace w.flat).1 (v.mkCmd code 0 sc w.flat (v.cur.spr.whw ++ operand) 0 true) progress engine := by
  simp [State.phSignal, State.phaserStep, hreach, hrel]

theorem track_cases (s : State) (a o : Nat) :
    s.track a o = s ∨ ∃ x, s.track a o = s.modTile (agentTile a) fun t => { t with tracked := smPut t.tracked s.eighths x } := by
  unfold State.track
  dsimp only
  split
  · exact .inl rfl
  · exact .inr ⟨_, rfl⟩

theorem sendsAs_track (s : State) (a o : Nat) : SendsAs (s.track a o) s := by
  obtain h | ⟨x, h⟩ := track_cases s a o
  · rw [h]
    exact SendsAs.refl s
  · rw [h]
    refine ⟨rfl, rfl, rfl, rfl, ?_⟩
    by_cases ht : s.tile = agentTile a
    · exact ⟨_, by rw [State.cur, State.getTile_modTile, State.modTile_tile, if_pos ht, ← ht]; rfl⟩
    · exact ⟨s.cur.tracked, by rw [State.cur, State.getTile_modTile, State.modTile_tile, if_neg ht]; rfl⟩

theorem SendsAs.modLaunch {x v : State} (h : SendsAs x v) (u : Nat) (f : Launch → Launch) : SendsAs (x.modLaunch u f) v := by
  obtain ⟨htile, hmsgs, hflows, hrebasing, tr, hcur⟩ := h
  exact ⟨by simpa using htile, by simpa using hmsgs, by simpa using hflows, by simpa using hrebasing, tr, by simpa using hcur⟩

/-! Granary steps (R251 to R255) -/

theorem exec_qRsv_sends {s : State} {a : BitVec 4} (d : BitVec 4) (hrep : s.replied = none) (hid : queueIdOk (s.ra a) = true) (hbuf : s.cur.sbuf = []) :
    exec (.qRsv d a) s = s.sendCmd (queuePlace (s.ra a).toNat).1 (s.mkCmd 0x30 0 0 (s.ra a).toNat 0 0 true) true true := by
  simp [exec, execQRsv, hrep, hid, hbuf]

theorem qAdd_leaves {s u v : State} {a : BitVec 4} {sc : BitVec 2} {w : Target} {flat : Nat} (hrep : s.replied = none)
    (hreach : s.reach s.me s.vmid (s.ra a).toNat 64 1 .rw syncType = .ok w u) (hres : u.reservation (s.ra a).toNat = some flat)
    (hrel : u.release u.me u.unitNo sc = (true, v)) :
    Leaves (.qAdd a sc) s v (syncPlace flat).1 0x31 0 sc flat 0 (v.cur.spr.whw.setWidth 64) false false := by
  intro hroom
  have hgo : exec (.qAdd a sc) s = ((v.track v.me v.unitNo).modLaunch v.unitNo fun l =>
      { l with reservations := l.reservations.filter fun r => r.1 != (s.ra a).toNat }).sendCmd
        (syncPlace flat).1 (v.mkCmd 0x31 0 sc flat 0 (v.cur.spr.whw.setWidth 64) true) false false := by
    have h3 : v.room (tileDie v.tile) (tileLocal v.tile) (syncPlace flat).1 3 = true := hroom
    simp [exec, execQAdd, hrep, hreach, hres, hrel, h3]
  exact leaves_of_sends ((sendsAs_track v _ _).modLaunch _ _) hgo hroom

section
variable {s u : State} {a b : BitVec 4} {w : Target} (d : BitVec 4) (hrep : s.recordReply = none) (hid : queueIdOk (s.ra a) = true)
  (hreach : s.reach s.me s.vmid (s.ra b).toNat 64 64 .w plainType = .ok w u) (hra : (u.ra a).toNat = (s.ra a).toNat) (hbuf : u.cur.sbuf = [])
  (hqueue : u.cur.pre.queue = some (s.ra a).toNat)
include hrep hid hreach hra hbuf hqueue

theorem exec_qTake_sends (hrecs : u.cur.pre.recs = []) : exec (.qTake d a b) s =
    u.sendCmd (queuePlace (s.ra a).toNat).1 (u.mkCmd 0x32 0 0 (s.ra a).toNat 0 0 true) true true := by
  simp [exec, execQTake, hrep, hid, hreach, hra, hbuf, hqueue, hrecs]

theorem exec_qTake_prefetched {r : QRec} {more : List QRec} (hrecs : u.cur.pre.recs = r :: more) : exec (.qTake d a b) s =
    (u.modCur fun t => { t with pre := ⟨some (s.ra a).toNat, more, u.clk⟩, phase := 1,
                                reply := some ⟨0x32, true, 0, r.whw, some r.data⟩ }).block false := by
  simp [exec, execQTake, hrep, hid, hreach, hra, hbuf, hqueue, hrecs]

end

theorem exec_qTake_empty {s : State} {r : SeqReply} (hrep : s.recordReply = some r) (hline : r.line = none) (d a b : BitVec 4) :
    exec (.qTake d a b) s = s.finish d r.data := by
  simp [exec, execQTake, hrep, hline]

theorem landRecord_done {s : State} (va : Nat) (line : BitVec 512) (done : State → Out) (hphase : s.cur.phase = 2) (hbuf : s.cur.sbuf = [])
    (hout : s.accessOut s.me = false) : s.landRecord va line done = done s := by
  simp [State.landRecord, hphase, hbuf, hout]

theorem exec_qTake_landed {s : State} {r : SeqReply} {l : BitVec 512} (hrep : s.recordReply = some r) (hline : r.line = some l)
    (hphase : s.cur.phase = 2) (hbuf : s.cur.sbuf = []) (hout : s.accessOut s.me = false) (d a b : BitVec 4) :
    exec (.qTake d a b) s = s.tookRecord d r.time := by
  simp [exec, execQTake, hrep, hline, landRecord_done _ l _ hphase hbuf hout]

/-! Phaser and atomic steps (R242, R246 to R250) -/

theorem exec_phRead_landed {s : State} {r : SeqReply} (hrep : s.recordReply = some r) (hphase : s.cur.phase = 2) (hbuf : s.cur.sbuf = [])
    (hout : s.accessOut s.me = false) (a b : BitVec 4) : exec (.phRead a b) s = .next s.nextStep := by
  simp [exec, execPhRead, hrep, landRecord_done _ _ _ hphase hbuf hout]

theorem exec_phRead_reached {s u : State} {b : BitVec 4} {w : Target} (hrep : s.recordReply = none)
    (hreach : s.reach s.me s.vmid (s.ra b).toNat 64 64 .w plainType = .ok w u) (a : BitVec 4) :
    exec (.phRead a b) s = u.phPlain (u.ra a).toNat 0x26 0 false false := by
  simp [exec, execPhRead, hrep, hreach]

theorem exec_phReg {s : State} (h : s.replied = none) (a : BitVec 4) (m : BitVec 2) :
    exec (.phReg a m) s = s.phPlain (s.ra a).toNat 0x20 (m.setWidth 64) false false := by
  simp [exec, execPhReg, h]

theorem exec_phDrop {s : State} (h : s.replied = none) (a : BitVec 4) : exec (.phDrop a) s = s.phPlain (s.ra a).toNat 0x21 0 false false := by
  simp [exec, execPhDrop, h]

theorem exec_phWait {s : State} (h : s.replied = none) (d a b : BitVec 4) :
    exec (.phWait d a b) s = s.phPlain (s.ra a).toNat 0x23 (((s.ra b).setWidth 32).setWidth 64) true true := by
  simp [exec, execPhWait, h, phaseOf]

theorem exec_phErr {s : State} {b : BitVec 4} (h : s.replied = none) (hlo : 1 ≤ (s.ra b).toNat) (hhi : (s.ra b).toNat < 256) (a : BitVec 4) :
    exec (.phErr a b) s = s.phPlain (s.ra a).toNat 0x25 (s.ra b) false false := by
  have h0 : ¬ s.ra b = 0#64 := fun h0 => by simp [h0] at hlo
  have hgo : ¬ ((s.ra b = 0 || (s.ra b).toNat ≥ 256 : Bool) = true) := by simp [h0, hhi]
  simp only [exec, execPhErr, h]
  exact if_neg hgo

theorem exec_phErr_traps {s : State} {b : BitVec 4} (h : s.replied = none) (hbad : s.ra b = 0 ∨ 256 ≤ (s.ra b).toNat) (a : BitVec 4) :
    exec (.phErr a b) s = s.trap 0x04 := by
  simp only [exec, execPhErr, h]
  exact if_pos (by simpa using hbad)

theorem exec_phSig {s : State} (h : s.replied = none) (hopen : ∀ i e, s.cur.openDep = some (i, e) → e.kind ≠ 2) (a : BitVec 4) (sc : BitVec 2) :
    exec (.phSig a sc) s = s.phSignal (s.ra a).toNat 0x22 sc 0 false false := by
  have hcap : s.captured 2 (.signal (s.ra a) sc) = none := by
    unfold State.captured
    cases ho : s.cur.openDep with
    | none => rfl
    | some p => exact if_neg (hopen p.1 p.2 ho)
  simp only [exec, execPhSig, h, hcap]

theorem exec_phSig_captured {s : State} {i : Nat} {e : DepEnt} (h : s.replied = none) (hopen : s.cur.openDep = some (i, e)) (hkind : e.kind = 2)
    (a : BitVec 4) (sc : BitVec 2) : exec (.phSig a sc) s =
      .next (s.modCur fun t => { t with deps := smPut t.deps i { e with state := .held, step := .signal (s.ra a) sc } }).nextStep := by
  simp [exec, execPhSig, h, State.captured, hopen, hkind]

theorem exec_phSw {s : State} (h : s.replied = none) (hphase : s.cur.phase ≠ 3) (d a b : BitVec 4) (sc : BitVec 2) :
    exec (.phSw d a b sc) s = s.phSignal (s.ra a).toNat 0x24 sc ((s.ra b).setWidth 32) true true := by
  simp [exec, execPhSw, h, hphase, phaseOf]

/-- The access size of an atomic command (R242). -/
def atomSize (cmd : BitVec 8) : Nat := if cmd.toNat % 0x80 ≤ 0x0B then 8 else 4
/-- The format an atomic command travels with (R242). -/
def atomFmt (cmd : BitVec 8) : BitVec 3 := if atomSize cmd = 8 then 0 else if cmd.toNat % 0x80 = 0x0C then 2 else 3

/-- The command that an atomic step makes once it has reached its target. -/
def atomCmd (v : State) (cmd : BitVec 8) (b x : BitVec 4) (sc : BitVec 2) (w : Target) (replies : Bool) : SyncCmd :=
  v.mkCmd cmd (atomFmt cmd) sc w.flat (v.ra b) (if cmd = 0x0B then v.ra x else 0) replies

theorem exec_atom_misaligned {s : State} {cmd : BitVec 8} {a : BitVec 4} (h : s.replied = none) (hwide : cmd.toNat % 0x80 ≤ 0x0B)
    (hva : (s.ra a).toNat < 2 ^ 56) (hmis : (s.ra a).toNat % 8 ≠ 0) (d b x : BitVec 4) (sc : BitVec 2) :
    exec (.atom cmd d a b x sc) s = s.trapWith 0x22 (s.ra a).toNat := by
  have hreach : s.reach s.me s.vmid (s.ra a).toNat 8 8 .rw atomType = .fault 0x22 :=
    (if_neg (not_le.mpr hva)).trans (if_pos hmis)
  simp [exec, execAtom, h, hwide, hreach]

section
variable {s u v : State} {cmd : BitVec 8} {a b : BitVec 4} {sc : BitVec 2} {w : Target} (d x : BitVec 4) (hrep : s.replied = none)
  (hsmall : atomSize cmd = 4 → (s.ra b).toNat < 2 ^ 32)
  (hreach : s.reach s.me s.vmid (s.ra a).toNat (atomSize cmd) (atomSize cmd) .rw atomType = .ok w u) (hbuf : u.cur.sbuf = [])
  (hset : u.settled u.me u.unitNo sc true = (true, v))
include hrep hsmall hreach hbuf hset

theorem exec_atom_settled : exec (.atom cmd d a b x sc) s =
    if decide (cmd.toNat ≥ 0x80) then
      if !v.room (tileDie v.tile) (tileLocal v.tile) w.home 0 || v.rebasing then v.block false
      else (v.sendFrom v.me v.unitNo w.home (.cmd (atomCmd v cmd b x sc w (!decide (cmd.toNat ≥ 0x80))))).finish d 0
    else v.sendCmd w.home (atomCmd v cmd b x sc w (!decide (cmd.toNat ≥ 0x80))) false true := by
  by_cases hwide : cmd.toNat % 0x80 ≤ 0x0B
  · have h8 : atomSize cmd = 8 := if_pos hwide
    rw [h8] at hreach
    simp [exec, execAtom, hrep, hwide, hreach, hbuf, hset, atomCmd, atomFmt, h8]
  · have h4 : atomSize cmd = 4 := if_neg hwide
    have hlt : ¬ 4294967296 ≤ (s.ra b).toNat := not_le.mpr (hsmall h4)
    rw [h4] at hreach
    simp [exec, execAtom, hrep, hwide, hreach, hbuf, hset, atomCmd, atomFmt, h4, hlt]

end

/-- A RED form's message leaves, and the step writes 0 and goes on. -/
theorem atom_red {i : Instr} {s v : State} {die : Nat} {c : SyncCmd} (d : BitVec 4)
    (h : exec i s = (v.sendFrom v.me v.unitNo die (.cmd c)).finish d 0) :
    ∃ t m, Runs i s t ∧ t.msgs = v.msgs ++ [m] ∧ m.agent = v.me ∧ m.owner = v.unitNo ∧ m.die = die ∧ m.kind = .cmd c ∧
      t.ra d = 0 ∧ (∀ r, r ≠ d → t.ra r = v.ra r) ∧ t.cur.spc = v.cur.spc + 8 := by
  obtain ⟨m, hmsgs, hkind, hagent, howner, hdie⟩ := msgs_sendFrom v v.me v.unitNo die (.cmd c)
  refine ⟨_, m, h, ?_, hagent, howner, hdie, hkind, ?_, fun r hr => ?_, ?_⟩
  · rw [State.nextStep_msgs]
    exact hmsgs
  · exact (State.ra_nextStep _ _).trans (ra_wa_same _ d _)
  · rw [State.ra_nextStep, ra_wa_of_ne _ _ hr, State.ra, cur_sendFrom, State.ra]
  · simp [cur_sendFrom]

/-! What a step writes when its reply has come (R227, R248, R254) -/

/-- A hand-off raises LCLK, and the step writes one register and goes on. -/
theorem waits_done {i : Instr} {s : State} {d : BitVec 4} {time : BitVec 32} {v : Word} (h : exec i s = (s.handOff time).finish d v) :
    ∃ t, Runs i s t ∧ t.ra d = v ∧ (∀ q, q ≠ d → t.ra q = s.ra q) ∧ t.cur.spc = s.cur.spc + 8 ∧
      t.cur.spr = { s.cur.spr with lclk := tsMax s.cur.spr.lclk time } := by
  refine ⟨_, h, ?_, fun q hq => ?_, ?_, ?_⟩
  · exact (State.ra_nextStep _ _).trans (ra_wa_same _ d _)
  · rw [State.ra_nextStep, ra_wa_of_ne _ _ hq, ra_handOff]
  · simp [cur_handOff]
  · simp [cur_handOff]

theorem tookRecord_done {i : Instr} {s : State} {d : BitVec 4} {whw : BitVec 32} (h : exec i s = s.tookRecord d whw) :
    ∃ t, Runs i s t ∧ t.ra d = 0 ∧ (∀ q, q ≠ d → t.ra q = s.ra q) ∧ t.cur.spc = s.cur.spc + 8 ∧
      t.cur.spr = { s.cur.spr with lclk := tsMax s.cur.spr.lclk whw } := by
  refine ⟨_, h, ?_, fun q hq => ?_, ?_, ?_⟩
  · exact (State.ra_nextStep _ _).trans (ra_wa_same _ d _)
  · rw [State.ra_nextStep, ra_wa_of_ne _ _ hq, ra_handOff]
    exact ra_modCur s rfl q
  · simp [cur_handOff]
  · simp [cur_handOff]

theorem writes_of_finish {i : Instr} {s : State} {d : BitVec 4} {v : Word} (h : exec i s = s.finish d v) : ∃ t, Runs i s t ∧ Writes s t d v :=
  ⟨_, h, writes_nextStep s d v⟩

theorem goesOn_of_nextStep {i : Instr} {s : State} (h : exec i s = .next s.nextStep) : ∃ t, Runs i s t ∧ GoesOn s t :=
  ⟨_, h, goesOn_nextStep s⟩

/-- Settles O10: each step is one send of its command once what it waits for is done, and one completion once its reply has come. -/
theorem engineSteps : Obligations.EngineSteps := by
  unfold Obligations.EngineSteps
  refine ⟨fun d a s r h => writes_of_finish (by simp [exec, execQRsv, h]),
    fun d a s hrep hid hbuf => leaves_of_sendCmd (exec_qRsv_sends d hrep hid hbuf),
    fun a sc s u v w flat hrep hreach hres hra hrel => qAdd_leaves hrep hreach (hra ▸ hres) hrel,
    fun d a b s u w hrep hid hreach hra hbuf hqueue =>
      ⟨fun hrecs => leaves_of_sendCmd (exec_qTake_sends d hrep hid hreach hra hbuf hqueue hrecs), fun r more hrecs =>
        ⟨_, exec_qTake_prefetched d hrep hid hreach hra hbuf hqueue hrecs, ?_⟩⟩,
    fun a m s h => leavesPlain_of_phPlain (exec_phReg h a m), fun a s h => leavesPlain_of_phPlain (exec_phDrop h a),
    fun d a b s h => leavesPlain_of_phPlain (exec_phWait h d a b), fun a b s h hlo hhi => leavesPlain_of_phPlain (exec_phErr h hlo hhi a),
    fun a b s u w h hreach => leavesPlain_of_phPlain (exec_phRead_reached h hreach a),
    fun a sc s u v w h hopen hreach hrel =>
      leaves_of_sendCmd ((exec_phSig h hopen a sc).trans (phSignal_of_release 0 false false hreach hrel)),
    fun d a b sc s u v w h hphase hreach hrel =>
      leaves_of_sendCmd ((exec_phSw h hphase d a b sc).trans (phSignal_of_release _ true true hreach hrel)),
    fun cmd d a b x sc s u v w hrep => ?_, fun d a s h hid => ?_, fun a sc s r h => goesOn_of_nextStep (by simp [exec, execQAdd, h]),
    fun d a b s r h hline => writes_of_finish (exec_qTake_empty h hline d a b),
    fun d a b s r l h hline hphase hbuf hout => tookRecord_done (exec_qTake_landed h hline hphase hbuf hout d a b),
    fun a m s r h => goesOn_of_nextStep (by simp [exec, execPhReg, h]), fun a s r h => goesOn_of_nextStep (by simp [exec, execPhDrop, h]),
    fun a sc s r h => goesOn_of_nextStep (by simp [exec, execPhSig, h]), fun a b s r h => goesOn_of_nextStep (by simp [exec, execPhErr, h]),
    fun d a b s r h => waits_done (by simp [exec, execPhWait, h, State.waited]),
    fun d a b sc s r h => waits_done (by simp [exec, execPhSw, h, State.waited]),
    fun a b s r h hphase hbuf hout => goesOn_of_nextStep (exec_phRead_landed h hphase hbuf hout a b),
    fun cmd d a b x sc s r h => writes_of_finish (by simp [exec, execAtom, h]), fun a b s h hbad => exec_phErr_traps h hbad a,
    fun a sc s i e h hopen hkind => ⟨_, exec_phSig_captured h hopen hkind a sc, ra_modCur_nextStep s rfl, ?_, ?_, ?_⟩,
    fun cmd d a b x sc s h hwide hva hmis => exec_atom_misaligned h hwide hva hmis d b x sc, fun line s => rfl⟩
  · rw [State.cur_modCur, State.cur_modCur]
  · intro n hsmall hreach hbuf hset fmt second
    have hexec := exec_atom_settled d x hrep hsmall hreach hbuf hset
    refine ⟨fun hlow => leaves_of_sendCmd (hexec.trans ?_), fun hred hroom hreb => atom_red d (hexec.trans ?_)⟩
    · rw [if_neg (by simpa using hlow), decide_eq_false (not_le.mpr hlow)]
      rfl
    · rw [if_pos (by simpa using hred), if_neg (by simp [hroom, hreb]), decide_eq_true hred]
      rfl
  · simp only [Runs, exec, execQRsv, h]
    exact if_pos (by simp [hid])
  · simp
  · rw [cur_modCur_nextStep]
    exact smFind_smPut_same _ _ _
  · simp

end Sys2Proof.Claims

namespace Sys2Proof.Claims

open Sys2Proof.Machine

/-! Bytes of a line -/

theorem lineByte_eq (l : BitVec 512) (i : Nat) : lineByte l i = BitVec.ofNat 8 (l.toNat / 256 ^ i) := by
  apply BitVec.eq_of_toNat_eq
  rw [lineByte, BitVec.extractLsb'_toNat, BitVec.toNat_ofNat, Nat.shiftRight_eq_div_pow, pow_mul]
  norm_num

theorem div_pow_mod_add_mul {i j : Nat} (h : j < i) (lo hi : Nat) : (lo + hi * 256 ^ i) / 256 ^ j % 256 = lo / 256 ^ j % 256 := by
  obtain ⟨k, rfl⟩ := Nat.exists_eq_add_of_lt h
  rw [show hi * 256 ^ (j + k + 1) = hi * 256 ^ k * 256 * 256 ^ j by ring, Nat.add_mul_div_right _ _ (by positivity), Nat.add_mul_mod_self_right]

/-- The number whose byte `i` is `v`, and whose other bytes are those of `l`. -/
theorem put_byte (l v : Nat) {i : Nat} : l - l / 256 ^ i % 256 * 256 ^ i + v % 256 * 256 ^ i =
    (l % 256 ^ i + v % 256 * 256 ^ i) + l / 256 ^ (i + 1) * 256 ^ (i + 1) := by
  have hlow := Nat.mod_add_div l (256 ^ i)
  have hmid := Nat.mod_add_div (l / 256 ^ i) 256
  rw [Nat.div_div_eq_div_mul, ← pow_succ] at hmid
  have hsum : l = l % 256 ^ i + l / 256 ^ i % 256 * 256 ^ i + l / 256 ^ (i + 1) * 256 ^ (i + 1) := by
    calc l = l % 256 ^ i + 256 ^ i * (l / 256 ^ i) := hlow.symm
      _ = l % 256 ^ i + 256 ^ i * (l / 256 ^ i % 256 + 256 * (l / 256 ^ (i + 1))) := by rw [hmid]
      _ = _ := by ring
  omega

theorem lineMerge_byte_lt (l v : Nat) {i : Nat} (hi : i < 64) (hl : l < 2 ^ 512) : l - l / 256 ^ i % 256 * 256 ^ i + v % 256 * 256 ^ i < 2 ^ 512 := by
  rw [put_byte]
  have hlo : l % 256 ^ i < 256 ^ i := Nat.mod_lt _ (by positivity)
  have hv : v % 256 * 256 ^ i ≤ 255 * 256 ^ i := Nat.mul_le_mul_right _ (by omega)
  have hpow : 256 ^ (i + 1) * 256 ^ (63 - i) = 2 ^ 512 := by 
    rw [← pow_add, show i + 1 + (63 - i) = 64 by omega, show 256 = 2 ^ 8 from rfl, ← pow_mul]
  have hhi : l / 256 ^ (i + 1) < 256 ^ (63 - i) := Nat.div_lt_of_lt_mul (by rw [hpow]; exact hl)
  have hs : 256 ^ (i + 1) = 256 * 256 ^ i := by ring
  calc l % 256 ^ i + v % 256 * 256 ^ i + l / 256 ^ (i + 1) * 256 ^ (i + 1)
      < (l / 256 ^ (i + 1) + 1) * 256 ^ (i + 1) := by rw [Nat.add_mul, Nat.one_mul]; omega
    _ ≤ 256 ^ (63 - i) * 256 ^ (i + 1) := Nat.mul_le_mul_right _ hhi
    _ = 2 ^ 512 := by rw [mul_comm, hpow]

theorem toNat_lineMerge_byte (l : BitVec 512) (v : Nat) {i : Nat} (hi : i < 64) :
    (lineMerge l i 1 v).toNat = (l.toNat % 256 ^ i + v % 256 * 256 ^ i) + l.toNat / 256 ^ (i + 1) * 256 ^ (i + 1) := by
  have hb : lineBytes l i 1 = l.toNat / 256 ^ i % 256 := by
    rw [lineBytes, bitsOf_eq _ (n := 8) (by omega), pow_mul]
    norm_num
  have h8 : 2 ^ (8 * i) = 256 ^ i := by rw [pow_mul]; norm_num
  rw [lineMerge, hb, h8, mul_one, show (2 : Nat) ^ 8 = 256 from rfl, BitVec.toNat_ofNat, Nat.mod_eq_of_lt (lineMerge_byte_lt _ _ hi l.isLt), put_byte]

theorem lineByte_lineMerge_byte (l : BitVec 512) (v : Byte) {i : Nat} (hi : i < 64) (j : Nat) :
    lineByte (lineMerge l i 1 v.toNat) j = if j = i then v else lineByte l j := by
  have hv : v.toNat % 256 = v.toNat := Nat.mod_eq_of_lt v.isLt
  rw [lineByte_eq, toNat_lineMerge_byte _ _ hi, hv]
  apply BitVec.eq_of_toNat_eq
  rw [BitVec.toNat_ofNat]
  rcases lt_trichotomy j i with h | rfl | h
  · rw [if_neg h.ne, lineByte_eq, BitVec.toNat_ofNat, show (2 : Nat) ^ 8 = 256 from rfl, div_pow_mod_add_mul (by omega), div_pow_mod_add_mul h]
    conv_rhs => rw [← Nat.mod_add_div l.toNat (256 ^ i), mul_comm, div_pow_mod_add_mul h]
  · rw [if_pos rfl, show (2 : Nat) ^ 8 = 256 from rfl, div_pow_mod_add_mul (by omega), Nat.add_mul_div_right _ _ (by positivity),
      Nat.div_eq_of_lt (Nat.mod_lt _ (by positivity)), zero_add, hv]
  · rw [if_neg h.ne', lineByte_eq, BitVec.toNat_ofNat]
    obtain ⟨k, rfl⟩ := Nat.exists_eq_add_of_lt h
    have hlt : l.toNat % 256 ^ i + v.toNat * 256 ^ i < 256 ^ (i + 1) := by
      have h1 : l.toNat % 256 ^ i < 256 ^ i := Nat.mod_lt _ (by positivity)
      have h2 : v.toNat * 256 ^ i ≤ 255 * 256 ^ i := Nat.mul_le_mul_right _ (by have := v.isLt; omega)
      rw [pow_succ]
      omega
    rw [show i + k + 1 = (i + 1) + k by omega, pow_add 256 (i + 1) k, ← Nat.div_div_eq_div_mul, ← Nat.div_div_eq_div_mul,
      Nat.add_mul_div_right _ _ (by positivity), Nat.div_eq_of_lt hlt, zero_add]

/-! Direct targets (R60, R90, R116) -/

theorem cp_modCp (s : State) (c d : Nat) (f : CellPlane → CellPlane) : (s.modCp c f).cp d = if d = c then f (s.cp c) else s.cp d := by
  by_cases h : d = c
  · subst h
    simp
  · have hplane : (s.modCp c f).planeNo d = s.planeNo d := rfl
    rw [State.cp, hplane]
    simp [State.modCp, State.setCp, h, State.cp]

theorem laneAt_eq_some {ty : BitVec 3} {a c r i : Nat} (h : laneAt ty a = some (c, r, i)) :
    ty = 4 ∧ isVCell c = true ∧ 48 ≤ r ∧ r < 64 ∧ a = cellBase c + 64 * r + i ∧ i < 64 := by
  simp only [laneAt, Option.ite_none_right_eq_some, Bool.and_eq_true, decide_eq_true_eq, Option.some.injEq, Prod.mk.injEq] at h
  obtain ⟨⟨⟨⟨hty, hv⟩, hlo⟩, hhi⟩, rfl, rfl, rfl⟩ := h
  simp only [cellBase] at *
  exact ⟨hty, hv, by omega, by omega, by omega, by omega⟩

theorem laneAt_addr {ty : BitVec 3} {a c r i : Nat} (h : laneAt ty a = some (c, r, i)) : a = cellBase c + 64 * r + i := by
  obtain ⟨_, _, _, _, haddr, _⟩ := laneAt_eq_some h
  exact haddr

theorem directAt_of_ne (s : State) {ty : BitVec 3} (h : ty ≠ 3) (a : Nat) : s.directAt ty a = a := if_neg h

theorem directByte_of_lane {s : State} {ty : BitVec 3} {a c r i : Nat} (h : laneAt ty a = some (c, r, i)) :
    s.directByte ty a = lineByte (smGet 0 (s.cp c).lregs r) i := by simp [State.directByte, h]

theorem directByte_of_none (s : State) {ty : BitVec 3} {a : Nat} (hty : ty ≠ 3) (h : laneAt ty a = none) : s.directByte ty a = memByte s.mem a := by
  simp [State.directByte, h, directAt_of_ne s hty]

theorem directPut_of_lane {s : State} {ty : BitVec 3} {a c r i : Nat} (h : laneAt ty a = some (c, r, i)) (v : Byte) :
    s.directPut ty a v = s.modCp c fun p => { p with lregs := smPut p.lregs r (lineMerge (smGet 0 p.lregs r) i 1 v.toNat) } := by
  simp [State.directPut, h]

theorem directPut_of_none (s : State) {ty : BitVec 3} {a : Nat} (hty : ty ≠ 3) (h : laneAt ty a = none) (v : Byte) :
    s.directPut ty a v = { s with mem := memPut s.mem a v } := by
  simp [State.directPut, h, directAt_of_ne s hty]

section
variable {s : State} {ty : BitVec 3} (hty : ty ≠ 3)
include hty

theorem directPut_wf (hwf : Memory.wf s.mem = true) (a : Nat) (v : Byte) : Memory.wf (s.directPut ty a v).mem = true := by
  cases ha : laneAt ty a with
  | none =>
    rw [directPut_of_none s hty ha]
    exact memPut_wf hwf _ _
  | some p =>
    obtain ⟨c, r, i⟩ := p
    rw [directPut_of_lane ha]
    exact hwf

theorem directByte_directPut (hwf : Memory.wf s.mem = true) (a b : Nat) (v : Byte) :
    (s.directPut ty a v).directByte ty b = if b = a then v else s.directByte ty b := by
  cases ha : laneAt ty a with
  | none =>
    rw [directPut_of_none s hty ha]
    cases hb : laneAt ty b with
    | none => rw [directByte_of_none _ hty hb, directByte_of_none _ hty hb, memByte_memPut hwf]
    | some q =>
      obtain ⟨c, r, i⟩ := q
      have hne : b ≠ a := fun h => by simp [h, ha] at hb
      rw [if_neg hne, directByte_of_lane hb, directByte_of_lane hb]
      rfl
  | some p =>
    obtain ⟨c, r, i⟩ := p
    obtain ⟨_, _, _, _, haddr, hi⟩ := laneAt_eq_some ha
    rw [directPut_of_lane ha]
    cases hb : laneAt ty b with
    | none =>
      have hne : b ≠ a := fun h => by simp [h, ha] at hb
      rw [if_neg hne, directByte_of_none _ hty hb, directByte_of_none _ hty hb]
      rfl
    | some q =>
      obtain ⟨d, t, j⟩ := q
      rw [directByte_of_lane hb, directByte_of_lane hb, cp_modCp]
      by_cases hcell : d = c
      · subst hcell
        by_cases hreg : t = r
        · subst hreg
          have hbaddr := laneAt_addr hb
          simp only [if_true, smGet_smPut_same, lineByte_lineMerge_byte _ _ hi]
          exact if_congr (by omega) rfl rfl
        · have hne : b ≠ a := fun h => by rw [h, ha] at hb; simp_all
          rw [if_pos rfl, if_neg hne, smGet_smPut_of_ne _ _ _ hreg]
      · have hne : b ≠ a := fun h => by rw [h, ha] at hb; simp_all
        rw [if_neg hcell, if_neg hne]

theorem memByte_directPut_of_ne {a b : Nat} (h : b ≠ a) (v : Byte) : memByte (s.directPut ty a v).mem b = memByte s.mem b := by
  cases ha : laneAt ty a with
  | none =>
    rw [directPut_of_none s hty ha]
    exact memByte_memPut_of_ne _ _ h
  | some p =>
    obtain ⟨c, r, i⟩ := p
    rw [directPut_of_lane ha]
    rfl

end

/-- What a write of bytes at a direct target leaves alone, whatever its type. -/
theorem directPut_frame (s : State) (ty : BitVec 3) (a : Nat) (v : Byte) :
    (s.directPut ty a v).tiles = s.tiles ∧ (s.directPut ty a v).dies = s.dies ∧ (s.directPut ty a v).msgs = s.msgs ∧
      (laneAt ty a = none → (s.directPut ty a v).cells = s.cells) := by
  unfold State.directPut
  split
  case h_1 h => exact ⟨rfl, rfl, rfl, fun h0 => by simp [h0] at h⟩
  case h_2 => exact ⟨rfl, rfl, rfl, fun _ => rfl⟩

theorem directWrite_frame (s : State) (ty : BitVec 3) (a n v : Nat) :
    (s.directWrite ty a n v).tiles = s.tiles ∧ (s.directWrite ty a n v).dies = s.dies ∧ (s.directWrite ty a n v).msgs = s.msgs ∧
      ((∀ i, i < n → laneAt ty (a + i) = none) → (s.directWrite ty a n v).cells = s.cells) := by
  induction n generalizing s a v with
  | zero => exact ⟨rfl, rfl, rfl, fun _ => rfl⟩
  | succ n ih =>
    obtain ⟨htiles, hdies, hmsgs, hcells⟩ := ih (s.directPut ty a (BitVec.ofNat 8 v)) (a + 1) (v / 256)
    obtain ⟨htiles', hdies', hmsgs', hcells'⟩ := directPut_frame s ty a (BitVec.ofNat 8 v)
    refine ⟨htiles.trans htiles', hdies.trans hdies', hmsgs.trans hmsgs', fun h => (hcells fun i hi => ?_).trans (hcells' ?_)⟩
    · rw [show a + 1 + i = a + (i + 1) by omega]
      exact h (i + 1) (by omega)
    · exact h 0 (by omega)

theorem directWrite_out {ty : BitVec 3} (hty : ty ≠ 3) {s : State} (hwf : Memory.wf s.mem = true) (a n v : Nat) {b : Nat} (h : b < a ∨ a + n ≤ b) :
    (s.directWrite ty a n v).directByte ty b = s.directByte ty b ∧ memByte (s.directWrite ty a n v).mem b = memByte s.mem b := by
  induction n generalizing s a v with
  | zero => exact ⟨rfl, rfl⟩
  | succ n ih =>
    have hne : b ≠ a := by omega
    obtain ⟨hbyte, hmem⟩ := ih (directPut_wf hty hwf a (BitVec.ofNat 8 v)) (a + 1) (v / 256) (by omega)
    rw [directByte_directPut hty hwf, if_neg hne] at hbyte
    rw [memByte_directPut_of_ne hty hne] at hmem
    exact ⟨hbyte, hmem⟩

theorem directWrite_in {ty : BitVec 3} (hty : ty ≠ 3) {s : State} (hwf : Memory.wf s.mem = true) (a n v : Nat) {i : Nat} (h : i < n) :
    (s.directWrite ty a n v).directByte ty (a + i) = BitVec.ofNat 8 (v / 256 ^ i) := by
  induction n generalizing s a v i with
  | zero => omega
  | succ n ih =>
    have hwf' := directPut_wf hty hwf a (BitVec.ofNat 8 v)
    cases i with
    | zero =>
      refine (directWrite_out hty hwf' (a + 1) n (v / 256) (b := a + 0) (by omega)).1.trans ?_
      rw [directByte_directPut hty hwf, if_pos (by omega), pow_zero, Nat.div_one]
    | succ i =>
      refine (congrArg _ (show a + (i + 1) = a + 1 + i by omega)).trans ((ih hwf' (a + 1) (v / 256) (by omega)).trans ?_)
      rw [Nat.div_div_eq_div_mul, pow_succ']

theorem directRead_byte (s : State) (ty : BitVec 3) (a n : Nat) {i : Nat} (h : i < n) :
    s.directRead ty a n / 256 ^ i % 256 = (s.directByte ty (a + i)).toNat := by
  induction n generalizing a i with
  | zero => omega
  | succ n ih =>
    have hlt := (s.directByte ty a).isLt
    rw [State.directRead]
    cases i with
    | zero =>
      simp only [pow_zero, Nat.div_one, Nat.add_zero]
      omega
    | succ i =>
      rw [pow_succ', ← Nat.div_div_eq_div_mul, Nat.add_mul_div_left _ _ (by decide), Nat.div_eq_of_lt hlt, zero_add, ih _ (by omega),
        show a + 1 + i = a + (i + 1) by omega]

/-! Direct accesses (R223) -/

theorem ldOf_modLd (s : State) (a : Nat) (f : LoadSt → LoadSt) : (s.modLd a f).ldOf a = f (s.ldOf a) := by
  unfold State.modLd State.ldOf
  split
  · simp
  · split <;> simp

theorem exec_directAccess_write {k : Nat} {s : State} {m : Msg} {ty : BitVec 3} {home flat n : Nat} {d : BitVec 512} (hm : s.msgs[k]? = some m)
    (hkind : m.kind = .access ty home flat n true d) (hty : ty = 4 ∨ ty = 5) (hturn : s.directTurn k m = true) :
    exec (.directAccess k) s = .next ((s.dropMsg k).directWrite ty flat n d.toNat) := by
  rcases hty with rfl | rfl <;> simp [exec, execDirectAccess, hm, hkind, MsgKind.direct?, hturn, State.targetWrite]

theorem exec_directAccess_read {k : Nat} {s : State} {m : Msg} {ty : BitVec 3} {home flat n : Nat} {d : BitVec 512} (hm : s.msgs[k]? = some m)
    (hkind : m.kind = .access ty home flat n false d) (hty : ty = 4 ∨ ty = 5) (hturn : s.directTurn k m = true)
    (hback : replyDie m.die m.agent = m.die) :
    exec (.directAccess k) s = .next ((s.dropMsg k).giveBytes m.agent flat (s.directRead ty flat n)) := by
  rcases hty with rfl | rfl <;> simp [exec, execDirectAccess, hm, hkind, MsgKind.direct?, hturn, State.targetRead, hback]

theorem cvst_mask (v : BitVec 32) : BitVec.ofNat 32 (v.toNat % 8) = v &&& 7 := by
  apply BitVec.eq_of_toNat_eq
  have h : v.toNat % 8 < 2 ^ 32 := by omega
  rw [BitVec.toNat_ofNat, Nat.mod_eq_of_lt h, BitVec.toNat_and]
  exact (Nat.and_two_pow_sub_one_eq_mod v.toNat 3).symm

/-- Settles O33: a direct access is one write or read of bytes at its target, and a byte written is the byte read back. -/
theorem directAccesses : Obligations.DirectAccesses := by
  unfold Obligations.DirectAccesses
  refine ⟨fun k s m ty home flat n d hm hkind hty hturn hwf => ?_, fun k s m ty home flat n d hm hkind hty hturn hback => ?_,
    fun s ty flat n i h => directRead_byte s ty flat n h, fun s ty a hty h => directByte_of_none s hty h, fun s a c r i h => ?_,
    fun cell v s => ⟨_, rfl, ?_, rfl, rfl⟩⟩
  · have h3 : ty ≠ 3 := by rcases hty with rfl | rfl <;> decide
    have hwf' : Memory.wf (s.dropMsg k).mem = true := hwf
    obtain ⟨htiles, hdies, hmsgs, hcells⟩ := directWrite_frame (s.dropMsg k) ty flat n d.toNat
    exact ⟨_, exec_directAccess_write hm hkind hty hturn, hmsgs, fun i hi => directWrite_in h3 hwf' flat n d.toNat hi,
      fun a ha => directWrite_out h3 hwf' flat n d.toNat ha, htiles, hdies, hcells⟩
  · have hld : ((s.dropMsg k).giveBytes m.agent flat (s.directRead ty flat n)).ldOf m.agent = { (s.dropMsg k).ldOf m.agent with
        lines := smPut ((s.dropMsg k).ldOf m.agent).lines flat (BitVec.ofNat 512 (s.directRead ty flat n)), waiting := false } := ldOf_modLd _ _ _
    refine ⟨_, exec_directAccess_read hm hkind hty hturn hback, ?_, fun a => ?_, ?_, ?_⟩
    · exact State.modLd_msgs _ _ _
    · rw [State.giveBytes, State.modLd_mem]
      rfl
    · rw [hld]
      exact smFind_smPut_same _ _ _
    · rw [hld]
  · obtain ⟨_, hv, hlo, hhi, haddr, hi⟩ := laneAt_eq_some h
    exact ⟨directByte_of_lane h, hv, hlo, hhi, haddr, hi⟩
  · rw [State.cvst_cvstClear, cvst_mask]

end Sys2Proof.Claims

namespace Sys2Proof.Claims

open Sys2Proof.Machine

/-! The dependence table's events (R77, R78) -/

section
variable {s : State} {tile u e : Nat} {l : Launch} {x : DepEnt} (h : DepDue s tile u l e x)
include h

theorem exec_depIssue_bad {c : Cmd} {p t cause : Nat} (hstep : x.step = .stream c p t) (hbad : c.bad t = some cause) :
    exec (.depIssue tile) s = .next (s.faultLaunch u cause tile 0) := by
  obtain ⟨howner, hl, hissues, hlead, holdest⟩ := h
  simp [exec, execDepIssue, howner, hl, hissues, hlead, holdest, hstep, hbad]

theorem exec_depIssue_stream {c : Cmd} {p t : Nat} (hstep : x.step = .stream c p t) (hbad : c.bad t = none) :
    exec (.depIssue tile) s = .next ((s.depStream tile e l x c p t).touch u) := by
  obtain ⟨howner, hl, hissues, hlead, holdest⟩ := h
  simp [exec, execDepIssue, howner, hl, hissues, hlead, holdest, hstep, hbad]

theorem exec_depIssue_run {idx : BitVec 8} (hstep : x.step = .run idx) : exec (.depIssue tile) s = .next ((s.depRun tile e l x idx).touch u) := by
  obtain ⟨howner, hl, hissues, hlead, holdest⟩ := h
  simp [exec, execDepIssue, howner, hl, hissues, hlead, holdest, hstep]

theorem exec_depIssue_signal {va : Word} {sc : BitVec 2} (hstep : x.step = .signal va sc) :
    exec (.depIssue tile) s = .next ((s.depSignal tile e l x va sc).2.touch u) := by
  obtain ⟨howner, hl, hissues, hlead, holdest⟩ := h
  simp [exec, execDepIssue, howner, hl, hissues, hlead, holdest, hstep]

end

theorem exec_depIssue_none {s : State} {tile u : Nat} {l : Launch} (howner : s.owner? tile = some u) (hl : s.launch? u = some l)
    (hissues : l.issues = true) (hlead : l.region.head? = some tile)
    (hnone : ∀ f ∈ (s.getTile tile).deps, s.depCan tile l ((s.getTile tile).deps.any fun f => f.2.rearmed) f.1 f.2 = false) :
    exec (.depIssue tile) s = .next (s.depAsk tile l) := by
  have hfilter : (s.getTile tile).deps.filter (fun f => s.depCan tile l ((s.getTile tile).deps.any fun f => f.2.rearmed) f.1 f.2) = [] :=
    List.filter_eq_nil_iff.mpr fun f hf => by simp [hnone f hf]
  simp [exec, execDepIssue, howner, hl, hissues, hlead, hfilter, oldestDep]

section
variable {s : State} {tile u e : Nat} {l : Launch} {idx : BitVec 8} {cfg : ConfigImg} (x : DepEnt) (howner : s.owner? tile = some u)
  (hcfg : s.config? l idx.toNat = some cfg)
include howner hcfg

theorem depRun_active (h : l.activeCfg = some idx.toNat) :
    s.depRun tile e l x idx = (l.region.foldl (fun s t => s.raiseLclk t x.before) (s.startRun u)).setDep tile e
      { x with state := .issued, run := (l.region.foldl (fun s t => s.raiseLclk t x.before) (s.startRun u)).runOf u, rearmed := false } := by
  simp [State.depRun, howner, hcfg, h]

theorem depRun_other (h : l.activeCfg ≠ some idx.toNat) : s.depRun tile e l x idx = s.faultLaunch u 0x65 tile 0 := by
  simp [State.depRun, howner, hcfg, h]

end

/-! A stream entry joins its queue (R69, R77) -/

theorem getTile_setDep (s : State) (tile e : Nat) (x : DepEnt) (k : Nat) :
    (s.setDep tile e x).getTile k = if k = tile then { s.getTile tile with deps := smPut (s.getTile tile).deps e x } else s.getTile k :=
  State.getTile_modTile _ _ _ _

theorem port_setDep (s : State) (tile e : Nat) (x : DepEnt) (k q : Nat) : ((s.setDep tile e x).getTile k).port q = (s.getTile k).port q := by
  rw [getTile_setDep]
  by_cases h : k = tile
  · rw [if_pos h, h]
    rfl
  · rw [if_neg h]

theorem port_enqueue (s : State) (tile p : Nat) (c : Cmd) :
    (((s.enqueue tile p c).getTile tile).port p).entries = ((s.getTile tile).port p).entries ++ [.cmd { c with issue := s.stamp }] := by
  rw [getTile_enqueue, if_pos rfl, port_setPort, if_pos rfl]

theorem depStream_queues (s : State) (tile e : Nat) (l : Launch) (x : DepEnt) (c : Cmd) (p t u : Nat) :
    let n := (s.depStream tile e l x c p t).touch u
    smFind (n.getTile tile).deps e = some { x with state := .issued, rearmed := false } ∧
      ((n.getTile t).port p).entries.length = ((s.getTile t).port p).entries.length + 1 ∧ (∀ a, memByte n.mem a = memByte s.mem a) := by
  intro n
  refine ⟨?_, ?_, fun a => ?_⟩
  · rw [State.getTile_touch, State.depStream, getTile_setDep, if_pos rfl]
    exact smFind_smPut_same _ _ _
  · rw [State.getTile_touch, State.depStream, port_setDep, port_enqueue, List.length_append]
    rfl
  · rw [State.touch_mem]
    rfl

/-! An entry that has performed (R77, R229, R357) -/

section
variable {s : State} {tile e u : Nat} {l : Launch} {x : DepEnt} (hx : smFind (s.getTile tile).deps e = some x) (howner : s.owner? tile = some u)
  (hl : s.launch? u = some l) (hstate : x.state = .issued)
include hx howner hl hstate

theorem exec_depPerformed_stream {c : Cmd} {p t : Nat} (hstep : x.step = .stream c p t) (hperf : x.performed = true)
    (hflows : s.flowsAcked l.region false = true) : exec (.depPerformed tile e) s = .next (s.modTile tile fun y => y.depDoneAt e x x.hw) := by
  simp [exec, execDepPerformed, hx, howner, hl, hstate, hstep, hperf, hflows]

theorem exec_depPerformed_signal {va : Word} {sc : BitVec 2} (hstep : x.step = .signal va sc) (hperf : x.performed = true) :
    exec (.depPerformed tile e) s = .next (s.modTile tile fun y => y.depDoneAt e x x.hw) := by
  simp [exec, execDepPerformed, hx, howner, hl, hstate, hstep, hperf]

theorem exec_depPerformed_run {idx : BitVec 8} (hstep : x.step = .run idx) (hlives : l.runLives x.run = false)
    (hsettled : s.runSettled u l x.run = true) : exec (.depPerformed tile e) s =
      .next ((s.modTile tile fun y => y.depDoneAt e x (smGet 0 l.runHis x.run)).modLaunch u fun l => { l with runHis := smDel l.runHis x.run }) := by
  simp [exec, execDepPerformed, hx, howner, hl, hstate, hstep, hlives, hsettled]

end

theorem deps_depDoneAt_one (t : Tile) {i j : Nat} {e f : DepEnt} (hw : BitVec 32) (hsucc : e.succ = [j]) (hne : i ≠ j)
    (hf : smFind t.deps j = some f) :
    (t.depDoneAt i e hw).deps = smPut (smPut t.deps i { e with state := .done, hw := hw }) j (f.met (tsMax hw e.before)) := by
  have hf' (g : DepEnt) : smFind (smPut t.deps i g) j = some f := (smFind_smPut_of_ne _ g hne.symm).trans hf
  unfold Tile.depDoneAt
  simp only [hsucc, List.foldl_cons, List.foldl_nil, hf']

/-- Settles O20: the oldest entry that can issue does what its kind says, and a performed entry hands what it wrote to its successors. -/
theorem dependenceEvents : Obligations.DependenceEvents := by
  unfold Obligations.DependenceEvents
  refine ⟨fun tile s u l e x c p t h hstep => ⟨fun hbad => ⟨_, exec_depIssue_stream h hstep hbad, depStream_queues s tile e l x c p t u⟩,
      fun cause hbad => exec_depIssue_bad h hstep hbad⟩,
    fun tile s u l e x idx cfg h hstep hcfg => ⟨fun hact => ?_, fun hact => ?_⟩,
    fun tile s u l e x va sc h hstep => exec_depIssue_signal h hstep,
    fun tile s u l howner hl hissues hlead hnone => exec_depIssue_none howner hl hissues hlead hnone,
    fun tile e s u l x hx howner hl hstate =>
      ⟨fun c p t hstep hperf hflows => exec_depPerformed_stream hx howner hl hstate hstep hperf hflows,
        fun va sc hstep hperf => exec_depPerformed_signal hx howner hl hstate hstep hperf,
        fun idx hstep hlives hsettled => exec_depPerformed_run hx howner hl hstate hstep hlives hsettled⟩,
    fun t i e hw j f hsucc hne hf => ?_⟩
  · have howner := h.1
    rw [Runs, exec_depIssue_run h hstep, depRun_active x howner hcfg hact]
  · have howner := h.1
    rw [Runs, exec_depIssue_run h hstep, depRun_other x howner hcfg hact]
  · rw [deps_depDoneAt_one t hw hsucc hne hf]
    refine ⟨?_, _, smFind_smPut_same _ _ _, rfl, rfl, rfl, fun c p k hstep => ?_⟩
    · rw [smFind_smPut_of_ne _ _ hne, smFind_smPut_same]
    · rw [DepEnt.met, hstep]

end Sys2Proof.Claims

namespace Sys2Proof.Claims

open Sys2Proof.Machine

/-! The run's end and the drain's first pass (R65, R170) -/

theorem exec_runEnd {u : Nat} {s : State} {l : Launch} (hl : s.launch? u = some l) (hrun : l.run = true) (hgoes : l.goes = true)
    (hstage : l.callStage = 0) (hcmds : ∀ c ∈ s.cmdsOf u, (c.bound && c.awake l) = false) (hquiet : s.regionQuiet l = true) :
    exec (.runEnd u) s = .next (s.modLaunch u fun l => { l with run := false }) := by
  have hany : (s.cmdsOf u).any (fun c => c.bound && c.awake l) = false := List.any_eq_false.mpr fun c hc => by simp [hcmds c hc]
  simp only [exec, execRunEnd, hl]
  exact if_pos (by simp only [hrun, hgoes, hstage, hany, hquiet]; rfl)

theorem exec_drainPassStart {u n : Nat} {s : State} {l : Launch} {why : DrainWhy} (hl : s.launch? u = some l)
    (hdrain : l.drain = some ⟨why, false, false, n⟩) (hgoes : l.goes = true) : exec (.drainPassStart u) s =
      .next (((l.cells.foldl (beatAtSource l) s).modDrain u fun d => { d with started := true }).touch u) := by
  simp only [exec, execDrainPassStart, hl, hdrain]
  exact if_neg (by simp [hgoes])

/-! A beat at a stage (R171) -/

theorem not_beat_of_data {h : Head} (hb : h.beat = true) : h.data = false := by
  cases h with
  | flit x => simpa [Head.beat, Head.data] using hb
  | wait => rfl
  | none => rfl

section
variable {c n u : Nat} {s : State} {l : Launch} (hunit : s.cellUnit c = u) (hl : s.launch? u = some l) (hdrain : l.drain.isSome = true)
  (hgoes : s.cellGoes c = true) (hcell : isVCell c = true) (hlo : 1 ≤ n) (hhi : n ≤ 6) (hop : (stageF ((s.cp c).stage 2)).op < 0xE0)

include hunit hl hdrain hgoes hhi in
theorem exec_drainBeat_stage : exec (.drainBeat c n) s = s.drainStage u c n l.halted := by
  have hnone : l.drain.isNone = false := by simpa using hdrain
  subst hunit
  simp [exec, execDrainBeat, hl, hnone, hgoes, hhi]

include hcell hlo hhi hop

theorem drainStage_open : (!isVCell c || decide (n < 1) || decide (n > 6) ||
    (decide ((stageF ((s.cp c).stage 2)).op ≥ 0xE0) && (n == 3 || n == 4))) = false := by
  simp [hcell, hhi, hop, Nat.pos_iff_ne_zero.mp hlo]

theorem drainStage_starved {halted : Bool} {t : State} (u : Nat)
    (h : ((s.cp c).stageFields n).streams.findSome? (s.starved c n) = some t) : s.drainStage u c n halted = .next ((t.orphan u 1).touch u) := by
  simp only [State.drainStage, drainStage_open hcell hlo hhi hop, h]
  rfl

theorem drainStage_orphan {halted : Bool} {x : Bool × Nat} (u : Nat) (hfed : ((s.cp c).stageFields n).streams.findSome? (s.starved c n) = none)
    (hdata : ((s.cp c).stageFields n).streams.find? (fun x => (s.drainHead c n x).data) = some x)
    (h : (((s.cp c).stageFields n).streams.any (fun x => (s.drainHead c n x).beat) || halted) = true) :
    s.drainStage u c n halted = .next (((s.pop c n x.1).orphan u 1).touch u) := by
  simp only [State.drainStage, drainStage_open hcell hlo hhi hop, hfed, hdata]
  exact if_pos h

end

theorem drainStage_beat {c n u : Nat} {s : State} {halted : Bool} (hcell : isVCell c = true) (hlo : 1 ≤ n) (hhi : n ≤ 6)
    (hop : (stageF ((s.cp c).stage 2)).op < 0xE0) (hstreams : ((s.cp c).stageFields n).streams = [(false, 1)])
    (hhead : s.drainHead c n (false, 1) = .flit beatFlit) (hfed : s.starved c n (false, 1) = none) (hfree : (s.cp c).dstFree n = true)
    (hpend : smGet [] (s.cp c).pend n = []) (hbank : n = 2 → (s.cp c).bank = none) :
    s.drainStage u c n halted =
      let side := ((s.clearOuts c n).2.popRaw c n 1 ((s.cp c).stageFields n).k).dropSide c n [(false, 1)]
      let part := side.2.clearPart c n
      .next (((part.2.2.emitOuts c n (part.2.1 ++ [(beatFlit, 0)])).orphan u (side.1 + part.1)).touch u) := by
  have hheld : (n == 2 && (s.cp c).bank.isSome) = false := by
    by_cases h : n = 2
    · simp [hbank h]
    · simp [h]
  have houts : (s.clearOuts c n).1 = 0 := by simp [State.clearOuts, hpend, hheld]
  have hk : (((s.clearOuts c n).2.cp c).stageFields n).k = ((s.cp c).stageFields n).k := by
    rw [State.clearOuts, State.cp_modCp_same]
    rfl
  have hbeat : (Head.flit beatFlit).beat = true := rfl
  have hdata : (Head.flit beatFlit).data = false := rfl
  simp only [State.drainStage, drainStage_open hcell hlo hhi hop, hstreams, List.findSome?_cons, List.findSome?_nil, hfed, List.find?_cons,
    List.find?_nil, List.any_cons, List.any_nil, List.foldl_cons, List.foldl_nil, hhead, hbeat, hdata, hpend, hheld, hfree]
  simp [State.popBeat, hk, houts]

/-! Settling and completion (R172, R173) -/

theorem exec_settle_begins {u n : Nat} {s : State} {l : Launch} {why : DrainWhy} (hl : s.launch? u = some l)
    (hdrain : l.drain = some ⟨why, true, false, n⟩) (hgoes : l.goes = true) (hbeats : s.beatsIn l = false) :
    exec (.tokenFabricSettle u) s = .next (s.modLaunch u fun l => { l with still := 0, drain := some ⟨why, true, true, n⟩ }) := by
  simp [exec, execTokenFabricSettle, hl, hdrain, hgoes, hbeats]

theorem exec_settle {u n : Nat} {s : State} {l : Launch} {why : DrainWhy} (hl : s.launch? u = some l)
    (hdrain : l.drain = some ⟨why, true, true, n⟩) (hgoes : l.goes = true) (hdue : s.tokensIn l = false ∨ 256 ≤ l.still) :
    exec (.tokenFabricSettle u) s = .next ((s.settle l).2.2.modDrain u fun d =>
      if (s.settle l).2.1 then { d with orphans := d.orphans + (s.settle l).1, settling := false }
      else { d with orphans := d.orphans + (s.settle l).1, started := false }) := by
  have hgo : ¬ ((s.tokensIn l && decide (l.still < 256)) = true) := by
    rcases hdue with h | h
    · simp [h]
    · simp [Nat.not_lt.mpr h]
  simp only [exec, execTokenFabricSettle, hl, hdrain, hgoes]
  exact if_neg hgo

theorem exec_drainComplete {u n : Nat} {s : State} {l : Launch} {why : DrainWhy} (hl : s.launch? u = some l)
    (hdrain : l.drain = some ⟨why, false, true, n⟩) : exec (.drainComplete u) s =
      .next (((s.emptyRegion l).drainEvent u n).modLaunch u fun l => l.drainedBy ⟨why, false, true, n⟩) := by
  simp [exec, execDrainComplete, hl, hdrain]

/-- Emptying a region leaves a part of the state alone that neither the cells nor the memory hold. -/
theorem emptyRegion_frame {β : Type} (g : State → β) (hcell : ∀ s c f, g (State.modCell s c f) = g s)
    (hmem : ∀ (s : State) m, g { s with mem := m } = g s) (s : State) (l : Launch) : g (s.emptyRegion l) = g s := by
  unfold State.emptyRegion
  refine foldl_frame g _ (fun s c => ?_) _ _
  split
  · split
    · dsimp only
      split
      · exact (hmem _ _).trans (hcell _ _ _)
      · exact hcell _ _ _
    · rfl
  · rfl

theorem vault_vault_of_ne (s : State) {d e : Nat} (x : VEvent) (h : e ≠ d) : ((s.vault d x).getDie e).vault = (s.getDie e).vault := by
  unfold State.vault
  dsimp only
  split
  · rfl
  · simp [State.setReg, h]

theorem launch?_vaultUnit (s : State) (u k c d v : Nat) : (s.vaultUnit u k c d).launch? v = s.launch? v := by simp [State.launch?]

theorem launch?_drainEvent (s : State) (u n v : Nat) : (s.drainEvent u n).launch? v = s.launch? v := by
  unfold State.drainEvent
  split
  · rfl
  · exact launch?_vaultUnit ..

/-- A drain's event stands in the Vault of the die of its region alone, and only where a flit or token was an orphan. -/
theorem vault_drainEvent {s : State} {u n d : Nat} {l : Launch} (hl : s.launch? u = some l)
    (h : d ≠ tileDie (l.region.headD (l.die * 100)) ∨ n = 0) : ((s.drainEvent u n).getDie d).vault = (s.getDie d).vault := by
  unfold State.drainEvent
  split
  · rfl
  · next hn =>
    simp only [State.vaultUnit, hl]
    exact vault_vault_of_ne s _ (h.resolve_right hn)

theorem drainEvent_homeTs (s : State) (u n : Nat) : (s.drainEvent u n).homeTs = s.homeTs := by
  unfold State.drainEvent
  split <;> simp

theorem drainEvent_msgs (s : State) (u n : Nat) : (s.drainEvent u n).msgs = s.msgs := by
  unfold State.drainEvent
  split <;> simp

theorem drainEvent_net (s : State) (u n : Nat) : (s.drainEvent u n).net = s.net := by
  unfold State.drainEvent
  split <;> simp

/-- The launch that a completed drain leaves, by its reason (R170, R172). -/
theorem drainedBy_spec (l : Launch) (why : DrainWhy) (n : Nat) :
    let m := l.drainedBy ⟨why, false, true, n⟩
    m.drain = none ∧ m.drained = true ∧
      (why = .step ∨ why = .host ∨ why = .preempt → m.kept = some (min (l.kept.getD 0 + n) (2 ^ 32 - 1))) ∧
      (why = .stop ∨ why = .cancel → m.kept = l.kept) ∧ (why = .host → m.run = false) := by
  cases why <;> simp [Launch.drainedBy, keepOrphans]

/-- Settles O38: each event of a drain is one branch of its step, and completion leaves what the drain's reason says. -/
theorem drainsComplete : Obligations.DrainsComplete := by
  unfold Obligations.DrainsComplete
  refine ⟨fun u s l hl hrun hgoes hstage hcmds hquiet => exec_runEnd hl hrun hgoes hstage hcmds hquiet,
    fun u s l why n hl hdrain hgoes => exec_drainPassStart hl hdrain hgoes,
    fun s l c => ⟨fun h => by simp [beatAtSource, h], fun x h => by simp [beatAtSource, h]⟩,
    fun c s u l n k hunit hl hdrain hgoes hcell hlo hhi hop hstreams hk hhead hfed hfree hpend hbank => ?_,
    fun c s u l n k t hunit hl hdrain hgoes hcell hlo hhi hop hstreams hfed => ?_,
    fun c s u l n k x hunit hl hdrain hgoes hcell hlo hhi hop hstreams hfed hhalted hhead hx => ?_,
    fun c s u l n a b x hunit hl hdrain hgoes hcell hlo hhi hop hstreams hbeat hhead hx hfeda hfedb => ?_,
    fun u s l why n hl hdrain hgoes hbeats => exec_settle_begins hl hdrain hgoes hbeats,
    fun u s l why n hl hdrain hgoes hdue => exec_settle hl hdrain hgoes hdue,
    fun u s l why n hl hdrain => ?_, fun p => ?_⟩
  · subst hk
    exact (exec_drainBeat_stage hunit hl hdrain hgoes hhi).trans (drainStage_beat hcell hlo hhi hop hstreams hhead hfed hfree hpend hbank)
  · exact (exec_drainBeat_stage hunit hl hdrain hgoes hhi).trans (drainStage_starved hcell hlo hhi hop u (by simp [hstreams, hfed]))
  · have hdata : (Head.flit x).data = true := by simp [Head.data, hx]
    exact (exec_drainBeat_stage hunit hl hdrain hgoes hhi).trans
      (drainStage_orphan hcell hlo hhi hop (x := (false, k)) u (by simp [hstreams, hfed]) (by simp [hstreams, hhead, hdata]) (by simp [hhalted]))
  · have hdata : (Head.flit x).data = true := by simp [Head.data, hx]
    exact (exec_drainBeat_stage hunit hl hdrain hgoes hhi).trans
      (drainStage_orphan hcell hlo hhi hop (x := (true, b)) u (by simp [hstreams, hfeda, hfedb])
        (by simp [hstreams, not_beat_of_data hbeat, hhead, hdata]) (by simp [hstreams, hbeat]))
  · have hl' : (s.emptyRegion l).launch? u = some l :=
      (emptyRegion_frame (fun s => s.launch? u) (fun _ _ _ => rfl) (fun _ _ => rfl) s l).trans hl
    obtain ⟨hnone, hdrained, hkept, hstop, hhost⟩ := drainedBy_spec l why n
    refine ⟨_, _, exec_drainComplete hl hdrain, ?_, hnone, hdrained, hkept, hstop, hhost, fun d k hd => ?_, ?_, ?_, ?_⟩
    · rw [State.launch?_modLaunch_same, launch?_drainEvent, hl']
      rfl
    · have hdie : ((s.emptyRegion l).getDie d).vault = (s.getDie d).vault :=
        emptyRegion_frame (fun s => (s.getDie d).vault) (fun _ _ _ => rfl) (fun _ _ => rfl) s l
      rw [State.getDie, State.modLaunch_dies, ← State.getDie, vault_drainEvent hl' hd, hdie]
    · rw [State.modLaunch_homeTs, drainEvent_homeTs]
      exact emptyRegion_frame State.homeTs (fun _ _ _ => rfl) (fun _ _ => rfl) s l
    · rw [State.modLaunch_msgs, drainEvent_msgs]
      exact emptyRegion_frame State.msgs (fun _ _ _ => rfl) (fun _ _ => rfl) s l
    · rw [State.modLaunch_net, drainEvent_net]
      exact emptyRegion_frame State.net (fun _ _ _ => rfl) (fun _ _ => rfl) s l
  · simp [CellPlane.emptied]

end Sys2Proof.Claims

namespace Sys2Proof.Claims

open Sys2Proof.Machine

/-! A fill whose piece is written, where a port has two queues (R70, R336) -/

/-- What a step does for a fill once its piece is written: it measures the command that the launch has at the port by the length of the piece of
the command that the port itself holds first. -/
theorem exec_fill_written {tile p : Nat} {s : State} {c : Cmd} {l : Launch} (h : EngineDue s tile p c l) (hop : c.op = 4)
    (hpart : nextPart (run64 (c.d.toNat + c.pos) c.piece.2) c.done = none) : exec (.streamLineAccess tile p) s =
      .next (s.modHead tile p c.owner fun x => if x.t.toNat ≤ x.pos + c.piece.2 then x.finished else x.nextPiece (x.pos + c.piece.2)) := by
  obtain ⟨hcmd, hl, hp, hbegun, hcut, hsusp, hreading, hruns, hended⟩ := h
  simp [exec, execStreamLineAccess, hcmd, hl, hp, hbegun, hcut, hsusp, hreading, hruns, Cmd.bound, hop, State.fillAccess, hpart]

/-- A begun fill of unit 1. -/
def fillOf (bytes : Word) : Cmd := { Cmd.new 4 Pattern.none 0 0 bytes 0 0 false 0 1 0 none 0 with begun := true }

/-- Unit 1 runs on tile 0. -/
def fillUnit : Launch := { Launch.blank with st := .running, region := [0] }

/-- Port 0 of tile 0 has two queues that unit 1's commands head: its own holds a fill of nothing, the one a service unit's victim keeps a fill of 64
bytes. -/
def twoQueues : State :=
  { State.reset with
    launches := [(1, fillUnit)]
    tiles := [(0, { Tile.reset with
      owner := some 1
      ports := [(0, { PortQ.reset with entries := [.cmd (fillOf 0)] }), (4, { PortQ.reset with entries := [.cmd (fillOf 64)] })] })] }

theorem twoQueues_due : EngineDue twoQueues 0 0 (fillOf 0) fillUnit := by
  refine ⟨rfl, rfl, by decide, rfl, rfl, rfl, rfl, by decide, by decide⟩

/-- Whether the victim's command at port 0 of tile 0 has nothing left to move. -/
def victimCut (s : State) : Option Bool := ((s.getTile 0).port 4).cmd?.map Cmd.cut

/-- Refutes O32: its clause on a fill's written piece takes the length of the piece from the command that is changed, the step from the command at
the port. In `twoQueues` these differ: the step leaves the victim's fill of 64 bytes with all to do, where the clause has it finished. -/
theorem not_streamEngines : ¬ Obligations.StreamEngines := by
  unfold Obligations.StreamEngines
  rintro ⟨-, -, -, -, -, -, -, hwritten, -⟩
  have hpart : nextPart (run64 ((fillOf 0).d.toNat + (fillOf 0).pos) (fillOf 0).piece.2) (fillOf 0).done = none := by decide
  have hclause := hwritten 0 0 twoQueues (fillOf 0) fillUnit twoQueues_due rfl hpart
  rw [Runs, exec_fill_written twoQueues_due rfl hpart, Host.Outcome.next.injEq] at hclause
  exact absurd (congrArg victimCut hclause) (by decide)

end Sys2Proof.Claims

/-! The local and global memory of handlers (R118, R142, R153, R154). -/

namespace Sys2Proof.Machine

open Sys2Proof.Claims

/-! Handler words that issue (R34, R139, R143) -/

theorem launch?_touchCell (s : State) (c u : Nat) :
    (s.touchCell c).launch? u = (s.launch? u).map fun l => if s.owner? (cellTile c) = some u then { l with active := true } else l := by
  unfold State.touchCell
  cases s.owner? (cellTile c) with
  | none => simp
  | some v => simp [launch?_touch, eq_comm]

theorem getCell_touchCell (s : State) (c d : Nat) : (s.touchCell c).getCell d = s.getCell d := by
  simp [State.getCell]

/-- A word that has issued changes its own cell's block and load state, and the activity mark of its launch. -/
theorem wordDone_goesOn (s : State) (n : Nat) (b : Block) : ∃ t, s.wordDone n b = .next t ∧ BlockGoesOn s t n b := by
  refine ⟨_, rfl, ?_, ?_, ?_, ?_, ?_, ?_, ?_, ?_, ?_, fun c hc => ?_, ?_, fun u => ?_⟩
  case refine_10 => simp [getCell_touchCell, hc]
  case refine_11 => simp [getCell_touchCell]
  case refine_12 => exact launch?_touchCell _ s.cell u
  all_goals simp

theorem word_of_guard {s : State} {g : BitVec 4} (hg : guardTrue s.blk g = true) (n : Nat) (go : Block → Out) :
    s.word g n go = go s.blk := if_pos hg

/-- An instruction that runs as a word is passed where its guard is false. -/
theorem guarded_of_word {i : Instr} {g : BitVec 4} {n : Nat} {go : State → Block → Out} (hexec : ∀ s, exec i s = s.word g n (go s)) :
    Guarded i g n := by
  intro s hg
  obtain ⟨t, hdone, hgoes⟩ := wordDone_goesOn s n s.blk
  exact ⟨t, by rw [Runs, hexec, State.word, hg, if_neg Bool.false_ne_true, hdone], hgoes⟩

/-- The address of an access is its base and the signed offset, counted in accesses. -/
theorem hAddr_eq (x : TVal) (off : BitVec 11) (n : Nat) : hAddr x off n = (x.data + BitVec.ofInt 64 (n * off.toInt)).toNat := by
  rw [hAddr, sx11, BitVec.signExtend, BitVec.ofInt_mul, BitVec.ofInt_natCast]

/-! Local memory (R118, R153) -/

theorem localFault_of_misaligned {p n : Nat} (h : p % n ≠ 0) (last : Nat) : localFault p n last = some 0x22 := if_pos h

theorem localFault_of_outside {p n last : Nat} (halign : p % n = 0) (h : p < 0x4000 ∨ last < p + n - 1) : localFault p n last = some 0x26 := by
  rw [localFault, if_neg (not_not.2 halign), if_pos (by simpa using h)]

theorem localFault_of_inside {p n last : Nat} (halign : p % n = 0) (hlo : 0x4000 ≤ p) (hhi : p + n - 1 ≤ last) : localFault p n last = none := by
  rw [localFault, if_neg (not_not.2 halign), if_neg (by simp; omega)]

/-- A block's store of `n` bytes reads back byte by byte, and leaves every other byte. -/
theorem smFind_putLocal (m : SMap Byte) (p n v b : Nat) :
    smFind (putLocal m p n v) b = if p ≤ b ∧ b < p + n then some (BitVec.ofNat 8 (v / 256 ^ (b - p))) else smFind m b := by
  induction n generalizing m p v with
  | zero => rw [if_neg (by omega), putLocal]
  | succ n ih =>
    rw [putLocal, ih]
    rcases Nat.lt_trichotomy b p with h | rfl | h
    · rw [if_neg (by omega), if_neg (by omega), smFind_smPut_of_ne _ _ (by omega)]
    · rw [if_neg (by omega), if_pos (by omega), smFind_smPut_same, Nat.sub_self, pow_zero, Nat.div_one]
    · have hstep : v / 256 / 256 ^ (b - (p + 1)) = v / 256 ^ (b - p) := by
        rw [Nat.div_div_eq_div_mul, ← pow_succ', show b - (p + 1) + 1 = b - p by omega]
      rw [hstep, smFind_smPut_of_ne _ _ (by omega)]
      exact if_congr (by omega) rfl rfl

/-! Global memory (R154, R205, R208) -/

/-- A misaligned address of an access is refused before it is translated (R208). -/
theorem reach_of_misaligned (s : State) {va align : Nat} (hva : va < 2 ^ 56) (h : va % align ≠ 0) (a : Nat) (vmid : BitVec 16) (n : Nat)
    (need : Need) (types : BitVec 3 → Option Nat) : s.reach a vmid va n align need types = .fault 0x22 := by
  rw [State.reach, if_neg (by omega), if_pos h]

/-- A translation leaves its accessor's state, but for the order of the translation cache of its tile (R205). -/
theorem translate_ok {s u : State} {a va : Nat} {vmid : BitVec 16} {pte : Word} {size : BitVec 2} (h : s.translate a vmid va = .ok pte size u) :
    u = s ∨ ∃ e, u = s.modTile (agentTile a) fun t => tlbUse t e := by
  unfold State.translate at h
  split at h
  case h_1 => exact .inl (XOut.ok.inj h).2.2.symm
  case h_2 => cases h
  case h_3 =>
    split at h
    case h_1 e _ => exact .inr ⟨e, (XOut.ok.inj h).2.2.symm⟩
    case h_2 => cases h

/-- An access that reaches its target has had its address translated, in the state it leaves. -/
theorem reach_ok {s u : State} {a va n align : Nat} {vmid : BitVec 16} {need : Need} {types : BitVec 3 → Option Nat} {w : Target}
    (h : s.reach a vmid va n align need types = .ok w u) : ∃ pte size, s.translate a vmid va = .ok pte size u := by
  unfold State.reach at h
  split_ifs at h
  split at h
  case h_1 => cases h
  case h_2 => cases h
  case h_3 pte size v htranslate =>
    dsimp only at h
    split_ifs at h
    split at h
    case h_1 => cases h
    case h_2 => cases h
    case h_3 => exact ⟨pte, size, (TRes.ok.inj h).2 ▸ htranslate⟩

/-- An access that reaches its target leaves the acting cell and its unit. -/
theorem cellUnit_of_reach {s u : State} {a va n align : Nat} {vmid : BitVec 16} {need : Need} {types : BitVec 3 → Option Nat} {w : Target}
    (h : s.reach a vmid va n align need types = .ok w u) : u.cellUnit u.cell = s.cellUnit s.cell := by
  obtain ⟨pte, size, htranslate⟩ := reach_ok h
  obtain rfl | ⟨e, rfl⟩ := translate_ok htranslate
  · rfl
  · have hown := (State.SamePlaces.modTile s (agentTile a) (f := fun t => tlbUse t e) rfl).owner (cellTile s.cell)
    rw [State.modTile_cell, State.cellUnit, hown, State.cellUnit]

theorem hLoad_of_misaligned (s : State) (b : Block) {va n : Nat} (hva : va < 2 ^ 56) (h : va % n ≠ 0) : s.hLoad b va n = .fault 0x22 := by
  simp only [State.hLoad, reach_of_misaligned s hva h]

/-! An access whose operand is there -/

section
variable {s : State} {x : TVal} {k : Block} {a : Opnd} {g : BitVec 4} (hg : guardTrue s.blk g = true) (ha : s.opnd s.blk a = some (x, k))
  (d : BitVec 3) (off : BitVec 11) (n : Nat)
include hg ha

theorem loadLocal_of_fault {c : Nat} (hfault : localFault (hAddr x off n) n 0x17FFF = some c) :
    s.loadLocal g d a off n = s.trapBlock c (hAddr x off n) := by
  simp only [State.loadLocal, word_of_guard hg, ha, hfault]

theorem loadLocal_of_inside (hfault : localFault (hAddr x off n) n 0x17FFF = none) :
    s.loadLocal g d a off n = s.wordDone 1 (withT k d (w64 (BitVec.ofNat 64 (s.localRead k (hAddr x off n) n)))) := by
  simp only [State.loadLocal, word_of_guard hg, ha, hfault]
  rfl

theorem storeLocal_of_fault {c : Nat} (hfault : localFault (hAddr x off n) n 0x17FBF = some c) :
    s.storeLocal g d a off n = s.trapBlock c (hAddr x off n) := by
  simp only [State.storeLocal, word_of_guard hg, ha, hfault]

theorem storeLocal_of_inside (hfault : localFault (hAddr x off n) n 0x17FBF = none) :
    s.storeLocal g d a off n = s.wordDone 1 { k with lstores := putLocal k.lstores (hAddr x off n) n k.t[d.toNat].data.toNat } := by
  simp only [State.storeLocal, word_of_guard hg, ha, hfault]

theorem loadGlobal_of_fault {c : Nat} (hload : s.hLoad k (hAddr x off n) n = .fault c) :
    s.loadGlobal g d a off n = s.trapBlock c (hAddr x off n) := by
  simp only [State.loadGlobal, word_of_guard hg, ha, hload]

theorem loadGlobal_of_val {v : Nat} {u : State} (hload : s.hLoad k (hAddr x off n) n = .val v u) :
    s.loadGlobal g d a off n = u.wordDone 1 (withT k d (w64 (BitVec.ofNat 64 v))) := by
  simp only [State.loadGlobal, word_of_guard hg, ha, hload]
  rfl

theorem storeGlobal_of_fault {c : Nat}
    (hreach : s.reach (cellAgent s.cell) (s.cellVmid s.cell) (hAddr x off n) n n .w plainType = .fault c) :
    s.storeGlobal g d a off n = s.trapBlock c (hAddr x off n) := by
  simp only [State.storeGlobal, word_of_guard hg, ha, hreach]

theorem storeGlobal_of_reach {w : Target} {u : State}
    (hreach : s.reach (cellAgent s.cell) (s.cellVmid s.cell) (hAddr x off n) n n .w plainType = .ok w u) :
    s.storeGlobal g d a off n = u.wordDone 1 { k with gstores := k.gstores ++ [⟨hAddr x off n, w.flat, w.ty, w.home, n,
      BitVec.ofNat 512 (k.t[d.toNat].data.toNat % 2 ^ (8 * n)), s.cellUnit s.cell, 0, false⟩] } := by
  simp only [State.storeGlobal, word_of_guard hg, ha, hreach, cellUnit_of_reach hreach]

end

end Sys2Proof.Machine

namespace Sys2Proof.Claims

open Sys2Proof.Machine

theorem loadsLocal_of_loadLocal {mk : BitVec 3 → Opnd → BitVec 11 → BitVec 4 → Instr} {n : Nat}
    (hexec : ∀ d a off g s, exec (mk d a off g) s = s.loadLocal g d a off n) : LoadsLocal mk n := by
  refine fun d a off g => ⟨guarded_of_word (hexec d a off g), fun s x k hg ha => ?_⟩
  simp only [Runs, hexec, ← hAddr_eq]
  refine ⟨fun halign hlo hhi => ?_, fun h => loadLocal_of_fault hg ha d off n (localFault_of_misaligned h _),
    fun halign h => loadLocal_of_fault hg ha d off n (localFault_of_outside halign (.inl h))⟩
  rw [loadLocal_of_inside hg ha d off n (localFault_of_inside halign hlo (by omega))]
  exact wordDone_goesOn s 1 _

theorem storesLocal_of_storeLocal {mk : BitVec 3 → Opnd → BitVec 11 → BitVec 4 → Instr} {n : Nat} (hn : 0 < n)
    (hexec : ∀ d a off g s, exec (mk d a off g) s = s.storeLocal g d a off n) : StoresLocal mk n := by
  refine fun d a off g => ⟨guarded_of_word (hexec d a off g), fun s x k hg ha => ?_⟩
  simp only [Runs, hexec, ← hAddr_eq]
  refine ⟨fun halign hlo hhi => ?_, fun h => storeLocal_of_fault hg ha d off n (localFault_of_misaligned h _),
    fun halign h => storeLocal_of_fault hg ha d off n (localFault_of_outside halign (.inr (by omega)))⟩
  rw [storeLocal_of_inside hg ha d off n (localFault_of_inside halign hlo (by omega))]
  obtain ⟨t, hdone, hgoes⟩ := wordDone_goesOn s 1 { k with lstores := putLocal k.lstores (hAddr x off n) n k.t[d.toNat].data.toNat }
  exact ⟨t, _, hdone, hgoes, smFind_putLocal _ _ _ _⟩

theorem loadsGlobal_of_loadGlobal {mk : BitVec 3 → Opnd → BitVec 11 → BitVec 4 → Instr} {n : Nat}
    (hexec : ∀ d a off g s, exec (mk d a off g) s = s.loadGlobal g d a off n) : LoadsGlobal mk n := by
  refine fun d a off g => ⟨guarded_of_word (hexec d a off g), fun s x k hg ha => ?_⟩
  simp only [Runs, hexec, ← hAddr_eq]
  refine ⟨fun v u hload => ?_, fun hva h => loadGlobal_of_fault hg ha d off n (hLoad_of_misaligned s k hva h)⟩
  rw [loadGlobal_of_val hg ha d off n hload]
  exact wordDone_goesOn u 1 _

theorem storesGlobal_of_storeGlobal {mk : BitVec 3 → Opnd → BitVec 11 → BitVec 4 → Instr} {n : Nat}
    (hexec : ∀ d a off g s, exec (mk d a off g) s = s.storeGlobal g d a off n) : StoresGlobal mk n := by
  refine fun d a off g => ⟨guarded_of_word (hexec d a off g), fun s x k hg ha => ?_⟩
  simp only [Runs, hexec, ← hAddr_eq]
  refine ⟨fun w u hreach => ?_, fun hva h => storeGlobal_of_fault hg ha d off n (reach_of_misaligned s hva h _ _ _ _ _)⟩
  rw [storeGlobal_of_reach hg ha d off n hreach]
  exact wordDone_goesOn u 1 _

/-! Each load and store form is an access of its width -/

theorem exec_hLdl8 (d : BitVec 3) (a : Opnd) (off : BitVec 11) (g : BitVec 4) (s : State) :
    exec (.hLdl8 d a off g) s = s.loadLocal g d a off 1 := rfl
theorem exec_hLdl16 (d : BitVec 3) (a : Opnd) (off : BitVec 11) (g : BitVec 4) (s : State) :
    exec (.hLdl16 d a off g) s = s.loadLocal g d a off 2 := rfl
theorem exec_hLdl32 (d : BitVec 3) (a : Opnd) (off : BitVec 11) (g : BitVec 4) (s : State) :
    exec (.hLdl32 d a off g) s = s.loadLocal g d a off 4 := rfl
theorem exec_hLdl64 (d : BitVec 3) (a : Opnd) (off : BitVec 11) (g : BitVec 4) (s : State) :
    exec (.hLdl64 d a off g) s = s.loadLocal g d a off 8 := rfl
theorem exec_hStl8 (d : BitVec 3) (a : Opnd) (off : BitVec 11) (g : BitVec 4) (s : State) :
    exec (.hStl8 d a off g) s = s.storeLocal g d a off 1 := rfl
theorem exec_hStl16 (d : BitVec 3) (a : Opnd) (off : BitVec 11) (g : BitVec 4) (s : State) :
    exec (.hStl16 d a off g) s = s.storeLocal g d a off 2 := rfl
theorem exec_hStl32 (d : BitVec 3) (a : Opnd) (off : BitVec 11) (g : BitVec 4) (s : State) :
    exec (.hStl32 d a off g) s = s.storeLocal g d a off 4 := rfl
theorem exec_hStl64 (d : BitVec 3) (a : Opnd) (off : BitVec 11) (g : BitVec 4) (s : State) :
    exec (.hStl64 d a off g) s = s.storeLocal g d a off 8 := rfl
theorem exec_hLdg8 (d : BitVec 3) (a : Opnd) (off : BitVec 11) (g : BitVec 4) (s : State) :
    exec (.hLdg8 d a off g) s = s.loadGlobal g d a off 1 := rfl
theorem exec_hLdg16 (d : BitVec 3) (a : Opnd) (off : BitVec 11) (g : BitVec 4) (s : State) :
    exec (.hLdg16 d a off g) s = s.loadGlobal g d a off 2 := rfl
theorem exec_hLdg32 (d : BitVec 3) (a : Opnd) (off : BitVec 11) (g : BitVec 4) (s : State) :
    exec (.hLdg32 d a off g) s = s.loadGlobal g d a off 4 := rfl
theorem exec_hLdg64 (d : BitVec 3) (a : Opnd) (off : BitVec 11) (g : BitVec 4) (s : State) :
    exec (.hLdg64 d a off g) s = s.loadGlobal g d a off 8 := rfl
theorem exec_hStg8 (d : BitVec 3) (a : Opnd) (off : BitVec 11) (g : BitVec 4) (s : State) :
    exec (.hStg8 d a off g) s = s.storeGlobal g d a off 1 := rfl
theorem exec_hStg16 (d : BitVec 3) (a : Opnd) (off : BitVec 11) (g : BitVec 4) (s : State) :
    exec (.hStg16 d a off g) s = s.storeGlobal g d a off 2 := rfl
theorem exec_hStg32 (d : BitVec 3) (a : Opnd) (off : BitVec 11) (g : BitVec 4) (s : State) :
    exec (.hStg32 d a off g) s = s.storeGlobal g d a off 4 := rfl
theorem exec_hStg64 (d : BitVec 3) (a : Opnd) (off : BitVec 11) (g : BitVec 4) (s : State) :
    exec (.hStg64 d a off g) s = s.storeGlobal g d a off 8 := rfl

/-- R118, R153: each local form is a local access of its width. -/
theorem handlerLocalMemory : HandlerLocalMemory :=
  ⟨loadsLocal_of_loadLocal exec_hLdl8, loadsLocal_of_loadLocal exec_hLdl16, loadsLocal_of_loadLocal exec_hLdl32,
    loadsLocal_of_loadLocal exec_hLdl64, storesLocal_of_storeLocal (by decide) exec_hStl8, storesLocal_of_storeLocal (by decide) exec_hStl16,
    storesLocal_of_storeLocal (by decide) exec_hStl32, storesLocal_of_storeLocal (by decide) exec_hStl64⟩

/-- R154: each global form is a global access of its width. -/
theorem handlerGlobalMemory : HandlerGlobalMemory :=
  ⟨loadsGlobal_of_loadGlobal exec_hLdg8, loadsGlobal_of_loadGlobal exec_hLdg16, loadsGlobal_of_loadGlobal exec_hLdg32,
    loadsGlobal_of_loadGlobal exec_hLdg64, storesGlobal_of_storeGlobal exec_hStg8, storesGlobal_of_storeGlobal exec_hStg16,
    storesGlobal_of_storeGlobal exec_hStg32, storesGlobal_of_storeGlobal exec_hStg64⟩

/-- Settles O13: an access whose guard holds and whose operand is there goes on through `wordDone_goesOn`, or traps by `localFault` and
`reach_of_misaligned`; a guard that is false passes the word (`guarded_of_word`). -/
theorem handlerMemory : Obligations.HandlerMemory := ⟨handlerLocalMemory, handlerGlobalMemory⟩

end Sys2Proof.Claims

/-! Tokens on the network and at their slots (R119 to R121, R129 to R135, R164, R315, R342). -/

namespace Sys2Proof.Machine

open Sys2Proof.Claims

/-! What the operations on tokens leave of a cell's plane, and what they write there -/

@[simp] theorem State.cp_touchTok (s : State) (u c : Nat) : (s.touchTok u).cp c = s.cp c :=
  (State.SamePlaces.modLaunch s u (f := fun l => { l with active := true, moved := true }) fun _ => rfl).cp c

@[simp] theorem State.getCell_touchTok (s : State) (u c : Nat) : (s.touchTok u).getCell c = s.getCell c := State.getCell_modLaunch ..

@[simp] theorem State.cp_dropTok (s : State) (k c : Nat) : (s.dropTok k).cp c = s.cp c := State.cp_congr rfl rfl rfl c

@[simp] theorem State.net_dropTok (s : State) (k : Nat) : (s.dropTok k).net = removeAt s.net k := rfl

@[simp] theorem State.cp_nextStamp (s : State) (c : Nat) : s.nextStamp.2.cp c = s.cp c := State.cp_congr rfl rfl rfl c

theorem Token.seal_slot (t : Token) : t.seal.slot = t.slot := by cases t; rfl
theorem Token.seal_ctx (t : Token) : t.seal.ctx = t.ctx := by cases t; rfl
theorem Token.seal_field (t : Token) : t.seal.field = t.field := by cases t; rfl

/-- A token that no conversion changed leaves its cell's flags and LFSR. -/
theorem State.tokConverted_unchanged {s : State} {c : Nat} {l : BitVec 32} (h : smGet 0 (s.cp c).lfsr 63 = l) :
    s.tokConverted c 0 l = s.modCp c id := by
  rw [State.tokConverted, State.setCvst, if_pos rfl]
  exact State.modCp_congr s c (if_pos h)

/-- What a matching store holds once a token has entered it: a second sticky L of a context in place of the first (R131). -/
theorem State.store_intoStore (s : State) (c : Nat) (t : Token) (more : List Token) :
    let f := (s.cp c).slot t.slot.toNat
    let sticky := f.kind == 1 && f.sticky && t.field == 0
    ((s.intoStore c t more).cp c).store =
      (if sticky then (s.cp c).store.filter fun e => !(e.sticky && e.tok.slot == t.slot && e.tok.ctx == t.ctx) else (s.cp c).store) ++
        [⟨t, more, sticky, s.stamp, s.stamp, false⟩] := by
  simp only [State.intoStore, State.cp_modCp_same, State.cp_nextStamp]
  rfl

/-- A value appended to a channel (R120). -/
def State.intoChan (s : State) (c i : Nat) (w : Word) (fmt : BitVec 3) (ctx : BitVec 8) : State :=
  s.nextStamp.2.modCp c fun p => { p with chans := smPut p.chans i (p.chan i ++ [⟨w, fmt, ctx, s.stamp⟩]) }

theorem State.chan_intoChan (s : State) (c i : Nat) (w : Word) (fmt : BitVec 3) (ctx : BitVec 8) :
    ((s.intoChan c i w fmt ctx).cp c).chan i = (s.cp c).chan i ++ [⟨w, fmt, ctx, s.stamp⟩] := by
  rw [State.intoChan, State.cp_modCp_same, State.cp_nextStamp]
  exact smGet_smPut_same ..

/-! Hops (R130) -/

/-- A token that no other stands before hops, unless a beat of it fails its parity. -/
theorem execTokenHop_of_due {s : State} {k : Nat} {t : NetTok} (hnet : s.net[k]? = some t) (hpred : t.pred = false) (harrived : t.arrived = true)
    (hpos : t.pos ≠ destCell t.tok.dest) (hgoes : s.tokGoes t = true) (hahead : ∀ x ∈ s.net.take k, x.pos ≠ t.pos) (upset : Bool) :
    execTokenHop k upset s =
      let n := nextHop t.pos (destCell t.tok.dest)
      if upset || !(t.tok :: t.more).all Token.parityOk then
        .next ((((s.plog n (portFrom t.pos n) 0xC2).dropTok k).faultLaunch t.owner 0xC2 (cellTile n) 0).touchTok t.owner)
      else .next (State.touchTok { s with net := listSet s.net k { t with pos := n } } t.owner) := by
  have hclear : ((s.net.take k).any fun x => !x.pred && x.arrived && x.pos == t.pos &&
      nextHop x.pos (destCell x.tok.dest) == nextHop t.pos (destCell t.tok.dest) && x.pos != destCell x.tok.dest) = false := by
    rw [List.any_eq_false]
    intro x hx
    simp [hahead x hx]
  simp only [execTokenHop, hnet, hpred, harrived, hpos, hgoes, hclear, Bool.not_true, decide_false, Bool.or_self, Bool.false_eq_true, if_false]

/-! A token at its slot (R119, R131, R308, R315) -/

section
variable {s : State} {k : Nat} {t : NetTok} {c : Nat} (h : AtSlot s k t c)
include h

/-- No T2S takes it. -/
theorem t2s_of_atSlot : (s.t2sOn c && decide (t.tok.slot = 62)) = false := by
  obtain ⟨-, -, -, -, -, -, -, -, -, ht2s, -⟩ := h
  simpa using ht2s

/-- None of the checks that every token meets at its cell holds it. -/
theorem atCell_of_atSlot (go : Out) : s.atCell k t c go = go := by
  have hslot := t2s_of_atSlot h
  obtain ⟨-, -, -, -, -, hfirst, hdue, hfrozen, hdead, -, hgoes⟩ := h
  have hstop : ((s.owner? (cellTile c)).isSome && !s.cellGoes c) = false := by
    cases hown : (s.owner? (cellTile c)).isSome
    · rfl
    · rw [hgoes hown]
      rfl
  simp only [State.atCell, hfirst, hdue, hfrozen, hdead, hslot, hstop, Bool.and_self, Bool.not_true, Bool.false_eq_true, if_false]

/-- A token or predicate flit at its slot is checked and stored. -/
theorem exec_arrive_of_atSlot : exec (if t.pred then .predicateFlitArrive k false else .tokenArrive k) s = s.storeTok k t c := by
  have hcell := atCell_of_atSlot h
  have hslot := t2s_of_atSlot h
  obtain ⟨hnet, harrived, rfl, hpos, hparity, -⟩ := h
  cases hpred : t.pred
  · change execTokenArrive k s = _
    simp only [execTokenArrive, hnet, hpred, harrived, hpos hpred, hcell, hslot, ne_eq, not_true_eq_false, decide_false, Bool.not_true,
      Bool.or_self, Bool.false_eq_true, if_false]
  · change execPredicateFlitArrive k false s = _
    simp only [execPredicateFlitArrive, hnet, hpred, harrived, hparity hpred, hcell, hslot, Bool.not_true, Bool.or_self, Bool.false_eq_true,
      if_false]

end

theorem storeTok_of_drop {s : State} {k c cause : Nat} {t : NetTok} (h : (s.cp c).filter t = .drop cause) :
    s.storeTok k t c = .next (s.tokFault k t c cause) := by
  simp only [State.storeTok, h]

/-- A token that its FIRE, STEER or MERGE slot passes unchanged enters the matching store, where it has room. -/
theorem storeTok_of_pass {s : State} {k c : Nat} {t : NetTok} {l : BitVec 32} (h : (s.cp c).filter t = .pass [t.tok.data] t.tok.fmt 0 l)
    (hkind : ((s.cp c).slot t.tok.slot.toNat).kind ∈ [1, 2, 3]) (hroom : (s.cp c).entries + 1 + t.more.length ≤ 128) :
    ∃ u v, s.storeTok k t c = .next (((((s.dropTok k).tokConverted c 0 l).intoStore c (Token.seal t.tok) t.more).touchTok u).touchTok v) := by
  have hstored : (decide (((s.cp c).slot t.tok.slot.toNat).kind = 4) || decide (((s.cp c).slot t.tok.slot.toNat).kind = 5)) = false := by
    simp only [List.mem_cons, List.not_mem_nil, or_false] at hkind
    simp only [Bool.or_eq_false_iff, decide_eq_false_iff_not]
    omega
  refine ⟨t.owner, (((s.dropTok k).tokConverted c 0 l).intoStore c (Token.seal t.tok) t.more).cellUnit c, ?_⟩
  simp only [State.storeTok, h, hstored, Bool.false_and, Bool.false_eq_true, if_false, List.length_singleton, List.foldl_cons, List.foldl_nil]
  exact if_neg (by split <;> omega)

/-- A predicate flit that fails its parity, or whose parity an upset breaks, is dropped, logged and faults (R129). -/
theorem execPredicateFlitArrive_of_upset {s : State} {k : Nat} {t : NetTok} {upset : Bool} (hnet : s.net[k]? = some t) (hpred : t.pred = true)
    (harrived : t.arrived = true) (hparity : upset = true ∨ t.tok.predOk = false) :
    execPredicateFlitArrive k upset s = .next ((((s.plog (destCell t.tok.dest) 4 0xC3).dropTok k).faultLaunch t.owner 0xC3
      (cellTile (destCell t.tok.dest)) 0).touchTok t.owner) := by
  have hbad : (upset || !t.tok.predOk) = true := by simpa using hparity
  simp only [execPredicateFlitArrive, hnet, hpred, harrived, hbad, Bool.not_true, Bool.or_self, Bool.false_eq_true, if_false, if_true]

/-- A token that a frozen level claims goes to the hold buffer of its context (R315). -/
theorem atCell_of_frozen {s : State} {k c : Nat} {t : NetTok} (hfirst : s.tokFirst k t = true) (hdue : s.dueFirst k t = true)
    (hfrozen : s.frozenLevel t = true) (hroom : (smGet [] (s.getCell c).hold t.tok.ctx.toNat).length < 32) (go : Out) :
    s.atCell k t c go = .next (((s.dropTok k).intoHold c t).touchTok t.owner) := by
  have hroom' : ¬ 32 ≤ (smGet [] (s.getCell c).hold t.tok.ctx.toNat).length := by omega
  simp only [State.atCell, hfirst, hdue, hfrozen, ge_iff_le, hroom', Bool.and_self, Bool.not_true, Bool.false_eq_true, if_false, if_true]

theorem hold_intoHold (s : State) (c : Nat) (t : NetTok) :
    smGet [] ((s.intoHold c t).getCell c).hold t.tok.ctx.toNat = smGet [] (s.getCell c).hold t.tok.ctx.toNat ++ [t] := by
  simp [State.intoHold]

/-- A QUEUE slot with room appends a token that it passes unchanged to its channel (R120). -/
theorem execQueueAppend_of_pass {s : State} {k c : Nat} {t : NetTok} {l : BitVec 32} (h : AtSlot s k t c) (hpred : t.pred = false)
    (hkind : ((s.cp c).slot t.tok.slot.toNat).kind = 4) (hfield : t.tok.field ≠ 3)
    (hfilter : (s.cp c).filter t = .pass [t.tok.data] t.tok.fmt 0 l)
    (hroom : ((s.cp c).chan ((s.cp c).slot t.tok.slot.toNat).chan).length < 16) :
    ∃ u v, execQueueAppend k s = .next (((((s.dropTok k).tokConverted c 0 l).intoChan c ((s.cp c).slot t.tok.slot.toNat).chan
      t.tok.data t.tok.fmt t.tok.ctx).touchTok u).touchTok v) := by
  have hcell := atCell_of_atSlot h
  have hslot := t2s_of_atSlot h
  obtain ⟨hnet, harrived, rfl, hpos, -⟩ := h
  have hroom' : ¬ 16 < ((s.cp (destCell t.tok.dest)).chan ((s.cp (destCell t.tok.dest)).slot t.tok.slot.toNat).chan).length + 1 := by omega
  refine ⟨t.owner, (((s.dropTok k).tokConverted (destCell t.tok.dest) 0 l).intoChan (destCell t.tok.dest)
    ((s.cp (destCell t.tok.dest)).slot t.tok.slot.toNat).chan t.tok.data t.tok.fmt t.tok.ctx).cellUnit (destCell t.tok.dest), ?_⟩
  simp only [execQueueAppend, hnet, hpred, harrived, hpos hpred, hkind, hfield, hslot, hcell, hfilter, gt_iff_lt, List.length_singleton, hroom',
    ne_eq, not_true_eq_false, decide_false, Bool.not_true, Bool.or_self, Bool.false_eq_true, if_false, List.foldl_cons, List.foldl_nil]
  rfl

/-! Sending through an entry (R129, R133) -/

theorem predOk_of_pctl {t : Token} {p : BitVec 1} (h : p = parityBit t.predBits 46) : ({ t with pctl := p } : Token).predOk = true := by
  have hbits : ({ t with pctl := p } : Token).predBits = t.predBits := rfl
  rw [Token.predOk, hbits, ← h]
  exact beq_self_eq_true p

/-- A predicate flit as it is made carries its parity (R129). -/
theorem predOk_asPred (t : Token) : t.asPred.predOk = true :=
  predOk_of_pctl (t := { t with pdata := 0, aux := 0, field := 2, beats := 0, head := 1, fmt := 0, data := t.data &&& 1 }) rfl

/-- A token as an entry makes it, before it may become a predicate flit: the entry's cell, slot and field replace its own (R133). -/
def entryTok (e : DestF) (g : Tag) (fmt : BitVec 3) (aux : BitVec 8) (ctl : Bool) (beats : List Word) : Token :=
  Token.seal { mkTok e.cell e.slot (if ctl then 3 else e.field) g fmt aux (beats.headD 0) with beats := BitVec.ofNat 3 (beats.length - 1) }

theorem throughEntry_of_pred {e : DestF} (h : e.net = 1) (s : State) (c : Nat) (g : Tag) (fmt : BitVec 3) (aux : BitVec 8) (ctl : Bool)
    (beats : List Word) :
    s.throughEntry c e g fmt aux ctl beats = ⟨(entryTok e g fmt aux ctl beats).asPred, [], c, c, s.cellUnit c, true, none, true, false⟩ :=
  if_pos h

theorem throughEntry_of_data {e : DestF} (h : e.net ≠ 1) (s : State) (c : Nat) (g : Tag) (fmt : BitVec 3) (aux : BitVec 8) (ctl : Bool)
    (beats : List Word) :
    s.throughEntry c e g fmt aux ctl beats = ⟨entryTok e g fmt aux ctl beats, followers (entryTok e g fmt aux ctl beats) (beats.drop 1) 1, c, c,
      s.cellUnit c, false, none, true, false⟩ :=
  if_neg h

@[simp] theorem throughEntry_src (s : State) (c : Nat) (e : DestF) (g : Tag) (fmt : BitVec 3) (aux : BitVec 8) (ctl : Bool) (beats : List Word) :
    (s.throughEntry c e g fmt aux ctl beats).src = c := by
  by_cases hnet : e.net = 1
  · rw [throughEntry_of_pred hnet]
  · rw [throughEntry_of_data hnet]

@[simp] theorem throughEntry_dest (s : State) (c : Nat) (e : DestF) (g : Tag) (fmt : BitVec 3) (aux : BitVec 8) (ctl : Bool) (beats : List Word) :
    (s.throughEntry c e g fmt aux ctl beats).tok.dest = e.cell := by
  by_cases hnet : e.net = 1
  · rw [throughEntry_of_pred hnet]
    rfl
  · rw [throughEntry_of_data hnet]
    rfl

/-- A token to its sender's own die takes its place on the network. -/
theorem sendToks_of_here (s : State) {x : NetTok} (h : tileDie (cellTile x.src) = cellDie (destCell x.tok.dest)) :
    s.sendToks [x] = { s with net := s.net ++ [x] } := if_pos h

/-- What is forwarded under its own tag through a valid entry to its own die is on the network as the entry makes it. -/
theorem net_of_forward {s u : State} {c : Nat} {e : DestF} {g : Tag} {fmt : BitVec 3} {aux : BitVec 8} {d : Word} (hvalid : e.valid = true)
    (htag : e.tagop = 1) (hdie : tileDie (cellTile c) = cellDie (destCell e.cell)) (h : s.forward c e g fmt aux [d] = some u) :
    u.net = s.net ++ [s.throughEntry c e g fmt aux false [d]] := by
  have hsame : s.tagOpAt c 1 g = .ok g (s.getTile (s.leadOf c)).tags (s.getTile (s.leadOf c)).ctxs := rfl
  simp only [State.forward, hvalid, htag, hsame, Bool.not_true, Bool.false_eq_true, if_false, List.map_cons, List.map_nil,
    Option.ite_none_right_eq_some, Option.some.injEq] at h
  obtain ⟨-, rfl⟩ := h
  rw [sendToks_of_here _ (by simpa using hdie)]
  rfl

/-! The pair that became complete first (R133) -/

theorem earliestPair_eq_none {xs : List (MEnt × MEnt)} (h : earliestPair xs = none) : xs = [] := by
  cases xs with
  | nil => rfl
  | cons x r =>
    rw [earliestPair] at h
    split at h
    · split at h <;> cases h
    · cases h

theorem earliestPair_mem_and_le {xs : List (MEnt × MEnt)} {x : MEnt × MEnt} (h : earliestPair xs = some x) :
    x ∈ xs ∧ ∀ y ∈ xs, max x.1.ord x.2.ord ≤ max y.1.ord y.2.ord := by
  induction xs generalizing x with
  | nil => cases h
  | cons z r ih =>
    rw [earliestPair] at h
    cases hr : earliestPair r with
    | none =>
      obtain rfl := earliestPair_eq_none hr
      obtain rfl : z = x := by simpa [hr] using h
      exact ⟨List.mem_cons_self, List.forall_mem_cons.2 ⟨le_rfl, fun y hy => by cases hy⟩⟩
    | some w =>
      obtain ⟨hmem, hle⟩ := ih hr
      simp only [hr] at h
      split at h <;> cases h
      · exact ⟨List.mem_cons_of_mem _ hmem, List.forall_mem_cons.2 ⟨by omega, hle⟩⟩
      · exact ⟨List.mem_cons_self, List.forall_mem_cons.2 ⟨le_rfl, fun y hy => by have := hle y hy; omega⟩⟩

/-! The slots that act without the issue slot (R121, R132 to R134, R164) -/

theorem execFalsePAbsorb_of_ready {s : State} {c i : Nat} {f : Firing} (hcell : isTCell c = true) (hfeeds : s.cellFeeds c = true)
    (hkind : ((s.cp c).slot i).kind = 1) (hfind : ((s.cp c).ready i).find? (fun f => !f.pred) = some f) :
    execFalsePAbsorb c i s = .next ((s.modCp c fun p => p.consume (f.inputs.map (·.seq))).touchTok (s.cellUnit c)) := by
  simp [execFalsePAbsorb, hcell, hfeeds, hkind, hfind]

theorem execSteerFire_of_forward {s u : State} {c i : Nat} {x : Firing} {e : MEnt} (hcell : isTCell c = true) (hfeeds : s.cellFeeds c = true)
    (hkind : ((s.cp c).slot i).kind = 2) (hready : earliest ((s.cp c).ready i) = some x) (hl : x.l = some e)
    (hsent : (s.modCp c fun p => p.consume (x.inputs.map (·.seq))).forward c
      (s.entry c (if x.pred then ((s.cp c).slot i).tdest else ((s.cp c).slot i).fdest)) e.tok.tag e.tok.fmt e.tok.aux [e.tok.data] = some u) :
    execSteerFire c i s = .next (u.touchTok (s.cellUnit c)) := by
  simp [execSteerFire, hcell, hfeeds, hkind, hready, hl, hsent]

theorem execMergeFire_of_forward {s u : State} {c i : Nat} {q e : MEnt} (hcell : isTCell c = true) (hfeeds : s.cellFeeds c = true)
    (hkind : ((s.cp c).slot i).kind = 3)
    (hready : earliestPair (((s.cp c).waitingAt i 2).filterMap fun q =>
      (firstWith ((s.cp c).waitingAt i (if bitOf q.tok.data.toNat 0 then 0 else 1)) q.tok).map fun e => (q, e)) = some (q, e))
    (hsent : (s.modCp c fun p => p.consume [q.seq, e.seq]).forward c (s.entry c ((s.cp c).slot i).tdest) e.tok.tag e.tok.fmt e.tok.aux
      [e.tok.data] = some u) : execMergeFire c i s = .next (u.touchTok (s.cellUnit c)) := by
  simp [execMergeFire, hcell, hfeeds, hkind, hready, hsent]

/-- A token that its CONVERT slot passes, of another format than Q4X16 and to another, is converted and sent. -/
theorem execConvertFire_of_forward {s u : State} {k c : Nat} {t : NetTok} {w : Word} {l : BitVec 32} (h : AtSlot s k t c)
    (hpred : t.pred = false) (hkind : ((s.cp c).slot t.tok.slot.toNat).kind = 5) (hfield : t.tok.field ≠ 3)
    (hfilter : (s.cp c).filter t = .pass [w] t.tok.fmt 0 l) (hfmt : t.tok.fmt ≠ 7) (hcfmt : ((s.cp c).slot t.tok.slot.toNat).cfmt ≠ 7)
    (hfeeds : (s.owner? (cellTile c)).isSome = true → s.cellFeeds c = true)
    (hsent : ((s.dropTok k).tokConverted c (convTok ((s.cp c).slot t.tok.slot.toNat) t.tok.fmt.toNat w l).2.1
        (convTok ((s.cp c).slot t.tok.slot.toNat) t.tok.fmt.toNat w l).2.2).forward c (s.entry c ((s.cp c).slot t.tok.slot.toNat).tdest)
        t.tok.tag (BitVec.ofNat 3 ((s.cp c).slot t.tok.slot.toNat).cfmt) t.tok.aux
        (convTok ((s.cp c).slot t.tok.slot.toNat) t.tok.fmt.toNat w l).1 = some u) :
    execConvertFire k s = .next (u.touchTok (s.cellUnit c)) := by
  have hcell := atCell_of_atSlot h
  obtain ⟨hnet, harrived, rfl, hpos, -⟩ := h
  have hstop : ((s.owner? (cellTile (destCell t.tok.dest))).isSome && !s.cellFeeds (destCell t.tok.dest)) = false := by
    cases hown : (s.owner? (cellTile (destCell t.tok.dest))).isSome
    · rfl
    · rw [hfeeds hown]
      rfl
  simp only [execConvertFire, hnet, hpred, harrived, hpos hpred, hkind, hfield, hstop, hcell, hfilter, hfmt, hcfmt, hsent, ne_eq,
    not_true_eq_false, decide_false, Bool.not_true, Bool.or_self, Bool.false_and, Bool.false_eq_true, if_false, Nat.zero_or]

theorem execControlTokenAbsorb_of_turn {s : State} {c i : Nat} {e : MEnt} (hcell : isTCell c = true) (hgoes : s.cellGoes c = true)
    (hkind : ((s.cp c).slot i).kind = 1 ∨ ((s.cp c).slot i).kind = 4)
    (hfind : (s.cp c).store.find? (fun e => e.tok.slot.toNat == i && e.tok.field == 3 && (s.cp c).turn i e) = some e) :
    execControlTokenAbsorb c i s = .next ((s.modCp c fun p => p.consume [e.seq]).touchTok (s.cellUnit c)) := by
  have hslot : ((((s.cp c).slot i).kind == 1) || (((s.cp c).slot i).kind == 4)) = true := by simpa using hkind
  simp only [execControlTokenAbsorb, hcell, hgoes, hslot, hfind, Bool.and_self, Bool.not_true, Bool.false_eq_true, if_false]

/-- A control token at a MERGE or CONVERT slot leaves through its one entry. -/
theorem execControlTokenTurn_of_room {s : State} {c i : Nat} {e : MEnt} (hcell : isTCell c = true) (hfeeds : s.cellFeeds c = true)
    (hkind : ((s.cp c).slot i).kind = 3 ∨ ((s.cp c).slot i).kind = 5)
    (hfind : (s.cp c).store.find? (fun e => e.tok.slot.toNat == i && e.tok.field == 3 && (s.cp c).turn i e) = some e)
    (hvalid : (s.entry c ((s.cp c).slot i).tdest).valid = true) (hnet : (s.entry c ((s.cp c).slot i).tdest).net ≠ 1) {x : NetTok}
    (hx : x = s.throughEntry c (s.entry c ((s.cp c).slot i).tdest) e.tok.tag e.tok.fmt e.tok.aux true [e.tok.data])
    (hplaces : (s.modCp c fun p => p.consume [e.seq]).placesFor [x] = true) (hroom : (s.modCp c fun p => p.consume [e.seq]).tokRoom [x] = true) :
    execControlTokenTurn c i s = .next (((s.modCp c fun p => p.consume [e.seq]).sendToks [x]).touchTok (s.cellUnit c)) := by
  have hslot : (((s.cp c).slot i).kind == 2 || ((s.cp c).slot i).kind == 3 || ((s.cp c).slot i).kind == 5) = true := by
    simpa [or_assoc] using Or.inr hkind
  have hsteer : ¬ ((s.cp c).slot i).kind = 2 := by omega
  have hentries : ([s.entry c ((s.cp c).slot i).tdest].filter fun d => d.net != 1) = [s.entry c ((s.cp c).slot i).tdest] :=
    List.filter_eq_self.2 (by simpa using hnet)
  simp only [execControlTokenTurn, hcell, hfeeds, hslot, hfind, hsteer, hentries, hvalid, ← hx, hplaces, hroom, Bool.and_self, Bool.not_true,
    Bool.false_eq_true, if_false, if_true, List.map_cons, List.map_nil, List.any_cons, List.any_nil, Bool.or_self]

end Sys2Proof.Machine

namespace Sys2Proof.Claims

open Sys2Proof.Machine

theorem exec_tokenHop (k : Nat) (upset : Bool) (s : State) : exec (.tokenHop k upset) s = execTokenHop k upset s := rfl
theorem exec_tokenArrive (k : Nat) (s : State) : exec (.tokenArrive k) s = execTokenArrive k s := rfl
theorem exec_predicateFlitArrive (k : Nat) (upset : Bool) (s : State) :
    exec (.predicateFlitArrive k upset) s = execPredicateFlitArrive k upset s := rfl
theorem exec_queueAppend (k : Nat) (s : State) : exec (.queueAppend k) s = execQueueAppend k s := rfl
theorem exec_falsePAbsorb (c i : Nat) (s : State) : exec (.falsePAbsorb c i) s = execFalsePAbsorb c i s := rfl
theorem exec_steerFire (c i : Nat) (s : State) : exec (.steerFire c i) s = execSteerFire c i s := rfl
theorem exec_mergeFire (c i : Nat) (s : State) : exec (.mergeFire c i) s = execMergeFire c i s := rfl
theorem exec_convertFire (k : Nat) (s : State) : exec (.convertFire k) s = execConvertFire k s := rfl
theorem exec_controlTokenAbsorb (c i : Nat) (s : State) : exec (.controlTokenAbsorb c i) s = execControlTokenAbsorb c i s := rfl
theorem exec_controlTokenTurn (c i : Nat) (s : State) : exec (.controlTokenTurn c i) s = execControlTokenTurn c i s := rfl

/-- A token that its slot passes unchanged leaves the network for the matching store (R119, R131). -/
theorem stores_of_pass {s : State} {k : Nat} {t : NetTok} {c : Nat} (hat : AtSlot s k t c)
    (hfilter : (s.cp c).filter t = .pass [t.tok.data] t.tok.fmt 0 (smGet 0 (s.cp c).lfsr 63))
    (hkind : ((s.cp c).slot t.tok.slot.toNat).kind ∈ [1, 2, 3]) (hroom : (s.cp c).entries + 1 + t.more.length ≤ 128) :
    let f := (s.cp c).slot t.tok.slot.toNat
    let sticky := f.kind == 1 && f.sticky && t.tok.field == 0
    ∃ n, Runs (if t.pred then .predicateFlitArrive k false else .tokenArrive k) s n ∧ n.net = removeAt s.net k ∧ n.mem = s.mem ∧
      (n.cp c).store = (if sticky then (s.cp c).store.filter fun e => !(e.sticky && e.tok.slot == t.tok.slot && e.tok.ctx == t.tok.ctx)
        else (s.cp c).store) ++ [⟨Token.seal t.tok, t.more, sticky, s.stamp, s.stamp, false⟩] := by
  obtain ⟨u, v, hstored⟩ := storeTok_of_pass (k := k) hfilter hkind hroom
  rw [State.tokConverted_unchanged (by rw [State.cp_dropTok])] at hstored
  have hstore := State.store_intoStore ((s.dropTok k).modCp c id) c t.tok.seal t.more
  have hstamp : ((s.dropTok k).modCp c id).stamp = s.stamp := rfl
  simp only [State.cp_modCp_same, State.cp_dropTok, id, Token.seal_slot, Token.seal_ctx, Token.seal_field, hstamp] at hstore
  refine ⟨_, (exec_arrive_of_atSlot hat).trans hstored, ?_, ?_, ?_⟩
  · simp only [State.touchTok_net]
    rfl
  · simp only [State.touchTok_mem]
    rfl
  · rw [State.cp_touchTok, State.cp_touchTok]
    exact hstore

/-- A token that a frozen level claims leaves the network for the hold buffer of its context (R315). -/
theorem holds_of_frozen {s : State} {k : Nat} {t : NetTok} {c : Nat} (hnet : s.net[k]? = some t) (hpred : t.pred = false)
    (harrived : t.arrived = true) (hc : c = destCell t.tok.dest) (hpos : t.pos = c) (hfirst : s.tokFirst k t = true)
    (hdue : s.dueFirst k t = true) (hfrozen : s.frozenLevel t = true) (hroom : (smGet [] (s.getCell c).hold t.tok.ctx.toNat).length < 32) :
    ∃ n, Runs (.tokenArrive k) s n ∧ n.net = removeAt s.net k ∧ n.mem = s.mem ∧
      smGet [] (n.getCell c).hold t.tok.ctx.toNat = smGet [] (s.getCell c).hold t.tok.ctx.toNat ++ [t] := by
  subst hc
  have hrun : execTokenArrive k s = .next (((s.dropTok k).intoHold (destCell t.tok.dest) t).touchTok t.owner) := by
    simp [execTokenArrive, hnet, hpred, harrived, hpos, atCell_of_frozen hfirst hdue hfrozen hroom]
  refine ⟨_, (exec_tokenArrive ..).trans hrun, ?_, ?_, ?_⟩
  · rw [State.touchTok_net]
    rfl
  · rw [State.touchTok_mem]
    rfl
  · rw [State.getCell_touchTok]
    exact hold_intoHold (s.dropTok k) _ t

/-- A token that its QUEUE slot passes unchanged leaves the network for the slot's channel (R120). -/
theorem queues_of_pass {s : State} {k : Nat} {t : NetTok} {c : Nat} (hat : AtSlot s k t c) (hpred : t.pred = false)
    (hkind : ((s.cp c).slot t.tok.slot.toNat).kind = 4) (hfield : t.tok.field ≠ 3)
    (hfilter : (s.cp c).filter t = .pass [t.tok.data] t.tok.fmt 0 (smGet 0 (s.cp c).lfsr 63)) :
    let q := ((s.cp c).slot t.tok.slot.toNat).chan
    ((s.cp c).chan q).length < 16 →
    ∃ n, Runs (.queueAppend k) s n ∧ n.net = removeAt s.net k ∧ n.mem = s.mem ∧
      (n.cp c).chan q = (s.cp c).chan q ++ [⟨t.tok.data, t.tok.fmt, t.tok.ctx, s.stamp⟩] := by
  intro q hroom
  obtain ⟨u, v, hqueued⟩ := execQueueAppend_of_pass hat hpred hkind hfield hfilter hroom
  rw [State.tokConverted_unchanged (by rw [State.cp_dropTok])] at hqueued
  refine ⟨_, (exec_queueAppend ..).trans hqueued, ?_, ?_, ?_⟩
  · simp only [State.touchTok_net]
    rfl
  · simp only [State.touchTok_mem]
    rfl
  · rw [State.cp_touchTok, State.cp_touchTok, State.chan_intoChan, State.cp_modCp_same, State.cp_dropTok]
    rfl

/-- A token that no other stands before is one router further, or is dropped, logged and faults (R130, R342). -/
theorem hops_of_due {s : State} {k : Nat} {t : NetTok} (hnet : s.net[k]? = some t) (hpred : t.pred = false) (harrived : t.arrived = true)
    (hpos : t.pos ≠ destCell t.tok.dest) (hgoes : s.tokGoes t = true) (hahead : ∀ x ∈ s.net.take k, x.pos ≠ t.pos) :
    ((t.tok :: t.more).all Token.parityOk = true → ∃ n, Runs (.tokenHop k false) s n ∧
      n.net = listSet s.net k { t with pos := nextHop t.pos (destCell t.tok.dest) } ∧ n.mem = s.mem ∧ n.cells = s.cells) ∧
    (let n := nextHop t.pos (destCell t.tok.dest)
     Runs (.tokenHop k true) s ((((s.plog n (portFrom t.pos n) 0xC2).dropTok k).faultLaunch t.owner 0xC2 (cellTile n) 0).touchTok t.owner)) := by
  have hhop := execTokenHop_of_due hnet hpred harrived hpos hgoes hahead
  refine ⟨fun hparity => ?_, (exec_tokenHop ..).trans (hhop true)⟩
  refine ⟨_, (exec_tokenHop ..).trans ((hhop false).trans (if_neg ?_)), ?_, ?_, ?_⟩
  · rw [hparity]
    exact Bool.false_ne_true
  · rw [State.touchTok_net]
  · rw [State.touchTok_mem]
  · rw [State.touchTok_cells]

/-- Settles O34: `hops_of_due` for a hop, `exec_arrive_of_atSlot` for what a slot stores or drops, and `stores_of_pass`, `holds_of_frozen`
and `queues_of_pass` for where a token is found afterwards. -/
theorem tokensMoveAndArrive : Obligations.TokensMoveAndArrive := by
  unfold Obligations.TokensMoveAndArrive
  refine ⟨fun k s t hnet hpred harrived hpos hgoes hahead => hops_of_due hnet hpred harrived hpos hgoes hahead,
    fun k s t c w hat hfilter hw hkind hroom => ?_, fun k s t c cause hat hfilter => ?_,
    fun k s t hnet hpred harrived => ⟨fun hparity => ?_, ?_⟩,
    fun k s t c hnet hpred harrived hc hpos hfirst hdue hfrozen hroom =>
      holds_of_frozen hnet hpred harrived hc hpos hfirst hdue hfrozen hroom,
    fun p t hkind => if_pos hkind, fun k s t c hat hpred hkind hfield hfilter => queues_of_pass hat hpred hkind hfield hfilter⟩
  · subst hw
    exact stores_of_pass hat hfilter hkind hroom
  · exact (exec_arrive_of_atSlot hat).trans (storeTok_of_drop hfilter)
  · exact (exec_predicateFlitArrive ..).trans (execPredicateFlitArrive_of_upset hnet hpred harrived (.inr hparity))
  · exact (exec_predicateFlitArrive ..).trans (execPredicateFlitArrive_of_upset hnet hpred harrived (.inl rfl))

/-- Settles O35: each slot's step from what it finds ready (`execSteerFire_of_forward` and its like), the order of `earliestPair` by induction on
the ready pairs, and `net_of_forward` for what stands on the network once a token is sent. -/
theorem slotsThatForward : Obligations.SlotsThatForward := by
  unfold Obligations.SlotsThatForward
  refine ⟨fun c i s f hcell hfeeds hkind hfind => ?_, fun c i s x e u hcell hfeeds hkind hready hl hsent => ?_,
    fun c i s q e u hcell hfeeds hkind hready hsent => ?_, fun xs x hfirst => earliestPair_mem_and_le hfirst,
    fun s u c e g fmt aux d hvalid hnet htag hdie hsent => ?_, fun s u c e g fmt aux d hvalid hnet htag hdie hsent => ?_,
    fun k s t c w l u hat hpred hkind hfield hfilter hfmt hcfmt hfeeds hsent => ?_, fun c i s e hcell hgoes hkind hfind => ?_,
    fun c i s e hcell hfeeds hkind hfind hvalid hnet hplaces hroom => ?_⟩
  · exact (exec_falsePAbsorb ..).trans (execFalsePAbsorb_of_ready hcell hfeeds hkind hfind)
  · exact (exec_steerFire ..).trans (execSteerFire_of_forward hcell hfeeds hkind hready hl hsent)
  · exact (exec_mergeFire ..).trans (execMergeFire_of_forward hcell hfeeds hkind hready hsent)
  · refine ⟨_, net_of_forward hvalid htag hdie hsent, ?_⟩
    rw [throughEntry_of_pred hnet]
    exact ⟨rfl, predOk_asPred _, rfl, rfl, rfl, rfl, rfl, rfl, rfl⟩
  · refine ⟨_, net_of_forward hvalid htag hdie hsent, ?_⟩
    rw [throughEntry_of_data hnet]
    exact ⟨rfl, rfl, rfl, rfl, rfl, rfl, rfl, rfl, rfl, rfl⟩
  · exact (exec_convertFire ..).trans (execConvertFire_of_forward hat hpred hkind hfield hfilter hfmt hcfmt hfeeds hsent)
  · exact (exec_controlTokenAbsorb ..).trans (execControlTokenAbsorb_of_turn hcell hgoes hkind hfind)
  · exact (exec_controlTokenTurn ..).trans (execControlTokenTurn_of_room hcell hfeeds hkind hfind hvalid hnet rfl hplaces hroom)

end Sys2Proof.Claims

/-! Handler words that compute: integer, immediate and literal words (R145 to R149), floating words (R150 to R152). -/

namespace Sys2Proof.Machine

open Sys2Proof.Claims

/-! Lanes of a 64-bit value (R85) -/

/-- Lane i of the lanes of w bits of a value. -/
def lane (w : Nat) (v : Word) (i : Nat) : Nat := bitsOf v.toNat (w * i + w - 1) (w * i)

theorem lane_eq {w : Nat} (hw : 0 < w) (v : Word) (i : Nat) : lane w v i = (v.toNat >>> (w * i)) % 2 ^ w := by
  rw [lane, bitsOf, show w * i + w - 1 + 1 - w * i = w by omega]

theorem lane_lt {w : Nat} (hw : 0 < w) (v : Word) (i : Nat) : lane w v i < 2 ^ w := by
  rw [lane_eq hw]
  exact Nat.mod_lt _ (by positivity)

theorem parts_eq_map (w : Nat) (v : Word) : parts w v = (List.range (64 / w)).map (lane w v) := rfl

theorem packBits_lt (w : Nat) (xs : List Nat) : packBits w xs < 2 ^ (w * xs.length) := by
  induction xs with
  | nil => simp [packBits]
  | cons x r ih =>
    have hx : x % 2 ^ w < 2 ^ w := Nat.mod_lt _ (by positivity)
    calc packBits w (x :: r) < 2 ^ w * (packBits w r + 1) := by rw [packBits, Nat.mul_add]; omega
      _ ≤ 2 ^ w * 2 ^ (w * r.length) := Nat.mul_le_mul_left _ ih
      _ = 2 ^ (w * (x :: r).length) := by rw [← pow_add, List.length_cons, Nat.mul_succ, Nat.add_comm]

/-- Packed elements are read back one by one, modulo their width. -/
theorem packBits_shiftRight_mod (w : Nat) (xs : List Nat) (i : Nat) : (packBits w xs >>> (w * i)) % 2 ^ w = xs.getD i 0 % 2 ^ w := by
  induction xs generalizing i with
  | nil => simp [packBits]
  | cons x r ih =>
    cases i with
    | zero => simp [packBits]
    | succ i =>
      have htail : packBits w (x :: r) >>> w = packBits w r := by
        rw [packBits, Nat.shiftRight_eq_div_pow, Nat.add_mul_div_left _ _ (by positivity), Nat.div_eq_of_lt (Nat.mod_lt _ (by positivity)),
          Nat.zero_add]
      rw [Nat.mul_succ, Nat.add_comm, Nat.shiftRight_add, htail, ih, List.getD_cons_succ]

theorem lane_joinParts {w : Nat} (hw : 0 < w) {xs : List Nat} (hlen : xs.length ≤ 64 / w) (i : Nat) :
    lane w (joinParts w xs) i = xs.getD i 0 % 2 ^ w := by
  have hfits : packBits w xs < 2 ^ 64 :=
    (packBits_lt w xs).trans_le (Nat.pow_le_pow_right (by decide) ((Nat.mul_le_mul_left w hlen).trans (Nat.mul_div_le 64 w)))
  rw [lane_eq hw, joinParts, BitVec.toNat_ofNat, Nat.mod_eq_of_lt hfits, packBits_shiftRight_mod]

theorem lane_zipParts {w i : Nat} (hw : 0 < w) (hi : i < 64 / w) (e : Nat → Nat → Nat) (x y : Word) :
    lane w (zipParts w e x y) i = e (lane w x i) (lane w y i) % 2 ^ w := by
  rw [zipParts, parts_eq_map, parts_eq_map, List.zipWith_map, List.zipWith_self, lane_joinParts hw (by simp), getD_map_range _ hi]

theorem lane_mapParts {w i : Nat} (hw : 0 < w) (hi : i < 64 / w) (e : Nat → Nat) (x : Word) :
    lane w (mapParts w e x) i = e (lane w x i) % 2 ^ w := by
  rw [mapParts, parts_eq_map, List.map_map, lane_joinParts hw (by simp), getD_map_range _ hi, Function.comp_apply]

theorem iWidth_pos (f : IFmt) : 0 < iWidth f := by cases f <;> decide

theorem lanes_iff {f : IFmt} {op : Nat → Nat → Nat → Nat} {x y r : TVal} :
    Lanes f op x y r ↔ r.fmt = BitVec.ofNat 3 (iTag f) ∧
      ∀ i, i < 64 / iWidth f → lane (iWidth f) r.data i = op (iWidth f) (lane (iWidth f) x.data i) (lane (iWidth f) y.data i) := Iff.rfl

/-- An operation of the lanes of two values gives the lanes that it says. -/
theorem lanes_zipParts {op e : Nat → Nat → Nat → Nat} (hop : ∀ w a b, 0 < w → a < 2 ^ w → b < 2 ^ w → e w a b % 2 ^ w = op w a b)
    (f : IFmt) (x y : TVal) : Lanes f op x y (iVal f (zipParts (iWidth f) (e (iWidth f)) x.data y.data)) := by
  have hw := iWidth_pos f
  exact lanes_iff.2 ⟨rfl, fun i hi => (lane_zipParts hw hi _ _ _).trans (hop _ _ _ hw (lane_lt hw _ _) (lane_lt hw _ _))⟩

/-- An operation of the lanes of one value gives the lanes that it says. -/
theorem lanes_mapParts {op e : Nat → Nat → Nat} (hop : ∀ w a, 0 < w → a < 2 ^ w → e w a % 2 ^ w = op w a) (f : IFmt) (x : TVal) :
    Lanes f (fun w a _ => op w a) x x (iVal f (mapParts (iWidth f) (e (iWidth f)) x.data)) := by
  have hw := iWidth_pos f
  exact lanes_iff.2 ⟨rfl, fun i hi => (lane_mapParts hw hi _ _).trans (hop _ _ hw (lane_lt hw _ _))⟩

/-! A bitwise operation of two values is one of their lanes -/

theorem lane_and {w : Nat} (hw : 0 < w) (x y : Word) (i : Nat) : lane w (x &&& y) i = lane w x i &&& lane w y i := by
  simp only [lane_eq hw, BitVec.toNat_and, Nat.shiftRight_and_distrib, Nat.and_mod_two_pow]

theorem lane_or {w : Nat} (hw : 0 < w) (x y : Word) (i : Nat) : lane w (x ||| y) i = lane w x i ||| lane w y i := by
  simp only [lane_eq hw, BitVec.toNat_or, Nat.shiftRight_or_distrib, Nat.or_mod_two_pow]

theorem lane_xor {w : Nat} (hw : 0 < w) (x y : Word) (i : Nat) : lane w (x ^^^ y) i = lane w x i ^^^ lane w y i := by
  simp only [lane_eq hw, BitVec.toNat_xor, Nat.shiftRight_xor_distrib, Nat.xor_mod_two_pow]

/-- The complement of a value complements each whole lane. -/
theorem lane_not {w i : Nat} (hw : 0 < w) (hi : i < 64 / w) (x : Word) : lane w (~~~x) i = 2 ^ w - 1 - lane w x i := by
  have hinside : w * i + w ≤ 64 := (Nat.mul_succ w i ▸ Nat.mul_le_mul_left w hi).trans (Nat.mul_div_le 64 w)
  refine Nat.eq_of_testBit_eq fun j => ?_
  rw [Nat.sub_sub, Nat.add_comm 1, Nat.testBit_two_pow_sub_succ (lane_lt hw x i), lane_eq hw, lane_eq hw, Nat.testBit_mod_two_pow,
    Nat.testBit_mod_two_pow, Nat.testBit_shiftRight, Nat.testBit_shiftRight, BitVec.testBit_toNat, BitVec.testBit_toNat, BitVec.getLsbD_not]
  by_cases hj : j < w
  · simp [hj, show w * i + j < 64 by omega]
  · simp [hj]

/-! The claims' arithmetic of one element is the model's (R145) -/

theorem readElem_eq_asInt (e : IExt) {w v : Nat} (h : v < 2 ^ w) : readElem e w v = asInt e w v := by
  cases e with
  | satu => rfl
  | wrap => exact sextNat_eq_sgn h
  | sat => exact sextNat_eq_sgn h

theorem toNat_emod_two_pow_lt (x : Int) (w : Nat) : (x % 2 ^ w).toNat < 2 ^ w := by
  have hpos : (0 : Int) < 2 ^ w := by positivity
  have hlt := Int.emod_lt_of_pos x hpos
  have hnonneg := Int.emod_nonneg x hpos.ne'
  exact_mod_cast (Int.toNat_of_nonneg hnonneg).trans_lt hlt

theorem narrow_lt (e : IExt) (w : Nat) (x : Int) : narrow e w x < 2 ^ w := by
  cases e with
  | wrap => exact toNat_emod_two_pow_lt _ w
  | sat => exact toNat_emod_two_pow_lt _ w
  | satu =>
    have hpos : (0 : Int) < 2 ^ w := by positivity
    have hlt : ((max 0 (min x (2 ^ w - 1))).toNat : Int) < 2 ^ w := by omega
    exact_mod_cast hlt

/-- The clamp to the unsigned range needs no reduction after it. -/
theorem reduceElem_eq_narrow (e : IExt) (w : Nat) (x : Int) : reduceElem e w x = narrow e w x := by
  cases e with
  | wrap => rfl
  | sat => rfl
  | satu =>
    have hpos : (0 : Int) < 2 ^ w := by positivity
    show (max 0 (min x (2 ^ w - 1)) % 2 ^ w).toNat = (max 0 (min x (2 ^ w - 1))).toNat
    rw [Int.emod_eq_of_lt (by omega) (by omega)]

theorem reduceElem_mod (e : IExt) (w : Nat) (x : Int) : reduceElem e w x % 2 ^ w = narrow e w x := by
  rw [reduceElem_eq_narrow, Nat.mod_eq_of_lt (narrow_lt e w x)]

theorem wrapNat_mod (x : Int) (w : Nat) : wrapNat x w % 2 ^ w = narrow .wrap w x := reduceElem_mod .wrap w x

theorem bit01_mod {w : Nat} (hw : 0 < w) {b : Bool} {p : Prop} [Decidable p] (h : b = true ↔ p) : bit01 b % 2 ^ w = if p then 1 else 0 := by
  have hone : 1 < 2 ^ w := Nat.one_lt_two_pow hw.ne'
  rw [Nat.mod_eq_of_lt (by cases b <;> simp [bit01, hone]), bit01, if_congr h rfl rfl]

theorem bitOf_eq_testBit (v i : Nat) : bitOf v i = v.testBit i := by
  rw [bitOf, Nat.testBit_eq_decide_div_mod_eq, Nat.shiftRight_eq_div_pow, Bool.beq_eq_decide_eq]

theorem popCount_eq (w v : Nat) : popCount w v = ((List.range w).filter fun i => v.testBit i).length := by
  simp only [popCount, bitOf_eq_testBit]

theorem trailZeros_eq (w v : Nat) : trailZeros w v = ((List.range w).find? fun i => v.testBit i).getD w := by
  simp only [trailZeros, bitOf_eq_testBit]

/-- The search for the highest 1 bit, from the top bit down, counts the zeros above it. -/
theorem leadZeros_eq {w v : Nat} (hv : v < 2 ^ w) : leadZeros w v = ((List.range w).find? fun i => v.testBit (w - 1 - i)).getD w := by
  rcases Nat.eq_zero_or_pos v with rfl | hpos
  · have hfind : (List.range w).find? (fun i => Nat.testBit 0 (w - 1 - i)) = none := List.find?_eq_none.2 fun i _ => by simp
    rw [hfind]
    rfl
  · have hlog : v.log2 < w := (Nat.log2_lt hpos.ne').2 hv
    have hfind : (List.range w).find? (fun i => v.testBit (w - 1 - i)) = some (w - 1 - v.log2) := by
      refine List.find?_range_eq_some.2 ⟨?_, List.mem_range.2 (by omega), fun j hj => ?_⟩
      · rw [show w - 1 - (w - 1 - v.log2) = v.log2 by omega]
        exact Nat.testBit_log2 hpos.ne'
      · have habove : v < 2 ^ (w - 1 - j) := (Nat.log2_lt hpos.ne').1 (by omega)
        simp [Nat.testBit_lt_two_pow habove]
    rw [hfind, leadZeros, bitLen, if_neg hpos.ne', Option.getD_some]
    omega

theorem length_filter_range_lt {w : Nat} (p : Nat → Bool) : ((List.range w).filter p).length < 2 ^ w :=
  (List.length_filter_le p _).trans_lt (by simpa using Nat.lt_two_pow_self)

theorem getD_find?_range_lt (w : Nat) (p : Nat → Bool) : ((List.range w).find? p).getD w < 2 ^ w := by
  refine lt_of_le_of_lt ?_ Nat.lt_two_pow_self
  cases h : (List.range w).find? p with
  | none => exact le_rfl
  | some i => exact (List.mem_range.1 (List.mem_of_find?_eq_some h)).le

end Sys2Proof.Machine

namespace Sys2Proof.Claims

open Sys2Proof.Machine

/-! Words of one and of two operands (R34, R140, R141) -/

/-- A word that has issued goes on, in whatever state its operands left. -/
theorem goesOn_of_wordDone {i : Instr} {s u : State} {n : Nat} {b : Block} (h : exec i s = u.wordDone n b) :
    ∃ t, Runs i s t ∧ BlockGoesOn u t n b := by
  obtain ⟨t, hdone, hgoes⟩ := wordDone_goesOn u n b
  exact ⟨t, h.trans hdone, hgoes⟩

/-- A word of one operand that writes d from it, behind its guard and its channel. -/
theorem word1_of_exec {mk : BitVec 3 → Opnd → BitVec 4 → Instr} {n : Nat} {f : Block → BitVec 3 → TVal → TVal}
    (hexec : ∀ d a g s, exec (mk d a g) s = s.word1 g n d a fun k x => f k d x) : Word1 mk n f := by
  refine fun d a g => ⟨guarded_of_word (hexec d a g), fun s hg => ?_⟩
  have hrun := (hexec d a g s).trans (word_of_guard hg _ _)
  refine ⟨fun x k ha => ?_, fun ha => ?_⟩
  · simp only [ha] at hrun
    exact goesOn_of_wordDone hrun
  · simp only [ha] at hrun
    exact hrun

/-- A word of two operands that writes d from them, behind its guard and its channels. -/
theorem word2_of_exec {mk : BitVec 3 → Opnd → Opnd → BitVec 4 → Instr} {f : Block → BitVec 3 → TVal → TVal → TVal}
    (hexec : ∀ d a b g s, exec (mk d a b g) s = s.word2 g d a b fun k x y => f k d x y) : Word2 mk f := by
  refine fun d a b g => ⟨guarded_of_word (hexec d a b g), fun s hg => ?_⟩
  have hrun := (hexec d a b g s).trans (word_of_guard hg _ _)
  refine ⟨fun x y k j ha hb => ?_, fun ha => ?_⟩
  · simp only [ha, hb] at hrun
    exact goesOn_of_wordDone hrun
  · simp only [ha] at hrun
    exact hrun

/-! Integer words (R145, R146): each is an operation of lanes or of the whole value -/

theorem iWord2_of_exec {mk : BitVec 3 → Opnd → Opnd → IFmt → BitVec 4 → Instr} {op : Nat → Nat → Nat → Nat} {v : IFmt → TVal → TVal → TVal}
    (hexec : ∀ f d a b g s, exec (mk d a b f g) s = s.word2 g d a b fun _ x y => v f x y) (hv : ∀ f x y, Lanes f op x y (v f x y)) :
    IWord2 mk op := fun f => ⟨v f, hv f, word2_of_exec (hexec f)⟩

theorem iWord1_of_exec {mk : BitVec 3 → Opnd → IFmt → BitVec 4 → Instr} {op : Nat → Nat → Nat} {v : IFmt → TVal → TVal}
    (hexec : ∀ f d a g s, exec (mk d a f g) s = s.word1 g 1 d a fun _ x => v f x) (hv : ∀ f x, Lanes f (fun w a _ => op w a) x x (v f x)) :
    IWord1 mk op := fun f => ⟨v f, hv f, word1_of_exec (hexec f)⟩

/-- Exact arithmetic of two lanes, brought back to the lane (ADD, SUB, MUL). -/
theorem lanes_iOp2 (e : IExt) (op : Int → Int → Int) (f : IFmt) (x y : TVal) :
    Lanes f (fun w a b => narrow e w (op (asInt e w a) (asInt e w b))) x y (iOp2 f e op x y) :=
  lanes_zipParts (e := fun w a b => reduceElem e w (op (readElem e w a) (readElem e w b)))
    (fun w a b _ ha hb => by rw [reduceElem_mod, readElem_eq_asInt e ha, readElem_eq_asInt e hb]) f x y

/-- Signed arithmetic of two lanes modulo 2^w (MULH, MIN, MAX). -/
theorem lanes_iSigned (op : Nat → Int → Int → Int) (f : IFmt) (x y : TVal) :
    Lanes f (fun w a b => narrow .wrap w (op w (sgn w a) (sgn w b))) x y (iSigned f (op (iWidth f)) x y) :=
  lanes_zipParts (e := fun w a b => wrapNat (op w (sextNat a w) (sextNat b w)) w)
    (fun w a b _ ha hb => by rw [wrapNat_mod, sextNat_eq_sgn ha, sextNat_eq_sgn hb]) f x y

/-- An operation of two unsigned lanes. -/
theorem lanes_iUns {op e : Nat → Nat → Nat → Nat} (hop : ∀ w a b, 0 < w → a < 2 ^ w → b < 2 ^ w → e w a b % 2 ^ w = op w a b)
    (f : IFmt) (x y : TVal) : Lanes f op x y (iUns f e x y) := lanes_zipParts hop f x y

/-- An operation of one unsigned lane. -/
theorem lanes_iUn1 {op e : Nat → Nat → Nat} (hop : ∀ w a, 0 < w → a < 2 ^ w → e w a % 2 ^ w = op w a) (f : IFmt) (x : TVal) :
    Lanes f (fun w a _ => op w a) x x (iUn1 f e x) := lanes_mapParts hop f x

/-- A compare of signed lanes. -/
theorem lanes_iCmpS {c : Int → Int → Bool} {p : Int → Int → Prop} [∀ a b, Decidable (p a b)] (hc : ∀ a b, c a b = true ↔ p a b)
    (f : IFmt) (x y : TVal) : Lanes f (fun w a b => if p (sgn w a) (sgn w b) then 1 else 0) x y (iCmpS f c x y) :=
  lanes_zipParts (e := fun w a b => bit01 (c (sextNat a w) (sextNat b w)))
    (fun w a b hw ha hb => by rw [sextNat_eq_sgn ha, sextNat_eq_sgn hb, bit01_mod hw (hc _ _)]) f x y

/-- A compare of unsigned lanes. -/
theorem lanes_iCmpU {c : Nat → Nat → Bool} {p : Nat → Nat → Prop} [∀ a b, Decidable (p a b)] (hc : ∀ a b, c a b = true ↔ p a b)
    (f : IFmt) (x y : TVal) : Lanes f (fun _ a b => if p a b then 1 else 0) x y (iCmpU f c x y) :=
  lanes_zipParts (e := fun _ a b => bit01 (c a b)) (fun _ a b hw _ _ => bit01_mod hw (hc a b)) f x y

/-- CNE: the compare that differs. -/
theorem lanes_cne (f : IFmt) (x y : TVal) : Lanes f (fun _ a b => if a = b then 0 else 1) x y (iCmpU f (· != ·) x y) := by
  simpa only [ne_eq, ite_not] using lanes_iCmpU (c := (· != ·)) (p := (· ≠ ·)) (fun _ _ => bne_iff_ne) f x y

theorem lanes_abs (e : IExt) (f : IFmt) (x : TVal) :
    Lanes f (fun w a _ => narrow e w ((sgn w a).natAbs : Int)) x x
      (iVal f (mapParts (iWidth f) (fun v => reduceElem e (iWidth f) ((sextNat v (iWidth f)).natAbs : Nat)) x.data)) :=
  lanes_mapParts (e := fun w v => reduceElem e w ((sextNat v w).natAbs : Nat)) (op := fun w a => narrow e w ((sgn w a).natAbs : Int))
    (fun w a _ ha => by rw [reduceElem_mod, sextNat_eq_sgn ha]) f x

theorem lanes_neg (e : IExt) (f : IFmt) (x : TVal) :
    Lanes f (fun w a _ => narrow e w (-asInt e w a)) x x
      (iVal f (mapParts (iWidth f) (fun v => reduceElem e (iWidth f) (-readElem e (iWidth f) v)) x.data)) :=
  lanes_mapParts (e := fun w v => reduceElem e w (-readElem e w v)) (op := fun w a => narrow e w (-asInt e w a))
    (fun w a _ ha => by rw [reduceElem_mod, readElem_eq_asInt e ha]) f x

/-- A bitwise operation of whole values. -/
theorem lanes_of_bitwise {op : Nat → Nat → Nat → Nat} {v : Word → Word → Word}
    (h : ∀ w i x y, 0 < w → i < 64 / w → lane w (v x y) i = op w (lane w x i) (lane w y i)) (f : IFmt) (x y : TVal) :
    Lanes f op x y (iVal f (v x.data y.data)) := lanes_iff.2 ⟨rfl, fun i hi => h _ i _ _ (iWidth_pos f) hi⟩

/-! What shifts and MULHU leave of a lane (R145) -/

theorem shlElem_mod (w a b : Nat) : shlElem w a b % 2 ^ w = a * 2 ^ (b % 64) % 2 ^ w := by
  rw [shlElem, Nat.mod_mod, Nat.shiftLeft_eq]

theorem shrElem_mod {w a : Nat} (ha : a < 2 ^ w) (b : Nat) : shrElem w a b % 2 ^ w = a / 2 ^ (b % 64) := by
  rw [shrElem, Nat.shiftRight_eq_div_pow, Nat.mod_eq_of_lt ((Nat.div_le_self _ _).trans_lt ha)]

theorem sraElem_mod {w a : Nat} (ha : a < 2 ^ w) (b : Nat) : sraElem w a b % 2 ^ w = narrow .wrap w (sgn w a / 2 ^ (b % 64)) := by
  rw [sraElem, wrapNat_mod, sextNat_eq_sgn ha]

theorem mul_div_two_pow_mod {w a b : Nat} (ha : a < 2 ^ w) (hb : b < 2 ^ w) : a * b / 2 ^ w % 2 ^ w = a * b / 2 ^ w :=
  Nat.mod_eq_of_lt (Nat.div_lt_of_lt_mul (Nat.mul_lt_mul'' ha hb))

/-- R145, R146: each integer word is one operation of its lanes. -/
theorem handlerIntegerResults : HandlerIntegerResults := by
  unfold HandlerIntegerResults
  exact ⟨fun e => iWord2_of_exec (fun _ _ _ _ _ _ => rfl) (lanes_iOp2 e (· + ·)),
    fun e => iWord2_of_exec (fun _ _ _ _ _ _ => rfl) (lanes_iOp2 e (· - ·)),
    fun e => iWord2_of_exec (fun _ _ _ _ _ _ => rfl) (lanes_iOp2 e (· * ·)),
    iWord2_of_exec (fun _ _ _ _ _ _ => rfl) (lanes_iSigned fun w a b => a * b / 2 ^ w),
    iWord2_of_exec (fun _ _ _ _ _ _ => rfl) (lanes_iUns fun _ _ _ _ ha hb => mul_div_two_pow_mod ha hb),
    iWord2_of_exec (fun _ _ _ _ _ _ => rfl) (lanes_iSigned fun _ => min),
    iWord2_of_exec (fun _ _ _ _ _ _ => rfl) (lanes_iSigned fun _ => max),
    iWord2_of_exec (fun _ _ _ _ _ _ => rfl) (lanes_iUns fun _ _ _ _ ha _ => Nat.mod_eq_of_lt (min_lt_of_left_lt ha)),
    iWord2_of_exec (fun _ _ _ _ _ _ => rfl) (lanes_iUns fun _ _ _ _ ha hb => Nat.mod_eq_of_lt (max_lt ha hb)),
    fun e => iWord1_of_exec (fun _ _ _ _ _ => rfl) (lanes_abs e),
    fun e => iWord1_of_exec (fun _ _ _ _ _ => rfl) (lanes_neg e),
    iWord1_of_exec (fun _ _ _ _ _ => rfl) (lanes_iUn1 fun w a _ _ => by rw [popCount_eq, Nat.mod_eq_of_lt (length_filter_range_lt _)]),
    iWord1_of_exec (fun _ _ _ _ _ => rfl) (lanes_iUn1 fun w a _ ha => by rw [leadZeros_eq ha, Nat.mod_eq_of_lt (getD_find?_range_lt _ _)]),
    iWord1_of_exec (fun _ _ _ _ _ => rfl) (lanes_iUn1 fun w a _ _ => by rw [trailZeros_eq, Nat.mod_eq_of_lt (getD_find?_range_lt _ _)]),
    iWord2_of_exec (fun _ _ _ _ _ _ => rfl) (lanes_of_bitwise fun _ i x y hw _ => lane_and hw x y i),
    iWord2_of_exec (fun _ _ _ _ _ _ => rfl) (lanes_of_bitwise fun _ i x y hw _ => lane_or hw x y i),
    iWord2_of_exec (fun _ _ _ _ _ _ => rfl) (lanes_of_bitwise fun _ i x y hw _ => lane_xor hw x y i),
    iWord2_of_exec (fun _ _ _ _ _ _ => rfl) (lanes_of_bitwise (v := fun a b => a &&& ~~~b) fun _ _ _ _ hw hi => by
      rw [lane_and hw, lane_not hw hi]),
    iWord2_of_exec (fun _ _ _ _ _ _ => rfl) (lanes_iUns fun w a b _ _ _ => shlElem_mod w a b),
    iWord2_of_exec (fun _ _ _ _ _ _ => rfl) (lanes_iUns fun _ _ b _ ha _ => shrElem_mod ha b),
    iWord2_of_exec (fun _ _ _ _ _ _ => rfl) (lanes_iUns fun _ _ b _ ha _ => sraElem_mod ha b),
    iWord2_of_exec (fun _ _ _ _ _ _ => rfl) (lanes_iCmpU fun _ _ => beq_iff_eq),
    iWord2_of_exec (fun _ _ _ _ _ _ => rfl) lanes_cne,
    iWord2_of_exec (fun _ _ _ _ _ _ => rfl) (lanes_iCmpS fun _ _ => decide_eq_true_iff),
    iWord2_of_exec (fun _ _ _ _ _ _ => rfl) (lanes_iCmpU fun _ _ => decide_eq_true_iff),
    iWord2_of_exec (fun _ _ _ _ _ _ => rfl) (lanes_iCmpS fun _ _ => decide_eq_true_iff),
    iWord2_of_exec (fun _ _ _ _ _ _ => rfl) (lanes_iCmpU fun _ _ => decide_eq_true_iff)⟩

end Sys2Proof.Claims

/-! Immediate, bit-field and literal words (R147 to R149) and floating words (R150 to R152). -/

namespace Sys2Proof.Machine

open Sys2Proof.Claims

/-! Immediates (R147) -/

theorem zx11_eq (i : BitVec 11) : zx11 i = BitVec.ofNat 64 i.toNat := by simp [zx11]

theorem toInt_sx11 (i : BitVec 11) : (sx11 i).toInt = i.toInt := BitVec.toInt_signExtend_of_le (by decide)

theorem toNat_zx11 (i : BitVec 11) : (zx11 i).toNat = i.toNat := BitVec.toNat_setWidth_of_le (by decide)

/-- A sum with a sign-extended immediate. -/
theorem add_signExtend_eq_ofInt (x : Word) {n : Nat} (i : BitVec n) : x + i.signExtend 64 = BitVec.ofInt 64 (x.toNat + i.toInt) := by
  rw [BitVec.signExtend, BitVec.ofInt_add]
  simp

/-! Bit fields (R148) -/

theorem bfx_eq_sgn (v : Word) (p : BitVec 6) (l : BitVec 5) :
    sext64 (l.toNat + 1) (fieldOf v p l) = BitVec.ofInt 64 (sgn (l.toNat + 1) (bitsOf v.toNat (p.toNat + l.toNat) p.toNat)) := by
  have hlt : bitsOf v.toNat (p.toNat + l.toNat) p.toNat < 2 ^ (l.toNat + 1) := by
    rw [bitsOf_eq _ (n := l.toNat + 1) (by omega)]
    exact Nat.mod_lt _ (by positivity)
  rw [sext64, fieldOf, sextNat_eq_sgn hlt]

/-- Replacing a field keeps the bits above and below it. -/
theorem setBits_eq_ofNat (w : Word) (v : Nat) {hi lo n : Nat} (hn : hi + 1 = lo + n) :
    setBits w hi lo v = BitVec.ofNat 64 (2 ^ lo * (2 ^ n * (w.toNat >>> (lo + n)) + v % 2 ^ n) + w.toNat % 2 ^ lo) := by
  have hsplit : w.toNat = 2 ^ lo * (2 ^ n * (w.toNat >>> (lo + n)) + bitsOf w.toNat hi lo) + w.toNat % 2 ^ lo := by
    rw [bitsOf_eq _ hn, Nat.shiftRight_eq_div_pow, pow_add, ← Nat.div_div_eq_div_mul, Nat.div_add_mod, Nat.div_add_mod]
  rw [setBits, show hi + 1 - lo = n by omega]
  congr 1
  rw [Nat.mul_add] at hsplit ⊢
  rw [Nat.mul_comm (bitsOf _ _ _), Nat.mul_comm (v % 2 ^ n)]
  omega

theorem getLsbD_setBits (w : Word) (v : Nat) {hi lo n i : Nat} (hn : hi + 1 = lo + n) (hi64 : i < 64) :
    (setBits w hi lo v).getLsbD i = if lo ≤ i ∧ i ≤ hi then v.testBit (i - lo) else w.getLsbD i := by
  have hlow : w.toNat % 2 ^ lo < 2 ^ lo := Nat.mod_lt _ (by positivity)
  have hfield : v % 2 ^ n < 2 ^ n := Nat.mod_lt _ (by positivity)
  rw [setBits_eq_ofNat w v hn, BitVec.getLsbD_ofNat, decide_eq_true hi64, Bool.true_and, Nat.testBit_two_pow_mul_add _ hlow,
    Nat.testBit_two_pow_mul_add _ hfield, ← BitVec.testBit_toNat]
  by_cases hbelow : i < lo
  · rw [if_pos hbelow, if_neg (by omega), Nat.testBit_mod_two_pow, decide_eq_true hbelow, Bool.true_and]
  · by_cases habove : i ≤ hi
    · rw [if_neg hbelow, if_pos (show i - lo < n by omega), if_pos ⟨by omega, habove⟩, Nat.testBit_mod_two_pow,
        decide_eq_true (show i - lo < n by omega), Bool.true_and]
    · rw [if_neg hbelow, if_neg (show ¬ i - lo < n by omega), if_neg (by omega), Nat.testBit_shiftRight,
        show lo + n + (i - lo - n) = i by omega]

/-! Literals (R149) -/

theorem lith_eq_ofNat (lit : BitVec 32) (x : Word) : lit ++ x.extractLsb' 0 32 = BitVec.ofNat 64 (lit.toNat * 2 ^ 32 + x.toNat % 2 ^ 32) := by
  have hlow : (x.extractLsb' 0 32).toNat = x.toNat % 2 ^ 32 := by simp
  apply BitVec.eq_of_toNat_eq
  have hlit := lit.isLt
  rw [BitVec.toNat_append, hlow, Nat.shiftLeft_eq, Nat.mul_comm, ← Nat.two_pow_add_eq_or_of_lt (Nat.mod_lt _ (by decide)), BitVec.toNat_ofNat]
  omega

/-! The claims' forms of what a floating word computes (R150, R151) -/

theorem signBit_fForm (f : FFmt) : (fForm f).signBit = 2 ^ (fWidth f - 1) := by cases f <;> rfl

/-- The tag of the integers of a format's width. -/
theorem fcvti_fmt (f : CFmt) : (if f == .f32x2 then 1 else 0 : BitVec 3) = if f = .f32x2 then 1 else 0 := by cases f <;> rfl

end Sys2Proof.Machine

namespace Sys2Proof.Claims

open Sys2Proof.Machine

/-- A word of no operand, of two words of code, that writes d. -/
theorem literal_of_exec {d : BitVec 3} {g : BitVec 4} {i : Instr} {v : Block → Word}
    (hexec : ∀ s, exec i s = s.word g 2 fun k => s.put1 2 k d (i64 (v k))) :
    Guarded i g 2 ∧ ∀ s, guardTrue s.blk g = true → ∃ t, Runs i s t ∧ BlockGoesOn s t 2 (withT s.blk d (w64 (v s.blk))) :=
  ⟨guarded_of_word hexec, fun s hg => goesOn_of_wordDone ((hexec s).trans (word_of_guard hg _ _))⟩

/-- A word of one operand whose value is a 64-bit one. -/
theorem word1_of_value {mk : BitVec 3 → Opnd → BitVec 4 → Instr} {n : Nat} {f v : TVal → Word}
    (hexec : ∀ d a g s, exec (mk d a g) s = s.word1 g n d a fun _ x => i64 (v x)) (hv : ∀ x, v x = f x) :
    Word1 mk n fun _ _ x => w64 (f x) := by
  obtain rfl : v = f := funext hv
  exact word1_of_exec hexec

/-- BFI: the field of a goes into d, whose other bits stay. -/
theorem bfi_sets_field (p : BitVec 6) (l : BitVec 5) : ∃ v : Word → Word → Word,
    (∀ o x i, i < 64 → (v o x).getLsbD i = if p.toNat ≤ i ∧ i ≤ p.toNat + l.toNat then x.getLsbD (i - p.toNat) else o.getLsbD i) ∧
    Word1 (fun d a g => .hBfi d a p l g) 1 fun k d x => w64 (v k.t[d.toNat].data x.data) :=
  ⟨fun o x => setBits o (p.toNat + l.toNat) p.toNat x.toNat,
    fun o x _ hi => getLsbD_setBits o x.toNat (n := l.toNat + 1) (by omega) hi, word1_of_exec fun _ _ _ _ => rfl⟩

/-- R147 to R149: each immediate, bit-field and literal word is one operation of 64-bit values. -/
theorem handlerImmediateResults : HandlerImmediateResults := by
  unfold HandlerImmediateResults
  exact ⟨fun i => word1_of_value (fun _ _ _ _ => rfl) fun x => add_signExtend_eq_ofInt x.data i,
    fun i => word1_of_value (fun _ _ _ _ => rfl) fun _ => by rw [zx11_eq],
    fun i => word1_of_value (fun _ _ _ _ => rfl) fun _ => by rw [zx11_eq],
    fun i => word1_of_value (fun _ _ _ _ => rfl) fun _ => by rw [zx11_eq],
    fun n => word1_of_value (fun _ _ _ _ => rfl) fun x => shl_eq_ofNat x.data _,
    fun n => word1_of_value (fun _ _ _ _ => rfl) fun x => shr_eq_ofNat x.data _,
    fun n => word1_of_value (fun _ _ _ _ => rfl) fun x => sra_eq_ofInt x.data _,
    fun i => word1_of_value (fun _ _ _ _ => rfl) fun _ => flag_eq _ _ beq_iff_eq,
    fun i => word1_of_value (fun _ _ _ _ => rfl) fun _ => flag_eq _ _ (by rw [BitVec.slt_iff_toInt_lt, toInt_sx11]),
    fun i => word1_of_value (fun _ _ _ _ => rfl) fun _ => flag_eq _ _ (by rw [BitVec.ult_iff_lt, BitVec.lt_def, toNat_zx11]),
    fun p l _ => word1_of_value (fun _ _ _ _ => rfl) fun x => bfx_eq_sgn x.data p l,
    fun p l _ => word1_of_value (fun _ _ _ _ => rfl) fun _ => rfl,
    fun p l _ => bfi_sets_field p l,
    fun d g lit => literal_of_exec (v := fun _ => lit.signExtend 64) fun _ => rfl,
    fun d g lit => by
      simpa only [lith_eq_ofNat] using
        literal_of_exec (i := .hLith d g lit) (v := fun k => lit ++ k.t[d.toNat].data.extractLsb' 0 32) fun _ => rfl,
    fun lit => word1_of_value (fun _ _ _ _ => rfl) fun x => add_signExtend_eq_ofInt x.data lit⟩

/-- Settles O11: a word that runs writes what its operation says (`word1_of_exec`, `word2_of_exec`); an integer word's operation is one of
lanes (`lanes_zipParts`, `lanes_mapParts`), and an immediate's is one of 64-bit values. -/
theorem handlerScalarResults : Obligations.HandlerScalarResults := ⟨handlerIntegerResults, handlerImmediateResults⟩

/-- Settles O12: each floating word runs under `word1_of_exec` or `word2_of_exec`, and its value is the claim's exact value rounded once. -/
theorem handlerFloatResults : Obligations.HandlerFloatResults := by
  unfold Obligations.HandlerFloatResults
  exact ⟨fun f e => word2_of_exec fun _ _ _ _ _ => rfl,
    fun f e => word2_of_exec fun _ _ _ _ _ => rfl,
    fun f e => word2_of_exec fun _ _ _ _ _ => rfl,
    fun f e => word2_of_exec fun _ _ _ _ _ => rfl,
    fun f e => word2_of_exec fun _ _ _ _ _ => rfl,
    fun f e => word2_of_exec fun _ _ _ _ _ => rfl,
    fun f => word1_of_exec fun _ _ _ _ => by simp only [← signBit_fForm]; rfl,
    fun f => word1_of_exec fun _ _ _ _ => by simp only [← signBit_fForm]; rfl,
    fun f => word2_of_exec fun _ _ _ _ _ => rfl,
    fun f => word2_of_exec fun _ _ _ _ _ => rfl,
    fun f => word2_of_exec fun _ _ _ _ _ => rfl,
    fun f e => word1_of_exec fun _ _ _ _ => rfl,
    fun f e => word1_of_exec fun _ _ _ _ => rfl,
    fun f e => word1_of_exec fun _ _ _ _ => rfl,
    fun u f e => word1_of_exec fun _ _ _ _ => rfl,
    fun f e => word1_of_exec fun _ _ _ _ => rfl,
    fun f e => word1_of_exec fun _ _ _ _ => by simp only [← fcvti_fmt]; rfl,
    fun f e => word2_of_exec fun _ _ _ _ _ => rfl⟩

end Sys2Proof.Claims

/-! Tags, SYNC, fences and the clock of handlers (R158 to R161). -/

namespace Sys2Proof.Machine

open Sys2Proof.Claims

/-! The wider of two scopes (R160) -/

theorem le_scopeMax (x : Option (BitVec 2)) (y : BitVec 2) : y.toNat ≤ (scopeMax x y).toNat := by
  cases x with
  | none => exact le_rfl
  | some x =>
    rw [scopeMax]
    split <;> omega

theorem le_scopeMax_of_eq_some {x : Option (BitVec 2)} {z : BitVec 2} (h : x = some z) (y : BitVec 2) : z.toNat ≤ (scopeMax x y).toNat := by
  subst h
  rw [scopeMax]
  split <;> omega

/-- The wider scope is one of the two. -/
theorem scopeMax_eq_or (x : Option (BitVec 2)) (y : BitVec 2) : scopeMax x y = y ∨ x = some (scopeMax x y) := by
  cases x with
  | none => exact .inl rfl
  | some x =>
    rw [scopeMax]
    split
    · exact .inl rfl
    · exact .inr rfl

/-! Each word's meaning, under its guard -/

theorem exec_hTagLvl (d : BitVec 3) (g : BitVec 4) (s : State) : exec (.hTagLvl d g) s = execHTagLvl d g s := rfl
theorem exec_hTagFree (g : BitVec 4) (s : State) : exec (.hTagFree g) s = execHTagFree g s := rfl
theorem exec_hTagFreectx (g : BitVec 4) (s : State) : exec (.hTagFreectx g) s = execHTagFreectx g s := rfl
theorem exec_hTagPool (d : BitVec 3) (a : Opnd) (g : BitVec 4) (s : State) : exec (.hTagPool d a g) s = execHTagPool d a g s := rfl
theorem exec_hTagParent (d : BitVec 3) (g : BitVec 4) (s : State) : exec (.hTagParent d g) s = execHTagParent d g s := rfl
theorem exec_hSync (d : BitVec 3) (a b : Opnd) (g : BitVec 4) (reply : BitVec 6) (f : BitVec 3) (sc : BitVec 2) (cmd : BitVec 8) (s : State) :
    exec (.hSync d a b g reply f sc cmd) s = execHSync d a b g reply f sc cmd s := rfl
theorem exec_hFenceSl (g : BitVec 4) (s : State) : exec (.hFenceSl g) s = execHFenceSl g s := rfl
theorem exec_hFenceRel (sc : BitVec 2) (g : BitVec 4) (s : State) : exec (.hFenceRel sc g) s = execHFenceRel sc g s := rfl
theorem exec_hFenceAcq (sc : BitVec 2) (g : BitVec 4) (s : State) : exec (.hFenceAcq sc g) s = execHFenceAcq sc g s := rfl
theorem exec_hLclk (d : BitVec 3) (g : BitVec 4) (s : State) : exec (.hLclk d g) s = execHLclk d g s := rfl
theorem exec_hLclkadv (a : Opnd) (g : BitVec 4) (s : State) : exec (.hLclkadv a g) s = execHLclkadv a g s := rfl

/-! PH.ERR's code, bits [7:0] of its operand (log 91) -/

theorem bitsOf_low_byte (v : Nat) : bitsOf v 7 0 = v % 256 := by
  rw [bitsOf_eq v (n := 8) rfl, pow_zero, Nat.div_one]
  rfl

theorem and_low_byte (v : Word) : v &&& 0xFF = BitVec.ofNat 64 (v.toNat % 256) := by
  apply BitVec.eq_of_toNat_eq
  rw [BitVec.toNat_and, BitVec.toNat_ofNat]
  exact (Nat.and_two_pow_sub_one_eq_mod v.toNat 8).trans (by omega)

/-! A word whose operand is there -/

section
variable {s : State} {x y : TVal} {k j : Block} {a b : Opnd} {g : BitVec 4} (hg : guardTrue s.blk g = true)
  (ha : s.opnd s.blk a = some (x, k))
include hg ha

theorem exec_hTagPool_of_opnd (d : BitVec 3) : exec (.hTagPool d a g) s =
    if 8 ≤ x.data.toNat then s.trapBlock 0x04 0
    else s.wordDone 1 (withT k d (w64 (if x.data = 0 then 0 else BitVec.ofNat 64 (credit s.pool.tags k.ctx x.data.toNat).toNat))) := by
  rw [exec_hTagPool, execHTagPool, word_of_guard hg]
  simp only [ha]
  rfl

theorem exec_hLclkadv_of_opnd : exec (.hLclkadv a g) s =
    if 2 ^ 31 ≤ x.data.toNat then s.trapBlock 0x04 0 else s.wordDone 1 { k with lclkAdv := k.lclkAdv + x.data.toNat } := by
  rw [exec_hLclkadv, execHLclkadv, word_of_guard hg]
  simp only [ha]

variable (hb : s.opnd k b = some (y, j)) (d : BitVec 3) (reply : BitVec 6) (f : BitVec 3) (sc : BitVec 2) (cmd : BitVec 8)
include hb

theorem exec_hSync_of_fault {c : Nat}
    (hreach : s.reach (cellAgent s.cell) (s.cellVmid s.cell) x.data.toNat (syncBytes f) (syncBytes f) .rw (syncNeeds cmd) = .fault c) :
    exec (.hSync d a b g reply f sc cmd) s = s.trapBlock c x.data.toNat := by
  rw [exec_hSync, execHSync, word_of_guard hg]
  simp only [ha, hb, hreach]

/-- A SYNC whose address is reached checks its reply entry, then PH.ERR's code, and joins the block's messages (R159). -/
theorem exec_hSync_of_reach {w : Target} {u : State}
    (hreach : s.reach (cellAgent s.cell) (s.cellVmid s.cell) x.data.toNat (syncBytes f) (syncBytes f) .rw (syncNeeds cmd) = .ok w u) :
    exec (.hSync d a b g reply f sc cmd) s =
      if u.replyOk reply = false then u.trapBlock 0x05 0
      else if cmd = 0x25 ∧ y.data.toNat % 256 = 0 then u.trapBlock 0x04 0
      else u.wordDone 2 { j with syncs := j.syncs ++ [⟨cmd, f, sc, w.flat,
        if cmd = 0x25 then BitVec.ofNat 64 (y.data.toNat % 256) else syncData f y.data,
        if cmd = 0x0B then syncData f j.t[d.toNat].data else 0, 0, u.cellVmid u.cell, u.replyTo j reply⟩] } := by
  rw [exec_hSync, execHSync, word_of_guard hg]
  simp only [ha, hb, hreach, Bool.not_eq_true', Bool.and_eq_true, decide_eq_true_eq, beq_iff_eq, bitsOf_low_byte, and_low_byte]

end

end Sys2Proof.Machine

namespace Sys2Proof.Claims

open Sys2Proof.Machine

/-- A word is passed where its guard is false and otherwise does what it says. -/
theorem guarded_and_runs {i : Instr} {g : BitVec 4} {n : Nat} {go : State → Block → Out} {p : State → Prop}
    (hexec : ∀ s, exec i s = s.word g n (go s)) (hgo : ∀ s, exec i s = go s s.blk → p s) :
    Guarded i g n ∧ ∀ s, guardTrue s.blk g = true → p s :=
  ⟨guarded_of_word hexec, fun s hg => hgo s ((hexec s).trans (word_of_guard hg _ _))⟩

/-- R158: TAG FREECTX of an allocated context waits for the commit; of another it traps. -/
theorem freectx_of_pool (g : BitVec 4) : Guarded (.hTagFreectx g) g 1 ∧ ∀ s, guardTrue s.blk g = true →
    (s.pool.ctxs.contains s.blk.ctx = true → ∃ t, Runs (.hTagFreectx g) s t ∧ BlockGoesOn s t 1 { s.blk with freeCtx := true }) ∧
    (s.pool.ctxs.contains s.blk.ctx = false → exec (.hTagFreectx g) s = s.trapBlock 0x45 0) :=
  guarded_and_runs (exec_hTagFreectx g) fun _ hrun =>
    ⟨fun hlive => goesOn_of_wordDone (hrun.trans (if_pos hlive)), fun hfree => hrun.trans (if_neg (by rw [hfree]; exact Bool.false_ne_true))⟩

/-- R158: TAG PARENT by the tag's level and by what the pool holds of it. -/
theorem parent_of_pool (d : BitVec 3) (g : BitVec 4) : Guarded (.hTagParent d g) g 1 ∧ ∀ s, guardTrue s.blk g = true →
    (s.blk.lvl = 0 → ∃ t, Runs (.hTagParent d g) s t ∧ BlockGoesOn s t 1 (withT s.blk d (w64 0))) ∧
    (∀ e, s.blk.lvl ≠ 0 → findTag s.pool.tags s.blk.tag = some e →
      ∃ t, Runs (.hTagParent d g) s t ∧ BlockGoesOn s t 1 (withT s.blk d (w64 (e.parent.setWidth 64)))) ∧
    (s.blk.lvl ≠ 0 → findTag s.pool.tags s.blk.tag = none →
      ∃ t, Runs (.hTagParent d g) s t ∧ BlockGoesOn s.fresh.2 t 1 (withT s.blk d (w64 s.fresh.1))) := by
  refine guarded_and_runs (exec_hTagParent d g) fun s hrun => ⟨fun h0 => ?_, fun e h0 hfind => ?_, fun h0 hfind => ?_⟩
  · exact goesOn_of_wordDone (hrun.trans (if_pos h0))
  · rw [if_neg h0, hfind] at hrun
    exact goesOn_of_wordDone hrun
  · rw [if_neg h0, hfind] at hrun
    exact goesOn_of_wordDone hrun

/-- R160: FENCE REL keeps the wider of the block's scope and its own. -/
theorem fenceRel_widens (sc : BitVec 2) (g : BitVec 4) : Guarded (.hFenceRel sc g) g 1 ∧ ∀ s, guardTrue s.blk g = true →
    ∃ t m, Runs (.hFenceRel sc g) s t ∧ BlockGoesOn s t 1 { s.blk with fenceRel := some m } ∧ sc.toNat ≤ m.toNat ∧
      (m = sc ∨ s.blk.fenceRel = some m) ∧ ∀ x, s.blk.fenceRel = some x → x.toNat ≤ m.toNat := by
  refine guarded_and_runs (exec_hFenceRel sc g) fun s hrun => ?_
  obtain ⟨t, hdone, hgoes⟩ := goesOn_of_wordDone hrun
  exact ⟨t, _, hdone, hgoes, le_scopeMax _ sc, scopeMax_eq_or _ sc, fun x h => le_scopeMax_of_eq_some h sc⟩

/-- Settles O15: each word under its guard is one change of its block or the trap of its operand; a SYNC is checked in the order of
`exec_hSync_of_reach`. -/
theorem handlerTagsSyncAndClock : Obligations.HandlerTagsSyncAndClock := by
  unfold Obligations.HandlerTagsSyncAndClock
  refine ⟨fun d g => guarded_and_runs (exec_hTagLvl d g) fun _ => goesOn_of_wordDone,
    fun g => guarded_and_runs (exec_hTagFree g) fun _ => goesOn_of_wordDone, freectx_of_pool,
    fun d a g => ⟨guarded_of_word (exec_hTagPool d a g), fun s x k hg ha => ?_⟩, parent_of_pool,
    fun d a b g reply f sc cmd => ⟨guarded_of_word (exec_hSync d a b g reply f sc cmd), fun s x y k j hg ha hb => ?_⟩,
    fun g => guarded_and_runs (exec_hFenceSl g) fun _ => goesOn_of_wordDone, fenceRel_widens,
    fun sc g => guarded_and_runs (exec_hFenceAcq sc g) fun _ => goesOn_of_wordDone,
    fun d g => guarded_and_runs (exec_hLclk d g) fun _ hrun => by
      rw [BitVec.ofNat_toNat]
      exact goesOn_of_wordDone hrun,
    fun a g => ⟨guarded_of_word (exec_hLclkadv a g), fun s x k hg ha => ?_⟩⟩
  · have hpool := exec_hTagPool_of_opnd hg ha d
    exact ⟨fun h => goesOn_of_wordDone (hpool.trans (if_neg (by omega))), fun h => hpool.trans (if_pos h)⟩
  · have hsync := fun w u => exec_hSync_of_reach hg ha hb d reply f sc cmd (w := w) (u := u)
    refine ⟨fun w u hreach hreply hcmd => ?_, fun w u hcmd hreach hreply => ⟨fun hcode => ?_, fun hcode => ?_⟩,
      fun w u hreach hreply => ?_, fun hva halign =>
        exec_hSync_of_fault hg ha hb d reply f sc cmd (reach_of_misaligned s hva halign _ _ _ _ _)⟩
    · have hserves := ne_false_of_eq_true hreply
      exact goesOn_of_wordDone ((hsync w u hreach).trans (by rw [if_neg hserves, if_neg fun h => hcmd h.1, if_neg hcmd]))
    · have hserves := ne_false_of_eq_true hreply
      subst hcmd
      exact goesOn_of_wordDone ((hsync w u hreach).trans (by rw [if_neg hserves, if_neg fun h => hcode h.2, if_pos rfl]; rfl))
    · have hserves := ne_false_of_eq_true hreply
      exact (hsync w u hreach).trans (by rw [if_neg hserves, if_pos ⟨hcmd, hcode⟩])
    · exact (hsync w u hreach).trans (if_pos hreply)
  · have hadv := exec_hLclkadv_of_opnd hg ha
    exact ⟨fun h => goesOn_of_wordDone (hadv.trans (if_neg (by omega))), fun h => hadv.trans (if_pos h)⟩

end Sys2Proof.Claims

/-! What a snapshot leaves in the byte memory (R168). -/

namespace Sys2Proof.Machine

/-- Taking entries out by their keys leaves what a key that stays finds. -/
theorem smFind_filter_of_kept {α : Type} (m : SMap α) (p : Nat → Bool) {k : Nat} (hk : p k = true) :
    smFind (m.filter fun e => p e.1) k = smFind m k := by
  induction m with
  | nil => rfl
  | cons e r ih =>
    obtain ⟨j, v⟩ := e
    rw [List.filter_cons]
    split
    · simp only [smFind, ih]
    · next hout =>
      have hne : j ≠ k := by
        rintro rfl
        exact hout hk
      rw [ih, smFind, if_neg hne]

/-- Clearing a range leaves the bytes outside it alone. -/
theorem memByte_memClear_of_out (m : List Host.Cell) {a n b : Nat} (h : b < a ∨ a + n ≤ b) : memByte (memClear m a n) b = memByte m b := by
  have hkept : (!(decide (a ≤ b) && decide (b < a + n))) = true := by
    simp only [Bool.not_eq_true', Bool.and_eq_false_iff, decide_eq_false_iff_not]
    omega
  exact congrArg (Option.getD · memDefault) (smFind_filter_of_kept m (fun k => !(decide (a ≤ k) && decide (k < a + n))) hkept)

/-- Writes of one length at several places leave alone a byte that lies outside each. -/
theorem memByte_foldl_memWrite_of_out {α : Type} (place value : α → Nat) (n : Nat) {b : Nat} (l : List α)
    (h : ∀ x ∈ l, b < place x ∨ place x + n ≤ b) (m : List Host.Cell) :
    memByte (l.foldl (fun m x => memWrite m (place x) n (value x)) m) b = memByte m b := by
  induction l generalizing m with
  | nil => rfl
  | cons x r ih =>
    rw [List.foldl_cons, ih fun y hy => h y (List.mem_cons_of_mem x hy)]
    exact memByte_memWrite_of_out m _ _ _ (h x List.mem_cons_self)

/-- A read is of the bytes at its own addresses alone. -/
theorem memRead_congr {m m' : List Host.Cell} {a n : Nat} (h : ∀ b, a ≤ b → b < a + n → memByte m b = memByte m' b) :
    memRead m a n = memRead m' a n := by
  induction n generalizing a with
  | zero => rfl
  | succ n ih => rw [memRead, memRead, h a (by omega) (by omega), ih fun b hlo hhi => h b (by omega) (by omega)]

/-- In canonical form a number that was written reads back, as far as its bytes hold it. -/
theorem memRead_memWrite_same {m : List Host.Cell} (hm : Memory.wf m = true) (a n v : Nat) : memRead (memWrite m a n v) a n = v % 256 ^ n := by
  induction n generalizing m a v with
  | zero => simp [memRead, Nat.mod_one]
  | succ n ih =>
    rw [memWrite, memRead, ih (memPut_wf hm a _), memByte_memWrite_of_out _ _ _ _ (by omega), memByte_memPut_same hm, BitVec.toNat_ofNat,
      pow_succ' 256 n, Nat.mod_mul]

/-- The status word that a new snapshot window gets (R168). -/
def State.snapStatus (s : State) (die : Nat) (l : Launch) (held : Bool) : Nat :=
  2 ^ 63 + (if held then 2 ^ 60 else 0) + (if (s.snapRecs l).length > 2046 then 2 ^ 59 else 0) + die * 2 ^ 32 + l.id.toNat

theorem State.snapStatus_lt (s : State) {die : Nat} (hdie : die < 16) (l : Launch) (held : Bool) : s.snapStatus die l held < 256 ^ 8 := by
  have hid := l.id.isLt
  unfold State.snapStatus
  split <;> split <;> omega

/-- Behind the status word a window holds its other header words and at most 2046 records, so that the status word and what lies outside the window
are as the clearing of the window and the write of the status word leave them. -/
theorem State.memByte_writeSnap (s : State) (die w : Nat) (l : Launch) (limit : Nat) (held : Bool) {b : Nat}
    (h : b < snapBase die w + 8 ∨ snapBase die w + 65536 ≤ b) : memByte (s.writeSnap die w l limit held).mem b =
      memByte (memWrite (memClear s.mem (snapBase die w) 65536) (snapBase die w) 8 (s.snapStatus die l held)) b := by
  have hrecord : ∀ r ∈ ((s.snapRecs l).take 2046).zipIdx, b < snapBase die w + 64 + 32 * r.2 ∨ snapBase die w + 64 + 32 * r.2 + 32 ≤ b := by
    intro r hr
    have hlt : r.2 < 2046 := (List.snd_lt_of_mem_zipIdx hr).trans_le (by simp)
    omega
  unfold State.writeSnap
  dsimp only
  rw [memByte_foldl_memWrite_of_out (fun r : SnapRec × Nat => snapBase die w + 64 + 32 * r.2) (fun r => r.1.bytes) 32 _ hrecord,
    memByte_memWrite_of_out _ _ _ _ (by omega), memByte_memWrite_of_out _ _ _ _ (by omega), memByte_memWrite_of_out _ _ _ _ (by omega),
    memByte_memWrite_of_out _ _ _ _ (by omega)]
  rfl

/-- A snapshot window reads its status word (R168). -/
theorem State.snapStat_writeSnap (s : State) {die : Nat} (w : Nat) (l : Launch) (limit : Nat) (held : Bool) (hdie : die < 16)
    (hm : Memory.wf s.mem = true) : (s.writeSnap die w l limit held).snapStat die w = s.snapStatus die l held := by
  rw [State.snapStat, memRead_congr fun b _ hb => s.memByte_writeSnap die w l limit held (Or.inl hb), memRead_memWrite_same (memClear_wf hm _ _),
    Nat.mod_eq_of_lt (s.snapStatus_lt hdie l held)]

/-- A snapshot changes its own window alone. -/
theorem State.memByte_writeSnap_of_out (s : State) (die w : Nat) (l : Launch) (limit : Nat) (held : Bool) {a : Nat}
    (h : a < snapBase die w ∨ snapBase die w + 65536 ≤ a) : memByte (s.writeSnap die w l limit held).mem a = memByte s.mem a := by
  rw [s.memByte_writeSnap die w l limit held (by omega), memByte_memWrite_of_out _ _ _ _ (by omega), memByte_memClear_of_out _ h]

end Sys2Proof.Machine

namespace Sys2Proof.Claims

open Sys2Proof.Machine

/-! The detector (R167 to R169) -/

section
variable {u lead : Nat} {s : State} {l : Launch} (hl : s.launch? u = some l) (hlead : l.region.headD 0 = lead)
  (hst : l.st = .running ∨ l.st = .pending) (hheld : l.held = false) (hfrozen : l.frozen = false)
  (hidle : (s.getTile lead).spr.qwcLimit.toNat ≤ l.idle) (howner : (s.getTile lead).owner = some u)
include hl hlead hst hheld hfrozen hidle howner

/-- Where the detector fires and its die has a free window once the Vault event is written, the policy picks between a hold and a fault. -/
theorem exec_qwcDetect_of_free {w : Nat} (hw : (s.vaultUnit u 0x0D 0 0).freeWindow (tileDie lead) = some w) :
    exec (.qwcDetect u) s =
      let t := ((s.vaultUnit u 0x0D 0 0).writeSnap (tileDie lead) w l (s.getTile lead).spr.qwcLimit.toNat l.qwcHold).interrupt (16 + tileDie lead)
      .next (if l.qwcHold then t.modLaunch u fun l => { l with held := true, window := some (tileDie lead, w), idle := 0 }
        else t.faultLaunch u 0xE1 lead 0) := by
  simp only [exec, execQwcDetect, State.quiescent, hl, hlead, hw]
  exact if_neg (by simpa [hheld, hfrozen, Nat.not_lt.mpr hidle, howner] using hst.resolve_left)

/-- Where no window is free, the snapshot is the Vault event alone and the launch faults under either policy (R169; log 119). -/
theorem exec_qwcDetect_of_full (hfull : (s.vaultUnit u 0x0D 0 0).freeWindow (tileDie lead) = none) :
    exec (.qwcDetect u) s = .next ((s.vaultUnit u 0x0D 0 0).faultLaunch u 0xE1 lead 0) := by
  simp only [exec, execQwcDetect, State.quiescent, hl, hlead, hfull]
  exact if_neg (by simpa [hheld, hfrozen, Nat.not_lt.mpr hidle, howner] using hst.resolve_left)

end

/-! The host's actions on a window (R168, R169) -/

section
variable {die w u : Nat} {s : State} {l : Launch}

theorem exec_snapshotResume_of_held (h : s.heldBy die w = some (u, l)) : exec (.snapshotResume die w) s = .next (s.unhold die w u) := by
  simp [exec, execSnapshotResume, State.snapAct, h]

theorem exec_snapshotDrain_of_held (h : s.heldBy die w = some (u, l)) (hdrain : l.drain = none) : exec (.snapshotDrain die w) s =
    .next ((s.unhold die w u).modLaunch u fun l => { l with drain := some ⟨.host, false, false, 0⟩ }) := by
  simp [exec, execSnapshotDrain, State.snapAct, h, hdrain]

theorem exec_snapshotFault_of_held (h : s.heldBy die w = some (u, l)) :
    exec (.snapshotFault die w) s = .next ((s.unhold die w u).quiescent u l) := by
  simp [exec, execSnapshotFault, State.snapAct, h]

/-- A write that frees a window clears its status word, unless the window is empty or its region is held. -/
theorem exec_snapshotFree (hdie : die < 16) (hw : w < 4) : exec (.snapshotFree die w) s =
    .next (if bitOf (s.snapStat die w) 63 && !bitOf (s.snapStat die w) 60 then s.setSnap die w 0 else s) := by
  simp [exec, execSnapshotFree, State.snapFree, hdie, hw]

end

/-! The watchdog (R175) -/

theorem exec_watchdog {u lead : Nat} {s : State} {l : Launch} (hl : s.launch? u = some l) (hlead : l.region.headD 0 = lead)
    (hst : l.st = .running ∨ l.st = .pending) (hfrozen : l.frozen = false) (howner : (s.getTile lead).owner = some u)
    (hdue : (s.getTile lead).spr.wdog.toNat ≤ l.wdog) :
    exec (.watchdog u) s = .next (s.faultLaunch u 0xE0 lead (s.getTile lead).spc.toNat) := by
  simp only [exec, execWatchdog, hl, hlead]
  exact if_neg (by simpa [hfrozen, howner, Nat.not_lt.mpr hdue] using hst.resolve_left)

/-- Settles O39: the detector by its die's windows and the launch's policy, each action of the host on the launch that the window holds, and the
watchdog; a snapshot's status word reads back since its later writes lie behind that word. -/
theorem quiescenceAndWatchdog : Obligations.QuiescenceAndWatchdog := by
  unfold Obligations.QuiescenceAndWatchdog
  refine ⟨fun u s l hl hst hheld hfrozen hidle howner => ⟨fun w hw hhold => ?_, fun w hw hhold => ?_, fun hfull => ?_⟩,
    fun s die w l limit held => ⟨fun hdie hm => s.snapStat_writeSnap w l limit held hdie hm,
      fun a ha => s.memByte_writeSnap_of_out die w l limit held ha⟩,
    fun die w s u l h => ⟨exec_snapshotResume_of_held h, exec_snapshotDrain_of_held h, exec_snapshotFault_of_held h⟩,
    fun die w s hdie hw hvalid hfree => ?_, fun die w s hdie hw hheld => ?_,
    fun u s l hl hst hfrozen howner hdue => exec_watchdog hl rfl hst hfrozen howner hdue⟩
  · exact (exec_qwcDetect_of_free hl rfl hst hheld hfrozen hidle howner hw).trans (by rw [hhold]; rfl)
  · exact (exec_qwcDetect_of_free hl rfl hst hheld hfrozen hidle howner hw).trans (by rw [hhold]; rfl)
  · exact exec_qwcDetect_of_full hl rfl hst hheld hfrozen hidle howner hfull
  · rw [Runs, exec_snapshotFree hdie hw, hvalid, hfree]
    rfl
  · rw [Runs, exec_snapshotFree hdie hw, hheld, Bool.not_true, Bool.and_false]
    rfl

end Sys2Proof.Claims

/-! Page migration (R209 to R211). -/

namespace Sys2Proof.Machine

/-! Fields of a word -/

/-- A field that is replaced reads back, as far as its bits hold it. -/
theorem bitsOf_setBits_same (w : Word) (v : Nat) {hi lo n : Nat} (hn : hi + 1 = lo + n) (hhi : hi < 64) :
    bitsOf (setBits w hi lo v).toNat hi lo = v % 2 ^ n := by
  refine Nat.eq_of_testBit_eq fun i => ?_
  rw [bitsOf_eq _ hn, Nat.testBit_mod_two_pow, Nat.testBit_mod_two_pow, Nat.testBit_div_two_pow]
  by_cases hi : i < n
  · have hbit := getLsbD_setBits w v (i := lo + i) hn (by omega)
    rw [if_pos (by omega), Nat.add_sub_cancel_left] at hbit
    rw [BitVec.testBit_toNat, Nat.add_comm i lo, hbit]
  · simp [hi]

/-- Replacing a field leaves a bit outside it alone. -/
theorem bitOf_setBits_of_out (w : Word) (v : Nat) {hi lo n i : Nat} (hn : hi + 1 = lo + n) (hi64 : i < 64) (hout : i < lo ∨ hi < i) :
    bitOf (setBits w hi lo v).toNat i = bitOf w.toNat i := by
  rw [bitOf_toNat, bitOf_toNat, getLsbD_setBits w v hn hi64, if_neg (by omega)]

/-- A bit that is cleared reads 0. -/
theorem bitOf_setBits_zero (w : Word) {i : Nat} (hi64 : i < 64) : bitOf (setBits w i i 0).toNat i = false := by
  rw [bitOf_toNat, getLsbD_setBits w 0 (n := 1) rfl hi64, if_pos ⟨le_rfl, le_rfl⟩, Nat.zero_testBit]

/-! The registers and the migration of a die -/

/-- A change of a die leaves alone a part that its function keeps. -/
theorem State.getDie_modDie_of_kept {β : Type} (g : Die → β) (s : State) {d e : Nat} {f : Die → Die} (hf : ∀ x, g (f x) = g x) :
    g ((s.modDie d f).getDie e) = g (s.getDie e) := by
  rw [State.getDie_modDie]
  split
  · next he => rw [hf, he]
  · rfl

/-- A change of a die that keeps what a control register reads as. -/
theorem State.reg_modDie (s : State) {d e k : Nat} {f : Die → Die} (hf : ∀ x, smGet 0 (f x).regs k = smGet 0 x.regs k) :
    (s.modDie d f).reg e k = s.reg e k := State.getDie_modDie_of_kept (fun x => smGet 0 x.regs k) s hf

theorem State.reg_setReg_of_ne (s : State) {d e off k : Nat} (v : Word) (h : k ≠ off) : (s.setReg d off v).reg e k = s.reg e k :=
  s.reg_modDie fun _ => smGet_smPut_of_ne _ _ _ h

theorem State.migration_setReg (s : State) (d off : Nat) (v : Word) (e : Nat) :
    ((s.setReg d off v).getDie e).migration = (s.getDie e).migration := State.getDie_modDie_of_kept Die.migration s fun _ => rfl

/-- An event changes no control register but the Vault's own. -/
theorem State.reg_vault_of_ne (s : State) (d : Nat) (x : VEvent) {e k : Nat} (h : k ≠ 0xB00) : (s.vault d x).reg e k = s.reg e k := by
  unfold State.vault
  dsimp only
  split
  · rfl
  · exact (State.reg_setReg_of_ne _ _ h).trans (s.reg_modDie fun _ => rfl)

theorem State.migration_vault (s : State) (d : Nat) (x : VEvent) (e : Nat) :
    ((s.vault d x).getDie e).migration = (s.getDie e).migration := by
  unfold State.vault
  dsimp only
  split
  · rfl
  · exact (State.migration_setReg ..).trans (State.getDie_modDie_of_kept Die.migration s fun _ => rfl)

/-! How a migration ends (R209) -/

/-- MIG_CTL with its go bit cleared and a status in [62:60] (R209). -/
def migStatus (ctl : Word) (status : Nat) : Word := setBits (setBits ctl 63 63 0) 62 60 status

theorem bitsOf_migStatus (ctl : Word) {n : Nat} (h : n < 8) : bitsOf (migStatus ctl n).toNat 62 60 = n :=
  (bitsOf_setBits_same _ n (n := 3) rfl (by decide)).trans (Nat.mod_eq_of_lt h)

theorem bitOf_migStatus (ctl : Word) (n : Nat) : bitOf (migStatus ctl n).toNat 63 = false :=
  (bitOf_setBits_of_out _ n (n := 3) rfl (by decide) (by decide)).trans (bitOf_setBits_zero ctl (by decide))

theorem State.reg_migEnd (s : State) (die n : Nat) : (s.migEnd die n).reg die 0x210 = migStatus (s.reg die 0x210) n :=
  (State.reg_vault_of_ne _ _ _ (by decide)).trans (State.reg_setReg_same ..)

theorem State.migration_migEnd (s : State) (die n e : Nat) : ((s.migEnd die n).getDie e).migration = (s.getDie e).migration :=
  (State.migration_vault ..).trans (State.migration_setReg ..)

@[simp] theorem State.migEnd_msgs (s : State) (die n : Nat) : (s.migEnd die n).msgs = s.msgs := by simp [State.migEnd]

/-! How a migration starts (R210 steps 1 and 2) -/

/-- The page that a migration request names. -/
def State.migPage (s : State) (die : Nat) : Nat := bitsOf (s.reg die 0x200).toNat 55 16

/-- The frame that a migration request moves its page to. -/
def State.migDst (s : State) (die : Nat) : Nat := bitsOf (s.reg die 0x208).toNat 51 16 * 2 ^ 16

/-- The job that a migration request names. -/
def State.migJob (s : State) (die : Nat) : BitVec 16 := BitVec.ofNat 16 (s.reg die 0x210).toNat

/-- The target of the first byte of the page that a migration request names, through a leaf. -/
def State.migSource (s : State) (die : Nat) (pte : Word) (size : BitVec 2) : Target :=
  leafTarget pte size (s.migPage die * 2 ^ 16 / pageBytes size * pageBytes size)

/-- The migration that a request asks for, through a leaf. -/
def State.migAsked (s : State) (die : Nat) (pte : Word) (size : BitVec 2) : Migration :=
  ⟨leafAddr s.mem (s.reg die 0x000).toNat (s.migJob die) (s.migPage die), size, (s.migSource die pte size).flat, s.migDst die,
    homeDie (s.migDst die), s.migJob die, s.migPage die, false, false⟩

/-- The state in which a migration has started: MB stands in the leaf, the status reads in progress, and no tile holds a translation or a line of
the page. -/
def State.migBegun (s : State) (die : Nat) (pte : Word) (g : Migration) : State :=
  let s := State.setReg { s with mem := memWrite s.mem g.leafAddr 8 (pte.toNat ||| 2 ^ 11) } die 0x210 (migStatus (s.reg die 0x210) 1)
  ((s.modDie die fun d => { d with migration := some g }).dropTlb (tlbCovers g.vmid (g.page * 2 ^ 16) g.size)).dropLines g.oldFrame (pageBytes g.size)

section
variable (s : State) (die : Nat) (pte : Word) (g : Migration)

theorem State.mem_migBegun : (s.migBegun die pte g).mem = memWrite s.mem g.leafAddr 8 (pte.toNat ||| 2 ^ 11) := rfl

theorem State.msgs_migBegun : (s.migBegun die pte g).msgs = s.msgs := rfl

theorem State.migration_migBegun : ((s.migBegun die pte g).getDie die).migration = some g := by
  change ((State.modDie _ die fun d => { d with migration := some g }).getDie die).migration = some g
  rw [State.getDie_modDie, if_pos rfl]

theorem State.reg_migBegun : (s.migBegun die pte g).reg die 0x210 = migStatus (s.reg die 0x210) 1 := by
  change (State.modDie _ die fun d => { d with migration := some g }).reg die 0x210 = _
  exact Eq.trans (State.reg_modDie _ fun _ => rfl) (State.reg_setReg_same ..)

end

section
variable {die : Nat} {s : State} {pte : Word} {size : BitVec 2} (hdie : die < 16) (hgo : bitOf (s.reg die 0x210).toNat 63 = true)
include hdie hgo

theorem exec_migrationStart_of_busy {g : Migration} (hbusy : (s.getDie die).migration = some g) :
    exec (.migrationStart die) s = .next (s.migEnd die 5) := by
  simp [exec, execMigrationStart, hdie, hgo, hbusy]

/-- What a request of a page with a leaf gives, in the order in which its faults are looked for (R209). -/
theorem exec_migrationStart_of_leaf (hnone : (s.getDie die).migration = none)
    (hwalk : walkPage s.mem (s.reg die 0x000).toNat (s.migJob die) (s.migPage die) = .leaf pte size) :
    exec (.migrationStart die) s = .next (
      if (s.migSource die pte size).ty ≠ 0 then s.migEnd die 3
      else if size = 2 ∨ s.migDst die % pageBytes size ≠ 0 ∨ 2 ^ 39 ≤ s.migDst die then s.migEnd die 4
      else if (s.migSource die pte size).home ≠ die then s.migEnd die 7
      else s.migBegun die pte (s.migAsked die pte size)) := by
  rw [State.migJob, State.migPage] at hwalk
  simp only [exec, execMigrationStart, hdie, hgo, hnone, hwalk, decide_true, Bool.and_true, Bool.not_true, Option.isSome_none,
    Bool.false_eq_true, if_false, Bool.or_eq_true, decide_eq_true_eq, ge_iff_le, or_assoc]
  simp only [apply_ite Host.Outcome.next]
  rfl

end

/-! The copy (R210 step 3) -/

/-- A cleared byte reads as one that nothing has written. -/
theorem memByte_memClear_of_in (m : List Host.Cell) {a n b : Nat} (hlo : a ≤ b) (hhi : b < a + n) : memByte (memClear m a n) b = memDefault := by
  have hout : smFind (memClear m a n) b = none := by
    induction m with
    | nil => rfl
    | cons e r ih =>
      obtain ⟨j, w⟩ := e
      rw [memClear, List.filter_cons]
      split
      · next hkept =>
        have hne : j ≠ b := by
          rintro rfl
          simp [hlo, hhi] at hkept
        rw [smFind, if_neg hne]
        exact ih
      · exact ih
  rw [memByte, smGet, hout, Option.getD_none]

/-- Bytes put one after the other at their places from `dst` on: the byte at a place is the one listed for it, or what stood there. -/
theorem memByte_foldl_memPut {src : Nat} (dst a : Nat) {l : List Host.Cell} {lo : Nat} (hl : memWfFrom lo l = true) (hsrc : ∀ c ∈ l, src ≤ c.1)
    {m : List Host.Cell} (hm : Memory.wf m = true) :
    memByte (l.foldl (fun acc c => memPut acc (dst + (c.1 - src)) c.2) m) (dst + a) = (smFind l (src + a)).getD (memByte m (dst + a)) := by
  induction l generalizing lo m with
  | nil => rfl
  | cons e r ih =>
    obtain ⟨j, w⟩ := e
    simp only [memWfFrom, Bool.and_eq_true] at hl
    obtain ⟨-, hr⟩ := hl
    have hj : src ≤ j := hsrc _ List.mem_cons_self
    rw [List.foldl_cons, ih hr (fun c hc => hsrc c (List.mem_cons_of_mem _ hc)) (memPut_wf hm _ _), memByte_memPut hm, smFind]
    by_cases h : j = src + a
    · have hnone : smFind r (src + a) = none := smFind_of_lt hr (by omega)
      rw [if_pos h, hnone, if_pos (by omega)]
      rfl
    · rw [if_neg h, if_neg (by omega)]

/-- A move copies every byte of its range, also where the two ranges meet. -/
theorem memByte_memMove {m : List Host.Cell} (hm : Memory.wf m = true) (src dst : Nat) {n a : Nat} (ha : a < n) :
    memByte (memMove m src dst n) (dst + a) = memByte m (src + a) := by
  have hsrc : ∀ c ∈ m.filter (fun c => decide (src ≤ c.1) && decide (c.1 < src + n)), src ≤ c.1 := by
    intro c hc
    have hkept := (List.mem_filter.1 hc).2
    rw [Bool.and_eq_true, decide_eq_true_eq] at hkept
    exact hkept.1
  have hfind : smFind (m.filter fun c => decide (src ≤ c.1) && decide (c.1 < src + n)) (src + a) = smFind m (src + a) :=
    smFind_filter_of_kept m (fun k => decide (src ≤ k) && decide (k < src + n)) (by simp [ha])
  rw [memMove, memByte_foldl_memPut dst a (memFilter_wf hm _) hsrc (memClear_wf hm _ _), hfind,
    memByte_memClear_of_in m (by omega) (by omega), memByte, smGet]

/-! The switch and the abort (R210 steps 3 to 6, R211) -/

/-- The leaf of a migration once it names the new frame and its die, without MB. -/
def Migration.newLeaf (g : Migration) (leaf : Nat) : Word :=
  setBits (setBits (setBits (BitVec.ofNat 64 leaf) 51 16 (g.newFrame / 2 ^ 16)) 59 56 g.newDie) 11 11 0

theorem exec_migrationSwitch_moves {die : Nat} {s : State} {g : Migration} (hg : (s.getDie die).migration = some g) (hsw : g.switched = false)
    (harrived : ∀ m ∈ s.msgs, m.held = false → g.about m = false) :
    ∃ t, exec (.migrationSwitch die) s = .next t ∧ (t.getDie die).migration = some { g with switched := true } ∧
      t.mem = memWrite (s.copyPage die g).mem g.leafAddr 8 (g.newLeaf (memRead (s.copyPage die g).mem g.leafAddr 8)).toNat ∧
      t.msgs = s.msgs.map g.moveMsg ∧ t.homeTs = (s.copyPage die g).homeTs := by
  have hnone : s.msgs.any (fun m => !m.held && g.about m) = false := by
    rw [List.any_eq_false]
    intro m hm
    cases hheld : m.held with
    | true => simp
    | false => simp [harrived m hm hheld]
  simp only [exec, execMigrationSwitch, hg, hsw, hnone]
  refine ⟨_, rfl, ?_, rfl, rfl, rfl⟩
  exact congrArg Die.migration ((State.getDie_modDie ..).trans (if_pos rfl))

theorem exec_migrationSwitch_ends {die : Nat} {s : State} {g : Migration} (hg : (s.getDie die).migration = some g) (hsw : g.switched = true)
    (hreplayed : s.heldPage s.msgs g.newFrame = false) :
    exec (.migrationSwitch die) s =
      let t := s.modDie die fun d => { d with migration := none }
      .next (if g.aborted then t else t.migEnd die 2) := by
  simp [exec, execMigrationSwitch, hg, hsw, hreplayed]

theorem exec_migrationAbort {die : Nat} {s : State} {g : Migration} (hg : (s.getDie die).migration = some g) (hsw : g.switched = false) :
    ∃ t, exec (.migrationAbort die) s = .next t ∧
      (t.getDie die).migration = some { g with newFrame := g.oldFrame, newDie := die, switched := true, aborted := true } ∧
      t.mem = memWrite s.mem g.leafAddr 8 (setBits (BitVec.ofNat 64 (memRead s.mem g.leafAddr 8)) 11 11 0).toNat ∧
      bitsOf (t.reg die 0x210).toNat 62 60 = 6 ∧ bitOf (t.reg die 0x210).toNat 63 = false ∧ t.msgs = s.msgs := by
  simp only [exec, execMigrationAbort, hg, hsw]
  refine ⟨_, rfl, ?_, ?_, ?_, ?_, ?_⟩
  · rw [State.migration_migEnd, State.migration_vault, State.getDie_modDie, if_pos rfl]
  · rw [State.migEnd_mem, State.vault_mem, State.modDie_mem]
  · rw [State.reg_migEnd, bitsOf_migStatus _ (by decide)]
  · rw [State.reg_migEnd, bitOf_migStatus]
  · rw [State.migEnd_msgs, State.vault_msgs, State.modDie_msgs]

end Sys2Proof.Machine

namespace Sys2Proof.Claims

open Sys2Proof.Machine

/-- Settles O41: a request by the ladder of its faults, the switch and the abort field by field, and the copy by the rule that each listed byte of
the old frame is put once at its place in the cleared new frame. -/
theorem migrationMovesPages : Obligations.MigrationMovesPages := by
  unfold Obligations.MigrationMovesPages
  refine ⟨fun die s vmid page pte size hdie hgo hnone hvmid hpage hwalk => ?_, fun die s g hdie hgo hbusy => exec_migrationStart_of_busy hdie hgo hbusy,
    fun die s g hg hsw harrived => exec_migrationSwitch_moves hg hsw harrived, fun s die g a hm ha => memByte_memMove hm _ _ ha,
    fun die s g hg hsw hreplayed => ⟨fun hab => ?_, fun hab => ?_⟩, fun die s g hg hsw => exec_migrationAbort hg hsw,
    fun s die n hn => ⟨?_, ?_⟩⟩
  · subst hvmid hpage
    have hrun := exec_migrationStart_of_leaf hdie hgo hnone hwalk
    have hgood (hsize : size ≠ 2) (hdst : s.migDst die % pageBytes size = 0) (hlow : s.migDst die < 2 ^ 39) :
        ¬ (size = 2 ∨ s.migDst die % pageBytes size ≠ 0 ∨ 2 ^ 39 ≤ s.migDst die) :=
      not_or.2 ⟨hsize, not_or.2 ⟨not_not.2 hdst, Nat.not_le.2 hlow⟩⟩
    refine ⟨fun hty hsize hdst hlow hhome => ⟨s.migBegun die pte (s.migAsked die pte size), ?_, s.mem_migBegun .., ?_, s.migration_migBegun ..,
      s.msgs_migBegun ..⟩, fun hty => ?_, fun hty hsize hdst hlow hhome => ?_, fun hty hbad => ?_⟩
    · exact hrun.trans (congrArg _ ((if_neg (not_not.2 hty)).trans ((if_neg (hgood hsize hdst hlow)).trans (if_neg (not_not.2 hhome)))))
    · rw [s.reg_migBegun, bitsOf_migStatus _ (by decide)]
    · exact hrun.trans (congrArg _ (if_pos hty))
    · exact hrun.trans (congrArg _ ((if_neg (not_not.2 hty)).trans ((if_neg (hgood hsize hdst hlow)).trans (if_pos hhome))))
    · exact hrun.trans (congrArg _ ((if_neg (not_not.2 hty)).trans (if_pos hbad)))
  · rw [Runs, exec_migrationSwitch_ends hg hsw hreplayed, hab]
    rfl
  · rw [Runs, exec_migrationSwitch_ends hg hsw hreplayed, hab]
    rfl
  · rw [State.reg_migEnd, bitsOf_migStatus _ hn]
  · rw [State.reg_migEnd, bitOf_migStatus]

end Sys2Proof.Claims

/-! Host requests at a port (R224, R348 to R350). -/

namespace Sys2Proof.Machine

/-! Vectors (R348) -/

/-- A vector whose entry is not masked is sent. -/
theorem ModuleBlk.message_of_unmasked {m : ModuleBlk} {port v : Nat} (h : (m.entry (2048 * port + v)).getLsbD 96 = false) :
    m.message port v = { m with raised := m.raised ++ [(port, v)] } := by
  simp only [ModuleBlk.message, h, Bool.false_eq_true, if_false]

/-- A masked vector is pending, and nothing is sent. -/
theorem ModuleBlk.message_of_masked {m : ModuleBlk} {port v : Nat} (h : (m.entry (2048 * port + v)).getLsbD 96 = true) :
    (m.message port v).raised = m.raised ∧ 2048 * port + v ∈ (m.message port v).pending := by
  simp only [ModuleBlk.message, h, if_true, true_and]
  split
  · next hmem => exact List.contains_iff_mem.1 hmem
  · simp

/-- A pending vector that is not masked any more is sent and pending no more. -/
theorem ModuleBlk.unmask_of_pending {m : ModuleBlk} {k : Nat} (hk : k ∈ m.pending) (h : (m.entry k).getLsbD 96 = false) :
    (m.unmask k).raised = m.raised ++ [(k / 2048, k % 2048)] ∧ k ∉ (m.unmask k).pending := by
  have hunmask : m.unmask k = { m with pending := m.pending.filter (· != k), raised := m.raised ++ [(k / 2048, k % 2048)] } :=
    if_pos (by rw [h, List.contains_iff_mem.2 hk]; rfl)
  rw [hunmask]
  exact ⟨rfl, by simp⟩

/-- A write of IRQ_RAISE whose release has ended raises its vector, where it is the oldest (R226). -/
theorem exec_irqRaise_of_released {die a v : Nat} {r : List (Nat × Nat)} {s t : State} (hirq : (s.getDie die).irq = (a, v) :: r)
    (hreleased : s.irqRelease a = (true, t)) : exec (.irqRaise die) s = .next ((t.dropIrq die 0).interrupt v) := by
  simp [exec, execIrqRaise, hirq, findIdxFrom, hreleased]

/-- A host port's writes have performed, so that its release has ended. -/
theorem State.irqRelease_of_host (s : State) {a : Nat} (h : 2 ^ 32 ≤ a) : s.irqRelease a = (true, s) := if_pos h

/-! The windows -/

theorem State.shut_eq_false_iff (s : State) : s.shut = false ↔ s.mod.warmBusy = false ∧ s.mod.moduleOnly = false := Bool.or_eq_false_iff

/-- A type-0 page that the translation of a host or peer access answers (R349, R353). -/
theorem State.outsideTarget_of_ok {s : State} {vmid : BitVec 16} {va : Nat} {need : Need} {pte : Word} {t : Target}
    (h : s.outsideTarget vmid va need = .ok (pte, t)) : t.ty = 0 ∧ permOk need pte = true ∧ (s.getDie t.home).excluded = false := by
  unfold State.outsideTarget at h
  dsimp only at h
  split at h
  · cases h
  · split at h
    · next leaf size hwalk =>
      split at h
      · cases h
      · next hpage =>
        split at h
        · cases h
        · next hexcl =>
          obtain ⟨rfl, rfl⟩ := Prod.mk.inj (Except.ok.inj h)
          simp only [Bool.or_eq_true, Bool.not_eq_true', bne_iff_ne, ne_eq, not_or, Bool.not_eq_false, not_not] at hpage
          exact ⟨hpage.2, hpage.1, Bool.eq_false_iff.2 hexcl⟩
    · cases h

end Sys2Proof.Machine

namespace Sys2Proof.Claims

open Sys2Proof.Machine

/-! An access in its turn (R210) -/

section
variable {s : State} {port flat kind : Nat}

theorem hostAt_of_go (h : s.hostTurn port flat kind = .go) (perform : State → Out) :
    s.hostAt port flat kind perform = perform (hostBase s port flat kind) := by
  unfold State.hostAt hostBase
  rw [h]
  dsimp only
  split <;> rfl

theorem hostAt_of_queue (h : s.hostTurn port flat kind = .queue) (perform : State → Out) :
    s.hostAt port flat kind perform = .next (s.sendFrom (hostAgent port) 0 (homeDie flat) (.host port flat kind)).heldLast := by
  rw [State.hostAt, h]

variable (s port flat kind) in
/-- Taking its entry off a queue changes the messages alone. -/
theorem hostBase_eq : ∃ ms, hostBase s port flat kind = { s with msgs := ms } := by
  unfold hostBase
  split
  · exact ⟨_, rfl⟩
  · exact ⟨s.msgs, rfl⟩

theorem mem_hostBase : (hostBase s port flat kind).mem = s.mem := by
  obtain ⟨ms, h⟩ := hostBase_eq s port flat kind
  rw [h]

theorem getDie_hostBase (d : Nat) : (hostBase s port flat kind).getDie d = s.getDie d := by
  obtain ⟨ms, h⟩ := hostBase_eq s port flat kind
  rw [h]
  rfl

end

/-! Reads and writes (R347, R349) -/

section
variable {port off n : Nat} (hport : port < 2) (hn : 1 ≤ n) (hn64 : n ≤ 64)
include hport hn hn64

/-- A request of 1 to 64 bytes at a port is one that a port takes. -/
theorem port_takes_request : (decide (port ≥ 2) || decide (n = 0) || decide (n > 64)) = false := by
  simp only [Bool.or_eq_false_iff, decide_eq_false_iff_not]
  omega

section
variable {s : State}

theorem exec_hostRead_of_warm {bar : Nat} (hwarm : s.mod.warmBusy = true) (hreg : bar ≠ 0 ∨ off / 8 ≠ 0x60) :
    exec (.hostRead port bar off n) s = .next s.hostAbort := by
  have hother : (bar == 0 && off / 8 == 0x300 / 8) = false := by simpa using not_and_or.2 hreg
  simp only [exec, execHostRead, port_takes_request hport hn hn64, hwarm, hother]
  rfl

theorem exec_hostRead_bar0 (hwarm : s.mod.warmBusy = false) :
    exec (.hostRead port 0 off n) s = .next (s.hostAnswer (BitVec.ofNat 512 (s.bar0Read port off n))) := by
  simp only [exec, execHostRead, port_takes_request hport hn hn64, hwarm]
  rfl

theorem exec_hostRead_of_moduleOnly {bar : Nat} (hwarm : s.mod.warmBusy = false) (honly : s.mod.moduleOnly = true) (hbar : bar ≠ 0) :
    exec (.hostRead port bar off n) s = .next s.hostUnclaimed := by
  simp [exec, execHostRead, port_takes_request hport hn hn64, hwarm, honly, hbar]

theorem exec_hostWrite_bar0 (data : BitVec 512) (hwarm : s.mod.warmBusy = false) :
    exec (.hostWrite port 0 off n data) s = .next (State.bar0Write port 9 off n data.toNat s) := by
  simp only [exec, execHostWrite, port_takes_request hport hn hn64, hwarm]
  rfl

section
variable (hopen : s.shut = false) (hshape : bar4Shape off n = true)
include hopen hshape

theorem exec_hostRead_of_target {pte : Word} {t : Target} (ht : s.hostTarget off .r = .ok (pte, t)) :
    exec (.hostRead port 4 off n) s = s.hostAt port t.flat 0 fun v =>
      .next ((v.fillLine (t.flat / 64 * 64)).hostAnswer (BitVec.ofNat 512 (memRead v.mem t.flat n))) := by
  obtain ⟨hwarm, honly⟩ := s.shut_eq_false_iff.1 hopen
  simp only [exec, execHostRead, port_takes_request hport hn hn64, hwarm, honly, hshape, ht]
  rfl

theorem exec_hostRead_of_refused {c : Nat} (ht : s.hostTarget off .r = .error c) :
    exec (.hostRead port 4 off n) s = .next (s.windowFault c).hostAbort := by
  obtain ⟨hwarm, honly⟩ := s.shut_eq_false_iff.1 hopen
  simp only [exec, execHostRead, port_takes_request hport hn hn64, hwarm, honly, hshape, ht]
  rfl

theorem exec_hostWrite_of_target {pte : Word} {t : Target} (data : BitVec 512) (ht : s.hostTarget off .w = .ok (pte, t)) :
    exec (.hostWrite port 4 off n data) s = s.hostAt port t.flat 1 fun v => v.hostStore port t n data.toNat := by
  obtain ⟨hwarm, honly⟩ := s.shut_eq_false_iff.1 hopen
  simp only [exec, execHostWrite, port_takes_request hport hn hn64, hwarm, honly, hshape, ht]
  rfl

theorem exec_hostWrite_of_refused {c : Nat} (data : BitVec 512) (ht : s.hostTarget off .w = .error c) :
    exec (.hostWrite port 4 off n data) s = .next (s.windowFault c) := by
  obtain ⟨hwarm, honly⟩ := s.shut_eq_false_iff.1 hopen
  simp only [exec, execHostWrite, port_takes_request hport hn hn64, hwarm, honly, hshape, ht]
  rfl

end
end
end

/-- A write that performs takes a timestamp, or asks for a rebase where none is left (R224, R233). -/
theorem hostStores_of_store {o : Out} {v : State} {port n x : Nat} {t : Target} (h : o = (hostBase v port t.flat 1).hostStore port t n x) :
    HostStores o v port t n x := by
  subst h
  exact ⟨fun hts => if_neg (by omega), fun hts => if_pos hts⟩

/-! AtomicOps (R201, R204, R224, R350) -/

section
variable {s : State} {port off n op : Nat} {a b : Word} {pte : Word} {t : Target}

section
variable (hport : port < 2) (hopen : s.shut = false) (hshape : bar4Shape off n = true) (halign : off % n = 0)
  (ht : s.hostTarget off .rw = .ok (pte, t))
include hport hopen hshape halign ht

/-- A page without SYSATOM refuses an AtomicOp. -/
theorem hostAtomic_of_plain (hpage : bitOf pte.toNat 9 = false) : s.hostAtomic port off n op a b = .next (s.windowFault 0xF1).hostAbort := by
  obtain ⟨hwarm, honly⟩ := s.shut_eq_false_iff.1 hopen
  simp [State.hostAtomic, hport, hwarm, honly, hshape, halign, ht, hpage]

/-- On a SYSATOM page an AtomicOp performs in its turn. -/
theorem hostAtomic_of_sysatom (hpage : bitOf pte.toNat 9 = true) :
    s.hostAtomic port off n op a b = s.hostAt port t.flat 2 fun v => v.hostSync port t n op a b := by
  obtain ⟨hwarm, honly⟩ := s.shut_eq_false_iff.1 hopen
  simp [State.hostAtomic, hport, hwarm, honly, hshape, halign, ht, hpage]

end

/-- A die whose Concordance holds a line. -/
def holding (d : Die) (line : Nat) : Die := { d with held := if d.held.contains line then d.held else line :: d.held }

/-- An AtomicOp at its home, where the Concordance takes the line and a timestamp is left: it writes the new value and answers the old one. -/
theorem hostSync_of_taken {d : Die} (hout : (s.getDie t.home).heldOut.contains (t.flat / 64 * 64) = false)
    (hts : (s.fillLine (t.flat / 64 * 64)).writeTs (t.flat / 64 * 64) 0 < 2 ^ 32)
    (htake : (holding ((s.fillLine (t.flat / 64 * 64)).getDie t.home) (t.flat / 64 * 64)).take (lineKey (t.flat / 64 * 64)) = some d) :
    s.hostSync port t n op a b =
      let u := s.fillLine (t.flat / 64 * 64)
      let ts := BitVec.ofNat 32 (u.writeTs (t.flat / 64 * 64) 0)
      let old := memRead u.mem t.flat n
      let new := atomicInt op (8 * n) old (a.toNat % 2 ^ (8 * n)) (b.toNat % 2 ^ (8 * n))
      .next ((((u.modDie t.home fun _ => d).homeWrite t.flat n new ts).hostTime port ts).hostAnswer (BitVec.ofNat 512 old)) := by
  rw [holding] at htake
  unfold State.hostSync
  dsimp only
  rw [if_neg (by rw [hout]; decide), if_neg (Nat.not_le.2 hts), htake]
  rfl

end

/-- An instruction that is an AtomicOp of a code, with its second operand or with none. -/
theorem hostAtomic_of_exec {mk : Nat → Nat → Nat → Word → Word → Instr} {op : Nat} {sizes : List Nat} {two : Bool}
    (hexec : ∀ port off n a b s, n ∈ sizes → exec (mk port off n a b) s = s.hostAtomic port off n op a (if two then b else 0)) :
    HostAtomic mk op sizes two := by
  intro port off n a b s pte t hn hport hopen hshape halign ht
  have hrun := hexec port off n a b s hn
  refine ⟨fun hpage => hrun.trans (hostAtomic_of_plain hport hopen hshape halign ht hpage), fun d hpage hturn hout hts htake => ?_⟩
  have hsync := hostSync_of_taken (n := n) (port := port) (op := op) (a := a) (b := if two then b else 0)
    (s := hostBase s port t.flat 2) (by rwa [getDie_hostBase]) hts htake
  have hsecond : (if two then b else 0 : Word).toNat % 2 ^ (8 * n) = if two then b.toNat % 2 ^ (8 * n) else 0 := by
    cases two
    · exact Nat.zero_mod _
    · rfl
  rw [hsecond] at hsync
  exact ((hrun.trans (hostAtomic_of_sysatom hport hopen hshape halign ht hpage)).trans (hostAt_of_go hturn _)).trans hsync

/-- An AtomicOp of a size that the module does not support (R350). -/
theorem exec_hostCas_of_size {port off n : Nat} (v w : Word) (s : State) (hport : port < 2) (hn : n = 4 ∨ n = 16) :
    exec (.hostCas port off n v w) s = .next (if s.mod.warmBusy then s.hostAbort else s.hostUnclaimed) := by
  have h8 : n ≠ 8 := by omega
  simp [exec, execHostCas, h8, hport, State.hostUnsupported]

/-- Settles O50: each request by the equation of its window, a type-0 access by its turn, and the vectors by the mask of their entry. -/
theorem hostRequests : Obligations.HostRequests := by
  unfold Obligations.HostRequests
  refine ⟨fun port off n s hport hn hn64 hwarm => exec_hostRead_bar0 hport hn hn64 hwarm,
    fun port off n s pte t hport hn hn64 hopen hshape ht => ⟨fun hturn => ?_, fun hturn => ?_⟩,
    fun port off n s c hport hn hn64 hopen hshape ht => exec_hostRead_of_refused hport hn hn64 hopen hshape ht,
    fun port bar off n s hport hn hn64 hwarm hreg => exec_hostRead_of_warm hport hn hn64 hwarm hreg,
    fun port bar off n s hport hn hn64 hwarm honly hbar => exec_hostRead_of_moduleOnly hport hn hn64 hwarm honly hbar,
    fun s vmid va need hva => if_pos hva, fun s vmid va need pte t h => State.outsideTarget_of_ok h,
    fun port off n data s hport hn hn64 hwarm => exec_hostWrite_bar0 hport hn hn64 data hwarm,
    fun port off n data s pte t hport hn hn64 hopen hshape ht => ⟨fun hturn => ?_, fun hturn => ?_⟩,
    fun port off n data s c hport hn hn64 hopen hshape ht => exec_hostWrite_of_refused hport hn hn64 hopen hshape data ht,
    hostAtomic_of_exec fun port off n a b s hn => ?_, hostAtomic_of_exec fun port off n a b s hn => ?_,
    hostAtomic_of_exec fun port off n a b s hn => ?_,
    fun port off n v w s hport hn => exec_hostCas_of_size v w s hport hn,
    fun die s a v r hirq ha => exec_irqRaise_of_released hirq (s.irqRelease_of_host ha),
    fun die s a v r t hirq hrel => exec_irqRaise_of_released hirq hrel, fun s v => ⟨rfl, rfl⟩,
    fun m port v => ⟨fun h => m.message_of_unmasked h, fun h => m.message_of_masked h⟩,
    fun m k hk h => m.unmask_of_pending hk h⟩
  · have hread := (exec_hostRead_of_target hport hn hn64 hopen hshape ht).trans (hostAt_of_go hturn _)
    rwa [mem_hostBase] at hread
  · exact (exec_hostRead_of_target hport hn hn64 hopen hshape ht).trans (hostAt_of_queue hturn _)
  · exact hostStores_of_store ((exec_hostWrite_of_target hport hn hn64 hopen hshape data ht).trans (hostAt_of_go hturn _))
  · exact (exec_hostWrite_of_target hport hn hn64 hopen hshape data ht).trans (hostAt_of_queue hturn _)
  · exact if_pos (by simpa using hn)
  · exact if_pos (by simpa using hn)
  · exact if_pos (by simpa using hn)

end Sys2Proof.Claims

/-! Packets between dies (R234, R235). -/

namespace Sys2Proof.Machine

/-! A flow's numbers (R234) -/

/-- A number delivered in its turn, with none delivered early, makes the next one the flow's own. -/
theorem Flow.deliver_of_wanted {f : Flow} (hearly : f.early = []) : f.deliver f.want = { f with want := f.want + 1 } := by
  simp [Flow.deliver, hearly]

/-- A number delivered early is kept with the early ones. -/
theorem Flow.deliver_of_early {f : Flow} {q : BitVec 16} (h : q ≠ f.want) : f.deliver q = { f with early := q :: f.early } := if_pos h

@[simp] theorem State.flow_delivered (s : State) (r : FlowRef) : (s.delivered r).flow r.flow = (s.flow r.flow).deliver r.seq :=
  smGet_smPut_same _ _ _ _

/-- What keeps its order may arrive once its flow wants it. -/
theorem State.mayArrive_of_wanted {s : State} {r : FlowRef} (h : r.seq = (s.flow r.flow).want) : s.mayArrive r true = true := by
  simp [State.mayArrive, h]

section
variable {s : State} {k : Nat} {m : Msg}

/-- A message that is no stream access and no answer to an access only joins those that have arrived. -/
theorem State.msgArrive_of_plain {r : FlowRef} (hmay : s.mayArrive r m.kind.inOrder = true)
    (hwr : ∀ pn mk ty h f n d c o, m.kind ≠ .streamWr pn mk ty h f n d c o) (hreq : ∀ pn key b ty h f n o, m.kind ≠ .streamReq pn key b ty h f n o)
    (hrep : ∀ f n w d, m.kind ≠ .accessRep f n w d) : s.msgArrive k m r = .next ((s.delivered r).markMsg k m) := by
  rw [State.msgArrive, hmay]
  dsimp only
  split
  · contradiction
  · split
    · next h => exact (hwr _ _ _ _ _ _ _ _ _ h).elim
    · next h => exact (hreq _ _ _ _ _ _ _ _ h).elim
    · next h => exact (hrep _ _ _ _ h).elim
    · rfl

/-! Stream accesses at their targets (R210, R235) -/

section
variable {pn key : Nat} {bytes : List (Nat × Nat)} {ty : BitVec 3} {home flat lim : Nat} {o : Bool}
  (hkind : m.kind = .streamReq pn key bytes ty home flat lim o)
include hkind

theorem State.land_streamReq_of_served {u : State} (hturn : s.landTurn k m ty flat = .go)
    (hserve : s.serveRead pn key ⟨0, bytes⟩ ty home flat lim m.agent m.owner o = .done u) : s.land k m = .next (u.dropMsg k) := by
  simp only [State.land, hkind, hturn, hserve]

theorem State.land_streamReq_of_queue (hturn : s.landTurn k m ty flat = .queue) : s.land k m = .next (s.queueMsg k) := by
  simp only [State.land, hkind, hturn]

end

section
variable {pn mask : Nat} {ty : BitVec 3} {home flat n : Nat} {d : BitVec 512} {clk : BitVec 32} {o : Bool}
  (hkind : m.kind = .streamWr pn mask ty home flat n d clk o)
include hkind

theorem State.land_streamWr_of_landed {u : State} (hturn : s.landTurn k m ty flat = .go)
    (hland : s.streamLand (pn / 4) (pn % 4) m.agent m.owner m.run ty flat mask d clk = some u) :
    s.land k m = .next ((u.dropMsg k).modHead (pn / 4) (pn % 4) m.owner fun c => { c with waiting := c.waiting - 1 }) := by
  simp only [State.land, hkind, hturn, hland]

theorem State.land_streamWr_of_queue (hturn : s.landTurn k m ty flat = .queue) : s.land k m = .next (s.queueMsg k) := by
  simp only [State.land, hkind, hturn]

end
end

end Sys2Proof.Machine

namespace Sys2Proof.Claims

open Sys2Proof.Machine

/-! What the event runs -/

section
variable {s : State} {k : Nat} {m : Msg} (hmsg : s.msgs[k]? = some m)
include hmsg

theorem exec_flowPacketArrive_of_message {r : FlowRef} (hflow : m.flow = some r) (harrived : m.arrived = false) :
    exec (.flowPacketArrive k) s = s.msgArrive k m r := by
  simp [exec, execFlowPacketArrive, hmsg, hflow, harrived]

theorem exec_flowPacketArrive_of_landing (harrived : m.arrived = true) (hlands : m.kind.lands = true) :
    exec (.flowPacketArrive k) s = s.land k m := by
  simp [exec, execFlowPacketArrive, hmsg, harrived, hlands]

end

/-- A token that its flow wants enters the network of its die at its cell (log 58). -/
theorem exec_flowPacketArrive_of_token {s : State} {k j : Nat} {x : NetTok} {r : FlowRef} (hk : s.msgs.length + j = k)
    (htok : s.net[j]? = some x) (hflow : x.flow = some r) (harrived : x.arrived = false) (hwant : r.seq = (s.flow r.flow).want) :
    exec (.flowPacketArrive k) s =
      .next (State.touchTok { s.delivered r with net := listSet s.net j { x with pos := destCell x.tok.dest, arrived := true } } x.owner) := by
  have hnone : s.msgs[k]? = none := List.getElem?_eq_none (by omega)
  have hj : k - s.msgs.length = j := by omega
  simp only [exec, execFlowPacketArrive, hnone, hj, htok, hflow, harrived, State.mayArrive_of_wanted hwant]
  rfl

theorem exec_flowAck_of_behind {s : State} {k : Nat} (h : (s.flow k).acked ≠ (s.flow k).want) :
    exec (.flowAck k) s = .next { s with flows := smPut s.flows k { s.flow k with acked := (s.flow k).want },
                                         tiles := s.tiles.map fun e => (e.1, e.2.ackTracked k (s.flow k).want) } := if_neg h

/-- Settles O22: a message, a stream access at its target and a token each by what the event runs for it, the flows by their tables. -/
theorem flowsBetweenDies : Obligations.FlowsBetweenDies := by
  unfold Obligations.FlowsBetweenDies
  refine ⟨fun k s m r hmsg hflow harrived hmay hwr hreq hrep => ?_, fun k s m pn key bytes ty home flat lim o u hmsg hkind harrived => ?_,
    fun k s m pn mask ty home flat n d clk o u hmsg hkind harrived h1 h2 => ?_, fun k s j x r hk htok hflow harrived hwant => ?_,
    fun k s hbehind => ?_, fun f q hearly hq => ?_, fun f q hq => ?_⟩
  · have hrun := (exec_flowPacketArrive_of_message hmsg hflow harrived).trans (State.msgArrive_of_plain hmay hwr hreq hrep)
    exact ⟨_, hrun, rfl, s.flow_delivered r, rfl, rfl, rfl, rfl⟩
  · have hrun := exec_flowPacketArrive_of_landing hmsg harrived (by rw [hkind]; rfl)
    exact ⟨fun hturn hserve => hrun.trans (State.land_streamReq_of_served hkind hturn hserve),
      fun hturn => hrun.trans (State.land_streamReq_of_queue hkind hturn)⟩
  · have hrun := exec_flowPacketArrive_of_landing hmsg harrived (by rw [hkind]; exact Bool.and_eq_true_iff.2 ⟨bne_iff_ne.2 h1, bne_iff_ne.2 h2⟩)
    exact ⟨fun hturn hland => hrun.trans (State.land_streamWr_of_landed hkind hturn hland),
      fun hturn => hrun.trans (State.land_streamWr_of_queue hkind hturn)⟩
  · refine ⟨_, exec_flowPacketArrive_of_token hk htok hflow harrived hwant, State.touchTok_net _ _, ?_, State.touchTok_mem _ _⟩
    rw [State.flow, State.touchTok_flows]
    exact s.flow_delivered r
  · refine ⟨_, exec_flowAck_of_behind hbehind, ?_⟩
    simp [State.flow]
  · rw [hq, Flow.deliver_of_wanted hearly]
    exact ⟨rfl, hearly⟩
  · rw [Flow.deliver_of_early hq]
    exact ⟨rfl, List.mem_cons_self⟩

end Sys2Proof.Claims

/-! Homes (R216, R217, R219, R222, R233): what a home changes, what it answers, and a line that leaves the LLC. -/

namespace Sys2Proof.Machine

/-- A change of a home alone: lines in the LLC, the dies' registers, the bytes of memory, and the model's counter of free choices. -/
def State.HomeChanges (s t : State) : Prop := ∃ ts ds me ti, t = { s with homeTs := ts, dies := ds, mem := me, tick := ti }

namespace State.HomeChanges

theorem refl (s : State) : s.HomeChanges s := ⟨s.homeTs, s.dies, s.mem, s.tick, rfl⟩

theorem trans {s t u : State} (h : s.HomeChanges t) (k : t.HomeChanges u) : s.HomeChanges u := by
  obtain ⟨_, _, _, _, rfl⟩ := h
  obtain ⟨ts, ds, me, ti, rfl⟩ := k
  exact ⟨ts, ds, me, ti, rfl⟩

theorem fold {α : Type} {f : State → α → State} (h : ∀ (s : State) x, s.HomeChanges (f s x)) (l : List α) (s : State) :
    s.HomeChanges (l.foldl f s) := by
  induction l generalizing s with
  | nil => exact refl s
  | cons x r ih => exact (h s x).trans (ih _)

theorem evictLine (s : State) (line : Nat) : s.HomeChanges (s.evictLine line) := by
  unfold State.evictLine
  split
  · exact refl s
  · exact ⟨_, _, _, _, rfl⟩

theorem makeRoom (s : State) (d room : Nat) : s.HomeChanges (s.makeRoom d room) :=
  .trans (.trans ⟨_, _, _, _, rfl⟩ (.fold (fun s v => evictLine s v) _ _)) (.fold (fun s (e : Nat × BitVec 32 × BitVec 32) => evictLine s e.1) _ _)

theorem fillLine (s : State) (line : Nat) : s.HomeChanges (s.fillLine line) := by
  unfold State.fillLine
  split
  · exact refl s
  · exact .trans (makeRoom s _ _) ⟨_, _, _, _, rfl⟩

theorem setLineTs (s : State) (line : Nat) (w r : BitVec 32) : s.HomeChanges (s.setLineTs line w r) := ⟨_, _, _, _, rfl⟩

theorem homeWrite (s : State) (flat n v : Nat) (ts : BitVec 32) : s.HomeChanges (s.homeWrite flat n v ts) := ⟨_, _, _, _, rfl⟩

end State.HomeChanges

/-- A message that is sent is the last of the messages under way. -/
theorem State.msgs_send (s : State) (src place dst agent owner : Nat) (kind : MsgKind) :
    ∃ a, (s.send src place dst agent owner kind).msgs = s.msgs ++ [a] ∧ a.kind = kind ∧ a.agent = agent ∧ a.owner = owner := by
  unfold State.send
  split
  · exact ⟨_, rfl, rfl, rfl, rfl⟩
  · exact ⟨_, rfl, rfl, rfl, rfl⟩

@[simp] theorem State.lineTs_setLineTs_same (s : State) (line : Nat) (w r : BitVec 32) : (s.setLineTs line w r).lineTs line = (w, r) :=
  smGet_smPut_same _ _ _ _

/-- The timestamps of a home's lines stay while a message leaves and its answer is sent. -/
theorem State.lineTs_sendBack (s : State) (k die agent owner : Nat) (kind : MsgKind) (line : Nat) :
    ((s.dropMsg k).sendBack die agent owner kind).lineTs line = s.lineTs line := by
  rw [State.lineTs, State.sendBack_homeTs]
  rfl

/-- The bytes of a line depend on the memory alone. -/
theorem State.lineData_congr {s t : State} (h : t.mem = s.mem) (line : Nat) : t.lineData line = s.lineData line := by
  rw [State.lineData, h, State.lineData]

/-- An agent whose access met an error leaves the dies alone. -/
theorem State.getDie_dropAgent (s : State) (a d : Nat) : (s.dropAgent a).getDie d = s.getDie d := by
  unfold State.dropAgent
  split <;> simp [State.getDie]

/-- The timestamps of a line that leaves the LLC fold into MEMTS (R219). -/
theorem State.memts_evictLine {s : State} {line : Nat} {h : BitVec 32 × BitVec 32} (hline : smFind s.homeTs line = some h) :
    (s.evictLine line).memts (homeDie line) = (tsMax (s.memts (homeDie line)).1 h.1, tsMax (s.memts (homeDie line)).2 h.2) := by
  rw [State.evictLine, hline]
  dsimp only
  rw [State.memts, State.reg_setReg_same, BitVec.setWidth_append_eq_right, BitVec.extractLsb'_append_eq_left]

end Sys2Proof.Machine

namespace Sys2Proof.Claims

open Sys2Proof.Machine

/-- Where a home alone has changed, an answer leaves as the home's answer. -/
theorem homeAnswers_of_changes {s v : State} (h : s.HomeChanges v) (k : Nat) (m : Msg) (die : Nat) (kind : MsgKind) :
    HomeAnswers s ((v.dropMsg k).sendBack die m.agent m.owner kind) k m kind := by
  obtain ⟨a, hmsgs, hkind, hagent, howner⟩ := (v.dropMsg k).msgs_send die 100 (replyDie die m.agent) m.agent m.owner kind
  obtain ⟨ts, ds, me, ti, rfl⟩ := h
  exact ⟨by simp, by simp, by simp, by simp, a, hmsgs, hkind, hagent, howner⟩

/-! Misses and renewals (R216) -/

section
variable {s : State} {k : Nat} {m : Msg} {line lim : Nat} {wts : Option (BitVec 32)} (hmsg : s.msgs[k]? = some m)
  (hkind : m.kind = .loadReq line wts lim) (hturn : s.homeTurn k m line = .go) (hroom : s.roomBack (homeDie line) m.agent 0 = true)
include hmsg hkind hturn hroom

/-- A lease that the home can give: rts rises to t + LEASE, and the bytes go with the answer unless the requester holds the version. -/
theorem exec_homeLoadRequest_of_lease (hlim : lim < 2 ^ 32) :
    exec (.homeLoadRequest k false) s =
      let u := s.fillLine line
      let h := u.lineTs line
      let rts := tsMax h.2 (BitVec.ofNat 32 lim)
      .next (((u.setLineTs line h.1 rts).dropMsg k).sendBack (homeDie line) m.agent m.owner
        (.loadRep line h.1 rts (if wts = some h.1 then none else some (s.lineData line)))) := by
  have hdata : (s.fillLine line).lineData line = s.lineData line := State.lineData_congr (s.fillLine_mem line) line
  simp only [exec, execHomeLoadRequest, hmsg, hkind, hturn, hroom, hdata, beq_iff_eq]
  exact if_neg (Nat.not_le.2 hlim)

theorem exec_homeLoadRequest_of_late (hlim : 2 ^ 32 ≤ lim) : exec (.homeLoadRequest k false) s = .next (s.askRebase (homeDie line)) := by
  simp only [exec, execHomeLoadRequest, hmsg, hkind, hturn, hroom]
  exact if_pos hlim

/-- An uncorrectable error in GDDR 7 faults the launch (R341). -/
theorem exec_homeLoadRequest_of_upset (hheld : (s.getDie (homeDie line)).held.contains line = false) :
    exec (.homeLoadRequest k true) s = .next (((s.dropMsg k).dropAgent m.agent).faultLaunch m.owner 0xD1 (agentTile m.agent) line) := by
  have hdie : (((s.dropMsg k).dropAgent m.agent).getDie (homeDie line)).held.contains line = false := by
    rw [State.getDie_dropAgent]
    exact hheld
  simp only [exec, execHomeLoadRequest, hmsg, hkind, hturn, hroom, hdie]
  rfl

end

/-! Stores (R217) -/

section
variable {s : State} {k : Nat} {m : Msg} {e : StoreEnt} {t0 : BitVec 32} (hmsg : s.msgs[k]? = some m) (hkind : m.kind = .storeReq e t0)
  (hturn : s.homeTurn k m e.flat = .go) (hroom : s.roomBack (homeDie (e.flat / 64 * 64)) m.agent 0 = true)
include hmsg hkind hturn hroom

theorem exec_homeStore_of_time (hts : (s.fillLine (e.flat / 64 * 64)).writeTs (e.flat / 64 * 64) t0.toNat < 2 ^ 32) :
    exec (.homeStore k) s =
      let line := e.flat / 64 * 64
      let u := s.fillLine line
      let ts := BitVec.ofNat 32 (u.writeTs line t0.toNat)
      let v := u.homeWrite e.flat e.n e.data.toNat ts
      .next ((v.dropMsg k).sendBack (homeDie line) m.agent m.owner (.storeRep line ts (u.lineTs line).1 (v.lineData line))) := by
  simp only [exec, execHomeStore, hmsg, hkind, hturn, hroom]
  exact if_neg (Nat.not_le.2 hts)

theorem exec_homeStore_of_late (hts : 2 ^ 32 ≤ (s.fillLine (e.flat / 64 * 64)).writeTs (e.flat / 64 * 64) t0.toNat) :
    exec (.homeStore k) s = .next ((s.fillLine (e.flat / 64 * 64)).askRebase (homeDie (e.flat / 64 * 64))) := by
  simp only [exec, execHomeStore, hmsg, hkind, hturn, hroom]
  exact if_pos hts

end

/-- Settles O23: a home changes its lines, its registers and the stored bytes alone, and sends its answer behind the other messages. -/
theorem homeAccesses : Obligations.HomeAccesses := by
  unfold Obligations.HomeAccesses
  refine ⟨fun k s m line wts lim hmsg hkind hturn hroom => ⟨fun hlim => ?_, exec_homeLoadRequest_of_late hmsg hkind hturn hroom⟩,
    fun k s m line wts lim hmsg hkind hturn hroom hheld => exec_homeLoadRequest_of_upset hmsg hkind hturn hroom hheld,
    fun k s m e t0 hmsg hkind hturn hroom hwf => ⟨fun hts => ?_, fun hts => ?_⟩, fun s line h => State.memts_evictLine⟩
  · refine ⟨_, exec_homeLoadRequest_of_lease hmsg hkind hturn hroom hlim, ?_, fun a => by simp,
      homeAnswers_of_changes (.trans (.fillLine s line) (.setLineTs _ _ _ _)) k m _ _⟩
    rw [State.lineTs_sendBack, State.lineTs_setLineTs_same]
  · have hfilled : ((s.fillLine (e.flat / 64 * 64)).homeWrite e.flat e.n e.data.toNat
        (BitVec.ofNat 32 ((s.fillLine (e.flat / 64 * 64)).writeTs (e.flat / 64 * 64) t0.toNat))).mem =
        memWrite s.mem e.flat e.n e.data.toNat := by
      rw [← s.fillLine_mem (e.flat / 64 * 64)]
      rfl
    refine ⟨_, exec_homeStore_of_time hmsg hkind hturn hroom hts, ?_, fun i hi => ?_, fun a ha => ?_, ?_⟩
    · rw [State.lineTs_sendBack]
      exact State.lineTs_setLineTs_same _ _ _ _
    · rw [State.sendBack_mem, State.dropMsg_mem, hfilled]
      exact memByte_memWrite hwf _ _ _ _ hi
    · rw [State.sendBack_mem, State.dropMsg_mem, hfilled]
      exact memByte_memWrite_of_out _ _ _ _ ha
    · rw [State.lineData_congr ((State.sendBack_mem _ _ _ _ _).trans (State.dropMsg_mem _ _))]
      exact homeAnswers_of_changes (.trans (.fillLine s _) (.homeWrite _ _ _ _ _)) k m _ _
  · refine ⟨_, exec_homeStore_of_late hmsg hkind hturn hroom hts, ?_, (State.askRebase_mem _ _).trans (s.fillLine_mem _), ?_⟩
    · obtain ⟨ts, ds, me, ti, h⟩ := State.HomeChanges.fillLine s (e.flat / 64 * 64)
      rw [h]
      rfl
    · simp [State.askRebase]

end Sys2Proof.Claims

/-! Replies at a tile (R215, R217, R218, R222): what an agent reads of its own, and what each operation does to it. -/

namespace Sys2Proof.Machine

/-- What a change of every entry, each at its own key, leaves of an entry. -/
theorem smGet_map_of_kept {α β : Type} (g : α → β) (d : α) {f : Nat × α → Nat × α} (hkey : ∀ e, (f e).1 = e.1) (hkept : ∀ e, g (f e).2 = g e.2)
    (m : SMap α) (k : Nat) : g (smGet d (m.map f) k) = g (smGet d m k) := by
  induction m with
  | nil => rfl
  | cons e r ih =>
    have hcons (x : Nat × α) (l : SMap α) : smGet d (x :: l) k = if x.1 = k then x.2 else smGet d l k := by
      obtain ⟨j, y⟩ := x
      simp only [smGet, smFind]
      split <;> rfl
    rw [List.map_cons, hcons, hcons, hkey]
    split
    · exact hkept e
    · exact ih

/-- What a tile holds for its agents: the sequencer's store buffer, high-water and load state, LCLK, the cache lines and the ports' load states. -/
def Tile.own (t : Tile) : (List StoreEnt × BitVec 32 × LoadSt) × BitVec 32 × SMap CLine × (Nat → LoadSt) :=
  ((t.sbuf, t.hiWater, t.ld), t.spr.lclk, t.lines, fun p => (t.port p).ld)

/-- What a cell holds for its agent: its store buffer, high-water and load state. -/
def Cell.own (c : Cell) : List StoreEnt × BitVec 32 × LoadSt := (c.sbuf, c.hiWater, c.ld)

/-- What an agent reads of its own: its store buffer, store high-water and load state, and its tile's LCLK and cache lines. -/
structure AgentView where
  sbuf : List StoreEnt
  hi : BitVec 32
  ld : LoadSt
  lclk : BitVec 32
  lines : SMap CLine

def State.view (s : State) (a : Nat) : AgentView :=
  ⟨s.sbufOf a, s.hiOf a, s.ldOf a, s.lclk (agentTile a), (s.getTile (agentTile a)).lines⟩

/-! Operations that leave an agent's own alone -/

theorem State.view_congr {s t : State} (a : Nat) (htile : ∀ x, (t.getTile x).own = (s.getTile x).own)
    (hcell : ∀ c, (t.getCell c).own = (s.getCell c).own) : t.view a = s.view a := by
  have htile := htile (agentTile a)
  have hcell := hcell (agentCell a)
  simp only [Tile.own, Cell.own, Prod.mk.injEq] at htile hcell
  obtain ⟨⟨hsbuf, hhi, hld⟩, hlclk, hlines, hports⟩ := htile
  obtain ⟨hsbuf', hhi', hld'⟩ := hcell
  have hport (p : Nat) := congrFun hports p
  simp only [State.view, State.sbufOf, State.hiOf, State.ldOf, State.lclk, hsbuf, hhi, hld, hlclk, hlines, hport, hsbuf', hhi', hld']

theorem State.view_modTile_of_own (s : State) (x : Nat) {f : Tile → Tile} (hf : (f (s.getTile x)).own = (s.getTile x).own) (a : Nat) :
    (s.modTile x f).view a = s.view a := by
  refine State.view_congr a (fun y => ?_) fun _ => rfl
  rw [State.getTile_modTile]
  split
  · next hy => rw [hf, hy]
  · rfl

@[simp] theorem State.view_dropMsg (s : State) (k a : Nat) : (s.dropMsg k).view a = s.view a := rfl

@[simp] theorem State.view_modLaunch (s : State) (u : Nat) (f : Launch → Launch) (a : Nat) : (s.modLaunch u f).view a = s.view a :=
  State.view_congr a (fun x => by rw [State.getTile_modLaunch]) fun c => by rw [State.getCell_modLaunch]

@[simp] theorem State.view_sendFrom (s : State) (b o d : Nat) (k : MsgKind) (a : Nat) : (s.sendFrom b o d k).view a = s.view a :=
  State.view_congr a (fun x => by simp [State.getTile]) fun c => by simp [State.getCell]

@[simp] theorem State.view_raiseRun (s : State) (u run : Nat) (ts : BitVec 32) (a : Nat) : (s.raiseRun u run ts).view a = s.view a :=
  State.view_modLaunch s u _ a

@[simp] theorem State.view_resetSpins (s : State) (t a : Nat) : (s.resetSpins t).view a = s.view a := by
  have hcells : (s.resetSpins t).view a = (s.modTile t fun x => { x with spin := { x.spin with count := 0 } }).view a := by
    refine State.view_congr a (fun _ => rfl) fun c => smGet_map_of_kept Cell.own Cell.reset (fun e => ?_) (fun e => ?_) s.cells c
    · split <;> rfl
    · split <;> rfl
  rw [hcells, State.view_modTile_of_own s t rfl]

@[simp] theorem State.view_raiseQueued (s : State) (u : Nat) (ts : BitVec 32) (a : Nat) : (s.raiseQueued u ts).view a = s.view a := by
  unfold State.raiseQueued
  split
  · refine foldl_frame (fun v => v.view a) _ (fun v x => v.view_modTile_of_own x ?_ a) _ s
    have hports (f : List QEnt → List QEnt) (p : Nat) :
        (smGet PortQ.reset ((v.getTile x).ports.map fun q => (q.1, { q.2 with entries := f q.2.entries })) p).ld = ((v.getTile x).port p).ld :=
      smGet_map_of_kept PortQ.ld PortQ.reset (f := fun q => (q.1, { q.2 with entries := f q.2.entries })) (fun _ => rfl) (fun _ => rfl) _ p
    exact congrArg (fun ld => (_, _, _, ld)) (funext fun p => hports _ p)
  · rfl

/-! Operations that change it -/

@[simp] theorem State.getCell_modTile (s : State) (t : Nat) (f : Tile → Tile) (c : Nat) : (s.modTile t f).getCell c = s.getCell c := rfl

@[simp] theorem State.getTile_modCell (s : State) (c : Nat) (f : Cell → Cell) (t : Nat) : (s.modCell c f).getTile t = s.getTile t := rfl

@[simp] theorem State.view_setSbuf (s : State) (a : Nat) (b : List StoreEnt) : (s.setSbuf a b).view a = { s.view a with sbuf := b } := by
  cases hseq : agentIsSeq a <;> simp [State.setSbuf, State.view, State.sbufOf, State.hiOf, State.ldOf, State.lclk, Tile.port, hseq]

/-- An agent's load state is a part of its tile or of its cell. -/
theorem State.modLd_cases (s : State) (a : Nat) (f : LoadSt → LoadSt) :
    (∃ g, s.modLd a f = s.modTile (agentTile a) g ∧ ∀ t, ∃ ld po, g t = { t with ld := ld, ports := po }) ∨
      ∃ g, s.modLd a f = s.modCell (agentCell a) g ∧ ∀ c, ∃ ld, g c = { c with ld := ld } := by
  unfold State.modLd
  split
  · exact .inl ⟨_, rfl, fun _ => ⟨_, _, rfl⟩⟩
  · split
    · exact .inl ⟨_, rfl, fun _ => ⟨_, _, rfl⟩⟩
    · exact .inr ⟨_, rfl, fun _ => ⟨_, rfl⟩⟩

@[simp] theorem State.view_modLd (s : State) (a : Nat) (f : LoadSt → LoadSt) : (s.modLd a f).view a = { s.view a with ld := f (s.view a).ld } := by
  simp only [State.view, Claims.ldOf_modLd]
  obtain ⟨g, h, hg⟩ | ⟨g, h, hg⟩ := s.modLd_cases a f
  · obtain ⟨ld, po, hg⟩ := hg (s.getTile (agentTile a))
    simp [h, hg, State.sbufOf, State.hiOf, State.lclk]
  · obtain ⟨ld, hg⟩ := hg (s.getCell (agentCell a))
    simp [h, hg, State.sbufOf, State.hiOf, State.lclk]

theorem State.getTile_modLd_of_ne (s : State) (a : Nat) (f : LoadSt → LoadSt) {j : Nat} (h : j ≠ agentTile a) :
    (s.modLd a f).getTile j = s.getTile j := by
  obtain ⟨g, hmod, -⟩ | ⟨g, hmod, -⟩ := s.modLd_cases a f <;> simp [hmod, h]

@[simp] theorem State.view_raiseLclk (s : State) (a : Nat) (ts : BitVec 32) :
    (s.raiseLclk (agentTile a) ts).view a = { s.view a with lclk := tsMax (s.view a).lclk ts } := by
  simp [State.raiseLclk, State.view, State.sbufOf, State.hiOf, State.ldOf, State.lclk, Tile.port]

theorem State.view_setLines (s : State) (a : Nat) (f : Tile → SMap CLine) :
    (s.modTile (agentTile a) fun x => { x with lines := f x }).view a = { s.view a with lines := f (s.getTile (agentTile a)) } := by
  simp [State.view, State.sbufOf, State.hiOf, State.ldOf, State.lclk, Tile.port]

theorem State.view_raiseWater (s : State) (a : Nat) (ts : BitVec 32) :
    (s.raiseWater a ts).view a = { s.view a with hi := tsMax (s.view a).hi ts } := by
  cases hseq : agentIsSeq a <;> simp [State.raiseWater, State.view, State.sbufOf, State.hiOf, State.ldOf, State.lclk, Tile.port, hseq]

@[simp] theorem State.view_raiseHi (s : State) (a : Nat) (ts : BitVec 32) : (s.raiseHi a ts).view a = { s.view a with hi := tsMax (s.view a).hi ts } := by
  obtain h | ⟨u, h⟩ := s.raiseHi_cases a ts
  · rw [h, State.view_raiseWater]
  · rw [h, State.view_modLaunch, State.view_raiseWater]

/-! A line that comes to its tile (R215) -/

/-- The lines of a tile cache that stay when a line comes: a victim and the line's own earlier form leave (R219). -/
def Tile.keptLines (x : Tile) (victim line : Nat) : SMap CLine :=
  let rest := smDel (smDel x.lines victim) line
  rest.drop (rest.length - 4095)

theorem State.view_cacheLine (s : State) (a line : Nat) (l : CLine) :
    (s.cacheLine (agentTile a) line l).view a =
      { s.view a with lines := smPut ((s.getTile (agentTile a)).keptLines (Config.cacheVictim s.tick) line) line l } :=
  State.view_setLines { s with tick := s.tick + 1 } a fun x => smPut (x.keptLines (Config.cacheVictim s.tick) line) line l

theorem State.view_giveLine (s : State) (a line : Nat) (l : CLine) :
    (s.giveLine a line l).view a =
      { s.view a with lclk := tsMax (s.view a).lclk l.wts,
                      ld := { (s.view a).ld with lines := smPut (s.view a).ld.lines line l.data, waiting := false } } := by
  rw [State.giveLine, State.view_modLd, State.view_raiseLclk]

/-- A reply brings a line to its tile and to the load that waits for it. -/
def State.lineCome (s : State) (k : Nat) (m : Msg) (line : Nat) (l : CLine) : State :=
  ((s.dropMsg k).cacheLine (agentTile m.agent) line l).giveLine m.agent line l

section
variable (s : State) (k : Nat) (m : Msg) (line : Nat) (l : CLine)

theorem State.view_lineCome :
    (s.lineCome k m line l).view m.agent =
      { s.view m.agent with
        lines := smPut ((s.getTile (agentTile m.agent)).keptLines (Config.cacheVictim s.tick) line) line l
        lclk := tsMax (s.view m.agent).lclk l.wts
        ld := { (s.view m.agent).ld with lines := smPut (s.view m.agent).ld.lines line l.data, waiting := false } } := by
  rw [State.lineCome, State.view_giveLine, State.view_cacheLine, State.view_dropMsg, State.getTile_dropMsg, State.dropMsg_tick]

/-- The line that came is the tile's, LCLK has its wts, and the load has its bytes and waits no more. -/
theorem State.lineCome_own :
    smFind ((s.lineCome k m line l).getTile (agentTile m.agent)).lines line = some l ∧
      (s.lineCome k m line l).lclk (agentTile m.agent) = tsMax (s.lclk (agentTile m.agent)) l.wts ∧
      smFind ((s.lineCome k m line l).ldOf m.agent).lines line = some l.data ∧ ((s.lineCome k m line l).ldOf m.agent).waiting = false := by
  have hview := s.view_lineCome k m line l
  simp only [State.view, AgentView.mk.injEq] at hview
  obtain ⟨-, -, hld, hlclk, hlines⟩ := hview
  simp [hld, hlclk, hlines]

theorem State.getTile_lineCome_of_ne {j : Nat} (h : j ≠ agentTile m.agent) : (s.lineCome k m line l).getTile j = s.getTile j := by
  rw [State.lineCome, State.giveLine, State.getTile_modLd_of_ne _ _ _ h, State.raiseLclk, State.getTile_modTile, if_neg h, State.cacheLine,
    State.getTile_modTile, if_neg h]
  rfl

theorem State.msgs_lineCome : (s.lineCome k m line l).msgs = removeAt s.msgs k := by
  rw [State.lineCome, State.giveLine, State.modLd_msgs]
  rfl

theorem State.mem_lineCome : (s.lineCome k m line l).mem = s.mem := by
  simp [State.lineCome]

end

/-! A store that has performed (R217, R222) -/

/-- A load that has the line keeps the store in it. -/
theorem LoadSt.smFind_merge {x : LoadSt} {line : Nat} {l : BitVec 512} (e : StoreEnt) (h : smFind x.lines line = some l) :
    smFind (x.merge line e).lines line = some (lineMerge l (e.flat - line) e.n e.data.toNat) := by
  simp only [LoadSt.merge, h, smFind_smPut_same]

section
variable (s : State) (k : Nat) (m : Msg) (line : Nat) (ts : BitVec 32) (e : StoreEnt) (r : List StoreEnt) (d : BitVec 512)

/-- A store has left its buffer, and the load of its agent and LCLK have taken it. -/
def State.storeLeft : State :=
  (((s.dropMsg k).setSbuf m.agent r).modLd m.agent fun x => x.merge line e).raiseLclk (agentTile m.agent) ts

/-- The tile's line is the written one, the agent's high-water has the store, and the tile's counts of hits start again. -/
def State.storeKept : State :=
  ((s.modTile (agentTile m.agent) fun x => { x with lines := smPut x.lines line ⟨ts, ts, d⟩ }).raiseHi m.agent ts).resetSpins (agentTile m.agent)

/-- The other work of its unit hears of the store: queued stream commands, or the run that its cell made it for. -/
def State.storeTold : State := if agentIsSeq m.agent then s.raiseQueued m.owner ts else s.raiseRun m.owner e.run ts

/-- What a store's reply comes to at a tile that has the line, with the bytes the line is to have. -/
def State.storeReplied : State := ((s.storeLeft k m line ts e r).storeKept m line ts d).storeTold m ts e

theorem State.view_storeLeft :
    (s.storeLeft k m line ts e r).view m.agent =
      { s.view m.agent with sbuf := r, ld := (s.view m.agent).ld.merge line e, lclk := tsMax (s.view m.agent).lclk ts } := by
  rw [State.storeLeft, State.view_raiseLclk, State.view_modLd, State.view_setSbuf, State.view_dropMsg]

theorem State.view_storeKept :
    (s.storeKept m line ts d).view m.agent =
      { s.view m.agent with lines := smPut (s.view m.agent).lines line ⟨ts, ts, d⟩, hi := tsMax (s.view m.agent).hi ts } := by
  rw [State.storeKept, State.view_resetSpins, State.view_raiseHi, State.view_setLines s m.agent fun x => smPut x.lines line ⟨ts, ts, d⟩]
  rfl

theorem State.view_storeTold (a : Nat) : (s.storeTold m ts e).view a = s.view a := by
  unfold State.storeTold
  split
  · exact s.view_raiseQueued m.owner ts a
  · exact s.view_raiseRun m.owner e.run ts a

/-- The store is out of its buffer, the high-water and LCLK have its timestamp, the tile's line is the written one, and the load has merged it. -/
theorem State.storeReplied_own :
    (s.storeReplied k m line ts e r d).sbufOf m.agent = r ∧
      (s.storeReplied k m line ts e r d).hiOf m.agent = tsMax (s.hiOf m.agent) ts ∧
      (s.storeReplied k m line ts e r d).lclk (agentTile m.agent) = tsMax (s.lclk (agentTile m.agent)) ts ∧
      smFind ((s.storeReplied k m line ts e r d).getTile (agentTile m.agent)).lines line = some ⟨ts, ts, d⟩ ∧
      (s.storeReplied k m line ts e r d).ldOf m.agent = (s.ldOf m.agent).merge line e := by
  have hview := State.view_storeTold ((s.storeLeft k m line ts e r).storeKept m line ts d) m ts e m.agent
  rw [← State.storeReplied, State.view_storeKept, State.view_storeLeft] at hview
  simp only [State.view, AgentView.mk.injEq] at hview
  obtain ⟨hsbuf, hhi, hld, hlclk, hlines⟩ := hview
  simp [hsbuf, hhi, hld, hlclk, hlines]

theorem State.msgs_storeTold : (s.storeTold m ts e).msgs = s.msgs := by
  unfold State.storeTold
  split
  · unfold State.raiseQueued
    split
    · exact foldl_frame State.msgs _ (fun _ _ => by rfl) _ s
    · rfl
  · exact State.modLaunch_msgs s m.owner _

theorem State.msgs_storeReplied : (s.storeReplied k m line ts e r d).msgs = removeAt s.msgs k := by
  have hkept := ((s.storeLeft k m line ts e r).modTile (agentTile m.agent) fun x => { x with lines := smPut x.lines line ⟨ts, ts, d⟩ }).raiseHi_frame m.agent ts
  rw [State.storeReplied, State.msgs_storeTold]
  refine hkept.1.trans ?_
  rw [State.modTile_msgs, State.storeLeft, State.raiseLclk_msgs, State.modLd_msgs, State.setSbuf_msgs, State.msgs_dropMsg]

end

/-! An acknowledgement of a RED form (R218) -/

theorem State.lclk_raiseHi (s : State) (a : Nat) (ts : BitVec 32) (j : Nat) : (s.raiseHi a ts).lclk j = s.lclk j := by
  rw [State.lclk, State.getTile_raiseHi, State.getTile_raiseWater]
  split
  · next h => rw [h.2, State.lclk]
  · rfl

/-- It raises the issuing agent's high-water, and for a cell that of the run its command was made for (R77). -/
def State.redTaken (s : State) (k : Nat) (m : Msg) (ts : BitVec 32) : State :=
  let v := (s.dropMsg k).raiseHi m.agent ts
  if agentIsSeq m.agent then v else v.raiseRun m.owner m.run ts

/-- Beside the high-water of its agent, an acknowledgement changes no more than the bookkeeping of a launch. -/
theorem State.redTaken_cases (s : State) (k : Nat) (m : Msg) (ts : BitVec 32) :
    s.redTaken k m ts = (s.dropMsg k).raiseHi m.agent ts ∨ ∃ f, s.redTaken k m ts = ((s.dropMsg k).raiseHi m.agent ts).modLaunch m.owner f := by
  unfold State.redTaken
  cases agentIsSeq m.agent
  · exact .inr ⟨_, rfl⟩
  · exact .inl rfl

theorem State.view_redTaken (s : State) (k : Nat) (m : Msg) (ts : BitVec 32) :
    (s.redTaken k m ts).view m.agent = { s.view m.agent with hi := tsMax (s.view m.agent).hi ts } := by
  obtain h | ⟨f, h⟩ := s.redTaken_cases k m ts <;> simp [h]

theorem State.redTaken_frame (s : State) (k : Nat) (m : Msg) (ts : BitVec 32) :
    (s.redTaken k m ts).msgs = removeAt s.msgs k ∧ (s.redTaken k m ts).mem = s.mem ∧ ∀ j, (s.redTaken k m ts).lclk j = s.lclk j := by
  have hraise := (s.dropMsg k).raiseHi_frame m.agent ts
  have hlclk (j : Nat) : ((s.dropMsg k).raiseHi m.agent ts).lclk j = s.lclk j := State.lclk_raiseHi _ m.agent ts j
  obtain h | ⟨f, h⟩ := s.redTaken_cases k m ts
  · rw [h]
    exact ⟨hraise.1, hraise.2.2, hlclk⟩
  · rw [h]
    refine ⟨(State.modLaunch_msgs _ _ _).trans hraise.1, (State.modLaunch_mem _ _ _).trans hraise.2.2, fun j => ?_⟩
    rw [State.lclk, State.getTile_modLaunch]
    exact hlclk j

end Sys2Proof.Machine

namespace Sys2Proof.Claims

open Sys2Proof.Machine

/-! What the events run -/

section
variable {s : State} {k : Nat} {m : Msg} {line : Nat} (hmsg : s.msgs[k]? = some m) (hturn : s.replyTurn k m line = true)
include hmsg hturn

theorem exec_loadReply_of_data {wts rts : BitVec 32} {d : BitVec 512} (hkind : m.kind = .loadRep line wts rts (some d)) :
    exec (.loadReply k) s = .next (s.lineCome k m line ⟨wts, rts, d⟩) := by
  simp only [exec, execLoadReply, hmsg, hkind, hturn]
  rfl

/-- A renewal of a line that the tile still has keeps its bytes. -/
theorem exec_loadReply_of_renewal {wts rts : BitVec 32} {l : CLine} (hkind : m.kind = .loadRep line wts rts none)
    (hline : smFind (s.getTile (agentTile m.agent)).lines line = some l) :
    exec (.loadReply k) s = .next (s.lineCome k m line ⟨wts, rts, l.data⟩) := by
  simp only [exec, execLoadReply, hmsg, hkind, hturn, State.getTile_dropMsg, hline]
  rfl

/-- A store's reply at a tile that has its line: the bytes of the home go there where the tile's version was another. -/
theorem exec_storeReply_of_line {ts prev : BitVec 32} {d : BitVec 512} {e : StoreEnt} {r : List StoreEnt} {l : CLine}
    (hkind : m.kind = .storeRep line ts prev d) (hbuf : s.sbufOf m.agent = e :: r)
    (hline : smFind (s.getTile (agentTile m.agent)).lines line = some l) :
    exec (.storeReply k) s =
      .next (s.storeReplied k m line ts e r (if l.wts = prev then lineMerge l.data (e.flat - line) e.n e.data.toNat else d)) := by
  have hlines : ((s.storeLeft k m line ts e r).view m.agent).lines = (s.getTile (agentTile m.agent)).lines := by
    rw [State.view_storeLeft]
    rfl
  have hleft : smFind ((s.storeLeft k m line ts e r).getTile (agentTile m.agent)).lines line = some l := (congrArg (smFind · line) hlines).trans hline
  rw [State.storeLeft] at hleft
  simp only [exec, execStoreReply, hmsg, Option.map_some, hkind, hturn, hbuf, hleft, beq_iff_eq]
  rfl

end

theorem exec_redAck_of_arrived {s : State} {k : Nat} {m : Msg} {ts : BitVec 32} (hmsg : s.msgs[k]? = some m) (hkind : m.kind = .redAck ts)
    (harrived : m.arrived = true) : exec (.redAck k) s = .next (s.redTaken k m ts) := by
  simp [exec, execRedAck, hmsg, hkind, harrived, State.redTaken]

/-! A store buffer's head leaves (R217, R222) -/

section
variable {s : State} {agent : Nat} {e : StoreEnt} {r : List StoreEnt} (hbuf : s.sbufOf agent = e :: r) (hsent : e.sent = false)
include hbuf hsent

/-- A type-0 store stays at the head until it has performed (log 123). -/
theorem exec_storeBufferSend_home (hty : e.ty = 0) (hreb : s.rebasing = false)
    (hroom : s.room (tileDie (agentTile agent)) (tileLocal (agentTile agent)) (homeDie e.flat) 0 = true) :
    exec (.storeBufferSend agent) s = .next ((s.setSbuf agent ({ e with sent := true } :: r)).sendFrom agent e.owner (homeDie e.flat)
      (.storeReq { e with sent := true } (s.lclk (agentTile agent)))) := by
  simp only [exec, execStoreBufferSend, hbuf, hsent, hty, hreb, hroom]
  rfl

theorem exec_storeBufferSend_direct (hty : e.ty.toNat ∈ [3, 4, 5, 7])
    (hroom : s.room (tileDie (agentTile agent)) (tileLocal (agentTile agent)) e.home 0 = true) :
    exec (.storeBufferSend agent) s =
      .next ((s.setSbuf agent r).sendFrom agent e.owner e.home (.access e.ty e.home e.flat e.n true e.data)) := by
  simp only [List.mem_cons, List.not_mem_nil, or_false] at hty
  have hne (c : BitVec 3) (hc : c.toNat ∉ [3, 4, 5, 7]) : e.ty ≠ c := by
    rintro rfl
    exact hc (by simpa using hty)
  simp only [exec, execStoreBufferSend, hbuf, hsent, hne 0 (by decide), hne 1 (by decide), hne 6 (by decide),
    if_neg (show ¬ e.ty.toNat ≤ 2 by omega), hroom]
  rfl

end

/-- A message that leaves a store buffer stands behind the others; the buffer is what the send left, and the bytes of memory stay. -/
theorem buffer_sends {i : Instr} {s : State} {agent owner die : Nat} {b : List StoreEnt} {kind : MsgKind}
    (hrun : exec i s = .next ((s.setSbuf agent b).sendFrom agent owner die kind)) :
    ∃ t x, Runs i s t ∧ t.sbufOf agent = b ∧ t.msgs = s.msgs ++ [x] ∧ x.agent = agent ∧ x.kind = kind ∧ ∀ a, memByte t.mem a = memByte s.mem a := by
  obtain ⟨x, hmsgs, hkind, hagent, -, -⟩ := msgs_sendFrom (s.setSbuf agent b) agent owner die kind
  have hview : ((s.setSbuf agent b).sendFrom agent owner die kind).view agent = { s.view agent with sbuf := b } := by
    rw [State.view_sendFrom, State.view_setSbuf]
  exact ⟨_, x, hrun, congrArg AgentView.sbuf hview, hmsgs.trans (by rw [State.setSbuf_msgs]), hagent, hkind, fun a => by simp⟩

/-- Settles O24: what each reply leaves of its agent's own is the view of the state it runs to. -/
theorem tileReplies : Obligations.TileReplies := by
  unfold Obligations.TileReplies
  refine ⟨fun k s m line wts rts d hmsg hkind hturn => ?_, fun k s m line wts rts l hmsg hkind hturn hline => ?_,
    fun k s m line ts prev d e r l hmsg hkind hturn hbuf hline => ?_, fun k s m ts hmsg hkind harrived => ?_,
    fun agent s e r hbuf hsent hty hreb hroom => buffer_sends (exec_storeBufferSend_home hbuf hsent hty hreb hroom),
    fun agent s e r hbuf hsent hty hroom => ?_⟩
  · obtain ⟨hlines, hlclk, hld, hwaiting⟩ := s.lineCome_own k m line ⟨wts, rts, d⟩
    exact ⟨_, exec_loadReply_of_data hmsg hturn hkind, s.msgs_lineCome k m line _, hlines, hlclk, hld, hwaiting,
      fun a => by rw [State.mem_lineCome], fun j hj => s.getTile_lineCome_of_ne k m line _ hj⟩
  · obtain ⟨hlines, hlclk, -⟩ := s.lineCome_own k m line ⟨wts, rts, l.data⟩
    exact ⟨_, exec_loadReply_of_renewal hmsg hturn hkind hline, s.msgs_lineCome k m line _, hlines, hlclk⟩
  · obtain ⟨hsbuf, hhi, hlclk, hlines, hld⟩ := s.storeReplied_own k m line ts e r
      (if l.wts = prev then lineMerge l.data (e.flat - line) e.n e.data.toNat else d)
    refine ⟨_, exec_storeReply_of_line hmsg hturn hkind hbuf hline, s.msgs_storeReplied k m line ts e r _, hsbuf, hhi, hlclk, hlines,
      fun x hx => ?_⟩
    rw [hld]
    exact LoadSt.smFind_merge e hx
  · obtain ⟨hmsgs, hmem, hlclk⟩ := s.redTaken_frame k m ts
    exact ⟨_, exec_redAck_of_arrived hmsg hkind harrived, hmsgs, congrArg AgentView.hi (s.view_redTaken k m ts), hlclk, fun a => by rw [hmem]⟩
  · obtain ⟨t, x, hrun, hsbuf, hmsgs, hagent, hkind, -⟩ := buffer_sends (exec_storeBufferSend_direct hbuf hsent hty hroom)
    exact ⟨t, x, hrun, hsbuf, hmsgs, hagent, hkind⟩

end Sys2Proof.Claims

/-! Attestation (R354) in a memory that is not in canonical form. -/

namespace Sys2Proof.Machine

theorem smFind_append {α : Type} (l r : SMap α) (k : Nat) : smFind (l ++ r) k = (smFind l k).or (smFind r k) := by
  induction l with
  | nil => rfl
  | cons e l ih =>
    obtain ⟨j, v⟩ := e
    simp only [List.cons_append, smFind, ih]
    split <;> rfl

/-- In canonical form no entry is what an unlisted address reads as. -/
theorem smFind_of_memByte_default {m : List Host.Cell} {a : Nat} (hm : Memory.wf m = true) (h : memByte m a = memDefault) : smFind m a = none := by
  induction m with
  | nil => rfl
  | cons e r ih =>
    obtain ⟨j, v⟩ := e
    simp only [Memory.wf, memWfFrom, Bool.and_eq_true, bne_iff_ne] at hm
    obtain ⟨⟨-, hv⟩, hr⟩ := hm
    simp only [memByte, smGet, smFind] at h ⊢
    split
    · next hj => exact absurd (by simpa [hj] using h) hv
    · next hj => exact ih (memWfFrom_mono hr (Nat.zero_le _)) (by simpa [memByte, smGet, hj] using h)

/-! A write below an entry stays in front of it -/

section
variable {j : Nat} {w : Byte} {r : List Host.Cell}

theorem memPut_append_of_lt (l : List Host.Cell) {k : Nat} (v : Byte) (h : k < j) : memPut (l ++ (j, w) :: r) k v = memPut l k v ++ (j, w) :: r := by
  induction l with
  | nil => by_cases hv : v = memDefault <;> simp [memPut, h, hv]
  | cons e l ih =>
    obtain ⟨i, x⟩ := e
    by_cases hlt : k < i
    · by_cases hv : v = memDefault <;> simp [memPut, hlt, hv]
    · by_cases heq : k = i
      · by_cases hv : v = memDefault <;> simp [memPut, heq, hv]
      · simp [memPut, hlt, heq, ih]

theorem memWrite_append_of_le (l : List Host.Cell) (a n v : Nat) (h : a + n ≤ j) :
    memWrite (l ++ (j, w) :: r) a n v = memWrite l a n v ++ (j, w) :: r := by
  induction n generalizing l a v with
  | zero => rfl
  | succ n ih => rw [memWrite, memPut_append_of_lt l _ (by omega), ih _ _ _ (by omega), memWrite]

theorem foldl_memWrite_append_of_le {α : Type} (place value : α → Nat) (n : Nat) (xs : List α) (h : ∀ x ∈ xs, place x + n ≤ j) (l : List Host.Cell) :
    xs.foldl (fun m x => memWrite m (place x) n (value x)) (l ++ (j, w) :: r) =
      xs.foldl (fun m x => memWrite m (place x) n (value x)) l ++ (j, w) :: r := by
  induction xs generalizing l with
  | nil => rfl
  | cons x xs ih =>
    rw [List.foldl_cons, memWrite_append_of_le l _ _ _ (h x List.mem_cons_self), ih fun y hy => h y (List.mem_cons_of_mem x hy), List.foldl_cons]

end

/-! The result area -/

/-- What an attestation writes from a base on: 128 lines of free values, then the nonce at its place among them. -/
def attestMem (base place : Nat) (value : Nat → Nat) (nonce : Nat) (m : List Host.Cell) : List Host.Cell :=
  memWrite ((List.range 128).foldl (fun m i => memWrite m (base + 64 * i) 64 (value i)) m) (base + place) 32 nonce

/-- An attestation that was asked for changes the memory in its result area alone. -/
theorem mem_of_execAttest {s t : State} (hasked : s.mreg 0x820 ≠ 0) (h : execAttest s = .next t) :
    ∃ value, t.mem = attestMem (moduleBase 0 + 0x4000) (Config.nonceAt % (0x2000 - 31)) value s.nonce s.mem := by
  rw [execAttest, if_neg hasked] at h
  rw [← Host.Outcome.next.inj h]
  refine ⟨fun i => (State.freshLine { s with tick := s.tick + 8 * i }).1.toNat, ?_⟩
  rw [State.setMreg_mem, attestMem]

section
variable {base place : Nat} (value : Nat → Nat) (nonce : Nat)

theorem attestMem_wf {m : List Host.Cell} (h : Memory.wf m = true) : Memory.wf (attestMem base place value nonce m) = true :=
  memWrite_wf (memFold_wf h _ _ fun _ _ hm => memWrite_wf hm _ _ _) _ _ _

/-- What stands from an entry above the area on stays there. -/
theorem attestMem_append (l r : List Host.Cell) {j : Nat} (w : Byte) (hplace : place + 32 ≤ 0x2000) (h : base + 0x2000 ≤ j) :
    attestMem base place value nonce (l ++ (j, w) :: r) = attestMem base place value nonce l ++ (j, w) :: r := by
  have hlines : ∀ i ∈ List.range 128, base + 64 * i + 64 ≤ j := by
    intro i hi
    have hi := List.mem_range.1 hi
    omega
  rw [attestMem, foldl_memWrite_append_of_le _ _ _ _ hlines, memWrite_append_of_le _ _ _ _ (by omega), attestMem]

/-- In a memory with nothing listed a nonce of 0 is no entry. -/
theorem smFind_attestMem_zero : smFind (attestMem base place value 0 []) (base + place) = none := by
  refine smFind_of_memByte_default (attestMem_wf value 0 rfl) ?_
  have hlines := memFold_wf (m := []) rfl (List.range 128) (fun m i => memWrite m (base + 64 * i) 64 (value i)) fun _ _ hm => memWrite_wf hm _ _ _
  have hfirst := memByte_memWrite hlines (base + place) 32 0 0 (by decide)
  rw [Nat.add_zero, Nat.zero_div] at hfirst
  exact hfirst

/-- Where an entry above the area hides one at the nonce's place, a nonce of 0 leaves that one to be read. -/
theorem memRead_attestMem_of_hidden {j : Nat} (hplace : place + 32 ≤ 0x2000) (h : base + 0x2000 ≤ j) :
    memRead (attestMem base place value 0 [(j, 1), (base + place, 1)]) (base + place) 32 ≠ 0 := by
  have hbyte : memByte (attestMem base place value 0 [(j, 1), (base + place, 1)]) (base + place) = 1 := by
    have happend := attestMem_append value 0 [] [(base + place, 1)] 1 hplace h
    rw [List.nil_append] at happend
    have hj : j ≠ base + place := by omega
    rw [happend, memByte, smGet, smFind_append, smFind_attestMem_zero]
    simp [smFind, hj]
  rw [memRead, hbyte, show (1 : Byte).toNat = 1 from rfl]
  omega

end

end Sys2Proof.Machine

namespace Sys2Proof.Claims

open Sys2Proof.Machine

/-- ATTEST runs `execAttest` (R354). -/
theorem exec_attest (s : State) : exec .attest s = execAttest s := rfl

/-- From reset, an attestation asked for with a nonce of 0, in a memory out of order: behind an entry above the result area stands a 1 where the
nonce is to stand. -/
def attestHidden : State :=
  { State.reset with
    mem := [(moduleBase 0 + 0x4000 + 0x2000, 1), (moduleBase 0 + 0x4000 + Config.nonceAt % (0x2000 - 31), 1)]
    mod := { ModuleBlk.reset with regs := [(0x820, 1)] } }

/-- Refutes O51: its clause on ATTEST leaves out that the memory is in canonical form (`Memory.wf`, which every step keeps). In `attestHidden` the
nonce's zero bytes are written as no entry, and the 1 that stands out of order shows in the first of them. -/
theorem not_accessesThatLeave : ¬ Obligations.AccessesThatLeave := by
  unfold Obligations.AccessesThatLeave
  rintro ⟨-, -, -, -, -, -, -, -, hattest⟩
  have hasked : attestHidden.mreg 0x820 ≠ 0 := by decide
  have hzero : attestHidden.nonce = 0 := by decide
  obtain ⟨t, hruns, -, hnonce, -⟩ := hattest attestHidden hasked
  obtain ⟨value, hmem⟩ := mem_of_execAttest hasked hruns
  have hplace : Config.nonceAt % (0x2000 - 31) + 32 ≤ 0x2000 := by
    have := Nat.mod_lt Config.nonceAt (show 0 < 0x2000 - 31 by decide)
    omega
  rw [hmem, hzero] at hnonce
  exact memRead_attestMem_of_hidden value hplace (Nat.le_refl _) hnonce

end Sys2Proof.Claims

/-! Atomics at the Concordance (R218, R238 to R241). -/

namespace Sys2Proof.Machine

open Sys2Proof.Claims

/-! A read of several bytes -/

theorem memRead_lt (m : List Host.Cell) (a n : Nat) : memRead m a n < 256 ^ n := by
  induction n generalizing a with
  | zero => simp [memRead]
  | succ n ih =>
    have hbyte := (memByte m a).isLt
    have hrest := ih (a + 1)
    rw [memRead, pow_succ']
    omega

theorem memRead_lt_two_pow (m : List Host.Cell) (a n : Nat) : memRead m a n < 2 ^ (8 * n) := by
  rw [pow_mul]
  exact memRead_lt m a n

/-! The answer of a command (R46, R48) -/

/-- A run is marked in the messages alone. -/
theorem State.ofRun_eq (s : State) (run : Nat) : ∃ ms, s.ofRun run = { s with msgs := ms } := by
  unfold State.ofRun
  split
  · exact ⟨_, rfl⟩
  · exact ⟨s.msgs, rfl⟩

@[simp] theorem State.ofRun_tiles (s : State) (run : Nat) : (s.ofRun run).tiles = s.tiles := by
  obtain ⟨ms, h⟩ := s.ofRun_eq run
  rw [h]
@[simp] theorem State.ofRun_cells (s : State) (run : Nat) : (s.ofRun run).cells = s.cells := by
  obtain ⟨ms, h⟩ := s.ofRun_eq run
  rw [h]
@[simp] theorem State.ofRun_dies (s : State) (run : Nat) : (s.ofRun run).dies = s.dies := by
  obtain ⟨ms, h⟩ := s.ofRun_eq run
  rw [h]
@[simp] theorem State.ofRun_launches (s : State) (run : Nat) : (s.ofRun run).launches = s.launches := by
  obtain ⟨ms, h⟩ := s.ofRun_eq run
  rw [h]
@[simp] theorem State.ofRun_homeTs (s : State) (run : Nat) : (s.ofRun run).homeTs = s.homeTs := by
  obtain ⟨ms, h⟩ := s.ofRun_eq run
  rw [h]

/-- An answer that is sent and marked with its run is the last of the messages under way. -/
theorem State.msgs_answer (s : State) (die agent owner run : Nat) (kind : MsgKind) :
    ∃ a, ((s.sendBack die agent owner kind).ofRun run).msgs = s.msgs ++ [a] ∧ a.kind = kind ∧ a.agent = agent ∧ a.run = run := by
  obtain ⟨a, hmsgs, hkind, hagent, -⟩ := s.msgs_send die 100 (replyDie die agent) agent owner kind
  refine ⟨{ a with run := run }, ?_, hkind, hagent, rfl⟩
  have hsent : (s.sendBack die agent owner kind).msgs = s.msgs ++ [a] := hmsgs
  simp [State.ofRun, hsent]

/-- A command that names a reply cell is answered there. -/
theorem State.reply_of_named (s : State) (m : Msg) {c : SyncCmd} (h : c.reply ≠ .none) (ok : Bool) (data : Word) (time : BitVec 32)
    (line : Option (BitVec 512)) : s.reply m c ok data time line =
      (s.sendBack m.die m.agent m.owner (.rep c.reply c.code c.fmt ok data time line)).ofRun m.run := by
  simp [State.reply, h]

/-- An atomic is answered wherever its reply goes, for its timestamp returns (R218). -/
theorem State.reply_of_atomic (s : State) (m : Msg) {c : SyncCmd} (h : atomicCode c.code.toNat = true) (data : Word) (time : BitVec 32)
    (line : Option (BitVec 512)) : s.reply m c true data time line =
      (s.sendBack m.die m.agent m.owner (.rep c.reply c.code c.fmt true data time line)).ofRun m.run := by
  simp [State.reply, h]

/-! Control registers that a home leaves alone (R219, R237) -/

theorem State.reg_evictLine_of_ne (s : State) (line : Nat) {d k : Nat} (h : k ≠ 0x300) : (s.evictLine line).reg d k = s.reg d k := by
  unfold State.evictLine
  split
  · rfl
  · exact State.reg_setReg_of_ne _ _ h

theorem State.reg_foldl_evictLine_of_ne {α : Type} (line : α → Nat) (l : List α) (s : State) {d k : Nat} (h : k ≠ 0x300) :
    (l.foldl (fun s x => s.evictLine (line x)) s).reg d k = s.reg d k := by
  induction l generalizing s with
  | nil => rfl
  | cons x r ih => exact (ih _).trans (s.reg_evictLine_of_ne _ h)

/-- A line that is filled changes no control register but MEMTS. -/
theorem State.reg_fillLine_of_ne (s : State) (line : Nat) {d k : Nat} (h : k ≠ 0x300) : (s.fillLine line).reg d k = s.reg d k := by
  unfold State.fillLine
  split
  · rfl
  · exact (State.reg_foldl_evictLine_of_ne (fun e : Nat × BitVec 32 × BitVec 32 => e.1) _ _ h).trans
      (State.reg_foldl_evictLine_of_ne (fun v => v) _ _ h)

theorem Die.regs_spillOne {d e : Die} {key : Nat} (h : d.spillOne key = some e) : e.regs = d.regs := by
  unfold Die.spillOne at h
  dsimp only at h
  split at h
  · cases h
  · obtain ⟨-, hspilled⟩ := Option.ite_none_left_eq_some.1 h
    rw [← Option.some.inj hspilled]
    split
    · split <;> rfl
    · rfl

theorem Die.regs_fit {key n : Nat} {d e : Die} (h : Die.fit key n d = some e) : e.regs = d.regs := by
  induction n generalizing d with
  | zero => cases h
  | succ n ih =>
    rw [Die.fit] at h
    split at h
    · rw [Option.some.inj h]
    · obtain ⟨x, hspill, hfit⟩ := Option.bind_eq_some_iff.1 h
      rw [ih hfit, Die.regs_spillOne hspill]

/-- Making room for a content leaves the control registers alone. -/
theorem Die.regs_take {d e : Die} {key : Nat} (h : d.take key = some e) : e.regs = d.regs :=
  Die.regs_fit (d := d.use key) h

/-! The new word (R239 to R241) -/

/-- The new word that an atomic of a code gives on `n` bytes; H2ADD.SR draws with its address and the die's count. -/
def atomicWord (op n flat count old a b : Nat) : Nat :=
  if op = 0x0C then atomicFadd old a else if op = 0x0D then atomicH2add flat count old a else atomicInt op (8 * n) old a b

/-- A difference modulo 2^w, where the second operand is below 2^w. -/
theorem wrapNat_sub {w a : Nat} (o : Nat) (h : a < 2 ^ w) : wrapNat ((o : Int) - a) w = (o + 2 ^ w - a) % 2 ^ w := by
  have hcast : ((o + 2 ^ w - a : Nat) : Int) = (o : Int) - a + 2 ^ w := by
    rw [Nat.cast_sub (by omega)]
    push_cast
    ring
  rw [wrapNat, ← Int.add_emod_right, ← hcast]
  norm_cast

/-- A floating atomic has a floating format (R47). -/
theorem fmt_ne_zero_of_float {op : Nat} {fmt : BitVec 3} (hop : 0x0C ≤ op) (h : atomicFmtOk op fmt = true) : fmt ≠ 0 := by
  rintro rfl
  rw [atomicFmtOk, if_neg (by omega)] at h
  split at h <;> exact absurd h (by decide)

/-! What an atomic leaves at its home (R218, R238) -/

/-- The bytes of an atomic's word (R47). -/
def SyncCmd.wordBytes (c : SyncCmd) : Nat := if c.fmt = 0 then 8 else 4

/-- An H2ADD.SR is counted by its die (R241). -/
def State.countH2add (s : State) (die op : Nat) : State :=
  if op = 0x0D then s.setReg die 0x520 (BitVec.ofNat 64 (((s.reg die 0x520).toNat + 1) % 2 ^ 32)) else s

theorem State.HomeChanges.countH2add (s : State) (die op : Nat) : s.HomeChanges (s.countH2add die op) := by
  unfold State.countH2add
  split
  · exact ⟨_, _, _, _, rfl⟩
  · exact .refl s

@[simp] theorem State.countH2add_mem (s : State) (die op : Nat) : (s.countH2add die op).mem = s.mem := by
  unfold State.countH2add
  split <;> simp

/-- The word that an atomic command gives at its home. -/
def State.atomicNew (s : State) (op : Nat) (c : SyncCmd) : Nat :=
  atomicWord op c.wordBytes c.addr (s.reg (homeDie c.addr) 0x520).toNat (memRead s.mem c.addr c.wordBytes)
    (c.a.toNat % 2 ^ (8 * c.wordBytes)) (c.b.toNat % 2 ^ (8 * c.wordBytes))

/-- The timestamp that an atomic command takes at its home (R218). -/
def State.atomicTs (s : State) (c : SyncCmd) : BitVec 32 :=
  BitVec.ofNat 32 ((s.fillLine (c.addr / 64 * 64)).writeTs (c.addr / 64 * 64) c.aux)

/-- The state in which an atomic has performed, where its die with the line in the Concordance is `d`. -/
def State.atomicDone (s : State) (op : Nat) (c : SyncCmd) (d : Die) : State :=
  (((s.fillLine (c.addr / 64 * 64)).modDie (homeDie c.addr) fun _ => d).countH2add (homeDie c.addr) op).homeWrite c.addr c.wordBytes
    (s.atomicNew op c) (s.atomicTs c)

theorem State.HomeChanges.atomicDone (s : State) (op : Nat) (c : SyncCmd) (d : Die) : s.HomeChanges (s.atomicDone op c d) :=
  .trans (.fillLine s _) (.trans ⟨_, _, _, _, rfl⟩ (.trans (.countH2add _ _ _) (.homeWrite _ _ _ _ _)))

theorem State.atomicDone_mem (s : State) (op : Nat) (c : SyncCmd) (d : Die) :
    (s.atomicDone op c d).mem = memWrite s.mem c.addr c.wordBytes (s.atomicNew op c) := by
  have hmem : (((s.fillLine (c.addr / 64 * 64)).modDie (homeDie c.addr) fun _ => d).countH2add (homeDie c.addr) op).mem = s.mem := by simp
  rw [← hmem]
  rfl

theorem State.lineTs_atomicDone (s : State) (op : Nat) (c : SyncCmd) (d : Die) :
    (s.atomicDone op c d).lineTs (c.addr / 64 * 64) = (s.atomicTs c, s.atomicTs c) := State.lineTs_setLineTs_same _ _ _ _

/-- What an atomic answers: a bare acknowledgement for its RED form, and the old word for the other (R46, R218). -/
def atomicAnswer (red : Bool) (c : SyncCmd) (old : Nat) (ts : BitVec 32) : MsgKind :=
  if red then .redAck ts else .rep c.reply c.code c.fmt true (BitVec.ofNat 64 old) ts none

/-- The state in which an atomic has performed, its message is gone and its answer is on its way. -/
def State.atomicAnswered (s : State) (k op : Nat) (red : Bool) (m : Msg) (c : SyncCmd) (d : Die) : State :=
  (((s.atomicDone op c d).dropMsg k).sendBack m.die m.agent m.owner
    (atomicAnswer red c (memRead s.mem c.addr c.wordBytes) (s.atomicTs c))).ofRun m.run

section
variable (s : State) (k op : Nat) (red : Bool) (m : Msg) (c : SyncCmd) (d : Die)

theorem State.atomicAnswered_mem : (s.atomicAnswered k op red m c d).mem = memWrite s.mem c.addr c.wordBytes (s.atomicNew op c) := by
  simp [State.atomicAnswered, State.atomicDone_mem]

theorem State.lineTs_atomicAnswered : (s.atomicAnswered k op red m c d).lineTs (c.addr / 64 * 64) = (s.atomicTs c, s.atomicTs c) := by
  rw [← s.lineTs_atomicDone op c d, State.lineTs, State.atomicAnswered, State.ofRun_homeTs, State.sendBack_homeTs]
  rfl

/-- An atomic leaves the tiles, the cells and the launches alone, and its answer is the last message. -/
theorem State.atomicAnswered_frame : let t := s.atomicAnswered k op red m c d
    t.tiles = s.tiles ∧ t.cells = s.cells ∧ t.launches = s.launches ∧ ∃ a, t.msgs = removeAt s.msgs k ++ [a] ∧ a.agent = m.agent ∧ a.run = m.run ∧
      a.kind = atomicAnswer red c (memRead s.mem c.addr c.wordBytes) (s.atomicTs c) := by
  obtain ⟨a, hmsgs, hkind, hagent, hrun⟩ := ((s.atomicDone op c d).dropMsg k).msgs_answer m.die m.agent m.owner m.run
    (atomicAnswer red c (memRead s.mem c.addr c.wordBytes) (s.atomicTs c))
  obtain ⟨ts, ds, me, ti, hdone⟩ := State.HomeChanges.atomicDone s op c d
  rw [hdone] at hmsgs
  simp only [State.atomicAnswered, hdone]
  exact ⟨by simp, by simp, by simp, a, hmsgs, hagent, hrun, hkind⟩

end

end Sys2Proof.Machine

namespace Sys2Proof.Claims

open Sys2Proof.Machine

/-- The code of an atomic or of its RED form (R47). -/
def atomicCodeOf (op : Nat) (red : Bool) : Nat := op + if red then 0x80 else 0

theorem atomicCodeOf_mod {op : Nat} (h : op < 0x20) (red : Bool) : atomicCodeOf op red % 0x80 = op := by
  unfold atomicCodeOf
  split <;> omega

section
variable {s : State} {k op : Nat} {red : Bool} {m : Msg} {c : SyncCmd} {d : Die} (hop : op < 0x20)
  (hdue : AtomicDue s k (atomicCodeOf op red) m c d)
include hop hdue

/-- The operands of an atomic that is due fit its word, so that the Concordance does not refuse them. -/
theorem operands_fit :
    (!atomicFmtOk op c.fmt || (c.wordBytes == 4 && (decide (c.a.toNat ≥ 2 ^ 32) || decide (c.b.toNat ≥ 2 ^ 32)))) = false := by
  obtain ⟨-, -, -, -, -, -, hfmt, hsmall, -⟩ := hdue
  rw [atomicCodeOf_mod hop] at hfmt
  rw [hfmt, SyncCmd.wordBytes]
  split
  · rfl
  · next h0 =>
    obtain ⟨ha, hb⟩ := hsmall h0
    rw [decide_eq_false (Nat.not_le.2 ha), decide_eq_false (Nat.not_le.2 hb)]
    rfl

/-- A floating atomic's operand is its whole word. -/
theorem operand_of_float (hfloat : 0x0C ≤ op) : c.a.toNat % 2 ^ (8 * c.wordBytes) = c.a.toNat := by
  obtain ⟨-, -, -, -, -, -, hfmt, hsmall, -⟩ := hdue
  rw [atomicCodeOf_mod hop] at hfmt
  have h0 := fmt_ne_zero_of_float hfloat hfmt
  rw [SyncCmd.wordBytes, if_neg h0]
  exact Nat.mod_eq_of_lt (hsmall h0).1

/-- The model's new word of an atomic that is due. -/
theorem newWord_eq : (if op = 0x0C then atomicFadd (memRead s.mem c.addr c.wordBytes) c.a.toNat
      else if op = 0x0D then atomicH2add c.addr (s.reg (homeDie c.addr) 0x520).toNat (memRead s.mem c.addr c.wordBytes) c.a.toNat
      else atomicInt op (8 * c.wordBytes) (memRead s.mem c.addr c.wordBytes) (c.a.toNat % 2 ^ (8 * c.wordBytes))
        (c.b.toNat % 2 ^ (8 * c.wordBytes))) = s.atomicNew op c := by
  have hwhole := operand_of_float hop hdue
  rw [State.atomicNew, atomicWord]
  split
  · rw [hwhole (by omega)]
  · split
    · rw [hwhole (by omega)]
    · rfl

/-- An atomic that is due performs, and its answer leaves. -/
theorem atomic_of_due : s.atomic k op red = .next (s.atomicAnswered k op red m c d) := by
  have hfits := operands_fit hop hdue
  have hnew := newWord_eq hop hdue
  obtain ⟨hmsg, hkind, hdie, hcode, hturn, hroom, -, -, hout, hts, htake, -⟩ := hdue
  have hcount : ((s.fillLine (c.addr / 64 * 64)).modDie (homeDie c.addr) fun _ => d).reg (homeDie c.addr) 0x520 =
      s.reg (homeDie c.addr) 0x520 := by
    rw [← s.reg_fillLine_of_ne (c.addr / 64 * 64) (by decide : (0x520 : Nat) ≠ 0x300), State.reg, State.getDie_modDie, if_pos rfl,
      Die.regs_take htake]
    rfl
  have hmem : ((s.fillLine (c.addr / 64 * 64)).modDie (homeDie c.addr) fun _ => d).mem = s.mem := by simp
  have hcode' : ¬ c.code.toNat ≠ op + (if red then 0x80 else 0) := not_not.2 hcode
  simp only [State.atomic, hmsg, hkind, MsgKind.cmd?]
  rw [if_neg hcode', hturn]
  dsimp only
  rw [if_neg (by rw [hroom]; decide), if_neg (by rw [← SyncCmd.wordBytes, hfits]; decide), if_neg (by rw [hout]; decide), if_neg (Nat.not_le.2 hts),
    htake]
  dsimp only
  rw [← SyncCmd.wordBytes, hcount, hmem, hnew, ← hcount]
  cases red with
  | true =>
    rw [State.atomicAnswered, hdie]
    rfl
  | false =>
    rw [State.reply_of_atomic _ _ (by rw [hcode]; simpa [atomicCodeOf, atomicCode] using Or.inl hop)]
    rfl

end

/-! The claims' new words are the model's (R239 to R241) -/

/-- `f` is the new word that the model gives an atomic of a code, where the word and the operand fit their width. -/
def WordOf (op : Nat) (f : Nat → Nat → Nat → Nat → Nat → Nat → Nat) : Prop :=
  ∀ n flat count old a b, old < 2 ^ (8 * n) → a < 2 ^ (8 * n) → f n flat count old a b = atomicWord op n flat count old a b

theorem wordOf_of_eq {op : Nat} {f : Nat → Nat → Nat → Nat → Nat → Nat → Nat} (h : f = atomicWord op) : WordOf op f :=
  fun _ _ _ _ _ _ _ _ => by rw [h]

theorem wordOf_sub : WordOf 0x02 fun n _ _ o a _ => (o + 2 ^ (8 * n) - a) % 2 ^ (8 * n) :=
  fun _ _ _ old _ _ _ ha => (wrapNat_sub old ha).symm

theorem wordOf_min : WordOf 0x06 fun n _ _ o a _ => if sgnB n o ≤ sgnB n a then o else a := by
  intro n flat count old a b hold ha
  simp only [sgnB, ← sextNat_eq_sgn hold, ← sextNat_eq_sgn ha]
  rfl

theorem wordOf_max : WordOf 0x07 fun n _ _ o a _ => if sgnB n o ≤ sgnB n a then a else o := by
  intro n flat count old a b hold ha
  simp only [sgnB, ← sextNat_eq_sgn hold, ← sextNat_eq_sgn ha]
  rfl

/-- An instruction that performs the atomic of a code does what the claim says of it. -/
theorem atomic_of_exec {mk : Nat → Nat → Instr} (op : Nat) (red : Bool) {f : Nat → Nat → Nat → Nat → Nat → Nat → Nat} (hword : WordOf op f)
    (hop : op < 0x20 := by decide)
    (hexec : ∀ die k s, exec (mk die k) s =
      if (s.msgs[k]?.map Msg.die) = some die then s.atomic k op red else s.stutter := by intros; rfl) :
    Atomic mk (atomicCodeOf op red) f := by
  intro s k m c d hdue
  have hrun := atomic_of_due hop hdue
  obtain ⟨hmsg, -, hdie, -, -, -, -, -, -, -, -, hwf⟩ := hdue
  have hnew : f c.wordBytes c.addr (s.reg (homeDie c.addr) 0x520).toNat (memRead s.mem c.addr c.wordBytes)
      (c.a.toNat % 2 ^ (8 * c.wordBytes)) (c.b.toNat % 2 ^ (8 * c.wordBytes)) = s.atomicNew op c :=
    hword _ _ _ _ _ _ (memRead_lt_two_pow _ _ _) (Nat.mod_lt _ (by positivity))
  have hmem := s.atomicAnswered_mem k op red m c d
  rw [← hnew] at hmem
  obtain ⟨htiles, hcells, hlaunches, a, hmsgs, hagent, hrunof, hkind⟩ := s.atomicAnswered_frame k op red m c d
  have hred : 0x80 ≤ atomicCodeOf op red ↔ red = true := by
    unfold atomicCodeOf
    split
    · simp [*]
    · simp [*]; omega
  refine ⟨s.atomicAnswered k op red m c d, a, ?_, fun b hb => ?_, fun i hi => ?_, s.lineTs_atomicAnswered k op red m c d,
    htiles, hcells, hlaunches, hmsgs, hagent, hrunof, ?_⟩
  · rw [Runs, hexec, hmsg, ← hrun]
    exact if_pos (congrArg some hdie)
  · rw [hmem]
    exact memByte_memWrite_of_out _ _ _ _ hb
  · rw [hmem]
    exact memByte_memWrite hwf _ _ _ _ hi
  · rw [hkind]
    exact (if_congr hred rfl rfl).symm

/-- Settles O17: each form performs the atomic of its code, whose new word is the model's. -/
theorem concordanceAtomics : Obligations.ConcordanceAtomics := by
  unfold Obligations.ConcordanceAtomics
  exact ⟨atomic_of_exec 0x01 false (wordOf_of_eq rfl), atomic_of_exec 0x01 true (wordOf_of_eq rfl),
    atomic_of_exec 0x02 false wordOf_sub, atomic_of_exec 0x02 true wordOf_sub,
    atomic_of_exec 0x03 false (wordOf_of_eq rfl), atomic_of_exec 0x03 true (wordOf_of_eq rfl),
    atomic_of_exec 0x04 false (wordOf_of_eq rfl), atomic_of_exec 0x04 true (wordOf_of_eq rfl),
    atomic_of_exec 0x05 false (wordOf_of_eq rfl), atomic_of_exec 0x05 true (wordOf_of_eq rfl),
    atomic_of_exec 0x06 false wordOf_min, atomic_of_exec 0x06 true wordOf_min,
    atomic_of_exec 0x07 false wordOf_max, atomic_of_exec 0x07 true wordOf_max,
    atomic_of_exec 0x08 false (wordOf_of_eq rfl), atomic_of_exec 0x08 true (wordOf_of_eq rfl),
    atomic_of_exec 0x09 false (wordOf_of_eq rfl), atomic_of_exec 0x09 true (wordOf_of_eq rfl),
    atomic_of_exec 0x0A false (wordOf_of_eq rfl), atomic_of_exec 0x0B false (wordOf_of_eq rfl),
    atomic_of_exec 0x0C false (wordOf_of_eq rfl), atomic_of_exec 0x0C true (wordOf_of_eq rfl),
    atomic_of_exec 0x0D false (wordOf_of_eq rfl), atomic_of_exec 0x0D true (wordOf_of_eq rfl)⟩

end Sys2Proof.Claims

/-! Phasers (R243 to R250): each command on its record, and what completing a phase leaves. -/

namespace Sys2Proof.Machine

open Sys2Proof.Claims

/-! Members and bindings (R244, R245) -/

/-- An agent's member entry names the agent. -/
theorem Phaser.agent_of_member {p : Phaser} {agent : Nat} {e : PMember} (h : p.member agent = some e) : e.agent = agent := by
  simpa using List.find?_some h

/-- An entry that an agent without one gets is the agent's. -/
theorem Phaser.member_of_added {p : Phaser} {e : PMember} (hnone : p.member e.agent = none) :
    (p.members ++ [e]).find? (fun m => m.agent == e.agent) = some e := by
  rw [Phaser.member] at hnone
  simp [List.find?_append, hnone]

section
variable {p q : Phaser} {agent : Nat} {e : PMember}

/-- A member bound to signal and to wait has a mode that waits. -/
theorem Phaser.waits_of_bind (hbind : p.bind agent true true = some q) (he : q.member agent = some e) : modeWaits e.mode = true := by
  unfold Phaser.bind at hbind
  split at hbind
  · next m hm =>
    obtain ⟨hmode, hq⟩ := Option.ite_none_right_eq_some.1 hbind
    obtain rfl := Option.some.inj hq
    obtain rfl := Option.some.inj (hm.symm.trans he)
    simpa using (Bool.and_eq_true_iff.1 hmode).2
  · next hnone =>
    obtain ⟨-, hq⟩ := Option.ite_none_right_eq_some.1 hbind
    obtain rfl := Option.some.inj hq
    have hadded := Phaser.member_of_added (e := ⟨agent, 3, p.phase, none, none⟩) hnone
    obtain rfl := Option.some.inj (hadded.symm.trans he)
    rfl

/-- A member that can be bound to signal, and not to signal and to wait, has a mode that does not wait. -/
theorem Phaser.not_waits_of_bind (hboth : p.bind agent true true = none) (hbind : p.bind agent true false = some q)
    (he : q.member agent = some e) : modeWaits e.mode = false := by
  unfold Phaser.bind at hboth hbind
  split at hbind
  · next m hm =>
    obtain ⟨hsig, hq⟩ := Option.ite_none_right_eq_some.1 hbind
    obtain rfl := Option.some.inj hq
    obtain rfl := Option.some.inj (hm.symm.trans he)
    simpa [hm, (by simpa using hsig : modeSignals m.mode = true)] using hboth
  · next hnone =>
    have hfree : ¬ p.freeSw > 0 := by simpa [hnone] using hboth
    simp only [Bool.not_false, Bool.not_true, Bool.and_true, Bool.true_and, Bool.false_and, Bool.false_eq_true, if_false, hfree,
      decide_eq_true_eq] at hbind
    obtain ⟨-, hq⟩ := Option.ite_none_right_eq_some.1 hbind
    obtain rfl := Option.some.inj hq
    have hadded := Phaser.member_of_added (e := ⟨agent, 1, p.phase, none, none⟩) hnone
    obtain rfl := Option.some.inj (hadded.symm.trans he)
    rfl

end

/-! What a command reads before it acts (R236, R237, R250) -/

section
variable {s : State} {die k code : Nat} {m : Msg} {c : SyncCmd}

theorem State.phCmd_of_due {p : Phaser} (h : PhDue s die k code m c p) (go : Msg → SyncCmd → Nat → Phaser → Out) :
    s.phCmd k code go = go m c (syncPlace c.addr).2 p := by
  obtain ⟨⟨hmsg, hkind, rfl, hcode, harrived, hfirst, hroom, hfmt⟩, hoff, hp, hspilled⟩ := h
  have hcmd : m.kind.cmd? = some c := by rw [hkind, MsgKind.cmd?]
  simp [State.phCmd, hmsg, hcmd, hcode, harrived, hfirst, hroom, hfmt, hp, hspilled, hoff]

theorem State.phCmd_of_missing (h : CmdDue s die k code m c) (hoff : (syncPlace c.addr).2 < 0x80000000)
    (hp : smFind (s.getDie die).phasers (syncPlace c.addr).2 = none) (go : Msg → SyncCmd → Nat → Phaser → Out) :
    s.phCmd k code go = .next (s.cmdFault k m c 0x89) := by
  obtain ⟨hmsg, hkind, rfl, hcode, harrived, hfirst, hroom, hfmt⟩ := h
  have hcmd : m.kind.cmd? = some c := by rw [hkind, MsgKind.cmd?]
  simp [State.phCmd, hmsg, hcmd, hcode, harrived, hfirst, hroom, hfmt, hp, hoff]

/-! How a command ends (R237, R247, R248) -/

theorem phAnswers_of_done {i : Instr} {q : Phaser} (hdie : m.die = die) (h : exec i s = s.phDone k m c (syncPlace c.addr).2 q) :
    PhAnswers i s die k m c q := by
  intro d htake
  subst hdie
  rw [Runs, h, State.phDone]
  simp only [htake]

theorem phJoins_of_done {i : Instr} {q : Phaser} (hdie : m.die = die)
    (h : exec i s = s.phWaitDone k m c (syncPlace c.addr).2 (q.join m c)) : PhJoins i s die k m c q := by
  intro d htake
  subst hdie
  rw [Runs, h, State.phWaitDone]
  simp only [htake]

/-! Signals (R247) -/

/-- The phaser with the signal of its next phase counted for an agent. -/
def Phaser.signalled (q : Phaser) (agent : Nat) (whw : BitVec 32) : Phaser :=
  Phaser.modMember { q with arr0 := q.arr0 + 1, whw0 := tsMax q.whw0 whw } agent fun x => { x with next := x.next + 1 }

/-- A member that has signalled no phase beyond the one in progress signals it. -/
theorem Phaser.signal_of_next {q : Phaser} {agent : Nat} {e : PMember} (whw : BitVec 32) (he : q.member agent = some e) (hnext : e.next = q.phase) :
    q.signal e whw = .counted (q.signalled agent whw) := by
  rw [Phaser.signal, if_pos hnext, Phaser.agent_of_member he]
  rfl

end

/-! Completing a phase (R247, R249) -/

/-- A member after a phase that completes: where it signals and has not signalled that phase, it signals the one after it next (R247). -/
def PMember.after (m : PMember) (done : BitVec 32) : PMember := if modeSignals m.mode && m.next == done then { m with next := m.next + 1 } else m

theorem PMember.dropAt_after (m : PMember) (done : BitVec 32) : (m.after done).dropAt = m.dropAt := by
  unfold PMember.after
  split <;> rfl

theorem PMember.held_after (m : PMember) (done : BitVec 32) : (m.after done).held = m.held := by
  unfold PMember.after
  split <;> rfl

/-- Where no drop takes effect with the phase and no member holds a signal, a completion changes counts, codes and clocks, and where its members
signal next. -/
theorem Phaser.complete_of_plain {p : Phaser} (h : ∀ m ∈ p.members, m.dropAt ≠ some p.phase ∧ m.held = none) (time : BitVec 64) (err : BitVec 8) :
    p.complete time err = { p with
      lerr := err, ferr := if p.ferr = 0 then err else p.ferr, whw := tsMax p.whw p.whw0, ctime := time, phase := p.phase + 1
      nsig := p.nsig1, nwait := p.nwait1, nsw := p.nsw1, arr0 := p.arr1, whw0 := p.whw1, arr1 := 0, whw1 := 0
      members := p.members.map fun m => m.after p.phase } := by
  have hdrop : (p.members.map fun m => m.after p.phase).filter (fun m => m.dropAt == some p.phase) = [] := by
    simpa [List.filter_eq_nil_iff, PMember.dropAt_after] using fun m hm => (h m hm).1
  have hheld : (p.members.map fun m => m.after p.phase).filter (fun m => m.held.isSome) = [] := by
    simpa [List.filter_eq_nil_iff, PMember.held_after] using fun m hm => (h m hm).2
  unfold PMember.after at hdrop hheld ⊢
  simp only [Phaser.complete, hdrop, List.foldl_nil, hheld]

end Sys2Proof.Machine

namespace Sys2Proof.Claims

open Sys2Proof.Machine

/-! What the events run -/

theorem exec_cmdPhReg (die k : Nat) (s : State) : exec (.cmdPhReg die k) s = execCmdPhReg die k s := rfl
theorem exec_cmdPhDrop (die k : Nat) (s : State) : exec (.cmdPhDrop die k) s = execCmdPhDrop die k s := rfl
theorem exec_cmdPhSig (die k : Nat) (s : State) : exec (.cmdPhSig die k) s = execCmdPhSig die k s := rfl
theorem exec_cmdPhWait (die k : Nat) (s : State) : exec (.cmdPhWait die k) s = execCmdPhWait die k s := rfl
theorem exec_cmdPhSw (die k : Nat) (s : State) : exec (.cmdPhSw die k) s = execCmdPhSw die k s := rfl
theorem exec_cmdPhErr (die k : Nat) (s : State) : exec (.cmdPhErr die k) s = execCmdPhErr die k s := rfl
theorem exec_cmdPhRead (die k : Nat) (s : State) : exec (.cmdPhRead die k) s = execCmdPhRead die k s := rfl

section
variable {s : State} {die k : Nat} {m : Msg} {c : SyncCmd} {p q : Phaser} {e : PMember}

theorem die_of_phDue {code : Nat} (h : PhDue s die k code m c p) : m.die = die := by
  obtain ⟨⟨-, -, hdie, -⟩, -⟩ := h
  exact hdie

/-- PH.REG with a phase in progress: a SIG member that signals from the next phase on (R246). -/
theorem exec_cmdPhReg_of_sig (h : PhDue s die k 0x20 m c p) (hnone : p.member m.agent = none) (hmode : c.a.toNat = 1)
    (hbusy : p.nsig.toNat + p.nsw.toNat ≠ 0) : exec (.cmdPhReg die k) s = s.phDone k m c (syncPlace c.addr).2
      { p with members := p.members ++ [⟨m.agent, 1, p.phase + 1, none, none⟩], nsig1 := p.nsig1 + 1 } := by
  have hcounts : ¬ (p.nsig.toNat = 0 ∧ p.nsw.toNat = 0) := by omega
  rw [exec_cmdPhReg, execCmdPhReg, State.phCmd_of_due h]
  simp [die_of_phDue h, hnone, hmode, hcounts]

theorem exec_cmdPhReg_of_member (h : PhDue s die k 0x20 m c p) (hsome : (p.member m.agent).isSome = true) :
    exec (.cmdPhReg die k) s = .next (s.cmdFault k m c 0x86) := by
  rw [exec_cmdPhReg, execCmdPhReg, State.phCmd_of_due h]
  simp [die_of_phDue h, hsome]

/-- PH.DROP of a WAIT member takes effect with the phase in progress (R246). -/
theorem exec_cmdPhDrop_of_wait (h : PhDue s die k 0x21 m c p) (he : p.member m.agent = some e) (hdrop : e.dropAt = none) (hmode : e.mode = 2) :
    exec (.cmdPhDrop die k) s = s.phDone k m c (syncPlace c.addr).2 (p.modMember m.agent fun x => { x with dropAt := some p.phase }) := by
  rw [exec_cmdPhDrop, execCmdPhDrop, State.phCmd_of_due h]
  simp [die_of_phDue h, he, hdrop, hmode, modeSignals]

theorem exec_cmdPhDrop_of_none (h : PhDue s die k 0x21 m c p) (hnone : p.member m.agent = none) :
    exec (.cmdPhDrop die k) s = .next (s.cmdFault k m c 0x86) := by
  rw [exec_cmdPhDrop, execCmdPhDrop, State.phCmd_of_due h]
  simp [die_of_phDue h, hnone]

theorem exec_cmdPhSig_of_bound (h : PhDue s die k 0x22 m c p) (hbind : p.bind m.agent true false = some q) (he : q.member m.agent = some e)
    (hnext : e.next = q.phase) :
    exec (.cmdPhSig die k) s = s.phDone k m c (syncPlace c.addr).2 (q.signalled m.agent (c.a.extractLsb' 32 32)) := by
  rw [exec_cmdPhSig, execCmdPhSig, State.phCmd_of_due h]
  simp [die_of_phDue h, State.signalCmd, hbind, he, Phaser.signal_of_next _ he hnext]

theorem exec_cmdPhSig_of_unbound (h : PhDue s die k 0x22 m c p) (hbind : p.bind m.agent true false = none) :
    exec (.cmdPhSig die k) s = .next (s.cmdFault k m c 0x86) := by
  rw [exec_cmdPhSig, execCmdPhSig, State.phCmd_of_due h]
  simp [die_of_phDue h, State.signalCmd, hbind]

theorem exec_cmdPhSig_of_missing (h : CmdDue s die k 0x22 m c) (hoff : (syncPlace c.addr).2 < 0x80000000)
    (hp : smFind (s.getDie die).phasers (syncPlace c.addr).2 = none) : exec (.cmdPhSig die k) s = .next (s.cmdFault k m c 0x89) := by
  rw [exec_cmdPhSig, execCmdPhSig, State.phCmd_of_missing h hoff hp]

theorem exec_cmdPhWait_of_bound (h : PhDue s die k 0x23 m c p) (hbind : p.bind m.agent false true = some q) :
    exec (.cmdPhWait die k) s = s.phWaitDone k m c (syncPlace c.addr).2 (q.join m c) := by
  rw [exec_cmdPhWait, execCmdPhWait, State.phCmd_of_due h]
  simp [die_of_phDue h, hbind]

theorem exec_cmdPhWait_of_unbound (h : PhDue s die k 0x23 m c p) (hbind : p.bind m.agent false true = none) :
    exec (.cmdPhWait die k) s = .next (s.cmdFault k m c 0x86) := by
  rw [exec_cmdPhWait, execCmdPhWait, State.phCmd_of_due h]
  simp [die_of_phDue h, hbind]

/-- PH.SW of a member that does both signals and joins the wait list (R79). -/
theorem exec_cmdPhSw_of_bound (h : PhDue s die k 0x24 m c p) (hbind : p.bind m.agent true true = some q) (he : q.member m.agent = some e)
    (hnext : e.next = q.phase) : exec (.cmdPhSw die k) s =
      s.phWaitDone k m c (syncPlace c.addr).2 ((q.signalled m.agent (c.a.extractLsb' 32 32)).join m c) := by
  rw [exec_cmdPhSw, execCmdPhSw, State.phCmd_of_due h]
  simp [die_of_phDue h, State.signalCmd, hbind, he, Phaser.signal_of_next _ he hnext, Phaser.waits_of_bind hbind he]

/-- PH.SW of a member that only signals does so, and its wait faults (R248). -/
theorem exec_cmdPhSw_of_sig (h : PhDue s die k 0x24 m c p) (hboth : p.bind m.agent true true = none) (hbind : p.bind m.agent true false = some q)
    (he : q.member m.agent = some e) (hnext : e.next = q.phase) : exec (.cmdPhSw die k) s =
      .next ((s.putPhaser die (syncPlace c.addr).2 (q.signalled m.agent (c.a.extractLsb' 32 32))).cmdFault k m c 0x86) := by
  rw [exec_cmdPhSw, execCmdPhSw, State.phCmd_of_due h]
  simp [die_of_phDue h, State.signalCmd, hboth, hbind, he, Phaser.signal_of_next _ he hnext, Phaser.not_waits_of_bind hboth hbind he]

theorem exec_cmdPhErr_of_due (h : PhDue s die k 0x25 m c p) : exec (.cmdPhErr die k) s = .next
    ((((s.dropMsg k).modDie die fun d =>
      ({ d with phasers := smPut d.phasers (syncPlace c.addr).2 p } : Die).use (phKey (syncPlace c.addr).2)).phaserError die (syncPlace c.addr).2
      (c.a.setWidth 8)).reply m c true 0 0 none) := by
  rw [exec_cmdPhErr, execCmdPhErr, State.phCmd_of_due h]
  simp [die_of_phDue h]

theorem exec_cmdPhRead_of_due (h : PhDue s die k 0x26 m c p) : exec (.cmdPhRead die k) s =
    .next (((s.dropMsg k).modDie die fun d => d.use (phKey (syncPlace c.addr).2)).reply m c true 0 0 (some p.record)) := by
  rw [exec_cmdPhRead, execCmdPhRead, State.phCmd_of_due h]
  simp [die_of_phDue h]

end

/-- A named reply to a command is its last message, and it changes nothing else that the claim speaks of. -/
theorem reply_sends {s : State} {m : Msg} {c : SyncCmd} (h : c.reply ≠ .none) (ok : Bool) (data : Word) (time : BitVec 32)
    (line : Option (BitVec 512)) : let t := s.reply m c ok data time line
    ∃ a, t.msgs = s.msgs ++ [a] ∧ a.kind = .rep c.reply c.code c.fmt ok data time line ∧ t.mem = s.mem ∧
      t.launches = s.launches ∧ t.dies = s.dies := by
  rw [State.reply_of_named s m h]
  obtain ⟨a, hmsgs, hkind, -⟩ := s.msgs_answer m.die m.agent m.owner m.run (.rep c.reply c.code c.fmt ok data time line)
  exact ⟨a, hmsgs, hkind, by simp, by simp, by simp⟩

/-- R245 to R250: each command by the equation of its event. -/
theorem phaserCommands : PhaserCommands := by
  refine ⟨fun s die k m c p h hnone hmode hbusy => phAnswers_of_done (die_of_phDue h) (exec_cmdPhReg_of_sig h hnone hmode hbusy),
    fun s die k m c p h hsome => exec_cmdPhReg_of_member h hsome,
    fun s die k m c p e h he hdrop hmode => phAnswers_of_done (die_of_phDue h) (exec_cmdPhDrop_of_wait h he hdrop hmode),
    fun s die k m c p h hnone => exec_cmdPhDrop_of_none h hnone,
    fun s die k m c p q e h hbind he hnext => phAnswers_of_done (die_of_phDue h) (exec_cmdPhSig_of_bound h hbind he hnext),
    fun s die k m c p h hbind => exec_cmdPhSig_of_unbound h hbind,
    fun s die k m c p q h hbind => phJoins_of_done (die_of_phDue h) (exec_cmdPhWait_of_bound h hbind),
    fun s die k m c p h hbind => exec_cmdPhWait_of_unbound h hbind,
    fun s die k m c p q e h hbind he hnext => phJoins_of_done (die_of_phDue h) (exec_cmdPhSw_of_bound h hbind he hnext),
    fun s die k m c p q e h hboth hbind he hnext => exec_cmdPhSw_of_sig h hboth hbind he hnext,
    fun s die k m c p h => exec_cmdPhErr_of_due h, fun s die k m c p h hreply => ?_,
    fun s die k m c h hoff hp => exec_cmdPhSig_of_missing h hoff hp⟩
  obtain ⟨a, hmsgs, hkind, hmem, hlaunches, hdies⟩ :=
    reply_sends (s := (s.dropMsg k).modDie die fun d => d.use (phKey (syncPlace c.addr).2)) (m := m) hreply true 0 0 (some p.record)
  refine ⟨_, a, exec_cmdPhRead_of_due h, hmsgs, hkind, fun b => by rw [hmem]; simp, hlaunches, ?_⟩
  rw [State.getDie, hdies]
  exact State.getDie_modDie_of_kept Die.phasers (s.dropMsg k) (e := die) fun _ => rfl

/-- R247, R249: what a completion without drops and held signals leaves. -/
theorem phaseCompletes : PhaseCompletes := by
  intro p time err h q
  simp only [q, Phaser.complete_of_plain h]
  simp

/-- Settles O18: the commands each by the equation of its event, a completion by what it changes. -/
theorem phasers : Obligations.Phasers := ⟨phaserCommands, phaseCompletes⟩

end Sys2Proof.Claims

/-! The Granary (R237, R251 to R257): its commands, the return of an overflowed content, widening and the prefetch buffer. -/

namespace Sys2Proof.Machine

open Sys2Proof.Claims

/-! A queue read back -/

@[simp] theorem State.queue_modDie_same (s : State) (die q : Nat) (f : Die → Die) : (s.modDie die f).queue die q = (f (s.getDie die)).queue q := by
  simp [State.queue]
@[simp] theorem Die.queue_setQueue_same (d : Die) (q : Nat) (x : Queue) : (d.setQueue q x).queue q = x := smGet_smPut_same _ _ _ _
theorem Die.queue_setQueue_of_ne (d : Die) {q j : Nat} (x : Queue) (h : j ≠ q) : (d.setQueue q x).queue j = d.queue j := smGet_smPut_of_ne _ _ _ h

@[simp] theorem State.queue_setQueue_same (s : State) (die q : Nat) (x : Queue) : (s.setQueue die q x).queue die q = x := by
  simp [State.setQueue]

theorem State.queue_setQueue_of_ne (s : State) (die : Nat) {q j : Nat} (x : Queue) (h : j ≠ q) :
    (s.setQueue die q x).queue die j = s.queue die j := by
  simp [State.setQueue, Die.queue_setQueue_of_ne _ _ h, State.queue]

/-! What a command reads before it acts -/

/-- A command of the Granary acts in its turn. -/
theorem State.qCmd_of_due {s : State} {die k code : Nat} {m : Msg} {c : SyncCmd} (h : CmdDue s die k code m c) (go : Msg → SyncCmd → Out) :
    s.qCmd die k code go = go m c := by
  obtain ⟨hmsg, hkind, rfl, hcode, harrived, hfirst, hroom, hfmt⟩ := h
  have hcmd : m.kind.cmd? = some c := by rw [hkind, MsgKind.cmd?]
  simp [State.qCmd, hmsg, hcmd, hcode, harrived, hfirst, hroom, hfmt]

/-- A record of a queue that is no LAUNCH queue only joins it (R253). -/
theorem State.placeRec_of_plain {s : State} {die q : Nat} (h : (s.queue die q).kind ≠ 1) (r : QRec) :
    s.placeRec die q r = s.setQueue die q { s.queue die q with recs := (s.queue die q).recs ++ [r] } := by
  simp only [State.placeRec, h, decide_false, Bool.false_and, Bool.false_eq_true, if_false]

end Sys2Proof.Machine

namespace Sys2Proof.Claims

open Sys2Proof.Machine

/-! What the events run -/

theorem exec_cmdQRsv (die k : Nat) (s : State) : exec (.cmdQRsv die k) s = execCmdQRsv die k s := rfl
theorem exec_cmdQAdd (die k : Nat) (s : State) : exec (.cmdQAdd die k) s = execCmdQAdd die k s := rfl
theorem exec_cmdQTake (die k : Nat) (s : State) : exec (.cmdQTake die k) s = execCmdQTake die k s := rfl
theorem exec_overflowReturn (die : Nat) (gran : Bool) (s : State) : exec (.overflowReturn die gran) s = execOverflowReturn die gran s := rfl
theorem exec_releaseWiden (die q : Nat) (wide : Bool) (s : State) : exec (.releaseWiden die q wide) s = execReleaseWiden die q wide s := rfl
theorem exec_prefetchFill (die q tile : Nat) (s : State) : exec (.prefetchFill die q tile) s = execPrefetchFill die q tile s := rfl
theorem exec_prefetchReturn (tile : Nat) (s : State) : exec (.prefetchReturn tile) s = execPrefetchReturn tile s := rfl

section
variable {s : State} {die k : Nat} {m : Msg} {c : SyncCmd}

/-- Q.RSV at an OPEN queue that takes it: the agent waits behind the others, and the queue serves (R252). -/
theorem exec_cmdQRsv_of_open (h : CmdDue s die k 0x30 m c) (hstate : (s.queue die (queuePlace c.addr).2).state = 1)
    (hkind : (s.queue die (queuePlace c.addr).2).kind.toNat ≤ 1) (hvmid : (s.queue die (queuePlace c.addr).2).vmid = c.vmid) :
    let q := (queuePlace c.addr).2
    let x := s.queue die q
    exec (.cmdQRsv die k) s = .next (((s.nextStamp.2.dropMsg k).setQueue die q
      { x with rsvWait := x.rsvWait ++ [⟨m.agent, m.owner, agentTile m.agent, s.stamp⟩] }).serveQueue die q) := by
  rw [exec_cmdQRsv, execCmdQRsv, State.qCmd_of_due h]
  exact if_neg (by simp [hstate, hvmid, hkind])

theorem exec_cmdQRsv_of_shut (h : CmdDue s die k 0x30 m c) (hstate : (s.queue die (queuePlace c.addr).2).state ≠ 1) :
    exec (.cmdQRsv die k) s = .next (s.cmdFault k m c 0x85) := by
  rw [exec_cmdQRsv, execCmdQRsv, State.qCmd_of_due h]
  exact if_pos (by simp only [ne_eq, hstate, not_false_eq_true, decide_true, Bool.true_or])

theorem exec_cmdQAdd_of_reserved {q : Nat} (h : CmdDue s die k 0x31 m c) (hq : (s.getDie die).rsvOf ((c.addr - stageFlat die 0) / 64) = some q) :
    let slot := (c.addr - stageFlat die 0) / 64
    let u := (s.dropMsg k).setQueue die q { s.queue die q with rsvs := smDel (s.queue die q).rsvs slot }
    exec (.cmdQAdd die k) s = .next (((u.nextStamp.2.placeRec die q
      ⟨BitVec.ofNat 512 (memRead s.mem (stageFlat die slot) 64), c.b.setWidth 32, c.scope, m.agent, m.since,
        s.rebases.setWidth 8, slot, s.stamp, false⟩).serveQueue die q).reply m c true 0 0 none) := by
  rw [exec_cmdQAdd, execCmdQAdd, State.qCmd_of_due h]
  dsimp only
  rw [hq]
  rfl

theorem exec_cmdQAdd_of_unreserved (h : CmdDue s die k 0x31 m c) (hq : (s.getDie die).rsvOf ((c.addr - stageFlat die 0) / 64) = none) :
    exec (.cmdQAdd die k) s = .next (s.cmdFault k m c 0x84) := by
  rw [exec_cmdQAdd, execCmdQAdd, State.qCmd_of_due h]
  dsimp only
  rw [hq]

/-- Q.TAKE at a queue of data: the agent waits behind the others, and the queue serves (R254). -/
theorem exec_cmdQTake_of_data (h : CmdDue s die k 0x32 m c) (hstate : (s.queue die (queuePlace c.addr).2).state ≠ 0)
    (hkind : (s.queue die (queuePlace c.addr).2).kind = 0) (hvmid : (s.queue die (queuePlace c.addr).2).vmid = c.vmid) :
    let q := (queuePlace c.addr).2
    let x := s.queue die q
    exec (.cmdQTake die k) s = .next (((s.nextStamp.2.dropMsg k).setQueue die q
      { x with takers := x.takers ++ [⟨m.agent, m.owner, agentTile m.agent, s.stamp⟩] }).serveQueue die q) := by
  rw [exec_cmdQTake, execCmdQTake, State.qCmd_of_due h]
  exact if_neg (by
    simp only [hstate, hkind, hvmid, ne_eq, not_true_eq_false, decide_false, Bool.or_self, Bool.false_eq_true, not_false_eq_true])

end

section
variable {s : State} {die : Nat}

/-- A content of the Concordance that a command waits for returns where it fits (R237). -/
theorem exec_overflowReturn_conc {k key : Nat} {d : Die} (hwant : s.concWant die = some (k, key))
    (htake : ((s.getDie die).unspill key).take key = some d) : exec (.overflowReturn die false) s = .next (s.modDie die fun _ => d) := by
  rw [exec_overflowReturn, execOverflowReturn, if_neg (by decide), hwant]
  simp only [htake]

/-- A queue's oldest record returns to a slot, as the latest used, and the queue serves (R237). -/
theorem exec_overflowReturn_gran {q slot : Nat} {r : QRec} {more : List QRec} {d : Die} (hwant : (s.getDie die).granWant = some q)
    (hrecs : (s.queue die q).recs = r :: more) (hslot : (s.fresh.2.getDie die).takeSlot s.fresh.1.toNat = .slot slot d)
    (hkept : d.queue q = s.queue die q) : exec (.overflowReturn die true) s = .next (((s.fresh.2.modDie die fun _ => d).nextStamp.2.setQueue die q
      { s.queue die q with recs := { r with spilled := false, slot := slot, stamp := s.stamp } :: more }).serveQueue die q) := by
  rw [exec_overflowReturn, execOverflowReturn, if_pos rfl, hwant]
  simp only [hslot, State.queue_modDie_same, hkept, hrecs]
  rfl

/-- The oldest record counts as released at a wider scope once its producer's writes have completed there (R257). -/
theorem exec_releaseWiden_of_done {q : Nat} {wide : Bool} {r : QRec} {more : List QRec} (hrecs : (s.queue die q).recs = r :: more)
    (hscope : r.scope.toNat < (if wide then 2 else 1)) (hdone : s.producerDone r.agent (if wide then 2 else 1) r.added = true) :
    exec (.releaseWiden die q wide) s =
      .next ((s.setQueue die q { s.queue die q with recs := { r with scope := if wide then 2 else 1 } :: more }).serveQueue die q) := by
  have hscope' : r.scope.toNat < (if wide then 2 else 1 : BitVec 2).toNat := by cases wide <;> exact hscope
  rw [exec_releaseWiden, execReleaseWiden]
  simp only [hrecs]
  exact if_pos (by rw [decide_eq_true hscope', Bool.true_and]; cases wide <;> exact hdone)

/-- A record in scope moves into the buffer of a tile that has room for it (R255). -/
theorem exec_prefetchFill_of_room {q tile : Nat} {r : QRec} {more : List QRec} (hrecs : (s.queue die q).recs = r :: more)
    (hqueue : (s.getTile tile).pre.queue = some (die * 2 ^ 16 + q)) (howner : (s.getTile tile).owner.isSome = true)
    (hroom : (s.getTile tile).pre.recs.length < 2) (htakers : (s.queue die q).takers = []) (hin : r.spilled = false)
    (hscope : recInScope r tile = true) : exec (.prefetchFill die q tile) s =
      .next (((s.setQueue die q { s.queue die q with recs := more }).modTile tile fun t =>
        { t with pre := { t.pre with recs := t.pre.recs ++ [{ r with slot := slotCount }] } }).serveQueue die q) := by
  rw [exec_prefetchFill, execPrefetchFill]
  simp [hrecs, hqueue, howner, hroom, htakers, hin, hscope]

/-- A buffer that no take has served for 4,096 clk is empty again, and keeps its queue (R255). -/
theorem exec_prefetchReturn_of_old {tile : Nat} (hrecs : (s.getTile tile).pre.recs ≠ []) (hold : 4096 ≤ s.clk - (s.getTile tile).pre.age) :
    exec (.prefetchReturn tile) s =
      .next ((s.returnPrefetch tile).modTile tile fun x => { x with pre := ⟨(s.getTile tile).pre.queue, [], s.clk⟩ }) := by
  rw [exec_prefetchReturn, execPrefetchReturn]
  simp [hrecs, Nat.not_lt.2 hold]

end

/-- Settles O19: each command and each event of the Granary by its equation. -/
theorem granaryCommands : Obligations.GranaryCommands := by
  unfold Obligations.GranaryCommands
  exact ⟨fun s die k m c h hstate hkind hvmid => exec_cmdQRsv_of_open h hstate hkind hvmid, fun s die k m c h hstate => exec_cmdQRsv_of_shut h hstate,
    fun s die k m c q h hq => exec_cmdQAdd_of_reserved h hq, fun s die k m c h hq => exec_cmdQAdd_of_unreserved h hq,
    fun s die k m c h hstate hkind hvmid => exec_cmdQTake_of_data h hstate hkind hvmid, fun s die q hkind r => State.placeRec_of_plain hkind r,
    fun s die k key d hwant htake => exec_overflowReturn_conc hwant htake,
    fun s die q r more slot d hwant hrecs hslot hkept => exec_overflowReturn_gran hwant hrecs hslot hkept,
    fun s die q r more wide hrecs hscope hdone => exec_releaseWiden_of_done hrecs hscope hdone,
    fun s die q tile r more hrecs hqueue howner hroom htakers hin hscope => exec_prefetchFill_of_room hrecs hqueue howner hroom htakers hin hscope,
    fun s tile hrecs hold => ⟨_, exec_prefetchReturn_of_old hrecs hold, by simp⟩⟩

end Sys2Proof.Claims

/-! The control registers of the engines (R245, R251) and the host launch window (R258). -/

namespace Sys2Proof.Machine

open Sys2Proof.Claims

/-! An operation that is asked for is the only one (R245, R251) -/

theorem State.phAsked_of_asked {s : State} {die op : Nat} (h : s.phAsked die op = true) (j : Nat) : s.phAsked die j = (op == j) := by
  simp only [State.phAsked, Bool.and_eq_true, decide_eq_true_eq, beq_iff_eq] at h
  obtain ⟨⟨hdie, hgo⟩, hop⟩ := h
  simp [State.phAsked, hdie, hgo, hop]

theorem State.qAsked_of_asked {s : State} {die op : Nat} (h : s.qAsked die op = true) (j : Nat) : s.qAsked die j = (op == j) := by
  simp only [State.qAsked, Bool.and_eq_true, decide_eq_true_eq, beq_iff_eq] at h
  obtain ⟨⟨hdie, hgo⟩, hop⟩ := h
  simp [State.qAsked, hdie, hgo, hop]

/-! How a QCTL operation ends (R251) -/

/-- QCTL with its go bit cleared and a status in [59:57] (R251). -/
def qStatus (ctl : Word) (status : Nat) : Word := setBits (setBits ctl 63 63 0) 59 57 status

theorem bitsOf_qStatus (ctl : Word) {n : Nat} (h : n < 8) : bitsOf (qStatus ctl n).toNat 59 57 = n :=
  (bitsOf_setBits_same _ n (n := 3) rfl (by decide)).trans (Nat.mod_eq_of_lt h)

theorem bitOf_qStatus (ctl : Word) (n : Nat) : bitOf (qStatus ctl n).toNat 63 = false :=
  (bitOf_setBits_of_out _ n (n := 3) rfl (by decide) (by decide)).trans (bitOf_setBits_zero ctl (by decide))

theorem State.reg_qEnd (s : State) (die n : Nat) : (s.qEnd die n).reg die 0x408 = qStatus (s.reg die 0x408) n := State.reg_setReg_same ..

/-- The end of an operation leaves the queues alone. -/
@[simp] theorem State.queue_qEnd (s : State) (die n e q : Nat) : (s.qEnd die n).queue e q = s.queue e q :=
  State.getDie_modDie_of_kept (fun d => d.queue q) s fun _ => rfl

/-! The launch window (R258) -/

/-- What reserving a slot in a queue for a port leaves: the slot's line is cleared (R252, R258). -/
def State.windowReserved (s : State) (port die q k : Nat) (d : Die) : State :=
  let u := s.fresh.2.modDie die fun _ => d
  let v := u.setQueue die q { u.queue die q with rsvs := smPut (u.queue die q).rsvs k (hostAgent port) }
  { v with mem := memClear v.mem (stageFlat die k) 64 }

theorem State.windowReserved_frame (s : State) (port die q k : Nat) (d : Die) : let t := s.windowReserved port die q k d
    t.mod = s.mod ∧ smFind (t.queue die q).rsvs k = some (hostAgent port) ∧ t.mem = memClear s.mem (stageFlat die k) 64 := by
  refine ⟨rfl, ?_, rfl⟩
  have hqueue := (s.fresh.2.modDie die fun _ => d).queue_setQueue_same die q
    { (s.fresh.2.modDie die fun _ => d).queue die q with
      rsvs := smPut ((s.fresh.2.modDie die fun _ => d).queue die q).rsvs k (hostAgent port) }
  exact (congrArg (fun x => smFind x.rsvs k) hqueue).trans (smFind_smPut_same _ _ _)

end Sys2Proof.Machine

namespace Sys2Proof.Claims

open Sys2Proof.Machine

/-! What the events run -/

theorem exec_phCreate (die : Nat) (s : State) : exec (.phCreate die) s = execPhCreate die s := rfl
theorem exec_phDestroy (die : Nat) (s : State) : exec (.phDestroy die) s = execPhDestroy die s := rfl
theorem exec_queueCreate (die : Nat) (s : State) : exec (.queueCreate die) s = execQueueCreate die s := rfl
theorem exec_queueClose (die : Nat) (s : State) : exec (.queueClose die) s = execQueueClose die s := rfl
theorem exec_queueFree (die : Nat) (s : State) : exec (.queueFree die) s = execQueueFree die s := rfl
theorem exec_launchWindowReserve (port off : Nat) (s : State) :
    exec (.launchWindowReserve port off) s = execLaunchWindowReserve port off s := rfl
theorem exec_launchWindowAdd (port off n : Nat) (data : BitVec 512) (s : State) :
    exec (.launchWindowAdd port off n data) s = execLaunchWindowAdd port off n data s := rfl

/-! Phasers (R245) -/

section
variable {s : State} {die : Nat}

/-- PH_CREATE with no reserved bit set depends on whether the record exists and on the room for it. -/
theorem exec_phCreate_of_asked (hasked : s.phAsked die 0 = true) (hres : bitsOf (s.reg die 0x508).toNat 57 48 = 0) :
    exec (.phCreate die) s =
      let c := (s.reg die 0x508).toNat
      let off := bitsOf (s.reg die 0x500).toNat 30 6 * 64
      let p := Phaser.create (bitsOf c 47 32) (bitsOf c 31 16) (bitsOf c 15 0) (s.rebases.setWidth 8)
      if (smFind (s.getDie die).phasers off).isSome then .next (s.phEnd die 2)
      else match Die.take { s.getDie die with phasers := smPut (s.getDie die).phasers off p } (phKey off) with
        | none => .next (s.phEnd die 4)
        | some d => .next ((s.modDie die fun _ => d).phEnd die 1) := by
  rw [exec_phCreate, execPhCreate, State.phAsked_of_asked hasked, State.phAsked_of_asked hasked, State.phAsked_of_asked hasked]
  simp only [hres]
  rfl

theorem exec_phDestroy_of_record {p : Phaser} (hasked : s.phAsked die 1 = true) (hres : bitsOf (s.reg die 0x508).toNat 57 48 = 0)
    (hp : smFind (s.getDie die).phasers (bitsOf (s.reg die 0x500).toNat 30 6 * 64) = some p) : exec (.phDestroy die) s =
      let off := bitsOf (s.reg die 0x500).toNat 30 6 * 64
      if !p.waiters.isEmpty then .next (s.phEnd die 2)
      else .next ((s.modDie die fun d =>
        { d with phasers := smDel d.phasers off, recent := d.recent.filter (· != phKey off) }).phEnd die 1) := by
  rw [exec_phDestroy, execPhDestroy, hasked]
  simp only [hres, hp]
  rfl

/-! Queues (R251) -/

/-- The queue that QCTL asks for: OPEN, with the fields that it names, and empty. -/
def queueAsked (s : State) (die : Nat) : Queue :=
  let c := (s.reg die 0x408).toNat
  { Queue.reset with
    state := 1, cls := BitVec.ofNat 3 (bitsOf c 56 54), kind := BitVec.ofNat 2 (bitsOf c 53 52), hostwin := bitOf c 51,
    cap := bitsOf c 49 32, vmid := BitVec.ofNat 16 (bitsOf c 31 16), stage := s.reg die 0x410 }

/-- QUEUE_CREATE with a capacity and a kind that a queue can have opens a FREE queue. -/
theorem exec_queueCreate_of_asked (hasked : s.qAsked die 0 = true) (hres : s.qReserved die = false)
    (hkind : bitsOf (s.reg die 0x408).toNat 53 52 ≠ 3) (hlo : 1 ≤ bitsOf (s.reg die 0x408).toNat 49 32)
    (hhi : bitsOf (s.reg die 0x408).toNat 49 32 ≤ 131072) : exec (.queueCreate die) s =
      if (s.queue die (s.qSel die)).state ≠ 0 then .next (s.qEnd die 2)
      else .next ((s.setQueue die (s.qSel die) (queueAsked s die)).qEnd die 1) := by
  have hother : ((List.range 5).any fun i => s.qAsked die (i + 3)) = false := by
    simp only [State.qAsked_of_asked hasked]
    decide
  have hok : (s.qReserved die || decide (bitsOf (s.reg die 0x408).toNat 53 52 = 3) || decide (bitsOf (s.reg die 0x408).toNat 49 32 = 0) ||
      decide (bitsOf (s.reg die 0x408).toNat 49 32 > 131072)) = false := by
    simp only [hres, hkind, Nat.not_lt.2 hhi, show bitsOf (s.reg die 0x408).toNat 49 32 ≠ 0 by omega, decide_false, Bool.or_self]
  rw [exec_queueCreate, execQueueCreate]
  simp only [hother, hasked, hok]
  rfl

/-- Closing an OPEN queue for which no reservation waits leaves its records to the takers. -/
theorem exec_queueClose_of_open (hasked : s.qAsked die 1 = true) (hres : s.qReserved die = false)
    (hstate : (s.queue die (s.qSel die)).state = 1) (hwait : (s.queue die (s.qSel die)).rsvWait = []) : exec (.queueClose die) s =
      .next (((s.setQueue die (s.qSel die) { s.queue die (s.qSel die) with state := 2, rsvWait := [] }).serveQueue die (s.qSel die)).qEnd die 1) := by
  rw [exec_queueClose, execQueueClose]
  simp only [hasked, hres, hstate, hwait]
  rfl

theorem exec_queueClose_of_other (hasked : s.qAsked die 1 = true) (hres : s.qReserved die = false)
    (hstate : (s.queue die (s.qSel die)).state ≠ 1) : exec (.queueClose die) s = .next (s.qEnd die 2) := by
  rw [exec_queueClose, execQueueClose]
  simp only [hasked, hres]
  exact if_pos hstate

/-- A queue may be freed: it is CLOSED and holds no record, reservation or taker. -/
theorem exec_queueFree_of_asked (hasked : s.qAsked die 2 = true) (hres : s.qReserved die = false) : exec (.queueFree die) s =
      let x := s.queue die (s.qSel die)
      if x.state ≠ 2 ∨ x.recs ≠ [] ∨ x.rsvs ≠ [] ∨ x.takers ≠ [] then .next (s.qEnd die 2)
      else .next ((s.modDie die fun d => { d with queues := smDel d.queues (s.qSel die) }).qEnd die 1) := by
  rw [exec_queueFree, execQueueFree]
  simp only [hasked, hres, Bool.not_true, Bool.false_eq_true, if_false]
  exact if_congr (by simp [or_assoc]) rfl rfl

end

/-! The host launch window (R258) -/

/-- A queue that the window does not serve: it is not OPEN, or has no host window. -/
theorem windowShut_iff (x : Queue) : (decide (x.state ≠ 1) || !x.hostwin) = true ↔ x.state ≠ 1 ∨ x.hostwin = false := by
  simp only [Bool.or_eq_true, decide_eq_true_eq, Bool.not_eq_true']

section
variable {s : State} {port off die q : Nat} (hport : port < 2) (hopen : s.shut = false) (hq : windowQueue off = some (die, q))
include hport hopen hq

/-- A read of 8 bytes at an open window's queue. -/
theorem exec_launchWindowReserve_of_queue : exec (.launchWindowReserve port off) s =
    if (s.queue die q).state ≠ 1 || !(s.queue die q).hostwin then .next ((s.windowRefused die).hostAnswer 0)
    else if (s.queue die q).recs.length + (s.queue die q).rsvs.length ≥ (s.queue die q).cap then .next (s.hostAnswer 0)
    else match (s.getDie die).takeSlot (Config.freeWord s.tick).toNat with
      | .slot k d => .next ((s.windowReserved port die q k d).hostAnswer 1)
      | _ => .next (s.hostAnswer 0) := by
  obtain ⟨hwarm, honly⟩ := s.shut_eq_false_iff.1 hopen
  rw [exec_launchWindowReserve, execLaunchWindowReserve, if_neg (Nat.not_le.2 hport)]
  simp only [hwarm, honly, hq]
  rfl

/-- A read of another size reserves nothing. -/
theorem exec_hostRead_of_window {n : Nat} (hn : 1 ≤ n) (hn64 : n ≤ 64) (hn8 : n ≠ 8) : exec (.hostRead port 2 off n) s =
    .next ((if (s.queue die q).state ≠ 1 || !(s.queue die q).hostwin then s.windowRefused die else s).hostAnswer 0) := by
  obtain ⟨hwarm, honly⟩ := s.shut_eq_false_iff.1 hopen
  simp only [exec, execHostRead, port_takes_request hport hn hn64, hwarm, honly, hn8, State.windowRead, hq]
  rfl

/-- A write that finds no reservation of its port is refused. -/
theorem exec_launchWindowAdd_of_none (n : Nat) (data : BitVec 512)
    (hnone : (s.queue die q).rsvs.find? (fun r => r.2 == hostAgent port) = none) :
    exec (.launchWindowAdd port off n data) s = .next (s.windowRefused die) := by
  rw [exec_launchWindowAdd, execLaunchWindowAdd]
  simp only [hopen, hq, hnone, Nat.not_le.2 hport]
  rfl

/-- A write of 64 bytes at a reservation of its port adds a record at SYSTEM scope. -/
theorem exec_launchWindowAdd_of_reserved {slot g : Nat} (data : BitVec 512) (hstate : (s.queue die q).state = 1)
    (hwin : (s.queue die q).hostwin = true) (hslot : (s.queue die q).rsvs.find? (fun r => r.2 == hostAgent port) = some (slot, g)) :
    let u := (s.setQueue die q { s.queue die q with rsvs := smDel (s.queue die q).rsvs slot }).nextStamp
    exec (.launchWindowAdd port off 64 data) s = .next ((u.2.placeRec die q
      ⟨data, smGet 0 s.mod.hostTs port, 3, hostAgent port, s.eighths, s.rebases.setWidth 8, slot, u.1, false⟩).serveQueue die q) := by
  rw [exec_launchWindowAdd, execLaunchWindowAdd]
  simp only [hopen, hq, hslot, hstate, hwin, Nat.not_le.2 hport]
  rfl

end

/-- A queue that QCTL has opened is the one it asks for, with status 1 and the go bit cleared; the other queues and the memory stay (R251). -/
theorem queueOpened_frame (s : State) (die : Nat) : let t := (s.setQueue die (s.qSel die) (queueAsked s die)).qEnd die 1
    bitsOf (t.reg die 0x408).toNat 59 57 = 1 ∧ bitOf (t.reg die 0x408).toNat 63 = false ∧ t.queue die (s.qSel die) = queueAsked s die ∧
      (∀ j, j ≠ s.qSel die → t.queue die j = s.queue die j) ∧ t.mem = s.mem := by
  intro t
  have hreg : t.reg die 0x408 = qStatus ((s.setQueue die (s.qSel die) (queueAsked s die)).reg die 0x408) 1 := State.reg_qEnd ..
  rw [hreg]
  refine ⟨bitsOf_qStatus _ (by decide), bitOf_qStatus _ _, ?_, fun j hj => ?_, ?_⟩
  · rw [State.queue_qEnd, State.queue_setQueue_same]
  · rw [State.queue_qEnd, State.queue_setQueue_of_ne _ _ _ hj]
  · simp [t, State.qEnd]

/-- Settles O49: each operation by the equation of its event, the window by that of a read or a write at a queue. -/
theorem engineControl : Obligations.EngineControl := by
  unfold Obligations.EngineControl
  refine ⟨fun die s hasked hres => ⟨fun d hnone htake => ?_, fun q hq => ?_⟩, fun sig wait sw tag => ⟨rfl, rfl, rfl, rfl, rfl, rfl, rfl, rfl, rfl⟩,
    fun die s p hasked hres hp => ⟨fun hempty => ?_, fun hwait => ?_⟩,
    fun die s hasked hres hkind hlo hhi => ⟨fun hfree => ?_, fun hused => ?_⟩,
    fun die s hasked hres => ⟨fun hstate hwait => exec_queueClose_of_open hasked hres hstate hwait,
      fun hstate => exec_queueClose_of_other hasked hres hstate⟩,
    fun die s hasked hres => ⟨fun hstate hrecs hrsvs htakers => ?_, fun hheld => (exec_queueFree_of_asked hasked hres).trans (if_pos hheld)⟩,
    fun port off s die q hport hopen hq hstate hwin => ⟨fun hfull => ?_, fun k d hroom hslot => ?_⟩,
    fun port off s die q hport hopen hq hshut => ⟨?_, fun n hn hn64 hn8 => ?_⟩,
    fun port off s die q n hport hopen hq hstate hwin hn hn64 hn8 => ?_,
    fun port off s die q data slot g hport hopen hq hstate hwin hslot => exec_launchWindowAdd_of_reserved hport hopen hq data hstate hwin hslot,
    fun port off s die q data n hport hopen hq hnone => exec_launchWindowAdd_of_none hport hopen hq n data hnone⟩
  · refine (exec_phCreate_of_asked hasked hres).trans ?_
    simp only [hnone, htake]
    rfl
  · refine (exec_phCreate_of_asked hasked hres).trans ?_
    simp only [hq]
    rfl
  · exact (exec_phDestroy_of_record hasked hres hp).trans (if_neg (by simp [hempty]))
  · exact (exec_phDestroy_of_record hasked hres hp).trans (if_pos (by simp [hwait]))
  · obtain ⟨hstatus, hgo, hqueue, hothers, hmem⟩ := queueOpened_frame s die
    refine ⟨_, (exec_queueCreate_of_asked hasked hres hkind hlo hhi).trans (if_neg (not_not.2 hfree)), hstatus, hgo, ?_⟩
    rw [hqueue]
    exact ⟨rfl, rfl, rfl, rfl, rfl, rfl, rfl, rfl, rfl, hothers, hmem⟩
  · exact (exec_queueCreate_of_asked hasked hres hkind hlo hhi).trans (if_pos hused)
  · exact (exec_queueFree_of_asked hasked hres).trans (if_neg (by simp [hstate, hrecs, hrsvs, htakers]))
  · have hrun := exec_launchWindowReserve_of_queue hport hopen hq
    rw [if_neg (by simp [hstate, hwin]), if_pos hfull] at hrun
    exact hrun
  · have hrun := exec_launchWindowReserve_of_queue hport hopen hq
    rw [if_neg (by simp [hstate, hwin]), if_neg (Nat.not_le.2 hroom), hslot] at hrun
    obtain ⟨hmod, hrsv, hmem⟩ := s.windowReserved_frame port die q k d
    exact ⟨_, hrun, by rw [← hmod]; rfl, hrsv, hmem⟩
  · exact (exec_launchWindowReserve_of_queue hport hopen hq).trans (if_pos ((windowShut_iff _).2 hshut))
  · have hrun := exec_hostRead_of_window hport hopen hq hn hn64 hn8
    rwa [if_pos ((windowShut_iff _).2 hshut)] at hrun
  · have hrun := exec_hostRead_of_window hport hopen hq hn hn64 hn8
    rwa [if_neg (by simp [hstate, hwin])] at hrun

end Sys2Proof.Claims

/-! The rendering words of handlers (R263, R278 to R281, R287 to R289, R292). -/

namespace Sys2Proof.Machine

/-- A record that starts on its boundary and lies in the data part of local memory passes its check (R118). -/
theorem recFault_of_inside {p align n : Nat} (halign : p % align = 0) (hlo : 0x4000 ≤ p) (hhi : p + n ≤ 0x18000) : recFault p align n = none := by
  rw [recFault, if_neg (not_not.2 halign), if_neg (by simp; omega)]

end Sys2Proof.Machine

namespace Sys2Proof.Claims

open Sys2Proof.Machine

/-- A word of two operands is passed where its guard is false; with both operands at hand it runs on them, a read before b (R34, R141). -/
theorem word2Does_of_two {i : Instr} {a b : Opnd} {g : BitVec 4} {go : State → Block → TVal → TVal → Out} {p : State → TVal → TVal → Block → Prop}
    (hexec : ∀ s, exec i s = s.two g a b (go s)) (hgo : ∀ s x y k, exec i s = go s k x y → p s x y k) : Word2Does i a b g p := by
  refine ⟨guarded_of_word hexec, fun s x y j k hg ha hb => hgo s x y k ?_⟩
  rw [hexec, State.two, word_of_guard hg]
  simp only [ha, hb]

/-- A test whose stack fits goes on with its image and its result (R263). -/
theorem traces_of_traced {i : Instr} {s u : State} {k : Block} {d : BitVec 3} {r : Ray} {w b : Nat} {best : Option (Nat × Nat)} {stack : List Nat}
    {v : Nat} (hrun : exec i s = u.traced k d r w b best stack v) : Traces i s u k d r w b best stack v := by
  intro stk j f hfit
  simp only [State.traced, hfit] at hrun
  exact goesOn_of_wordDone hrun

/-! Each word's meaning -/

theorem exec_hBoxt8 (c : Bool) (d : BitVec 3) (a b : Opnd) (g : BitVec 4) (s : State) :
    exec (if c then .hBoxt8Closest d a b g else .hBoxt8Any d a b g) s = s.boxt8 c d a b g := by
  cases c <;> rfl
theorem exec_hTritAny (d : BitVec 3) (a b : Opnd) (g : BitVec 4) (s : State) : exec (.hTritAny d a b g) s = s.trit false d a b g := rfl
theorem exec_hTritClosest (d : BitVec 3) (a b : Opnd) (g : BitVec 4) (s : State) : exec (.hTritClosest d a b g) s = s.trit true d a b g := rfl
theorem exec_hTritBary (d : BitVec 3) (a b : Opnd) (g : BitVec 4) (s : State) : exec (.hTritBary d a b g) s = execHTritBary d a b g s := rfl
theorem exec_hDicer (d : BitVec 3) (a b : Opnd) (g : BitVec 4) (s : State) : exec (.hDicer d a b g) s = execHDicer d a b g s := rfl
theorem exec_hSamptTu (d : BitVec 3) (a b : Opnd) (g : BitVec 4) (s : State) : exec (.hSamptTu d a b g) s = execHSamptTu d a b g s := rfl
theorem exec_hSamptV (d : BitVec 3) (a b : Opnd) (g : BitVec 4) (s : State) : exec (.hSamptV d a b g) s = execHSamptV d a b g s := rfl
theorem exec_hMptest (d : BitVec 3) (a b : Opnd) (g : BitVec 4) (s : State) : exec (.hMptest d a b g) s = execHMptest d a b g s := rfl
theorem exec_hSeqw (d : BitVec 3) (a b : Opnd) (g : BitVec 4) (s : State) : exec (.hSeqw d a b g) s = execHSeqw d a b g s := rfl

/-- Settles O16: each word runs on its two operands (`word2Does_of_two`), in the case of its checks that the clause names; a test whose record is
good ends as `traces_of_traced` says, and a word that writes d alone as `goesOn_of_wordDone` says. -/
theorem handlerRendering : Obligations.HandlerRendering := by
  unfold Obligations.HandlerRendering
  refine ⟨fun c d a b g => word2Does_of_two (exec_hBoxt8 c d a b g) fun s x y k hrun =>
      ⟨fun n u hcheck hload hgood => ?boxGood, fun n u hcheck hload hbad => ?boxBad⟩,
    fun d a b g => word2Does_of_two (exec_hTritAny d a b g) fun s x y k hrun v u hcheck hload hgood => ?tritAny,
    fun d a b g => word2Does_of_two (exec_hTritClosest d a b g) fun s x y k hrun v u hcheck hload hgood hmiss => ?tritClosest,
    fun d a b g => word2Does_of_two (exec_hTritBary d a b g) fun s x y k hrun hsp halign hwin hlo hhi hbest => ?tritBary,
    fun d a b g => word2Does_of_two (exec_hDicer d a b g) fun s x y k hrun halign hlo hhi hrate hfin hpos => ?dicer,
    fun d a b g => word2Does_of_two (exec_hSamptTu d a b g) fun s x y k hrun => ⟨fun hindex hseed => ?samptTu, fun hindex => ?samptTrap⟩,
    fun d a b g => word2Does_of_two (exec_hSamptV d a b g) fun s x y k hrun hindex hseed => ?samptV,
    fun d a b g => word2Does_of_two (exec_hMptest d a b g) fun s x y k hrun halign hlo hhi halign' hlo' hhi' => ?mptest,
    fun d a b g => word2Does_of_two (exec_hSeqw d a b g) fun s x y k hrun halign hlo hhi =>
      ⟨fun hturn => ?seqwTurn, fun hlater hnear => ?seqwLater, fun hpast => ?seqwPast⟩⟩
  case boxGood =>
    simp only [hcheck, hload, hgood] at hrun
    exact traces_of_traced hrun
  case boxBad =>
    simp only [hcheck, hload, hbad] at hrun
    exact hrun
  case tritAny =>
    simp only [hcheck, hload, hgood] at hrun
    exact traces_of_traced hrun
  case tritClosest =>
    simp only [hcheck, hload, hgood, hmiss] at hrun
    exact traces_of_traced hrun
  case tritBary =>
    rw [if_neg (by omega), if_neg (by simp; omega), if_neg (by simp; omega), if_pos hbest] at hrun
    exact goesOn_of_wordDone hrun
  case dicer =>
    simp only [recFault_of_inside halign hlo hhi, Nat.mod_eq_of_lt hrate, hfin, hpos] at hrun
    rw [if_neg (by simp; omega)] at hrun
    exact goesOn_of_wordDone hrun
  case samptTu => exact goesOn_of_wordDone (hrun.trans (if_neg (by simp; omega)))
  case samptTrap => exact hrun.trans (if_pos (by simp; omega))
  case samptV => exact goesOn_of_wordDone (hrun.trans (if_neg (by simp; omega)))
  case mptest =>
    simp only [recFault_of_inside halign hlo hhi, recFault_of_inside halign' hlo' hhi'] at hrun
    exact goesOn_of_wordDone hrun
  case seqwTurn =>
    simp only [recFault_of_inside halign hlo hhi, hturn] at hrun
    exact goesOn_of_wordDone hrun
  case seqwLater =>
    simp only [recFault_of_inside halign hlo hhi] at hrun
    exact hrun.trans ((if_neg (by omega)).trans (if_pos hnear))
  case seqwPast =>
    simp only [recFault_of_inside halign hlo hhi] at hrun
    exact hrun.trans ((if_neg (by omega)).trans (if_neg (by omega)))

end Sys2Proof.Claims

/-! The service plane (R336): what a freeze keeps of the unit that holds a tile, and how a service unit starts. -/

namespace Sys2Proof.Machine

/-! What keeps the sequencers and the launches -/

/-- The registers and the SPC of every sequencer, and which launches there are. -/
def State.units (s : State) : (Nat → Vector Word 16 × Word) × (Nat → Bool) :=
  (fun x => ((s.getTile x).a, (s.getTile x).spc), fun u => (s.launch? u).isSome)

theorem State.units_congr {s t : State} (htiles : t.tiles = s.tiles) (hlaunches : t.launches = s.launches) : t.units = s.units := by
  simp only [State.units, State.getTile, State.launch?, htiles, hlaunches]

/-- States with the same sequencers and launches have the same registers and SPC at a tile. -/
theorem State.seq_of_units {s t : State} (h : t.units = s.units) (x : Nat) :
    (t.getTile x).a = (s.getTile x).a ∧ (t.getTile x).spc = (s.getTile x).spc :=
  Prod.mk.inj (congrFun (congrArg Prod.fst h) x)

theorem State.isSome_of_units {s t : State} (h : t.units = s.units) (u : Nat) : (t.launch? u).isSome = (s.launch? u).isSome :=
  congrFun (congrArg Prod.snd h) u

theorem State.units_modTile (s : State) (x : Nat) {f : Tile → Tile} (hf : ∀ t, (f t).a = t.a ∧ (f t).spc = t.spc) :
    (s.modTile x f).units = s.units := by
  refine Prod.ext (funext fun y => ?_) rfl
  simp only [State.units, State.getTile_modTile]
  split
  · next hy => rw [(hf _).1, (hf _).2, hy]
  · rfl

theorem State.units_setLaunch {s : State} {u : Nat} (l : Launch) (h : (s.launch? u).isSome = true) : (s.setLaunch u l).units = s.units := by
  refine Prod.ext rfl (funext fun v => ?_)
  by_cases hv : v = u
  · subst hv
    simp only [State.units, State.launch?_setLaunch_same, h, Option.isSome_some]
  · simp only [State.units, State.launch?_setLaunch_of_ne s l hv]

@[simp] theorem State.units_modLaunch (s : State) (u : Nat) (f : Launch → Launch) : (s.modLaunch u f).units = s.units := by
  obtain ⟨l, hl, hset⟩ | ⟨-, hset⟩ := s.modLaunch_cases u f
  · rw [hset, State.units_setLaunch _ (by simp [hl])]
  · rw [hset]

@[simp] theorem State.units_vault (s : State) (d : Nat) (e : VEvent) : (s.vault d e).units = s.units := State.units_congr (by simp) (by simp)

@[simp] theorem State.units_modWork (s : State) (i : Nat) (f : WorkEnt → WorkEnt) : (s.modWork i f).units = s.units :=
  State.units_congr (by simp) (by simp)

@[simp] theorem State.units_sendBack (s : State) (d a o : Nat) (k : MsgKind) : (s.sendBack d a o k).units = s.units :=
  State.units_congr (by simp) (by simp)

/-! Ending a unit drops its step, not its registers (R325, R337) -/

@[simp] theorem State.units_beginEnding (s : State) (u : Nat) : (s.beginEnding u).units = s.units := by
  unfold State.beginEnding
  split
  · rfl
  · refine (State.units_modLaunch _ _ _).trans (foldl_frame State.units _ (fun s x => s.units_modTile x fun t => ?_) _ s)
    dsimp only
    split <;> exact ⟨rfl, rfl⟩

@[simp] theorem State.units_discard (s : State) (d t u : Nat) : (s.discard d t u).units = s.units := by
  unfold State.discard
  split
  · rfl
  · next l hl =>
    split
    · rfl
    · exact (State.units_beginEnding _ u).trans (State.units_setLaunch _ (by simp [hl]))

@[simp] theorem State.units_faultLaunch (s : State) (u c t d : Nat) : (s.faultLaunch u c t d).units = s.units := by
  unfold State.faultLaunch
  cases hl : s.launch? u with
  | none => exact s.units_vault _ _
  | some l =>
    dsimp only
    generalize hx : s.vault (tileDie t) _ = x
    have hunits : x.units = s.units := by rw [← hx, State.units_vault]
    have hsome : (x.launch? u).isSome = true := by rw [State.isSome_of_units hunits, hl, Option.isSome_some]
    have hended (m : Launch) : (if l.st == .ending then x.setLaunch u m else (x.setLaunch u m).beginEnding u).units = s.units := by
      have hset : (x.setLaunch u m).units = s.units := (State.units_setLaunch m hsome).trans hunits
      split
      · exact hset
      · rw [State.units_beginEnding, hset]
    split
    · exact hunits
    · split
      · exact hended _
      · refine (foldl_frame State.units _ (fun y v => by simp) _ _).trans ?_
        split
        · exact (State.units_modWork ..).trans (hended _)
        · exact hended _

/-! Blocks that are abandoned (R309) -/

@[simp] theorem State.units_abandon (s : State) (c : Nat) : (s.abandon c).units = s.units := by
  unfold State.abandon
  split
  · rfl
  · next b hb =>
    refine (State.units_congr (s := s.ungrant c b) rfl rfl).trans ?_
    unfold State.ungrant
    dsimp only
    split
    · rfl
    · exact s.units_modTile _ fun _ => ⟨rfl, rfl⟩

@[simp] theorem State.units_abandonAll (s : State) (l : Launch) : (s.abandonAll l).units = s.units := by
  refine foldl_frame State.units _ (fun s c => ?_) _ s
  split
  · split
    · rfl
    · exact s.units_abandon c
  · rfl

/-! A queue serves its waiters (R252, R254) -/

theorem State.serveTake_keeps (die q n : Nat) (s : State) :
    (State.serveTake die q n s).units = s.units ∧ (State.serveTake die q n s).stamp = s.stamp := by
  have hsend (t : State) (x : Queue) (a o : Nat) (k : MsgKind) :
      ((t.setQueue die q x).sendBack die a o k).units = t.units ∧ ((t.setQueue die q x).sendBack die a o k).stamp = t.stamp :=
    ⟨State.units_sendBack .., State.sendBack_stamp ..⟩
  induction n generalizing s with
  | zero => exact ⟨rfl, rfl⟩
  | succ n ih =>
    have hnext (x : Queue) (a o : Nat) (k : MsgKind) :=
      And.intro ((ih ((s.setQueue die q x).sendBack die a o k)).1.trans (hsend s x a o k).1)
        ((ih ((s.setQueue die q x).sendBack die a o k)).2.trans (hsend s x a o k).2)
    unfold State.serveTake
    dsimp only
    split
    · exact ⟨rfl, rfl⟩
    · split
      · exact ⟨rfl, rfl⟩
      · exact hnext ..
    · split
      · exact hnext ..
      · exact ⟨rfl, rfl⟩

theorem State.serveRsv_keeps (die n : Nat) (s : State) :
    (State.serveRsv die n s).units = s.units ∧ (State.serveRsv die n s).stamp = s.stamp := by
  induction n generalizing s with
  | zero => exact ⟨rfl, rfl⟩
  | succ n ih =>
    unfold State.serveRsv
    split
    · exact ⟨rfl, rfl⟩
    · dsimp only
      split
      · exact ⟨rfl, rfl⟩
      · obtain ⟨hunits, hstamp⟩ := ih _
        refine ⟨hunits.trans ?_, hstamp.trans ?_⟩
        · rw [State.refuseWaiter, State.units_faultLaunch, State.units_sendBack]
          rfl
        · rw [State.refuseWaiter, State.faultLaunch_stamp, State.sendBack_stamp]
          rfl
      · obtain ⟨hunits, hstamp⟩ := ih _
        refine ⟨hunits.trans ?_, hstamp.trans ?_⟩
        · rw [State.units_sendBack, State.units_modLaunch]
          rfl
        · rw [State.sendBack_stamp, State.modLaunch_stamp]
          rfl

/-- A prefetch buffer that returns its records changes no register and no SPC, loses no launch, and takes no stamp (R255). -/
theorem State.returnPrefetch_keeps (s : State) (tile : Nat) :
    (s.returnPrefetch tile).units = s.units ∧ (s.returnPrefetch tile).stamp = s.stamp := by
  unfold State.returnPrefetch
  dsimp only
  split
  · exact ⟨s.units_modTile _ fun _ => ⟨rfl, rfl⟩, rfl⟩
  · exact ⟨rfl, rfl⟩
  · obtain ⟨hrsv, hrsvStamp⟩ := State.serveRsv_keeps _ _ _
    obtain ⟨htake, htakeStamp⟩ := State.serveTake_keeps _ _ _ _
    exact ⟨(hrsv.trans htake).trans (s.units_modTile tile (f := fun t => { t with pre := ⟨none, [], 0⟩ }) fun _ => ⟨rfl, rfl⟩),
      hrsvStamp.trans htakeStamp⟩

/-! The unit that holds the tile is frozen -/

/-- A frozen unit keeps the registers and the SPC that the sequencer of the tile had. -/
theorem State.launch?_freezeUnit {s : State} {v : Nat} {l : Launch} (hl : s.launch? v = some l) (tile : Nat) :
    ∃ m x, (s.freezeUnit v tile).launch? v = some m ∧ m.frozen = true ∧ m.saved = some x ∧ x.a = (s.getTile tile).a ∧
      x.spc = (s.getTile tile).spc := by
  obtain ⟨hunits, -⟩ := s.returnPrefetch_keeps tile
  obtain ⟨ha, hspc⟩ := State.seq_of_units hunits tile
  obtain ⟨m, hm⟩ : ∃ m, (s.returnPrefetch tile).launch? v = some m := by
    rw [← Option.isSome_iff_exists, State.isSome_of_units hunits, hl, Option.isSome_some]
  have hm' : (s.freezeUnit v tile).launch? v =
      some { m with frozen := true, saved := some (((s.returnPrefetch tile).getTile tile).keeps (s.returnPrefetch tile).rebases) } :=
    (State.launch?_modLaunch_same _ _ _).trans (congrArg (Option.map _) hm)
  exact ⟨_, _, hm', rfl, rfl, ha, hspc⟩

theorem State.stamp_freezeUnit (s : State) (v tile : Nat) : (s.freezeUnit v tile).stamp = s.stamp :=
  (State.modLaunch_stamp _ _ _).trans (s.returnPrefetch_keeps tile).2

/-! The service unit starts -/

/-- The launch of a service unit, with the VMID that it takes as a free value (log 81). -/
def State.serviceUnit (s : State) (die folio tile : Nat) (victim : Option Nat) : Launch :=
  { Launch.blank with
    vmid := (Config.freeWord s.tick).setWidth 16, folio := folio, die := die, st := .running, service := true, victim := victim, region := [tile],
    since := s.clk, age := s.stamp, start := some s.timeNs }

section
variable (s : State) (die folio tile : Nat) (victim : Option Nat)

theorem State.launch?_startService : (s.startService die folio tile victim).launch? s.stamp = some (s.serviceUnit die folio tile victim) :=
  State.launch?_setLaunch_same s _ _

theorem State.launch?_startService_of_ne {v : Nat} (h : v ≠ s.stamp) : (s.startService die folio tile victim).launch? v = s.launch? v :=
  State.launch?_setLaunch_of_ne s _ h

theorem State.getTile_startService : (s.startService die folio tile victim).getTile tile =
    ((s.getTile tile).takenBy s.stamp).started (Config.freeWord (s.tick + 1)).toNat (Config.freeWord (s.tick + 1 + 1)) 0 :=
  (State.getTile_modTile _ _ _ _).trans (if_pos rfl)

end

/-- A sequencer that starts holds zero in every register but a0 and a1 (R12). -/
theorem Tile.reg_started_of_ne (t : Tile) (record : Nat) (args : Word) (entry : Nat) {r : BitVec 4} (h0 : r ≠ 0) (h1 : r ≠ 1) :
    (t.started record args entry).reg r = 0 := by
  have h0' : 0 ≠ r.toNat := fun h => h0 (BitVec.eq_of_toNat_eq h.symm)
  have h1' : 1 ≠ r.toNat := fun h => h1 (BitVec.eq_of_toNat_eq h.symm)
  simp [Tile.reg, Tile.started, h0', h1']

/-- The tile that SVC_CTL names. -/
def State.svcTile (s : State) (die : Nat) : Nat := bitsOf (s.reg die 0xB10).toNat 13 10 * 100 + bitsOf (s.reg die 0xB10).toNat 6 0

/-- What SVC_CTL does with the service folio that it names: a folio that is not verified, a service unit that runs and a region of more than a tile
are refused, and a unit that holds the tile is frozen first. -/
def State.serviceFrom (s : State) (die i : Nat) : Out :=
  let f := s.folios.getD i default
  let tile := s.svcTile die
  if !f.verified then .next ((s.vault die ⟨0x11, 0xF8, 0, placeTile (die * 100), 0, 0, f.va⟩).svcEnd die 3)
  else if s.serviceRuns then .next (s.svcEnd die 4)
  else if f.region.length ≠ 1 then .next (s.svcEnd die 5)
  else match s.owner? tile with
  | none => .next ((s.startService (tileDie tile) i tile none).svcEnd die 1)
  | some v =>
    match s.launch? v with
    | none => s.stutter
    | some l =>
      if !(l.st == .running || l.st == .pending) || l.frozen || s.freezeWaits v tile then s.stutter
      else .next ((((s.abandonAll l).freezeUnit v tile).startService (tileDie tile) i tile (some v)).svcEnd die 1)

theorem State.reg_svcEnd (s : State) (die n : Nat) : (s.svcEnd die n).reg die 0xB10 = migStatus (s.reg die 0xB10) n := State.reg_setReg_same ..

end Sys2Proof.Machine

namespace Sys2Proof.Claims

open Sys2Proof.Machine

/-! SVC_CTL (R336) -/

theorem exec_serviceStart (die : Nat) (s : State) : exec (.serviceStart die) s = execServiceStart die s := rfl

section
variable {s : State} {die : Nat} (hdie : die < 16) (hgo : bitOf (s.reg die 0xB10).toNat 63 = true)
include hdie hgo

/-- A set bit that is reserved, or a tile that no die has. -/
theorem exec_serviceStart_of_reserved (h : bitsOf (s.reg die 0xB10).toNat 59 14 ≠ 0 ∨ 99 < bitsOf (s.reg die 0xB10).toNat 9 0) :
    exec (.serviceStart die) s = .next (s.svcEnd die 5) := by
  rw [exec_serviceStart, execServiceStart]
  simp only [hgo, Nat.not_le.2 hdie, decide_false, Bool.not_true, Bool.or_self, Bool.false_eq_true, if_false]
  exact if_pos (by simpa using h)

section
variable (hres : bitsOf (s.reg die 0xB10).toNat 59 14 = 0) (htile : bitsOf (s.reg die 0xB10).toNat 9 0 ≤ 99)
include hres htile

/-- A request that names a tile goes by the service folio at its address. -/
theorem exec_serviceStart_of_asked : exec (.serviceStart die) s =
    match findIdxFrom (fun f : Folio => f.service && f.va == (s.reg die 0xB08).toNat) s.folios 0 with
    | none => .next (s.svcEnd die 3)
    | some i => s.serviceFrom die i := by
  rw [exec_serviceStart, execServiceStart]
  simp only [hgo, hres, Nat.not_le.2 hdie, Nat.not_lt.2 htile, ne_eq, not_true_eq_false, decide_false, Bool.not_true,
    Bool.or_self, Bool.false_eq_true, if_false]
  rfl

theorem exec_serviceStart_of_folio {i : Nat}
    (hfolio : findIdxFrom (fun f : Folio => f.service && f.va == (s.reg die 0xB08).toNat) s.folios 0 = some i) :
    exec (.serviceStart die) s = s.serviceFrom die i := by
  rw [exec_serviceStart_of_asked hdie hgo hres htile, hfolio]

theorem exec_serviceStart_of_no_folio
    (hfolio : findIdxFrom (fun f : Folio => f.service && f.va == (s.reg die 0xB08).toNat) s.folios 0 = none) :
    exec (.serviceStart die) s = .next (s.svcEnd die 3) := by
  rw [exec_serviceStart_of_asked hdie hgo hres htile, hfolio]

end

end

section
variable {s : State} {die i : Nat}

theorem serviceFrom_of_unverified (h : (s.folios.getD i default).verified = false) : s.serviceFrom die i =
    .next ((s.vault die ⟨0x11, 0xF8, 0, placeTile (die * 100), 0, 0, (s.folios.getD i default).va⟩).svcEnd die 3) :=
  if_pos (by rw [h]; rfl)

section
variable (hverified : (s.folios.getD i default).verified = true)
include hverified

theorem serviceFrom_of_running (hruns : s.serviceRuns = true) : s.serviceFrom die i = .next (s.svcEnd die 4) :=
  (if_neg (by rw [hverified]; decide)).trans (if_pos hruns)

section
variable (hidle : s.serviceRuns = false)
include hidle

theorem serviceFrom_of_large (hlarge : (s.folios.getD i default).region.length ≠ 1) : s.serviceFrom die i = .next (s.svcEnd die 5) :=
  (if_neg (by rw [hverified]; decide)).trans ((if_neg (by simp [hidle])).trans (if_pos hlarge))

section
variable (hone : (s.folios.getD i default).region.length = 1)
include hone

/-- On a tile that no unit holds the service unit starts. -/
theorem serviceFrom_of_free (hfree : s.owner? (s.svcTile die) = none) : s.serviceFrom die i =
    .next ((s.startService (tileDie (s.svcTile die)) i (s.svcTile die) none).svcEnd die 1) := by
  rw [State.serviceFrom, if_neg (by rw [hverified]; decide), if_neg (by simp [hidle]), if_neg (not_not.2 hone), hfree]

/-- On a tile that a running unit holds the unit is frozen first, once it has no block that commits and no access of the tile's engines. -/
theorem serviceFrom_of_held {v : Nat} {l : Launch} (hheld : s.owner? (s.svcTile die) = some v) (hl : s.launch? v = some l)
    (hst : l.st = .running ∨ l.st = .pending) (hthawed : l.frozen = false) (hwaits : s.freezeWaits v (s.svcTile die) = false) :
    s.serviceFrom die i =
      .next ((((s.abandonAll l).freezeUnit v (s.svcTile die)).startService (tileDie (s.svcTile die)) i (s.svcTile die) (some v)).svcEnd die 1) := by
  have hst' : (l.st == .running || l.st == .pending) = true := by simpa using hst
  rw [State.serviceFrom, if_neg (by rw [hverified]; decide), if_neg (by simp [hidle]), if_neg (not_not.2 hone), hheld]
  dsimp only
  rw [hl]
  exact if_neg (by simp [hst', hthawed, hwaits])

end

end

end

end

/-- Settles O48: a request ends by the folio at its address (`exec_serviceStart_of_folio`), and the start by who holds the tile; a freeze keeps the
registers of the tile's sequencer, since what it does first leaves every sequencer alone (`State.units`). -/
theorem serviceUnits : Obligations.ServiceUnits := by
  unfold Obligations.ServiceUnits
  refine ⟨fun die s i hdie hgo hres htile hfolio => ?_,
    fun die s hdie hgo hres htile hnone => exec_serviceStart_of_no_folio hdie hgo hres htile hnone,
    fun die s hdie hgo hbad => exec_serviceStart_of_reserved hdie hgo hbad⟩
  have hrun := exec_serviceStart_of_folio hdie hgo hres htile hfolio
  refine ⟨fun hverified hidle hone hfree => ?free, fun v l hverified hidle hone hheld hl hst hthawed hwaits hnew => ?held,
    fun hverified hruns => hrun.trans (serviceFrom_of_running hverified hruns), fun hbad => hrun.trans (serviceFrom_of_unverified hbad),
    fun hverified hidle hlarge => hrun.trans (serviceFrom_of_large hverified hidle hlarge)⟩
  case free =>
    refine ⟨_, _, hrun.trans (serviceFrom_of_free hverified hidle hone hfree), s.launch?_startService _ i (s.svcTile die) none,
      rfl, rfl, rfl, rfl, ?_, ?_, fun r h0 h1 => ?_, rfl, ?_, ?_, ?_⟩
    · exact congrArg Tile.owner (s.getTile_startService _ i (s.svcTile die) none)
    · exact congrArg Tile.spc (s.getTile_startService _ i (s.svcTile die) none)
    · exact (congrArg (Tile.reg · r) (s.getTile_startService _ i (s.svcTile die) none)).trans (Tile.reg_started_of_ne _ _ _ _ h0 h1)
    · rw [State.reg_svcEnd, bitsOf_migStatus _ (by decide)]
    · rw [State.reg_svcEnd, bitOf_migStatus]
    · simp
  case held =>
    have hunits := s.units_abandonAll l
    obtain ⟨ha, hspc⟩ := State.seq_of_units hunits (s.svcTile die)
    obtain ⟨k, hk⟩ : ∃ k, (s.abandonAll l).launch? v = some k := by
      rw [← Option.isSome_iff_exists, State.isSome_of_units hunits, hl, Option.isSome_some]
    obtain ⟨m, x, hm, hfrozen, hsaved, hxa, hxspc⟩ := State.launch?_freezeUnit hk (s.svcTile die)
    have hstamp := (s.abandonAll l).stamp_freezeUnit v (s.svcTile die)
    rw [← hstamp] at hnew ⊢
    exact ⟨_, m, _, hrun.trans (serviceFrom_of_held hverified hidle hone hheld hl hst hthawed hwaits),
      (State.launch?_startService_of_ne _ _ i _ _ hnew).trans hm, hfrozen, State.launch?_startService _ _ i _ _, rfl, rfl,
      congrArg Tile.owner (State.getTile_startService _ _ i _ _), x, hsaved, hxa.trans ha, hxspc.trans hspc⟩

end Sys2Proof.Claims

/-! Planes (R301, R304, R309 to R313, R316 to R318): freezing, parking, spilling, refilling and preloading them, and what a spill entry says. -/

namespace Sys2Proof.Machine

/-! A unit's planes -/

theorem State.launch?_modLaunch_of_some {s : State} {u : Nat} {l : Launch} (h : s.launch? u = some l) (f : Launch → Launch) :
    (s.modLaunch u f).launch? u = some (f l) := by
  rw [State.launch?_modLaunch_same, h, Option.map_some]

theorem Launch.plane_setPlane_same (l : Launch) (p : Nat) (x : PlaneInfo) : (l.setPlane p x).plane p = x := smGet_smPut_same _ _ _ _

/-- A launch at the freeze point of a call: its active plane is frozen, its level is on top, and nothing runs (R304, R310). -/
def Launch.called (l : Launch) (stamp : Nat) (v : Level) (frames : SMap Nat) : Launch :=
  let m := match l.active? with | some p => l.setPlane p { l.plane p with st := .frozen, depth := l.depth, parked := stamp } | none => l
  { m with levels := m.levels ++ [v], frames := frames, run := false, callStage := 2 }

/-- A launch at the freeze point of an exchange: its active plane is parked with its run state (R317). -/
def Launch.parks (l : Launch) (stamp : Nat) : Launch :=
  let m := match l.active? with
    | some p => l.setPlane p { l.plane p with st := .parked, run := l.run, runId := l.runId, parked := stamp }
    | none => l
  { m with run := false, callStage := 12 }

theorem Launch.called_of_active {l : Launch} {p : Nat} (h : l.active? = some p) (stamp : Nat) (v : Level) (frames : SMap Nat) :
    l.called stamp v frames = { (l.setPlane p { l.plane p with st := .frozen, depth := l.depth, parked := stamp }) with
      levels := l.levels ++ [v], frames := frames, run := false, callStage := 2 } := by
  rw [Launch.called, h]
  rfl

theorem Launch.parks_of_active {l : Launch} {p : Nat} (h : l.active? = some p) (stamp : Nat) :
    l.parks stamp = { (l.setPlane p { l.plane p with st := .parked, run := l.run, runId := l.runId, parked := stamp }) with
      run := false, callStage := 12 } := by
  rw [Launch.parks, h]

/-- The launch of a unit once a level's plane is in staging: the plane is free, and the level has none (R301). -/
def Launch.spillEnded (l : Launch) (p depth : Nat) : Launch :=
  { (l.setPlane p PlaneInfo.empty) with
    callStage := 2, levels := l.levels.map fun x => if x.depth == depth then { x with plane := none, spilled := true } else x }

/-- The launch of a unit once a level's refill has ended: the plane is the level's, frozen (R311). -/
def Launch.refilled (l : Launch) (p depth cfg : Nat) : Launch :=
  { (l.setPlane p { PlaneInfo.empty with st := .frozen, cfg := some cfg, depth := depth }) with
    refilling := none, stack := l.stack.dropLast,
    levels := l.levels.map fun v => if v.depth == depth then { v with plane := some p, spilled := false } else v }

/-- The level whose frozen plane spills (R301). -/
def Launch.spilling (l : Launch) : Option Level :=
  l.levels.find? fun v => match v.plane with | some p => (l.plane p).busy && (l.plane p).st == .frozen | none => false

/-- A level that has spilled has no plane. -/
theorem Launch.spilled_of_mem_spillEnded {l : Launch} {p depth : Nat} {x : Level} (hx : x ∈ (l.spillEnded p depth).levels)
    (hdepth : x.depth = depth) : x.spilled = true ∧ x.plane = none := by
  obtain ⟨y, -, rfl⟩ := List.mem_map.1 hx
  by_cases hy : y.depth = depth
  · simp [hy]
  · simp [hy] at hdepth

/-! Where a refill runs (R301, R311) -/

section
variable {l : Launch} {v : Level}

theorem Launch.refillCaller_of_cleared {p : Nat} (hspilled : v.spilled = true) (hidle : l.refilling = none) (htop : l.onTop v.depth = true)
    (hcleared : l.cleared = some p) : l.refillCaller v = l.refillInto p v.depth := by
  simp [Launch.refillCaller, hspilled, hidle, htop, hcleared]

theorem Launch.refillBelow_of_cleared {p : Nat} (hspilled : v.spilled = true) (hidle : l.refilling = none) (htop : l.onTop v.depth = true)
    (hcleared : l.cleared = some p) (hlast : l.levels.getLast? = some v) : l.refillBelow = l.refillInto p v.depth := by
  simp [Launch.refillBelow, hspilled, hidle, htop, hcleared, hlast]

/-- A refill that runs, or no plane that the return has cleared, leaves the level's refill due (log 116). -/
theorem Launch.refillBelow_of_busy (hspilled : v.spilled = true) (hbusy : l.refilling.isSome = true ∨ l.cleared = none)
    (hlast : l.levels.getLast? = some v) : l.refillBelow = { l with refillDue := some v.depth, cleared := none } := by
  simp only [Launch.refillBelow, hlast, hspilled]
  obtain hruns | hnone := hbusy
  · obtain ⟨r, hr⟩ := Option.isSome_iff_exists.1 hruns
    rw [hr]
    rfl
  · rw [hnone]
    cases l.refilling <;> rfl

end

/-! Tokens in the routers freeze with the plane (R309) -/

section
variable (s : State) (l : Launch)

/-- Freezing the tokens in the routers leaves what neither the cells nor the network hold. -/
theorem State.freezeToks_frame {β : Type} (g : State → β) (hcell : ∀ (s : State) c f, g (s.modCp c f) = g s)
    (hnet : ∀ (s : State) n, g { s with net := n } = g s) : g (s.freezeToks l) = g s := by
  unfold State.freezeToks
  refine (foldl_frame g _ ?_ _ _).trans (hnet s _)
  exact fun s t => hcell s t.pos _

theorem State.net_freezeToks : (s.freezeToks l).net = s.net.filter fun t => !l.routes t := by
  unfold State.freezeToks
  refine (foldl_frame State.net _ ?_ _ _).trans rfl
  exact fun _ _ => rfl

/-- The frame bases one level deeper go by the folios alone. -/
theorem State.deeper_congr {t : State} (h : t.folios = s.folios) : t.deeper l = s.deeper l := by
  have hfolio : t.folio l = s.folio l := congrArg (fun fs => fs.getD l.folio default) h
  rw [State.deeper, State.deeper, hfolio]

/-- A region at its freeze point: its tokens are frozen, and its step has no progress point (R174). -/
def State.atFreeze : State :=
  (if l.active?.isSome then s.freezeToks l else s).modTile (l.region.headD 0) fun t => { t with wait := some (.poll false) }

/-- A region at its freeze point differs in its cells, in the network and in its step's wait. -/
theorem State.atFreeze_frame {β : Type} (g : State → β) (hcell : ∀ (s : State) c f, g (s.modCp c f) = g s)
    (hnet : ∀ (s : State) n, g { s with net := n } = g s) (htile : ∀ (s : State) t f, g (s.modTile t f) = g s) : g (s.atFreeze l) = g s := by
  unfold State.atFreeze
  rw [htile]
  split
  · exact s.freezeToks_frame l g hcell hnet
  · rfl

theorem State.launch?_atFreeze (u : Nat) : (s.atFreeze l).launch? u = s.launch? u :=
  s.atFreeze_frame l (fun s => s.launch? u) (fun _ _ _ => rfl) (fun _ _ => rfl) fun _ _ _ => rfl

theorem State.deeper_atFreeze : (s.atFreeze l).deeper l = s.deeper l :=
  s.deeper_congr l (s.atFreeze_frame l State.folios (fun _ _ _ => rfl) (fun _ _ => rfl) fun _ _ _ => rfl)

/-- A region whose plane has frozen or parked waits at no progress point, memory is as it was, and no token that the region sent is left in its
routers. -/
theorem State.frozen_frame (u : Nat) (f : Launch → Launch) (h : l.active?.isSome = true) : let t := (s.atFreeze l).nextStamp.2.modLaunch u f
    (t.getTile (l.region.headD 0)).wait = some (.poll false) ∧ t.mem = s.mem ∧ ∀ x ∈ t.net, l.routes x = false := by
  intro t
  refine ⟨?_, ?_, fun x hx => ?_⟩
  · have hwait : ((s.atFreeze l).getTile (l.region.headD 0)).wait = some (.poll false) := by
      rw [State.atFreeze, State.getTile_modTile, if_pos rfl]
    rw [State.getTile_modLaunch]
    exact hwait
  · rw [State.modLaunch_mem]
    exact s.atFreeze_frame l State.mem (fun _ _ _ => rfl) (fun _ _ => rfl) fun _ _ _ => rfl
  · have hnet : t.net = s.net.filter fun t => !l.routes t := by
      rw [State.modLaunch_net, State.nextStamp, State.atFreeze, if_pos h, State.modTile_net, State.net_freezeToks]
    rw [hnet] at hx
    simpa using (List.mem_filter.1 hx).2

end

/-! Spilling a plane (R301, R312) -/

/-- A plane that is pushed is an entry more on the spill stack. -/
theorem State.launch?_pushPlane {s w : State} {u : Nat} {l : Launch} {plane depth cfg : Nat}
    (h : s.pushPlane u l plane depth cfg = .ok (some w)) : ∃ e, w.launch? u = some { l with stack := l.stack ++ [e] } := by
  revert h
  unfold State.pushPlane
  dsimp only
  split
  · rintro ⟨⟩
  · split <;> rintro ⟨⟩
    exact ⟨_, by rw [Claims.launch?_vaultUnit, State.launch?, State.clearPlane_launches, ← State.launch?, State.launch?_setLaunch_same]⟩

theorem State.launch?_bindCmds (s : State) (l : Launch) (u depth : Nat) (old new : Option Nat) (v : Nat) :
    (s.bindCmds l u depth old new).launch? v = s.launch? v := by
  unfold State.bindCmds
  refine foldl_frame (fun s => s.launch? v) _ ?_ _ _
  exact fun _ _ => rfl

/-- The end of a level's spill, by what pushing its plane answers. -/
def State.spillEnd (s : State) (u : Nat) (l : Launch) (v : Level) : Out :=
  let p := v.plane.getD 0
  match s.pushPlane u l p v.depth (v.cfg.getD 0) with
  | .error c => .next (s.faultLaunch u c (l.region.headD 0) (l.spillArea + l.stackTop))
  | .ok none => s.stutter
  | .ok (some w) => .next ((w.bindCmds l u v.depth (some p) none).modLaunch u fun l => l.spillEnded p v.depth)

/-! Refilling a plane (R312, R313) -/

theorem State.staging_setReg (s : State) (d off : Nat) (v : Word) (e : Nat) :
    ((s.setReg d off v).getDie e).staging = (s.getDie e).staging := State.getDie_modDie_of_kept Die.staging s fun _ => rfl

/-- An event changes no die's staging. -/
theorem State.staging_vault (s : State) (d : Nat) (x : VEvent) (e : Nat) : ((s.vault d x).getDie e).staging = (s.getDie e).staging := by
  unfold State.vault
  dsimp only
  split
  · rfl
  · exact (State.staging_setReg ..).trans (State.getDie_modDie_of_kept Die.staging s fun _ => rfl)

theorem State.isStaged_vaultUnit (s : State) (v k c d u : Nat) (l : Launch) (e : SpillEnt) :
    (s.vaultUnit v k c d).isStaged u l e = s.isStaged u l e := by
  unfold State.vaultUnit
  split
  · simp only [State.isStaged, State.staging_vault]
  · rfl

theorem State.isStaged_unstage (s : State) (u : Nat) (l : Launch) (e : SpillEnt) : (s.unstage u l e).isStaged u l e = false := by
  simp only [State.isStaged, State.unstage, State.getDie_modDie, if_true, List.any_eq_false, List.mem_filter]
  rintro g ⟨-, hg⟩
  simpa only [Bool.not_eq_true', Bool.not_eq_true] using hg

section
variable {s w : State} {u : Nat} {l : Launch} {e : SpillEnt} {plane : Nat}

/-- Where its memory can be reached, an entry is read back unless it has left staging and a CRC does not hold. -/
theorem State.popPlane_of_reached (h : s.areaFault l.die l.vmid (l.spillArea + e.off) e.len .r = none) : s.popPlane u l e plane =
    if !s.isStaged u l e && !s.crcsHold l e then .error 0x6C
    else .ok (((e.image.foldl (fun s x => s.setPlane x.1 plane x.2) (s.clearPlane l plane)).unstage u l e).vaultUnit u 0x09 0 e.depth) := by
  rw [State.popPlane, h]

/-- An entry that is read back changes no launch. -/
theorem State.launches_popPlane (h : s.popPlane u l e plane = .ok w) : w.launches = s.launches := by
  revert h
  unfold State.popPlane
  split
  · rintro ⟨⟩
  · split
    · rintro ⟨⟩
    · rintro ⟨⟩
      rw [State.vaultUnit_launches, State.unstage, State.modDie_launches, foldl_frame State.launches _ (fun s x => State.setPlane_launches _ _ _ _),
        State.clearPlane_launches]

end

/-! What a spill entry says (R312) -/

section
variable (s : State) (l : Launch) (e : SpillEnt)

/-- The CRC-32 of the image of a region tile in an entry, 0 beyond the region. -/
def State.tileCrc (i : Nat) : Nat := match (s.tileImages l e)[i]? with | some ws => (crc32 ws).toNat | none => 0

theorem State.tileCrc_lt (i : Nat) : s.tileCrc l e i < 2 ^ 32 := by
  unfold State.tileCrc
  split
  · exact BitVec.isLt _
  · decide

theorem State.tileCrc_of_tile {i t : Nat} (h : l.region[i]? = some t) :
    s.tileCrc l e i = (crc32 (tileImage e.image (s.folioDests l e.cfg) e.stamp t)).toNat := by
  simp only [State.tileCrc, State.tileImages, List.getElem?_map, h, Option.map_some]

/-- An entry begins with its header, two words and then six of zero, and the CRCs of its region tiles, two in a word. -/
theorem State.entryWords_eq : s.entryWords l e =
    ([BitVec.ofNat 64 (e.depth + e.plane * 2 ^ 8 + (l.region.length - 1) * 2 ^ 10 + e.len / 64 * 2 ^ 32), BitVec.ofNat 64 (e.cfg % 256)] ++
      List.replicate 6 0) ++
    ((List.range 8).map (fun i => BitVec.ofNat 64 (s.tileCrc l e (2 * i) + s.tileCrc l e (2 * i + 1) * 2 ^ 32)) ++
      (s.tileImages l e).flatten) := by
  simp only [State.entryWords, List.append_assoc]
  rfl

theorem State.getD_entryWords_zero {k : Nat} (hlo : 2 ≤ k) (hhi : k < 8) : (s.entryWords l e).getD k 0 = 0 := by
  rw [State.entryWords_eq, List.getD_append _ _ _ _ (by simpa using hhi), List.getD_append_right _ _ _ _ (by simpa using hlo)]
  exact List.getD_replicate _ (show k - 2 < 6 by omega)

theorem State.getD_entryWords_crc {j : Nat} (hj : j < 8) :
    (s.entryWords l e).getD (8 + j) 0 = BitVec.ofNat 64 (s.tileCrc l e (2 * j) + s.tileCrc l e (2 * j + 1) * 2 ^ 32) := by
  have hsub : 8 + j - (2 + 6) = j := by omega
  rw [State.entryWords_eq, List.getD_append_right _ _ _ _ (by simp), List.getD_append _ _ _ _ (by simp; omega)]
  simp [hsub, hj]

/-- A word of CRCs holds the CRC of a tile of even number in its lower half, and that of the next in its upper. -/
theorem State.bitsOf_entryWords_crc {i t : Nat} (h : l.region[i]? = some t) (hi : i < 16) :
    bitsOf ((s.entryWords l e).getD (8 + i / 2) 0).toNat (32 * (i % 2) + 31) (32 * (i % 2)) =
      (crc32 (tileImage e.image (s.folioDests l e.cfg) e.stamp t)).toNat := by
  rw [s.getD_entryWords_crc l e (by omega), bitsOf_eq _ (n := 32) (by omega), ← s.tileCrc_of_tile l e h, BitVec.toNat_ofNat]
  obtain ⟨j, hj⟩ := i.even_or_odd'
  have hhalf : i / 2 = j := by omega
  have hlow := s.tileCrc_lt l e (2 * j)
  have hhigh := s.tileCrc_lt l e (2 * j + 1)
  rw [hhalf]
  obtain rfl | rfl := hj
  · rw [Nat.mul_mod_right, Nat.mul_zero, pow_zero]
    omega
  · rw [Nat.mul_add_mod, Nat.one_mod, Nat.mul_one]
    omega

/-- The header's first word holds the depth, the plane, the number of region tiles less 1 and the length in units of 64 bytes. -/
theorem State.bitsOf_entryWords_header (hlo : 1 ≤ l.region.length) (hhi : l.region.length ≤ 16) (hdepth : e.depth < 64) (hplane : e.plane < 4)
    (hlen : e.len / 64 < 2 ^ 32) :
    let w := ((s.entryWords l e).getD 0 0).toNat
    bitsOf w 7 0 = e.depth ∧ bitsOf w 9 8 = e.plane ∧ bitsOf w 13 10 = l.region.length - 1 ∧ bitsOf w 63 32 = e.len / 64 := by
  intro w
  have hw : w = (e.depth + e.plane * 2 ^ 8 + (l.region.length - 1) * 2 ^ 10 + e.len / 64 * 2 ^ 32) % 2 ^ 64 := by
    rw [← BitVec.toNat_ofNat]
    exact congrArg (fun ws : List Word => (ws.getD 0 0).toNat) (s.entryWords_eq l e)
  rw [bitsOf_eq _ (n := 8) rfl, bitsOf_eq _ (n := 2) rfl, bitsOf_eq _ (n := 4) rfl, bitsOf_eq _ (n := 32) rfl, hw]
  refine ⟨?_, ?_, ?_, ?_⟩ <;> omega

theorem State.getD_entryWords_cfg (hcfg : e.cfg < 256) : ((s.entryWords l e).getD 1 0).toNat = e.cfg := by
  refine (congrArg (fun ws : List Word => (ws.getD 1 0).toNat) (s.entryWords_eq l e)).trans ?_
  change (BitVec.ofNat 64 (e.cfg % 256)).toNat = e.cfg
  rw [BitVec.toNat_ofNat]
  omega

end

end Sys2Proof.Machine

namespace Sys2Proof.Claims

open Sys2Proof.Machine

/-! The freeze point (R309, R310, R317) -/

theorem exec_freezePoint (u : Nat) (s : State) : exec (.freezePoint u) s = execFreezePoint u s := rfl

section
variable {u : Nat} {s : State} {l : Launch} (hl : s.launch? u = some l) (hgoes : l.goes = true) (hcommit : s.committingIn l = false)
include hl hgoes hcommit

theorem exec_freezePoint_of_call (hstage : l.callStage = 1) : exec (.freezePoint u) s =
    .next ((s.atFreeze l).nextStamp.2.modLaunch u fun k =>
      k.called (s.atFreeze l).stamp (l.levelNow (s.getTile (l.region.headD 0))) ((s.atFreeze l).deeper l)) := by
  have hcond : (!(l.callStage == 1 || l.callStage == 11) || !l.goes || s.committingIn l) = false := by rw [hstage, hgoes, hcommit]; rfl
  rw [exec_freezePoint, execFreezePoint, hl]
  exact (if_neg (by rw [hcond]; decide)).trans (if_pos hstage)

theorem exec_freezePoint_of_exchange (hstage : l.callStage = 11) : exec (.freezePoint u) s =
    .next ((s.atFreeze l).nextStamp.2.modLaunch u fun k => k.parks (s.atFreeze l).stamp) := by
  have hcond : (!(l.callStage == 1 || l.callStage == 11) || !l.goes || s.committingIn l) = false := by rw [hstage, hgoes, hcommit]; rfl
  rw [exec_freezePoint, execFreezePoint, hl]
  exact (if_neg (by rw [hcond]; decide)).trans (if_neg (by rw [hstage]; decide))

end

/-! A plane spills (R301, R312) -/

theorem exec_planeSpillEnd (u : Nat) (s : State) : exec (.planeSpillEnd u) s =
    match s.launch? u with
    | none => s.stutter
    | some l =>
      match l.callStage, l.spilling with
      | 3, some v => s.spillEnd u l v
      | _, _ => s.stutter := rfl

section
variable {u : Nat} {s : State} {l : Launch} {v : Level} {p : Nat} (hl : s.launch? u = some l) (hstage : l.callStage = 3)
  (hspilling : l.spilling = some v) (hplane : v.plane = some p)
include hl hstage hspilling hplane

/-- The end of a spill goes by whether the plane's entry has a place in staging. -/
theorem exec_planeSpillEnd_of_level : exec (.planeSpillEnd u) s =
    match s.pushPlane u l p v.depth (v.cfg.getD 0) with
    | .error c => .next (s.faultLaunch u c (l.region.headD 0) (l.spillArea + l.stackTop))
    | .ok none => s.stutter
    | .ok (some w) => .next ((w.bindCmds l u v.depth (some p) none).modLaunch u fun l => l.spillEnded p v.depth) := by
  have hp : v.plane.getD 0 = p := by rw [hplane]; rfl
  rw [exec_planeSpillEnd, hl]
  simp only [hstage, hspilling, State.spillEnd, hp]

end

/-! A plane is refilled (R301, R312, R313) -/

theorem exec_refillStart (u : Nat) (s : State) : exec (.refillStart u) s = execRefillStart u s := rfl
theorem exec_refillEnd (u : Nat) (s : State) : exec (.refillEnd u) s = execRefillEnd u s := rfl

/-- A refill that is due starts into the lowest plane that is FREE, once none runs and no call wants one. -/
theorem exec_refillStart_of_due {u p d : Nat} {s : State} {l : Launch} (hl : s.launch? u = some l) (hidle : l.refilling = none)
    (hstage : l.callStage = 0) (hst : l.st = .running ∨ l.st = .pending) (hdue : l.refillDue = some d) (htop : l.onTop d = true)
    (hfree : l.lowestFree = some p) : exec (.refillStart u) s = .next (s.modLaunch u fun l => l.refillInto p d) := by
  have hready : (l.refilling.isNone && l.callStage == 0 && (l.st == .running || l.st == .pending)) = true := by
    simp [hidle, hstage, hst]
  rw [exec_refillStart, execRefillStart, hl]
  simp only [hready, hdue, hfree]
  exact if_pos htop

/-- The end of a refill goes by what reading the entry back answers. -/
theorem exec_refillEnd_of_entry {u p d : Nat} {s : State} {l : Launch} {e : SpillEnt} (hl : s.launch? u = some l)
    (hrefill : l.refilling = some (p, d)) (hlast : l.stack.getLast? = some e) (hdepth : e.depth = d) : exec (.refillEnd u) s =
    match s.popPlane u l e p with
    | .error c => .next (s.faultLaunch u c (l.region.headD 0) (l.spillArea + e.off))
    | .ok w => .next ((w.bindCmds l u d none (some p)).modLaunch u fun l => l.refilled p d e.cfg) := by
  rw [exec_refillEnd, execRefillEnd, hl]
  simp only [hrefill, hlast]
  exact (if_neg (not_not.2 hdepth)).trans rfl

/-! A preload ends (R316, R318) -/

theorem exec_preloadEnd (u : Nat) (s : State) : exec (.preloadEnd u) s = execPreloadEnd u s := rfl

section
variable {u p idx : Nat} {s : State} {l : Launch} {cfg : ConfigImg}

theorem exec_preloadEnd_of_loading (hl : s.launch? u = some l) (hloading : [0, 1, 2].find? (fun p => (l.plane p).st == .loading) = some p)
    (hst : l.st = .running ∨ l.st = .pending ∨ l.st = .stopping) (hidx : (l.plane p).cfg = some idx) :
    exec (.preloadEnd u) s = .next (s.preloaded u l p idx) := by
  have hlive : (l.st == .running || l.st == .pending || l.st == .stopping) = true := by simp [hst, or_assoc]
  rw [exec_preloadEnd, execPreloadEnd, hl]
  simp only [hloading, hlive, hidx]

/-- A configuration that passes the loader's checks is in its plane. -/
theorem preloaded_of_good (hcfg : s.config? l idx = some cfg) (hbad : cfg.bad = none)
    (hpage : l.service = true ∨ ∃ x, s.areaPage l.die l.vmid (s.folio l).va .x = .ok x) : s.preloaded u l p idx =
      (s.writePlane l cfg p).modLaunch u fun l => l.setPlane p { l.plane p with st := .preloaded } := by
  obtain hservice | ⟨x, hx⟩ := hpage
  · simp only [State.preloaded, hcfg, hbad, hservice, if_true]
  · simp only [State.preloaded, hcfg, hbad, hx, ite_self]

theorem preloaded_of_bad {c : Nat} (hcfg : s.config? l idx = some cfg) (hbad : cfg.bad = some c) :
    s.preloaded u l p idx = s.faultLaunch u c (l.region.headD 0) 0 := by
  simp only [State.preloaded, hcfg, hbad]

theorem preloaded_of_unreached {c : Nat} (hcfg : s.config? l idx = some cfg) (hbad : cfg.bad = none) (huser : l.service = false)
    (hpage : s.areaPage l.die l.vmid (s.folio l).va .x = .error c) : s.preloaded u l p idx = s.faultLaunch u c (l.region.headD 0) 0 := by
  simp only [State.preloaded, hcfg, hbad, huser, hpage, Bool.false_eq_true, if_false]

end

/-! Staging is written back (R312) -/

theorem exec_stagingWriteback (die : Nat) (s : State) : exec (.stagingWriteback die) s = execStagingWriteback die s := rfl

/-- The oldest entry of a die's staging goes to memory where its area can be written. -/
theorem exec_stagingWriteback_of_oldest {die : Nat} {s : State} {g : Staged} {r : List Staged} {l : Launch} {e : SpillEnt}
    (hstaging : (s.getDie die).staging = g :: r) (hl : s.launch? g.owner = some l)
    (hentry : l.stack.find? (fun e => l.spillArea + e.off == g.addr) = some e) : exec (.stagingWriteback die) s =
    let off := s.modDie die fun d => { d with staging := r }
    match s.areaFault l.die l.vmid g.addr e.len .w with
    | some c => .next (off.faultLaunch g.owner c (l.region.headD (die * 100)) g.addr)
    | none => .next (off.areaWrite l.die l.vmid g.addr (off.entryWords l e)) := by
  rw [exec_stagingWriteback, execStagingWriteback, hstaging]
  simp only [hl, hentry] <;> rfl

/-- Settles O46: each event is one branch of its step, and the launch that it leaves is written out (`Launch.called`, `Launch.parks`,
`Launch.spillEnded`, `Launch.refilled`); what a spill entry says is read from its first sixteen words (`State.entryWords_eq`). -/
theorem planesFreezeSpillAndRefill : Obligations.PlanesFreezeSpillAndRefill := by
  unfold Obligations.PlanesFreezeSpillAndRefill
  refine ⟨fun u s l p hl hstage hgoes hcommit hactive => ?call, fun u s l p hl hstage hgoes hcommit hactive => ?exchange,
    fun u s l v p w hl hstage hspilling hplane => ?spill,
    fun u s l p d hl hidle hstage hst hdue htop hfree => exec_refillStart_of_due hl hidle hstage hst hdue htop hfree,
    fun l v p hspilled hidle htop hcleared => ⟨Launch.refillCaller_of_cleared hspilled hidle htop hcleared,
      Launch.refillBelow_of_cleared hspilled hidle htop hcleared⟩,
    fun l v hspilled hbusy hlast => Launch.refillBelow_of_busy hspilled hbusy hlast,
    fun u s l p d e hl hrefill hlast hdepth => ?refill, fun s u l e p hreached => ?pop,
    fun u s l p cfg idx hl hloading hst hidx hcfg => ?preload, fun die s g r l e hstaging hl hentry => ?writeback,
    fun s l e hlo hhi hdepth hplane hcfg hlen => ?entry⟩
  case call =>
    have hlaunch := State.launch?_modLaunch_of_some (s := (s.atFreeze l).nextStamp.2) ((s.launch?_atFreeze l u).trans hl) fun k =>
      k.called (s.atFreeze l).stamp (l.levelNow (s.getTile (l.region.headD 0))) ((s.atFreeze l).deeper l)
    rw [Launch.called_of_active hactive] at hlaunch
    have hplane := l.plane_setPlane_same p { l.plane p with st := .frozen, depth := l.depth, parked := (s.atFreeze l).stamp }
    obtain ⟨hwait, hmem, hnet⟩ := s.frozen_frame l u (fun k =>
      k.called (s.atFreeze l).stamp (l.levelNow (s.getTile (l.region.headD 0))) ((s.atFreeze l).deeper l)) (by rw [hactive]; rfl)
    exact ⟨_, _, exec_freezePoint_of_call hl hgoes hcommit hstage, hlaunch, rfl, rfl, rfl, rfl, congrArg PlaneInfo.st hplane,
      congrArg PlaneInfo.depth hplane, hwait, s.deeper_atFreeze l, hmem, hnet⟩
  case exchange =>
    have hlaunch := State.launch?_modLaunch_of_some (s := (s.atFreeze l).nextStamp.2) ((s.launch?_atFreeze l u).trans hl) fun k =>
      k.parks (s.atFreeze l).stamp
    rw [Launch.parks_of_active hactive] at hlaunch
    have hplane := l.plane_setPlane_same p { l.plane p with st := .parked, run := l.run, runId := l.runId, parked := (s.atFreeze l).stamp }
    obtain ⟨hwait, hmem, hnet⟩ := s.frozen_frame l u (fun k => k.parks (s.atFreeze l).stamp) (by rw [hactive]; rfl)
    exact ⟨_, _, exec_freezePoint_of_exchange hl hgoes hcommit hstage, hlaunch, rfl, rfl, congrArg PlaneInfo.st hplane,
      congrArg PlaneInfo.run hplane, congrArg PlaneInfo.runId hplane, hwait, rfl, hmem, hnet⟩
  case spill =>
    have hrun := exec_planeSpillEnd_of_level hl hstage hspilling hplane
    refine ⟨fun hpush => ?_, fun c hpush => ?_⟩
    · rw [hpush] at hrun
      obtain ⟨e, he⟩ := State.launch?_pushPlane hpush
      have hlaunch := State.launch?_modLaunch_of_some ((w.launch?_bindCmds l u v.depth (some p) none u).trans he) fun l => l.spillEnded p v.depth
      refine ⟨_, _, hrun, hlaunch, rfl, ?_, ?_, ?_, ?_, fun x hx hdepth => Launch.spilled_of_mem_spillEnded hx hdepth⟩
      · exact congrArg PlaneInfo.st (Launch.plane_setPlane_same _ p PlaneInfo.empty)
      · exact congrArg PlaneInfo.busy (Launch.plane_setPlane_same _ p PlaneInfo.empty)
      · exact List.length_append
      · rw [State.modLaunch_mem, State.bindCmds_mem, State.pushPlane_mem hpush]
    · rwa [hpush] at hrun
  case refill =>
    have hrun := exec_refillEnd_of_entry hl hrefill hlast hdepth
    refine ⟨fun w hpop => ?_, fun c hpop => ?_⟩
    · rw [hpop] at hrun
      have hw : w.launch? u = some l := (congrArg (fun m => smFind m u) (State.launches_popPlane hpop)).trans hl
      have hlaunch := State.launch?_modLaunch_of_some ((w.launch?_bindCmds l u d none (some p) u).trans hw) fun l => l.refilled p d e.cfg
      have hplane := Launch.plane_setPlane_same l p { PlaneInfo.empty with st := .frozen, cfg := some e.cfg, depth := d }
      exact ⟨_, _, hrun, hlaunch, rfl, rfl, congrArg PlaneInfo.st hplane, congrArg PlaneInfo.depth hplane,
        congrArg PlaneInfo.cfg hplane, by simp [Launch.refilled]⟩
    · rwa [hpop] at hrun
  case pop =>
    have hpop := State.popPlane_of_reached (u := u) (plane := p) hreached
    refine ⟨fun hunstaged hcrcs => hpop.trans (if_pos (by rw [hunstaged, hcrcs]; rfl)), fun hheld => ?_⟩
    have hok : ¬ (!s.isStaged u l e && !s.crcsHold l e) = true := by
      obtain h | h := hheld <;> simp [h]
    refine ⟨_, hpop.trans (if_neg hok), State.popPlane_mem (hpop.trans (if_neg hok)), ?_⟩
    rw [State.isStaged_vaultUnit, State.isStaged_unstage]
  case preload =>
    have hrun := exec_preloadEnd_of_loading hl hloading hst hidx
    refine ⟨fun hbad hpage => ?_, fun c hbad => hrun.trans (congrArg _ (preloaded_of_bad hcfg hbad)),
      fun c hbad huser hpage => hrun.trans (congrArg _ (preloaded_of_unreached hcfg hbad huser hpage))⟩
    have hl' : (s.writePlane l cfg p).launch? u = some l := (congrArg (fun m => smFind m u) (s.writePlane_launches l cfg p)).trans hl
    have hlaunch := State.launch?_modLaunch_of_some hl' fun l => l.setPlane p { l.plane p with st := .preloaded }
    have hplane := Launch.plane_setPlane_same l p { l.plane p with st := .preloaded }
    exact ⟨_, _, hrun.trans (congrArg _ (preloaded_of_good hcfg hbad hpage)), hlaunch, congrArg PlaneInfo.st hplane,
      (congrArg PlaneInfo.cfg hplane).trans hidx, by simp, by simp⟩
  case writeback =>
    have hrun := exec_stagingWriteback_of_oldest hstaging hl hentry
    refine ⟨fun hreached => ?_, fun c hfault => ?_⟩
    · rwa [hreached] at hrun
    · rwa [hfault] at hrun
  case entry =>
    obtain ⟨hdepthField, hplaneField, htilesField, hlenField⟩ := s.bitsOf_entryWords_header l e hlo hhi hdepth hplane hlen
    refine ⟨hdepthField, hplaneField, htilesField, hlenField, s.getD_entryWords_cfg l e hcfg, fun k hk hk8 => ?_, fun i t hi => ?_⟩
    · exact congrArg BitVec.toNat (s.getD_entryWords_zero l e hk hk8)
    · have hlt : i < l.region.length := (List.getElem?_eq_some_iff.1 hi).1
      exact s.bitsOf_entryWords_crc l e hi (by omega)

end Sys2Proof.Claims
